-- ==== Sys2Proof/Word.lean ====
section
/-! DEFINITION. The plain word types of the GN3-6496 model: bytes, 64-byte Runner lines, and the
little-endian reading and writing of multi-byte fields (R3, R4). -/

namespace Sys2Proof

/-- One byte. -/
abbrev Byte := BitVec 8

/-- One 64-byte Runner line; byte `b` of the line is bits `8b+7:8b` (R4, R33). -/
abbrev Line := BitVec 512

/-- One write-data line with its 64 byte enables (R36, `WD_DATA` and `WD_BE`). -/
abbrev WLine := Line × BitVec 64

end Sys2Proof
end

