-- ==== Sys2Proof/Syntax.lean ====
section
/-! DEFINITION. The commands of the block: one constructor per row of spec/opcode_table.json, with the
operands that the row's event brings from outside the state, and the data types of those operands. -/

namespace Sys2Proof

/-- The four mailbox ports (Table 19.2). -/
inductive Port where
  | mb0 | mb1 | mb2 | mb3
deriving DecidableEq, Repr

/-- The straps of Table 3.4, as the pins stand at the rising edge of `PORST_N` (R70). -/
structure Straps where
  xtalDly : Fin 8
  holdPull : Bool
  hostSel : Bool
  flashQuad : Bool
deriving DecidableEq, Repr

/-- The clock switches of Table 16.3. -/
inductive ClockSwitch where
  | rootRef
  | hearth
  | bramA (mem : Fin 16384)
  | dspDomain (d : Fin 4)
deriving DecidableEq, Repr

/-- The two die-to-die interfaces (Table 1.2). -/
inductive BondFace where
  | copeDrag | dragHearth
deriving DecidableEq, Repr

/-- A bundle of vertical bonds of one region (R9, R10, R119, Table 5.2, R197). -/
inductive BondBundle where
  /-- Fabric or border bundle `bundle` of the block at `lx`, `ly`; the numbers are those of `BUNDLE`
  in Table 5.3 (0 down, 1 up, 2 to 25 border). -/
  | fabric (lx : Fin 64) (ly : Fin 32) (bundle : Fin 26)
  /-- Direct-access bundle `n` of block memory `mem`'s ports: 0 to 3 down of port A, 4 to 7 down of port B, 8 to 10 up of
  port A, 11 to 13 up of port B (R111). -/
  | bramPort (mem : Fin 256) (n : Fin 14)
  /-- The `PCLK` clock bond of block memory `mem` (R197). -/
  | pclk (mem : Fin 256)
  /-- Direct-access bundle `n` of DSP engine `j` of the region: 0 to 4 down, 5 to 9 up. -/
  | dspPort (j : Fin 32) (n : Fin 10)
  /-- Direct-access bundle `n` of fabric Runner port `p`, 0 to 20 down, 21 to 37 up; it crosses both interfaces and has its
  bonds at each (R10). -/
  | runnerPort (p : Fin 8) (n : Fin 38) (face : BondFace)
  /-- Bundle `n` of the plane-fill path and the other feed-through paths (R15), at one of the two interfaces that it crosses.
  The manual gives no number of them: DESIGN CHOICE of 64 (notes/assumptions/175.md). -/
  | feedThrough (n : Fin 64) (face : BondFace)
deriving DecidableEq, Repr

/-- A bus bundle of one region (R10). -/
structure BusBundle where
  region : Fin 64
  bundle : BondBundle
deriving DecidableEq, Repr

/-- What one sweep measured of one bond (R473). -/
structure BondFinding where
  region : Fin 64
  bundle : BondBundle
  /-- Position of the bond in the bundle. -/
  position : Fin 35
  /-- A vector was delivered wrongly. -/
  wrong : Bool
  /-- The bond's resistance in percent of its time-zero value. -/
  percent : Nat
deriving DecidableEq, Repr

/-- A checker of one region that failed its bypass vectors (R414); the checker numbers are those of
Table 19.18: 0 block memory port G8, 1 DSP engine memory G8, 2 Ingot bank G16, 3 scrubber port G64. -/
structure CheckerFailure where
  region : Fin 64
  checker : Fin 4
deriving DecidableEq, Repr

/-- Who issues a Runner request (Table 2.6): the unit and, for a region, its port. -/
inductive Source where
  | fabric (region : Fin 64) (port : Fin 8)
  | dsp (engine : Fin 2048)
  | fillPort (region : Fin 64)
  | cupola
  | host
  | mb0
  | mb3
  | ladle
  | fettler
  | riser
  | sprue
  | rekey
deriving DecidableEq, Repr

/-- The header of a Runner request (Table 2.3). `len` is the number of lines minus one. -/
structure ReqHdr where
  src : Source
  addr : BitVec 49
  len : Fin 64
  tag : Fin 64
  qos : Fin 4
  win : Fin 16
deriving DecidableEq, Repr

/-- The operations of Table 2.2 that a request may carry. -/
inductive RemoteOp where
  | read | write | add32 | add64 | swap32 | swap64
deriving DecidableEq, Repr

/-- The signals of one block memory port at an edge (Table 8.2). -/
structure PortOp where
  en : Bool
  we : Bool
  addr : BitVec 15
  be : BitVec 8
  di : BitVec 80
  oce : Bool
  orst : Bool
deriving DecidableEq, Repr

/-- A Sprue message or transaction as it arrives whole: the 16-byte transport header (Table 11.5) and
the body. -/
structure Message where
  header : BitVec 128
  body : List Byte
deriving DecidableEq, Repr

/-- The sweeps of Table 15.4 and their trackers. -/
inductive SweepTarget where
  | frames (r : Fin 64)
  | brams (r : Fin 64)
  | dsp (r : Fin 64)
  | ingot (r : Fin 64)
  | hbm (pc : Fin 64)
deriving DecidableEq, Repr

/-- What one region did in the last microsecond, as the governor's counters give it (R453). -/
structure Activity where
  region : Fin 64
  blockEdges : Nat
  engineCycles : Nat
  engineCyclesFull : Nat
  memOps : Nat
deriving DecidableEq, Repr

/-- What the collars of one slice of the full self-test report (R478). `pattern` 4 is TB. -/
structure SliceOutcome where
  region : Fin 64
  slice : Fin 8
  pattern : Fin 5
  failing : List (Nat × Nat)
deriving DecidableEq, Repr

/-- The causes of an endpoint reset by R515. -/
inductive PcieResetKind where
  | functionLevel | hot | linkDown
deriving DecidableEq, Repr

/-- Why a received flit is discarded whole (R296, R297, R299, R300). -/
inductive FlitFault where
  | crc | framing | malformed
deriving DecidableEq, Repr

/-- The signals of the `SLOT_PORT` primitive that the fabric drives (Table 6.6). -/
structure SlotPins where
  holdSwitch : Bool
  swReq : Bool
  swPlane : Fin 4
deriving DecidableEq, Repr

/-- The hard port interfaces of a region (R110, R103, R146, R197, R417, R486); the signals of each direction are numbered from 0 in the
order of its signal table (R111). -/
inductive HardPort where
  /-- A port of a block memory (Table 8.2). -/
  | bram (mem : Nat) (isA : Bool)
  /-- The `PCLK` output of a block memory's carrying block 0 (R197). -/
  | pclk (mem : Nat)
  /-- An engine's interface (Table 9.9). -/
  | dsp (engine : Nat)
  /-- A `RUNNER_PORT` (Table 2.3). -/
  | runner (port : Nat)
  /-- `SLOT_PORT`, `MAILBOX_PORT` and `CRC_PORT` (Tables 6.6, 19.5, 15.13). -/
  | slot | mailbox | crc
  /-- An I/O of the region's GPIO bank: `O0`, `O1`, `OE`; `I0`, `I1` (R510). -/
  | gpio (io : Nat)
deriving DecidableEq, Repr

/-- What comes from outside the model's state at one edge of a region's fabric clock. -/
structure FabricInputs where
  /-- Levels of the balls of the region's GPIO bank at the rising edge and at the preceding falling edge (R510). -/
  rise : BitVec 48
  fall : BitVec 48
  /-- Signals that are high, in the cycle that begins, of the ports whose handshakes the mesh, Cupola or a CRC unit drives:
  `RUNNER_PORT`, `MAILBOX_PORT` and `CRC_PORT` (notes/assumptions/170.md). -/
  ports : List (HardPort × Nat)
deriving DecidableEq, Repr

/-- The commands, in the order of spec/opcode_table.json. A Cudex command (`p`, `sl`) is the taking of the
request that stands in slot `sl` of port `p` (R484). -/
inductive Instr where
  /-- AON_POWER_UP (R61). -/
  | aonPowerUp
  /-- POWER_OFF (R535). -/
  | powerOff
  /-- PORST_N_ASSERT (R66). -/
  | porstAssert
  /-- PORST_N_RELEASE (R70). -/
  | porstRelease (straps : Straps)
  /-- WRST_N_LOW_DETECTED (R71). -/
  | wrstLowDetected
  /-- WARM_RESET_BEGIN (R69). -/
  | warmResetBegin
  /-- CRYSTAL_WAIT_END (R421). -/
  | crystalWaitEnd
  /-- MONITOR_WINDOW (R425). -/
  | monitorWindow (count : Nat)
  /-- ROOT_PLL_LOCK (R422). -/
  | rootPllLock
  /-- CLOCK_SWITCH_ACK (R430). -/
  | clockSwitchAck (sw : ClockSwitch)
  /-- CLOCK_SWITCH_CHECK (R430). -/
  | clockSwitchCheck (sw : ClockSwitch) (dead : Bool)
  /-- FIRMWARE_AUTHENTICATED (R172). -/
  | firmwareAuthenticated
  /-- HBM_ZERO_FILL_COMPLETE (R378). -/
  | hbmZeroFillComplete
  /-- BOOT_BOND_SWEEP_COMPLETE (R473). -/
  | bootBondSweepComplete (findings : List BondFinding) (checkers : List CheckerFailure)
  /-- BOOT_LOAD_COMPLETE (R189). -/
  | bootLoadComplete
  /-- RELEASE_ISOLATION_OPEN (R72). -/
  | releaseIsolationOpen
  /-- RELEASE_OUTPUT_ENABLE (R72). -/
  | releaseOutputEnable
  /-- COOLDOWN_END (R452). -/
  | cooldownEnd
  /-- BUS_TRANSFER (R10). -/
  | busTransfer (b : BusBundle) (first : BitVec 33) (second : BitVec 33)
  /-- QUIESCE_ACK (R19). -/
  | quiesceAck (r : Fin 64)
  /-- QUIESCE_TIMEOUT (R19). -/
  | quiesceTimeout (r : Fin 64)
  /-- SHELF_SAVE_COMPLETE (R441). -/
  | shelfSaveComplete (r : Fin 64)
  /-- POWER_ENTRY_COMPLETE (R21). -/
  | powerEntryComplete (r : Fin 64)
  /-- POWER_EXIT_COMPLETE (R442). -/
  | powerExitComplete (r : Fin 64) (checker : Option (Fin 4))
  /-- READ (R39). -/
  | read (h : ReqHdr)
  /-- WRITE (R39). -/
  | write (h : ReqHdr) (lines : List WLine)
  /-- ADD32 (R34). -/
  | add32 (h : ReqHdr) (operand : Line)
  /-- ADD64 (R34). -/
  | add64 (h : ReqHdr) (operand : Line)
  /-- SWAP32 (R34). -/
  | swap32 (h : ReqHdr) (operand : Line)
  /-- SWAP64 (R34). -/
  | swap64 (h : ReqHdr) (operand : Line)
  /-- RUNNER_RESPONSE (R37). -/
  | runnerResponse (src : Source) (tag : Fin 64)
  /-- RUNNER_TIMEOUT (R41). -/
  | runnerTimeout (src : Source) (tag : Fin 64)
  /-- ROUTER_WAIT_PROMOTION (R48). -/
  | routerWaitPromotion (src : Source) (tag : Fin 64)
  /-- HBM_QUEUE_AGED (R50). -/
  | hbmQueueAged (src : Source) (tag : Fin 64)
  /-- RUNNER_COUNTERS (R56). -/
  | runnerCounters (p : Port) (sl : Fin 4)
  /-- DEVICE_MODE (R61). -/
  | deviceMode (p : Port) (sl : Fin 4)
  /-- WARM_RESET (R69). -/
  | warmReset (p : Port) (sl : Fin 4)
  /-- REGION_RESET (R67). -/
  | regionReset (p : Port) (sl : Fin 4)
  /-- REGION_RESET_END (R67). -/
  | regionResetEnd (r : Fin 64)
  /-- TICK_BOUNDARY (R139). -/
  | tickBoundary
  /-- SLOT_BOUNDARY (R147). -/
  | slotBoundary (k : Fin 16)
  /-- DELAYED_SWITCH (R153). -/
  | delayedSwitch (r : Fin 64)
  /-- GRACE_EXPIRY (R153). -/
  | graceExpiry (r : Fin 64)
  /-- TICK_IN_EDGE (R137). -/
  | tickInEdge (pos : Nat)
  /-- TICK_HOLDOVER (R137). -/
  | tickHoldover
  /-- TICK_CONFIG (R141). -/
  | tickConfig (p : Port) (sl : Fin 4)
  /-- SCHEDULE_SET (R144). -/
  | scheduleSet (p : Port) (sl : Fin 4)
  /-- PLANE_FILL (R130). -/
  | planeFill (p : Port) (sl : Fin 4)
  /-- PLANE_FILL_COMPLETE (R130). -/
  | planeFillComplete (r : Fin 64)
  /-- PLANE_OVERRIDE (R149). -/
  | planeOverride (p : Port) (sl : Fin 4)
  /-- PLANE_STATUS (R128). -/
  | planeStatus (p : Port) (sl : Fin 4)
  /-- SPINE_CONTENTION (R116). -/
  | spineContention (r : Fin 64) (spine : Fin 64)
  /-- REGION_ISOLATE (R125). -/
  | regionIsolate (p : Port) (sl : Fin 4)
  /-- SPINE_ENABLE (R117). -/
  | spineEnable (p : Port) (sl : Fin 4)
  /-- DEFECT_MAP_READ (R123). -/
  | defectMapRead (p : Port) (sl : Fin 4)
  /-- LIB_LOAD (R188). -/
  | libLoad (p : Port) (sl : Fin 4)
  /-- IMAGE_PROCESSING_END (R186). -/
  | imageProcessingEnd
  /-- LIB_REMOVE (R184). -/
  | libRemove (p : Port) (sl : Fin 4)
  /-- LIB_QUERY (R182). -/
  | libQuery (p : Port) (sl : Fin 4)
  /-- LOAD_ACTIVE (R190). -/
  | loadActive (p : Port) (sl : Fin 4)
  /-- LOAD_ACTIVE_COMPLETE (R190). -/
  | loadActiveComplete (r : Fin 64)
  /-- FLASH_DIR_READ (R170). -/
  | flashDirRead (p : Port) (sl : Fin 4)
  /-- BRAM_PORT_OPERATION (R198). -/
  | bramPortOperation (mem : Fin 16384) (a : Option PortOp) (b : Option PortOp) (bFirst : Bool)
  /-- MAINTENANCE_STEAL (R203). -/
  | maintenanceSteal (mem : Fin 16384)
  /-- INGOT_CONFLICTS (R210). -/
  | ingotConflicts (p : Port) (sl : Fin 4)
  /-- INGOT_BANKS (R212). -/
  | ingotBanks (p : Port) (sl : Fin 4)
  /-- BRAM_CLEAR (R213). -/
  | bramClear (p : Port) (sl : Fin 4)
  /-- BRAM_CLEAR_COMPLETE (R213). -/
  | bramClearComplete (r : Fin 64)
  /-- BUNDLE (R226). -/
  | bundle (e : Fin 2048)
  /-- B (R229). -/
  | b (e : Fin 2048)
  /-- CALL (R229). -/
  | call (e : Fin 2048)
  /-- RET (R229). -/
  | ret (e : Fin 2048)
  /-- BEQZ (R229). -/
  | beqz (e : Fin 2048)
  /-- BNEZ (R229). -/
  | bnez (e : Fin 2048)
  /-- BLTZ (R229). -/
  | bltz (e : Fin 2048)
  /-- BGEZ (R229). -/
  | bgez (e : Fin 2048)
  /-- BDEC (R229). -/
  | bdec (e : Fin 2048)
  /-- LIMM (R229). -/
  | limm (e : Fin 2048)
  /-- LOOP (R233). -/
  | loop (e : Fin 2048)
  /-- NOP (R230). -/
  | nop (e : Fin 2048)
  /-- HALT (R243). -/
  | halt (e : Fin 2048)
  /-- WAITI (R230). -/
  | waiti (e : Fin 2048)
  /-- RETI (R247). -/
  | reti (e : Fin 2048)
  /-- EI (R230). -/
  | ei (e : Fin 2048)
  /-- DI (R230). -/
  | di (e : Fin 2048)
  /-- SIG (R230). -/
  | sig (e : Fin 2048)
  /-- INTERRUPT_ENTRY (R245). -/
  | interruptEntry (e : Fin 2048)
  /-- WAITI_RESUME (R245). -/
  | waitiResume (e : Fin 2048)
  /-- TIMER_EXPIRY (R245). -/
  | timerExpiry (e : Fin 2048)
  /-- DMA_DONE (R240). -/
  | dmaDone (e : Fin 2048)
  /-- DOORBELL (R238). -/
  | doorbell (e : Fin 2048)
  /-- START (R238). -/
  | start (e : Fin 2048)
  /-- STREAM_INPUT_ITEM (R236). -/
  | streamInputItem (e : Fin 2048) (k : Fin 2) (item : BitVec 64)
  /-- STREAM_OUTPUT_ITEM (R236). -/
  | streamOutputItem (e : Fin 2048) (k : Fin 2)
  /-- DSP_START (R242). -/
  | dspStart (p : Port) (sl : Fin 4)
  /-- DSP_HALT (R243). -/
  | dspHalt (p : Port) (sl : Fin 4)
  /-- DSP_STATUS (R241). -/
  | dspStatus (p : Port) (sl : Fin 4)
  /-- DSP_DOMAIN (R251). -/
  | dspDomain (p : Port) (sl : Fin 4)
  /-- AVS_ACK (R432). -/
  | avsAck (rail : Fin 5)
  /-- AVS_NO_ACK (R433). -/
  | avsNoAck (rail : Fin 5)
  /-- AVS_SETTLE_END (R432). -/
  | avsSettleEnd (d : Fin 4)
  /-- DOMAIN_PLL_RELOCK (R251). -/
  | domainPllRelock (d : Fin 4)
  /-- LANE_CONFIG (R292). -/
  | laneConfig (p : Port) (sl : Fin 4)
  /-- LANE_STATUS (R269). -/
  | laneStatus (p : Port) (sl : Fin 4)
  /-- LANE_RESET (R271). -/
  | laneReset (p : Port) (sl : Fin 4)
  /-- LANE_SLIP (R280). -/
  | laneSlip (p : Port) (sl : Fin 4)
  /-- LANE_EYESCAN (R282). -/
  | laneEyescan (p : Port) (sl : Fin 4)
  /-- EYESCAN_COMPLETE (R283). -/
  | eyescanComplete (lane : Fin 96) (counts : List Nat)
  /-- LANE_PRBS (R285). -/
  | lanePrbs (p : Port) (sl : Fin 4)
  /-- LANE_INJECT (R287). -/
  | laneInject (p : Port) (sl : Fin 4)
  /-- INJECT_ERROR (R287). -/
  | injectError (lane : Fin 96)
  /-- LANE_LOOPBACK (R288). -/
  | laneLoopback (p : Port) (sl : Fin 4)
  /-- LANE_PLL_LOCKED (R269). -/
  | lanePllLocked (g : Fin 12) (pll : Fin 2)
  /-- LANE_PLL_LOCK_LOST (R271). -/
  | lanePllLockLost (g : Fin 12) (pll : Fin 2)
  /-- CDR_LOCKED (R269). -/
  | cdrLocked (lane : Fin 96)
  /-- TRAINING_FRAME (R275). -/
  | trainingFrame (lane : Fin 96) (control : BitVec 16) (status : BitVec 16)
  /-- TRAINING_DONE (R276). -/
  | trainingDone (lane : Fin 96)
  /-- TRAINING_TIMEOUT (R276). -/
  | trainingTimeout (lane : Fin 96)
  /-- LANE_LOCK_ACQUIRED (R269). -/
  | laneLockAcquired (lane : Fin 96)
  /-- LANE_LOCK_LOST (R269). -/
  | laneLockLost (lane : Fin 96)
  /-- LANE_SIGNAL_LOST (R269). -/
  | laneSignalLost (lane : Fin 96)
  /-- LANE_RECEIVE_UNIT (R267): `n` levels on the line, the first at bit 0: `upper` tells which lie above the middle, `lower` which
  are the higher of their half; NRZ uses the outer two levels. In a loopback of depth 1 or 2 their number alone counts. -/
  | laneReceiveUnit (lane : Fin 96) (n : Nat) (upper : Nat) (lower : Nat)
  /-- LANE_FLUSH_TIMEOUT (R267). -/
  | laneFlushTimeout (lane : Fin 96)
  /-- LANE_TRANSMIT_ITEM (R268). -/
  | laneTransmitItem (lane : Fin 96)
  /-- AGEING_EYESCAN (R277). -/
  | ageingEyescan (lane : Fin 96) (width : Nat) (height : Nat) (plan : Fin 6)
  /-- LINK_CONFIG (R293). -/
  | linkConfig (p : Port) (sl : Fin 4)
  /-- LINK_STATUS (R295). -/
  | linkStatus (p : Port) (sl : Fin 4)
  /-- LINK_RESET (R324). -/
  | linkReset (p : Port) (sl : Fin 4)
  /-- LINK_LOOPBACK (R326). -/
  | linkLoopback (p : Port) (sl : Fin 4)
  /-- SPRUE_QUEUE (R316). -/
  | sprueQueue (p : Port) (sl : Fin 4)
  /-- FLIT_OPPORTUNITY (R312). -/
  | flitOpportunity (l : Fin 48)
  /-- DATA (R302). -/
  | data (l : Fin 48) (lane : Fin 8) (f : Line)
  /-- LINKCTL (R311). -/
  | linkctl (l : Fin 48) (lane : Fin 8) (f : Line)
  /-- NAK (R305). -/
  | nak (l : Fin 48) (lane : Fin 8) (f : Line)
  /-- HELLO (R321). -/
  | hello (l : Fin 48) (lane : Fin 8) (f : Line)
  /-- TIME (R353). -/
  | time (l : Fin 48) (lane : Fin 8) (f : Line)
  /-- LOOP_FLIT (R326). -/
  | loopFlit (l : Fin 48) (lane : Fin 8) (f : Line)
  /-- DOWN (R324). -/
  | down (l : Fin 48) (lane : Fin 8) (f : Line)
  /-- GAP_SKEW_TIMEOUT (R303). -/
  | gapSkewTimeout (l : Fin 48)
  /-- NAK_REPLAY_TIMEOUT (R304). -/
  | nakReplayTimeout (l : Fin 48)
  /-- REPLAY_TIMEOUT (R305). -/
  | replayTimeout (l : Fin 48)
  /-- LINK_TIMEOUT (R324). -/
  | linkTimeout (l : Fin 48)
  /-- LINK_BACKOFF_END (R325). -/
  | linkBackoffEnd (l : Fin 48)
  /-- LINK_UP_STABLE (R325). -/
  | linkUpStable (l : Fin 48)
  /-- LINK_FORMATION_TIMEOUT (R325). -/
  | linkFormationTimeout (l : Fin 48)
  /-- STARTING_DEGRADE_TIMEOUT (R319). -/
  | startingDegradeTimeout (l : Fin 48)
  /-- HELLO_INTERVAL (R320). -/
  | helloInterval (l : Fin 48)
  /-- SEND_MESSAGE (R316). -/
  | sendMessage (q : Fin 4096)
  /-- MESSAGE_CREDIT_TIMEOUT (R317). -/
  | messageCreditTimeout (l : Fin 49) (vc : Fin 8)
  /-- NODE_SET (R329). -/
  | nodeSet (p : Port) (sl : Fin 4)
  /-- WINDOW_SET (R332). -/
  | windowSet (p : Port) (sl : Fin 4)
  /-- WINDOW_RIGHTS_RECOMPUTED (R332). -/
  | windowRightsRecomputed
  /-- PROFILE_SET (R342). -/
  | profileSet (p : Port) (sl : Fin 4)
  /-- PARTNER_QUERY (R339). -/
  | partnerQuery (p : Port) (sl : Fin 4)
  /-- PARTNER_SET (R342). -/
  | partnerSet (p : Port) (sl : Fin 4)
  /-- ROUTE_SET (R348). -/
  | routeSet (p : Port) (sl : Fin 4)
  /-- TIME_CONFIG (R351). -/
  | timeConfig (p : Port) (sl : Fin 4)
  /-- TIME_STATUS (R354). -/
  | timeStatus (p : Port) (sl : Fin 4)
  /-- REMOTE_REQUEST (R334). -/
  | remoteRequest (h : ReqHdr) (op : RemoteOp) (lines : List WLine)
  /-- REMOTE_REQUEST_ACCEPTED (R334). -/
  | remoteRequestAccepted (src : Source) (tag : Fin 64)
  /-- TRANSACTION_REQUEST (R337). -/
  | transactionRequest (l : Fin 48) (m : Message)
  /-- TRANSACTION_RESPONSE (R335). -/
  | transactionResponse (l : Fin 48) (m : Message)
  /-- TRANSACTION_TIMEOUT (R335). -/
  | transactionTimeout (node : Fin 262144) (sequence : BitVec 16)
  /-- AGEING_UNIT (R344). -/
  | ageingUnit
  /-- PARTNER_EVICTION (R346). -/
  | partnerEviction (node : Fin 262144)
  /-- TIME_INTERVAL (R352). -/
  | timeInterval
  /-- PUSH (R364). -/
  | push (h : ReqHdr) (lines : List WLine)
  /-- PUSH_EOP (R364). -/
  | pushEop (h : ReqHdr) (lines : List WLine)
  /-- ABORT (R364). -/
  | abort (h : ReqHdr) (lines : List WLine)
  /-- POP (R370). -/
  | pop (h : ReqHdr)
  /-- POP_STATUS (R371). -/
  | popStatus (h : ReqHdr)
  /-- SPILL_READBACK_COMPLETE (R359). -/
  | spillReadbackComplete (q : Fin 4096) (bad : Bool)
  /-- RISER_SPILL (R360). -/
  | riserSpill (p : Port) (sl : Fin 4)
  /-- RISER_CONFIG (R375). -/
  | riserConfig (p : Port) (sl : Fin 4)
  /-- RISER_STATUS (R374). -/
  | riserStatus (p : Port) (sl : Fin 4)
  /-- RISER_RESET (R373). -/
  | riserReset (p : Port) (sl : Fin 4)
  /-- PROT_RANGE (R379). -/
  | protRange (p : Port) (sl : Fin 4)
  /-- PROT_ZERO_FILL_COMPLETE (R379). -/
  | protZeroFillComplete (range : Fin 8)
  /-- PROT_STATUS (R390). -/
  | protStatus (p : Port) (sl : Fin 4)
  /-- PROT_REKEY (R395). -/
  | protRekey (p : Port) (sl : Fin 4)
  /-- REKEY_INTERVAL (R387). -/
  | rekeyInterval
  /-- REKEY_COMPLETE (R395). -/
  | rekeyComplete
  /-- PROT_REINIT (R392). -/
  | protReinit (p : Port) (sl : Fin 4)
  /-- PROT_REINIT_COMPLETE (R392). -/
  | protReinitComplete (range : Fin 8)
  /-- FETTLER_WORD_READ (R404). -/
  | fettlerWordRead (t : SweepTarget)
  /-- FETTLER_HEARTBEAT (R407). -/
  | fettlerHeartbeat
  /-- FETTLER_WATCH (R407). -/
  | fettlerWatch
  /-- TRACKER_INTERVAL (R409). -/
  | trackerInterval (t : SweepTarget)
  /-- FETTLER_CONFIG (R404). -/
  | fettlerConfig (p : Port) (sl : Fin 4)
  /-- FETTLER_PASS (R408). -/
  | fettlerPass (p : Port) (sl : Fin 4)
  /-- FETTLER_PASS_COMPLETE (R408). -/
  | fettlerPassComplete (r : Fin 64)
  /-- INTEGRITY_COUNTERS (R400). -/
  | integrityCounters (p : Port) (sl : Fin 4)
  /-- HARD_FAULT_LOG (R410). -/
  | hardFaultLog (p : Port) (sl : Fin 4)
  /-- FAULT_RETIRE (R411). -/
  | faultRetire (p : Port) (sl : Fin 4)
  /-- HBM_REPAIR_COMPLETE (R413). -/
  | hbmRepairComplete
  /-- SPLIT_WRITE (R415). -/
  | splitWrite (p : Port) (sl : Fin 4)
  /-- CRC_BIND (R419). -/
  | crcBind (p : Port) (sl : Fin 4)
  /-- CRC_FEED (R418). -/
  | crcFeed (r : Fin 64) (unit : Fin 8) (size : Fin 4) (value : BitVec 32)
  /-- CRC_LOAD (R418). -/
  | crcLoad (r : Fin 64) (unit : Fin 8) (value : BitVec 32)
  /-- CRC_SELECT (R418). -/
  | crcSelect (r : Fin 64) (unit : Fin 8) (value : BitVec 32)
  /-- CRC_DATA (R419). -/
  | crcData (h : ReqHdr) (line : WLine)
  /-- CRC_CTRL (R419). -/
  | crcCtrl (h : ReqHdr) (line : WLine)
  /-- CRC_VALUE (R419). -/
  | crcValue (h : ReqHdr) (line : WLine)
  /-- REPLICA_READ (R437). -/
  | replicaRead (slacks : List (Fin 64 × Fin 8 × Int))
  /-- FABRIC_CLOCK_CHANGE (R424). -/
  | fabricClockChange (r : Fin 64)
  /-- CLOCK_STATUS (R429). -/
  | clockStatus (p : Port) (sl : Fin 4)
  /-- REGION_CLOCK (R424). -/
  | regionClock (p : Port) (sl : Fin 4)
  /-- REGION_POWER (R443). -/
  | regionPower (p : Port) (sl : Fin 4)
  /-- SENSOR_SAMPLE (R445). -/
  | sensorSample (raw : List Int)
  /-- GOVERNOR_ESTIMATE (R453). -/
  | governorEstimate (activity : List Activity)
  /-- GOVERNOR_EVALUATE (R454). -/
  | governorEvaluate
  /-- AGEING_MEASUREMENT (R455). -/
  | ageingMeasurement (ratios : List (Fin 64 × List Nat))
  /-- PLAN_UPDATE (R457). -/
  | planUpdate
  /-- THERM_CONFIG (R449). -/
  | thermConfig (p : Port) (sl : Fin 4)
  /-- THERM_READ (R447). -/
  | thermRead (p : Port) (sl : Fin 4)
  /-- THERM_SENSOR (R447). -/
  | thermSensor (p : Port) (sl : Fin 4)
  /-- AGEING_PLAN (R458). -/
  | ageingPlan (p : Port) (sl : Fin 4)
  /-- SLICE_END (R470). -/
  | sliceEnd (r : Fin 64) (failing : List (Nat × Nat)) (terminal : Bool)
  /-- SLICE_REPEAT (R471). -/
  | sliceRepeat (r : Fin 64) (failing : List (Nat × Nat)) (terminal : Bool)
  /-- BUS_SWEEP (R473). -/
  | busSweep (b : BusBundle) (findings : List BondFinding)
  /-- TEST_COMPLETE (R478). -/
  | testComplete (results : List SliceOutcome) (findings : List BondFinding)
  /-- SELFTEST_CONFIG (R465). -/
  | selftestConfig (p : Port) (sl : Fin 4)
  /-- SELFTEST_RUN (R161). -/
  | selftestRun (p : Port) (sl : Fin 4)
  /-- SELFTEST_STATUS (R465). -/
  | selftestStatus (p : Port) (sl : Fin 4)
  /-- BOND_STATUS (R473). -/
  | bondStatus (p : Port) (sl : Fin 4)
  /-- MACHINE_CHECK (R481). -/
  | machineCheck (cause : Fin 2) (pc : BitVec 64)
  /-- WATCHDOG_EXPIRY (R482). -/
  | watchdogExpiry
  /-- CUPOLA_RESTART_COMPLETE (R483). -/
  | cupolaRestartComplete
  /-- CUPOLA_RESTART_LIMIT (R482). -/
  | cupolaRestartLimit
  /-- RING (R484). -/
  | ring (p : Port) (sl : Fin 4)
  /-- ACK (R484). -/
  | ack (p : Port) (sl : Fin 4)
  /-- MAILBOX_REQUEST_LINE (R486). -/
  | mailboxRequestLine (r : Fin 64) (sl : Fin 4) (n : Fin 4) (line : Line) (wring : Bool)
  /-- MAILBOX_RESPONSE_LINE (R486). -/
  | mailboxResponseLine (r : Fin 64)
  /-- MAILBOX_EVENT_RECORD (R486). -/
  | mailboxEventRecord (r : Fin 64)
  /-- EV_POP (R485). -/
  | evPop (h : ReqHdr)
  /-- EVENT_WINDOW_CLOSE (R547). -/
  | eventWindowClose (code : BitVec 16) (kind : BitVec 8) (source : BitVec 16)
  /-- LEASE_EXPIRY (R496). -/
  | leaseExpiry (kind : Fin 6) (index : Fin 96)
  /-- DEBUG_LEASE_EXPIRY (R506). -/
  | debugLeaseExpiry
  /-- NONCE_EXPIRY (R505). -/
  | nonceExpiry
  /-- UNLOCK_LOCKOUT_END (R505). -/
  | unlockLockoutEnd
  /-- RES_CLAIM (R495). -/
  | resClaim (p : Port) (sl : Fin 4)
  /-- MB2_BIND (R487). -/
  | mb2Bind (p : Port) (sl : Fin 4)
  /-- CUPOLA_RESTART (R483). -/
  | cupolaRestart (p : Port) (sl : Fin 4)
  /-- FW_STAGE (R502). -/
  | fwStage (p : Port) (sl : Fin 4)
  /-- FLASH_ACCESS (R504). -/
  | flashAccess (p : Port) (sl : Fin 4)
  /-- DEBUG_UNLOCK (R505). -/
  | debugUnlock (p : Port) (sl : Fin 4)
  /-- DEBUG_STATE_READ (R505). -/
  | debugStateRead (p : Port) (sl : Fin 4)
  /-- EVENT_CONFIG (R499). -/
  | eventConfig (p : Port) (sl : Fin 4)
  /-- EVENT_LOG_READ (R500). -/
  | eventLogRead (p : Port) (sl : Fin 4)
  /-- TICK_NUMBER_LOW_READ (R139). -/
  | tickNumberLowRead (h : ReqHdr)
  /-- REGISTER_WRITE (R549). -/
  | registerWrite (h : ReqHdr) (lines : List WLine)
  /-- GPIO_BANK (R508). -/
  | gpioBank (p : Port) (sl : Fin 4)
  /-- GPIO_IO (R512). -/
  | gpioIo (p : Port) (sl : Fin 4)
  /-- DELAY_LINE_STEP (R512). -/
  | delayLineStep (io : Fin 384)
  /-- MGMT_CONFIG (R516). -/
  | mgmtConfig (p : Port) (sl : Fin 4)
  /-- HOST_STATUS (R514). -/
  | hostStatus (p : Port) (sl : Fin 4)
  /-- HOST_REQUEST (R514). -/
  | hostRequest (bar2 : Bool) (offset : BitVec 38) (rd : Bool) (bytes : List Byte) (count : Nat)
  /-- PCIE_RESET (R515). -/
  | pcieReset (kind : PcieResetKind)
  /-- PE_RST_N_ASSERT (R515). -/
  | peRstAssert
  /-- MGMT_WRITE (R517). -/
  | mgmtWrite (bytes : List Byte) (pec : Byte)
  /-- MGMT_READ (R517). -/
  | mgmtRead (offset : BitVec 16) (count : Nat)
  /-- MBACC (R521). -/
  | mbacc (dr : BitVec 50)
  /-- EXTEST (R520). -/
  | extest (boundary : List Bool)
  /-- SAMPLE_PRELOAD (R519). -/
  | samplePreload (boundary : List Bool)
  /-- IDCODE (R519). -/
  | idcode
  /-- EXTEST_PULSE (R520). -/
  | extestPulse (boundary : List Bool)
  /-- EXTEST_TRAIN (R520). -/
  | extestTrain (boundary : List Bool)
  /-- BYPASS (R519). -/
  | bypass
  /-- FABRIC_CLOCK_EDGE (R80). -/
  | fabricClockEdge (r : Fin 64) (i : FabricInputs)
  /-- FLIT_DISCARDED (R299). -/
  | flitDiscarded (l : Fin 48) (lane : Fin 8) (why : FlitFault) (f : Line)
  /-- PRBS_CHECKER_LOCK (R285). -/
  | prbsCheckerLock (lane : Fin 96)
  /-- PRBS_CHECKER_LOCK_LOST (R285). -/
  | prbsCheckerLockLost (lane : Fin 96)
  /-- PCIE_LINK_UP (R513). -/
  | pcieLinkUp (rate : Fin 5) (width : Fin 4)
  /-- PE_RST_N_RELEASE (R515). -/
  | peRstRelease
  /-- TRST_N_ASSERT (R519). -/
  | trstAssert
  /-- PROGRAM_OR_ERASE_END (R169). -/
  | programOrEraseEnd (failed : Bool)
  /-- DYNAMIC_ADDRESS_ASSIGNMENT (R516). -/
  | dynamicAddressAssignment (a : BitVec 7)
  /-- PCIE_POWER_STATE_CHANGE (R514). -/
  | pciePowerStateChange (d3hot : Bool)
  /-- UNALLOCATED_OPCODE (R7). -/
  | unallocatedOpcode (p : Port) (sl : Fin 4)
  /-- RESERVED_RUNNER_OPERATION (R33). -/
  | reservedRunnerOperation (h : ReqHdr) (op7 : Bool)
  /-- RESERVED_BRANCH_OR_SYSTEM_OP (R226). -/
  | reservedBranchOrSystemOp (e : Fin 2048)
deriving DecidableEq, Repr

end Sys2Proof
end

