-- ==== Sys2Proof/Machine/State.lean ====
section
/-! DEFINITION. The state of the GN3-6496 block: every register, memory, queue, counter and mode the manual
names, as plain data, the queue of waiting commands, and the state after reset. A `Table α` lists only the
entries that differ from a default value, in rising order of their keys (Machine/Store.lean). -/

namespace Sys2Proof.Machine

/-- A sparse table: keys strictly rising, no entry equal to the table's default. -/
abbrev Table (α : Type) := List (Nat × α)

/-- A byte memory in canonical form (strictly rising addresses, no zero byte listed). -/
abbrev Memory := List Host.Cell

/-- A request that waits for its response: port, slot, and the number of its acceptance (the model's own,
so that an answer never reaches a later request in the same slot). -/
abbrev Waiter := Port × Fin 4 × Nat

/-! ### Device modes, start-up and pins (chapter 3) -/

/-- The twelve modes of Table 3.1 (R57). -/
inductive Mode where
  | off | standby | boot | load | run | degraded | frozen | hold | cooldown | recovery | test | debug
deriving DecidableEq, Repr

/-- Progress of the start-up release of Table 3.6 (R72). -/
inductive Release where
  | none | t0 | isolationOpen | done
deriving DecidableEq, Repr

/-- Start-up progress before BOOT (Table 3.5 steps 1 to 3). -/
inductive Crystal where
  | idle | waiting | checking | locking | locked
deriving DecidableEq, Repr

/-- What the device would be doing with no overriding condition: the parts of Table 3.1 that do not depend
on the conditions ordered by R58. -/
inductive Base where
  | off | standby | boot | load | running | recovery | test
deriving DecidableEq, Repr

/-- Mode, reset, strap and alarm state (Tables 3.1, 3.4, 3.6, 3.7; R57 to R78, R393, R452). -/
structure Device where
  /-- The mode reported (Table 3.1). -/
  mode : Mode := .standby
  base : Base := .standby
  /-- The conditions that R58 orders: thermal shutdown, security alarm HOLD, commanded FROZEN, debug
  unlock. -/
  cooldown : Bool := false
  hold : Bool := false
  frozenCmd : Bool := false
  debug : Bool := false
  straps : Straps := ⟨0, false, false, false⟩
  resetCause : BitVec 4 := 1
  fwImage : BitVec 2 := 0
  patImage : BitVec 2 := 0
  firstBoot : Bool := false
  xtalOk : Bool := false
  /-- `DEV_STATE.ALARM` and `ALARM_N` asserted (R393). -/
  alarm : Bool := false
  /-- `THERM_N` asserted (R452). -/
  thermN : Bool := false
  /-- `DEVICE_MODE` FROZEN, RESUME and RELEASE (1, 2, 3) that await the next tick boundary (Table 3.8). -/
  modeDue : List (Nat × Waiter) := []
  /-- HOLD was entered during BOOT or LOAD (R62). -/
  holdInStartup : Bool := false
  /-- The regions stand stopped (R59). -/
  stopped : Bool := false
  /-- The protected ranges are closed by an alarm (R60, R63). -/
  rangesClosed : Bool := false
  porstLow : Bool := true
  /-- STANDBY was entered by command; a `WRST_N` pulse leaves it (Table 3.2). -/
  standbyCmd : Bool := false
  crystal : Crystal := .idle
  /-- Monitor windows of the start-up check seen, and whether one was bad (R421). -/
  checkSeen : Nat := 0
  checkBad : Bool := false
  fwRunning : Bool := false
  hbmReady : Bool := false
  sweepDone : Bool := false
  /-- Every region that the boot pattern names has loaded and verified (R72). -/
  loadDone : Bool := false
  release : Release := .none
  /-- A scheduled warm reset and its cause (R69), and the tick in which it begins. -/
  warmDue : Option (BitVec 4) := none
  warmTick : Nat := 0
  /-- A warm reset has begun, and Cupola answers nothing until its firmware or its ROM service serves (R69). -/
  resetSilent : Bool := false
  /-- A RESUME refused with `FAULT` while FROZEN goes on: its tick number and its local time (R64). -/
  resumeRefused : Option (BitVec 64 × Nat) := none
  /-- The outages of R64 that have ended: the tick number of the refused RESUME, and the local times of the refusal and of
  FROZEN's end. -/
  outages : List (BitVec 64 × Nat × Nat) := []
  /-- The tick number of the last mode change (Table 3.8). -/
  modeTick : BitVec 64 := 0
  /-- The ROM service of R74 serves MB1 and MB3. -/
  romService : Bool := false
deriving DecidableEq, Repr

/-! ### The tick (chapter 6) -/

/-- A tick configuration (R135, R136, R140). -/
structure TickCfg where
  period : Nat := 46875
  source : BitVec 2 := 1
  nslots : Nat := 1
  offsets : List Nat := []
deriving DecidableEq, Repr

/-- The tick generator (R135 to R141, Tables 6.2 and 6.3). -/
structure TickGen where
  number : BitVec 64 := 0
  /-- High word latched by a low-word read, for the next high-word read (Table 6.2). -/
  latched : Option (BitVec 32) := none
  cfg : TickCfg := {}
  /-- `TICK_CONFIG` waiting for its boundary; no request waits for one that the boot pattern set. -/
  shadow : Option (TickCfg × Option Waiter) := none
  align : BitVec 2 := 0
  slot : Nat := 0
  /-- The tick boundary has passed and its slot 0 boundary has not been taken. -/
  slot0Due : Bool := false
  /-- Local time of the last tick boundary. -/
  startAt : Nat := 0
  stepCount : Nat := 0
  /-- Steps made (Table 12.16). -/
  steps : Nat := 0
  missCount : Nat := 0
  edgesSeen : Bool := false
  edgeThisTick : Bool := false
  holdover : Bool := false
  /-- Units by which the tick in progress is lengthened (R137). -/
  adjust : Int := 0
  /-- Units by which the next tick is lengthened (R137). -/
  nextAdjust : Int := 0
  /-- The tick in progress is held open for a step (R137). -/
  stepping : Bool := false
  /-- The tick number has been taken from the parent since alignment began afresh (R356). -/
  numbered : Bool := false
  /-- Tick and slot boundaries since reset (the model's own, so that each engine's two edge sources are
  pending from a boundary on: Table 9.10). -/
  ticks : Nat := 0
  slots : Nat := 0
deriving DecidableEq, Repr

/-! ### Cells, planes and regions (chapters 4, 5, 6, 7, 16) -/

/-- The region power states of Table 16.6. -/
inductive Power where
  | active | gated | banked | damped | shelved | cold
deriving DecidableEq, Repr

/-- The plane states of Table 6.1. -/
inductive PlaneSt where
  | invalid | filling | valid | active | barred | test
deriving DecidableEq, Repr

/-- How a cell's LUT runs in one plane (R79, R83, R85). -/
inductive LutMode where
  | whole | split | carry | ram
deriving DecidableEq, Repr

/-- Data source of a flip-flop (R80). -/
inductive FfSrc where
  | lut | sum | bypass
deriving DecidableEq, Repr

/-- One cell's configuration in one plane (R79 to R85, R93, R95). -/
structure CellCfg where
  lut : BitVec 64 := 0
  mode : LutMode := .whole
  src0 : FfSrc := .lut
  src1 : FfSrc := .lut
  srVal0 : Bool := false
  srVal1 : Bool := false
  srAsync : Bool := false
  ceTied : Bool := false
  /-- The cell's bridge register data: `LA` or `Q0` (R93). -/
  bridgeQ0 : Bool := false
  /-- `CIN` of a south-edge cell: 0, 1 or the crossbar signal (R95). -/
  cinConst : Option Bool := none
  /-- Size of the wide multiplexer whose output is this cell's `MX` (Table 4.2): 1 to 5 for 2, 4, 8, 16 and 32 cells
  (16 cells only within the 128:1), 0 for none. -/
  wide : Nat := 0
deriving DecidableEq, Repr

/-- The port settings of one block memory in one plane (R195, Table 8.1). `widthA` and `widthB` are
element widths. -/
structure BramCfg where
  raw : Bool := false
  widthA : Nat := 0
  widthB : Nat := 0
  outRegA : Bool := false
  outRegB : Bool := false
  /-- Port A runs on `PCLK` (R197). -/
  pclk : Bool := false
deriving DecidableEq, Repr

/-! #### The routing (chapter 5) -/

/-- Directions of a wire. -/
inductive Dir where
  | north | east | south | west
deriving DecidableEq, Repr

/-- Spans of Table 5.1. -/
inductive Span where
  | one | two | four | sixteen | sixtyFour
deriving DecidableEq, Repr

/-- A wire among those that its block starts (Table 5.1). -/
structure Wire where
  dir : Dir
  span : Span
  n : Nat
deriving DecidableEq, Repr

/-- A cell's inputs from the crossbar (Table 4.1); `a k` is `A(k+1)`. -/
inductive CellPin where
  | a (k : Nat)
  | bx | by_ | ce | sr
deriving DecidableEq, Repr

/-- A cell's outputs (Table 4.1). -/
inductive CellOut where
  | la | lb | s0 | s1 | q0 | q1 | mx | cout
deriving DecidableEq, Repr

/-- Inputs of a block's crossbar (R95, R103, R107). -/
inductive XIn where
  /-- A wire's end or tap, `dist` blocks from its start. -/
  | wire (w : Wire) (dist : Nat)
  | up (n : Nat)
  | cell (c : Nat) (o : CellOut)
  | bridge (reg bit : Nat)
  /-- A signal from a port that the block carries. -/
  | port (p : HardPort) (bit : Nat)
deriving DecidableEq, Repr

/-- Outputs of a block's crossbar (R93, R95, R103, R107). -/
inductive XOut where
  | pin (c : Nat) (p : CellPin)
  /-- The crossbar signal at `CIN` of cell 0 in a south-edge block. -/
  | cin
  | bridgeEnable (reg : Nat)
  | wire (w : Wire)
  | down (n : Nat)
  /-- A signal to a port that the block carries. -/
  | port (p : HardPort) (bit : Nat)
deriving DecidableEq, Repr

/-- What a Drag switch box drives (R109). -/
inductive BoxOut where
  | wire (w : Wire)
  | up (n : Nat)
  | spineData | spineOe
deriving DecidableEq, Repr

/-- What it selects from (R109). -/
inductive BoxIn where
  | wire (w : Wire) (dist : Nat)
  | spine
  | down (n : Nat)
deriving DecidableEq, Repr

/-- A border signal that a region receives (R118): a wire that enters it, with the blocks from its start to the first block of the
region and its place along that border; or a connection from an I/O block to its GPIO registers. -/
inductive Border where
  | wire (w : Wire) (back pos : Nat)
  | gpio (io bit : Nat)
deriving DecidableEq, Repr

/-- A signal of the fabric; blocks by their coordinates (R101). -/
inductive Node where
  | xin (x y : Nat) (i : XIn)
  | xout (x y : Nat) (o : XOut)
  | box (x y : Nat) (o : BoxOut)
  /-- A wire as it is read at a block, `dist` blocks from its start. -/
  | wire (x y : Nat) (w : Wire) (dist : Nat)
  /-- The isolation cell that a wire passes as it enters the region whose first block this is, `back` blocks from its start. -/
  | crossing (x y : Nat) (w : Wire) (back : Nat)
  | cell (x y c : Nat) (o : CellOut)
  /-- The carry into a cell. -/
  | carry (x y c : Nat)
  | spine (r k : Nat)
deriving DecidableEq, Repr

/-- What a plane uses, decoded from its frames (R546). Blocks are numbered 64 × (y mod 32) + x mod 64. -/
structure PlaneUse where
  /-- Selections of the blocks' crossbars (R107), and of their Drag switch boxes (R109). -/
  xbar : List (Nat × XOut × XIn) := []
  box : List (Nat × BoxOut × BoxIn) := []
  /-- Border bonds through which a selected long wire crosses: `LX`, `LY`, `BUNDLE`, `WIRE` (R124). -/
  bonds : List (Nat × Nat × Nat × Nat) := []
  brams : List (Nat × BramCfg) := []
  /-- Spine driver enables set: spine and driver (R113). -/
  spines : List (Nat × Nat) := []
  /-- Isolation cells whose value is not drive 0 (R120). -/
  iso : List (Border × BitVec 2) := []
  slotPort : Bool := false
  mailboxPort : Bool := false
  crcPort : Bool := false
  runnerPorts : List Nat := []
  dspEngines : List Nat := []
  cells : List (Nat × CellCfg) := []
  /-- Flip-flops (2 × cell + f) whose initial value is 1 (R92). -/
  ffInit : List Nat := []
deriving DecidableEq, Repr, Inhabited

/-- One configuration frame: data bits, and the XOR of its stored check bits with those its stored data
give (zero for a consistent frame; R399). -/
structure Frame where
  data : BitVec 4096 := 0
  syn : BitVec 128 := 0
  injected : Bool := false
deriving DecidableEq, Repr

/-- One plane of a region (R88, R89, R92, R128). Frames are keyed by tier × 8192 + index (R175). -/
structure Plane where
  st : PlaneSt := .invalid
  use : PlaneUse := {}
  libIndex : Option Nat := none
  frames : Table Frame := []
  /-- Flip-flop state bits, key 2 × cell + f. -/
  ff : Table Bool := []
  /-- Cope frames changed by LUT-RAM writes since the last fill or restore (R441). -/
  changed : List Nat := []
  /-- Blocks excluded from slices by a test fill (R463). -/
  excluded : List Nat := []
  /-- The library entry it was filled from is still that entry (R184). -/
  kept : Bool := false
  /-- It holds a vendor test pattern placed by a test fill (R463). -/
  isTest : Bool := false
deriving DecidableEq, Repr

/-- A region's schedule table and parameters (Tables 6.4, 6.5). -/
structure Sched where
  entries : List (BitVec 16) := []
  grace : Nat := 0
  force : Bool := false
  warnLead : Nat := 0
  testMask : BitVec 4 := 0
deriving DecidableEq, Repr

/-- A Cudex plane override (R149, Table 6.13). `power` none takes the entry's. -/
structure Override where
  plane : Nat := 0
  power : Option Power := none
  persistent : Bool := false
  atTick : Bool := false
  force : Bool := false
  owner : Port := .mb0
  /-- Slot of `owner` whose response waits; none once answered. -/
  waiter : Option Waiter := none
deriving DecidableEq, Repr

/-- Which candidate won a boundary (R147). -/
inductive Winner where
  | override | fabric | schedule | none
deriving DecidableEq, Repr

/-- What one boundary decided for a region, while the change waits for `HOLD_SWITCH` (R153) or for the exit from
a power state (R157). -/
structure Decision where
  slot : Nat := 0
  /-- Tick number of the boundary. -/
  tick : Nat := 0
  plane : Nat := 0
  power : Power := .active
  winner : Winner := .none
  /-- The schedule entry of the slot. -/
  entry : BitVec 16 := 0
  /-- The winning override's FORCE flag, and the request it still has to answer. -/
  force : Bool := false
  waiter : Option Waiter := none
  /-- The winning override is a persistent one decided at its first boundary (R148). -/
  firstPersist : Bool := false
  /-- `SW_RESULT` of the decision. -/
  sw : BitVec 2 := 0
  /-- The region left GATED for this boundary (R440). -/
  gated : Bool := false
deriving DecidableEq, Repr

/-- A power-state transition in progress (R157, R158, R439 to R442). -/
inductive Trans where
  /-- Entry: clocks and traffic draining (R439). -/
  | entering (dest : Power)
  /-- Quiesce before a Drag power-down (R19). -/
  | quiescing (dest : Power)
  /-- SHELVED save in progress (R441). -/
  | saving
  /-- Exit (R157, R442). -/
  | exiting (left : Power)
deriving DecidableEq, Repr

/-- Scope of a region reset (Table 3.10). -/
inductive ResetScope where
  | region | cope | drag
deriving DecidableEq, Repr

/-- A reset that is held or waits for a transition (R67, R68). -/
structure ResetJob where
  scope : ResetScope := .region
  /-- The reset has begun and its 1 µs runs. -/
  begun : Bool := false
  atTick : Bool := false
  waiter : Option Waiter := none
deriving DecidableEq, Repr

/-- A plane fill (R130). `test` marks a test fill (R463). -/
structure FillJob where
  plane : Nat := 0
  index : Nat := 0
  test : Bool := false
  /-- A `LOAD_ACTIVE` fills the active plane (R190). -/
  active : Bool := false
  /-- The request it answers: `PLANE_FILL` or `LOAD_ACTIVE`, or with `lib` a `LIB_LOAD` (R188). -/
  waiter : Option Waiter := none
  lib : Bool := false
  /-- A transfer of its path ended with a bus error of integrity cause (R11). -/
  spoiled : Bool := false
deriving DecidableEq, Repr

/-- A self-test slice pending or running (R161, R470, Table 18.5). -/
structure SliceJob where
  slice : Nat := 0
  pattern : Nat := 0
  running : Bool := false
  /-- Planes to run when it ends (R161): the entry's, and the one active before the boundary where that one is not
  usable. -/
  entry : Nat := 0
  back : Nat := 0
  waiter : Option Waiter := none
deriving DecidableEq, Repr

/-- A `DSP_HALT` that waits for engines to stop (Table 9.17): the engines named, those it halts, and the
starts it cancelled. -/
structure HaltJob where
  mask : BitVec 32 := 0
  halted : BitVec 32 := 0
  cancelled : BitVec 32 := 0
  waiter : Waiter
deriving DecidableEq, Repr

/-- What the shelf slot of a region holds (R441). -/
structure Shelf where
  ff : Table Bool := []
  brg : Table (BitVec 32) := []
  frames : Table Frame := []
deriving DecidableEq, Repr

/-- Why a region is isolated (Table 5.5, R67, R72, R125, R126, R190, R405, R412, R414, R471, R477, R478). -/
inductive IsoCause where
  /-- Named by no pattern since the start (R72). -/
  | unloaded
  /-- Waiting for the start-up release (R72). -/
  | boot
  /-- TEST mode (R478). -/
  | testMode
  /-- `REGION_ISOLATE`. -/
  | command
  | reset
  | load
  | wire
  | frame
  | checker
  | slice
  | retired
  /-- Its planned clock fell below the least (R458). -/
  | floor
deriving DecidableEq, Repr

/-- One region: its planes, schedule, slot decision, power, isolation and clock (R14, Table 1.3). -/
structure Region where
  plane0 : Plane := {}
  plane1 : Plane := {}
  plane2 : Plane := {}
  plane3 : Plane := {}
  active : Nat := 0
  /-- The flagged active plane of R125. -/
  activeBarred : Bool := false
  sched : Sched := {}
  shadow : Option (Sched × Option Waiter) := none
  pendingOv : Option Override := none
  persistOv : Option Override := none
  grace : Option Decision := none
  slotPins : SlotPins := ⟨false, false, 0⟩
  swResult : BitVec 2 := 0
  ovr : BitVec 2 := 0
  /-- `SLOT` output (Table 6.6). -/
  slotOut : Nat := 0
  /-- `TICK` of the cycle after the next edge, and `TICK` and `SLOT` of `SLOT_PORT` in this cycle (Tables 6.6, 6.7). -/
  tickDue : Bool := false
  tickOut : Bool := false
  slotPin : Nat := 0
  dspPermit : Bool := false
  testPermit : Bool := false
  skips : Nat := 0
  forced : Nat := 0
  granted : Nat := 0
  lost : Nat := 0
  displaced : Nat := 0
  fill : Option FillJob := none
  /-- Fills that wait for the one in progress (R188, R464). -/
  fillWait : List FillJob := []
  /-- Library entry last filled into the active plane (R184). -/
  record : Option Nat := none
  power : Power := .cold
  trans : Option Trans := none
  /-- A boundary deferred by a transition (R158): its slot. -/
  deferred : Option Nat := none
  /-- The decision to carry out when the exit in progress completes (R157). -/
  after : Option Decision := none
  wake : Bool := false
  powerCnt : List Nat := []
  /-- Causes for which the region stands isolated; none of them: not isolated. -/
  iso : List IsoCause := [.unloaded]
  /-- Causes that end at the next slot boundary (R67, R72, R190, Table 5.5). -/
  freeDue : List IsoCause := []
  /-- `REGION_ISOLATE` isolates with AT_TICK wait for the tick boundary, and releases for the slot boundary. -/
  isoDue : List Waiter := []
  freeWait : List Waiter := []
  retired : Bool := false
  /-- Border isolation cells hold for the region itself (R121, R439, R467), and the cells that drive a 1 while they hold. -/
  isoHold : Bool := true
  isoVals : List Border := []
  /-- Resets held, waiting for a power state, or waiting for the tick boundary. -/
  resets : List ResetJob := []
  /-- The reset shield (R20): closed while the region is in SHELVED or COLD. -/
  shieldClosed : Bool := true
  spineDisable : BitVec 64 := 0
  /-- Defect map entries recorded since the factory (R123). -/
  defects : List (BitVec 32) := []
  brg : Table (BitVec 32) := []
  shelf : Option Shelf := none
  slice : Option SliceJob := none
  /-- Fabric clock: k set, planned maximum, in effect, halved (R423, R424, Table 16.9); none stands for the
  speed-grade maximum. -/
  kSet : Option Nat := none
  kPlan : Option Nat := none
  kNow : Option Nat := none
  kHalved : Bool := false
  kShadow : Option (Nat × Waiter) := none
  /-- The fabric clock runs. -/
  clockOn : Bool := false
  /-- `BRAM_CLEAR` commands in progress: the memories named, and the request. -/
  clearing : List (List Nat × Waiter) := []
  /-- Spines re-enabled whose drivers are released at the next fabric edge (R117). -/
  spineOff : BitVec 64 := 0
  /-- Signals of `FabricInputs.ports` that are high in the present cycle. -/
  ups : List (HardPort × Nat) := []
  /-- `CRC_PORT` (R418): the unit named at the last edge and its `CRC_IDLE`, and the cycles for which the region's own unit is
  still occupied. -/
  crcNamed : Nat := 0
  crcIdle : Bool := true
  crcLeft : Nat := 0
  /-- Flip-flops are held at their initial values (R73). -/
  ffHeld : Bool := false
  haltJobs : List HaltJob := []
deriving DecidableEq, Repr

/-! ### The Runner (chapter 2) -/

/-- One response line: code and data (Table 2.4). -/
structure RLine where
  code : BitVec 3 := 0
  data : Line := 0
deriving DecidableEq, Repr

/-- What a held or outstanding request does. -/
inductive RunOp where
  | read | write | add32 | add64 | swap32 | swap64
deriving DecidableEq, Repr

/-- A request that has been issued and not fully answered (R37, R41). -/
structure Outst where
  hdr : ReqHdr
  op : RunOp
  /-- Number of its issue (the model's own), so that a tag's earlier request stays apart from its later one. -/
  id : Nat := 0
  wlines : List WLine := []
  /-- Response lines ready at the target; none while the request is held. -/
  resp : Option (List RLine) := none
  /-- Region whose wake, exit or power-down holds the request (R21, R43). -/
  heldFor : Option Nat := none
  /-- Riser queue whose read-back holds the pop (R372). -/
  heldPop : Option Nat := none
  /-- HBM page whose repair holds the request (R413). -/
  heldPage : Option Nat := none
  /-- Ingot bank that it has entered (R209). -/
  atBank : Option Nat := none
  /-- Arbitration class at the router that the packet is at (R48). -/
  cls : Nat := 0
  /-- Served next at its HBM controller (R50). -/
  aged : Bool := false
  /-- The Sprue engine has accepted it (R42). -/
  accepted : Bool := false
  /-- Response lines go to an isolated or reset port and are discarded (R17, R44). -/
  discard : Bool := false
  /-- It timed out: its tag is free, and its response will be discarded when it comes (R41). -/
  gone : Bool := false
deriving DecidableEq, Repr

/-- The response channel of one attachment point (Table 2.3). -/
structure RsPort where
  valid : Bool := false
  tag : Nat := 0
  code : BitVec 3 := 0
  data : Line := 0
  last : Bool := false
deriving DecidableEq, Repr

/-- Runner state: outstanding requests, response channels and the eight counters of each region stop
(Table 2.9). -/
structure RunnerSt where
  outst : List Outst := []
  /-- Requests issued so far (the model's own). -/
  issued : Nat := 0
  rs : Table RsPort := []
  counters : Table (List Nat) := []
deriving DecidableEq, Repr

/-! ### Library, Ladle and flash (chapter 7) -/

/-- A library entry (Table 7.6); its frames lie in protected range 0 (R181). -/
structure LibEntry where
  st : BitVec 2 := 0
  placement : BitVec 8 := 0
  anchor : BitVec 8 := 0
  flags : BitVec 8 := 0
  carried : Nat := 0
  patternId : BitVec 128 := 0
  tickLoaded : BitVec 64 := 0
  loadedBy : BitVec 8 := 0
  /-- Vendor test pattern number and class it holds (R462). -/
  testOf : Option (Nat × Nat) := none
deriving DecidableEq, Repr

/-- An accepted `LIB_LOAD` (R185, Table 7.8). -/
structure LoadReq where
  flash : Bool := false
  src : Nat := 0
  index : Nat := 0
  target : Option (Nat × Nat) := none
  waiter : Waiter
  master : Nat := 0
  /-- The entry it has made LOADING. -/
  reserved : Option Nat := none
deriving DecidableEq, Repr

/-- One flash program or erase (R169). -/
inductive FlashOp where
  | erase (addr : Nat) (len : Nat)
  | program (addr : Nat) (bytes : List Byte)
deriving DecidableEq, Repr

/-- What a series of flash operations is for (R502, R504). -/
inductive FlashUse where
  | access
  /-- A read by command, which waits while the device is programmed: address, length, HBM address. -/
  | read (addr : Nat) (len : Nat) (hbm : Option Nat)
  /-- `FLASH_DIR_READ`, which waits in the same way: the copy asked for and the first entry. -/
  | dirRead (copy : Nat) (first : Nat)
  /-- Slot (1 A, 2 B), kind (1 firmware, 2 boot pattern) and image sequence of a staged image. -/
  | stage (slot : Nat) (kind : Nat) (sequence : Nat)
deriving DecidableEq, Repr

/-- Flash operations in progress, the first of them now. -/
structure FlashJob where
  ops : List FlashOp := []
  use : FlashUse := .access
  waiter : Option Waiter := none
  /-- Flash address and contents that are read back once the first program there has ended (R502 step 4). -/
  check : Option (Nat × List Byte) := none
deriving DecidableEq, Repr

/-- What the SFDP tables of a flash device say (R167): whether it has any, and which modes of R166 they declare. -/
structure Sfdp where
  present : Bool := true
  octal : Bool := true
  quad : Bool := true
deriving DecidableEq, Repr

/-- Library, Ladle queue and flash (R166 to R194, R501 to R504). -/
structure LibSt where
  base : Nat := 0
  capacity : Nat := 1024
  entries : Table LibEntry := []
  queue : List LoadReq := []
  /-- Flash contents of both chip selects; an unlisted byte is erased, `0xFF`: the table holds the
  complement of each byte. -/
  flash : Memory := []
  flashSize0 : Nat := 2147483648
  flashSize1 : Nat := 2147483648
  sfdp0 : Sfdp := {}
  sfdp1 : Sfdp := {}
  /-- Devices that the port treats as blank flash since the last reset (R167). -/
  blank0 : Bool := false
  blank1 : Bool := false
  /-- Series of program and erase operations, in order of acceptance. -/
  jobs : List FlashJob := []
  /-- Boot pattern images already tried at this start (R74). -/
  bootTried : List Nat := []
  /-- Regions that R75 left out. -/
  barredBoot : List Nat := []
  /-- Slot and image sequence of staged firmware that has not run yet, and of staged firmware that runs for the first
  time with the local time of its start (R503). -/
  stagedFw : Option (Nat × Nat) := none
  firstRun : Option (Nat × Nat × Nat) := none
deriving DecidableEq, Repr

/-! ### Block memories and Ingot banks (chapter 8) -/

/-- Outputs of one block memory port (Table 8.2). -/
structure PortOut where
  dout : BitVec 80 := 0
  busy : Bool := false
  cerr : Bool := false
  uerr : Bool := false
deriving DecidableEq, Repr

/-- A window access that waits for port B (R202, R203): its request by issue number, its master ID, the operations still to come
(line, word, and of a WRITE the data and enables), and what those performed gave. -/
structure WindowJob where
  req : Nat
  mid : Nat := 0
  ops : List (Nat × Nat × Option (BitVec 64 × BitVec 8)) := []
  got : List (BitVec 64 × Bool) := []
deriving DecidableEq, Repr

/-- One block memory: 512 words of 80 bits; in protected mode bits 79:64 are the check bits (R195, R399). -/
structure Bram where
  words : Table (BitVec 80) := []
  injected : List Nat := []
  outA : PortOut := {}
  outB : PortOut := {}
  /-- The stage before each output register (R198). -/
  preA : PortOut := {}
  preB : PortOut := {}
  /-- Results in flight: edges still to count, whether it is a read, and the result (R198). -/
  pipeA : List (Nat × Bool × PortOut) := []
  pipeB : List (Nat × Bool × PortOut) := []
  waitA : Bool := false
  waitB : Bool := false
  /-- The word of a partial write in its second cycle (R200, R205). -/
  rmwA : Option Nat := none
  rmwB : Option Nat := none
  /-- Consecutive port B edges at which the fabric has presented operations while a maintenance access waited (R203). -/
  starve : Nat := 0
  /-- The fabric presented an operation at the last port B edge. -/
  presents : Bool := false
  /-- Window accesses that wait for port B, oldest first, and a word that the Fettler waits to read (R202). -/
  maint : List WindowJob := []
  scrub : Option Nat := none
  /-- A maintenance access has port B, and `WAIT` is high for it (R203). -/
  keepB : Bool := false
  /-- The partial window write in its second cycle: whether its word was good, and whether port A has met it (R205, R206). -/
  half : Option (Bool × Bool) := none
  retired : Bool := false
deriving DecidableEq, Repr

/-- A request that waits at a bank (R209): by issue number, with its master ID, its operation, the offset of its next line, the
lines it writes, the lines left, and what the lines done have answered. -/
structure IngotJob where
  req : Nat
  mid : Nat := 0
  op : RunOp := .read
  off : Nat := 0
  lines : List WLine := []
  left : Nat := 1
  got : List RLine := []
deriving DecidableEq, Repr

/-- The Ingot banks (R207 to R212). Bytes are keyed by bank × 4 MiB + offset. -/
structure IngotSt where
  mem : Memory := []
  /-- XOR of stored and computed check bits of each 256-bit line, keyed by byte address / 32. -/
  syn : Table (BitVec 32) := []
  injected : List Nat := []
  retired : List Nat := []
  /-- Bank change waiting for its tick boundary: true retires, the bank, and the request. -/
  change : Option (Bool × Nat × Waiter) := none
  /-- Last granted master ID per bank (default 95). -/
  grant : Table Nat := []
  /-- Requests waiting at each bank, in the order of their arrival (R209). -/
  waiting : Table (List IngotJob) := []
  conflicts : Table Nat := []
deriving DecidableEq, Repr

/-! ### DSP engines (chapter 9) -/

/-- Engine states (R241). -/
inductive EngSt where
  | halted | pending | running | fault
deriving DecidableEq, Repr

/-- A result in flight and its destination (R231). -/
inductive Landing where
  | dreg (n : Nat) (v : BitVec 32)
  | acc (n : Nat) (v : BitVec 40)
  | ovg
deriving DecidableEq, Repr

/-- A DMA transfer (R239). -/
structure Dma where
  local_ : BitVec 15 := 0
  addr : BitVec 49 := 0
  len : Fin 64 := 0
  toRunner : Bool := false
  qos : Fin 4 := 0
  win : Fin 16 := 0
deriving DecidableEq, Repr

/-- One DSP engine (Tables 9.1, 9.2, 9.9, 9.10; R241). -/
structure Engine where
  st : EngSt := .halted
  pc : BitVec 11 := 0
  d : List (BitVec 32) := .replicate 16 0
  /-- Accumulators as the operations issued so far leave them (R224). -/
  accNow : List (BitVec 40) := .replicate 4 0
  /-- Accumulators as a read at issue sees them (R231). -/
  accVis : List (BitVec 40) := .replicate 4 0
  a : List (BitVec 15) := .replicate 8 0
  s : List (BitVec 16) := .replicate 8 0
  m : List (BitVec 15) := .replicate 8 0
  ls : List (BitVec 11) := .replicate 3 0
  le : List (BitVec 11) := .replicate 3 0
  lc : List (BitVec 16) := .replicate 3 0
  lctl : BitVec 3 := 0
  stat : BitVec 8 := 0
  imask : BitVec 8 := 0
  ipend : BitVec 8 := 0
  istat : BitVec 8 := 0
  intret : BitVec 11 := 0
  vbase : BitVec 11 := 0
  lr : BitVec 11 := 0
  acfg : BitVec 8 := 0
  timer : BitVec 32 := 0
  treload : BitVec 32 := 0
  cycle : BitVec 64 := 0
  spc : BitVec 11 := 0
  ctl : BitVec 2 := 0
  dmaLocal : BitVec 15 := 0
  dmaRlo : BitVec 32 := 0
  dmaRhi : BitVec 17 := 0
  dmaCode : BitVec 3 := 0
  dmaActive : Option Dma := none
  dmaQueued : Option Dma := none
  /-- Results in flight: bundles still to issue before each is seen. -/
  landing : List (Nat × Landing) := []
  /-- Delay slots left and the address after them (R231). -/
  delay : Nat := 0
  target : BitVec 11 := 0
  /-- The branch in flight is a `RETI`: `IE` is set at its target (R247). -/
  retiDue : Bool := false
  /-- A `WAITI` holds issue. -/
  waiting : Bool := false
  /-- The last bundle issued was a branch, `CALL`, `RET` or `RETI` (R245). -/
  lastBranch : Bool := false
  /-- The last bundle issued lay in a delay slot (R245). -/
  lastSlot : Bool := false
  /-- A halt, or the entry into FAULT, is due at the next boundary outside a delay slot (R243). -/
  haltDue : Bool := false
  faultDue : Bool := false
  /-- Bundles overwritten in the last 4 engine cycles: address, cycles left, and the word that was there (R218). -/
  oldProg : List (Nat × Nat × BitVec 64 × BitVec 16) := []
  prog : Table (BitVec 64) := []
  progSyn : Table (BitVec 16) := []
  data : Table (BitVec 64) := []
  dataSyn : Table (BitVec 16) := []
  injected : List Nat := []
  in0 : List (BitVec 64) := []
  in1 : List (BitVec 64) := []
  out0 : List (BitVec 64) := []
  out1 : List (BitVec 64) := []
  /-- `DOORBELL` and `START` were high at the last fabric edge (R238). -/
  bellWas : Bool := false
  startWas : Bool := false
  /-- `EVT` is high for the next fabric cycle (R230). -/
  evt : Bool := false
  /-- `WAIT` is high: no stream item moves at the edge that ends this cycle (R112, R236). -/
  portWait : Bool := false
  stalls : Nat := 0
  corrected : Nat := 0
  /-- Start address of a start that is PENDING (R242). -/
  startAddr : BitVec 11 := 0
  /-- Tick and slot boundaries that `ipend` has taken in (the model's own). -/
  tickSeen : Nat := 0
  slotSeen : Nat := 0
  /-- Registers whose parity fails (R221): data register n as n, a register numbered n in Table 9.2 as 16 + n, accumulator n
  as 49 + n. -/
  parityBad : List Nat := []
deriving DecidableEq, Repr

/-- A step of a domain's voltage and frequency sequencer (R432, R433); `planWrite` writes a planned voltage at the
point in effect (R457). -/
inductive DvfsStep where
  | idle | upWrite | upSettle | upRelock | downRelock | downWrite | planWrite
deriving DecidableEq, Repr

/-- One DVFS domain (R249 to R252, R432, R433). Voltages in 0.1 mV. -/
structure Domain where
  point : Nat := 1
  requested : Nat := 1
  /-- A request waits for the end of the throttle (R252). -/
  deferred : Bool := false
  target : Nat := 1
  step : DvfsStep := .idle
  resent : Bool := false
  volt : Nat := 6800
  plan : List Nat := [6000, 6800, 7600, 8500]
  withdrawn : List Bool := [false, false, false, false]
  waiter : Option Waiter := none
deriving DecidableEq, Repr

/-! ### Serial lanes (chapter 10) -/

/-- Lane states of Table 10.5. -/
inductive LaneSt where
  | off | starting | training | locking | up | test
deriving DecidableEq, Repr

/-- Lane modes (R265). -/
inductive LaneMode where
  | off | queue | sprue | pcie
deriving DecidableEq, Repr

/-- The state of a lane's transmit coder (R257 to R263): running disparity, scrambler, the blocks that wait for their codeword,
the codeword's number behind the last marker, and the level sent last. -/
structure TxCode where
  rd : Bool := false
  scr : BitVec 58 := 0
  blocks : List (List Bool) := []
  word : Nat := 0
  /-- Bits that do not make a codeword of the inner code yet (R263). -/
  inner : List Bool := []
  last : Fin 4 := 0
deriving DecidableEq, Repr

/-- The state of a lane's receive decoder (R257 to R264, R267): bits that do not make a unit yet, and what each coding keeps. -/
structure RxCode where
  buf : List Bool := []
  /-- Bits still to leave out for bit-slips (R280). -/
  skip : Nat := 0
  /-- Level received last, for precoding (R260). -/
  last : Fin 4 := 0
  /-- Lock is held: comma synchronisation, block lock or codeword lock. -/
  synced : Bool := false
  rd : Bool := false
  /-- The synchronisation machine of 8B10B, and characters of the unit that fills; none while it waits for a comma. -/
  sync : Nat := 0
  good : Nat := 0
  even : Bool := false
  chars : Option (List (Nat × Bool × Bool)) := none
  scr : BitVec 58 := 0
  /-- Headers and invalid ones counted for block lock. -/
  headers : Nat := 0
  badHeaders : Nat := 0
  /-- Bits received, the places at which a marker began, codewords behind the last one, and markers missed in a row (R261). -/
  pos : Nat := 0
  marks : List Nat := []
  word : Nat := 0
  missed : Nat := 0
  /-- Bits of the inner code that do not make one of its codewords yet (R263). -/
  inner : List Bool := []
deriving DecidableEq, Repr

/-- What a Sprue receiver has of the flit in progress on a lane (R296, R297): in 8B10B its bytes since K27.7; in blocks those of the
flit, the length of the run, and whether the rest of the run is lost. -/
structure FlitRx where
  bytes : Option (List Nat) := none
  blocks : List (BitVec 64) := []
  run : Nat := 0
  dead : Bool := true
deriving DecidableEq, Repr

/-- A lane's configuration (Table 10.13). Taps are steps pre3, pre2, pre1, main, post1. -/
structure LaneCfg where
  mode : LaneMode := .off
  rate : Nat := 0
  coding : Nat := 0
  txInvert : Bool := false
  rxInvert : Bool := false
  manual : Bool := false
  precode : Bool := false
  training : Nat := 0
  preset : Nat := 0
  custom : List Int := []
  refclk : Nat := 0
  timeoutMs : Nat := 500
  rxQueue : Nat := 0
  txQueue : Nat := 0
  /-- Flush time in 0.1 µs. -/
  flush : Nat := 10
  idleWord : BitVec 64 := 0
deriving DecidableEq, Repr

/-- A user eye scan in progress (R282 to R284). -/
structure EyeScan where
  mask : Nat := 0
  h0 : Int := 0
  h1 : Int := 0
  v0 : Int := 0
  v1 : Int := 0
  dwell : Nat := 0
  errmax : Nat := 0
  buffer : Nat := 0
  /-- The port whose command runs it; none for Cupola's own scan (R277). -/
  waiter : Option Waiter := none
deriving DecidableEq, Repr

/-- One lane (R265 to R292). -/
structure Lane where
  st : LaneSt := .off
  cfg : LaneCfg := {}
  /-- `LANE_CONFIG` with AT_TICK waiting for the tick boundary. -/
  shadow : List (LaneCfg × Waiter) := []
  taps : List Int := [0, 0, 0, 100, 0]
  pll : Nat := 0
  pllLocked : Bool := false
  cdrLocked : Bool := false
  /-- Request outstanding to the partner's transmitter (R275), as a control field. -/
  request : BitVec 16 := 0
  /-- Status field this lane sends (Table 10.10). -/
  status : BitVec 16 := 0
  rxReady : Bool := false
  partnerReady : Nat := 0
  framesLeft : Option Nat := none
  trainResult : Nat := 0
  planned : Nat := 0
  margin : Option (Nat × Nat) := none
  slips : Nat := 0
  scan : Option EyeScan := none
  gen : Nat := 0
  chk : Nat := 0
  genInv : Bool := false
  chkInv : Bool := false
  chkLocked : Bool := false
  chkBits : Nat := 0
  chkErrs : Nat := 0
  loopback : Nat := 0
  injectLeft : Nat := 0
  injectK : Nat := 0
  injectData : Bool := false
  /-- Item being filled: units with controls, and whether a unit is bad (R267). -/
  units : List (BitVec 64 × BitVec 8) := []
  unitBad : Bool := false
  gap : Bool := false
  /-- An idle unit was sent last (R268). -/
  txIdle : Bool := false
  tx : TxCode := {}
  rx : RxCode := {}
  /-- The flit that arrives, and flits sent since the last idle unit (R296, R297). -/
  flit : FlitRx := {}
  flitRun : Nat := 0
  /-- Levels that the transmitter sent last, and those that a loopback of depth 1 or 2 has still to bring back (R268, R289). -/
  sent : List (Fin 4) := []
  loopLine : List (Fin 4) := []
  /-- Bits that injection flips in what is sent next: after all coding, and in the data before it (R287). -/
  lineFlips : Nat := 0
  dataFlips : Nat := 0
  /-- Registers of the generator and of the checker, bits that have matched in a row, and which of the last 1,024 bits of a locked
  checker were errors (R285). -/
  genReg : BitVec 31 := 0
  chkReg : BitVec 31 := 0
  chkRun : Nat := 0
  chkHist : List Bool := []
  /-- Register of the training pattern (R274). -/
  trainReg : BitVec 31 := 0
  /-- The eight counters of Table 10.14. -/
  counters : List Nat := .replicate 8 0
  /-- Bits flipped by injection since the command (R287). -/
  flipped : Nat := 0
deriving DecidableEq, Repr

/-! ### Sprue links (chapter 11) -/

/-- Link states of Table 11.1. -/
inductive LinkSt where
  | off | starting | hello | up | down
deriving DecidableEq, Repr

/-- A link profile (R293, Table 11.9). -/
structure Profile where
  width : Nat := 0
  lanes : List Nat := []
  rate : Nat := 0
  coding : Nat := 0
  training : Nat := 0
  preset : Nat := 0
  refclk : Nat := 0
  degrade : Bool := false
  precode : Bool := false
  txInvert : BitVec 8 := 0
  rxInvert : BitVec 8 := 0
  timeoutMs : Nat := 500
  /-- Receive allocation of VCs 0 to 7, weights of VCs 0 to 6, link timeout in 10 µs (R310, R312, Table 11.8). -/
  alloc : List Nat := .replicate 8 64
  weights : List Nat := .replicate 7 1
  linkTimeout : Nat := 10
deriving DecidableEq, Repr

/-- A DATA segment waiting to be sent on a VC (R313, R314). `src` is the link and VC it came in on and whose receive
buffer it frees when sent; link 255 for a segment of this node. -/
structure Segment where
  payload : BitVec 416 := 0
  first : Bool := false
  last : Bool := false
  len : Nat := 0
  abt : Bool := false
  src : Nat × Nat := (255, 0)
  /-- Send queue whose message it ends (R316). -/
  queue : Option Nat := none
deriving DecidableEq, Repr

/-- Where a message that is arriving on a VC goes (R315, R317, R313). -/
inductive Arrive where
  | idle
  /-- Into a queue of this node. -/
  | deliver (q : Nat)
  /-- Waiting for producer credit (R317). -/
  | credit (q : Nat)
  /-- Onwards to another link. -/
  | forward (l : Nat)
  /-- Into the transaction engine. -/
  | transact
  /-- Accepted and freed without being written. -/
  | sink
deriving DecidableEq, Repr

/-- Reassembly state of one VC of a link. -/
structure VcRx where
  arrive : Arrive := .idle
  header : BitVec 128 := 0
  /-- Message bytes received, and those of them not yet written or taken. -/
  count : Nat := 0
  got : List Byte := []
  /-- For each buffer not yet freed, where its bytes end in `got`. -/
  ends : List Nat := []
  /-- Flits that wait behind a message that waits for producer credit. -/
  wait : List Line := []
  /-- Cumulative buffers freed, and the value of it that was sent last (R311). -/
  freed : Nat := 0
  freedSent : Nat := 0
  /-- Flit buffers in use. -/
  held : Nat := 0
deriving DecidableEq, Repr

/-- Sending state of one VC of a link (R311, R313). -/
structure VcTx where
  waiting : List Segment := []
  limit : Nat := 0
  sent : Nat := 0
  /-- The source of the message that is partly sent. -/
  cur : Option (Nat × Nat) := none
  stallUs : Nat := 0
  /-- Local time from which the VC stands without credit. -/
  stallAt : Option Nat := none
deriving DecidableEq, Repr

/-- A replay buffer entry (R301). -/
structure Replay where
  sequence : Nat := 0
  vc : Nat := 0
  seg : Segment := {}
deriving DecidableEq, Repr

/-- One Sprue link (R293 to R328). -/
structure Link where
  st : LinkSt := .off
  prof : Profile := {}
  /-- Link lanes that are active, as a mask. -/
  active : Nat := 0
  downCause : Nat := 0
  loopback : Nat := 0
  partner : Nat := 0
  partnerLink : Nat := 0
  rtt : Nat := 0
  backoffMs : Nat := 1
  /-- The UP in progress, or the last one, has lasted 10 s (R325). -/
  stable : Bool := false
  /-- A HELLO of the partner has passed every check (`SEEN`). -/
  seen : Bool := false
  helloBad : Bool := false
  /-- HELLO flits still sent in UP (R322). -/
  helloing : Bool := false
  /-- Transmit time of the last valid HELLO received and the local time of its arrival, in ns. -/
  helloTx : Nat := 0
  helloRx : Nat := 0
  partnerAlloc : List Nat := []
  nextSeq : Nat := 0
  expect : Nat := 0
  /-- `ACK` as it was sent last. -/
  ackSent : Nat := 4095
  replay : List Replay := []
  /-- A replay in progress: the next entry to resend, and the number it started from. -/
  replayAt : Option Nat := none
  replayFrom : Nat := 0
  replayCount : Nat := 0
  rxHeld : List (Nat × Line) := []
  /-- Evidence of a gap waits, up to this number (R302, R303). -/
  gapTo : Option Nat := none
  nakDue : Bool := false
  /-- A gap has been declared and E has not arrived (R304). -/
  nakOut : Bool := false
  /-- A LOOP start (1) or stop (2) that is owed. -/
  loopDue : Option Nat := none
  cvc : Nat := 0
  timeDue : Bool := false
  /-- Weighted round-robin: the VC whose turn it is and the flits left of it. -/
  wrrVc : Nat := 0
  wrrLeft : Nat := 0
  /-- Local time at which the last flit was sent. -/
  lastTx : Nat := 0
  rx : List VcRx := .replicate 8 {}
  tx : List VcTx := .replicate 8 {}
  /-- The sixteen counters of Table 11.10. -/
  counters : List Nat := .replicate 16 0
  /-- LOOP test flits sent and not yet returned: count, data, local time. -/
  loopOut : List (Nat × BitVec 384 × Nat) := []
  loopCount : Nat := 0
  /-- Register of the pattern that test flits carry (R326). -/
  loopReg : BitVec 31 := 0
  /-- This link returns LOOP test flits (R326). -/
  loopPartner : Bool := false
  loopReturn : List (Nat × Line) := []
  timeOn : Bool := true
  asym : Int := 0
  /-- Last valid TIME flit received: payload and local arrival time (R353). -/
  timeRx : Option (BitVec 416 × Nat) := none
  /-- A valid TIME flit has arrived in the tick in progress (R354, R355). -/
  timeInTick : Bool := false
  delay : Option Int := none
  /-- T_TX of this node's TIME flits, newest first (at most the last 8). -/
  timeSent : List Nat := []
  /-- The link lane on which the last flit left, for the turn of R307. -/
  laneTurn : Nat := 0
  /-- Flits sent, newest first (at most the last 8), each with its link lane. -/
  line : List (Nat × Line) := []
deriving DecidableEq, Repr

/-- Role of a Riser queue toward the Sprue engine (Table 11.13). -/
inductive SprueRole where
  | none
  | send (completion : Option Nat)
  | receive (first : Nat) (last : Nat)
deriving DecidableEq, Repr

/-! ### Sprue system (chapter 12) -/

/-- An exported window (R330, R331): ranges are first node, last node, rights RWA in bits 2:0. -/
structure Window where
  base : Nat := 0
  pages : Nat := 0
  ranges : List (Nat × Nat × BitVec 3) := []
deriving DecidableEq, Repr

/-- A generation profile (Table 12.6). -/
structure GenProfile where
  limit : Nat := 64
  maxLines : Nat := 64
  opMask : BitVec 6 := 63
  keepalive : Nat := 625
  rank : Nat := 4
deriving DecidableEq, Repr

/-- An outstanding transaction of this node (R334, R335). -/
structure Txn where
  node : Nat := 0
  sequence : Nat := 0
  op : RemoteOp
  offset : Nat := 0
  lines : Nat := 0
  link : Nat := 0
  src : Source
  tag : Fin 64 := 0
  /-- Number of the Runner request that it carries out (the model's own). -/
  id : Nat := 0
deriving DecidableEq, Repr

/-- A transaction request of another node that the Runner performs (R337), and its answer so far. -/
structure Serving where
  tag : Fin 64 := 0
  node : Nat := 0
  sequence : Nat := 0
  op : Nat := 0
  offset : Nat := 0
  lines : Nat := 0
  /-- The node that the request was addressed to (R327). -/
  self : Nat := 0
  got : List RLine := []
deriving DecidableEq, Repr

/-- Time roles (R351). -/
inductive TimeRole where
  | none | member | root
deriving DecidableEq, Repr

/-- Node, windows, partner and route tables, transactions and Sprue time (R329 to R357). -/
structure SysSt where
  node : Nat := 0x3FFFF
  hop : Nat := 16
  txTimeout : Nat := 1000
  policy : Nat := 1
  highWater : Nat := 95
  minIdle : Nat := 4
  windows : Table Window := []
  /-- Partner table slots: bucket × 4 + slot (R339), each a 128-bit entry (Table 12.5). -/
  partners : Table (BitVec 128) := []
  /-- XOR of stored and computed check bits of each 256-bit line, keyed by slot / 2 (R341). -/
  partnerSyn : Table (BitVec 32) := []
  profiles : Table GenProfile := []
  rateMap : List Nat := .replicate 15 0
  routes : Table (BitVec 64) := []
  ageCtr : Nat := 0
  txns : List Txn := []
  /-- NO_ROOM refusals, evictions, entries aged out, transactions timed out, unmatched responses, traffic not
  forwarded. -/
  counters : List Nat := .replicate 6 0
  /-- Nodes refused for want of a slot, for which an eviction is owed (R346). -/
  refused : List Nat := []
  /-- `WINDOW_SET` commands whose recomputation of rights runs (R332): waiter and window. -/
  recompute : List (Waiter × Nat) := []
  /-- Transaction requests and responses received whole and not yet taken, oldest first: link of arrival (63: none),
  message, and the VC and number of the flit buffers held. -/
  inReq : List (Nat × Message × Nat × Nat) := []
  inResp : List (Nat × Message × Nat × Nat) := []
  serving : List Serving := []
  /-- Messages that have come whole, from the own node or a link at depth 6, and wait for producer credit (R316, R317, R327): header,
  VC, link (63: none) and bytes. -/
  whole : List (BitVec 128 × Nat × Nat × List Byte) := []
  /-- Completion items that wait for credit (R316): queue and item. -/
  completions : List (Nat × Line) := []
  role : TimeRole := .member
  /-- TIME interval in 0.1 µs. -/
  interval : Nat := 100
  parent : Option Nat := none
  rootNode : Nat := 0x3FFFF
  distance : Nat := 255
  lastE : Int := 0
  /-- Rate trim in steps of 2^-32 (R355). -/
  trim : Int := 0
  delay : Int := 0
  timeRx : Nat := 0
  exchanges : Nat := 0
  /-- The tick period for which a mismatch has been reported (R354). -/
  mismatchFor : Option Nat := none
  /-- A lower root has been reported (R354). -/
  competing : Bool := false
deriving DecidableEq, Repr

/-! ### Riser queues (chapter 13) -/

/-- Producer side states (Table 13.3). -/
inductive ProdSt where
  | closed | open_ | discard
deriving DecidableEq, Repr

/-- One item: its 64 bytes, whether it begins and ends a packet, and whether it is uncorrectable. -/
structure Item where
  bytes : Line := 0
  first : Bool := false
  eop : Bool := false
  bad : Bool := false
  /-- It became uncorrectable in the spill area (Table 13.8). -/
  inSpill : Bool := false
deriving DecidableEq, Repr

/-- One Riser queue (R358 to R375). Items are oldest first: `committed` then `opened`. The number in the
head buffer is kept; the tail buffer holds the youngest eight, the rest lie in the spill area. -/
structure Queue where
  enabled : Bool := false
  cap : Nat := 0
  producer : Nat := 64
  consumer : Nat := 64
  prodHard : Bool := false
  consHard : Bool := false
  committed : List Item := []
  opened : List Item := []
  headCount : Nat := 0
  /-- Items that lie in the spill area. -/
  spilled : Nat := 0
  /-- Read-backs outstanding (R359). -/
  reading : Nat := 0
  limit : BitVec 32 := 0
  pushed : BitVec 32 := 0
  popped : BitVec 32 := 0
  committedCnt : BitVec 32 := 0
  prod : ProdSt := .closed
  epoch : BitVec 8 := 0
  /-- XOR of the two copies of the head, tail and commit pointers (R373). -/
  ptrSyn : Nat := 0
  pages : Nat := 0
  role : SprueRole := .none
  /-- The message of this send queue that is in progress: bytes 0 to 15 of its descriptor, and its link. -/
  sending : Option (BitVec 128 × Nat) := none
  /-- Table 13.6: items rewound, packets rewound, credit violations, lines refused in DISCARD, accesses by
  other masters, items lost, resets. -/
  counters : List Nat := [0, 0, 0, 0, 0, 0, 0]
deriving DecidableEq, Repr

/-- All queues and the spill area (R360). -/
structure RiserSt where
  queues : Table Queue := []
  spillBase : Nat := 0
  spillPages : Nat := 0
deriving DecidableEq, Repr

/-! ### HBM and protection (chapter 14) -/

/-- One protected range (R379 to R382, R385). -/
structure Range where
  defined : Bool := false
  base : Nat := 0
  gib : Nat := 0
  mask : BitVec 64 := 0
  /-- The eight root counters, and that their G16 word is uncorrectable (R385, R390). -/
  root : List (BitVec 64) := [0, 0, 0, 0, 0, 0, 0, 0]
  rootBad : Bool := false
  /-- Never-written reads, corrected re-reads, line failures, record and node failures, accesses to
  poisoned pages, refusals (Table 14.6). -/
  counters : List Nat := [0, 0, 0, 0, 0, 0]
  /-- Zero-fill of a create or remove in progress (R379), with its waiter; true for a removal. -/
  filling : Option (Bool × Waiter) := none
  /-- `PROT_REINIT` commands in progress, oldest first: level, index and waiter (R392). -/
  reinit : List (Nat × Nat × Waiter) := []
deriving DecidableEq, Repr

/-- ECC state of an HBM line (R377). -/
inductive Ecc where
  | clean | corrected | uncorrectable
deriving DecidableEq, Repr

/-- A rekey in progress (R395): the new key, and the request that started it. Every page is converted by
REKEY_COMPLETE, so the boundary stands at page 0 of the lowest range until then (notes/assumptions/10.md). -/
structure Rekey where
  newKey : BitVec 256 := 0
  waiter : Option Waiter := none
deriving DecidableEq, Repr

/-- HBM contents, ECC, protected ranges, key and rekey (R376 to R398). -/
structure HbmSt where
  mem : Memory := []
  ecc : Table Ecc := []
  ranges : Table Range := []
  /-- Poisoned subtrees: range, level, index (R390). -/
  poison : List (Nat × Nat × Nat) := []
  key : BitVec 256 := 0
  epoch : Nat := 0
  rekey : Option Rekey := none
  rekeyDays : Nat := 0
  /-- Page under post-package repair, with its waiter (R413). -/
  repair : Option (Nat × Waiter) := none
  /-- Repaired pages, kept in the ledger. -/
  repaired : List Nat := []
  /-- Security alarms raised since the last warm reset. -/
  alarms : Nat := 0
deriving DecidableEq, Repr

/-! ### Integrity, scrub and CRC (chapter 15) -/

/-- A word that a tracker follows: kind (Table 15.7) and location within its place. -/
structure WordRef where
  kind : Nat := 0
  loc : Nat := 0
deriving DecidableEq, Repr

/-- A tracker entry (R409). Times are local times. -/
structure TrackEnt where
  word : WordRef
  count : Nat := 0
  start : Nat := 0
  lastAt : Nat := 0
  sticky : Bool := false
  /-- Scrub intervals since the word was last corrected. -/
  quiet : Nat := 0
  /-- Its hard-fault record, once logged. -/
  record : Option Nat := none
deriving DecidableEq, Repr

/-- A hard-fault record (Table 15.7). -/
structure HardFault where
  kind : Nat := 0
  place : Nat := 0
  retired : Bool := false
  bit : BitVec 16 := 0
  loc : BitVec 64 := 0
  recur : Nat := 0
  tick : BitVec 64 := 0
deriving DecidableEq, Repr

/-- A sweep's position and pass state (R404, R406, R408). -/
structure Sweep where
  pos : Nat := 0
  passes : Nat := 0
  /-- The period of the pass in progress, in the unit of its setting; 0 before the first word. -/
  period : Nat := 0
  /-- Local time from which the region's target is paused (R406). -/
  pausedAt : Option Nat := none
deriving DecidableEq, Repr

/-- A priority pass (R408): its targets, and the request it answers. -/
structure PassJob where
  targets : BitVec 5 := 0
  waiter : Option Waiter := none
deriving DecidableEq, Repr

/-- One CRC unit or channel (R416). -/
structure CrcUnit where
  value : BitVec 32 := 0
  poly : BitVec 2 := 0
  /-- Region and slot to which a pool channel is bound (R419). -/
  bound : Option (Nat × Nat) := none
deriving DecidableEq, Repr

/-- Fettler, trackers, hard-fault log, counters and CRC (R399 to R419). -/
structure IntegSt where
  /-- Periods: frames, block memories, DSP memories, Ingot banks (µs), HBM (ms). -/
  periods : List Nat := [100000, 100000, 1000000, 1000000, 86400000]
  sweeps : Table Sweep := []
  heartbeat : Nat := 0
  /-- Heartbeat at Cupola's last check, and the Fettler's state: 0 running, 1 restarted, 2 stopped. -/
  lastBeat : Nat := 0
  status : Nat := 0
  restartTried : Bool := false
  passes : Table PassJob := []
  trackers : Table (List TrackEnt) := []
  log : Table HardFault := []
  logOverflow : Nat := 0
  counters : Table (List Nat) := []
  crcRegion : Table CrcUnit := []
  crcPool : Table CrcUnit := []
deriving DecidableEq, Repr

/-! ### Clocks (chapter 16) -/

/-- Phase of a clock switch (R430). -/
inductive SwitchPhase where
  | idle | stopping | released
deriving DecidableEq, Repr

/-- One clock switch: the source it moves to and its phase. -/
structure SwitchSt where
  phase : SwitchPhase := .idle
  toNew : Bool := false
  /-- Internal-oscillator cycles waited. -/
  waited : Nat := 0
deriving DecidableEq, Repr

/-- Clock monitor, root PLL and AVSBus (R420 to R434, Table 16.7). -/
structure ClkSt where
  badWin : Nat := 0
  forced : Bool := false
  lost : Bool := false
  holdover : Bool := false
  refOsc : Bool := true
  locked : Bool := false
  lastCounts : List Nat := []
  badRun : Nat := 0
  goodRun : Nat := 0
  badTotal : Nat := 0
  forcedTotal : Nat := 0
  rootSw : SwitchSt := {}
  hearthSw : SwitchSt := {}
  bramSw : Table SwitchSt := []
  dspSw : Table SwitchSt := []
  /-- `VCC_COPE` offset commanded and planned, in mV (R434). -/
  copeNow : Nat := 0
  copePlan : Nat := 0
  copeWrite : Bool := false
  copeResent : Bool := false
  /-- Step the voltage is moving to. -/
  copeTarget : Nat := 0
deriving DecidableEq, Repr

/-! ### Thermal and ageing (chapter 17) -/

/-- One thermal sensor (R445 to R448). Readings in 0.25 °C. -/
structure Sensor where
  raw : Int := 0
  broken : Bool := false
  /-- Cause of breaking (Table 17.8): 1 median, 2 range, 3 stuck. -/
  cause : Nat := 0
  /-- Consecutive samples far from the neighbour median, outside the range, and at 125 °C or more. -/
  offMedian : Nat := 0
  outRange : Nat := 0
  hot : Nat := 0
  /-- Neighbour medians, doubled, of the last samples at which the reading stood unchanged, newest first, at most
  256. -/
  medians : List (Option Int) := []
deriving DecidableEq, Repr

/-- Governor state of one region (R453, R454). The budget is in 0.1 W; `power` and `full` are the energies of the
last 8 µs in 0.01 pJ. -/
structure Govern where
  budget : Option Nat := some 30
  divided : Bool := false
  withheld : Bool := false
  /-- The permit as it stands from the last slot boundary. -/
  withheldNow : Bool := false
  power : Nat := 0
  full : Nat := 0
  window : List (Nat × Nat) := []
  okCount : Nat := 0
  actions : Nat := 0
deriving DecidableEq, Repr

/-- Ageing measurement of one region (R455): none for a replica that has not been read since the last one. -/
structure Measure where
  ratios : List Nat := []
  slacks : List (Option Int) := []
deriving DecidableEq, Repr

/-- Thermal and ageing state (R445 to R460). -/
structure ThermSt where
  sensors : Table Sensor := []
  warnAt : Nat := 100
  throttleAt : Nat := 110
  warning : Bool := false
  /-- The throttle condition, and throttle in effect (R451). -/
  throttleDue : Bool := false
  throttled : Bool := false
  /-- Columns with fewer than two valid sensors (R448). -/
  forcedCols : List Nat := []
  /-- Energies in 0.01 pJ (R453). -/
  ec : Nat := 150
  ed : List Nat := [1000, 1600, 2400, 3200]
  em : Nat := 200
  govern : Table Govern := []
  measures : Table Measure := []
  measureCount : Nat := 0
  guardBand : Bool := false
  /-- Lowest slack of each replica since the last measurement: key region × 8 + replica. -/
  minSlack : Table (Option Int) := []
  /-- Regions whose clock fell below the floor (R458). -/
  floorOut : List Nat := []
  /-- Regions due for one step down at the next tick boundary (R458). -/
  stepDown : List Nat := []
  /-- Planned fabric maxima awaiting the tick boundary. -/
  planDue : Table Nat := []
  /-- The flash holds a good ledger (R456). -/
  ledger : Bool := false
  /-- Sectors of its partition that have been erased by command since it was created (R456). -/
  ledgerGone : List Nat := []
  /-- Consecutive samples in COOLDOWN with every valid sensor at or below 95 °C (R452). -/
  coolRun : Nat := 0
deriving DecidableEq, Repr

/-! ### Self-test and bonds (chapter 18) -/

/-- Self-test state of one region (R464, R465, R470). -/
structure TestSt where
  pattern : Nat := 0
  next : Nat := 0
  results : List Nat := [0, 0, 0, 0, 0, 0, 0, 0]
  passes : Nat := 0
  fails : Nat := 0
  incompletes : Nat := 0
  excluded : Nat := 0
  rotationTick : BitVec 64 := 0
  /-- Ticks since the region's last slice ended (R465); none while no slice has ended. -/
  ticksSince : Option Nat := none
  /-- A repeat is owed (R471): the slice and pattern. -/
  repeatDue : Option (Nat × Nat) := none
deriving DecidableEq, Repr

/-- Bond state of one bundle (R473 to R477): failed and weak positions, spares used, fold, failed. -/
structure BondSt where
  steered : List Nat := []
  weak : List Nat := []
  fold : Bool := false
  failed : Bool := false
  dead : List Nat := []
  queued : Bool := false
deriving DecidableEq, Repr

/-- Self-test, sweeps and steering (R461 to R479). -/
structure BondsSt where
  enabled : Bool := true
  interval : Nat := 800
  sweepPeriod : Nat := 10
  /-- Library entries of the vendor patterns: key 4 × class + pattern, class 1 for B; 65535 for none. -/
  patterns : Table Nat := []
  tests : Table TestSt := []
  bonds : List (Nat × BondBundle × BondSt) := []
  repeats : Table Nat := []
  sweepTick : Table (BitVec 64) := []
  /-- The full self-test of TEST mode runs. -/
  fullTest : Bool := false
deriving DecidableEq, Repr

/-! ### Cupola, mailboxes, events (chapter 19) -/

/-- States of a mailbox slot (R484). -/
inductive SlotSt where
  | free | posted | accepted | done
deriving DecidableEq, Repr

/-- One slot of a mailbox port: request and response of 256 bytes (R484). -/
structure Slot where
  st : SlotSt := .free
  req : BitVec 2048 := 0
  resp : BitVec 2048 := 0
  /-- Local time at which the doorbell latched (R493). -/
  rangAt : Nat := 0
  /-- Number of the acceptance that made it ACCEPTED (the model's own). -/
  serial : Nat := 0
deriving DecidableEq, Repr

/-- One event record (Table 19.11). -/
abbrev Record := BitVec 256

/-- A mailbox port: slots, event path, mask, counts (R484, R499). -/
structure PortSt where
  slots : List Slot := [{}, {}, {}, {}]
  path : List Record := []
  lost : Nat := 0
  classMask : BitVec 16 := 65535
  minSev : Nat := 2
  ignored : Nat := 0
  /-- Lines of a DONE response already delivered to the fabric, and its slot (MB2, R486). -/
  delivered : Nat := 0
  deliverSlot : Nat := 0
deriving DecidableEq, Repr

/-- An ownership and its lease (R495): port, lease in seconds, local time of the claim's doorbell. -/
structure Owner where
  port : Port := .mb0
  lease : Nat := 0
  /-- Doorbell time of the claim, when the resource had no owner before it. -/
  claimedAt : Option Nat := none
  /-- Local time from which the lease runs. -/
  since : Nat := 0
deriving DecidableEq, Repr

/-- What an event says before it is stamped (Table 19.11, R498): `details` are pairs of a size in bytes and a
value, in the order of the event's table. -/
structure EvRec where
  cls : Nat := 0
  sev : Nat := 0
  code : Nat := 0
  kind : Nat := 0
  src : Nat := 65535
  details : List (Nat × Nat) := []
  /-- Bit 6 of byte 1: it came of an injected error (R415). -/
  injected : Bool := false
  /-- Bit 5 of byte 1: the summary of a rate-limited event (R547). -/
  summary : Bool := false
deriving DecidableEq, Repr

/-- A rate-limit window (R547): the details of the last occurrence counted, its count details holding the
sum over the occurrences counted, and how many were counted. -/
structure RateWin where
  ev : EvRec := {}
  counted : Nat := 0
deriving DecidableEq, Repr

/-- Debug unlock state (R505, R506). -/
structure DebugSt where
  nonce : Option (BitVec 256) := none
  level : Nat := 0
  lease : Nat := 0
  failures : Nat := 0
  lockout : Bool := false
deriving DecidableEq, Repr

/-- Cupola run states (Table 19.1). -/
inductive CupSt where
  | stopped | rom | running | restarting
deriving DecidableEq, Repr

/-- Cupola, mailboxes, ownership and events (R480 to R506, R547). -/
structure CudexSt where
  ports : List PortSt := [{}, {}, {}, {}]
  owners : Table Owner := []
  /-- Acceptances so far (the model's own). -/
  serial : Nat := 0
  mb2Region : Option Nat := none
  /-- Slot, line number and data of the response line transferred last, and the event record transferred last
  (Table 19.5). -/
  mb2Line : Nat × Nat × Line := (0, 0, 0)
  mb2Event : Record := 0
  cup : CupSt := .rom
  restarts : Nat := 0
  heartbeat : BitVec 16 := 0
  /-- Local time of the last restart by the watchdog (R482). -/
  wdAt : Option Nat := none
  /-- The restart in progress is the watchdog's. -/
  wdRestart : Bool := false
  restartWaiter : Option Waiter := none
  log : List Record := []
  logThreshold : Nat := 1
  logSeq : Nat := 0
  overwritten : Nat := 0
  windows : List RateWin := []
  dbg : DebugSt := {}
deriving DecidableEq, Repr

/-! ### GPIO, host, management and JTAG (chapter 20) -/

/-- One user I/O (R508 to R512). -/
structure Gpio where
  std : Nat := 0
  ddr : Bool := false
  delayOut : Bool := false
  term : Bool := false
  pull : Nat := 0
  drive : Bool := false
  taps : Nat := 0
  tapNow : Nat := 0
  outReg : Bool := false
  outReg1 : Bool := false
  oeReg : Bool := false
  inReg : Bool := false
  inReg1 : Bool := false
deriving DecidableEq, Repr

/-- A host request that the Runner performs (R514): its Runner requests in address order, each with its tag, whether its
last line has come, and the bytes of its lines so far; whether it reads; the place of its first byte in the first line,
its length, and the first code other than `OK`. -/
structure HostJob where
  parts : List (Nat × Bool × List Byte) := []
  read : Bool := false
  skip : Nat := 0
  count : Nat := 0
  code : BitVec 3 := 0
deriving DecidableEq, Repr

/-- PCIe endpoint (R513 to R515, Table 20.8). -/
structure Pcie where
  up : Bool := false
  rate : Nat := 0
  width : Nat := 0
  d3hot : Bool := false
  heldReset : Bool := false
  /-- Unsupported requests, completer aborts, poisoned completions, posted writes refused, function-level resets. -/
  counters : List Nat := [0, 0, 0, 0, 0]
  jobs : List HostJob := []
  /-- Advanced error reporting: unsupported request, completer abort, internal error (Table 20.3). -/
  aer : BitVec 3 := 0
  /-- Last read completion: Runner code and data. -/
  lastCode : BitVec 3 := 0
  lastData : List Byte := []
  /-- MSI-X pending bits 0 to 2 (Table 19.2), and the vector delivered last. -/
  msixPend : BitVec 3 := 0
  msixLast : Option Nat := none
deriving DecidableEq, Repr

/-- Ports to the board (R507 to R522). -/
structure IoSt where
  /-- Declared voltages of the banks in 0.1 V, 0 for none declared (R508). -/
  vccio : List Nat := [0, 0, 0, 0, 0, 0, 0, 0]
  gpio : Table Gpio := []
  pcie : Pcie := {}
  i2cAddr : Nat := 0x5A
  /-- The static address to come, and the slot whose response has to be read first (Table 20.7). -/
  nextAddr : Option (Nat × Port × Fin 4) := none
  pec : Bool := false
  dynAddr : Nat := 0
  pecFails : Nat := 0
  /-- Bytes the last management read returned. -/
  mgmtOut : List Byte := []
  jtagIr : BitVec 8 := 0
  /-- Captured MBACC data register (R521). -/
  mbacc : BitVec 50 := 0
  boundary : List Bool := []
  /-- The balls are driven from the boundary register (R520). -/
  extest : Bool := false
  jtagDr : BitVec 32 := 0
deriving DecidableEq, Repr

/-! ### Environment -/

/-- Speed grades (Table 0.1). -/
inductive Grade where
  | g1 | g2 | g3
deriving DecidableEq, Repr

/-- Fused identity of one device (R1, R2, R179, R505). -/
structure Fuses where
  grade : Grade := .g1
  industrial : Bool := false
  customerHash : Option (BitVec 384) := none
  vendorHash : BitVec 384 := 0
  aesKey : Option (BitVec 256) := none
  deviceId : BitVec 128 := 0
  /-- Factory defect map entries: region and entry (R123). -/
  defects : List (Nat × BitVec 32) := []
  version : BitVec 4 := 0
  maker : BitVec 11 := 0
deriving DecidableEq, Repr

/-- Time and the model's own bookkeeping. `now` is the local time of R350 in 1/256 ns; `freeCtr` is the
MODEL'S OWN counter that makes each free value a fresh one (no register of the device). -/
structure Env where
  now : Nat := 0
  freeCtr : Nat := 0
  fuses : Fuses := {}
deriving DecidableEq, Repr

/-- The whole state. `pending` is the queue of waiting commands, first in first out. -/
structure State where
  pending : List Instr := []
  env : Env := {}
  dev : Device := {}
  tick : TickGen := {}
  regions : Table Region := []
  runner : RunnerSt := {}
  lib : LibSt := {}
  brams : Table Bram := []
  ingot : IngotSt := {}
  dsp : Table Engine := []
  domains : Table Domain := []
  lanes : Table Lane := []
  links : Table Link := []
  sys : SysSt := {}
  riser : RiserSt := {}
  hbm : HbmSt := {}
  integ : IntegSt := {}
  clk : ClkSt := {}
  therm : ThermSt := {}
  bonds : BondsSt := {}
  cudex : CudexSt := {}
  io : IoSt := {}
deriving DecidableEq, Repr

/-- Reasons a step faults. No command of this model faults: the block answers every request and takes
every event (R40, R24). -/
inductive Fault where
  /-- Raised by nobody: kept so that the type is inhabited. Safe. -/
  | unreachable
deriving DecidableEq, Repr

/-- Reasons a step is refused. -/
inductive Refusal where
  /-- A command whose meaning is not written yet; raised only by `exec`'s arms. Safe. -/
  | notModelled (mnemonic : String)
deriving DecidableEq, Repr

/-- The machine right after power-on reset (Table 3.3): STANDBY, every field at its reset value. -/
def State.reset : State := {}

end Sys2Proof.Machine
end

