-- ==== Sys2Proof/Config.lean ====
section
/-! DEFINITION. What one implementation fixes and the values the manual leaves open: opaque constants, so
that nothing can be proved about which value they have. Each free value is applied to the counter
`State.env.freeCtr` or to the operands it depends on. -/

namespace Sys2Proof.Config

/-- A fresh free bit vector of any width up to 4096 bits (notes/assumptions/1.md). -/
opaque freeBits : Nat → BitVec 4096

/-- A fresh free natural number (notes/assumptions/1.md). -/
opaque freeNat : Nat → Nat

/-- The value of a fabric signal that the manual leaves open: a loop without a flip-flop, an output of a cell in a mode that gives it none
(notes/assumptions/170.md). -/
opaque freeSignal : Nat → Machine.Node → Bool

/-- One bit of free choice (notes/assumptions/1.md). -/
opaque freeBool : Nat → Bool

/-- AES-256 forward cipher of NIST FIPS 197 on one 16-byte block, key first (R180, R383). The manual names
the function and does not restate it. -/
opaque aes256 : BitVec 256 → BitVec 128 → BitVec 128

/-- The AES-256-GMAC of NIST SP 800-38D: key, 128-bit IV, additional authenticated data (R383, R386). -/
opaque gmac : BitVec 256 → BitVec 128 → List Byte → BitVec 128

/-- SHA-384 of a byte string (R178, R179, R505). -/
opaque sha384 : List Byte → BitVec 384

/-- ECDSA P-384 verification over a SHA-384 digest: public key bytes, digest, signature bytes (R179,
R505). -/
opaque ecdsaVerify : List Byte → BitVec 384 → List Byte → Bool

/-- The AES-256-GCM authentication tag of NIST SP 800-38D (R180): key, 96-bit nonce, additional data, ciphertext. -/
opaque gcmTag : BitVec 256 → BitVec 96 → List Byte → List Byte → BitVec 128

/-- The signature check of a firmware image under the vendor key (R172, R501): the image's bytes. The
firmware image format is Felpaman's own and is not given. -/
opaque firmwareSigned : List Byte → Bool

/-- The vendor test patterns that a firmware image carries (R462, R501): the image's bytes; frame records of each
pattern of each class, in the coding of Table 7.5. -/
opaque vendorPatterns : List Byte → List (Nat × Nat × List Byte)

/-- The frame map of the Goentot pattern format (R546), which the manual does not reproduce: what a plane uses, from
the region class (true: class B) and the frames that are not all zero (notes/assumptions/13.md). -/
opaque frameUse : Bool → List (Nat × BitVec 4096) → Machine.PlaneUse

/-- The frames of a test plane with every multiplexer deselected that would use a listed resource (R463), by the same
map: the region class, the frames, and the defect-map entries that they use. -/
opaque deselect : Bool → List (Nat × BitVec 4096) → List (BitVec 32) → List (Nat × BitVec 4096)

/-- The place of LUT bit `bit` of a cell in the Cope frames, by the same map: frame index and bit. -/
opaque lutBit : Nat → Nat → Nat × Nat

/-- Spare rows left in the bank of an HBM page once the given pages have been repaired (R413): the number of
spare rows and the rows of a page are the stack's (notes/assumptions/11.md). -/
opaque spareRows : List Nat → Nat → Nat

/-- The check bits of the (128,120) inner code, and what its decoder makes of 128 bits (R263): the code is that of a standard which
the manual names and does not give. -/
opaque innerParity : BitVec 120 → BitVec 8
opaque innerDecode : BitVec 128 → BitVec 120

/-- The register of the training pattern that a lane index seeds (R274). -/
opaque trainSeed : Nat → BitVec 31

end Sys2Proof.Config
end

