-- ==== Sys2Proof/Machine/Store.lean ====
section
/-! DEFINITION. Sparse tables and byte memories: reading, writing and the canonical form (keys strictly
rising, no entry equal to what an unlisted key reads as). -/

namespace Sys2Proof.Machine

/-- The entry at key `k`; `d` where none is listed. -/
def tget {α : Type} (d : α) : Table α → Nat → α
  | [], _ => d
  | (j, v) :: t, k => if j = k then v else tget d t k

/-- The table with an entry `v` at key `k`, in its place among rising keys. -/
def tins {α : Type} : Table α → Nat → α → Table α
  | [], k, v => [(k, v)]
  | (j, w) :: t, k, v =>
    if k < j then (k, v) :: (j, w) :: t else if k = j then (k, v) :: t else (j, w) :: tins t k v

/-- The table with key `k` holding `v`, in canonical form: `v = d` removes the entry. -/
def tset {α : Type} [DecidableEq α] (d : α) (t : Table α) (k : Nat) (v : α) : Table α :=
  if v = d then t.filter (fun e => e.1 != k) else tins t k v

/-- The table with `f` applied to the entry at `k`. -/
def tmod {α : Type} [DecidableEq α] (d : α) (t : Table α) (k : Nat) (f : α → α) : Table α :=
  tset d t k (f (tget d t k))

/-- The canonical form: keys strictly rising, no entry equal to the default. -/
def twf {α : Type} [DecidableEq α] (d : α) : Table α → Bool
  | [] => true
  | [(_, v)] => decide (v ≠ d)
  | (j, v) :: (k, w) :: t => decide (v ≠ d) && decide (j < k) && twf d ((k, w) :: t)

/-- The table without the keys from `lo` up to, not including, `hi`. -/
def tclear {α : Type} (t : Table α) (lo hi : Nat) : Table α :=
  t.filter (fun e => decide (e.1 < lo) || decide (hi ≤ e.1))

/-- A byte of a memory; an unlisted address reads 0 (notes/assumptions/2.md). -/
def rdByte (m : Memory) (a : Nat) : Byte := tget 0 m a

/-- The memory with byte `v` at address `a`. -/
def wrByte (m : Memory) (a : Nat) (v : Byte) : Memory := tset 0 m a v

/-- The canonical form of a memory. -/
abbrev Memory.wf (m : Memory) : Prop := twf (0 : Byte) m = true

/-- The cells of a memory in the `n` bytes from address `a` on. -/
def window (m : Memory) (a n : Nat) : Memory := m.filter (fun c => decide (a ≤ c.1) && decide (c.1 < a + n))

/-- `n` bytes from address `a` on, lowest address first. -/
def rdBytes (m : Memory) (a n : Nat) : List Byte :=
  let w := window m a n
  (List.range n).map (fun i => rdByte w (a + i))

/-- The memory with a list of bytes from address `a` on. -/
def wrBytes (m : Memory) (a : Nat) : List Byte → Memory
  | [] => m
  | b :: bs => wrBytes (wrByte m a b) (a + 1) bs

/-- The memory with `n` bytes from `a` on cleared to zero. -/
def zeroBytes (m : Memory) (a n : Nat) : Memory := tclear m a (a + n)

/-- A little-endian number from a list of bytes (R4). -/
def leNat : List Byte → Nat
  | [] => 0
  | b :: bs => b.toNat + 256 * leNat bs

/-- The `n` little-endian bytes of a number (R4). -/
def leBytes : Nat → Nat → List Byte
  | 0, _ => []
  | n + 1, v => BitVec.ofNat 8 v :: leBytes n (v / 256)

/-- Byte `i` of a bit vector. -/
def byteOf {w : Nat} (v : BitVec w) (i : Nat) : Byte := v.extractLsb' (8 * i) 8

/-- The first `n` bytes of a bit vector, lowest first. -/
def bytesOf {w : Nat} (v : BitVec w) (n : Nat) : List Byte := leBytes n v.toNat

/-- `n` bytes of a bit vector from byte `i` on, as a number. -/
def fieldOf {w : Nat} (v : BitVec w) (i n : Nat) : Nat := (v.extractLsb' (8 * i) (8 * n)).toNat

/-- The bit vector with `n` bytes from byte `i` on replaced by the low bytes of `x`. -/
def putField {w : Nat} (v : BitVec w) (i n x : Nat) : BitVec w :=
  let mask := BitVec.ofNat w ((2 ^ (8 * n) - 1) * 2 ^ (8 * i))
  (v &&& ~~~mask) ||| (BitVec.ofNat w ((x % 2 ^ (8 * n)) * 2 ^ (8 * i)) &&& mask)

/-- The bit vector with the bytes of `new` where the byte enable is set. -/
def mergeBytes {w n : Nat} (old new : BitVec w) (be : BitVec n) : BitVec w :=
  let rec mask : Nat → Nat
    | 0 => 0
    | k + 1 => mask k + (if be.getLsbD k then 255 * 256 ^ k else 0)
  let m := BitVec.ofNat w (mask n)
  (old &&& ~~~m) ||| (new &&& m)

/-- A line from its 64 bytes, lowest first. -/
def lineOf (bs : List Byte) : Line := BitVec.ofNat 512 (leNat (bs.take 64))

/-- Entry `i` of a list, `d` where there is none. -/
def lget {α : Type} (d : α) (l : List α) (i : Nat) : α := l.getD i d

/-- A list with entry `i` replaced; entries missing before it are `d`, as they read. -/
def lput {α : Type} (d : α) (l : List α) (i : Nat) (v : α) : List α :=
  (l ++ List.replicate (i + 1 - l.length) d).set i v

/-- A list with `f` applied to entry `i`. -/
def lmod {α : Type} (d : α) (l : List α) (i : Nat) (f : α → α) : List α := lput d l i (f (lget d l i))

/-- Add `n` to a counter that stops at `top`. -/
def satAdd (top v n : Nat) : Nat := min top (v + n)

/-- A list of counters with `n` added to counter `i`, each stopping at its 32-bit maximum. -/
def bump (l : List Nat) (i n : Nat) : List Nat := lmod 0 l i (fun v => satAdd 4294967295 v n)

/-- A bit vector from a Bool. -/
def bit (b : Bool) : Nat := if b then 1 else 0

end Sys2Proof.Machine
end

