-- ==== Sys2Proof/Machine/Ops.lean ====
section
/-! DEFINITION. The named operations that every family shares: component access, free values, event records
and their delivery (R497 to R500, R547), the mode that the conditions give (R57, R58), the security alarm
(R393), and the answering of Cudex requests (R484 to R496). -/

namespace Sys2Proof.Machine

/-- What a meaning answers. -/
abbrev Out := Host.Outcome State Fault Refusal

/-! ### Component access -/

def modEnv (f : Env → Env) (s : State) : State := { s with env := f s.env }
def modDev (f : Device → Device) (s : State) : State := { s with dev := f s.dev }
def modTick (f : TickGen → TickGen) (s : State) : State := { s with tick := f s.tick }
def modRunner (f : RunnerSt → RunnerSt) (s : State) : State := { s with runner := f s.runner }

/-- Changes outstanding requests. -/
def mapOutst (f : Outst → Outst) (s : State) : State :=
  modRunner (fun r => { r with outst := r.outst.map f }) s

def modLib (f : LibSt → LibSt) (s : State) : State := { s with lib := f s.lib }
def modIngot (f : IngotSt → IngotSt) (s : State) : State := { s with ingot := f s.ingot }
def modSys (f : SysSt → SysSt) (s : State) : State := { s with sys := f s.sys }
def modRiser (f : RiserSt → RiserSt) (s : State) : State := { s with riser := f s.riser }
def modHbm (f : HbmSt → HbmSt) (s : State) : State := { s with hbm := f s.hbm }
def modInteg (f : IntegSt → IntegSt) (s : State) : State := { s with integ := f s.integ }
def modClk (f : ClkSt → ClkSt) (s : State) : State := { s with clk := f s.clk }
def modTherm (f : ThermSt → ThermSt) (s : State) : State := { s with therm := f s.therm }
def modBonds (f : BondsSt → BondsSt) (s : State) : State := { s with bonds := f s.bonds }
def modCudex (f : CudexSt → CudexSt) (s : State) : State := { s with cudex := f s.cudex }
def modIo (f : IoSt → IoSt) (s : State) : State := { s with io := f s.io }
def modGpio (n : Nat) (f : Gpio → Gpio) (s : State) : State := modIo (fun io => { io with gpio := tmod {} io.gpio n f }) s
def modRegion (r : Nat) (f : Region → Region) (s : State) : State :=
  { s with regions := tmod {} s.regions r f }
def modBram (m : Nat) (f : Bram → Bram) (s : State) : State := { s with brams := tmod {} s.brams m f }

/-- Plane `p` of a region. -/
def Region.plane (r : Region) (p : Nat) : Plane :=
  match p with
  | 0 => r.plane0 | 1 => r.plane1 | 2 => r.plane2 | _ => r.plane3

/-- A region with one plane changed. -/
def Region.modPlane (r : Region) (p : Nat) (f : Plane → Plane) : Region :=
  match p with
  | 0 => { r with plane0 := f r.plane0 } | 1 => { r with plane1 := f r.plane1 }
  | 2 => { r with plane2 := f r.plane2 } | _ => { r with plane3 := f r.plane3 }

def modPlane (r p : Nat) (f : Plane → Plane) (s : State) : State := modRegion r (fun x => x.modPlane p f) s

/-- The active plane. -/
def Region.now (r : Region) : Plane := r.plane r.active

/-- Raises the `WAIT` of a port for the next cycle (R199). -/
def raiseWait (m : Nat) (isA : Bool) (s : State) : State :=
  modBram m (fun b => if isA then { b with waitA := true } else { b with waitB := true }) s
def modEngine (e : Nat) (f : Engine → Engine) (s : State) : State := { s with dsp := tmod {} s.dsp e f }
def modDomain (d : Nat) (f : Domain → Domain) (s : State) : State :=
  { s with domains := tmod {} s.domains d f }
def modLane (l : Nat) (f : Lane → Lane) (s : State) : State := { s with lanes := tmod {} s.lanes l f }
def modLink (l : Nat) (f : Link → Link) (s : State) : State := { s with links := tmod {} s.links l f }
def modQueue (q : Nat) (f : Queue → Queue) (s : State) : State :=
  { s with riser := { s.riser with queues := tmod {} s.riser.queues q f } }

def State.region (s : State) (r : Nat) : Region := tget {} s.regions r
def State.bram (s : State) (m : Nat) : Bram := tget {} s.brams m
def State.engine (s : State) (e : Nat) : Engine := tget {} s.dsp e
def State.domain (s : State) (d : Nat) : Domain := tget {} s.domains d
def State.lane (s : State) (l : Nat) : Lane := tget {} s.lanes l
def State.link (s : State) (l : Nat) : Link := tget {} s.links l
def State.gpioOf (s : State) (n : Nat) : Gpio := tget {} s.io.gpio n
def State.queue (s : State) (q : Nat) : Queue := tget {} s.riser.queues q

/-- `f` when the condition holds. -/
def onlyIf (c : Bool) (f : State → State) (s : State) : State := if c then f s else s

/-- `f` of each number below `n`, in rising order. -/
def forBelow (n : Nat) (f : Nat → State → State) (s : State) : State :=
  (List.range n).foldl (fun t i => f i t) s

/-- `f` of each entry of a list, in order. -/
def forEach {α : Type} (l : List α) (f : α → State → State) (s : State) : State :=
  l.foldl (fun t x => f x t) s

/-- Everything but the always-on domain runs: not OFF, STANDBY or COOLDOWN (Table 3.1). -/
def State.awake (s : State) : Bool :=
  decide (s.dev.base ≠ .off) && decide (s.dev.base ≠ .standby) && !s.dev.cooldown

/-- Do regions run (R59)? They do from the release on, in every mode in which they are not stopped. -/
def State.regionsRun (s : State) : Bool :=
  decide (s.dev.base = .running) && !s.dev.stopped && !s.dev.cooldown

/-- Cupola runs firmware. -/
def State.firmware (s : State) : Bool := s.awake && decide (s.cudex.cup = .running)

/-! ### Free values -/

/-- The next free value as a bit vector of width `w`. -/
def freshBits (w : Nat) (s : State) : BitVec w := (Config.freeBits s.env.freeCtr).setWidth w

/-- The next free natural number. -/
def freshNat (s : State) : Nat := Config.freeNat s.env.freeCtr

/-- Move on to the next free value. -/
def useFree (s : State) : State := modEnv (fun e => { e with freeCtr := e.freeCtr + 1 }) s

/-- One idle cycle of the Cupola clock, 1 ns, in 1/256 ns (R350, R493; notes/assumptions/6.md). -/
def idleCycle (s : State) : State := modEnv (fun e => { e with now := e.now + 256 }) s

/-! ### Ports and codes -/

/-- Port number (Table 0.4, R548). -/
def portIdx : Port → Nat
  | .mb0 => 0 | .mb1 => 1 | .mb2 => 2 | .mb3 => 3

/-- Rank in the precedence order MB1, MB0, MB2, MB3 (R493). -/
def portRank : Port → Nat
  | .mb1 => 0 | .mb0 => 1 | .mb2 => 2 | .mb3 => 3

/-- The four ports in port order (R493). -/
def portsInOrder : List Port := [.mb1, .mb0, .mb2, .mb3]

/-- Mode codes of Table 3.1; 0 for OFF (R548). -/
def Mode.code : Mode → Nat
  | .off => 0 | .standby => 1 | .boot => 2 | .load => 3 | .run => 4 | .degraded => 5 | .frozen => 6
  | .hold => 7 | .cooldown => 8 | .recovery => 9 | .test => 10 | .debug => 11

/-! ### Events -/

/-- Places details at offsets 0 to 15 as R498 gives: each at the lowest offset aligned to its size that
follows the last one placed; one that does not fit is left out and the result is marked truncated. -/
def placeDetails : List (Nat × Nat) → Nat → Nat → Bool → Nat × Bool
  | [], _, acc, tr => (acc, tr)
  | (size, v) :: rest, off, acc, tr =>
    let o := (off + size - 1) / size * size
    if size = 1 ∨ size = 2 ∨ size = 4 ∨ size = 8 then
      if o + size ≤ 16 then placeDetails rest (o + size) (acc + (v % 256 ^ size) * 256 ^ o) tr
      else placeDetails rest off acc true
    else placeDetails rest off acc true

/-- The 32-byte record of an event at a tick number (Table 19.11). -/
def mkRecord (e : EvRec) (tick : Nat) : Record :=
  let (d, tr) := placeDetails e.details 0 0 false
  BitVec.ofNat 256 (e.cls + 256 * (e.sev % 8 + 32 * bit e.summary + 64 * bit e.injected + 128 * bit tr)
    + 65536 * e.code + 2 ^ 32 * e.src + 2 ^ 48 * e.kind + 2 ^ 64 * (tick % 2 ^ 64) + 2 ^ 128 * d)

/-- Fields of a record. -/
def recSev (r : Record) : Nat := fieldOf r 1 1 % 8
def recCls (r : Record) : Nat := fieldOf r 0 1
def recCode (r : Record) : Nat := fieldOf r 2 2

/-- An overflow record (Table 19.17, code 0x1308). -/
def isOverflow (r : Record) : Bool := recCode r == 0x1308

/-- A list without its first entry that satisfies `p`. -/
def dropFirst (p : Record → Bool) : List Record → List Record
  | [] => []
  | x :: xs => if p x then xs else x :: dropFirst p xs

/-- A record offered to one event path of 64 records (R499). -/
def offerPath (r : Record) (p : PortSt) : PortSt :=
  if recSev r = 4 ∨ (p.classMask.getLsbD (recCls r) = true ∧ p.minSev ≤ recSev r) then
    if p.path.length < 64 then { p with path := p.path ++ [r] }
    else if recSev r ≠ 4 then { p with lost := satAdd 65535 p.lost 1 }
    else
      let victim : Record → Bool := fun x => recSev x != 4 && !isOverflow x
      let path := if p.path.any victim then dropFirst victim p.path
        else dropFirst (fun x => !isOverflow x) p.path
      if path.length < 64 then { p with path := path ++ [r], lost := satAdd 65535 p.lost 1 }
      else { p with lost := satAdd 65535 p.lost 1 }
  else p

/-- Signals MB0 by an MSI-X vector (Table 19.2); D3hot stops delivery (R514). -/
def signalMsix (v : Nat) (s : State) : State :=
  modIo (fun io => { io with pcie :=
    if io.pcie.up && !io.pcie.d3hot then { io.pcie with msixLast := some v }
    else { io.pcie with msixPend := io.pcie.msixPend ||| BitVec.ofNat 3 (2 ^ v) } }) s

/-- The log with one more record: 2,048 records, the oldest overwritten when full (R500). -/
def logRecord (r : Record) (c : CudexSt) : CudexSt :=
  if c.logThreshold ≤ recSev r then
    if c.log.length < 2048 then { c with log := c.log ++ [r], logSeq := c.logSeq + 1 }
    else { c with log := c.log.drop (c.log.length - 2047) ++ [r], logSeq := c.logSeq + 1,
                  overwritten := c.overwritten + 1 }
  else c

/-- Delivers a record to the log and to the event path of each port that takes it (R497). The event
collector runs in every mode except OFF. -/
def deliver (r : Record) (s : State) : State :=
  if s.dev.base = .off then s
  else
    let before := (lget {} s.cudex.ports 0).path.length
    let s := modCudex (fun c => logRecord r { c with ports := c.ports.map (offerPath r) }) s
    let took := before < (lget {} s.cudex.ports 0).path.length
    onlyIf took (signalMsix (if recSev r = 4 then 2 else 1)) s

/-- Raises an event: the record carries the tick number at which it is raised (R497). -/
def raise (e : EvRec) (s : State) : State := deliver (mkRecord e s.tick.number.toNat) s

/-- Adds the count details (positions `counts`) of a new occurrence to those summed so far, and takes the
other details of the new one (R547). -/
def sumDetails (counts : List Nat) (old new : List (Nat × Nat)) : List (Nat × Nat) :=
  (List.range new.length).map (fun i =>
    let n := lget (1, 0) new i
    if i ∈ counts then (n.1, (lget (1, 0) old i).2 + n.2) else n)

/-- Is this the window of the event's code and source? -/
def sameWindow (a b : EvRec) : Bool := a.code == b.code && a.kind == b.kind && a.src == b.src

/-- Raises an event that its table limits to one per second and source (R547, steps 1 and 2). -/
def raiseLimited (e : EvRec) (counts : List Nat) (s : State) : State :=
  match s.cudex.windows.find? (fun w => sameWindow w.ev e) with
  | none => modCudex (fun c => { c with windows := c.windows ++ [⟨e, 0⟩] }) (raise e s)
  | some _ => modCudex (fun c => { c with windows := c.windows.map (fun w =>
      if sameWindow w.ev e then
        ⟨{ e with details := if w.counted = 0 then e.details
            else sumDetails counts w.ev.details e.details }, w.counted + 1⟩
      else w) }) s

/-! ### The mode (R57, R58) -/

/-- Isolation causes that put the device in DEGRADED: every one but those of a region not loaded, of the
start-up load, and of TEST (R72, R478; notes/assumptions/5.md). -/
def IsoCause.degrades : IsoCause → Bool
  | .unloaded | .boot | .testMode => false
  | _ => true

/-- A region isolated or retired, or an Ingot bank retired (Table 3.2, R212). Tables 3.2 and 3.7 count a link isolated or
retired as well, and no rule says when a link is either: the model counts none (DESIGN CHOICE, notes/assumptions/5.md). -/
def isDegraded (s : State) : Bool :=
  s.regions.any (fun e => e.2.retired || e.2.iso.any IsoCause.degrades) || !s.ingot.retired.isEmpty

/-- The mode that the base and the conditions give (R58). -/
def modeOf (s : State) : Mode :=
  match s.dev.base with
  | .off => .off
  | .standby => .standby
  | b =>
    if s.dev.cooldown then .cooldown
    else match b with
      | .boot => if s.dev.hold then .hold else .boot
      | .load => if s.dev.hold then .hold else .load
      | .recovery => .recovery
      | .test => .test
      | _ => if s.dev.hold then .hold else if s.dev.frozenCmd then .frozen
        else if s.dev.debug then .debug else if isDegraded s then .degraded else .run

/-- The event Mode changed (Table 19.17): CRITICAL into HOLD, COOLDOWN or a device-entered RECOVERY. -/
def modeEvent (old new : Mode) (cause : Nat) : EvRec :=
  { cls := 0x0F, code := 0x1309, kind := 0,
    sev := if new = .hold ∨ new = .cooldown ∨ (new = .recovery ∧ cause ≠ 7 ∧ cause ≠ 0x10) then 4 else 1,
    details := [(1, old.code), (1, new.code), (1, cause)] }

/-- FROZEN ends: an outage that a refused RESUME began ends with it, and is logged with that RESUME's tick number (R64). -/
def closeOutage (s : State) (d : Device) : Device :=
  match d.resumeRefused with
  | some (tick, t) =>
    if s.dev.mode = .frozen then { d with resumeRefused := none, outages := d.outages ++ [(tick, t, s.env.now)] } else d
  | none => d

/-- Takes the mode that the conditions give; a change is an event with its cause (R57, R58). -/
def settleMode (cause : Nat) (s : State) : State :=
  let m := modeOf s
  if s.dev.mode = m then s
  else raise (modeEvent s.dev.mode m cause)
    (modDev (fun d => { closeOutage s d with mode := m, modeTick := s.tick.number }) s)

/-- Cause 0x15 or 0x16 of a change that isolation or its end makes (Table 19.18). -/
def isoChangeCause (s : State) : Nat := if isDegraded s then 0x15 else 0x16

/-- Ends a command: the mode follows the conditions at once (R58, Table 3.2), and the queue of waiting
commands and the fuses (R66) are as they were. -/
def commit (s t : State) : Out :=
  let u := settleMode (isoChangeCause t) t
  .next { u with pending := s.pending, env := { u.env with fuses := s.env.fuses } }

/-- An event that occurs only when its condition holds; otherwise the state is unchanged
(notes/assumptions/3.md). -/
def occurs (c : Bool) (f : State → State) (s : State) : Out := if c then commit s (f s) else .next s

/-! ### Requests (Tables 19.6 and 19.7) -/

/-- A request as it stands in its slot, with the acceptance that its response answers. -/
structure Req where
  port : Port
  slot : Fin 4
  bits : BitVec 2048
  rangAt : Nat
  serial : Nat

def Req.opcode (q : Req) : Nat := fieldOf q.bits 0 2
def Req.tag (q : Req) : Nat := fieldOf q.bits 2 1
def Req.flags (q : Req) : Nat := fieldOf q.bits 3 1
def Req.argLen (q : Req) : Nat := fieldOf q.bits 4 2
def Req.target (q : Req) : Nat := fieldOf q.bits 6 2
def Req.atTick (q : Req) : Bool := q.flags.testBit 0
def Req.force (q : Req) : Bool := q.flags.testBit 1
def Req.queryFlag (q : Req) : Bool := q.flags.testBit 2
def Req.waiter (q : Req) : Waiter := (q.port, q.slot, q.serial)

/-- Argument byte `i` (8 to 255); bytes beyond the argument length read as zero (R489). -/
def Req.argByte (q : Req) (i : Nat) : Nat :=
  if 8 ≤ i ∧ i < 8 + q.argLen then fieldOf q.bits i 1 else 0

/-- `n` argument bytes from byte `i` on, little-endian (R4). -/
def Req.arg (q : Req) (i : Nat) : Nat → Nat
  | 0 => 0
  | n + 1 => q.argByte i + 256 * q.arg (i + 1) n

/-- The argument bytes from `i` on, as a list. -/
def Req.argBytes (q : Req) (i n : Nat) : List Byte :=
  (List.range n).map (fun k => BitVec.ofNat 8 (q.argByte (i + k)))

/-- Slot `sl` of port `p`. -/
def State.slot (s : State) (p : Port) (sl : Fin 4) : Slot :=
  lget {} (lget {} s.cudex.ports (portIdx p)).slots sl.val

/-- The state with one slot changed. -/
def modSlot (p : Port) (sl : Fin 4) (f : Slot → Slot) (s : State) : State :=
  modCudex (fun c => { c with ports := lmod {} c.ports (portIdx p) (fun ps =>
    { ps with slots := lmod {} ps.slots sl.val f }) }) s

/-- The state with one port changed. -/
def modPort (p : Port) (f : PortSt → PortSt) (s : State) : State :=
  modCudex (fun c => { c with ports := lmod {} c.ports (portIdx p) f }) s

/-- The request in a slot. -/
def State.req (s : State) (p : Port) (sl : Fin 4) : Req :=
  let x := s.slot p sl
  ⟨p, sl, x.req, x.rangAt, x.serial⟩

/-- Result fields: byte offset from 16 on, size in bytes, value. -/
abbrev Results := List (Nat × Nat × Nat)

/-- The 256-byte response (Table 19.7, R489). -/
def mkResponse (tag flags status tick : Nat) (res : Results) : BitVec 2048 :=
  let len := res.foldl (fun n f => max n (f.1 + f.2.1 - 16)) 0
  BitVec.ofNat 2048 (res.foldl (fun v f => v + (f.2.2 % 256 ^ f.2.1) * 256 ^ f.1)
    (status + 65536 * tag + 2 ^ 24 * flags + 2 ^ 32 * len + 2 ^ 64 * (tick % 2 ^ 64)))

/-- Status codes (Table 19.8). -/
def stOk : Nat := 0
def stBusy : Nat := 1
def stNotOwner : Nat := 2
def stConflict : Nat := 3
def stBadArg : Nat := 4
def stUnsupported : Nat := 5
def stDenied : Nat := 6
def stTimeout : Nat := 7
def stFault : Nat := 8
def stNoRoom : Nat := 9
def stIncomplete : Nat := 10
def stInvalidPlane : Nat := 11
def stRegionAsleep : Nat := 12
def stPathReset : Nat := 13

/-- The response of a slot and its signal (R484, Table 19.2). -/
def postResponse (p : Port) (sl : Fin 4) (status tick : Nat) (res : Results) (s : State) : State :=
  let x := s.slot p sl
  let s := modSlot p sl (fun y =>
    { y with st := .done, resp := mkResponse (fieldOf x.req 2 1) (fieldOf x.req 3 1) status tick res }) s
  onlyIf (p == .mb0) (signalMsix 0) s

/-- Answers a waiting request at a tick, if its acceptance still stands (R484). -/
def replyAt (w : Waiter) (status tick : Nat) (res : Results) (s : State) : State :=
  let x := s.slot w.1 w.2.1
  if x.st = .accepted ∧ x.serial = w.2.2 then postResponse w.1 w.2.1 status tick res s else s

/-- Answers a waiting request at the current tick. -/
def reply (w : Waiter) (status : Nat) (res : Results) (s : State) : State :=
  replyAt w status s.tick.number.toNat res s

/-- Answers a request that may have been answered before. -/
def replyOpt (w : Option Waiter) (status : Nat) (res : Results) (s : State) : State :=
  match w with
  | none => s
  | some w => reply w status res s

/-- Answers with `PATH_RESET` every request of the ports that is in one of the given slot states. -/
def abortSlots (ports : List Port) (sts : List SlotSt) (s : State) : State :=
  forEach ports (fun p => forBelow 4 (fun i t =>
    let sl : Fin 4 := Fin.ofNat 4 i
    if (t.slot p sl).st ∈ sts then postResponse p sl stPathReset t.tick.number.toNat [] t else t)) s

/-! ### HOLD and the Ladle (R194, R393) -/

/-- Plane states as Table 6.1 gives them. -/
def PlaneSt.code : PlaneSt → Nat
  | .invalid => 0 | .filling => 1 | .valid => 2 | .active => 3 | .barred => 4 | .test => 5

/-- A library entry. -/
def State.entry (s : State) (i : Nat) : LibEntry := tget {} s.lib.entries i
def modEntry (i : Nat) (f : LibEntry → LibEntry) (s : State) : State :=
  modLib (fun l => { l with entries := tmod {} l.entries i f }) s

/-- The answer of a `LIB_LOAD` that places nothing in a plane, or whose plane it did not fill. -/
def loadReply (q : LoadReq) (status index cause addr : Nat) (s : State) : State :=
  let st := match q.target with
    | some (r, p) => [(24, 1, ((s.region r).plane p).st.code)]
    | none => []
  reply q.waiter status ([(16, 2, index), (18, 1, cause), (20, 4, addr)] ++ st) s

/-- The entry that a request has made LOADING is EMPTY again. -/
def freeReserved (q : LoadReq) (s : State) : State :=
  match q.reserved with
  | none => s
  | some i => modEntry i (fun _ => {}) s

/-- Every accepted request is answered with `FAULT` (R194). -/
def stopLoads (s : State) : State :=
  forEach s.lib.queue (fun q s => loadReply q stFault (q.reserved.getD q.index) 0 0 (freeReserved q s))
    (modLib (fun l => { l with queue := [] }) s)

/-- A security alarm (R393, R60, R62, R63): the Security event is raised by its source, and HOLD stops the
Ladle (R194). In HOLD a further alarm only counts. -/
def securityAlarm (s : State) : State :=
  let s := modHbm (fun h => { h with alarms := satAdd 4294967295 h.alarms 1 }) s
  if s.dev.mode = .hold then s
  else
    let s := modDev (fun d => { d with alarm := true, rangesClosed := true }) s
    match s.dev.base with
    | .recovery | .test | .standby | .off => s
    | .boot | .load => stopLoads (settleMode 0x19 (modDev (fun d => { d with hold := true, holdInStartup := true }) s))
    | .running => stopLoads (settleMode 0x19 (modDev (fun d => { d with hold := true, debug := false }) s))

/-! ### Ownership (R494 to R496) -/

/-- Key of a resource in the ownership table (Table 19.10). -/
def ownKey (kind index : Nat) : Nat := kind * 256 + index

def State.owner (s : State) (k : Nat) : Option Owner := (s.cudex.owners.find? (fun e => e.1 == k)).map (·.2)

/-- Ownership from a request's point of view (R495). -/
inductive OwnView where
  | free | mine | other | conflict
deriving DecidableEq, Repr

def ownView (q : Req) (k : Nat) (s : State) : OwnView :=
  match s.owner k with
  | none => .free
  | some o => if o.port = q.port then .mine else if o.claimedAt = some q.rangAt then .conflict else .other

/-- The ownership table without an entry. -/
def dropOwner (k : Nat) (t : Table Owner) : Table Owner := t.filter (fun e => e.1 != k)

/-- The ownership table with an entry, keys rising. -/
def insOwner (k : Nat) (o : Owner) : Table Owner → Table Owner
  | [] => [(k, o)]
  | (j, w) :: t =>
    if k < j then (k, o) :: (j, w) :: t else if k = j then (k, o) :: t else (j, w) :: insOwner k o t

/-- Records a claim (R495). -/
def setOwner (k : Nat) (o : Owner) (s : State) : State :=
  modCudex (fun c => { c with owners := insOwner k o c.owners }) s

/-- The implicit claim of a resource without an owner: a lease of 60 s (R495). -/
def claimImplicit (q : Req) (k : Nat) (s : State) : State :=
  match s.owner k with
  | some _ => s
  | none => setOwner k ⟨q.port, 60, some q.rangAt, s.env.now⟩ s

/-- Claims every missing owner, or none: none when one of them belongs to another port (R495). -/
def claimAll (q : Req) (ks : List Nat) (s : State) : OwnView × State :=
  match ks.find? (fun k => decide (ownView q k s = .conflict) || decide (ownView q k s = .other)) with
  | some k => (ownView q k s, s)
  | none => (.mine, forEach ks (claimImplicit q) s)

/-- The end of ownership (R496): no setting changes; a persistent override is cleared at once, and the former
owner's Firmware event is raised unless a reset ends it. -/
def endOwner (k cause newOwner : Nat) (s : State) : State :=
  match s.owner k with
  | none => s
  | some o =>
    let s := modCudex (fun c => { c with owners := dropOwner k c.owners }) s
    let s := onlyIf (k < 64) (modRegion k (fun r => { r with persistOv := none })) s
    raise { cls := 0x0F, sev := 1, code := 0x1303, kind := 9, src := portIdx o.port,
            details := [(1, k / 256), (1, k % 256), (1, cause), (1, newOwner)] } s

/-! ### The taking of a request (R484, R488, R491 to R493) -/

/-- Who serves requests now: nobody, the always-on domain (R488), the ROM service (R74) or the firmware. -/
inductive Server where
  | nobody | always | rom | firmware
deriving DecidableEq, Repr

def serverOf (s : State) : Server :=
  match s.dev.mode with
  | .off => .nobody
  | .standby | .cooldown => if s.dev.porstLow then .nobody else .always
  | _ => if s.dev.resetSilent then .nobody
    else match s.cudex.cup with
      | .running => .firmware
      | .rom => if s.dev.romService then .rom else .nobody
      | _ => .nobody

/-- Does this server take requests of the port? In STANDBY and COOLDOWN only MB1 and MB3 are answered
(R488). -/
def serves (v : Server) (p : Port) : Bool :=
  match v with
  | .nobody => false
  | .always => p == .mb1 || p == .mb3
  | _ => true

/-- `(t, p, i)` comes before `(t', p', i')` in the taking order of R493. -/
def takesBefore (t p i t' p' i' : Nat) : Bool :=
  decide (t < t') || (decide (t = t') && (decide (p < p') || (decide (p = p') && decide (i < i'))))

/-- No other POSTED request that the server takes comes ahead of this one (R493). -/
def isNext (s : State) (p : Port) (sl : Fin 4) : Bool :=
  let me := s.slot p sl
  portsInOrder.all (fun p' => !serves (serverOf s) p' || [0, 1, 2, 3].all (fun i =>
    let x := s.slot p' (Fin.ofNat 4 i)
    !(decide (x.st = .posted) && takesBefore x.rangAt (portRank p') i me.rangAt (portRank p) sl.val)))

/-- Can the request of this slot be taken now? -/
def canTake (s : State) (p : Port) (sl : Fin 4) : Bool :=
  decide ((s.slot p sl).st = .posted) && serves (serverOf s) p && isNext s p sl

/-- POSTED becomes ACCEPTED (R484). -/
def acceptSlot (p : Port) (sl : Fin 4) (s : State) : State :=
  let n := s.cudex.serial + 1
  modCudex (fun c => { c with serial := n })
    (modSlot p sl (fun x => { x with st := .accepted, serial := n }) s)

/-- What a command's own part answers. -/
inductive Answer where
  /-- Answered at once, at the current tick. -/
  | done (status : Nat) (res : Results)
  /-- Answered at once with another tick in its tick field (R69). -/
  | doneAt (status tick : Nat) (res : Results)
  /-- Answered when its work ends. -/
  | wait

/-- What a command's table says (R491): whether QUERY has a meaning, the port rule, the targets, the owners
needed, and the rest as `body`. -/
structure CmdSpec where
  opcode : Nat
  query : Bool := false
  portOk : Req → Bool := fun _ => true
  targetOk : Req → Bool
  owners : Req → State → List Nat := fun _ _ => []
  body : Req → State → State × Answer

/-- The request is a QUERY form: the flag is set and the command's table gives it a meaning (R490). -/
def isQuery (c : CmdSpec) (q : Req) : Bool := c.query && q.queryFlag

/-- `0x0Exx` and `0x0Fxx` (Table 19.9). -/
def op0E (o : Nat) : Bool := o / 256 == 0x0E
def op0F (o : Nat) : Bool := o / 256 == 0x0F

/-- The mode's answer to a command (R492, Table 19.9): none where the mode accepts it. -/
def modeRefusal (v : Server) (m : Mode) (q : Req) (query : Bool) : Option Nat :=
  let o := q.opcode
  match v with
  | .always =>
    if (o = 0x0001 ∧ query = true) ∨ o = 0x0F01 then none else some stBusy
  | .rom =>
    if (q.port = .mb1 ∨ q.port = .mb3) ∧
        ((o = 0x0001 ∧ query = true) ∨ o = 0x0104 ∨ (o = 0x0E02 ∧ q.argByte 9 = 0)) then none
    else some stDenied
  | _ =>
    match m with
    | .boot | .load =>
      if query = true ∨ op0F o = true ∨ o = 0x0002 ∨ o = 0x0104 ∨ o = 0x0E02 then none else some stBusy
    | .recovery =>
      if o = 0x0001 ∨ o = 0x0002 ∨ o = 0x0010 ∨ o = 0x0104 ∨ (op0E o = true ∧ o ≠ 0x0E11) ∨ op0F o = true
      then none else some stDenied
    | .test =>
      if query = true ∨ o = 0x0C02 ∨ o = 0x0C10 ∨ o = 0x0C20 ∨ op0F o = true ∨ o = 0x0002 then none
      else some stDenied
    | _ => none

/-- MB3 accepts only QUERY forms, `EVENT_LOG_READ` and `DEBUG_UNLOCK` until a debug unlock is in force; the
ROM service, and the always-on domain of R488, have rules of their own (R492). -/
def mb3Refusal (s : State) (v : Server) (q : Req) (query : Bool) : Option Nat :=
  if v = .firmware ∧ q.port = .mb3 ∧ s.dev.debug = false ∧ query = false ∧ q.opcode ≠ 0x0F01
      ∧ q.opcode ≠ 0x0E10 then some stDenied
  else none

/-- The request is malformed (R491 step 1): a reserved flag bit or an argument length above 248. -/
def isMalformed (q : Req) : Bool := decide (8 ≤ q.flags) || decide (248 < q.argLen)

/-- The checks of R491 before ownership: the status of the first that fails. -/
def earlyRefusal (c : CmdSpec) (q : Req) (s : State) : Option Nat :=
  if isMalformed q then some stBadArg
  else match modeRefusal (serverOf s) s.dev.mode q (isQuery c q) with
    | some st => some st
    | none => match mb3Refusal s (serverOf s) q (isQuery c q) with
      | some st => some st
      | none => if !c.portOk q then some stDenied else if !c.targetOk q then some stBadArg else none

/-- Puts an answer into the slot. -/
def answer (w : Waiter) (a : Answer) (s : State) : State :=
  match a with
  | .done st res => reply w st res s
  | .doneAt st tick res => replyAt w st tick res s
  | .wait => s

/-- Everything that taking a request does: the checks of R491 in their order, then the command. -/
def serveReq (c : CmdSpec) (p : Port) (sl : Fin 4) (s : State) : State :=
  let s := acceptSlot p sl s
  let q := s.req p sl
  match earlyRefusal c q s with
  | some st => reply q.waiter st [] s
  | none =>
    let (v, s) := if isQuery c q then (OwnView.mine, s) else claimAll q (c.owners q s) s
    match v with
    | .other => reply q.waiter stNotOwner [] s
    | .conflict => reply q.waiter stConflict [] s
    | _ =>
      let (s, a) := c.body q s
      answer q.waiter a s

/-- A Cudex command: the request of the slot is taken if it can be and if it carries the command's opcode
(notes/assumptions/4.md). -/
def runCmd (c : CmdSpec) (p : Port) (sl : Fin 4) (s : State) : Out :=
  occurs (canTake s p sl && decide ((s.req p sl).opcode = c.opcode)) (serveReq c p sl) s

/-- May a request change what a table lets only the owner change, results being returned either way (R491): the status,
and the state with an implicit claim. -/
def claimOne (q : Req) (k : Nat) (s : State) : State × Nat :=
  match claimAll q [k] s with
  | (.other, s) => (s, stNotOwner)
  | (.conflict, s) => (s, stConflict)
  | (_, s) => (s, stOk)

/-- Two's complement of `w` bits. -/
def signed (w n : Nat) : Int := (BitVec.ofNat w n).toInt

/-- Targets. -/
def devTarget (q : Req) : Bool := q.target == 0xFFFF
def below (n : Nat) (q : Req) : Bool := decide (q.target < n)
def belowOrDev (n : Nat) (q : Req) : Bool := decide (q.target < n) || q.target == 0xFFFF
def mb01 (q : Req) : Bool := q.port == .mb0 || q.port == .mb1

/-- The owner of region `q.target` is needed. -/
def ownRegion (q : Req) (_ : State) : List Nat := [ownKey 0 q.target]

end Sys2Proof.Machine
end

