-- ==== Sys2Proof/Machine/Flags.lean ====
section
/-! DEFINITION. Computed outcomes: the grid codes and their decoder (R399 to R401), the CRCs of Table 15.12,
and the rounding and saturation that several chapters use. -/

namespace Sys2Proof.Machine

/-! ### Grid codes -/

/-- Parity of the listed bits of a number. -/
def parityOf (v : Nat) (idx : List Nat) : Bool := idx.foldl (fun p i => p != v.testBit i) false

/-- The 2n check bits of n² data bits (R399): check bit r is the parity of row r, check bit n + k of column
k. -/
def gridCheck (n v : Nat) : Nat :=
  let row := fun r => parityOf v ((List.range n).map (fun k => n * r + k))
  let col := fun k => parityOf v ((List.range n).map (fun r => n * r + k))
  (List.range n).foldl (fun a i => a + bit (row i) * 2 ^ i + bit (col i) * 2 ^ (n + i)) 0

/-- Decoder outcomes (Table 15.2). -/
inductive GridOut where
  | clean
  | dataBit (i : Nat)
  | checkBit (j : Nat)
  | uncorrectable
deriving DecidableEq, Repr

/-- The rows (or columns) that fail: set positions of the `n` bits of `syn` from bit `lo` on. -/
def failing (n lo syn : Nat) : List Nat := (List.range n).filter (fun i => syn.testBit (lo + i))

/-- The decoder's outcome (R400) from the XOR of the stored check bits with the recomputed parities. -/
def decodeSyn (n syn : Nat) : GridOut :=
  match failing n 0 syn, failing n n syn with
  | [], [] => .clean
  | [r], [c] => .dataBit (n * r + c)
  | [r], [] => .checkBit r
  | [], [c] => .checkBit (n + c)
  | _, _ => .uncorrectable

/-- The change that inverting stored bit `p` makes in that XOR: a data bit upsets its row and its column, a
check bit itself (R399). -/
def synOfFlip (n : Nat) (isCheck : Bool) (p : Nat) : Nat :=
  if isCheck then 2 ^ p else 2 ^ (p / n) + 2 ^ (n + p % n)

/-- The data delivered for an outcome (Table 15.2). -/
def correctBits {w : Nat} (v : BitVec w) : GridOut → BitVec w
  | .dataBit i => v ^^^ BitVec.ofNat w (2 ^ i)
  | _ => v

/-- Outcome code of `SPLIT_WRITE` (Table 15.11). -/
def GridOut.code : GridOut → Nat
  | .clean => 0 | .dataBit _ => 1 | .checkBit _ => 2 | .uncorrectable => 3

/-- The bit field of a hard-fault record (Table 15.7 bytes 4 to 5). -/
def GridOut.bitField : GridOut → Nat
  | .dataBit i => i
  | .checkBit j => 32768 + j
  | _ => 0

/-! ### CRCs (R416, Table 15.12) -/

/-- Polynomial, width and reflection of a `POLY` code. -/
def crcParams (poly : Nat) : Nat × Nat × Bool :=
  match poly with
  | 0 => (0x04C11DB7, 32, true)
  | 1 => (0x1EDC6F41, 32, true)
  | 2 => (0x1021, 16, false)
  | _ => (0x07, 8, false)

/-- The final XOR of a `POLY` code. -/
def crcFinal (poly : Nat) : BitVec 32 :=
  match poly with
  | 0 | 1 => 0xFFFFFFFF#32
  | _ => 0#32

/-- The mask of a polynomial's width. -/
def crcMask (poly : Nat) : BitVec 32 := BitVec.ofNat 32 (2 ^ (crcParams poly).2.1 - 1)

/-- The `w` low bits of a number in reverse order. -/
def reverseBits (w v : Nat) : Nat :=
  (List.range w).foldl (fun a i => a + bit (v.testBit i) * 2 ^ (w - 1 - i)) 0

/-- One bit of a reflected CRC. -/
def crcStepRefl (rp v : BitVec 32) : BitVec 32 :=
  if v.getLsbD 0 then (v >>> 1) ^^^ rp else v >>> 1

/-- One bit of an unreflected CRC of width `w`. -/
def crcStepPlain (w : Nat) (p v : BitVec 32) : BitVec 32 :=
  (if v.getLsbD (w - 1) then (v <<< 1) ^^^ p else v <<< 1) &&& BitVec.ofNat 32 (2 ^ w - 1)

/-- `n` applications of a function. -/
def iter {α : Type} (f : α → α) : Nat → α → α
  | 0, x => x
  | n + 1, x => iter f n (f x)

/-- The running value after one more byte (R416): a reflected CRC takes it from bit 0 up, another from bit 7
down. -/
def crcByte (poly : Nat) (v : BitVec 32) (b : Byte) : BitVec 32 :=
  let (p, w, refl) := crcParams poly
  if refl then iter (crcStepRefl (BitVec.ofNat 32 (reverseBits w p))) 8 (v ^^^ b.setWidth 32)
  else iter (crcStepPlain w (BitVec.ofNat 32 p)) 8
    ((v &&& BitVec.ofNat 32 (2 ^ w - 1)) ^^^ (b.setWidth 32 <<< (w - 8)))

/-- The running value after a list of bytes. -/
def crcBytes (poly : Nat) (v : BitVec 32) (bs : List Byte) : BitVec 32 := bs.foldl (crcByte poly) v

/-- CRC-32C over bytes with its initial value and final XOR (Table 15.12). -/
def crc32c (bs : List Byte) : BitVec 32 := crcBytes 1 0xFFFFFFFF#32 bs ^^^ crcFinal 1

/-! ### Arithmetic -/

/-- `a / b` rounded up. -/
def ceilDiv (a b : Nat) : Nat := if b = 0 then 0 else (a + b - 1) / b

/-- An integer held within bounds. -/
def clampInt (lo hi v : Int) : Int := if v < lo then lo else if hi < v then hi else v

/-- A number held within bounds. -/
def clampNat (lo hi v : Nat) : Nat := if v < lo then lo else if hi < v then hi else v

end Sys2Proof.Machine
end

