-- ==== Sys2Proof/Machine/RiserOps.lean ====
section
/-! DEFINITION. The Riser queue's own operations: push, commit, rewind, pop, reset and the movement of items
between the buffers and the spill area (R358 to R375). -/

namespace Sys2Proof.Machine

/-- Items the queue holds. -/
def Queue.size (q : Queue) : Nat := q.committed.length + q.opened.length

/-- Items in the tail buffer: those neither in the head buffer nor in the spill area. -/
def Queue.tailCount (q : Queue) : Nat := q.size - q.headCount - q.spilled

/-- Spill pages that a capacity reserves (R358). -/
def spillPagesFor (cap : Nat) : Nat := ceilDiv (cap - 16) 64

/-- Moves items on (R359): from the tail buffer to the head buffer while nothing is spilled, out to the spill
area when the tail buffer holds more than 8, and read-backs, one for each free head entry. -/
def Queue.settle (q : Queue) : Queue :=
  let q := if q.spilled = 0 then { q with headCount := min 8 q.size } else q
  let q := if 8 < q.tailCount then { q with spilled := q.spilled + (q.tailCount - 8) } else q
  { q with reading := max q.reading (min (8 - q.headCount) q.spilled) }

/-- The producer has credit (R368). -/
def Queue.hasCredit (q : Queue) : Bool :=
  let d := (q.limit - q.pushed).toNat
  decide (1 ≤ d) && decide (d ≤ 2147483648)

/-- The queue without its open packet, whose credits return (R367); the producer side is left to the caller. -/
def Queue.dropOpen (q : Queue) : Queue :=
  let n := q.opened.length
  let size := q.committed.length
  let head := min q.headCount size
  let spilled := min q.spilled (size - head)
  let q := { q with opened := [], limit := q.limit + BitVec.ofNat 32 n, headCount := head,
                    spilled := spilled, reading := min q.reading spilled }
  let q := if n = 0 then q else { q with counters := bump (bump q.counters 0 n) 1 1 }
  q.settle

/-- A rewind by ABORT or by the producer's region: OPEN becomes CLOSED (R367, R374). -/
def Queue.rewind (q : Queue) : Queue :=
  if q.prod = .open_ then { q.dropOpen with prod := .closed } else q

/-- The open packet becomes visible; its last item is marked EOP (R364, R366). -/
def Queue.commit (q : Queue) : Queue :=
  match q.opened.reverse with
  | [] => q
  | last :: rest =>
    let pkt := (({ last with eop := true } : Item) :: rest).reverse
    { q with committed := q.committed ++ pkt, opened := [], prod := .closed,
             committedCnt := q.committedCnt + BitVec.ofNat 32 pkt.length }

/-- A push line that appends (R364, R369): the queue after it, whether it was refused, and the items that a
credit violation rewound. `eop` marks the line that carries EOP. -/
def Queue.pushLine (q : Queue) (data : Line) (eop : Bool) : Queue × Bool × Option Nat :=
  if q.prod = .discard then
    ({ q with counters := bump q.counters 3 1, prod := if eop then .closed else .discard }, true, none)
  else if q.hasCredit then
    let it : Item := ⟨data, q.opened.isEmpty, false, false, false⟩
    let q := { q with opened := q.opened ++ [it], pushed := q.pushed + 1, prod := .open_ }
    let q := if eop then q.commit else q
    (q.settle, false, none)
  else
    let n := q.opened.length
    let q := q.dropOpen
    ({ q with counters := bump q.counters 2 1, prod := if eop then .closed else .discard }, true, some n)

/-- A reset of the queue (R373). -/
def Queue.resetAll (q : Queue) : Queue :=
  { q with committed := [], opened := [], headCount := 0, spilled := 0, reading := 0,
           limit := q.pushed + BitVec.ofNat 32 q.cap, epoch := q.epoch + 1, ptrSyn := 0,
           prod := if q.opened.isEmpty then .closed else .discard,
           counters := bump q.counters 6 1 }

/-- Would a pop of `n` lines have to wait for read-back (R372)? -/
def Queue.popHeld (q : Queue) (n : Nat) : Bool := decide (q.headCount < min n q.committed.length)

/-- Removes the oldest committed item (R370). -/
def Queue.pop1 (q : Queue) : Option (Item × Queue) :=
  match q.committed with
  | [] => none
  | it :: rest =>
    let q := { q with committed := rest, headCount := q.headCount - 1, popped := q.popped + 1,
                      limit := q.limit + 1 }
    let q := if it.bad then { q with counters := bump q.counters 5 1 } else q
    some (it, q.settle)

/-- One read-back arrives: the oldest spilled item takes the next head entry; `bad` when it is uncorrectable (R359,
R372). -/
def Queue.readBack (bad : Bool) (q : Queue) : Queue :=
  let mark := fun (x : Item) => if bad then { x with bad := true, inSpill := true } else x
  let i := q.headCount
  let n := q.committed.length
  let q := if i < n then { q with committed := lmod {} q.committed i mark }
    else { q with opened := lmod {} q.opened (i - n) mark }
  Queue.settle { q with headCount := q.headCount + 1, spilled := q.spilled - 1, reading := q.reading - 1 }

/-! ### On the whole state -/

/-- The event Queue reset, by mismatch with the pointer's code or by command (Table 13.8). -/
def queueResetEvent (q : Nat) (ptr : Option Nat) (items epoch : Nat) : EvRec :=
  match ptr with
  | some p => { cls := 0x0A, sev := 3, code := 0x0D02, kind := 4, src := q,
                details := [(2, q), (1, p), (4, items), (1, epoch)] }
  | none => { cls := 0x0A, sev := 1, code := 0x0D03, kind := 4, src := q,
              details := [(2, q), (4, items), (1, epoch)] }

/-- Resets queue `q` with its event (R373). Held pops are answered by the caller. -/
def resetQueue (q : Nat) (ptr : Option Nat) (s : State) : State :=
  let x := s.queue q
  let y := x.resetAll
  raise (queueResetEvent q ptr x.size y.epoch.toNat) (modQueue q (fun _ => y) s)

/-- The first pointer whose two copies differ: 0 head, 1 tail, 2 commit (Table 19.18). -/
def ptrFault (q : Queue) : Option Nat := [0, 1, 2].find? (fun i => q.ptrSyn.testBit i)

/-- Compares the pointer copies, as every push, pop, commit and rewind does (R373). -/
def checkPointers (q : Nat) (s : State) : State :=
  match ptrFault (s.queue q) with
  | none => s
  | some p => resetQueue q (some p) s

/-- Rewinds the open packet of queue `q` (R367). -/
def rewindQueue (q : Nat) (s : State) : State := modQueue q Queue.rewind (checkPointers q s)

/-- Rewinds the open packet of every queue whose producer is region `r` (R367). -/
def rewindRegion (r : Nat) (s : State) : State :=
  forEach (s.riser.queues.filter (fun e => e.2.producer == r && decide (e.2.prod = .open_)))
    (fun e => rewindQueue e.1) s

/-- One push line of queue `q` (R364, R369): refused or not. -/
def pushOne (q : Nat) (data : Line) (eop : Bool) (s : State) : State × Bool :=
  let x := s.queue q
  let (y, refused, violation) := x.pushLine data eop
  let s := modQueue q (fun _ => y) s
  match violation with
  | none => (s, refused)
  | some n => (raiseLimited { cls := 0x0A, sev := 2, code := 0x0D01, kind := 4, src := q,
                              details := [(2, q), (1, x.producer), (4, n)] } [] s, refused)

/-- The commit of a PUSH_EOP burst that appends nothing (R364, R369). -/
def commitEmpty (q : Nat) (s : State) : State :=
  modQueue q (fun x => if x.prod = .discard then { x with prod := .closed } else x.commit.settle) s

/-- The event Item lost (R372): place and position. -/
def itemLostEvent (q place pos : Nat) : EvRec :=
  { cls := 4, sev := 3, code := 0x0D05, kind := 4, src := q, details := [(2, q), (1, place), (8, pos)] }

/-- A lost item raises its event: from head buffer entry 0, where the oldest item stands, or from the spill area, at an
address that is a free value. -/
def itemLost (q : Nat) (it : Item) (s : State) : State :=
  if it.inSpill then useFree (raise (itemLostEvent q 2 (freshNat s)) s) else raise (itemLostEvent q 0 0) s

/-- Pops one committed item of queue `q`. -/
def popOne (q : Nat) (s : State) : State × Option Item :=
  match (s.queue q).pop1 with
  | none => (s, none)
  | some (it, y) =>
    let s := modQueue q (fun _ => y) s
    (onlyIf it.bad (itemLost q it) s, some it)

/-- The state line (Table 13.3). -/
def stateLine (q : Queue) : Line :=
  BitVec.ofNat 512 (q.limit.toNat + 2 ^ 32 * q.pushed.toNat + 2 ^ 64 * q.popped.toNat
    + 2 ^ 96 * q.committedCnt.toNat + 2 ^ 128 * bit q.enabled
    + 2 ^ 136 * (match q.prod with | .closed => 0 | .open_ => 1 | .discard => 2)
    + 2 ^ 144 * q.epoch.toNat + 2 ^ 160 * q.cap)

/-- The status line of POP_STATUS (Table 13.2). -/
def popStatusLine (it : Option Item) (q : Queue) : Line :=
  let flags := match it with
    | none => 1
    | some i => 2 * bit i.first + 4 * bit i.eop + 8 * bit i.bad
  BitVec.ofNat 512 (flags + 2 ^ 32 * q.committed.length + 2 ^ 64 * q.epoch.toNat)

/-- Pages of the spill area reserved by queues. -/
def pagesReserved (s : State) : Nat := s.riser.queues.foldl (fun n e => n + e.2.pages) 0

/-! ### Sides bound to the Sprue engine (R362) -/

/-- Does a QUEUE-mode lane receive into the queue, or its role or a send queue's completions make the Sprue engine its
producer (R266, R316, R317)? -/
def sprueProduces (s : State) (n : Nat) : Bool :=
  s.lanes.any (fun l => decide (l.2.cfg.mode = .queue) && l.2.cfg.rxQueue == n) ||
    s.riser.queues.any (fun q => match q.2.role with
      | .none => false
      | .send c => c == some n
      | .receive .. => q.1 == n)

/-- Does a QUEUE-mode lane transmit from the queue, or is it a send queue (R266, R316)? -/
def sprueConsumes (s : State) (n : Nat) : Bool :=
  s.lanes.any (fun l => decide (l.2.cfg.mode = .queue) && l.2.cfg.txQueue == n) ||
    (match (s.queue n).role with
      | .send _ => true
      | _ => false)

/-- A queue with its sides bound as given: a side that is let go reverts to master 64. -/
def Queue.bindSides (x : Queue) (p c : Bool) : Queue :=
  { x with
    producer := if p then 69 else if x.prodHard then 64 else x.producer
    consumer := if c then 69 else if x.consHard then 64 else x.consumer
    prodHard := p, consHard := c }

/-- Binds the sides of queues, or lets them go, as lanes and roles now stand. -/
def bindQueues (qs : List Nat) (s : State) : State :=
  forEach qs (fun n s => modQueue n (fun x => x.bindSides (sprueProduces s n) (sprueConsumes s n)) s) s

end Sys2Proof.Machine
end

