-- ==== Sys2Proof/Machine/IntegOps.lean ====
section
/-! DEFINITION. What every reader of a stored word shares: counting corrections, the repeat trackers and the
hard-fault log (R400, R402, R409, R410, R415), and the start of a priority pass (R408). -/

namespace Sys2Proof.Machine

/-- Where a word is stored: a region, or a pseudo-channel of HBM (Table 15.7). -/
inductive Place where
  | region (r : Nat)
  | pc (p : Nat)
deriving DecidableEq, Repr

/-- Key of a place's tracker. -/
def Place.key : Place → Nat
  | .region r => r
  | .pc p => 64 + p

/-- Key of a place's counters: HBM has one set (Table 15.17). -/
def Place.ctrKey : Place → Nat
  | .region r => r
  | .pc _ => 64

/-- Source kind and index of a place in an event record (Table 19.11). -/
def Place.kind : Place → Nat
  | .region _ => 1
  | .pc _ => 11
def Place.idx : Place → Nat
  | .region r => r
  | .pc p => p

/-- Adds to an integrity counter of a place (Table 15.17). -/
def bumpInteg (pl : Place) (i n : Nat) (s : State) : State :=
  modInteg (fun g => { g with
    counters := tmod [0, 0, 0, 0, 0, 0, 0, 0] g.counters pl.ctrKey (fun l => bump l i n) }) s

/-- Which period of `FETTLER_CONFIG` a kind of Table 15.7 has. -/
def periodIdx (kind : Nat) : Nat :=
  match kind with
  | 1 => 0 | 2 => 1 | 3 | 4 => 2 | 5 => 3 | _ => 4

/-- A period setting in local time: µs, or ms for HBM. -/
def periodTime (i v : Nat) : Nat := if i = 4 then v * 256000000 else v * 256000

/-- The scrub interval of a kind of word, in local time (R409). -/
def scrubInterval (s : State) (kind : Nat) : Nat :=
  periodTime (periodIdx kind) (lget 0 s.integ.periods (periodIdx kind))

/-- What a correction asks for. -/
inductive TrackAct where
  | none
  | writeBack
  | overflow
  /-- A hard fault, with the entry's place in the tracker. -/
  | hard (i : Nat)
deriving DecidableEq, Repr

/-- Index of the first entry of a list that satisfies `p`. -/
def indexOf? {α : Type} (p : α → Bool) (l : List α) : Option Nat := l.findIdx? p

/-- The non-sticky entry corrected longest ago. -/
def oldestLoose (l : List TrackEnt) : Option Nat :=
  (List.range l.length).foldl (fun (best : Option Nat) i =>
    match l[i]? with
    | none => best
    | some e =>
      if e.sticky then best
      else match best with
        | none => some i
        | some j => if e.lastAt < (lget e l j).lastAt then some i else best) none

/-- A tracker after a correction of word `w` (R409). -/
def trackCorrection (now interval : Nat) (fettler : Bool) (w : WordRef) (l : List TrackEnt) :
    List TrackEnt × TrackAct :=
  let fresh : TrackEnt := { word := w, start := now, lastAt := now }
  let placed : Option (List TrackEnt × Nat) :=
    match l.findIdx? (fun e => e.word = w) with
    | some i => some (l, i)
    | none =>
      if l.length < 16 then some (l ++ [fresh], l.length)
      else match oldestLoose l with
        | some i => some (l.set i fresh, i)
        | none => none
  match placed with
  | none => (l, .overflow)
  | some (l, i) =>
    let e := lget fresh l i
    let e := { e with lastAt := now, quiet := 0 }
    if e.sticky then (l.set i e, .hard i)
    else if fettler then (l.set i { e with sticky := true }, .none)
    else
      let e := if interval < now - e.start then { e with count := 0, start := now } else e
      let e := { e with count := e.count + 1 }
      if e.count = 4 then (l.set i { e with sticky := true }, .writeBack) else (l.set i e, .none)

/-- The tracker of a place. -/
def State.tracker (s : State) (pl : Place) : List TrackEnt := tget [] s.integ.trackers pl.key

def setTracker (pl : Place) (l : List TrackEnt) (s : State) : State :=
  modInteg (fun g => { g with trackers := tset [] g.trackers pl.key l }) s

/-- The first free record of the hard-fault log (R410): 256 records. -/
def freeRecord (s : State) : Option Nat :=
  (List.range 256).find? (fun i => (tget {} s.integ.log i).kind == 0)

/-- A record of Table 15.7 as a number of 32 bytes. -/
def HardFault.word (h : HardFault) : Nat :=
  if h.kind = 0 then 0
  else h.kind + h.place * 256 + (if h.retired then 2 else 1) * 65536 + h.bit.toNat * 2 ^ 32 + h.loc.toNat * 2 ^ 64
    + h.recur * 2 ^ 128 + h.tick.toNat * 2 ^ 160

/-- A hard fault of the word in entry `i` of a tracker (R410). -/
def hardFault (pl : Place) (w : WordRef) (out : GridOut) (i : Nat) (s : State) : State :=
  let s := bumpInteg pl 5 1 s
  let e := lget { word := w } (s.tracker pl) i
  match e.record with
  | some k => modInteg (fun g => { g with
      log := tmod {} g.log k (fun h => { h with recur := satAdd 4294967295 h.recur 1 }) }) s
  | none =>
    let rec_ : HardFault := { kind := w.kind, place := pl.idx, bit := BitVec.ofNat 16 out.bitField,
                              loc := BitVec.ofNat 64 w.loc, recur := 0, tick := s.tick.number }
    let ev : EvRec := { cls := 3, sev := 2, code := 0x0F03, kind := pl.kind, src := pl.idx, details := [(32, rec_.word)] }
    match freeRecord s with
    | some k =>
      let s := modInteg (fun g => { g with log := tset {} g.log k rec_ }) s
      raise ev (setTracker pl ((s.tracker pl).set i { e with record := some k }) s)
    | none =>
      let s := modInteg (fun g => { g with logOverflow := satAdd 65535 g.logOverflow 1 }) s
      raiseLimited { cls := 3, sev := 2, code := 0x0F04, kind := pl.kind, src := pl.idx,
                     details := [(1, pl.idx)] } [] (raise ev s)

/-- The event Corrections (R400), one per second per source. -/
def correctionEvent (pl : Place) (out : GridOut) : EvRec :=
  { cls := 3, sev := 0, code := 0x0F01, kind := pl.kind, src := pl.idx,
    details := [(1, pl.idx), (4, match out with | .dataBit _ => 1 | _ => 0),
                (4, match out with | .checkBit _ => 1 | _ => 0)] }

/-- The event Outcome of an injected word (R415). -/
def injectedEvent (pl : Place) (w : WordRef) (out : GridOut) : EvRec :=
  { cls := 3, sev := 0, code := 0x0F09, kind := pl.kind, src := pl.idx, injected := true,
    details := [(8, w.loc), (1, out.code)] }

/-- Records the outcome of one read of a stored word; the Bool answers whether the repeat tracker writes the
word back (R400, R402, R409, R410, R415). -/
def noteRead (pl : Place) (w : WordRef) (out : GridOut) (injected fettler : Bool) (s : State) :
    State × Bool :=
  match out with
  | .clean => (s, false)
  | .uncorrectable =>
    if injected then (raise (injectedEvent pl w out) (bumpInteg pl 6 1 s), false)
    else (bumpInteg pl 2 1 s, false)
  | _ =>
    if injected then (raise (injectedEvent pl w out) (bumpInteg pl 6 1 s), false)
    else
      let s := bumpInteg pl (match out with | .dataBit _ => 0 | _ => 1) 1 s
      let s := raiseLimited (correctionEvent pl out) [1, 2] s
      let (l, act) := trackCorrection s.env.now (scrubInterval s w.kind) fettler w (s.tracker pl)
      let s := setTracker pl l s
      match act with
      | .none => (s, false)
      | .hard i => (hardFault pl w out i s, false)
      | .overflow =>
        (raiseLimited { cls := 3, sev := 1, code := 0x0F04, kind := pl.kind, src := pl.idx,
                        details := [(1, pl.idx)] } [] (bumpInteg pl 4 1 s), false)
      | .writeBack =>
        (raise { cls := 3, sev := 1, code := 0x0F02, kind := pl.kind, src := pl.idx,
                 details := [(8, w.loc)] } (bumpInteg pl 3 1 s), true)

/-- A whole-word write frees the word's tracker entry if it is not sticky (R409). -/
def noteWrite (pl : Place) (w : WordRef) (s : State) : State :=
  setTracker pl ((s.tracker pl).filter (fun e => e.sticky || decide (e.word ≠ w))) s

/-- Every word of a region's memories that `hit` names is written whole (R409). -/
def noteCleared (r : Nat) (hit : WordRef → Bool) (s : State) : State :=
  setTracker (.region r) ((s.tracker (.region r)).filter (fun e => e.sticky || !hit e.word)) s

/-- Word references of Table 15.7. -/
def frameRef (plane addr : Nat) : WordRef := ⟨1, addr + plane * 2 ^ 20⟩
def bramRef (mem word : Nat) : WordRef := ⟨2, mem * 256 + word * 65536⟩
def dspRef (prog : Bool) (engine word : Nat) : WordRef := ⟨if prog then 3 else 4, engine + word * 65536⟩
def ingotRef (off : Nat) : WordRef := ⟨5, off⟩
def hbmRef (addr : Nat) : WordRef := ⟨6, addr⟩

/-- The event Resource retired or repaired (R411, R413). -/
def retiredEvent (pl : Place) (kind loc : Nat) : EvRec :=
  { cls := 3, sev := 2, code := 0x0F07, kind := pl.kind, src := pl.idx, details := [(1, kind), (8, loc)] }

/-- Every record of a resource is marked retired (R411): its kind and place, and its locations. -/
def markRetired (kind place : Nat) (at_ : Nat → Bool) (s : State) : State :=
  modInteg (fun g => { g with log := g.log.map (fun e => (e.1,
    if e.2.kind == kind && e.2.place == place && at_ e.2.loc.toNat then { e.2 with retired := true } else e.2)) }) s

/-- Starts a priority pass of a region unless one is in progress (R408). -/
def startPass (r : Nat) (targets : BitVec 5) (w : Option Waiter) (s : State) : State :=
  if s.integ.passes.any (fun e => e.1 == r) then s
  else modInteg (fun g => { g with
    passes := tset { targets := 0 } g.passes r { targets := targets, waiter := w } }) s

end Sys2Proof.Machine
end

