-- ==== Sys2Proof/Machine/DspOps.lean ====
section
/-! DEFINITION. One DSP engine by itself: registers, data memory, address post-modification, shaping, the MAC
and move slots, result timing, hardware loops and the taking of errors (R214 to R247). -/

namespace Sys2Proof.Machine

/-! ### Registers and streams -/

/-- Registers at their reset values, memories kept (R66, R220): engines stopped at PC 0. -/
def Engine.resetRegs (e : Engine) : Engine :=
  { prog := e.prog, progSyn := e.progSyn, data := e.data, dataSyn := e.dataSyn, injected := e.injected,
    stalls := e.stalls, corrected := e.corrected }

/-- The edge sources 1 and 2 taken in: each tick and slot boundary since the last taking sets its bit (Table 9.10). -/
def Engine.sync (ticks slots : Nat) (e : Engine) : Engine :=
  { e with ipend := e.ipend ||| (if e.tickSeen < ticks then 2#8 else 0#8)
                      ||| (if e.slotSeen < slots then 4#8 else 0#8),
           tickSeen := ticks, slotSeen := slots }

/-- The memories of an engine at zero with valid codes (R213). -/
def Engine.clearMems (e : Engine) : Engine :=
  { e with prog := [], progSyn := [], data := [], dataSyn := [], injected := [] }

/-- `IE`, bit 4 of `STAT` (Table 9.2). -/
def Engine.ie (e : Engine) : Bool := e.stat.getLsbD 4

/-- The engine with `IE` set or cleared. -/
def Engine.setIe (e : Engine) (b : Bool) : Engine :=
  { e with stat := (e.stat &&& 0xEF#8) ||| (if b then 0x10#8 else 0#8) }

/-- A start (R242): PC, `LCTL`, `IE`, the pending bits of edge sources and the stream buffers. -/
def Engine.begin_ (e : Engine) (addr : BitVec 11) : Engine :=
  ({ e with st := .running, pc := addr, lctl := 0, ipend := 0, in0 := [], in1 := [], out0 := [], out1 := [],
            waiting := false, delay := 0, retiDue := false, haltDue := false, faultDue := false,
            lastBranch := false, lastSlot := false, landing := [], oldProg := [], accVis := e.accNow }).setIe false

/-- Pending bits as the engine sees them: sources 6 and 7 are levels (Table 9.10). -/
def Engine.pendNow (e : Engine) : BitVec 8 :=
  (e.ipend &&& 0x3F#8) ||| (if e.in0.isEmpty && e.in1.isEmpty then 0#8 else 0x40#8)
    ||| (if decide (e.out0.length < 8) || decide (e.out1.length < 8) then 0x80#8 else 0#8)

/-- Data register `n`. -/
def Engine.dreg (e : Engine) (n : Nat) : BitVec 32 := lget 0 e.d n

/-- Pair `k` (Table 9.2). -/
def Engine.pair (e : Engine) (k : Nat) : BitVec 64 := e.dreg (2 * k + 1) ++ e.dreg (2 * k)

/-- A register is written, with good parity (R221). -/
def Engine.rewrote (e : Engine) (k : Nat) : Engine := { e with parityBad := e.parityBad.filter (· != k) }

/-- One result reaches its register (R231). -/
def Engine.land1 (e : Engine) : Landing → Engine
  | .dreg n v => { e.rewrote n with d := lput 0 e.d n v }
  | .acc n v => { e.rewrote (49 + n) with accVis := lput 0 e.accVis n v }
  | .ovg => { e with stat := e.stat ||| 2#8 }

/-- Counts one bundle: results whose time has come are seen by it, oldest first (R231). -/
def Engine.advance (e : Engine) : Engine :=
  let l := e.landing.map (fun x => (x.1 - 1, x.2))
  let e := (l.filter (fun x => x.1 == 0)).foldl (fun e x => e.land1 x.2) e
  { e with landing := l.filter (fun x => x.1 != 0) }

/-- Every result in flight lands (R243). -/
def Engine.landAll (e : Engine) : Engine :=
  { e.landing.foldl (fun e x => e.land1 x.2) e with landing := [] }

/-- A data register result seen after `k` bundles. -/
def Engine.writeD (e : Engine) (k n : Nat) (v : BitVec 32) : Engine :=
  { e with landing := e.landing ++ [(k, .dreg n v)] }

/-- A pair result seen after `k` bundles. -/
def Engine.writePair (e : Engine) (k p : Nat) (v : BitVec 64) : Engine :=
  (e.writeD k (2 * p) (v.extractLsb' 0 32)).writeD k (2 * p + 1) (v.extractLsb' 32 32)

/-- An accumulator result: at once for later operations, seen after 4 bundles (R224, R231). -/
def Engine.writeAcc (e : Engine) (n : Nat) (v : BitVec 40) : Engine :=
  { e.rewrote (49 + n) with accNow := lput 0 e.accNow n v, landing := e.landing ++ [(4, .acc n v)] }

/-- An exact sum into an accumulator: wraps modulo 2^40 and sets `OVG` when outside (R223). -/
def Engine.writeAccInt (e : Engine) (n : Nat) (v : Int) : Engine :=
  let e := e.writeAcc n (BitVec.ofInt 40 v)
  if v < -549755813888 ∨ 549755813887 < v then { e with landing := e.landing ++ [(4, .ovg)] } else e

/-! ### Errors (R244, Table 9.11) -/

/-- The error interrupt with a cause: pending when it can be taken, otherwise the entry into FAULT. -/
def Engine.error (e : Engine) (cause : Nat) : Engine :=
  let e := { e with istat := (e.istat &&& 0x0F#8) ||| BitVec.ofNat 8 (16 * cause) }
  if e.ie && e.imask.getLsbD 0 then { e with ipend := e.ipend ||| 1#8 } else { e with faultDue := true }

/-- FAULT whatever the masks: an uncorrectable fetch or register parity. -/
def Engine.hardError (e : Engine) (cause : Nat) : Engine :=
  { e with istat := (e.istat &&& 0x0F#8) ||| BitVec.ofNat 8 (16 * cause), faultDue := true }

/-! ### Data memory -/

/-- What an access met that the device must report: memory (true program), word and outcome. -/
structure MemNote where
  prog : Bool
  word : Nat
  out : GridOut
  injected : Bool

/-- The outcome of reading a word of an engine memory, and the data delivered (R219, R400). -/
def Engine.readWord (e : Engine) (prog : Bool) (w : Nat) : BitVec 64 × GridOut :=
  let v := tget 0 (if prog then e.prog else e.data) w
  let out := decodeSyn 8 (tget 0 (if prog then e.progSyn else e.dataSyn) w).toNat
  (correctBits v out, out)

/-- Place of a word in `injected`. -/
def injKey (prog : Bool) (w : Nat) : Nat := if prog then w else 2048 + w

/-- A whole word written with fresh check bits. -/
def Engine.putWord (e : Engine) (prog : Bool) (w : Nat) (v : BitVec 64) : Engine :=
  let e := { e with injected := e.injected.filter (fun k => k != injKey prog w) }
  if prog then { e with prog := tset 0 e.prog w v, progSyn := tset 0 e.progSyn w 0 }
  else { e with data := tset 0 e.data w v, dataSyn := tset 0 e.dataSyn w 0 }

/-- A bundle that is about to be written while the engine runs: a fetch of the next 4 cycles may still see it (R218). -/
def Engine.keepOld (e : Engine) (w : Nat) : Engine :=
  if e.st = .running then { e with oldProg := e.oldProg ++ [(w, 4, tget 0 e.prog w, tget 0 e.progSyn w)] } else e

/-- The note of a read. -/
def Engine.noteOf (e : Engine) (prog : Bool) (w : Nat) (out : GridOut) : MemNote :=
  ⟨prog, w, out, e.injected.contains (injKey prog w)⟩

/-! ### Addressing (R222) -/

/-- The smallest power of two not less than `m`. -/
def pow2Above (m : Nat) : Nat :=
  match (List.range 16).find? (fun k => decide (m ≤ 2 ^ k)) with
  | some k => 2 ^ k
  | none => 65536

/-- The exponent of a power of two, if it is one. -/
def log2Exact (m : Nat) : Option Nat := (List.range 16).find? (fun k => 2 ^ k == m)

/-- The address after post-modification of `An` by step `s`; `free` is the value where the manual's conditions on
`Mn` do not hold (notes/assumptions/8.md). -/
def postModified (a : BitVec 15) (s : BitVec 16) (m : BitVec 15) (rev : Bool) (free : BitVec 15) :
    BitVec 15 :=
  if rev then
    match log2Exact m.toNat with
    | none => free
    | some k =>
      let low := a.toNat % 2 ^ k
      let sum := (reverseBits k low + reverseBits k (s.toNat % 2 ^ k)) % 2 ^ k
      BitVec.ofNat 15 (a.toNat - low + reverseBits k sum)
  else if m = 0 then a + s.setWidth 15
  else
    let si := s.toInt
    let mi : Int := m.toNat
    if mi < si ∨ si < -mi then free
    else
      let p := pow2Above m.toNat
      let b : Int := a.toNat / p * p
      let n : Int := a.toNat + si
      let n := if b + mi ≤ n then n - mi else if n < b then n + mi else n
      BitVec.ofInt 15 n

/-- `An` post-modified by `Sm` when asked for. -/
def Engine.postMod (e : Engine) (n m : Nat) (go : Bool) (free : BitVec 15) : Engine :=
  if go then
    { e.rewrote (16 + n) with a := lput 0 e.a n (postModified (lget 0 e.a n) (lget 0 e.s m) (lget 0 e.m n)
                              (e.acfg.getLsbD n) free) }
  else e

/-! ### Shaping (R225) -/

/-- A shaped value of `w` bits and whether it saturated. -/
def shape (v : BitVec 40) (sh : Nat) (even : Bool) (w : Nat) : BitVec 32 × Bool :=
  let x := v.toInt
  let q : Int := x / (2 ^ sh : Nat)
  let r : Int := x - q * (2 ^ sh : Nat)
  let y : Int :=
    if sh = 0 then x
    else
      let half : Int := (2 ^ (sh - 1) : Nat)
      if even then (if half < r ∨ (r = half ∧ q % 2 = 1) then q + 1 else q)
      else if half ≤ r then q + 1 else q
  let hi : Int := (2 ^ (w - 1) : Nat) - 1
  let lo : Int := -((2 ^ (w - 1) : Nat) : Int)
  (BitVec.ofInt 32 (clampInt lo hi y), decide (y < lo) || decide (hi < y))

/-- The engine with `SAT` set when something saturated. -/
def Engine.sat (e : Engine) (b : Bool) : Engine :=
  if b then { e with stat := e.stat ||| 1#8 } else e

/-! ### Fields of a bundle -/

/-- Bits `lo + n - 1` to `lo` of a bundle. -/
def bf (b : BitVec 64) (lo n : Nat) : Nat := (b.extractLsb' lo n).toNat

/-- Bits `lo + n - 1` to `lo` as a mask. -/
def fieldMask (lo n : Nat) : Nat := (2 ^ n - 1) * 2 ^ lo

/-- The bits a MAC-slot operation uses (R226, R227); none for a reserved operation. -/
def macUsed (mop : Nat) : Option Nat :=
  let base := fieldMask 58 4
  let xy := fieldMask 57 1 + fieldMask 52 5 + fieldMask 49 3
  match mop with
  | 0 => some base
  | 1 | 2 | 5 | 6 => some (base + xy)
  | 3 | 4 => some (base + fieldMask 57 1 + fieldMask 53 4 + fieldMask 49 3)
  | 7 => some (base + xy + fieldMask 45 4)
  | 8 => some (base + fieldMask 45 4)
  | 9 => some (base + fieldMask 47 2 + fieldMask 40 5)
  | 10 => some (base + fieldMask 36 4)
  | _ => none

/-- The bits a move-slot operation uses (R228); none for a reserved operation. -/
def moveUsed (op : Nat) : Option Nat :=
  let base := fieldMask 26 6
  let first := fieldMask 20 6 + fieldMask 19 1
  let second := fieldMask 12 7
  let single := fieldMask 22 4 + fieldMask 19 3 + fieldMask 18 1
  let shp := fieldMask 6 6
  let d := fieldMask 22 4
  match op with
  | 0x00 => some base
  | 0x01 | 0x03 => some (base + first)
  | 0x02 | 0x04 => some (base + first + second)
  | 0x05 | 0x06 | 0x07 | 0x08 => some (base + single)
  | 0x09 => some (base + fieldMask 19 4 + shp)
  | 0x0A => some (base + fieldMask 19 4 + shp + fieldMask 4 1)
  | 0x0B => some (base + fieldMask 23 3 + shp)
  | 0x0C => some (base + d + shp + fieldMask 3 3)
  | 0x0D | 0x0E | 0x0F | 0x10 => some (base + d + fieldMask 3 2)
  | 0x11 | 0x12 | 0x13 | 0x14 | 0x15 => some (base + d + fieldMask 14 8)
  | 0x16 => some (base + d + fieldMask 18 4 + fieldMask 0 16)
  | 0x17 | 0x18 => some (base + d + fieldMask 0 16)
  | 0x19 | 0x1A | 0x1B => some (base + d + fieldMask 18 4 + fieldMask 0 5)
  | 0x20 | 0x21 | 0x22 => some (base + fieldMask 23 3 + fieldMask 0 16)
  | 0x23 => some (base + fieldMask 20 6)
  | 0x24 | 0x25 => some (base + d + fieldMask 16 6)
  | 0x28 | 0x29 => some (base + fieldMask 22 4)
  | _ => none

/-- Accumulators that a MAC-slot operation writes. -/
def macAccs (b : BitVec 64) : List Nat :=
  match bf b 58 4 with
  | 1 | 2 | 5 | 6 => [0, 1, 2, 3]
  | 3 | 4 => [0, 1]
  | 7 | 8 | 9 => [bf b 47 2]
  | 10 => (List.range 4).filter (fun i => (bf b 36 4).testBit i)
  | _ => []

/-- Does a move slot write one register twice, or an accumulator that the MAC slot writes (R226)? -/
def writesTwice (b : BitVec 64) : Bool :=
  let op := bf b 26 6
  let a := bf b 20 3
  let bb := bf b 13 3
  let bothMod := b.getLsbD 19 && b.getLsbD 12 && a == bb
  (op == 0x02 && (bf b 23 3 == bf b 16 3 || bothMod)) || (op == 0x04 && bothMod)
    || ((op == 0x0F || op == 0x10) && (macAccs b).contains (bf b 3 2))

/-- Is a format 00 bundle illegal (R226)? -/
def slotsIllegal (b : BitVec 64) : Bool :=
  match macUsed (bf b 58 4), moveUsed (bf b 26 6) with
  | some m, some v =>
    (b &&& ~~~BitVec.ofNat 64 (m + v)) != 0#64 || writesTwice b
      || ((bf b 26 6 == 0x24 || bf b 26 6 == 0x25) && decide (0x36 ≤ bf b 16 6))
  | _, _ => true

/-! ### The MAC slot (R227) -/

/-- A 16-bit half as a signed number. -/
def half16 (v : BitVec 32) (hi : Bool) : Int :=
  (v.extractLsb' (if hi then 16 else 0) 16).toInt

/-- Lane `i` of the Y operand. -/
def Engine.lane (e : Engine) (k i : Nat) : Int := half16 (e.dreg (2 * k + i / 2)) (i % 2 == 1)

/-- The accumulator before a sum, zero with `CLR`. -/
def Engine.accIn (e : Engine) (clr : Bool) (i : Nat) : Int :=
  if clr then 0 else (lget 0 e.accNow i).toInt

/-- A signed or unsigned byte of a 16-bit operand. -/
def byteOfInt (v : Int) (i : Nat) (signed : Bool) : Int :=
  let b := (BitVec.ofInt 16 v).extractLsb' (8 * i) 8
  if signed then b.toInt else b.toNat

/-- The MAC-slot operation of a legal bundle. -/
def Engine.macSlot (e : Engine) (b : BitVec 64) : Engine :=
  let clr := b.getLsbD 57
  let xr := e.dreg (bf b 53 4)
  let x := half16 xr (b.getLsbD 52)
  let k := bf b 49 3
  let y := e.lane k
  let all (f : Nat → Int) : Engine :=
    (List.range 4).foldl (fun t i => t.writeAccInt i (e.accIn clr i + f i)) e
  let c8 (signed : Bool) (i : Nat) : Int :=
    byteOfInt x 0 signed * byteOfInt (y i) 0 true + byteOfInt x 1 signed * byteOfInt (y i) 1 true
  let re := half16 xr false
  let im := half16 xr true
  let p := bf b 47 2
  let q := bf b 45 2
  match bf b 58 4 with
  | 1 => all (fun i => x * y i)
  | 2 => all (fun i => -(x * y i))
  | 3 => (e.writeAccInt 0 (e.accIn clr 0 + re * y 0 - im * y 1)).writeAccInt 1
            (e.accIn clr 1 + re * y 1 + im * y 0)
  | 4 => (e.writeAccInt 0 (e.accIn clr 0 + re * y 0 + im * y 1)).writeAccInt 1
            (e.accIn clr 1 + im * y 0 - re * y 1)
  | 5 => all (c8 true)
  | 6 => all (c8 false)
  | 7 => e.writeAccInt p (e.accIn clr p + x * y q)
  | 8 => e.writeAccInt p (e.accIn false p + e.accIn false q)
  | 9 =>
    let sh := (BitVec.ofNat 5 (bf b 40 5)).toInt
    let v := e.accIn false p
    if 0 ≤ sh then e.writeAccInt p (v * (2 ^ sh.toNat : Nat))
    else e.writeAcc p (BitVec.ofInt 40 (v / (2 ^ (-sh).toNat : Nat)))
  | 10 => ((List.range 4).filter (fun i => (bf b 36 4).testBit i)).foldl (fun t i => t.writeAcc i 0) e
  | _ => e

/-! ### The move slot (R228) -/

/-- The state of an issue in progress: the engine, the notes for the device, data words wholly written, and
whether the store took a second cycle. -/
structure Issue where
  e : Engine
  notes : List MemNote := []
  wrote : List Nat := []
  twice : Bool := false

/-- A load's data from the memory as the bundle finds it; an uncorrectable word gives the data as read and the
error `DMEM_UE` (R219). -/
def Issue.load (i : Issue) (src : Engine) (addr : BitVec 15) : BitVec 64 × Issue :=
  let w := addr.toNat / 8
  let (v, out) := src.readWord false w
  let e := if out = .uncorrectable then i.e.error 3 else i.e
  let e := match out with
    | .dataBit _ | .checkBit _ => { e with corrected := e.corrected + 1 }
    | _ => e
  (v, { i with e := e, notes := i.notes ++ [src.noteOf false w out] })

/-- A whole-word store. -/
def Issue.store (i : Issue) (addr : BitVec 15) (v : BitVec 64) : Issue :=
  let w := addr.toNat / 8
  { i with e := i.e.putWord false w v, wrote := i.wrote ++ [w] }

/-- A partial store of `n` bytes (R217): not performed on an uncorrectable word. -/
def Issue.storePart (i : Issue) (addr : BitVec 15) (n : Nat) (v : BitVec 32) : Issue :=
  let w := addr.toNat / 8
  let off := addr.toNat % 8 / n * n
  let (old, out) := i.e.readWord false w
  let i := { i with notes := i.notes ++ [i.e.noteOf false w out], twice := true }
  if out = .uncorrectable then { i with e := i.e.error 3 }
  else i.store addr (putField old off n v.toNat)

/-- Reads a numbered register (Table 9.2). -/
def Engine.readReg (e : Engine) (id : Nat) (n : Nat) : BitVec 32 :=
  let z {w : Nat} (v : BitVec w) : BitVec 32 := v.setWidth 32
  if n < 0x08 then z (lget 0 e.a n)
  else if n < 0x10 then z (lget 0 e.s (n - 0x08))
  else if n < 0x18 then z (lget 0 e.m (n - 0x10))
  else match n with
    | 0x18 => z (lget 0 e.ls 0) | 0x19 => z (lget 0 e.le 0) | 0x1A => z (lget 0 e.lc 0)
    | 0x1B => z (lget 0 e.ls 1) | 0x1C => z (lget 0 e.le 1) | 0x1D => z (lget 0 e.lc 1)
    | 0x1E => z (lget 0 e.ls 2) | 0x1F => z (lget 0 e.le 2) | 0x20 => z (lget 0 e.lc 2)
    | 0x21 => z e.lctl | 0x22 => z e.stat | 0x23 => z e.imask | 0x24 => z e.pendNow
    | 0x25 => z e.istat | 0x26 => z e.intret | 0x27 => z e.vbase | 0x28 => z e.lr | 0x29 => z e.acfg
    | 0x2A => e.timer | 0x2B => e.treload
    | 0x2C => e.cycle.extractLsb' 0 32 | 0x2D => e.cycle.extractLsb' 32 32
    | 0x2E => z e.spc | 0x2F => z e.ctl | 0x30 => z e.dmaLocal | 0x31 => e.dmaRlo | 0x32 => z e.dmaRhi
    | 0x34 => BitVec.ofNat 32 (bit e.dmaActive.isSome + 2 * bit e.dmaQueued.isSome + 4 * e.dmaCode.toNat)
    | 0x35 => BitVec.ofNat 32 id
    | _ => 0

/-- The transfer that a `DMA_CTL` value names (R239). -/
def Engine.dmaOf (e : Engine) (v : BitVec 32) : Dma :=
  { local_ := e.dmaLocal &&& 0x7FC0#15, addr := (e.dmaRhi ++ e.dmaRlo) &&& ~~~0x3F#49,
    len := Fin.ofNat 64 (v.toNat % 64), toRunner := v.getLsbD 8,
    qos := Fin.ofNat 4 (v.toNat / 1024 % 4), win := Fin.ofNat 16 (v.toNat / 4096 % 16) }

/-- Writes a numbered register (Table 9.2, R239). -/
def Engine.writeReg (e : Engine) (n : Nat) (v : BitVec 32) : Engine :=
  let e := e.rewrote (16 + n)
  if n < 0x08 then { e with a := lput 0 e.a n (v.setWidth 15) }
  else if n < 0x10 then { e with s := lput 0 e.s (n - 0x08) (v.setWidth 16) }
  else if n < 0x18 then { e with m := lput 0 e.m (n - 0x10) (v.setWidth 15) }
  else match n with
    | 0x18 => { e with ls := lput 0 e.ls 0 (v.setWidth 11) }
    | 0x19 => { e with le := lput 0 e.le 0 (v.setWidth 11) }
    | 0x1A => { e with lc := lput 0 e.lc 0 (v.setWidth 16) }
    | 0x1B => { e with ls := lput 0 e.ls 1 (v.setWidth 11) }
    | 0x1C => { e with le := lput 0 e.le 1 (v.setWidth 11) }
    | 0x1D => { e with lc := lput 0 e.lc 1 (v.setWidth 16) }
    | 0x1E => { e with ls := lput 0 e.ls 2 (v.setWidth 11) }
    | 0x1F => { e with le := lput 0 e.le 2 (v.setWidth 11) }
    | 0x20 => { e with lc := lput 0 e.lc 2 (v.setWidth 16) }
    | 0x21 => { e with lctl := v.setWidth 3 }
    | 0x22 => { e with stat := (e.stat &&& 3#8 &&& v.setWidth 8) ||| (v.setWidth 8 &&& 0x10#8) }
    | 0x23 => { e with imask := v.setWidth 8 }
    | 0x26 => { e with intret := v.setWidth 11 }
    | 0x27 => { e with vbase := v.setWidth 11 &&& 0x7C0#11 }
    | 0x28 => { e with lr := v.setWidth 11 }
    | 0x29 => { e with acfg := v.setWidth 8 }
    | 0x2A => { e with timer := v }
    | 0x2B => { e with treload := v }
    | 0x2E => { e with spc := v.setWidth 11 }
    | 0x2F => { e with ctl := v.setWidth 2 }
    | 0x30 => { e with dmaLocal := v.setWidth 15 }
    | 0x31 => { e with dmaRlo := v }
    | 0x32 => { e with dmaRhi := v.setWidth 17 }
    | 0x33 =>
      if v.getLsbD 31 then
        if e.dmaActive.isNone then { e with dmaActive := some (e.dmaOf v) }
        else if e.dmaQueued.isNone then { e with dmaQueued := some (e.dmaOf v) }
        else e.error 4
      else e
    | _ => e

/-- Four accumulators shaped to 16-bit lanes, and whether one saturated (R225). -/
def Engine.shaped4 (e : Engine) (sh : Nat) (even : Bool) : BitVec 64 × Bool :=
  let r := (List.range 4).map (fun i => shape (lget 0 e.accVis i) sh even 16)
  (r.zipIdx.foldl (fun v x => putField v (2 * x.2) 2 x.1.1.toNat) 0, r.any (·.2))

/-- The move-slot operation of a legal bundle; `src` is the engine as the bundle finds it, `id` its number, and `free` the
address where the manual gives none. -/
def Issue.moveSlot (i : Issue) (src : Engine) (id : Nat) (b : BitVec 64) (free : BitVec 15) : Issue :=
  let p := bf b 23 3
  let aN := bf b 20 3
  let pm := b.getLsbD 19
  let q := bf b 16 3
  let bN := bf b 13 3
  let qm := b.getLsbD 12
  let d := bf b 22 4
  let a1 := bf b 19 3
  let pm1 := b.getLsbD 18
  let ed := bf b 18 4
  let f := bf b 14 4
  let imm := BitVec.ofNat 16 (bf b 0 16)
  let sh := bf b 7 5
  let even := b.getLsbD 6
  let c := bf b 3 2
  let sel := bf b 22 1
  let aA := lget 0 src.a aN
  let aB := lget 0 src.a bN
  let aS := lget 0 src.a a1
  let up (g : Engine → Engine) : Issue := { i with e := g i.e }
  let alu (v : BitVec 32) : Issue := up (fun e => e.writeD 1 d v)
  let dE := src.dreg ed
  let dF := src.dreg f
  match bf b 26 6 with
  | 0x01 =>
    let (v, i) := i.load src aA
    { i with e := (i.e.writePair 2 p v).postMod aN aN pm free }
  | 0x02 =>
    let (v, i) := i.load src aA
    let (v2, i) := i.load src aB
    { i with e := (((i.e.writePair 2 p v).writePair 2 q v2).postMod aN aN pm free).postMod bN bN qm free }
  | 0x03 =>
    let i := i.store aA (src.pair p)
    { i with e := i.e.postMod aN aN pm free }
  | 0x04 =>
    let (v, i) := i.load src aA
    let i := i.store aB (src.pair q)
    { i with e := ((i.e.writePair 2 p v).postMod aN aN pm free).postMod bN bN qm free }
  | 0x05 =>
    let (v, i) := i.load src aS
    { i with e := (i.e.writeD 2 d (v.extractLsb' (32 * (aS.toNat / 4 % 2)) 32)).postMod a1 a1 pm1 free }
  | 0x06 =>
    let (v, i) := i.load src aS
    let h := (v.extractLsb' (16 * (aS.toNat / 2 % 4)) 16).signExtend 32
    { i with e := (i.e.writeD 2 d h).postMod a1 a1 pm1 free }
  | 0x07 =>
    let i := i.storePart aS 4 (src.dreg d)
    { i with e := i.e.postMod a1 a1 pm1 free }
  | 0x08 =>
    let i := i.storePart aS 2 (src.dreg d)
    { i with e := i.e.postMod a1 a1 pm1 free }
  | 0x09 =>
    let (v, s) := src.shaped4 sh even
    let i := i.store aA v
    { i with e := (i.e.sat s).postMod aN aN pm free }
  | 0x0A =>
    let x := shape (lget 0 src.accVis c) sh even 32
    let y := shape (lget 0 src.accVis (c + 1)) sh even 32
    let i := i.store aA (y.1 ++ x.1)
    { i with e := (i.e.sat (x.2 || y.2)).postMod aN aN pm free }
  | 0x0B =>
    let (v, s) := src.shaped4 sh even
    up (fun e => (e.writePair 1 p v).sat s)
  | 0x0C =>
    let x := shape (lget 0 src.accVis c) sh even (if b.getLsbD 5 then 32 else 16)
    up (fun e => (e.writeD 1 d x.1).sat x.2)
  | 0x0D => alu ((lget 0 src.accVis c).extractLsb' 0 32)
  | 0x0E => alu (((lget 0 src.accVis c).extractLsb' 32 8).signExtend 32)
  | 0x0F => up (fun e => e.writeAcc c ((lget 0 e.accNow c).extractLsb' 32 8 ++ src.dreg d))
  | 0x10 => up (fun e => e.writeAcc c ((src.dreg d).extractLsb' 0 8 ++ (lget 0 e.accNow c).extractLsb' 0 32))
  | 0x11 => alu (dE + dF)
  | 0x12 => alu (dE - dF)
  | 0x13 => alu (dE &&& dF)
  | 0x14 => alu (dE ||| dF)
  | 0x15 => alu (dE ^^^ dF)
  | 0x16 => alu (dE + imm.signExtend 32)
  | 0x17 => alu (imm.signExtend 32)
  | 0x18 => alu (imm ++ (src.dreg d).extractLsb' 0 16)
  | 0x19 => alu (dE <<< bf b 0 5)
  | 0x1A => alu (dE >>> bf b 0 5)
  | 0x1B => alu (dE.sshiftRight (bf b 0 5))
  | 0x20 => up (fun e => { e.rewrote (16 + p) with a := lput 0 e.a p (imm.setWidth 15) })
  | 0x21 => up (fun e => { e.rewrote (24 + p) with s := lput 0 e.s p imm })
  | 0x22 => up (fun e => { e.rewrote (32 + p) with m := lput 0 e.m p (imm.setWidth 15) })
  | 0x23 => up (fun e => e.postMod p aN true free)
  | 0x24 => alu (src.readReg id (bf b 16 6))
  | 0x25 => up (fun e => e.writeReg (bf b 16 6) (src.dreg d))
  | 0x28 =>
    if sel = 0 then up (fun e => ({ e with in0 := e.in0.drop 1 }).writePair 2 p (lget 0 src.in0 0))
    else up (fun e => ({ e with in1 := e.in1.drop 1 }).writePair 2 p (lget 0 src.in1 0))
  | 0x29 =>
    if sel = 0 then up (fun e => { e with out0 := e.out0 ++ [src.pair p] })
    else up (fun e => { e with out1 := e.out1 ++ [src.pair p] })
  | _ => i

/-- Does a format 00 bundle stall on a stream (R237)? -/
def Engine.stallsOn (e : Engine) (b : BitVec 64) : Bool :=
  let sel := bf b 22 1
  (bf b 26 6 == 0x28 && (if sel = 0 then e.in0.isEmpty else e.in1.isEmpty))
    || (bf b 26 6 == 0x29 && decide (8 ≤ (if sel = 0 then e.out0.length else e.out1.length)))

/-! ### Sequencing -/

/-- Registers that the MAC slot reads (R227), as keys of `parityBad`. -/
def macReads (b : BitVec 64) : List Nat :=
  let x := bf b 53 4
  let k := 2 * bf b 49 3
  let p := bf b 47 2
  let q := bf b 45 2
  let acc (l : List Nat) : List Nat := if b.getLsbD 57 then [] else l
  match bf b 58 4 with
  | 1 | 2 | 5 | 6 => [x, k, k + 1] ++ acc [49, 50, 51, 52]
  | 3 | 4 => [x, k] ++ acc [49, 50]
  | 7 => [x, k + q / 2] ++ acc [49 + p]
  | 8 => [49 + p, 49 + q]
  | 9 => [49 + p]
  | _ => []

/-- Address registers that an access reads: with post-modification the step and the modulo length too. -/
def addrReads (n : Nat) (post : Bool) : List Nat := [16 + n] ++ if post then [24 + n, 32 + n] else []

/-- Registers that the move slot reads (R228), as keys of `parityBad`. -/
def moveReads (b : BitVec 64) : List Nat :=
  let p := 2 * bf b 23 3
  let q := 2 * bf b 16 3
  let d := bf b 22 4
  let one := addrReads (bf b 20 3) (b.getLsbD 19)
  let two := addrReads (bf b 13 3) (b.getLsbD 12)
  let single := addrReads (bf b 19 3) (b.getLsbD 18)
  let c := 49 + bf b 3 2
  match bf b 26 6 with
  | 0x01 => one
  | 0x02 => one ++ two
  | 0x03 => one ++ [p, p + 1]
  | 0x04 => one ++ two ++ [q, q + 1]
  | 0x05 | 0x06 => single
  | 0x07 | 0x08 => single ++ [d]
  | 0x09 => one ++ [49, 50, 51, 52]
  | 0x0A => one ++ [c, c + 1]
  | 0x0B => [49, 50, 51, 52]
  | 0x0C | 0x0D | 0x0E => [c]
  | 0x0F | 0x10 => [d, c]
  | 0x11 | 0x12 | 0x13 | 0x14 | 0x15 => [bf b 18 4, bf b 14 4]
  | 0x16 | 0x19 | 0x1A | 0x1B => [bf b 18 4]
  | 0x18 | 0x25 => [d]
  | 0x23 => [16 + bf b 23 3, 24 + bf b 20 3, 32 + bf b 23 3]
  | 0x24 => if bf b 16 6 ≤ 0x20 then [16 + bf b 16 6] else []
  | 0x29 => [p, p + 1]
  | _ => []

/-- Loop registers that the end of a bundle reads (R234). -/
def Engine.loopReads (e : Engine) : List Nat :=
  ((List.range 3).filter (fun k => e.lctl.getLsbD k)).flatMap (fun k =>
    [41 + 3 * k] ++ if lget 0 e.le k = e.pc then [40 + 3 * k, 42 + 3 * k] else [])

/-- The loop-end rule of R234 on one level: the engine, and the next address when it branches back. -/
def Engine.loopLevel (e : Engine) (k : Nat) (addr : BitVec 11) : Engine × Option (BitVec 11) :=
  if e.lctl.getLsbD k && lget 0 e.le k == addr then
    let n := lget 0 e.lc k
    if 1 < n.toNat then ({ e.rewrote (42 + 3 * k) with lc := lput 0 e.lc k (n - 1) }, some (lget 0 e.ls k))
    else ({ e.rewrote (42 + 3 * k) with lc := lput 0 e.lc k 0, lctl := e.lctl &&& ~~~BitVec.ofNat 3 (2 ^ k) }, none)
  else (e, none)

/-- Levels 2, 1 and 0 in turn (R234): the engine and the address that follows. -/
def Engine.loopNext (e : Engine) (addr : BitVec 11) : Engine × BitVec 11 :=
  match e.loopLevel 2 addr with
  | (e, some n) => (e, n)
  | (e, none) => match e.loopLevel 1 addr with
    | (e, some n) => (e, n)
    | (e, none) => match e.loopLevel 0 addr with
      | (e, some n) => (e, n)
      | (e, none) => (e, addr + 1)

/-- A branch that is taken: the target issues after two delay slots (R231). -/
def Engine.branch (e : Engine) (t : BitVec 11) : Engine :=
  { e with delay := 2, target := t }

/-- The operation names that the rows of the table give to bundles. -/
inductive BundleKind where
  | slots | b | call | ret | beqz | bnez | bltz | bgez | bdec | limm | loop | nop | halt | waiti | reti
  | ei | di | sig | reserved
deriving DecidableEq, Repr

/-- Which row a bundle is (R226, R229, R230). -/
def kindOf (b : BitVec 64) : BundleKind :=
  match bf b 62 2 with
  | 0 => .slots
  | 1 => match bf b 58 4 with
    | 0 => .b | 1 => .call | 2 => .ret | 3 => .beqz | 4 => .bnez | 5 => .bltz | 6 => .bgez | 7 => .bdec
    | 8 => .limm | _ => .reserved
  | 2 => .loop
  | _ => match bf b 58 4 with
    | 0 => .nop | 1 => .halt | 2 => .waiti | 3 => .reti | 4 => .ei | 5 => .di | 6 => .sig | _ => .reserved

/-- The bits a bundle of format 01, 10 or 11 uses (R226, R229, R230). -/
def formUsed (b : BitVec 64) : Nat :=
  let reg := fieldMask 54 4
  let tgt := fieldMask 43 11
  let head := fieldMask 58 6
  match kindOf b with
  | .b | .call => head + tgt
  | .beqz | .bnez | .bltz | .bgez | .bdec => head + reg + tgt
  | .limm => head + reg + fieldMask 0 32
  | .loop => fieldMask 37 27 + (if b.getLsbD 59 then fieldMask 21 4 else fieldMask 21 16)
  | _ => head

/-- Is the bundle one that a delay slot must not hold (R232)? -/
def notInSlot (k : BundleKind) : Bool :=
  match k with
  | .b | .call | .ret | .beqz | .bnez | .bltz | .bgez | .bdec | .reti | .loop | .halt => true
  | _ => false

/-- Is a bundle illegal where it stands (R226, R232, R233)? -/
def Engine.illegal (e : Engine) (b : BitVec 64) : Bool :=
  let k := kindOf b
  (if k = .slots then slotsIllegal b else (b &&& ~~~BitVec.ofNat 64 (formUsed b)) != 0#64)
    || decide (k = .reserved)
    || (decide (0 < e.delay) && notInSlot k)
    || (decide (k = .loop) && (bf b 60 2 == 3 || !(decide (e.pc.toNat < bf b 48 11)
          && decide (bf b 48 11 ≤ bf b 37 11))))

/-- Registers that a bundle reads where it stands, as keys of `parityBad` (R221). -/
def Engine.reads (e : Engine) (b : BitVec 64) : List Nat :=
  (if e.illegal b then [] else match kindOf b with
    | .slots => macReads b ++ moveReads b
    | .beqz | .bnez | .bltz | .bgez | .bdec => [bf b 54 4]
    | .loop => if b.getLsbD 59 then [bf b 21 4] else []
    | _ => [])
  ++ if e.delay = 0 then e.loopReads else []

/-- `LOOP` (R233). -/
def Engine.loopSetup (e : Engine) (b : BitVec 64) : Engine :=
  let k := bf b 60 2
  let n : BitVec 16 := if b.getLsbD 59 then (e.dreg (bf b 21 4)).extractLsb' 0 16 else BitVec.ofNat 16 (bf b 21 16)
  if n = 0 then e.error 2
  else { ((e.rewrote (40 + 3 * k)).rewrote (41 + 3 * k)).rewrote (42 + 3 * k) with
         ls := lput 0 e.ls k (BitVec.ofNat 11 (bf b 48 11)), le := lput 0 e.le k (BitVec.ofNat 11 (bf b 37 11)),
         lc := lput 0 e.lc k n, lctl := e.lctl ||| BitVec.ofNat 3 (2 ^ k) }

/-- The operation of a legal bundle; `src` is the engine as the bundle finds it. -/
def Issue.operate (i : Issue) (src : Engine) (id : Nat) (b : BitVec 64) (free : BitVec 15) : Issue :=
  let up (g : Engine → Engine) : Issue := { i with e := g i.e }
  let r := src.dreg (bf b 54 4)
  let t := BitVec.ofNat 11 (bf b 43 11)
  match kindOf b with
  | .slots => ({ i with e := i.e.macSlot b } : Issue).moveSlot src id b free
  | .b => up (fun e => e.branch t)
  | .call => up (fun e => ({ e with lr := src.pc + 3 }).branch t)
  | .ret => up (fun e => e.branch src.lr)
  | .beqz => up (fun e => if r = 0 then e.branch t else e)
  | .bnez => up (fun e => if r ≠ 0 then e.branch t else e)
  | .bltz => up (fun e => if r.toInt < 0 then e.branch t else e)
  | .bgez => up (fun e => if 0 ≤ r.toInt then e.branch t else e)
  | .bdec => up (fun e =>
      let e := e.writeD 1 (bf b 54 4) (r - 1)
      if r - 1 ≠ 0 then e.branch t else e)
  | .limm => up (fun e => e.writeD 1 (bf b 54 4) (BitVec.ofNat 32 (bf b 0 32)))
  | .loop => up (fun e => e.loopSetup b)
  | .nop => i
  | .halt => up (fun e => { e with haltDue := true })
  | .waiti => up (fun e => { e with waiting := e.pendNow &&& e.imask == 0#8 })
  | .reti => up (fun e => { e.branch src.intret with retiDue := true })
  | .ei => up (fun e => e.setIe true)
  | .di => up (fun e => e.setIe false)
  | .sig => up (fun e => { e with evt := true })
  | .reserved => i

/-- Is the bundle one after which no interrupt is taken (R245)? -/
def isBranchKind (k : BundleKind) : Bool :=
  match k with
  | .b | .call | .ret | .beqz | .bnez | .bltz | .bgez | .bdec | .reti => true
  | _ => false

/-- Counts `n` cycles spent RUNNING: `CYCLE`, and `TIMER` while `TRUN` is set (Table 9.2). -/
def Engine.count (e : Engine) (n : Nat) : Engine :=
  { e with cycle := e.cycle + BitVec.ofNat 64 n,
           oldProg := (e.oldProg.filter (fun x => decide (n < x.2.1))).map (fun x => (x.1, x.2.1 - n, x.2.2)),
           timer := if e.ctl.getLsbD 1 then BitVec.ofNat 32 (e.timer.toNat - n) else e.timer }

/-- HALTED or FAULT, once due, at a boundary outside any delay slot: results in flight land (R243, R244). -/
def Engine.settleStop (e : Engine) : Engine :=
  if e.delay = 0 ∧ e.faultDue then { e.landAll with st := .fault, faultDue := false, haltDue := false, waiting := false }
  else if e.delay = 0 ∧ e.haltDue then { e.landAll with st := .halted, haltDue := false, waiting := false }
  else e

/-- The issue of one bundle (R226 to R234). An illegal bundle does nothing but raise its error and let the next
bundle follow (notes/assumptions/9.md). -/
def Engine.issue (e : Engine) (id : Nat) (b : BitVec 64) (free : BitVec 15) : Issue :=
  let e := e.advance
  let e := if e.retiDue && e.delay == 0 then { e.setIe true with retiDue := false } else e
  let src := e
  let inSlot := decide (0 < e.delay)
  let bad := src.illegal b
  let (e, next) := if inSlot then (e, e.pc + 1) else e.loopNext e.pc
  let i : Issue := { e := e }
  let i := if bad then { i with e := e.error 1 } else i.operate src id b free
  let e := i.e
  let e := if inSlot then
      let k := e.delay - 1
      { e with delay := k, pc := if k = 0 then e.target else next }
    else { e with pc := next }
  let e := e.count (if i.twice then 2 else 1)
  let e := { e with lastBranch := isBranchKind (kindOf b), lastSlot := inSlot }
  { i with e := e.settleStop }

/-- The entry into FAULT for an error that leaves nothing to issue (R244), an uncorrectable fetch or register parity: at once, or,
in a delay slot, with nothing in the failing bundle's place, behind the slots (R243). -/
def Engine.stopHard (e : Engine) (id cause : Nat) : Engine :=
  if e.delay = 0 then (e.hardError cause).settleStop else ((e.hardError cause).issue id 0xC000000000000000#64 0).e

/-- Cycles that passed while the engine did not run: a free number, short of the timer's expiry (Table 9.2). -/
def Engine.idled (e : Engine) (n : Nat) : Engine :=
  if e.ctl.getLsbD 1 then { e with timer := BitVec.ofNat 32 (e.timer.toNat - n % (e.timer.toNat + 1)) } else e

/-- A stalled cycle (R237). -/
def Engine.stall (e : Engine) : Engine := { (e.count 1) with stalls := e.stalls + 1 }

/-- Can an interrupt be taken (R245)? -/
def Engine.canInterrupt (e : Engine) : Bool :=
  e.ie && e.pendNow &&& e.imask != 0#8 && !e.lastBranch && !e.lastSlot && e.delay == 0

/-- The lowest pending enabled source. -/
def Engine.lowestSource (e : Engine) : Nat :=
  ((List.range 8).find? (fun k => (e.pendNow &&& e.imask).getLsbD k)).getD 0

/-- Interrupt entry (R245). -/
def Engine.enter (e : Engine) : Engine :=
  let k := e.lowestSource
  let e := { e with intret := e.pc, istat := (e.istat &&& 0xF8#8) ||| BitVec.ofNat 8 k,
                    ipend := if k < 6 then e.ipend &&& ~~~BitVec.ofNat 8 (2 ^ k) else e.ipend,
                    pc := e.vbase + BitVec.ofNat 11 (8 * k), waiting := false }
  e.setIe false

/-- A source becomes pending (Table 9.10). -/
def Engine.pend (e : Engine) (k : Nat) : Engine := { e with ipend := e.ipend ||| BitVec.ofNat 8 (2 ^ k) }

end Sys2Proof.Machine
end

