-- ==== Sys2Proof/Machine/HbmOps.lean ====
section
/-! DEFINITION. HBM as the controllers serve it: ECC, the layout of a protected range, line encryption and tags,
the counter tree, poison, rekey and re-initialisation (R376 to R398). -/

namespace Sys2Proof.Machine

/-! ### Layout (Table 14.1, R385) -/

/-- One GiB, and the 72 GiB of HBM. -/
def gibBytes : Nat := 1073741824
def hbmBytes : Nat := 72 * gibBytes

/-- Protected range `i`. -/
def State.range (s : State) (i : Nat) : Range := tget {} s.hbm.ranges i
def modRange (i : Nat) (f : Range → Range) (s : State) : State :=
  modHbm (fun h => { h with ranges := tmod {} h.ranges i f }) s

/-- Size of the data part (N × 856 MiB) and of the span, and the number of data pages. -/
def Range.dc (r : Range) : Nat := r.gib * 897581056
def Range.span (r : Range) : Nat := r.gib * gibBytes
def Range.pages (r : Range) : Nat := r.dc / 4096

/-- Nodes at level `k`. -/
def Range.count (r : Range) (k : Nat) : Nat := ceilDiv r.pages (8 ^ k)

/-- The depth of the tree. -/
def Range.depth (r : Range) : Nat :=
  ((List.range 11).find? (fun i => decide (r.count (i + 1) ≤ 8))).getD 11 + 1

/-- Address of the first leaf record (level 0) or of the first node of a level. -/
def Range.levelAt (r : Range) : Nat → Nat
  | 0 => r.base + r.dc * 9 / 8
  | 1 => r.base + r.dc * 19 / 16
  | k + 2 => r.levelAt (k + 1) + 128 * r.count (k + 1)

/-- Size and address of item `j` of a level: a leaf record (level 0) or a node. -/
def itemLen (k : Nat) : Nat := if k = 0 then 256 else 128
def Range.itemAddr (r : Range) (k j : Nat) : Nat := r.levelAt k + itemLen k * j

/-- Address of the tag of the data line at `a`. -/
def Range.tagAddr (r : Range) (a : Nat) : Nat := r.base + r.dc + 8 * ((a - r.base) / 64)

/-- Is an address in the span, in the data part? -/
def Range.has (r : Range) (a : Nat) : Bool := r.defined && decide (r.base ≤ a) && decide (a < r.base + r.span)
def Range.inData (r : Range) (a : Nat) : Bool := decide (a < r.base + r.dc)

/-- The page of a data address, and its line in the page. -/
def Range.pageOf (r : Range) (a : Nat) : Nat := (a - r.base) / 4096
def lineOfPage (a : Nat) : Nat := a / 64 % 64

/-- A removal is in progress (R398). -/
def Range.removing (r : Range) : Bool := match r.filling with
  | some (true, _) => true
  | _ => false

/-- The range that holds an address. -/
def State.rangeOf (s : State) (a : Nat) : Option Nat :=
  (List.range 8).find? (fun i => (s.range i).has a)

/-- Pseudo-channel of an address (Table 2.8). -/
def pcOf (a : Nat) : Nat := a / 4096 % 64

/-! ### ECC (R377) -/

/-- ECC state of the line at `a`. -/
def HbmSt.eccAt (h : HbmSt) (a : Nat) : Ecc := tget .clean h.ecc (a / 64)

/-- Is any line of `n` bytes from `a` on uncorrectable? -/
def HbmSt.eccBad (h : HbmSt) (a n : Nat) : Bool :=
  (List.range ((a + n - 1) / 64 + 1 - a / 64)).any (fun i => decide (h.eccAt (a + 64 * i) = .uncorrectable))

/-- Bytes stored with fresh ECC. -/
def HbmSt.put (h : HbmSt) (a : Nat) (bs : List Byte) : HbmSt :=
  { h with mem := wrBytes h.mem a bs,
           ecc := (List.range ((a + bs.length - 1) / 64 + 1 - a / 64)).foldl
             (fun t i => tset .clean t (a / 64 + i) .clean) h.ecc }

/-- The bytes of a line as stored. -/
def HbmSt.lineBytes (h : HbmSt) (a : Nat) : List Byte := rdBytes h.mem (a / 64 * 64) 64

/-- The outcome of a line's ECC as the trackers take it. -/
def Ecc.out : Ecc → GridOut
  | .clean => .clean | .corrected => .dataBit 0 | .uncorrectable => .uncorrectable

/-- A line read through the ECC: its correction is counted and tracked (R377, R400, R409). -/
def touchLine (a : Nat) (fettler : Bool) (s : State) : State :=
  let line := a / 64 * 64
  let (s, back) := noteRead (.pc (pcOf a)) (hbmRef line) (s.hbm.eccAt a).out false fettler s
  onlyIf back (modHbm (fun h => { h with ecc := tset .clean h.ecc (a / 64) .clean })) s

/-! ### Encryption, tags and codes (R383, R386) -/

/-- A 128-bit block of Table 14.2: `ctr` is the major or parent counter. -/
def ctrBlock (dom addr ctr minor b : Nat) : BitVec 128 :=
  BitVec.ofNat 128 (dom * 2 ^ 126 + (addr / 64 % 2 ^ 42) * 2 ^ 84 + (ctr % 2 ^ 64) * 2 ^ 20
    + (minor % 65536) * 16 + (b % 4) * 4)

/-- The `n` bytes of a number, most significant first: bit 127 of a block is in its byte 0 (Table 14.2). -/
def beBytes (n v : Nat) : List Byte := (leBytes n v).reverse

/-- Encryption and decryption of a line: XOR with the keystream. -/
def crypt (key : BitVec 256) (addr major minor : Nat) (bs : List Byte) : List Byte :=
  let ks := (List.range 4).flatMap (fun b => beBytes 16 (Config.aes256 key (ctrBlock 0 addr major minor b)).toNat)
  List.zipWith (· ^^^ ·) bs ks

/-- The first 64 bits of the GMAC tag, as stored bytes. -/
def macBytes (key : BitVec 256) (iv : BitVec 128) (bs : List Byte) : List Byte :=
  (beBytes 16 (Config.gmac key iv bs).toNat).take 8

/-- The tag of a ciphertext line. -/
def tagFor (key : BitVec 256) (addr major minor : Nat) (c : List Byte) : List Byte :=
  macBytes key (ctrBlock 1 addr major minor 0) c

/-- Bytes that the MAC of an item covers. -/
def macSpan (k : Nat) : Nat := if k = 0 then 136 else 64

/-- The MAC of an item under its parent counter. -/
def itemMac (key : BitVec 256) (k addr parent : Nat) (bs : List Byte) : List Byte :=
  macBytes key (ctrBlock (if k = 0 then 2 else 3) addr parent 0 0) (bs.take (macSpan k))

/-- Child counter `c` of a node; major and minor counters of a leaf record. -/
def ctrAt (bs : List Byte) (c : Nat) : Nat := leNat ((bs.drop (8 * c)).take 8)
def minorAt (bs : List Byte) (k : Nat) : Nat := leNat ((bs.drop (8 + 2 * k)).take 2)

/-- A byte list with `n` bytes from `i` on replaced by a little-endian number. -/
def setLe (bs : List Byte) (i n v : Nat) : List Byte := bs.take i ++ leBytes n v ++ bs.drop (i + n)

/-! ### Verification of a path (R386, R388, R390) -/

/-- An item read and verified under its parent counter; none when it fails, as the second reading confirms
(notes/assumptions/12.md). -/
def verifyItem (h : HbmSt) (r : Range) (k j parent : Nat) : Option (List Byte) :=
  let a := r.itemAddr k j
  let bs := rdBytes h.mem a (itemLen k)
  if h.eccBad a (itemLen k) then none
  else if bs.all (· == 0) && parent == 0 then some bs
  else if (bs.drop (macSpan k + 8)).all (· == 0)
      && (bs.drop (macSpan k)).take 8 == itemMac h.key k a parent bs then some bs
  else none

/-- What verification of a page's path ends with. -/
inductive PathRes where
  /-- The leaf record. -/
  | ok (leaf : List Byte)
  /-- The first item that failed: level and index, level 255 for the root. -/
  | failed (level index : Nat)
deriving DecidableEq, Repr

/-- One step of a walk: the failure where the item did not verify, else what follows with its bytes. -/
def afterItem (item : Option (List Byte)) (failure : PathRes) (next : List Byte → PathRes) : PathRes :=
  match item with
  | none => failure
  | some bs => next bs

/-- The path of a page from level `k` downward, under the counter of its level `k` item. -/
def walk (h : HbmSt) (r : Range) (page : Nat) : Nat → Nat → PathRes
  | 0, parent => afterItem (verifyItem h r 0 page parent) (.failed 0 page) .ok
  | k + 1, parent =>
    afterItem (verifyItem h r (k + 1) (page / 8 ^ (k + 1)) parent) (.failed (k + 1) (page / 8 ^ (k + 1)))
      (fun bs => walk h r page k (ctrAt bs (page / 8 ^ k % 8)))

/-- The whole path of a page, from the root downward. -/
def pathOf (h : HbmSt) (r : Range) (page : Nat) : PathRes :=
  if r.rootBad then .failed 255 0
  else walk h r page r.depth (lget 0 r.root (page / 8 ^ r.depth)).toNat

/-- The plain bytes of a data line with minor counter above 0; none when its tag fails. -/
def openLine (h : HbmSt) (r : Range) (a : Nat) (leaf : List Byte) : Option (List Byte) :=
  let a := a / 64 * 64
  let c := h.lineBytes a
  let major := ctrAt leaf 0
  let minor := minorAt leaf (lineOfPage a)
  if h.eccBad a 64 || h.eccBad (r.tagAddr a) 8 then none
  else if rdBytes h.mem (r.tagAddr a) 8 == tagFor h.key a major minor c then some (crypt h.key a major minor c)
  else none

/-! ### Writing under the tree (R383, R384, R386) -/

/-- An item written with its MAC. -/
def writeItem (key : BitVec 256) (r : Range) (k j parent : Nat) (bs : List Byte) (h : HbmSt) : HbmSt :=
  let body := bs.take (macSpan k)
  h.put (r.itemAddr k j) (body ++ itemMac key k (r.itemAddr k j) parent body
    ++ .replicate (itemLen k - macSpan k - 8) 0)

/-- Increases the parent counter of item `j` of level `k`, rewriting every node above it; `n` levels lie above.
The counter's new value. -/
def bumpUp (key : BitVec 256) (r : Range) : Nat → Nat → Nat → HbmSt → List (BitVec 64) →
    HbmSt × List (BitVec 64) × Nat
  | 0, _, j, h, root =>
    let v := lget 0 root j + 1
    (h, lput 0 root j v, v.toNat)
  | n + 1, k, j, h, root =>
    let (h, root, parent) := bumpUp key r n (k + 1) (j / 8) h root
    let bs := rdBytes h.mem (r.itemAddr (k + 1) (j / 8)) 128
    let v := (ctrAt bs (j % 8) + 1) % 2 ^ 64
    (writeItem key r (k + 1) (j / 8) parent (setLe bs (8 * (j % 8)) 8 v) h, root, v)

/-- Writes item `j` of level `k` of range `ri`, its parent counter increased. -/
def writeUnder (ri k j : Nat) (bs : List Byte) (s : State) : State :=
  let r := s.range ri
  let (h, root, parent) := bumpUp s.hbm.key r (r.depth - k) k j s.hbm r.root
  modRange ri (fun x => { x with root := root })
    (modHbm (fun _ => writeItem s.hbm.key r k j parent bs h) s)

/-- A data line encrypted and stored with its tag. -/
def sealLine (key : BitVec 256) (r : Range) (a major minor : Nat) (plain : List Byte) (h : HbmSt) : HbmSt :=
  let c := crypt key a major minor plain
  (h.put a c).put (r.tagAddr a) (tagFor key a major minor c)

/-- The leaf record and the stored lines after the write of one line (R384). -/
def bumpLine (r : Range) (a : Nat) (plain leaf : List Byte) (h : HbmSt) : HbmSt × List Byte :=
  let k := lineOfPage a
  let major := ctrAt leaf 0
  let minor := minorAt leaf k
  if minor < 65535 then
    (sealLine h.key r a major (minor + 1) plain h, setLe leaf (8 + 2 * k) 2 (minor + 1))
  else
    let page := a / 4096 * 4096
    let others := (List.range 64).filter (fun i => i != k && minorAt leaf i != 0)
    let h := others.foldl (fun g i =>
      match openLine h r (page + 64 * i) leaf with
      | none => g
      | some p => sealLine h.key r (page + 64 * i) (major + 1) 1 p g) h
    (sealLine h.key r a (major + 1) 1 plain h,
      (k :: others).foldl (fun l i => setLe l (8 + 2 * i) 2 1) (setLe leaf 0 8 (major + 1)))

/-! ### Poison and refusals (R381, R390) -/

/-- Does a poison entry cover a page? Level 255 is the whole range. -/
def poisonCovers (p : Nat × Nat × Nat) (ri page : Nat) : Bool :=
  p.1 == ri && (p.2.1 == 255 || page / 8 ^ p.2.1 == p.2.2)

/-- Is a page poisoned? -/
def State.poisoned (s : State) (ri page : Nat) : Bool := s.hbm.poison.any (fun p => poisonCovers p ri page)

/-- Poisons a subtree; a 65th entry poisons the whole range instead (R390). -/
def addPoison (ri level index : Nat) (s : State) : State :=
  modHbm (fun h => { h with poison :=
    if (h.poison.contains (ri, level, index)) = true then h.poison
    else if 64 ≤ h.poison.length then h.poison.filter (fun p => p.1 != ri) ++ [(ri, 255, 0)]
    else h.poison ++ [(ri, level, index)] }) s

/-- Counts one of a range's counters. -/
def bumpRange (ri i n : Nat) (s : State) : State :=
  modRange ri (fun r => { r with counters := bump r.counters i n }) s

/-- The events of Table 14.10 that name a range: code row, severity, details after the range. -/
def rangeEvent (row sev ri : Nat) (details : List (Nat × Nat)) : EvRec :=
  { cls := 5, sev := sev, code := 0x0E00 + row, kind := 5, src := ri, details := (1, ri) :: details }

/-- A failed leaf record, node or root: the subtree is poisoned and the alarm raised (R390). -/
def itemFailure (ri level index mid : Nat) (s : State) : State :=
  securityAlarm (raise (rangeEvent 3 4 ri [(1, level), (4, index), (1, mid)])
    (addPoison ri level index (bumpRange ri 3 1 s)))

/-- A data line that failed verification (R389). -/
def lineFailure (ri a mid op : Nat) (s : State) : State :=
  securityAlarm (raise (rangeEvent 2 4 ri [(8, a), (1, mid), (1, op)]) (bumpRange ri 2 1 s))

/-- An access to a poisoned page (R390). -/
def poisonAccess (ri a mid : Nat) (s : State) : State :=
  securityAlarm (raise (rangeEvent 4 4 ri [(8, a), (1, mid)]) (bumpRange ri 4 1 s))

/-- A refusal by region mask, metadata rule or closing (R381, R60): no event in HOLD. -/
def rangeRefusal (ri a mid : Nat) (s : State) : State :=
  let s := bumpRange ri 5 1 s
  if s.dev.mode = .hold then s else raise (rangeEvent 5 2 ri [(8, a), (1, mid)]) s

/-! ### Rekey (R387, R394, R395) -/

/-- Starts a rekey with a new key drawn from the bit generator: a free value. -/
def startRekey (w : Option Waiter) (s : State) : State :=
  if s.hbm.rekey.isSome then s
  else useFree (modHbm (fun h => { h with rekey := some { newKey := freshBits 256 s, waiter := w } }) s)

/-- Counters on the path of a page, from the leaf record's up to the root's, with the level that holds each. -/
def pathCounters (h : HbmSt) (r : Range) (page : Nat) : List (Nat × Nat) :=
  (List.range r.depth).map (fun k =>
      (k + 1, ctrAt (rdBytes h.mem (r.itemAddr (k + 1) (page / 8 ^ (k + 1))) 64) (page / 8 ^ k % 8)))
    ++ [(255, (lget 0 r.root (page / 8 ^ r.depth)).toNat)]

/-- A counter that passed 2^62 starts a rekey (R387). -/
def checkCounters (ri page : Nat) (s : State) : State :=
  match (pathCounters s.hbm (s.range ri) page).find? (fun c => decide (2 ^ 62 < c.2)) with
  | none => s
  | some c => if s.hbm.rekey.isSome then s else startRekey none (raise (rangeEvent 6 1 ri [(1, c.1)]) s)

/-! ### Lines as requests meet them -/

/-- Runner response codes (Table 2.4). -/
def rcOk : Nat := 0
def rcDecode : Nat := 1
def rcAccess : Nat := 2
def rcIntegrity : Nat := 3
def rcTimeout : Nat := 4
def rcPathReset : Nat := 5
def rcAsleep : Nat := 6

/-- The lines of the items that a verification reads, from level `d` down to the leaf record or to the first item that
fails (R377, R390). -/
def touchPath (r : Range) (page : Nat) (res : PathRes) (s : State) : State :=
  let low := match res with
    | .ok _ => 0
    | .failed k _ => k
  forEach ((List.range (r.depth + 1)).filter (fun k => decide (low ≤ k))) (fun k =>
    forBelow (itemLen k / 64) (fun i => touchLine (r.itemAddr k (page / 8 ^ k) + 64 * i) false)) s

/-- A data line and its tag are read (R377). -/
def touchTagged (r : Range) (a : Nat) (s : State) : State := touchLine (r.tagAddr a) false (touchLine a false s)

/-- READ of a line of a protected range's data part (Table 14.5). -/
def protRead (ri a mid : Nat) (s : State) : State × Nat × Line :=
  let r := s.range ri
  let page := r.pageOf a
  if s.poisoned ri page then (poisonAccess ri a mid s, rcIntegrity, 0)
  else
    let t := touchPath r page (pathOf s.hbm r page) s
    match pathOf s.hbm r page with
    | .failed k j => (itemFailure ri k j mid t, rcIntegrity, 0)
    | .ok leaf =>
      if minorAt leaf (lineOfPage a) = 0 then (bumpRange ri 0 1 t, rcOk, 0)
      else match openLine s.hbm r a leaf with
        | none => (lineFailure ri a mid 0 (touchTagged r a t), rcIntegrity, 0)
        | some p => (touchTagged r a t, rcOk, lineOf p)

/-- WRITE of a line of a protected range's data part (Table 14.5). -/
def protWrite (ri a mid : Nat) (data : Line) (be : BitVec 64) (s : State) : State × Nat :=
  let r := s.range ri
  let page := r.pageOf a
  if be = 0 then (s, rcOk)
  else if s.poisoned ri page then (poisonAccess ri a mid s, rcIntegrity)
  else
    let t := touchPath r page (pathOf s.hbm r page) s
    match pathOf s.hbm r page with
    | .failed k j => (itemFailure ri k j mid t, rcIntegrity)
    | .ok leaf =>
      let old : Option (List Byte) :=
        if be = BitVec.allOnes 64 ∨ minorAt leaf (lineOfPage a) = 0 then some (.replicate 64 0)
        else openLine s.hbm r a leaf
      match old with
      | none => (lineFailure ri a mid 1 (touchTagged r a t), rcIntegrity)
      | some o =>
        let s := onlyIf (be != BitVec.allOnes 64 && minorAt leaf (lineOfPage a) != 0) (touchTagged r a) t
        let plain := bytesOf (mergeBytes (lineOf o) data be) 64
        let (h, leaf) := bumpLine r (a / 64 * 64) plain leaf s.hbm
        let s := noteWrite (.pc (pcOf a)) (hbmRef (a / 64 * 64)) (modHbm (fun _ => h) s)
        (checkCounters ri page (writeUnder ri 0 page leaf s), rcOk)

/-- The event of an uncorrectable line outside every protected range (R377). -/
def hbmUncorrectable (a mid : Nat) : EvRec :=
  { cls := 4, sev := 3, code := 0x0E01, kind := 11, src := pcOf a, details := [(8, a), (1, pcOf a), (1, mid)] }

/-- READ of a line by its stored bytes (R377, R381). -/
def plainRead (a mid : Nat) (fettler : Bool) (s : State) : State × Nat × Line :=
  let bad := decide (s.hbm.eccAt a = .uncorrectable)
  let s := touchLine a fettler s
  if bad then (onlyIf (s.rangeOf a).isNone (raise (hbmUncorrectable a mid)) s, rcIntegrity, 0)
  else (s, rcOk, lineOf (s.hbm.lineBytes a))

/-- WRITE of a line by its stored bytes (R377, R35). -/
def plainWrite (a mid : Nat) (data : Line) (be : BitVec 64) (s : State) : State × Nat :=
  let line := a / 64 * 64
  if be = 0 then (s, rcOk)
  else if be = BitVec.allOnes 64 then
    (noteWrite (.pc (pcOf a)) (hbmRef line) (modHbm (fun h => h.put line (bytesOf data 64)) s), rcOk)
  else
    let bad := decide (s.hbm.eccAt a = .uncorrectable)
    let s := touchLine a false s
    if bad then (onlyIf (s.rangeOf a).isNone (raise (hbmUncorrectable a mid)) s, rcIntegrity)
    else
      let new := mergeBytes (lineOf (s.hbm.lineBytes a)) data be
      (noteWrite (.pc (pcOf a)) (hbmRef line) (modHbm (fun h => h.put line (bytesOf new 64)) s), rcOk)

/-- Does a master reach the stored bits of an address (R381)? The Fettler everywhere; the rekey engine in
metadata and in poisoned pages. -/
def reachesStored (mid a : Nat) (s : State) : Bool :=
  match s.rangeOf a with
  | none => true
  | some i =>
    let r := s.range i
    mid == 67 || (mid == 71 && (!r.inData a || s.poisoned i (r.pageOf a)))

/-- Regions that record an entry (R184). -/
def pinning (i : Nat) (s : State) : List Nat := (List.range 64).filter (fun r => decide ((s.region r).record = some i))

/-- The 64-byte descriptor of a library entry (Table 7.6). -/
def descriptorBytes (s : State) (i : Nat) : List Byte :=
  let e := s.entry i
  leBytes 1 e.st.toNat ++ leBytes 1 e.placement.toNat ++ leBytes 1 e.anchor.toNat ++ leBytes 1 e.flags.toNat
    ++ leBytes 2 e.carried ++ leBytes 2 (pinning i s).length ++ leBytes 16 e.patternId.toNat ++ leBytes 8 e.tickLoaded.toNat
    ++ leBytes 1 e.loadedBy.toNat ++ List.replicate 31 0

/-- The library entry whose descriptor a line of HBM is (R181): the 256 KiB at the library's base hold them in the order of
their indexes. -/
def descriptorOf (s : State) (ri a : Nat) : Option Nat :=
  let base := (s.range 0).base
  if ri = 0 ∧ base ≤ a ∧ a < base + 64 * s.lib.capacity then some ((a - base) / 64) else none

/-- READ of one HBM line, its rights having been checked. A line of the library's descriptors reads as the descriptor stands
(R181; notes/assumptions/62.md). -/
def hbmRead (a mid : Nat) (s : State) : State × Nat × Line :=
  match s.rangeOf a with
  | none => plainRead a mid false s
  | some i =>
    if reachesStored mid a s then plainRead a mid (mid == 67) s
    else
      let (t, rc, l) := protRead i a mid s
      match descriptorOf s i a with
      | some k => (t, rc, if rc = rcOk then lineOf (descriptorBytes s k) else l)
      | none => (t, rc, l)

/-- WRITE of one HBM line, its rights having been checked. -/
def hbmWrite (a mid : Nat) (data : Line) (be : BitVec 64) (s : State) : State × Nat :=
  match s.rangeOf a with
  | none => plainWrite a mid data be s
  | some i => if reachesStored mid a s then plainWrite a mid data be s else protWrite i a mid data be s

/-! ### Conversion of every page under a new key (R395) -/

/-- Items of a level that hold a byte other than zero, in rising order. -/
def usedItems (h : HbmSt) (r : Range) (k : Nat) : List Nat :=
  ((window h.mem (r.levelAt k) (itemLen k * r.count k)).map
    (fun c => (c.1 - r.levelAt k) / itemLen k)).eraseDups

/-- Converts one page: read under K, written under K′ with major 0 and minor 1. A page that fails is poisoned and
left as it is stored (R397). -/
def convertPage (newKey : BitVec 256) (ri page : Nat) (s : State) : State :=
  let r := s.range ri
  if s.poisoned ri page then s
  else match pathOf s.hbm r page with
    | .failed k j => itemFailure ri k j 71 s
    | .ok leaf =>
      let used := (List.range 64).filter (fun i => minorAt leaf i != 0)
      let at_ := fun i => r.base + 4096 * page + 64 * i
      match used.find? (fun i => (openLine s.hbm r (at_ i) leaf).isNone) with
      | some _ => itemFailure ri 0 page 71 s
      | none =>
        modHbm (fun h =>
          let h := used.foldl (fun g i =>
            match openLine h r (at_ i) leaf with
            | none => g
            | some p => sealLine newKey r (at_ i) 0 1 p g) h
          let new := used.foldl (fun l i => setLe l (8 + 2 * i) 2 1) (.replicate 256 (0 : Byte))
          if used.isEmpty then h.put (r.itemAddr 0 page) (.replicate 256 0)
          else writeItem newKey r 0 page 1 new h) s

/-- Is an item poisoned with all that lies beneath it? -/
def State.itemPoisoned (s : State) (ri k j : Nat) : Bool :=
  s.hbm.poison.any (fun p => p.1 == ri && (p.2.1 == 255 || (decide (k ≤ p.2.1) && j / 8 ^ (p.2.1 - k) == p.2.2)))

/-- The counter that a rebuilt parent holds for item `j` of level `k` after a rekey: 1 for one that was written, 0 for
one all zero; for a poisoned one, which is not rebuilt, the manual gives none. -/
def rebuiltCounter (s : State) (ri k j : Nat) : Nat :=
  if s.itemPoisoned ri k j then (Config.freeBits (s.env.freeCtr + j) ).toNat % 2 ^ 64
  else if (rdBytes s.hbm.mem ((s.range ri).itemAddr k j) (itemLen k)).all (· == 0) then 0 else 1

/-- Rebuilds the nodes of one level from their children. -/
def rebuildLevel (newKey : BitVec 256) (ri k : Nat) (s : State) : State :=
  let r := s.range ri
  let s := forEach ((usedItems s.hbm r k).filter (fun j => !s.itemPoisoned ri k j)) (fun j s =>
    let ctrs := (List.range 8).flatMap (fun c => leBytes 8 (rebuiltCounter s ri (k - 1) (8 * j + c)))
    modHbm (fun h => if ctrs.all (· == 0) then h.put (r.itemAddr k j) (.replicate 128 0)
      else writeItem newKey r k j 1 ctrs h) s) s
  modEnv (fun e => { e with freeCtr := e.freeCtr + r.count (k - 1) }) s

/-- Converts one range. -/
def convertRange (newKey : BitVec 256) (ri : Nat) (s : State) : State :=
  let s := forEach (usedItems s.hbm (s.range ri) 0) (convertPage newKey ri) s
  let d := (s.range ri).depth
  let s := forBelow d (fun k => rebuildLevel newKey ri (k + 1)) s
  let root := (List.range 8).map (fun j => BitVec.ofNat 64 (rebuiltCounter s ri d j))
  modEnv (fun e => { e with freeCtr := e.freeCtr + 8 }) (modRange ri (fun r => { r with root := root }) s)

/-- Pages of the defined ranges, and those of them that are poisoned. -/
def pagesTotal (s : State) : Nat :=
  (List.range 8).foldl (fun n i => if (s.range i).defined then n + (s.range i).pages else n) 0
def pagesPoisoned (s : State) : Nat :=
  (List.range 8).foldl (fun n i => if (s.range i).defined then
    n + (List.range (s.range i).pages).countP (fun p => s.poisoned i p) else n) 0

/-- Converts every defined range, in increasing number, and takes the new key (R395). -/
def convertAll (k : Rekey) (s : State) : State :=
  let s := forEach ((List.range 8).filter (fun i => (s.range i).defined)) (convertRange k.newKey) s
  let skipped := pagesPoisoned s
  let s := modHbm (fun h => { h with key := k.newKey, epoch := h.epoch + 1, rekey := none }) s
  raise { cls := 5, sev := 1, code := 0x0E07, kind := 0,
          details := [(4, s.hbm.epoch), (4, pagesTotal s - skipped), (4, skipped)] } s

/-! ### Re-initialisation (R392) -/

/-- Pages, first page and last page beneath item `index` of a level (255: the whole range). -/
def subtreePages (r : Range) (level index : Nat) : Nat × Nat :=
  if level = 255 then (0, r.pages) else (min r.pages (index * 8 ^ level), min r.pages ((index + 1) * 8 ^ level))

/-- Zero in every data line, tag, leaf record and node of a subtree. -/
def zeroSubtree (r : Range) (level index : Nat) (h : HbmSt) : HbmSt :=
  let (lo, hi) := subtreePages r level index
  let clear := fun (h : HbmSt) (a n : Nat) =>
    { h with mem := zeroBytes h.mem a n, ecc := tclear h.ecc (a / 64) ((a + n) / 64) }
  let h := clear h (r.base + 4096 * lo) (4096 * (hi - lo))
  let h := clear h (r.tagAddr (r.base + 4096 * lo)) (512 * (hi - lo))
  let top := if level = 255 then r.depth else level
  (List.range (top + 1)).foldl (fun h k =>
    let a := lo / 8 ^ k
    let b := ceilDiv hi (8 ^ k)
    clear h (r.itemAddr k a) (itemLen k * (b - a))) h

/-- The path above a subtree, verified from the root down to its parent: the failing item, if any. -/
def parentFails (h : HbmSt) (r : Range) (level index : Nat) : Option (Nat × Nat) :=
  if r.rootBad then some (255, 0)
  else if r.depth ≤ level then none
  else
    let page := index * 8 ^ level
    match walk h r page r.depth (lget 0 r.root (page / 8 ^ r.depth)).toNat with
    | .ok _ => none
    | .failed k j => if k ≤ level then none else some (k, j)

/-- Re-initialises the whole range: each root counter is increased and each level d node is a zero node under it. -/
def reinitRange (ri : Nat) (s : State) : State :=
  let r := s.range ri
  let root := r.root.map (· + 1)
  let h := zeroSubtree r 255 0 s.hbm
  let h := (List.range (r.count r.depth)).foldl (fun h j =>
    writeItem h.key r r.depth j (lget 0 root j).toNat (.replicate 128 0) h) h
  modRange ri (fun x => { x with root := root, rootBad := false }) (modHbm (fun _ => h) s)

/-- Re-initialises one subtree: it is zero, its parent counter is increased, and the MACs on the path up to the root
are rewritten. -/
def reinitSubtree (ri level index : Nat) (s : State) : State :=
  let r := s.range ri
  writeUnder ri level index (.replicate 256 0) (modHbm (zeroSubtree r level index) s)

end Sys2Proof.Machine
end

