-- ==== Sys2Proof/Machine/MemOps.lean ====
section
/-! DEFINITION. The on-die memories as the Runner, the fabric and the Fettler meet them: block memory words, Ingot
bank lines and atomics, and DSP engine memories (R195 to R219). -/

namespace Sys2Proof.Machine

/-! ### Planes, as the memories need them -/

/-- A plane's settings of local block memory `m`, if it connects it (R195). -/
def PlaneUse.bram (u : PlaneUse) (m : Nat) : Option BramCfg := (u.brams.find? (fun e => e.1 == m)).map (·.2)

/-- The response of an outstanding request is ready at its target. -/
def answerOutst (req : Nat) (ls : List RLine) (s : State) : State :=
  mapOutst (fun o => if o.id = req && o.resp.isNone then { o with resp := some ls } else o) s

/-! ### Block memories (R195 to R206) -/

/-- The settings of block memory `m` in its region's active plane; protected where no plane setting connects it. -/
def State.bramCfg (s : State) (m : Nat) : BramCfg := ((s.region (m / 256)).now.use.bram (m % 256)).getD {}

/-- A word as stored. -/
def Bram.word (b : Bram) (w : Nat) : BitVec 80 := tget 0 b.words w

/-- A word written; an injected mark ends (R415). -/
def Bram.put (b : Bram) (w : Nat) (v : BitVec 80) : Bram :=
  { b with words := tset 0 b.words w v, injected := b.injected.filter (· != w) }

/-- Data bits, and a protected word with fresh check bits. -/
def wordData (v : BitVec 80) : BitVec 64 := v.extractLsb' 0 64
def wordEncode (d : BitVec 64) : BitVec 80 := BitVec.ofNat 16 (gridCheck 8 d.toNat) ++ d

/-- The decoder's outcome for a stored word. -/
def wordOut (v : BitVec 80) : GridOut :=
  decodeSyn 8 ((v.extractLsb' 64 16).toNat ^^^ gridCheck 8 (wordData v).toNat)

/-- The event of R201; `who` is the port (0 A, 1 B) or the master ID. -/
def bramEvent (m w who : Nat) (injected : Bool) : EvRec :=
  { cls := 4, sev := 3, code := 0x0801, kind := 1, src := m / 256, injected := injected,
    details := [(1, m / 256), (1, m % 256), (2, w), (1, who)] }

/-- A protected read of a word, with its consequences: the data delivered and the outcome (R201, R400). -/
def bramFetch (m w who : Nat) (fettler : Bool) (s : State) : State × BitVec 64 × GridOut :=
  let b := s.bram m
  let v := b.word w
  let out := wordOut v
  let inj := b.injected.contains w
  let data := correctBits (wordData v) out
  let (s, back) := noteRead (.region (m / 256)) (bramRef (m % 256) w) out inj fettler s
  let s := onlyIf back (modBram m (fun b => b.put w (wordEncode data))) s
  (onlyIf (decide (out = .uncorrectable) && !fettler) (raise (bramEvent m w who inj)) s, data, out)

/-- A whole protected word written with fresh check bits (R200). -/
def bramStore (m w : Nat) (d : BitVec 64) (s : State) : State :=
  noteWrite (.region (m / 256)) (bramRef (m % 256) w) (modBram m (fun b => b.put w (wordEncode d)) s)

/-- A protected partial write (R200): performed unless the word is uncorrectable. -/
def bramPartial (m w who : Nat) (new : BitVec 64 → BitVec 64) (s : State) : State × Bool :=
  let (s, old, out) := bramFetch m w who false s
  if out = .uncorrectable then (s, false) else (bramStore m w (new old) s, true)

/-- One word of a window READ (R54, R202): data and whether it is good. -/
def bramWindowRead (m w mid : Nat) (s : State) : State × BitVec 64 × Bool :=
  if (s.bramCfg m).raw then (s, wordData ((s.bram m).word w), true)
  else
    let (s, d, out) := bramFetch m w mid false s
    (s, d, out != .uncorrectable)

/-- One word of a window WRITE (R54, R202). -/
def bramWindowWrite (m w mid : Nat) (d : BitVec 64) (be : BitVec 8) (s : State) : State × Bool :=
  if be = 0 then (s, true)
  else if (s.bramCfg m).raw then
    (modBram m (fun b =>
      let v := b.word w
      b.put w (v.extractLsb' 64 16 ++ mergeBytes (wordData v) d be)) s, true)
  else if be = BitVec.allOnes 8 then (bramStore m w d s, true)
  else bramPartial m w mid (fun old => mergeBytes old d be) s

/-- Word `i` of a line, and the byte enables of word `i`. -/
def lineWord (l : Line) (i : Nat) : BitVec 64 := l.extractLsb' (64 * i) 64
def lineBe (be : BitVec 64) (i : Nat) : BitVec 8 := be.extractLsb' (8 * i) 8

/-- Eight word reads make a line; one bad word refuses it (R39, R40). -/
def readWords (f : Nat → State → State × BitVec 64 × Bool) (s : State) : State × Nat × Line :=
  let (s, n, ok) := (List.range 8).foldl (fun (acc : State × Nat × Bool) i =>
    let (t, d, good) := f i acc.1
    (t, acc.2.1 + d.toNat * 2 ^ (64 * i), acc.2.2 && good)) (s, 0, true)
  (s, if ok then rcOk else rcIntegrity, if ok then BitVec.ofNat 512 n else 0)

/-- Eight word writes of a line. -/
def writeWords (f : Nat → State → State × Bool) (s : State) : State × Nat :=
  let (s, ok) := (List.range 8).foldl (fun (acc : State × Bool) i =>
    let (t, good) := f i acc.1
    (t, acc.2 && good)) (s, true)
  (s, if ok then rcOk else rcIntegrity)

/-- READ and WRITE of one line of the block-memory window: byte offset in the window. -/
def bramLineRead (off mid : Nat) (s : State) : State × Nat × Line :=
  readWords (fun i => bramWindowRead (off / 4096) (off % 4096 / 64 * 8 + i) mid) s
def bramLineWrite (off mid : Nat) (data : Line) (be : BitVec 64) (s : State) : State × Nat :=
  writeWords (fun i => bramWindowWrite (off / 4096) (off % 4096 / 64 * 8 + i) mid (lineWord data i) (lineBe be i)) s

/-- A block memory cleared to zero with valid codes (R213). -/
def clearBram (m : Nat) (s : State) : State :=
  noteCleared (m / 256) (fun w => w.kind == 2 && w.loc / 256 % 256 == m % 256)
    (modBram m (fun b => { b with words := [], injected := [] }) s)

/-! ### Ingot banks (R207 to R212) -/

/-- Bytes in a bank. -/
def bankBytes : Nat := 4194304

/-- The banks in service, in increasing number (R211). -/
def State.activeBanks (s : State) : List Nat := (List.range 64).filter (fun b => !s.ingot.retired.contains b)

/-- Bank and offset of an offset in the interleaved view; none beyond the active set (R211). -/
def interleave (s : State) (off : Nat) : Option (Nat × Nat) :=
  let set := s.activeBanks
  let n := set.length
  let p := off / 4096
  if p < 1024 * n then some (lget 0 set (p % n), p / n * 4096 + off % 4096) else none

/-- Bank and offset of an offset in the local view; none for a retired bank (R212). -/
def localBank (s : State) (off : Nat) : Option (Nat × Nat) :=
  if s.ingot.retired.contains (off / bankBytes) then none else some (off / bankBytes, off % bankBytes)

/-- Key of a byte of a bank. -/
def ingotKey (bank off : Nat) : Nat := bank * bankBytes + off

/-- The 256-bit bank line that holds an offset, as stored. -/
def IngotSt.half (g : IngotSt) (bank off : Nat) : BitVec 256 :=
  BitVec.ofNat 256 (leNat (rdBytes g.mem (ingotKey bank (off / 32 * 32)) 32))

/-- The bank grants a master (R209). -/
def ingotGrant (bank mid : Nat) (s : State) : State := modIngot (fun g => { g with grant := tset 95 g.grant bank mid }) s

/-- The event of R208. -/
def ingotEvent (bank off mid : Nat) (injected : Bool) : EvRec :=
  { cls := 4, sev := 3, code := 0x0802, kind := 10, src := bank, injected := injected,
    details := [(1, bank), (4, off), (1, mid)] }

/-- A bank line written whole with fresh check bits. -/
def ingotPut (bank off : Nat) (v : BitVec 256) (s : State) : State :=
  let a := ingotKey bank (off / 32 * 32)
  noteWrite (.region bank) (ingotRef (off / 32 * 32)) (modIngot (fun g =>
    { g with mem := wrBytes g.mem a (bytesOf v 32), syn := tset 0 g.syn (a / 32) 0,
             injected := g.injected.filter (· != a / 32) }) s)

/-- A bank line read: the data delivered and whether it is good (R208, R400). -/
def ingotFetch (bank off mid : Nat) (fettler : Bool) (s : State) : State × BitVec 256 × GridOut :=
  let a := ingotKey bank (off / 32 * 32)
  let out := decodeSyn 16 (tget 0 s.ingot.syn (a / 32)).toNat
  let inj := s.ingot.injected.contains (a / 32)
  let data := correctBits (s.ingot.half bank off) out
  let (s, back) := noteRead (.region bank) (ingotRef (off / 32 * 32)) out inj fettler s
  let s := onlyIf back (ingotPut bank off data) s
  (onlyIf (decide (out = .uncorrectable) && !fettler) (raise (ingotEvent bank (off / 32 * 32) mid inj)) s, data, out)

/-- READ of one Runner line of a bank. -/
def ingotLineRead (bank off mid : Nat) (s : State) : State × Nat × Line :=
  let s := ingotGrant bank mid s
  let off := off / 64 * 64
  let (s, a, o1) := ingotFetch bank off mid false s
  let (s, b, o2) := ingotFetch bank (off + 32) mid false s
  if o1 = .uncorrectable ∨ o2 = .uncorrectable then (s, rcIntegrity, 0) else (s, rcOk, b ++ a)

/-- WRITE of one Runner line of a bank (R207): every partial half is read before either is written. -/
def ingotLineWrite (bank off mid : Nat) (data : Line) (be : BitVec 64) (s : State) : State × Nat :=
  let off := off / 64 * 64
  let halfBe := fun (i : Nat) => be.extractLsb' (32 * i) 32
  let partialHalf := fun (i : Nat) => halfBe i != 0#32 && halfBe i != BitVec.allOnes 32
  let fetch := fun (i : Nat) (s : State) =>
    if partialHalf i then ingotFetch bank (off + 32 * i) mid false s else (s, s.ingot.half bank (off + 32 * i), .clean)
  if be = 0 then (s, rcOk)
  else
    let s := ingotGrant bank mid s
    let (s, a, o1) := fetch 0 s
    let (s, b, o2) := fetch 1 s
    if o1 = .uncorrectable ∨ o2 = .uncorrectable then (s, rcIntegrity)
    else
      let s := onlyIf (halfBe 0 != 0#32) (ingotPut bank off (mergeBytes a (data.extractLsb' 0 256) (halfBe 0))) s
      let s := onlyIf (halfBe 1 != 0#32) (ingotPut bank (off + 32) (mergeBytes b (data.extractLsb' 256 256) (halfBe 1))) s
      (s, rcOk)

/-- Width in bytes of an atomic's word. -/
def atomicWidth : RunOp → Nat
  | .add64 | .swap64 => 8
  | _ => 4

/-- The new word of an atomic (R34, R208). -/
def atomicNew (op : RunOp) (old operand : Nat) : Nat :=
  match op with
  | .add32 => (old + operand) % 2 ^ 32
  | .add64 => (old + operand) % 2 ^ 64
  | _ => operand

/-- An atomic at an aligned address of a bank (R208): the response holds the old value in its byte lanes. -/
def ingotAtomic (op : RunOp) (bank off mid : Nat) (operand : Line) (s : State) : State × Nat × Line :=
  let s := ingotGrant bank mid s
  let n := atomicWidth op
  let (s, v, out) := ingotFetch bank off mid false s
  if out = .uncorrectable then (s, rcIntegrity, 0)
  else
    let i := off % 32
    let old := fieldOf v i n
    let s := ingotPut bank off (putField v i n (atomicNew op old (fieldOf operand (off % 64) n))) s
    (s, rcOk, BitVec.ofNat 512 (old * 2 ^ (8 * (off % 64))))

/-- Bank cycles of a WRITE half (Table 8.6). -/
def halfCycles (be : BitVec 32) : Nat := if be = BitVec.allOnes 32 then 1 else if be = 0 then 0 else 2

/-- Bank cycles of a request's next grant (Table 8.6). -/
def IngotJob.cycles (j : IngotJob) : Nat :=
  match j.op with
  | .write =>
    let be := ((j.lines.map (·.2)).headD 0)
    halfCycles (be.extractLsb' 0 32) + halfCycles (be.extractLsb' 32 32)
  | _ => 2

/-- The request that is granted next: of the waiting master IDs the one that follows the last granted in round-robin order, and
of it the oldest (R209). -/
def nextGrant (last : Nat) : List IngotJob → Option IngotJob
  | [] => none
  | j :: js => some (js.foldl (fun best k => if (k.mid + 95 - last) % 96 < (best.mid + 95 - last) % 96 then k else best) j)

/-- One line or one atomic at a bank: the state, its code and the line it answers. -/
def ingotLine (bank : Nat) (j : IngotJob) (s : State) : State × Nat × Line :=
  let l := j.lines.headD (0, 0)
  match j.op with
  | .read => ingotLineRead bank j.off j.mid s
  | .write => let (s, c) := ingotLineWrite bank j.off j.mid l.1 l.2 s; (s, c, 0)
  | op => ingotAtomic op bank j.off j.mid l.1 s

/-- The lines that a request answers when all of its own are done: a READ each, a WRITE the code of the lowest refused (R39). -/
def IngotJob.answer (j : IngotJob) : List RLine :=
  match j.op with
  | .write => [(j.got.find? (fun l => l.code != 0#3)).getD ⟨0, 0⟩]
  | _ => j.got

/-- One grant of a bank (R207 to R210): its line is done, and every other master that waits has waited its cycles. -/
def ingotServe (bank : Nat) (s : State) : State :=
  let jobs := tget [] s.ingot.waiting bank
  match nextGrant (tget 95 s.ingot.grant bank) jobs with
  | none => s
  | some j =>
    let others := ((jobs.map (·.mid)).eraseDups).filter (· != j.mid)
    let (s, c, d) := ingotLine bank j s
    let k := { j with off := j.off + 64, lines := j.lines.drop 1, left := j.left - 1
                      got := j.got ++ [⟨BitVec.ofNat 3 c, if c = rcOk then d else 0⟩] }
    let jobs := if k.left = 0 then jobs.filter (fun x => x.req != j.req) else jobs.map (fun x => if x.req = j.req then k else x)
    let s := modIngot (fun g => { g with
      waiting := tset [] g.waiting bank jobs
      conflicts := others.foldl (fun t i => tmod 0 t i (fun n => satAdd 4294967295 n j.cycles)) g.conflicts }) s
    onlyIf (decide (k.left = 0)) (answerOutst j.req k.answer) s

/-- The bank serves everything that waits at it. -/
def runBank (bank : Nat) (s : State) : State :=
  iter (ingotServe bank) (((tget [] s.ingot.waiting bank).map (·.left)).foldl (· + ·) 0) s

/-- Requests that wait at the memories of a region wait no longer: they have been answered otherwise (R18, R20). -/
def dropWaiting (r : Nat) (s : State) : State :=
  let s := modIngot (fun g => { g with waiting := tset [] g.waiting r [] }) s
  { s with brams := s.brams.map (fun e =>
      if e.1 / 256 = r then (e.1, { e.2 with maint := [], scrub := none, keepB := false, half := none, starve := 0 }) else e) }

/-- A bank cleared to zero with valid codes (R213). -/
def clearIngot (bank : Nat) (s : State) : State :=
  modIngot (fun g => { g with
    mem := zeroBytes g.mem (ingotKey bank 0) bankBytes
    syn := tclear g.syn (ingotKey bank 0 / 32) (ingotKey (bank + 1) 0 / 32)
    injected := g.injected.filter (fun k => k / 131072 != bank) }) s

/-! ### DSP engine memories (R215 to R219) -/

/-- The event of R219; memory 0 program, 1 data. -/
def dspMemEvent (id : Nat) (prog : Bool) (w mid : Nat) (injected : Bool) : EvRec :=
  { cls := 4, sev := 3, code := 0x0902, kind := 12, src := id, injected := injected,
    details := [(2, id), (1, bit (!prog)), (2, w), (1, mid)] }

/-- Records what a read of an engine memory met (R219, R400, R409). -/
def dspNote (id : Nat) (n : MemNote) (mid : Nat) (fettler : Bool) (s : State) : State :=
  let ref := dspRef n.prog (id % 32) n.word
  let (s, back) := noteRead (.region (id / 32)) ref n.out n.injected fettler s
  let s := onlyIf back (modEngine id (fun e => e.putWord n.prog n.word (e.readWord n.prog n.word).1)) s
  onlyIf (decide (n.out = .uncorrectable) && !fettler) (raise (dspMemEvent id n.prog n.word mid n.injected)) s

/-- One word of a Runner READ. -/
def dspWordRead (id : Nat) (prog : Bool) (w mid : Nat) (s : State) : State × BitVec 64 × Bool :=
  let e := s.engine id
  let (v, out) := e.readWord prog w
  (dspNote id (e.noteOf prog w out) mid false s, v, out != .uncorrectable)

/-- A whole word written with fresh check bits. -/
def dspPut (id : Nat) (prog : Bool) (w : Nat) (v : BitVec 64) (s : State) : State :=
  noteWrite (.region (id / 32)) (dspRef prog (id % 32) w) 
    (modEngine id (fun e => (if prog then e.keepOld w else e).putWord prog w v) s)

/-- One word of a Runner WRITE (R216). -/
def dspWordWrite (id : Nat) (prog : Bool) (w mid : Nat) (d : BitVec 64) (be : BitVec 8) (s : State) : State × Bool :=
  if be = 0 then (s, true)
  else if be = BitVec.allOnes 8 then (dspPut id prog w d s, true)
  else
    let (s, old, good) := dspWordRead id prog w mid s
    if good then (dspPut id prog w (mergeBytes old d be) s, true) else (s, false)

/-- Memory and word of an offset in an engine's window; none for a reserved offset (Table 2.8). -/
def dspPlace (off : Nat) : Option (Bool × Nat) :=
  if off < 0x4000 then some (true, off / 8)
  else if 0x8000 ≤ off ∧ off < 0x10000 then some (false, (off - 0x8000) / 8) else none

/-- READ and WRITE of one line of an engine memory; the line's first word. -/
def dspLineRead (id : Nat) (prog : Bool) (w mid : Nat) (s : State) : State × Nat × Line :=
  readWords (fun i => dspWordRead id prog (w / 8 * 8 + i) mid) s
def dspLineWrite (id : Nat) (prog : Bool) (w mid : Nat) (data : Line) (be : BitVec 64) (s : State) : State × Nat :=
  writeWords (fun i => dspWordWrite id prog (w / 8 * 8 + i) mid (lineWord data i) (lineBe be i)) s

/-! ### What resets and exits clear (R213, R220) -/

/-- Every block memory, engine memory and the Ingot bank of a region cleared, as on an exit from COLD. -/
def clearDragMemories (r : Nat) (s : State) : State :=
  let s := forBelow 256 (fun m => clearBram (256 * r + m)) s
  let s := forBelow 32 (fun j => modEngine (32 * r + j) Engine.clearMems) s
  noteCleared r (fun w => w.kind != 1) (clearIngot r s)

end Sys2Proof.Machine
end

