-- ==== Sys2Proof/Machine/LibOps.lean ====
section
/-! DEFINITION. The pattern library as fills read and loads write it (R130, R131, R175 to R184), the defect map
(R123, R124) and the filling of one plane. -/

namespace Sys2Proof.Machine

/-! ### Frames and entries -/

/-- Class B regions: the south row (R14). -/
def classB (r : Nat) : Bool := decide (r < 8)

/-- Frames in a pattern: Cope frames 0 to 4,607, then Drag frames 0 to 1,535. -/
def patternFrames : Nat := 6144

/-- Key of pattern frame `n` in a plane's table: tier × 8192 + index (R175). -/
def frameKey (n : Nat) : Nat := if n < 4608 then n else 8192 + (n - 4608)

/-- Number of the frame with a key; none for an index beyond its tier. -/
def frameNumber (key : Nat) : Option Nat :=
  if key < 4608 then some key
  else if 8192 ≤ key ∧ key < 8192 + 1536 then some (4608 + (key - 8192)) else none

/-- Frame address of a frame of a region (R175). -/
def frameAddr (r key : Nat) : Nat := r * 16384 + key

/-- Entry states (Table 7.6). -/
def entryEmpty : BitVec 2 := 0
def entryLoading : BitVec 2 := 1
def entryReady : BitVec 2 := 2

/-- Bytes of an entry, and its address (R181); the frames stand in it in the order of their numbers
(notes/assumptions/14.md). -/
def entryBytes : Nat := 3244032
def entryAddr (s : State) (i : Nat) : Nat := (s.range 0).base + 262144 + i * entryBytes

/-- May an entry be placed in a region (R130 step 1)? -/
def LibEntry.fits (e : LibEntry) (r : Nat) : Bool :=
  let p := e.placement.toNat
  if p < 64 then p == r else if p == 0x40 then !classB r else if p == 0x41 then classB r else false

/-- Does a placement permit a region? -/
def placementFits (p r : Nat) : Bool := ({ placement := BitVec.ofNat 8 p } : LibEntry).fits r

/-- A frame from its 528 bytes: data, then the check bits. -/
def frameOf (bs : List Byte) : Frame :=
  let data := BitVec.ofNat 4096 (leNat (bs.take 512))
  { data := data, syn := BitVec.ofNat 128 (leNat (bs.drop 512) ^^^ gridCheck 64 data.toNat) }

/-- The 528 bytes of a frame. -/
def frameBytes (f : Frame) : List Byte :=
  bytesOf f.data 512 ++ leBytes 16 (f.syn.toNat ^^^ gridCheck 64 f.data.toNat)

/-! ### Reading an entry -/

/-- What reading an entry page by page has gathered: plain bytes by offset, and the offset of a Runner error. -/
structure EntryRead where
  plain : Memory := []
  bad : Option Nat := none

/-- The lines of one page whose path has verified. -/
def readPageLines (ri mid a off : Nat) (leaf : List Byte) (lines : List Nat) (acc : State × EntryRead) :
    State × EntryRead :=
  lines.foldl (fun acc k =>
    let (s, e) := acc
    if e.bad.isSome then acc
    else if minorAt leaf k = 0 then (bumpRange ri 0 1 s, e)
    else match openLine s.hbm (s.range ri) (a + 64 * k) leaf with
      | none => (lineFailure ri (a + 64 * k) mid 0 (touchTagged (s.range ri) (a + 64 * k) s), { e with bad := some (off + 64 * k) })
      | some bs =>
        let cells := (bs.zipIdx.filter (fun b => b.1 != 0)).map (fun b => (off + 64 * k + b.2, b.1))
        (touchTagged (s.range ri) (a + 64 * k) s, { e with plain := e.plain ++ cells })) acc

/-- One page of an entry, as a request of master `mid` meets it (R381, R388 to R390). -/
def readPage (mid a off : Nat) (acc : State × EntryRead) : State × EntryRead :=
  let (s, e) := acc
  let r := s.range 0
  let page := r.pageOf a
  if e.bad.isSome then acc
  else if !r.defined then (s, { e with bad := some off })
  else if s.dev.rangesClosed then (rangeRefusal 0 a mid s, { e with bad := some off })
  else if s.poisoned 0 page then (poisonAccess 0 a mid s, { e with bad := some off })
  else
    let t := touchPath r page (pathOf s.hbm r page) s
    match pathOf s.hbm r page with
    | .failed k j => (itemFailure 0 k j mid t, { e with bad := some off })
    | .ok leaf => readPageLines 0 mid a off leaf (List.range 64) (t, e)

/-- A whole entry read by a master (R130 step 2). -/
def readEntry (mid i : Nat) (s : State) : State × EntryRead :=
  (List.range 792).foldl (fun acc p => readPage mid (entryAddr s i + 4096 * p) (4096 * p) acc) (s, {})

/-- What a copy of an entry into a plane ends with (R130, R131). -/
inductive Copied where
  | ok (frames : Table Frame) (corrected : Nat)
  /-- The frame address and the cause of Table 7.7. -/
  | failed (addr cause : Nat)

/-- The frames that hold a byte other than zero, in rising order. -/
def touchedFrames (m : Memory) : List Nat := (m.map (fun c => c.1 / 528)).eraseDups

/-- Steps 2 and 3 of R130 on an entry's plain bytes. -/
def decodeFrames (r : Nat) (e : EntryRead) : Copied :=
  let all := touchedFrames e.plain
  let stop := match e.bad with
    | none => patternFrames
    | some off => off / 528
  let (t, n, bad) := (all.filter (fun k => decide (k < stop))).foldl
    (fun (acc : Table Frame × Nat × Option Nat) k =>
      match acc.2.2 with
      | some _ => acc
      | none =>
        let f := frameOf (rdBytes e.plain (528 * k) 528)
        match decodeSyn 64 f.syn.toNat with
        | .uncorrectable => (acc.1, acc.2.1, some k)
        | .clean => (acc.1 ++ [(frameKey k, { data := f.data })], acc.2.1, none)
        | out => (acc.1 ++ [(frameKey k, { data := correctBits f.data out })], acc.2.1 + 1, none)) ([], 0, none)
  match bad with
  | some k => .failed (frameAddr r (frameKey k)) 0x0C
  | none =>
    match e.bad with
    | some off => .failed (frameAddr r (frameKey (off / 528))) 0x01
    | none => .ok (t.filter (fun f => decide (f.2 ≠ {}))) n

/-- Copies entry `i` for region `r` through its plane-fill port. -/
def copyEntry (r i : Nat) (s : State) : State × Copied :=
  if (s.entry i).st ≠ entryReady then (s, .failed (frameAddr r 0) 0x11)
  else
    let (s, e) := readEntry r i s
    (s, decodeFrames r e)

/-- The LUT bits of a cell as its frames hold them (R85 to R87). -/
def lutFrom (frames : Table Frame) (c : Nat) : BitVec 64 :=
  BitVec.ofNat 64 ((List.range 64).foldl (fun v i =>
    let (f, b) := Config.lutBit c i
    if (tget {} frames f).data.getLsbD b then v + 2 ^ i else v) 0)

/-- The frame data that the frame map decodes (R546); a cell's LUT bits are those at their places in the frames, which a
LUT-RAM write changes (R87). -/
def useOf (r : Nat) (frames : Table Frame) : PlaneUse :=
  let u := Config.frameUse (classB r) (frames.map (fun f => (f.1, f.2.data)))
  { u with cells := u.cells.map (fun e => (e.1, { e.2 with lut := lutFrom frames e.1 })) }

/-- Flip-flop states at the initial values of a plane (R92). -/
def initFf (u : PlaneUse) : Table Bool := u.ffInit.foldl (fun t k => tset false t k true) []

/-- A plane's contents after a copy. -/
def filledPlane (r i : Nat) (frames : Table Frame) (p : Plane) : Plane :=
  let u := useOf r frames
  { p with use := u, libIndex := some i, frames := frames, ff := initFf u, changed := [], excluded := [],
           kept := true }

/-! ### The defect map (R123, R124) -/

/-- The defect map: fuse entries first, then the recorded ones. -/
def State.defectMap (s : State) (r : Nat) : List (BitVec 32) :=
  (s.env.fuses.defects.filter (fun e => e.1 == r)).map (·.2) ++ (s.region r).defects

/-- Does a plane use a listed resource (R124)? -/
def PlaneUse.hits (u : PlaneUse) (d : BitVec 32) : Bool :=
  match (d.extractLsb' 30 2).toNat with
  | 0 =>
    let lx := (d.extractLsb' 15 6).toNat
    let ly := (d.extractLsb' 10 5).toNat
    let wire := (d.extractLsb' 0 5).toNat
    match (d.extractLsb' 5 5).toNat with
    | 0 => u.xbar.any (fun e => decide (e.1 = 64 * ly + lx) && e.2.1 == .down wire)
    | 1 => u.box.any (fun e => decide (e.1 = 64 * ly + lx) && e.2.1 == .up wire)
    | bundle => u.bonds.contains (lx, ly, bundle, wire)
  | 1 => (u.bram (d.extractLsb' 0 8).toNat).isSome
  | _ => false

/-- Is a plane barred by the region's map? -/
def State.barredBy (s : State) (r : Nat) (u : PlaneUse) : Bool := (s.defectMap r).any u.hits

end Sys2Proof.Machine
end

