-- ==== Sys2Proof/Machine/Operands.lean ====
section
/-! DEFINITION. The operand forms of a Runner request: the decoding of its address (R53 to R55, Table 2.8), its
master (Table 2.6) and its rights (Table 2.7, R381), the power answer of a region's Drag part (R18, R43, R191), and
the requests outstanding at a port. -/

namespace Sys2Proof.Machine

/-! ### Addresses -/

/-- The target of a Runner address (Table 2.8). -/
inductive Target where
  | hbm (a : Nat)
  | ingotView (off : Nat)
  | ingotLocal (off : Nat)
  | bram (off : Nat)
  | dsp (engine off : Nat)
  | riser (q off : Nat)
  | regs (off : Nat)
  | remote (node off : Nat)
  | nothing
deriving DecidableEq, Repr

/-- Decodes an address (R53, R55). -/
def decodeAddr (a : Nat) : Target :=
  if 2 ^ 48 ≤ a then .remote (a / 2 ^ 30 % 2 ^ 18) (a % 2 ^ 30)
  else if a < 0x1200000000 then .hbm a
  else if 0x2000000000 ≤ a ∧ a < 0x2010000000 then .ingotView (a - 0x2000000000)
  else if 0x2010000000 ≤ a ∧ a < 0x2020000000 then .ingotLocal (a - 0x2010000000)
  else if 0x2100000000 ≤ a ∧ a < 0x2104000000 then .bram (a - 0x2100000000)
  else if 0x2200000000 ≤ a ∧ a < 0x2208000000 then
    match dspPlace ((a - 0x2200000000) % 65536) with
    | some _ => .dsp ((a - 0x2200000000) / 65536) ((a - 0x2200000000) % 65536)
    | none => .nothing
  else if 0x2300000000 ≤ a ∧ a < 0x2301000000 then .riser ((a - 0x2300000000) / 4096) ((a - 0x2300000000) % 4096)
  else if 0x3000000000 ≤ a ∧ a < 0x3001000000 then .regs (a - 0x3000000000)
  else .nothing

/-- The bank and offset of an Ingot address, if one serves it. -/
def ingotPlace (s : State) : Target → Option (Nat × Nat)
  | .ingotView off => interleave s off
  | .ingotLocal off => localBank s off
  | _ => none

/-- The region whose Drag part serves a target, and whether it is its Ingot bank. -/
def dragRegion (s : State) (t : Target) : Option (Nat × Bool) :=
  match t with
  | .ingotView _ | .ingotLocal _ => (ingotPlace s t).map (fun p => (p.1, true))
  | .bram off => some (off / 1048576, false)
  | .dsp e _ => some (e / 32, false)
  | _ => none

/-! ### Masters and rights -/

/-- Master ID (Table 2.6). -/
def masterOf : Source → Nat
  | .fabric r _ => r.val
  | .dsp e => e.val / 32
  | .fillPort r => r.val
  | .cupola => 64
  | .host | .mb0 => 65
  | .ladle => 66
  | .fettler => 67
  | .riser => 68
  | .sprue => 69
  | .mb3 => 70
  | .rekey => 71

/-- The region at whose stop a request enters the mesh: a fabric port's, an engine's and a fill port's own, and for a
request of the Fettler to a region's Drag part that region's, through its scrubber port (R544). -/
def stopOf (s : State) (h : ReqHdr) : Option Nat :=
  match h.src with
  | .fabric r _ => some r.val
  | .dsp e => some (e.val / 32)
  | .fillPort r => some r.val
  | .fettler => (dragRegion s (decodeAddr h.addr.toNat)).map (·.1)
  | _ => none

/-- Does an exported window hold a local address (R330)? -/
def inWindow (s : State) (a : Nat) : Bool :=
  s.sys.windows.any (fun w => decide (w.2.base ≤ a) && decide (a < w.2.base + 4096 * w.2.pages))

/-- Does the spill area hold an HBM address (R360)? -/
def inSpill (s : State) (a : Nat) : Bool :=
  decide (s.riser.spillBase ≤ a) && decide (a < s.riser.spillBase + 4096 * s.riser.spillPages)

/-- What the checks of rights answer. -/
inductive Right where
  | granted
  | refused
  /-- Refused at a protected range (R381). -/
  | byRange (r : Nat)
deriving DecidableEq, Repr

/-- Rights to a protected range (Table 2.7, R381, R60). -/
def rangeRight (s : State) (src : Source) (wr : Bool) (ri a : Nat) : Bool :=
  let r := s.range ri
  match src with
  | .fettler | .rekey => true
  | _ =>
    !s.dev.rangesClosed && r.inData a &&
    match src with
    | .fabric n _ => r.mask.getLsbD n.val
    | .dsp e => r.mask.getLsbD (e.val / 32)
    | .fillPort _ => ri == 0 && !wr
    | .cupola => true
    | .ladle => ri == 0
    | _ => false

/-- The rights of Table 2.7. -/
def rightTo (s : State) (src : Source) (wr : Bool) (a : Nat) : Right :=
  let ok := fun (b : Bool) => if b then Right.granted else Right.refused
  match decodeAddr a with
  | .hbm h =>
    match s.rangeOf h with
    | some ri =>
      if (s.range ri).removing && src != .fettler && src != .rekey then .byRange ri
      else if rangeRight s src wr ri h then .granted else .byRange ri
    | none => ok (match src with
      | .fillPort _ => false | .riser => inSpill s h | .sprue => inWindow s a | _ => true)
  | .ingotView _ | .ingotLocal _ | .bram _ | .dsp _ _ => ok (match src with
      | .fillPort _ | .rekey | .riser => false | .sprue => inWindow s a | _ => true)
  | .riser _ _ => ok (match src with
      | .fabric _ _ | .dsp _ | .cupola | .host | .mb0 | .mb3 => true | .sprue => inWindow s a | _ => false)
  | .regs _ => ok (match src with
      | .cupola | .host | .mb0 | .mb3 => true | _ => false)
  | .remote _ _ => ok (match src with
      | .fabric _ _ | .dsp _ | .cupola => true | _ => false)
  | .nothing => .granted

/-! ### A region's power as requests meet it -/

/-- BANKED and below. -/
def Power.low : Power → Bool
  | .active | .gated => false
  | _ => true

/-- SHELVED and COLD, which power down the Drag part. -/
def Power.deep : Power → Bool
  | .shelved | .cold => true
  | _ => false

/-- `POWER` codes (Table 6.4). -/
def Power.code : Power → Nat
  | .active => 0 | .gated => 1 | .banked => 2 | .damped => 3 | .shelved => 4 | .cold => 5
def Power.ofCode (n : Nat) : Option Power :=
  match n with
  | 0 => some .active | 1 => some .gated | 2 => some .banked | 3 => some .damped | 4 => some .shelved
  | 5 => some .cold | _ => none

/-- Quiescing or saving (R19, R20). -/
def Region.quiescing (r : Region) : Bool :=
  match r.trans with
  | some (.quiescing _) | some .saving => true
  | _ => false

/-- A tier reset of the Drag part has begun (R18); of the Cope part (R17). -/
def Region.dragReset (r : Region) : Bool := r.resets.any (fun j => j.begun && decide (j.scope ≠ .cope))
def Region.copeReset (r : Region) : Bool := r.resets.any (fun j => j.begun && decide (j.scope ≠ .drag))

/-- Steps 1 to 4 of a `LOAD_ACTIVE` run (R190): the load, then the wait for the slot boundary that releases the region. -/
def Region.loadingActive (r : Region) : Bool :=
  r.freeDue.contains .load || (match r.fill with
  | some f => f.active
  | none => false)

/-- How a request to a region's Drag part is answered. -/
inductive Gate where
  | serve | hold | asleep | reset
deriving DecidableEq, Repr

/-- The answer of R18, R19, R43, R191 and R444, and whether the request wakes the region or reverses its entry.
`stopped`: the fabric clock has stopped for the entry in progress. -/
def Region.gate (r : Region) (ingot stopped : Bool) : Gate × Bool :=
  if r.dragReset then (.reset, false)
  else if r.loadingActive && !ingot then (.reset, false)
  else match r.trans with
    | some (.quiescing _) | some .saving => (.hold, false)
    | some (.exiting left) => if left.deep then (.asleep, false) else (.hold, false)
    | some (.entering dest) =>
      match dest with
      | .shelved | .cold => if r.power.deep then (.asleep, false) else (.hold, false)
      | .active | .gated => (.serve, false)
      | .banked | .damped => if !stopped then (.serve, false) else if r.wake then (.hold, true) else (.asleep, false)
    | none =>
      match r.power with
      | .active | .gated => (.serve, false)
      | .banked | .damped => if r.wake then (.hold, true) else (.asleep, false)
      | .shelved | .cold => (.asleep, r.wake)

/-! ### Outstanding requests -/

/-- Lines of a request. -/
def lineCount (h : ReqHdr) : Nat := h.len.val + 1

/-- The outstanding request of a source with a tag. -/
def sameReq (src : Source) (tag : Fin 64) (o : Outst) : Bool :=
  decide (o.hdr.src = src) && decide (o.hdr.tag = tag) && !o.gone
def State.outst (s : State) (src : Source) (tag : Fin 64) : Option Outst := s.runner.outst.find? (sameReq src tag)

/-- Response lines a request is owed: one a line for a READ, one for anything else (R39). -/
def owed (o : Outst) : Nat := if o.op = .read then lineCount o.hdr else 1

/-- The same code, and no data, on every line owed. -/
def flatResp (o : Outst) (code : Nat) : List RLine :=
  .replicate (owed o) ⟨BitVec.ofNat 3 code, 0⟩

/-- The request is answered on every line with a code. -/
def answerAll (code : Nat) (o : Outst) : Outst :=
  { o with resp := some (flatResp o code), heldFor := none, heldPop := none, heldPage := none }

/-- Lines still owed to the requester. -/
def linesOwed (o : Outst) : Nat := match o.resp with | some ls => ls.length | none => owed o

/-- The request completes with a code on every line that has not been transferred yet (R18, R20). -/
def endRest (code : Nat) (o : Outst) : Outst :=
  { o with resp := some (.replicate (linesOwed o) ⟨BitVec.ofNat 3 code, 0⟩), heldFor := none, heldPop := none, heldPage := none }

/-- Runner counters of a region's stop (Table 2.9). -/
def bumpStop (r i n : Nat) (s : State) : State :=
  modRunner (fun u => { u with counters := tmod [0, 0, 0, 0, 0, 0, 0, 0] u.counters r (fun l => bump l i n) }) s

/-- Does the request go to the Drag part of region `r`? -/
def Outst.toDrag (o : Outst) (s : State) (r : Nat) : Bool :=
  match dragRegion s (decodeAddr o.hdr.addr.toNat) with
  | some (n, _) => n == r
  | none => false

/-- Does the request enter at the stop of region `r`? -/
def Outst.fromRegion (o : Outst) (s : State) (r : Nat) : Bool := decide (stopOf s o.hdr = some r)

/-- From a fabric port of region `r`? -/
def Outst.fromFabric (o : Outst) (r : Nat) : Bool :=
  match o.hdr.src with
  | .fabric n _ => n.val == r
  | _ => false

/-- What an entry into GATED, BANKED or DAMPED waits for (R439): no request of the fabric ports that has not been
answered, other than remote ones the Sprue engine has accepted. -/
def drained (r : Nat) (s : State) : Bool :=
  !s.runner.outst.any (fun o => o.fromFabric r && o.resp.isNone && !o.accepted)

/-- The fabric clock has stopped for an entry that is in progress (R439). -/
def entryStopped (r : Nat) (s : State) : Bool :=
  match (tget {} s.regions r).trans with
  | some (.entering _) => drained r s
  | _ => false

/-- A transfer outstanding to, from or through a region: its last line has not been transferred, and it is no arrival
that the stop holds (R19, R20). -/
def Outst.passes (o : Outst) (s : State) (r : Nat) : Bool :=
  !o.gone && decide (o.heldFor ≠ some r) && (o.fromRegion s r || o.toDrag s r)

/-- The reset shield closes: every transfer still outstanding to, from or through the region completes with
`PATH_RESET` (R20). -/
def shieldRequests (r : Nat) (s : State) : State :=
  dropWaiting r (mapOutst (fun o => if o.passes s r then endRest rcPathReset o else o) s)

/-- The region's fabric clock runs (R59, R72, R190, R439): ACTIVE, no load in progress, and for an entry in progress the
clock has not stopped yet; it runs on in a quiesce, for the responses that R19 waits for. -/
def fabricClocked (s : State) (r : Nat) : Bool :=
  let x := tget {} s.regions r
  s.awake && s.regionsRun && decide (x.power = .active) && x.clockOn && !x.shieldClosed && !x.loadingActive
    && !entryStopped r s && match x.trans with
      | some .saving | some (.exiting _) => false
      | _ => true

end Sys2Proof.Machine
end

