-- ==== Sys2Proof/Machine/Routing.lean ====
section
/-! DEFINITION. The fabric's signals as its routing brings them (chapters 4 and 5): the wires of Table 5.1, the crossbars and Drag
switch boxes (R104 to R109), the direct-access signals of the hard ports (R110, R111), the spines (R113 to R116), the border
cells (R118 to R121), and the cells' functions (R79 to R84, R95). -/

namespace Sys2Proof.Machine

/-! ### Wires (R105, R106, Table 5.1) -/

/-- Blocks that a wire spans. -/
def Span.blocks : Span → Nat
  | .one => 1 | .two => 2 | .four => 4 | .sixteen => 16 | .sixtyFour => 64

/-- Distances from its start at which a wire can be read: its taps and its end. -/
def Span.reads : Span → List Nat
  | .one => [1] | .two => [1, 2] | .four => [2, 4] | .sixteen => [8, 16] | .sixtyFour => [16, 32, 48, 64]

/-- Wires of a span that a block starts in each direction. -/
def Span.count : Span → Nat
  | .one => 16 | .two => 8 | .four => 8 | .sixteen => 2 | .sixtyFour => 1

/-- A wire of the Drag die. -/
def Span.onDrag : Span → Bool
  | .sixteen | .sixtyFour => true
  | _ => false

/-- The wire is one of Table 5.1; it can be read at a distance. -/
def Wire.exists_ (w : Wire) : Bool := decide (w.n < w.span.count)
def Wire.readAt (w : Wire) (dist : Nat) : Bool := w.exists_ && w.span.reads.contains dist

/-- The block `k` blocks behind a block, against a direction; none beyond the device edge. -/
def Dir.behind (d : Dir) (x y k : Nat) : Option (Nat × Nat) :=
  match d with
  | .east => if k ≤ x then some (x - k, y) else none
  | .west => if x + k < 512 then some (x + k, y) else none
  | .north => if k ≤ y then some (x, y - k) else none
  | .south => if y + k < 256 then some (x, y + k) else none

/-- Blocks of the same region behind a block, against a direction. -/
def Dir.inside (d : Dir) (x y : Nat) : Nat :=
  match d with
  | .east => x % 64 | .west => 63 - x % 64 | .north => y % 32 | .south => 31 - y % 32

/-- Place of a block along the border that a wire of this direction enters through. -/
def Dir.place (d : Dir) (x y : Nat) : Nat :=
  match d with
  | .east | .west => y % 32
  | .north | .south => x % 64

/-- The region that wires of a direction come from into region `r`; none at the device edge. -/
def Dir.from_ (d : Dir) (r : Nat) : Option Nat :=
  match d with
  | .east => if r % 8 = 0 then none else some (r - 1)
  | .west => if r % 8 = 7 then none else some (r + 1)
  | .north => if r < 8 then none else some (r - 8)
  | .south => if 56 ≤ r then none else some (r + 8)

/-- The region of a block (Table 0.4), and the number of the block in it. -/
def regionAt (x y : Nat) : Nat := x / 64 + 8 * (y / 32)
def blockAt (x y : Nat) : Nat := 64 * (y % 32) + x % 64

/-- Coordinates of block `b` of region `r`. -/
def blockX (r b : Nat) : Nat := 64 * (r % 8) + b % 64
def blockY (r b : Nat) : Nat := 32 * (r / 8) + b / 64

/-! ### Hard ports (R110, R111, Table 5.2) -/

/-- The first bundle of the port, and its carrying blocks: how many, their number in a row, and the first of them. -/
def portCarriers : HardPort → Option (Nat × Nat × Nat × Nat × Nat)
  | .bram m isA => some (if isA then 0 else 1, 8, 8, 8 * (m % 8), m / 8)
  | .dsp j => some (0, 64, 8, 8 * (j % 8), 8 * (j / 8))
  | .runner p => some (0, 16, 8, 8 * p, 15)
  | .pclk m => some (0, 1, 1, 8 * (m % 8), m / 8)
  | .gpio n => some (0, 1, 1, 8 + n, 0)
  | .slot | .mailbox | .crc => none

/-- Bundles of one block memory port in a direction (Table 5.2). -/
def portBundles (down : Bool) : Nat := if down then 4 else 3

/-- The block of the region whose crossbar carries a signal of a port: bundle b lies beneath carrying block b mod n, and the
blocks are numbered by increasing y, then increasing x (R111). A primitive that a pattern may place in any block has none. -/
def portBlock (p : HardPort) (down : Bool) (bit : Nat) : Option Nat :=
  (portCarriers p).map (fun c =>
    let (second, n, row, x0, y0) := c
    let k := (second * portBundles down + bit / 32) % n
    64 * (y0 + k / row) + x0 + k % row)

/-- Bundles of a block memory that carry port A's signals, as `BondBundle.bramPort` numbers them. -/
def bundleOfA (n : Nat) : Bool := decide (n < 4) || (decide (8 ≤ n) && decide (n < 11))

/-- Does a block carry a signal of a port? The I/O blocks are those of class B regions (R103). -/
def carries (r b : Nat) (p : HardPort) (down : Bool) (bit : Nat) : Bool :=
  (match p with | .gpio n => classB r && decide (n < 48) | _ => true) &&
    match portBlock p down bit with
    | some k => k == b
    | none => true

/-! ### Selections (R104, R107, R109) -/

/-- Is it an input, an output of the crossbar of block `b` of region `r`? -/
def XIn.fits (r b : Nat) : XIn → Bool
  | .wire w d => !w.span.onDrag && w.readAt d
  | .up n => decide (n < 32)
  | .cell c o => decide (c < 32) && (decide (o ≠ .cout) || (c == 31 && b / 64 == 31))
  | .bridge j k => decide (j < 16) && decide (k < 32)
  | .port p k => carries r b p false k
def XOut.fits (r b : Nat) : XOut → Bool
  | .pin c (.a k) => decide (c < 32) && decide (k < 6)
  | .pin c _ => decide (c < 32)
  | .cin => b / 64 == 0
  | .bridgeEnable j => decide (j < 16)
  | .wire w => !w.span.onDrag && w.exists_
  | .down n => decide (n < 32)
  | .port p k => carries r b p true k

/-- May the Drag switch box of block `b` drive this from that? A spine driver lies in the blocks with y mod 32 = 8k (R113). -/
def boxFits (b : Nat) (o : BoxOut) (i : BoxIn) : Bool :=
  (match o with
    | .wire w => w.span.onDrag && w.exists_
    | .up n => decide (n < 32)
    | .spineData | .spineOe => b / 64 % 8 == 0) &&
  (match i with
    | .down n => decide (n < 32)
    | .wire w d => (match o with | .up _ => true | _ => false) && w.span.onDrag && w.readAt d
    | .spine => match o with | .up _ => true | _ => false)

/-- What a crossbar output, a switch-box output selects; none where it selects no source. -/
def PlaneUse.xsel (u : PlaneUse) (r b : Nat) (o : XOut) : Option XIn :=
  match u.xbar.find? (fun e => e.1 == b && e.2.1 == o) with
  | some e => if o.fits r b && e.2.2.fits r b then some e.2.2 else none
  | none => none
def PlaneUse.bsel (u : PlaneUse) (b : Nat) (o : BoxOut) : Option BoxIn :=
  match u.box.find? (fun e => e.1 == b && e.2.1 == o) with
  | some e => if boxFits b o e.2.2 then some e.2.2 else none
  | none => none

/-! ### Spines (R113 to R117) -/

/-- Enables set on a spine in a plane, as a 4-bit mask. -/
def PlaneUse.enables (u : PlaneUse) (spine : Nat) : Nat :=
  (List.range 4).foldl (fun n k => if u.spines.contains (spine, k) then n + 2 ^ k else n) 0

/-- More than one enable set. -/
def contended (mask : Nat) : Bool := decide (2 ≤ ((List.range 4).filter (fun k => mask.testBit k)).length)

/-- Every driver of the spine is disabled (R116, R117). -/
def Region.spineDead (x : Region) (k : Nat) : Bool :=
  x.spineDisable.getLsbD k || x.spineOff.getLsbD k || contended (x.now.use.enables k)

/-! ### Cells (R79 to R84, R95) -/

/-- The configuration of a cell in a plane, by 32 × block + cell. -/
def PlaneUse.cell (u : PlaneUse) (c : Nat) : CellCfg := tget {} u.cells c

/-- `LA` and `LB` (R79, R83, R85). -/
def lutOut (f : CellCfg) (a : BitVec 6) : Bool × Bool :=
  match f.mode with
  | .whole | .ram => (f.lut.getLsbD a.toNat, false)
  | .split | .carry =>
    let j := (a.extractLsb' 0 5).toNat
    (f.lut.getLsbD (32 + j), f.lut.getLsbD j)

/-- Sums `S0`, `S1` and carry out of a cell in carry mode (R83). -/
def carryOut2 (p0 p1 g0 g1 cin : Bool) : Bool × Bool × Bool :=
  let c0 := if p0 then cin else g0
  (p0 != cin, p1 != c0, if p1 then c0 else g1)

/-- A wide multiplexer over the 2 to the power `d` cells from `base` on (R84, Table 4.2): the select of each level comes from
`BY` of the last cell of its lower half. -/
def wideMux (la by_ : Nat → Bool) : Nat → Nat → Bool
  | 0, base => la base
  | d + 1, base =>
    if by_ (base + 2 ^ d - 1) then wideMux la by_ d (base + 2 ^ d) else wideMux la by_ d base

/-- A flip-flop's output: an asynchronous `SR` that is high holds it at its set/reset value (R81). -/
def ffOut (f : CellCfg) (sr one stored : Bool) : Bool :=
  if f.srAsync && sr then (if one then f.srVal1 else f.srVal0) else stored

/-! ### Signals from the hard ports -/

/-- A bit of a number by its place in a list of fields, the first field lowest. -/
def fieldBit : List (Nat × Nat) → Nat → Bool
  | [], _ => false
  | (w, v) :: rest, k => if k < w then v.testBit k else fieldBit rest (k - w)

/-- The fields of a block memory port to the fabric (Table 8.2), of an engine (Table 9.9). -/
def bramUp (p : PortOut) (wait : Bool) : List (Nat × Nat) :=
  [(80, p.dout.toNat), (1, bit p.busy), (1, bit wait), (1, bit p.cerr), (1, bit p.uerr)]
def engineUp (e : Engine) : List (Nat × Nat) :=
  let out := fun (l : List (BitVec 64)) => ([(64, (l.headD 0).toNat), (1, bit (!l.isEmpty))] : List (Nat × Nat))
  [(1, bit (decide (e.in0.length < 8))), (1, bit (decide (e.in1.length < 8)))] ++ out e.out0 ++ out e.out1
    ++ [(1, bit e.evt), (1, bit (decide (e.st = .running))), (1, bit e.portWait)]

/-- The speed-grade maximum of k (R423). -/
def State.kMax (s : State) : Nat :=
  match s.env.fuses.grade with
  | .g1 => 50 | .g2 => 60 | .g3 => 64

/-- k in effect. -/
def State.kNow (s : State) (r : Nat) : Nat := (s.region r).kNow.getD s.kMax

/-- Length of the tick in progress in tick units (R137, R138). -/
def TickGen.length (t : TickGen) : Nat := ((t.cfg.period : Int) + t.adjust).toNat

/-- Outputs of `SLOT_PORT` (Table 6.6). -/
structure SlotOuts where
  tick : Bool
  slot : Nat
  plane : Nat
  warn : Bool
  swResult : BitVec 2
  ovr : BitVec 2
deriving DecidableEq, Repr

/-- Local time of the next slot or tick boundary; a tick unit is 8/3 ns. -/
def nextBoundary (t : TickGen) : Nat :=
  let k := if t.slot0Due then 0 else t.slot
  t.startAt + (if k + 1 < t.cfg.nslots then lget 0 t.cfg.offsets k else t.length) * 2048 / 3

/-- `WARN` (Table 6.6): the region's fabric clock, of 12.5 MHz × k and half of it under throttle, has at most `WARN_LEAD` cycles to
the next boundary. -/
def warnHigh (s : State) (r : Nat) : Bool :=
  let x := s.region r
  decide (0 < x.sched.warnLead) &&
    decide ((nextBoundary s.tick - s.env.now) * s.kNow r ≤ x.sched.warnLead * 20480 * (1 + bit x.kHalved))

/-- What `SLOT_PORT` shows a plane that places it (R146). -/
def slotOuts (s : State) (r : Nat) : SlotOuts :=
  let x := s.region r
  { tick := x.tickOut, slot := x.slotPin, plane := x.active, warn := warnHigh s r, swResult := x.swResult, ovr := x.ovr }

/-- CRC units and channels; the pool channel bound to a slot of a region (R419). -/
def State.crcUnit (s : State) (r : Nat) : CrcUnit := tget {} s.integ.crcRegion r
def State.crcChan (s : State) (c : Nat) : CrcUnit := tget {} s.integ.crcPool c
def boundChannel (s : State) (r slot : Nat) : Option Nat :=
  (List.range 16).find? (fun c => decide ((s.crcChan c).bound = some (r, slot)))

/-- The running value as it reads: the upper bits of a narrow polynomial read zero. -/
def CrcUnit.reads (u : CrcUnit) : BitVec 32 := u.value &&& crcMask u.poly.toNat
def CrcUnit.result (u : CrcUnit) : BitVec 32 := u.reads ^^^ crcFinal u.poly.toNat

/-- The unit that `CRC_UNIT` names. -/
def namedUnit (s : State) (r unit : Nat) : Option CrcUnit :=
  if unit = 0 then some (s.crcUnit r)
  else if unit < 5 then (boundChannel s r (unit - 1)).map (s.crcChan ·) else none

/-- `CRC_IDLE`, and `CRC_VALUE` and `CRC_RESULT` while it is high (Table 15.13); what they carry while it is low, and from a
unit that is not there, is open. `CRC_READY` is `crcReady`. -/
def crcUp (s : State) (r k : Nat) : Bool :=
  let x := s.region r
  match k, namedUnit s r x.crcNamed with
  | 0, _ => x.crcLeft == 0
  | 1, _ => x.crcIdle
  | k + 2, some u =>
    if x.crcIdle then fieldBit [(32, u.reads.toNat), (32, u.result.toNat)] k else x.ups.contains (.crc, k + 2)
  | _, none => x.ups.contains (.crc, k)

/-- A signal from a hard port to the fabric. -/
def portUp (s : State) (r : Nat) (p : HardPort) (k : Nat) : Bool :=
  match p with
  | .bram m isA =>
    let b := s.bram (256 * r + m)
    fieldBit (if isA then bramUp b.outA b.waitA else bramUp b.outB b.waitB) k
  | .dsp j => fieldBit (engineUp (s.engine (32 * r + j))) k
  | .slot =>
    let o := slotOuts s r
    fieldBit [(1, bit o.tick), (4, o.slot), (2, o.plane), (1, bit o.warn), (2, o.swResult.toNat), (2, o.ovr.toNat)] k
  | .gpio n =>
    let g := s.gpioOf (48 * r + n)
    fieldBit [(1, bit g.inReg), (1, bit g.inReg1)] k
  | .pclk _ => false
  | .crc => crcUp s r k
  | .runner _ | .mailbox => (s.region r).ups.contains (p, k)

/-! ### One signal from those before it -/

/-- The value that an isolation cell drives (R120), `last` being what hold-last takes; 0b11 is reserved: a free value. -/
def cellValue (s : State) (n : Node) (v : BitVec 2) (last : Bool) : Bool :=
  match v.toNat with
  | 0 => false
  | 1 => true
  | 2 => last
  | _ => Config.freeSignal s.env.freeCtr n

/-- The value programmed for a border signal in the region's active plane. -/
def isoValue (s : State) (r : Nat) (b : Border) : BitVec 2 :=
  match (s.region r).now.use.iso.find? (fun e => e.1 == b) with
  | some e => e.2
  | none => 0

/-- Does the cell of a border signal hold: the receiving region does, or the region that the wire comes from (R121)? At the device
edge a cell holds always (R106). -/
def borderHeld (s : State) (r : Nat) (b : Border) : Bool :=
  (s.region r).isoHold || match b with
    | .wire w _ _ => match w.dir.from_ r with
      | some q => (s.region q).isoHold
      | none => true
    | .gpio _ _ => false

/-- The block from which a signal to a port comes: its carrying block, and for a primitive placed in any block the one that drives
it. -/
def PlaneUse.driverOf (u : PlaneUse) (p : HardPort) (k : Nat) : Option Nat :=
  match portBlock p true k with
  | some b => some b
  | none => (u.xbar.find? (fun e => e.2.1 == .port p k)).map (·.1)

/-- `CRC_READY`: low while the region's own unit is named and occupied; for a pool channel it is an input of the edge (R418,
R419). -/
def crcReady (s : State) (r : Nat) (rec : Node → Bool) : Bool :=
  let x := s.region r
  let named := fun k => match x.now.use.driverOf .crc (5 + k) with
    | some b => rec (.xout (blockX r b) (blockY r b) (.port .crc (5 + k)))
    | none => false
  if named 0 || named 1 || named 2 then x.ups.contains (.crc, 0) else x.crcLeft == 0

/-- A crossbar output, an input of it. -/
def xoutValue (s : State) (rec : Node → Bool) (x y : Nat) (o : XOut) : Bool :=
  let r := regionAt x y
  match (s.region r).now.use.xsel r (blockAt x y) o with
  | some i => rec (.xin x y i)
  | none => false
def xinValue (s : State) (rec : Node → Bool) (x y : Nat) (i : XIn) : Bool :=
  let r := regionAt x y
  match i with
  | .wire w d => rec (.wire x y w d)
  | .up n => rec (.box x y (.up n))
  | .cell c o => rec (.cell x y c o)
  | .bridge j k => (tget 0 (s.region r).brg (16 * blockAt x y + j)).getLsbD k
  | .port .crc 0 => crcReady s r rec
  | .port p k => portUp s r p k

/-- An output of a Drag switch box. -/
def boxValue (s : State) (rec : Node → Bool) (x y : Nat) (o : BoxOut) : Bool :=
  match (s.region (regionAt x y)).now.use.bsel (blockAt x y) o with
  | some (.down n) => rec (.xout x y (.down n))
  | some (.wire w d) => rec (.wire x y w d)
  | some .spine => rec (.spine (regionAt x y) (x % 64))
  | none => false

/-- A wire where it is read: its driver's value within the region of its start, else what its isolation cell gives. -/
def wireValue (rec : Node → Bool) (x y : Nat) (w : Wire) (d : Nat) : Bool :=
  let k := w.dir.inside x y
  if d ≤ k then
    match w.dir.behind x y d with
    | some (x0, y0) => rec (if w.span.onDrag then .box x0 y0 (.wire w) else .xout x0 y0 (.wire w))
    | none => false
  else match w.dir.behind x y k with
    | some (x1, y1) => rec (.crossing x1 y1 w (d - k))
    | none => false

/-- What the isolation cell of an entering wire drives (R106, R120, R121). -/
def crossingValue (s : State) (rec : Node → Bool) (x y : Nat) (w : Wire) (back : Nat) : Bool :=
  let r := regionAt x y
  let b := Border.wire w back (w.dir.place x y)
  match w.dir.behind x y 1 with
  | none => cellValue s (.crossing x y w back) (isoValue s r b) false
  | some (x0, y0) => if borderHeld s r b then (s.region r).isoVals.contains b else rec (.wire x0 y0 w (back - 1))

/-- The pins `A1` to `A6` of a cell. -/
def cellAddr (rec : Node → Bool) (x y c : Nat) : BitVec 6 :=
  BitVec.ofNat 6 ((List.range 6).foldl (fun n k => n + bit (rec (.xout x y (.pin c (.a k)))) * 2 ^ k) 0)

/-- `S0`, `S1` and `COUT`. The manual gives them for carry mode alone: elsewhere they are free values. -/
def cellCarry (s : State) (f : CellCfg) (n : CellOut → Node) (a : BitVec 6) (bx by_ cin : Bool) : Bool × Bool × Bool :=
  let (la, lb) := lutOut f a
  let free := fun o => Config.freeSignal s.env.freeCtr (n o)
  match f.mode with
  | .carry => carryOut2 lb la bx by_ cin
  | _ => (free .s0, free .s1, free .cout)

/-- An output of a cell; `MX` is free where it is the output of no wide multiplexer. -/
def cellOutValue (s : State) (rec : Node → Bool) (x y c : Nat) (o : CellOut) : Bool :=
  let reg := s.region (regionAt x y)
  let u := reg.now.use
  let base := 32 * blockAt x y
  let f := u.cell (base + c)
  let pin := fun k p => rec (.xout x y (.pin k p))
  let la := fun k => (lutOut (u.cell (base + k)) (cellAddr rec x y k)).1
  let sums := cellCarry s f (.cell x y c) (cellAddr rec x y c) (pin c .bx) (pin c .by_) (rec (.carry x y c))
  match o with
  | .la => la c
  | .lb => (lutOut f (cellAddr rec x y c)).2
  | .s0 => sums.1
  | .s1 => sums.2.1
  | .cout => sums.2.2
  | .q0 => ffOut f (f.srAsync && pin c .sr) false (tget false reg.now.ff (2 * (base + c)))
  | .q1 => ffOut f (f.srAsync && pin c .sr) true (tget false reg.now.ff (2 * (base + c) + 1))
  | .mx => match f.wide with
    | 0 => Config.freeSignal s.env.freeCtr (.cell x y c .mx)
    | d => wideMux la (fun k => pin k .by_) d (c + 1 - 2 ^ d)

/-- The carry into a cell (R95): from the cell below, from cell 31 of the block to the south, or at the south edge of the region what
the plane selects. -/
def carryValue (s : State) (rec : Node → Bool) (x y c : Nat) : Bool :=
  if 0 < c then rec (.cell x y (c - 1) .cout)
  else if y % 32 = 0 then
    (((s.region (regionAt x y)).now.use.cell (32 * blockAt x y)).cinConst).getD (rec (.xout x y .cin))
  else rec (.cell x (y - 1) 31 .cout)

/-- A spine: its driver whose configuration enable is set and whose output enable is high; 0 without one (R113, R115, R116). -/
def spineValue (s : State) (rec : Node → Bool) (r k : Nat) : Bool :=
  let reg := s.region r
  let en := reg.now.use.enables k
  !reg.spineDead k && [0, 1, 2, 3].any (fun d =>
    let at_ := fun o => rec (.box (blockX r k) (blockY r (64 * (8 * d))) o)
    en.testBit d && at_ .spineOe && at_ .spineData)

/-- One signal, the signals that it depends on being given. -/
def nodeValue (s : State) (rec : Node → Bool) : Node → Bool
  | .xin x y i => xinValue s rec x y i
  | .xout x y o => xoutValue s rec x y o
  | .box x y o => boxValue s rec x y o
  | .wire x y w d => wireValue rec x y w d
  | .crossing x y w b => crossingValue s rec x y w b
  | .cell x y c o => cellOutValue s rec x y c o
  | .carry x y c => carryValue s rec x y c
  | .spine r k => spineValue s rec r k

/-- A signal along at most `fuel` steps; one that comes back to itself through no flip-flop is a free value. -/
def signalIn (s : State) : Nat → List Node → Node → Bool
  | 0, _, n => Config.freeSignal s.env.freeCtr n
  | fuel + 1, seen, n =>
    if seen.contains n then Config.freeSignal s.env.freeCtr n else nodeValue s (signalIn s fuel (n :: seen)) n

/-- The value of a signal in the present cycle: longer paths than the device has signals come back to one of them. -/
def signal (s : State) (n : Node) : Bool := signalIn s (2 ^ 40) [] n

/-! ### Pins -/

/-- A crossbar output of a block of a region. -/
def xout (s : State) (r b : Nat) (o : XOut) : Bool := signal s (.xout (blockX r b) (blockY r b) o)

/-- The pins of a cell (Table 4.1), by 32 × block + cell. -/
structure CellPins where
  a : BitVec 6
  bx : Bool
  by_ : Bool
  ce : Bool
  sr : Bool
deriving DecidableEq, Repr

def pinsOf (s : State) (r c : Nat) : CellPins :=
  let pin := fun p => xout s r (c / 32) (.pin (c % 32) p)
  { a := cellAddr (signal s) (blockX r (c / 32)) (blockY r (c / 32)) (c % 32)
    bx := pin .bx, by_ := pin .by_, ce := pin .ce, sr := pin .sr }

/-- An output of a cell of a region. -/
def cellSignal (s : State) (r c : Nat) (o : CellOut) : Bool :=
  signal s (.cell (blockX r (c / 32)) (blockY r (c / 32)) (c % 32) o)

/-- A signal from the fabric to a port; low where the active plane does not drive it (R91). -/
def portDown (s : State) (r : Nat) (p : HardPort) (k : Nat) : Bool :=
  match (s.region r).now.use.driverOf p k with
  | some b => xout s r b (.port p k)
  | none => false

/-- `n` signals to a port from the `lo`-th on, as a number. -/
def portWord (s : State) (r : Nat) (p : HardPort) (lo n : Nat) : Nat :=
  (List.range n).foldl (fun v k => v + bit (portDown s r p (lo + k)) * 2 ^ k) 0

/-- What the fabric presents at a block memory port (Table 8.2). -/
def bramPins (s : State) (m : Nat) (isA : Bool) : PortOp :=
  let w := portWord s (m / 256) (.bram (m % 256) isA)
  let b := portDown s (m / 256) (.bram (m % 256) isA)
  { en := b 0, we := b 1, addr := BitVec.ofNat 15 (w 2 15), be := BitVec.ofNat 8 (w 17 8), di := BitVec.ofNat 80 (w 25 80)
    oce := b 105, orst := b 106 }

/-- The `SLOT_PORT` inputs that the fabric drives (Table 6.6). -/
def slotPinsOf (s : State) (r : Nat) : SlotPins :=
  { holdSwitch := portDown s r .slot 0, swReq := portDown s r .slot 1, swPlane := Fin.ofNat 4 (portWord s r .slot 2 2) }

/-- The fabric presents a request at a Runner port (Table 2.3): `RQ_VALID` is high with its operation and header. -/
def presentsRequest (s : State) (r p : Nat) (h : ReqHdr) (op : Nat) : Bool :=
  let w := portWord s r (.runner p)
  portDown s r (.runner p) 0 && w 1 3 == op && w 4 49 == h.addr.toNat && w 53 6 == h.len.val && w 59 6 == h.tag.val
    && w 65 2 == h.qos.val && w 67 4 == h.win.val

/-- `RQ_OP` (Table 2.2). -/
def RunOp.code : RunOp → Nat
  | .read => 0 | .write => 1 | .add32 => 2 | .add64 => 3 | .swap32 => 4 | .swap64 => 5

/-- The fabric presents an operation at `CRC_PORT` (Table 15.13), a request line at `MAILBOX_PORT` (Table 19.5). -/
def presentsCrc (s : State) (r op unit : Nat) (size : Option Nat) (data : BitVec 32) : Bool :=
  portDown s r .crc 0 && portWord s r .crc 1 2 == op && size.all (fun n => portWord s r .crc 3 2 == n)
    && portWord s r .crc 5 3 == unit && portWord s r .crc 8 32 == data.toNat
def presentsLine (s : State) (r slot n : Nat) (line : Line) (ring : Bool) : Bool :=
  portDown s r .mailbox 0 && portWord s r .mailbox 1 2 == slot && portWord s r .mailbox 3 2 == n
    && portWord s r .mailbox 5 512 == line.toNat && portDown s r .mailbox 517 == ring

/-- `MB_RREADY` and `MB_EREADY`. -/
def mailboxReady (s : State) (r : Nat) (event : Bool) : Bool := portDown s r .mailbox (if event then 519 else 518)

/-- `RS_READY` of a Runner port. -/
def responseReady (s : State) (r p : Nat) : Bool := portDown s r (.runner p) 649

/-! ### The border (R118, R121) -/

/-- The signal that a border cell receives. -/
def Border.source (r : Nat) : Border → Option Node
  | .wire w back pos =>
    let x := match w.dir with | .east => 0 | .west => 63 | _ => pos
    let y := match w.dir with | .north => 0 | .south => 31 | _ => pos
    (w.dir.behind (64 * (r % 8) + x) (32 * (r / 8) + y) 1).map (fun c => .wire c.1 c.2 w (back - 1))
  | .gpio n k => some (.xout (blockX r (8 + n)) (blockY r (8 + n)) (.port (.gpio n) k))

/-- The value of a border signal before its cell. -/
def borderIn (s : State) (r : Nat) (b : Border) : Bool :=
  match b.source r with
  | some n => signal s n
  | none => false

/-- A name for a border cell's own value. -/
def Border.node (r : Nat) (b : Border) : Node :=
  match b.source r with
  | some n => n
  | none => .spine r 64

/-- The border cells of a region after a change of what holds: a cell that held drives on, and one that starts to hold latches its
value from the active plane, with hold-last what the wire had (R121). `s` is the state before the change. -/
def latchBorder (s : State) (r : Nat) (t : State) : State :=
  let x := t.region r
  let kept := x.isoVals.filter (fun b => borderHeld t r b)
  let new := x.now.use.iso.filter (fun c => borderHeld t r c.1 && !borderHeld s r c.1
    && cellValue s (c.1.node r) c.2 (borderIn s r c.1))
  modRegion r (fun x => { x with isoVals := kept ++ new.map (·.1) }) t

/-- The cells that hold take a new plane's values; its hold-last keeps the value being driven (R121). -/
def relatchBorder (r : Nat) (s : State) : State :=
  let x := s.region r
  modRegion r (fun y => { y with isoVals := (x.now.use.iso.filter (fun c =>
    borderHeld s r c.1 && cellValue s (c.1.node r) c.2 (x.isoVals.contains c.1))).map (·.1) }) s

/-- The regions beside a region, and itself. -/
def aroundRegion (r : Nat) : List Nat :=
  r :: [Dir.north, .east, .south, .west].filterMap (fun d => d.from_ r)

/-! ### Asynchronous set and reset (R81, R82) -/

/-- Flip-flops of a region's active plane that an asynchronous `SR` holds keep their set/reset values. -/
def settleSr (r : Nat) (s : State) : State :=
  let x := s.region r
  let cells := x.now.use.cells.filter (fun e => e.2.srAsync)
  if cells.isEmpty || x.power.deep || x.copeReset || x.ffHeld then s
  else
    let held := cells.filter (fun e => xout s r (e.1 / 32) (.pin (e.1 % 32) .sr))
    modRegion r (fun x => x.modPlane x.active (fun p => { p with ff := held.foldl (fun t e =>
      tset false (tset false t (2 * e.1) e.2.srVal0) (2 * e.1 + 1) e.2.srVal1) p.ff })) s

end Sys2Proof.Machine
end

