-- ==== Sys2Proof/Machine/RegionOps.lean ====
section
/-! DEFINITION. What happens to a region: isolation and the border (R121, R125, R126), planes and spines (R116, R124,
R128, R152), resets (R66 to R68), and the power ladder (R19 to R21, R157, R439 to R444). -/

namespace Sys2Proof.Machine

/-- An event of a region: class, severity, code, details after the region. -/
def regEvent (cls sev code r : Nat) (details : List (Nat × Nat)) : EvRec :=
  { cls := cls, sev := sev, code := code, kind := 1, src := r, details := (1, r) :: details }

/-! ### The border (R121) -/

/-- Do the region's border cells hold: isolated, BANKED or below, or in a slice (R121, R439, R467)? -/
def Region.mustHold (r : Region) : Bool :=
  !r.iso.isEmpty || r.power.low || (match r.slice with | some j => j.running | none => false)

/-- While the border cells of region c hold, the output and output-enable registers of bank c take their values (R511). -/
def holdGpio (r : Nat) (s : State) : State :=
  let vals := (s.region r).isoVals
  onlyIf (classB r && (s.region r).isoHold) (forBelow 48 (fun n => modGpio (48 * r + n) (fun g => { g with
    outReg := vals.contains (.gpio n 0), outReg1 := vals.contains (.gpio n 1), oeReg := vals.contains (.gpio n 2) }))) s

/-- Starts or ends holding as the region's state asks: its own border cells, and those of its neighbours that receive from it
(R121). -/
def settleHold (r : Nat) (s : State) : State :=
  let hold := (s.region r).mustHold
  if (s.region r).isoHold = hold then s
  else
    let t := modRegion r (fun x => { x with isoHold := hold }) s
    holdGpio r (useFree (forEach (aroundRegion r) (latchBorder s) t))

/-! ### Isolation -/

/-- A region takes a cause of isolation, and its border cells hold (R121). -/
def isolateBorder (r : Nat) (c : IsoCause) (s : State) : State :=
  settleHold r (modRegion r (fun x => { x with
    iso := if x.iso.contains c then x.iso else x.iso ++ [c], freeDue := x.freeDue.filter (· != c) }) s)

/-- Isolates a region for a cause: its border cells hold, and responses to its fabric ports are discarded at the stop
(R44, R121). -/
def isolate (r : Nat) (c : IsoCause) (s : State) : State :=
  mapOutst (fun o => if o.fromFabric r then { o with discard := true } else o) (isolateBorder r c s)

/-- A cause of isolation ends. -/
def endCause (r : Nat) (c : IsoCause) (s : State) : State :=
  settleHold r (modRegion r (fun x => { x with
    iso := x.iso.filter (· != c), freeDue := x.freeDue.filter (· != c) }) s)

/-- Is a region isolated? -/
def Region.isolated (r : Region) : Bool := !r.iso.isEmpty

/-- The event Region isolated by a frame, checker or retirement (Table 15.18, Table 19.18). -/
def isolatedEvent (r cause : Nat) : EvRec :=
  regEvent (if cause % 16 = 2 then 0x0E else 4) 3 0x0F06 r [(1, cause)]

/-! ### Spines (R113 to R117) -/

/-- The detector disables a spine (R116): its mask bit is set, and a priority pass of the region's frames starts. -/
def tripSpine (r spine : Nat) (s : State) : State :=
  let reg := s.region r
  let s := modRegion r (fun x => { x with spineDisable := x.spineDisable ||| BitVec.ofNat 64 (2 ^ spine) }) s
  startPass r 2 none (raise (regEvent 4 3 0x0501 r
    [(1, spine), (1, reg.active), (1, reg.now.use.enables spine)]) s)

/-- Every contended spine of the active plane whose bit is clear trips. -/
def checkSpines (r : Nat) (s : State) : State :=
  forBelow 64 (fun k s =>
    let reg := s.region r
    if contended (reg.now.use.enables k) && !reg.spineDisable.getLsbD k then tripSpine r k s else s) s

/-! ### Planes -/

/-- Is a plane usable at a boundary (R129)? The flagged active plane counts as barred (R125). -/
def Region.usable (r : Region) (p : Nat) : Bool :=
  let st := (r.plane p).st
  decide (st = .valid) || (decide (st = .active) && !(decide (p = r.active) && r.activeBarred))

/-- What the region records once plane `p` is its active plane (R184). -/
def Region.recordOf (r : Region) (p : Nat) : Option Nat :=
  let x := r.plane p
  if x.kept then x.libIndex else none

/-- Port A of a block memory whose plane change moves it between the fabric clock and `PCLK` starts its clock switch
(R197, R430). -/
def switchPortClocks (r : Nat) (old new : PlaneUse) (s : State) : State :=
  let pclk := fun (u : PlaneUse) m => ((u.bram m).getD {}).pclk
  modClk (fun c => { c with
    bramSw := (((old.brams ++ new.brams).map (·.1)).eraseDups.filter (fun m => pclk old m != pclk new m)).foldl
      (fun t m => tset {} t (256 * r + m) { phase := .stopping, toNew := pclk new m }) c.bramSw }) s

/-- `TICK` and `SLOT` of `SLOT_PORT` at a fabric edge (Table 6.7): E1 of a tick boundary raises `TICK` for one cycle. -/
def Region.portEdge (x : Region) : Region := { x with tickOut := x.tickDue, tickDue := false, slotPin := x.slotOut }

/-- The switch edge (R151, R152): the old plane keeps its state, a high asynchronous `SR` acting on it up to that edge and on the
new plane from then on (R82); a flagged one becomes BARRED, a TEST plane stays one. -/
def switchPlane (r p : Nat) (s : State) : State :=
  let reg := s.region r
  if p = reg.active then s
  else
    let s := switchPortClocks r reg.now.use (reg.plane p).use s
    let old : PlaneSt := if reg.activeBarred then .barred else if reg.now.isTest then .test else .valid
    let s := modRegion r (fun x =>
      let x := x.modPlane x.active (fun q => { q with st := old })
      let x := x.modPlane p (fun q => { q with st := .active })
      { x.portEdge with active := p, activeBarred := false, record := x.recordOf p }) (settleSr r s)
    checkSpines r (holdGpio r (settleSr r (relatchBorder r s)))

/-- Bars the resident planes that use a defect (R124, R125): those newly barred, and whether the active plane uses
it. -/
def barPlanes (r : Nat) (d : BitVec 32) (s : State) : State × List Nat × Bool :=
  let reg := s.region r
  let hit := (List.range 4).filter (fun p =>
    let q := reg.plane p
    q.use.hits d && (decide (q.st = .valid) || decide (q.st = .active) || decide (q.st = .test)
      || decide (q.st = .barred)))
  let act := hit.contains reg.active && decide (reg.now.st = .active)
  let s := modRegion r (fun x => (hit.filter (· != x.active)).foldl
    (fun x p => x.modPlane p (fun q => { q with st := .barred })) { x with activeBarred := x.activeBarred || act }) s
  (s, hit, act)

/-! ### Powering -/

/-- Counts of `REGION_POWER`: entries into GATED to COLD, SHELVED replaced, wakes, deferred boundaries. -/
def bumpPower (r i : Nat) (s : State) : State :=
  modRegion r (fun x => { x with powerCnt := bump (if x.powerCnt.isEmpty then [0, 0, 0, 0, 0, 0, 0, 0] else x.powerCnt) i 1 }) s

/-- The response of a fill: `PLANE_FILL` and `LOAD_ACTIVE` give the frames corrected and the plane's state,
`LIB_LOAD` its index, the cause, the frame address and the plane's state (Tables 6.12, 7.8, 7.11). -/
def fillReply (f : FillJob) (status corrected cause addr st : Nat) (s : State) : State :=
  replyOpt f.waiter status
    (if f.lib then [(16, 2, f.index), (18, 1, cause), (20, 4, addr), (24, 1, st)]
     else [(16, 4, corrected), (20, 1, st)]) s

/-- A fill that is abandoned leaves its plane INVALID and answers its request (R133). -/
def abandonOne (r : Nat) (dest : Power) (f : FillJob) (s : State) : State :=
  let s := modRegion r (fun x => x.modPlane f.plane (fun q => { q with st := .invalid })) s
  let s := raise (regEvent 0x0C 1 0x060C r [(1, f.plane), (1, dest.code)]) s
  fillReply f (if f.lib then stFault else stIncomplete) 0 0 0 PlaneSt.invalid.code s

/-- A region that leaves ACTIVE and GATED abandons its fill and those that wait behind it (R133). -/
def abandonFill (r : Nat) (dest : Power) (s : State) : State :=
  let reg := s.region r
  match reg.fill with
  | none => s
  | some f =>
    if f.active then s
    else forEach (f :: reg.fillWait) (abandonOne r dest) (modRegion r (fun x => { x with fill := none, fillWait := [] }) s)

/-- The engines of the regions that `p` names stop at a bundle boundary, and what is in flight lands (R59, R191, Table
9.13). -/
def landEngines (p : Nat → Bool) (s : State) : State :=
  forEach (s.dsp.map (·.1)) (fun id => onlyIf (p (id / 32)) (modEngine id Engine.landAll)) s

/-- Is a sweep of a region paused (R406)? Targets: 0 frames, 1 block memories, 2 engine memories, 3 the Ingot bank. -/
def Region.sweepPaused (r : Region) (k : Nat) : Bool :=
  r.loadingActive || (r.dragReset && k != 0) || (match r.trans with
    | some (.quiescing _) | some .saving => true
    | some (.entering dest) => dest.deep
    | _ => false) || !(decide (r.power = .active) || decide (r.power = .gated))

/-- The sweep of target `k` of a region. -/
def State.sweep (s : State) (r k : Nat) : Sweep := tget {} s.integ.sweeps (4 * r + k)
def modSweep (r k : Nat) (f : Sweep → Sweep) (s : State) : State :=
  modInteg (fun g => { g with sweeps := tmod {} g.sweeps (4 * r + k) f }) s

/-- The sweeps of a region that pause now (R406). -/
def pauseSweeps (r : Nat) (s : State) : State :=
  forBelow 4 (fun k s => onlyIf ((s.region r).sweepPaused k && (s.sweep r k).pausedAt.isNone)
    (modSweep r k (fun w => { w with pausedAt := some s.env.now })) s) s

/-- Has a sweep been paused for longer than its period? -/
def overdue (s : State) (r k : Nat) : Bool :=
  match (s.sweep r k).pausedAt with
  | some t => decide (periodTime k (lget 0 s.integ.periods k) < s.env.now - t)
  | none => false

/-- Targets of a priority pass that a sweep's target stands for (Table 15.6). -/
def passBits (k : Nat) : Nat := if k = 0 then 3 else 2 ^ (k + 1)

/-- The sweeps of a region that go on (R406): those away for too long are caught up by a priority pass; after COLD every
sweep starts afresh. -/
def resumeSweeps (r : Nat) (restart : Bool) (s : State) : State :=
  let go := fun (k : Nat) => !(s.region r).sweepPaused k
  let late := (List.range 4).foldl (fun n k => if go k && !restart && overdue s r k then n + passBits k else n) 0
  let s := forBelow 4 (fun k s =>
    if restart then modSweep r k (fun w => { w with pos := 0, pausedAt := none }) s
    else onlyIf (go k) (modSweep r k (fun w => { w with pausedAt := none })) s) s
  onlyIf (late != 0) (startPass r (BitVec.ofNat 5 late) none) s

/-- Begins an entry into a lower state (R157, R439, R441; R19 for SHELVED and COLD). -/
def startEntry (r : Nat) (dest : Power) (s : State) : State :=
  let reg := s.region r
  let changed := reg.now.changed.length
  let shelf := decide (dest = .shelved) && (reg.record.isNone || decide (704 < changed))
  let s := onlyIf shelf (fun s => raise (regEvent 0x0D 2 0x1007 r
    [(1, freshNat s), (2, changed)]) (useFree (bumpPower r 5 s))) s
  let dest := if shelf then .damped else dest
  let s := onlyIf (dest != .gated) (abandonFill r dest) s
  let t : Trans := match dest with
    | .shelved => .quiescing .shelved
    | .cold => if reg.power = .shelved then .entering .cold else .quiescing .cold
    | p => .entering p
  let s := landEngines (· == r) (modRegion r (fun x => { x with trans := some t }) s)
  pauseSweeps r (onlyIf dest.deep (rewindRegion r) s)

/-- Begins an exit, and what is decided for its end (R157). -/
def startExit (r : Nat) (d : Option Decision) (s : State) : State :=
  modRegion r (fun x => { x with trans := some (.exiting x.power), after := d }) s

/-- Can a region be woken (R443)? Not a retired one, nor a COLD one with no entry recorded (R193). -/
def Region.canWake (r : Region) : Bool :=
  r.trans.isNone && !r.retired && !(decide (r.power = .cold) && r.record.isNone)

/-- Wake-on-access (R43, R443), or the reversal of an entry (R444). -/
def wakeRegion (r : Nat) (s : State) : State :=
  let reg := s.region r
  match reg.trans with
  | some (.entering dest) =>
    bumpPower r 6 (modRegion r (fun x => { x with trans := some (.exiting dest), after := none }) s)
  | _ => if reg.canWake then bumpPower r 6 (startExit r none s) else s

/-- An engine's registers at their reset values (R66, R220); boundaries so far are no edges of it. Its DMA transfers go on
(R248). -/
def resetEngine (id : Nat) (s : State) : State :=
  modEngine id (fun e => { e.resetRegs with dmaActive := e.dmaActive, dmaQueued := e.dmaQueued,
                                            tickSeen := s.tick.ticks, slotSeen := s.tick.slots }) s

/-- An engine loses its power, with its transfers. -/
def dropEngine (id : Nat) (s : State) : State :=
  let s := modRunner (fun u => { u with outst := u.outst.filter (fun o => match o.hdr.src with
    | .dsp e => e.val != id
    | _ => true) }) s
  modEngine id (fun e => { e with dmaActive := none, dmaQueued := none }) (resetEngine id s)

/-- The Drag clocks and power of a state reached: planes and memories as Tables 6.9, 9.13 and 8.7 give. -/
def enterState (r : Nat) (dest : Power) (s : State) : State :=
  let s := bumpPower r (dest.code - 1) s
  let lose := fun (x : Region) => (List.range 4).foldl (fun x p =>
    if dest = .shelved ∧ p = x.active then x
    else x.modPlane p (fun q => { q with st := if x.retired then .barred else .invalid })) x
  let s := modRegion r (fun x =>
    let x := if dest.deep then lose x else x
    { x with
             power := dest, trans := none, shieldClosed := dest.deep
             activeBarred := x.activeBarred && decide (dest ≠ .cold)
             brg := if dest = .cold then [] else x.brg }) s
  let s := onlyIf dest.deep (forBelow 32 (fun j => dropEngine (32 * r + j))) s
  pauseSweeps r (settleHold r s)

/-- The frames of a plane that its shelf slot keeps: those changed by LUT-RAM writes (R441). -/
def Plane.shelf (p : Plane) (brg : Table (BitVec 32)) : Shelf :=
  { ff := p.ff, brg := brg, frames := p.frames.filter (fun f => p.changed.contains f.1) }

/-- The save of R441. -/
def saveShelf (r : Nat) (s : State) : State :=
  modRegion r (fun x => { x with shelf := some (x.now.shelf x.brg) }) s

/-- The quiesce ends (R19, R20): SHELVED goes on to the save, COLD closes the shield. -/
def quiesceEnds (r : Nat) (s : State) : State :=
  match (s.region r).trans with
  | some (.quiescing .shelved) => modRegion r (fun x => { x with trans := some .saving }) s
  | some (.quiescing dest) =>
    shieldRequests r (modRegion r (fun x => { x with trans := some (.entering dest), shieldClosed := true }) s)
  | _ => s

/-- Transfers outstanding at a region's stop and in its Drag part (R19). -/
def outstandingAt (r : Nat) (s : State) : Nat :=
  s.runner.outst.countP (fun o => o.passes s r)

/-! ### The refill of an exit (R442) -/

/-- The active plane refilled from the recorded entry; none when the copy fails. -/
def refillActive (r i : Nat) (s : State) : State × Option Nat :=
  match copyEntry r i s with
  | (s, .failed addr cause) =>
    (raise (regEvent 0x0C 3 0x060B r [(1, (s.region r).active), (2, i), (4, addr), (1, cause)]) s, some cause)
  | (s, .ok frames _) =>
    (modRegion r (fun x => x.modPlane x.active (fun q => { filledPlane r i frames q with st := .active })) s, none)

/-- The saved frames, flip-flop states and bridge registers written back (R442 step 4). -/
def restoreShelf (r : Nat) (s : State) : State :=
  match (s.region r).shelf with
  | none => s
  | some h => modRegion r (fun x =>
      let x := x.modPlane x.active (fun q =>
        let frames := h.frames.foldl (fun t f => tset {} t f.1 f.2) q.frames
        { q with frames := frames, use := useOf r frames, ff := h.ff, changed := h.frames.map (·.1) })
      { x with brg := h.brg, shelf := none }) s

/-- A region falls to COLD with every plane INVALID and, if it stays powered down for want of an entry, no record. -/
def fallCold (r : Nat) (s : State) : State :=
  modRegion r (fun x =>
    let x := (List.range 4).foldl (fun x p =>
      x.modPlane p (fun q => { q with st := if x.retired then .barred else .invalid })) x
    { x with power := .cold, trans := none, shieldClosed := true, shelf := none,
             activeBarred := false, brg := [] }) s

/-- The flagged state of an active plane after a refill: a barred one isolates its region as R125 gives. -/
def checkRefilled (r : Nat) (s : State) : State :=
  if s.barredBy r (s.region r).now.use then
    isolate r .wire (modRegion r (fun x => { x with activeBarred := true }) s)
  else s


/-- The completion of an exit (R442): the region is ACTIVE, or falls to COLD when it has no entry to refill from.
`checker` names a checker that failed its bypass vectors (R414). -/
def exitDone (r : Nat) (left : Power) (checker : Option (Fin 4)) (s : State) : State :=
  let reg := s.region r
  let load := reg.loadingActive
  let ready := fun (s : State) => modRegion r (fun x =>
    let x := x.modPlane x.active (fun q => { q with st := .active })
    { x with power := .active, trans := none, shieldClosed := false, clockOn := !load }) s
  let s := onlyIf left.deep (forBelow 32 (fun j => dropEngine (32 * r + j))) s
  let s := onlyIf (decide (left = .cold)) (fun s => clearDragMemories r (modRegion r (fun x => { x with brg := [] }) s)) s
  let s := if left.deep && !load then
      match reg.record with
      | none =>
        onlyIf (decide (left = .shelved)) (raise (regEvent 0x0D 3 0x1008 r [(2, reg.now.libIndex.getD 0xFFFF)])) (fallCold r s)
      | some i =>
        match refillActive r i s with
        | (s, some _) => fallCold r s
        | (s, none) => checkRefilled r (ready (onlyIf (decide (left = .shelved)) (restoreShelf r) s))
    else ready s
  let s := onlyIf (decide (left = .cold ∨ left = .shelved) && decide ((s.region r).power = .active)) (checkSpines r) s
  let s := match checker with
    | some c => if left.low then raise (isolatedEvent r (2 + 16 * c.val)) (isolate r .checker s) else s
    | none => s
  settleHold r (resumeSweeps r (decide (left = .cold)) s)

/-! ### Resets (R66 to R68) -/

/-- Flip-flop states of all four planes at their initial values, zero for an invalid plane (Table 3.3). -/
def Region.resetFf (r : Region) : Region :=
  (List.range 4).foldl (fun r p => r.modPlane p (fun q =>
    { q with ff := if q.st = .invalid then [] else initFf q.use })) r

/-- The block memory ports of a region abort what is in flight in them, and what waits (R18, R66, R213). -/
def abortPorts (r : Nat) (s : State) : State :=
  let s := dropWaiting r s
  { s with brams := s.brams.map (fun e => if e.1 / 256 = r then
      (e.1, { e.2 with pipeA := [], pipeB := [], waitA := false, waitB := false, rmwA := none, rmwB := none }) else e) }

/-- The effect of a reset on a region's tiers at the instant it begins (Table 3.3, R17, R18, R66, R220). -/
def resetTiers (r : Nat) (scope : ResetScope) (s : State) : State :=
  let s := onlyIf (scope != .drag) (fun s => rewindRegion r (modRegion r (fun x => { x.resetFf with brg := [] }) s)) s
  onlyIf (scope != .cope) (fun s =>
    let s := forBelow 32 (fun j => resetEngine (32 * r + j)) s
    abortPorts r (mapOutst (fun o => if o.toDrag s r && !o.gone then endRest rcPathReset o else o) s)) s

/-- Self-test state of a region. -/
def State.test (s : State) (r : Nat) : TestSt := tget {} s.bonds.tests r
def modTest (r : Nat) (f : TestSt → TestSt) (s : State) : State :=
  modBonds (fun b => { b with tests := tmod {} b.tests r f }) s

/-- The row of a block of a region, and the slice that tests it (R461): block index 64 × (y mod 32) + x mod 64. -/
def sliceOfBlock (b : Nat) : Nat := b / 64 / 4

/-- The active plane as a slice compares it: blocks whose switch box takes a disabled spine's tap are excluded too (R467;
notes/assumptions/174.md). -/
def Region.tested (x : Region) : Plane :=
  let taps := x.now.use.box.filterMap (fun e =>
    if e.2.2 = .spine ∧ x.spineDisable.getLsbD (e.1 % 64) = true then some e.1 else none)
  { x.now with excluded := (x.now.excluded ++ taps).eraseDups }

/-- Excluded blocks of a slice in a plane. -/
def excludedIn (p : Plane) (slice : Nat) : Nat := p.excluded.countP (fun b => sliceOfBlock b == slice)

/-- The results of `SELFTEST_RUN` (Table 18.5). -/
def sliceResults (result excluded : Nat) (failing : List (Nat × Nat)) : Results :=
  [(16, 1, result), (17, 1, excluded)] ++
    ((failing.take 16).zipIdx.flatMap (fun b => [(20 + 4 * b.2, 2, b.1.1), (22 + 4 * b.2, 2, b.1.2)]))

/-- Records a slice's result: 1 PASS, 2 FAIL, 3 INCOMPLETE (R470, Table 18.6), and answers its request. -/
def recordSlice (r : Nat) (j : SliceJob) (result excluded : Nat) (failing : List (Nat × Nat)) (s : State) : State :=
  let s := modTest r (fun t => { t with
    results := lput 0 t.results j.slice result
    passes := if result = 1 then satAdd 4294967295 t.passes 1 else t.passes
    fails := if result = 2 then satAdd 4294967295 t.fails 1 else t.fails
    incompletes := if result = 3 then satAdd 4294967295 t.incompletes 1 else t.incompletes
    excluded := satAdd 4294967295 t.excluded excluded
    ticksSince := some 0 }) s
  replyOpt j.waiter stOk (sliceResults result excluded failing) s

/-- The event Slice INCOMPLETE; the manual gives its cause no code: a free value. -/
def incompleteEvent (r slice : Nat) (s : State) : State :=
  useFree (raiseLimited (regEvent 0x0E 1 0x1201 r [(1, slice), (1, freshNat s)]) [] s)

/-- The region leaves the TEST plane for the entry's, or for the one that was active before (R161). One that the defect map
has come to bar runs flagged and isolated, as a barred active plane does (R125, R128); with neither plane VALID or BARRED
the region stays isolated where it is (notes/assumptions/160.md). -/
def leaveTest (r : Nat) (j : SliceJob) (s : State) : State :=
  let reg := s.region r
  let p := if reg.usable j.entry then j.entry else j.back
  match (reg.plane p).st with
  | .valid | .active => switchPlane r p s
  | .barred => isolate r .wire (modRegion r (fun x => { x with activeBarred := true }) (switchPlane r p s))
  | _ => isolate r .slice s

/-- A slice is over: the region leaves the TEST plane, which places no `SLOT_PORT` signal. -/
def closeSlice (r : Nat) (j : SliceJob) (s : State) : State :=
  settleHold r (modRegion r (fun x => { x with slice := none, slotPins := ⟨false, false, 0⟩ }) (leaveTest r j s))

/-- A slice is abandoned as INCOMPLETE (R162, R470). -/
def abandonSlice (r : Nat) (s : State) : State :=
  match (s.region r).slice with
  | some j => if j.running then incompleteEvent r j.slice (recordSlice r j 3 0 [] (closeSlice r j s)) else s
  | none => s

/-! ### Pending changes that end (R148, R154, R156) -/

/-- Adds one to a region counter of 32 bits. -/
def inc32 (n : Nat) : Nat := satAdd 4294967295 n 1

/-- The answer of an override at its boundary (Table 6.13). -/
def answerOverride (r : Nat) (d : Decision) (status outcome : Nat) (s : State) : State :=
  match d.waiter with
  | none => s
  | some w => replyAt w status d.tick [(16, 1, outcome), (17, 1, (s.region r).active)] s

/-- `SW_RESULT`, `OVR` and the count of a fabric request that won. -/
def setResult (r : Nat) (d : Decision) (ovr : BitVec 2) (s : State) : State :=
  modRegion r (fun x => { x with
    swResult := d.sw, ovr := ovr, grace := none
    granted := if d.winner = .fabric ∧ d.sw = 1 then inc32 x.granted else x.granted }) s

/-- A skip (R154): the plane, power state and permits of the slot before. -/
def skipChange (r : Nat) (d : Decision) (s : State) : State :=
  let s := onlyIf d.gated (startEntry r .gated) s
  let s := setResult r d 1 (modRegion r (fun x => { x with skips := inc32 x.skips }) s)
  answerOverride r d stOk 2 s

/-- A pending change that can no longer take effect is skipped, with the WARNING of R156. -/
def lapseChange (r : Nat) (d : Decision) (s : State) : State :=
  skipChange r { d with gated := false } (raise (regEvent 0x0B 2 0x0603 r [(1, d.slot)]) s)

/-- The change that waits for `HOLD_SWITCH` lapses (R156). -/
def endGrace (r : Nat) (s : State) : State :=
  match (s.region r).grace with
  | none => s
  | some d => lapseChange r d s

/-- The change that waits for the end of an exit lapses: nothing is dropped without a report (R148). -/
def endAfter (r : Nat) (s : State) : State :=
  match (s.region r).after with
  | none => s
  | some d => lapseChange r d (modRegion r (fun x => { x with after := none }) s)

/-- Every change that a region has pending lapses (R148; notes/assumptions/160.md). -/
def endPending (r : Nat) (s : State) : State := endAfter r (endGrace r s)

/-- A reset of a region waits for its power state (R68). -/
def resetWaits (s : State) (r : Nat) : Bool := (s.region r).resets.any (fun j => !j.begun && !j.atTick)

/-- The waiting resets of a region begin (R67): isolated, its tiers reset, a slice abandoned, a pending change ended with its
report, and the requests answered. A reset of the Drag tier alone isolates too, but discards nothing: the Cope-Hearth
transfers continue unaffected (R18; DESIGN CHOICE, notes/assumptions/161.md). -/
def beginReset (r : Nat) (s : State) : State :=
  let due := (s.region r).resets.filter (fun j => !j.begun && !j.atTick)
  if due.isEmpty then s
  else
    let s := endPending r (abandonSlice r s)
    let s := if due.all (fun j => j.scope == .drag) then isolateBorder r .reset s else isolate r .reset s
    let s := modRegion r (fun x => { x with
      resets := x.resets.map (fun j => if j.atTick then j else { j with begun := true, waiter := none }) }) s
    pauseSweeps r (forEach due (fun j s => replyOpt j.waiter stOk [] (resetTiers r j.scope s)) s)

/-- A reset meets its region (R68): it begins, waits for the exit or entry in progress, or starts the exit; it is refused
while the region quiesces or sleeps below DAMPED. -/
def tryReset (r : Nat) (scope : ResetScope) (w : Waiter) (s : State) : State × Answer :=
  let reg := s.region r
  let busy := match reg.trans with
    | some (.quiescing _) | some .saving => true
    | some (.entering dest) => dest.deep
    | _ => false
  let exiting := match reg.trans with | some (.exiting _) => true | _ => false
  if reg.power.deep && !exiting then (s, .done stRegionAsleep [])
  else if busy then (s, .done stBusy [])
  else
    let s := modRegion r (fun x => { x with resets := x.resets ++ [{ scope := scope, waiter := some w }] }) s
    if reg.trans.isSome then (s, .wait)
    else if reg.power = .active then (beginReset r s, .wait) else (startExit r none s, .wait)

/-- The results of `REGION_ISOLATE` (Table 5.5). -/
def isolateResults (r : Nat) (s : State) : Results :=
  let x := s.region r
  let barred := (List.range 4).foldl (fun n p =>
    if decide ((x.plane p).st = .barred) || (decide (p = x.active) && x.activeBarred) then n + 2 ^ (2 + p) else n) 0
  [(16, 4, bit x.isolated + 2 * bit x.retired + barred)]

/-- The event Region isolated or released by command. -/
def isolateCmdEvent (r : Nat) (s : State) : State := raise (regEvent 0x0B 1 0x0507 r [(8, s.tick.number.toNat)]) s

/-- Isolation by command takes effect and its request is answered. -/
def isolateByCommand (r : Nat) (w : Waiter) (s : State) : State :=
  let s := isolateCmdEvent r (isolate r .command s)
  reply w stOk (isolateResults r s) s

/-- Releases by command that take effect at a slot boundary are reported and answered. -/
def answerReleases (r : Nat) (s : State) : State :=
  let ws := (s.region r).freeWait
  forEach ws (fun w s => reply w stOk (isolateResults r s) (isolateCmdEvent r s))
    (modRegion r (fun x => { x with freeWait := [] }) s)

end Sys2Proof.Machine
end

