-- ==== Sys2Proof/Machine/ClockOps.lean ====
section
/-! DEFINITION. Clocks, voltages and the plan: the clock monitor's failover (R425 to R430), the domain sequencers
(R249 to R252, R431 to R433), `VCC_COPE` (R434), fabric clocks (R423, R424), and the plan of Table 17.5. -/

namespace Sys2Proof.Machine

/-! ### Fabric clocks (R423, R424) -/

/-- k requested and planned. -/
def State.kSet (s : State) (r : Nat) : Nat := (s.region r).kSet.getD s.kMax
def State.kPlan (s : State) (r : Nat) : Nat := (s.region r).kPlan.getD s.kMax

/-- The k that a region runs at from the next common instant on: the set one, capped by the plan. -/
def State.kDue (s : State) (r : Nat) : Nat := min (s.kSet r) (s.kPlan r)

/-! ### Clock switches (R430) -/

/-- The event Clock switch forced (Tables 16.11, 19.18). -/
def forcedEvent (switch place : Nat) : EvRec :=
  { cls := 1, sev := 2, code := 0x1003, kind := 0, details := [(1, switch), (2, place)] }

/-- Switch codes and places. -/
def switchCode : ClockSwitch → Nat
  | .rootRef => 0 | .hearth => 1 | .bramA _ => 2 | .dspDomain _ => 3
def switchPlace : ClockSwitch → Nat
  | .bramA m => m.val | .dspDomain d => d.val | _ => 0xFFFF

/-- The state of a switch. -/
def State.clockSwitch (s : State) : ClockSwitch → SwitchSt
  | .rootRef => s.clk.rootSw
  | .hearth => s.clk.hearthSw
  | .bramA m => tget {} s.clk.bramSw m.val
  | .dspDomain d => tget {} s.clk.dspSw d.val

def modSwitch (sw : ClockSwitch) (f : SwitchSt → SwitchSt) (s : State) : State :=
  modClk (fun c => match sw with
    | .rootRef => { c with rootSw := f c.rootSw }
    | .hearth => { c with hearthSw := f c.hearthSw }
    | .bramA m => { c with bramSw := tmod {} c.bramSw m.val f }
    | .dspDomain d => { c with dspSw := tmod {} c.dspSw d.val f }) s

/-- The old side is asked to stop. -/
def beginSwitch (sw : ClockSwitch) (toNew : Bool) (s : State) : State :=
  modSwitch sw (fun _ => { phase := .stopping, toNew := toNew, waited := 0 }) s

/-- The old side is released; the new side starts at its next falling edge. The root reference stays released until
the PLL relocks (R427). -/
def releaseSwitch (sw : ClockSwitch) (s : State) : State :=
  modSwitch sw (fun x => { x with phase := if sw = .rootRef then .released else .idle, waited := 0 }) s

/-! ### The clock monitor (R425, R427) -/

/-- A window is good. -/
def goodWindow (count : Nat) : Bool := decide (235 ≤ count) && decide (count ≤ 265)

/-- The failover of R427, steps 1 to 3, at the declaration. -/
def failover (s : State) : State :=
  let s := modClk (fun c => { c with holdover := true }) s
  let s := raise { cls := 1, sev := 4, code := 0x1001, kind := 0,
                   details := s.clk.lastCounts.reverse.map (fun n => (2, n)) } s
  beginSwitch .rootRef true s

/-- A window's count enters the monitor. -/
def countWindow (n : Nat) (s : State) : State :=
  let good := goodWindow n
  modClk (fun c => { c with
    lastCounts := (n :: c.lastCounts).take 3
    badWin := if good then 0 else satAdd 255 c.badWin 1
    badRun := if good then 0 else c.badRun + 1
    goodRun := if good then satAdd 100 c.goodRun 1 else 0
    badTotal := if good then c.badTotal else satAdd 4294967295 c.badTotal 1
    lost := c.lost || (!good && decide (c.badRun = 2)) }) s

/-! ### The domain sequencers (R432, R433) -/

/-- A voltage of 0.1 mV in mV; the manual does not say how a half is reported. -/
def mvOf (v ctr : Nat) : Nat := if v % 10 = 0 then v / 10 else v / 10 + bit (Config.freeBool ctr)

/-- Frequency of a point in MHz (Table 9.14). -/
def pointMhz (p : Nat) : Nat := lget 0 [500, 750, 1000, 1250] p

/-- The results of `DSP_DOMAIN` (Table 9.19). -/
def domainResults (d : Nat) (s : State) : Results :=
  let x := s.domain d
  [(16, 1, x.point), (17, 1, x.requested), (18, 2, mvOf x.volt s.env.freeCtr), (20, 2, pointMhz x.point),
   (22, 1, bit (s.therm.throttled && decide (1 < x.requested)) + 2 * bit (lget false x.withdrawn x.requested))]

/-- A change of point begins: upward by the voltage, downward by the frequency. -/
def startPoint (d p : Nat) (s : State) : State :=
  let x := s.domain d
  if p = x.point then s
  else
    let up := decide (x.point < p)
    let s := modDomain d (fun y =>
      { y with target := p, resent := false, step := if up then .upWrite else .downRelock }) s
    onlyIf (!up) (beginSwitch (.dspDomain (Fin.ofNat 4 d)) true) s

/-- The highest point at or below `p` that is not withdrawn. -/
def allowedPoint (x : Domain) (p : Nat) : Nat :=
  (((List.range (p + 1)).reverse).find? (fun q => !lget false x.withdrawn q)).getD 0

/-- What a domain that is idle still has to do: leave a withdrawn point (R250), obey the throttle (R252), take a
request recorded under throttle, or write a planned voltage (R457). -/
def domainNext (d : Nat) (s : State) : State :=
  let x := s.domain d
  if x.step ≠ .idle then s
  else if lget false x.withdrawn x.point then startPoint d (allowedPoint x x.point) s
  else if s.therm.throttled && decide (1 < x.point) then
    startPoint d (allowedPoint x 1) (modDomain d (fun y => { y with deferred := true }) s)
  else if !s.therm.throttled && x.deferred then
    startPoint d (allowedPoint x x.requested) (modDomain d (fun y => { y with deferred := false }) s)
  else if x.volt ≠ lget 0 x.plan x.point then
    modDomain d (fun y => { y with step := .planWrite, resent := false }) s
  else s

/-- The sequencer has finished; the request that waits is answered (Table 9.19). -/
def domainDone (d : Nat) (s : State) : State :=
  let w := (s.domain d).waiter
  let s := modDomain d (fun y => { y with step := .idle, resent := false, waiter := none }) s
  domainNext d (replyOpt w stOk (domainResults d s) s)

/-- The event Domain point changed (Table 9.20). -/
def pointEvent (d old new : Nat) (s : State) : State :=
  let v := mvOf (s.domain d).volt s.env.freeCtr
  raise { cls := 0x0D, sev := 1, code := 0x0903, kind := 6, src := d,
          details := [(1, d), (1, old), (1, new), (2, v)] } s

/-- An acknowledged write of a domain's rail. -/
def domainAck (d : Nat) (s : State) : State :=
  let x := s.domain d
  match x.step with
  | .upWrite => modDomain d (fun y => { y with volt := lget 0 y.plan y.target, step := .upSettle, resent := false }) s
  | .downWrite => domainDone d (modDomain d (fun y => { y with volt := lget 0 y.plan y.target }) s)
  | .planWrite => domainDone d (modDomain d (fun y => { y with volt := lget 0 y.plan y.point }) s)
  | _ => s

/-- The event AVSBus change abandoned (R433). -/
def abandonEvent (rail target point : Nat) : EvRec :=
  { cls := 0x0D, sev := 3, code := 0x1005, kind := 0, details := [(1, rail), (2, target), (1, point)] }

/-- A write of a domain's rail goes unacknowledged: it is sent once more, then the change is abandoned. -/
def domainNoAck (d : Nat) (s : State) : State :=
  let x := s.domain d
  if !x.resent then modDomain d (fun y => { y with resent := true }) s
  else
    let target := lget 0 x.plan (if x.step = .planWrite then x.point else x.target)
    let s := raise (abandonEvent d (mvOf target s.env.freeCtr) x.point) s
    let s := modDomain d (fun y => { y with step := .idle, resent := false, waiter := none }) s
    replyOpt x.waiter stOk (domainResults d s) s

/-- Is a rail's write outstanding? -/
def domainWriting (x : Domain) : Bool :=
  decide (x.step = .upWrite) || decide (x.step = .downWrite) || decide (x.step = .planWrite)

/-- The domain PLL relocks at the new frequency (R432). -/
def domainRelock (d : Nat) (s : State) : State :=
  let x := s.domain d
  let s := modSwitch (.dspDomain (Fin.ofNat 4 d)) (fun _ => {}) s
  let s := modDomain d (fun y => { y with point := y.target }) s
  let s := pointEvent d x.point x.target s
  if x.step = .upRelock then domainDone d s
  else modDomain d (fun y => { y with step := .downWrite, resent := false }) s

/-- The engines of a domain pause while its PLL relocks (R251). -/
def domainPaused (x : Domain) : Bool := decide (x.step = .upRelock) || decide (x.step = .downRelock)

/-- Domain of a region and of an engine (R249). -/
def domainOfRegion (r : Nat) : Nat := r / 16

/-! ### The plan (R457 to R459, Table 17.5) -/

/-- Is the guard band due (R459)? -/
def State.guardDue (s : State) : Bool := s.therm.guardBand && decide (s.therm.measureCount < 64)

/-- `VCC_COPE` offset in mV, and the steps of fabric clock lost, of a planned offset with the guard band. -/
def copeOf (base : Nat) (guard : Bool) : Nat × Nat :=
  let sum := base + (if guard then 35 else 0)
  (min 60 sum, ceilDiv (sum - 60) 10)

/-- Voltage of a point in 0.1 mV with its planned offset and the guard band (R459). -/
def pointVolt (p offset : Nat) (guard : Bool) : Nat :=
  let v := lget 0 [6000, 6800, 7600, 8500] p
  v + offset + (if guard then v / 20 else 0)

/-- Takes the planned voltages of a domain, none of them above 0.90 V: a point that needs more is withdrawn, with its event
(R250). -/
def planDomain (d : Nat) (volts : List Nat) (s : State) : State :=
  let x := s.domain d
  let out := volts.map (fun v => decide (9000 < v))
  let s := forBelow 4 (fun p s =>
    onlyIf (lget false out p && !lget false x.withdrawn p) (fun s =>
      raise { cls := 7, sev := 2, code := 0x0904, kind := 6, src := d,
              details := [(1, d), (1, p), (2, mvOf (lget 0 volts p) s.env.freeCtr)] } s) s) s
  domainNext d (modDomain d (fun y => { y with plan := volts.map (min 9000), withdrawn := out }) s)

/-- The event Plan changed. -/
def planEvent (offset regions domains : Nat) : EvRec :=
  { cls := 7, sev := 1, code := 0x1107, kind := 0, details := [(1, offset), (1, regions), (1, domains)] }

/-- Cupola re-plans (R457). What it predicts of slack is its own: the planned offset, maxima and voltages are free
within the limits of Table 17.5. -/
def rePlan (s : State) : State :=
  let c := s.env.freeCtr
  let guard := s.guardDue
  let (offset, lost) := copeOf (5 * (Config.freeNat c % 13)) guard
  let ks := (List.range 64).map (fun r => s.kMax - Config.freeNat (c + 1 + r) % (s.kMax + 1) - lost)
  let volts := fun d => (List.range 4).map (fun p => pointVolt p (Config.freeNat (c + 65 + 4 * d + p)) guard)
  let changedR := ((List.range 64).filter (fun r => lget 0 ks r != s.kPlan r)).length
  let changedD := ((List.range 4).filter (fun d => decide ((volts d).map (min 9000) ≠ (s.domain d).plan))).length
  let old := s.clk.copePlan
  let s := modEnv (fun e => { e with freeCtr := e.freeCtr + 81 }) s
  let s := modClk (fun k => { k with copePlan := offset }) s
  let s := modTherm (fun t => { t with
    planDue := (List.range 64).foldl (fun u r => tset 0 u r (lget 0 ks r + 1)) t.planDue }) s
  let s := forBelow 4 (fun d => planDomain d (volts d)) s
  onlyIf (offset != old || changedR != 0 || changedD != 0) (raise (planEvent offset changedR changedD)) s

/-- A region below the least clock is isolated and put in COLD (R458). -/
def belowFloor (r : Nat) (slack : Int) (s : State) : State :=
  let s := modTherm (fun t => { t with
    floorOut := if t.floorOut.contains r then t.floorOut else t.floorOut ++ [r] }) s
  let s := raise { cls := 7, sev := 3, code := 0x1109, kind := 1, src := r,
                   details := [(1, r), (2, (slack % 65536).toNat)] } s
  let s := isolate r .floor s
  if (s.region r).trans.isNone && decide ((s.region r).power ≠ .cold) then startEntry r .cold s else s

/-- The planned maximum of a region falls by one step for its negative slack (R458). -/
def stepDownRegion (r : Nat) (s : State) : State :=
  let k := s.kPlan r - 1
  let slack := (List.range 8).foldl (fun (m : Int) i =>
    match tget none s.therm.minSlack (8 * r + i) with | some v => min m v | none => m) 0
  if k < 8 then belowFloor r slack s else modRegion r (fun x => { x with kPlan := some k }) s

/-- A planned maximum applies at a tick boundary: a fall at once, a rise once the voltage has risen (R434). -/
def applyPlanMax (r : Nat) (s : State) : State :=
  let due := tget 0 s.therm.planDue r
  if due = 0 then s
  else
    let k := due - 1
    if s.kPlan r < k ∧ s.clk.copeNow < s.clk.copePlan then s
    else
      let s := modTherm (fun t => { t with planDue := tset 0 t.planDue r 0 }) s
      if k < 8 then
        if s.therm.floorOut.contains r then s else belowFloor r 0 s
      else modRegion r (fun x => { x with kPlan := some k }) s

/-- One step of `VCC_COPE` at a tick boundary (R434): up before the maxima rise, down only once they have fallen. -/
def stepCope (s : State) : State :=
  let c := s.clk
  if c.copeWrite then s
  else if c.copeNow < c.copePlan then
    modClk (fun c => { c with copeWrite := true, copeResent := false, copeTarget := min c.copePlan (c.copeNow + 5) }) s
  else if c.copePlan < c.copeNow ∧ s.therm.planDue = [] ∧ (List.range 64).all (fun r => decide (s.kNow r ≤ s.kPlan r)) then
    modClk (fun c => { c with copeWrite := true, copeResent := false, copeTarget := max c.copePlan (c.copeNow - 5) }) s
  else s

end Sys2Proof.Machine
end

