-- ==== Sys2Proof/Machine/SlotOps.lean ====
section
/-! DEFINITION. The decision at a slot boundary and what carries it out (R142 to R163, R550), DSP permits (R163, R242),
the start of a fill (R130) and of a self-test slice (R161). -/

namespace Sys2Proof.Machine

/-! ### Schedule entries (Table 6.4) -/

/-- Entry `k` of the working table. -/
def Region.entry (r : Region) (k : Nat) : BitVec 16 := lget 0 r.sched.entries k
def entryPlane (e : BitVec 16) : Nat := (e.extractLsb' 0 2).toNat
def entryPower (e : BitVec 16) : Power := (Power.ofCode (e.extractLsb' 6 3).toNat).getD .active
def entryTest (e : BitVec 16) : Bool := e.getLsbD 9
def entryDsp (e : BitVec 16) : Bool := e.getLsbD 10
def entryFabric (e : BitVec 16) : Bool := e.getLsbD 11

/-- The `SLOT_PORT` inputs: low in a plane that does not place the primitive, and while the region is not ACTIVE
(R157). -/
def Region.pins (r : Region) : SlotPins :=
  if r.now.use.slotPort && decide (r.power = .active) && !(match r.slice with | some j => j.running | none => false)
  then r.slotPins else ⟨false, false, 0⟩

/-- Candidate source codes (Table 19.18). -/
def Winner.code : Winner → Nat
  | .override => 0 | .fabric => 1 | .schedule => 2 | .none => 2

/-- The event Plane not usable (R148, R160). -/
def unusableEvent (s : State) (r source plane : Nat) : EvRec :=
  regEvent 0x0B 2 0x0604 r [(1, source), (1, plane), (1, ((s.region r).plane plane).st.code)]

/-- The event Fabric request lost or refused. -/
def fabricEvent (r slot plane reason : Nat) : EvRec :=
  regEvent 0x0B 0 0x0605 r [(1, slot), (1, plane), (1, reason)]

/-! ### DSP permits (R163, R242) -/

/-- The permit a region's engines have: its applied entry's, unless the governor withholds it. -/
def State.dspPermitted (s : State) (r : Nat) : Bool :=
  (s.region r).dspPermit && !(tget {} s.therm.govern r).withheldNow

/-- An engine starts (R242); its timer has run on. -/
def startEngine (id : Nat) (s : State) : State :=
  useFree (modEngine id (fun e => (((e.idled (freshNat s)).sync s.tick.ticks s.tick.slots).begin_ e.startAddr)) s)

/-- PENDING engines of a region start once they are permitted, after a relock of their domain (R251). -/
def startPending (r : Nat) (s : State) : State :=
  if s.dspPermitted r && !domainPaused (s.domain (domainOfRegion r)) then
    forEach (s.dsp.filter (fun e => e.1 / 32 == r && decide (e.2.st = .pending))) (fun e => startEngine e.1) s
  else s

/-- The entry's permits apply (R147, R163), and the governor's decision of the last evaluation (R454). -/
def applyPermits (r : Nat) (e : BitVec 16) (s : State) : State :=
  let s := modRegion r (fun x => { x with dspPermit := entryDsp e, testPermit := entryTest e }) s
  startPending r s

/-! ### Fills (R130, R188) -/

/-- Starts a fill, or lets it wait for the one in progress. -/
def startFill (r : Nat) (f : FillJob) (s : State) : State :=
  modRegion r (fun x =>
    let x := x.modPlane f.plane (fun q => { q with
      st := if x.fill.isNone then .filling else if q.st = .filling then .filling else .invalid })
    if x.fill.isNone then { x with fill := some f } else { x with fillWait := x.fillWait ++ [f] }) s

/-! ### Self-test slices (R161, R465) -/

/-- Library entry of a test pattern for a region. -/
def patternEntry (s : State) (r pattern : Nat) : Nat :=
  tget 65535 s.bonds.patterns (4 * bit (classB r) + pattern)

/-- Does the entry that Cupola chose for a pattern of a class still hold it, READY (R462, R465)? -/
def patternHeld (s : State) (cls pattern : Nat) : Bool :=
  let e := s.entry (tget 65535 s.bonds.patterns (4 * cls + pattern))
  decide (e.st = entryReady) && decide (e.testOf = some (pattern, cls))

/-- Has an entry of a class been removed since it was loaded (R472)? -/
def patternLost (s : State) (cls : Nat) : Bool :=
  (List.range 4).any (fun k => tget 65535 s.bonds.patterns (4 * cls + k) != 65535 && !patternHeld s cls k)

/-- A TEST plane that holds the pattern. -/
def testPlane (s : State) (r pattern : Nat) : Option Nat :=
  [0, 1, 2, 3].find? (fun p =>
    let q := (s.region r).plane p
    decide (q.st = .test) && decide (q.libIndex = some (patternEntry s r pattern)))

/-- A plane of `TEST_MASK` that a test fill may take: not ACTIVE, not a user plane. -/
def freeTestPlane (s : State) (r : Nat) : Option Nat :=
  let reg := s.region r
  [0, 1, 2, 3].find? (fun p =>
    let q := reg.plane p
    reg.sched.testMask.getLsbD p && p != reg.active &&
      (decide (q.st = .invalid) || decide (q.st = .test) || decide (q.st = .barred)))

/-- The first condition of R465 that fails, numbered 1 to 5; 0 when the region is eligible. -/
def eligibility (s : State) (r : Nat) : Nat :=
  let t := s.test r
  let reg := s.region r
  if !s.bonds.enabled then 1
  else if (match t.ticksSince with | some n => decide (n < s.bonds.interval) | none => false) then 2
  else if s.kPlan r < 48 then 3
  else if !patternHeld s (bit (classB r)) t.pattern || patternLost s (bit (classB r)) then 4
  else if reg.isolated then 5 else 0

/-- The slice pending for a region: one commanded or owed, or the next one while Cupola holds one pending. -/
def pendingSlice (s : State) (r : Nat) : Option SliceJob :=
  match (s.region r).slice with
  | some j => if j.running then none else some j
  | none => if eligibility s r = 0 then some { slice := (s.test r).next, pattern := (s.test r).pattern } else none

/-- Length of slot `k` in tick units: the tick's last slot takes up its adjustment (R138). -/
def slotUnits (t : TickGen) (k : Nat) : Nat :=
  let start := if k = 0 then 0 else lget 0 t.cfg.offsets (k - 1)
  let stop := if k + 1 < t.cfg.nslots then lget 0 t.cfg.offsets k else t.length
  stop - start

/-- 41 µs in tick units (R161). -/
def sliceUnits : Nat := 15375

/-- The slice that starts at this boundary, and its plane (R161). -/
def sliceStarts (s : State) (r k : Nat) (d : Decision) : Option (SliceJob × Nat) :=
  if d.winner = .schedule ∧ entryTest d.entry = true ∧ d.power = .active ∧
      (s.region r).pins.holdSwitch = false ∧ sliceUnits ≤ slotUnits s.tick k then
    match pendingSlice s r with
    | some j => (testPlane s r j.pattern).map (fun p => (j, p))
    | none => none
  else none

/-- A slice runs in a plane; `entry`, or else the plane now active, runs when it ends (R161, R467). -/
def runSlice (r : Nat) (j : SliceJob) (p entry : Nat) (s : State) : State :=
  let back := (s.region r).active
  let s := switchPlane r p s
  settleHold r (modRegion r (fun x => { x with slice := some { j with running := true, entry := entry, back := back } }) s)

/-- Starts the test fill that a pending slice needs (R463, R464): notes/assumptions/15.md says when. -/
def fillForTest (r : Nat) (s : State) : State :=
  let reg := s.region r
  let want := match reg.slice with
    | some j => if j.running then none else some j.pattern
    | none => if eligibility s r = 0 then some (s.test r).pattern else none
  match want with
  | none => s
  | some k =>
    let i := patternEntry s r k
    if reg.fill.isSome || reg.power.low || reg.trans.isSome || (testPlane s r k).isSome
        || !patternHeld s (bit (classB r)) k then s
    else match freeTestPlane s r with
      | none => s
      | some p => startFill r { plane := p, index := i, test := true } s

/-! ### Changes that take effect -/

/-- The winner turns out unusable at the switch edge (R550): the active plane with the entry's power state. -/
def loseWinner (r : Nat) (d : Decision) (s : State) : State × Decision :=
  let d' := { d with plane := (s.region r).active, power := entryPower d.entry }
  if d.winner = .fabric then
    (raise (fabricEvent r d.slot d.plane 3) (modRegion r (fun x => { x with lost := inc32 x.lost }) s),
      { d' with sw := 3 })
  else
    let s := raise (unusableEvent s r d.winner.code d.plane) s
    (onlyIf d.firstPersist (modRegion r (fun x => { x with persistOv := none })) s, d')

/-- The plane decided is not usable at the switch edge (R550). -/
def State.cannotSwitch (s : State) (r : Nat) (d : Decision) : Bool :=
  decide (d.plane ≠ (s.region r).active) && !(s.region r).usable d.plane

/-- The decision takes effect: the switch edge, then the entry into a lower state (R151, R157). -/
def carryOut (r : Nat) (d : Decision) (ovr : BitVec 2) (outcome : Nat) (s : State) : State :=
  let bad := s.cannotSwitch r d
  let (s, d) := if bad then loseWinner r d s else (s, d)
  let s := switchPlane r d.plane s
  let s := onlyIf (d.power != .active) (startEntry r d.power) s
  let s := setResult r d (if bad then 0 else ovr) (applyPermits r d.entry s)
  answerOverride r d (if bad then stInvalidPlane else stOk) (if bad then 3 else outcome) s

/-- A switch against a high `HOLD_SWITCH` (R150, R154); none takes place where the plane is not usable (R550). -/
def forceChange (r : Nat) (d : Decision) (outcome : Nat) (s : State) : State :=
  if s.cannotSwitch r d then carryOut r d 0 outcome s
  else
    let s := raise (regEvent 0x0B 2 0x0602 r [(1, d.slot), (1, (s.region r).active), (1, d.plane)]) s
    carryOut r d 2 outcome (modRegion r (fun x => { x with forced := inc32 x.forced }) s)

/-- The overrun policy at the end of the grace (R153). -/
def overrun (r : Nat) (d : Decision) (s : State) : State :=
  let c := (s.region r).sched
  if c.force then forceChange r d (if c.grace = 0 then 0 else 1) s
  else skipChange r d (raise (regEvent 0x0B 1 0x0601 r [(1, d.slot), (1, (s.region r).active)]) s)

/-! ### The decision (R147) -/

/-- The override candidate: the pending one when it is due, otherwise the persistent one in force; and whether this is
its first boundary (R148, R149). A pending one whose requester lost the region and claimed it again is taken: whether the claim
revives it is not said (DESIGN CHOICE, notes/assumptions/172.md). -/
def overrideCandidate (r : Nat) (isTick : Bool) (s : State) : State × Option Override × Bool :=
  let reg := s.region r
  let owns := fun (o : Override) => match s.owner (ownKey 0 r) with
    | some w => decide (w.port = o.owner)
    | none => false
  match reg.pendingOv with
  | some o =>
    if o.atTick && !isTick then (s, reg.persistOv, false)
    else
      let s := modRegion r (fun x => { x with pendingOv := none }) s
      if owns o then (s, some o, true)
      else (replyOpt o.waiter stNotOwner [] s, none, false)
  | none => (s, reg.persistOv, false)

/-- Is a plane usable for the decision (R129)? In SHELVED and COLD only the active plane is, which the exit restores or
refills; one that Table 6.9 leaves INVALID is not (R160). -/
def Region.mayTake (r : Region) (p : Nat) : Bool :=
  if r.power.deep then decide (p = r.active) && !r.activeBarred else r.usable p

/-- The override's turn: taken, or refused for an unusable plane (R148). A new persistent override refused at its first boundary leaves
the older one in force, which was no candidate at that boundary: whether it was already replaced is not said (R149; DESIGN CHOICE,
notes/assumptions/172.md). -/
def takeOverride (r k : Nat) (isTick : Bool) (e : BitVec 16) (s : State) : State × Option Decision :=
  let (s, ov, first) := overrideCandidate r isTick s
  match ov with
  | none => (s, none)
  | some o =>
    if (s.region r).mayTake o.plane then
      let s := onlyIf (first && o.persistent) (modRegion r (fun x => { x with persistOv := some { o with waiter := none } })) s
      (s, some { slot := k, tick := s.tick.number.toNat, plane := o.plane, power := o.power.getD (entryPower e),
                 winner := .override, entry := e, force := o.force, waiter := o.waiter,
                 firstPersist := first && o.persistent })
    else
      let s := raise (unusableEvent s r 0 o.plane) s
      (replyOpt o.waiter stInvalidPlane [(16, 1, 3), (17, 1, (s.region r).active)] s, none)

/-- The fabric request's turn: what it makes of `SW_RESULT`, and whether it wins (R147, R148). -/
def takeFabric (r k : Nat) (e : BitVec 16) (lost : Bool) (s : State) : State × BitVec 2 × Bool :=
  let reg := s.region r
  let p := reg.pins
  if !p.swReq then (s, 0, false)
  else
    let refuse := fun (code : BitVec 2) (reason : Nat) =>
      (raise (fabricEvent r k p.swPlane.val reason) (modRegion r (fun x => { x with lost := inc32 x.lost }) s),
        code, false)
    if lost then refuse 2 1
    else if !entryFabric e then refuse 3 2
    else if !reg.usable p.swPlane.val then refuse 3 3
    else (s, 1, true)

/-- All three candidates in order (R147). -/
def chooseWinner (r k : Nat) (isTick gated : Bool) (s : State) : State × Decision :=
  let e := (s.region r).entry k
  let (s, ov) := takeOverride r k isTick e s
  let (s, sw, fab) := takeFabric r k e ov.isSome s
  let base : Decision := { slot := k, tick := s.tick.number.toNat, entry := e, sw := sw, gated := gated }
  let displace := modRegion r (fun x => { x with displaced := inc32 x.displaced })
  match ov with
  | some d => (displace s, { d with sw := sw, gated := gated })
  | none =>
    let reg := s.region r
    if fab then
      (displace s, { base with plane := reg.pins.swPlane.val, power := entryPower e, winner := .fabric })
    else if reg.mayTake (entryPlane e) then
      (s, { base with plane := entryPlane e, power := entryPower e, winner := .schedule })
    else
      (raise (unusableEvent s r 2 (entryPlane e)) s,
        { base with plane := reg.active, power := entryPower e, winner := .none })

/-- The moves between two lower states that go directly (R157). -/
def directMove (a b : Power) : Bool :=
  match a, b with
  | .banked, .damped | .banked, .cold | .damped, .cold | .shelved, .cold => true
  | _, _ => false

/-- A decision of a region that is ACTIVE at its sample edge (R150, R151, R153, R161). -/
def decideRunning (r k : Nat) (d : Decision) (s : State) : State :=
  let reg := s.region r
  match sliceStarts s r k d with
  | some (j, p) =>
    setResult r d 0 (applyPermits r d.entry (runSlice r j p d.plane s))
  | none =>
    if d.plane = reg.active ∧ (d.power = .active ∨ (d.gated = true ∧ d.power = .gated)) then carryOut r d 0 0 s
    else if !reg.pins.holdSwitch then carryOut r d 0 0 s
    else if d.force then forceChange r d 0 s
    else if reg.sched.grace = 0 then overrun r d s
    else modRegion r (fun x => { x with grace := some d }) s

/-- A decision of a region in BANKED or below (R157, R159, R160, R193). -/
def decideAsleep (r : Nat) (d : Decision) (s : State) : State :=
  let reg := s.region r
  if d.power = reg.power then answerOverride r d stOk 0 s
  else if directMove reg.power d.power && decide (d.plane = reg.active) then
    answerOverride r d stOk 0 (setResult r d 0 (applyPermits r d.entry (startEntry r d.power s)))
  else if reg.power = .cold ∧ reg.record.isNone then
    let s := raise (unusableEvent s r d.winner.code d.plane) s
    answerOverride r d stInvalidPlane 3
      (onlyIf d.firstPersist (modRegion r (fun x => { x with persistOv := none })) s)
  else startExit r (some d) s

/-- The decision of one region at the boundary of slot `k` (R147, R157, R159, R160, R440). At its first decision after an
isolation, every override that is pending is due (`fresh`; R165). -/
def decideRegion (r k : Nat) (fresh : Bool) (s : State) : State :=
  let gated := decide ((s.region r).power = .gated)
  let s := onlyIf gated (modRegion r (fun x => { x with power := .active })) s
  let (s, d) := chooseWinner r k (k == 0 || fresh) gated s
  if (s.region r).power = .active then decideRunning r k d s else decideAsleep r d s

/-- Transition code of the event of R158 (Table 19.18). -/
def Trans.code : Trans → Nat
  | .entering dest | .quiescing dest => dest.code
  | .saving => Power.shelved.code
  | .exiting left => 128 + left.code

/-- A region at the boundary of slot `k` (R147, R156, R158, R162, R165). Where the regions are stopped the boundary passes
without effect (R59): only what was under way at the stop boundary ends. -/
def regionBoundary (k r : Nat) (s : State) : State :=
  let s := abandonSlice r (endGrace r s)
  let s := onlyIf ((s.region r).trans.isNone) (endAfter r) s
  if !s.regionsRun then s
  else
    let s := modRegion r (fun x => { x with slotOut := k, deferred := none }) s
    let fresh := !(s.region r).freeDue.isEmpty
    let s := if fresh then resumeSweeps r false (answerReleases r (forEach (s.region r).freeDue (fun c => endCause r c) s))
      else answerReleases r s
    let reg := s.region r
    if reg.isolated && !(decide (reg.iso = [.boot]) && decide (s.dev.release = .t0)) then s
    else match reg.trans with
      | some t =>
        raise (regEvent 0x0B 2 0x0606 r [(1, k), (1, t.code)])
          (bumpPower r 7 (modRegion r (fun x => { x with deferred := some k }) s))
      | none => decideRegion r k fresh s

/-- A deferred boundary is decided at the first fabric edge after the transition (R158). -/
def takeDeferred (r : Nat) (s : State) : State :=
  let reg := s.region r
  match reg.deferred with
  | none => s
  | some k =>
    if reg.trans.isSome || !s.regionsRun then s
    else
      let s := modRegion r (fun x => { x with deferred := none }) s
      if reg.isolated then s else decideRegion r k false s

/-- The transition that deferred a boundary is complete: a region whose fabric clock stands still in its new state has no
edge to wait for, and decides at once with low inputs (R157, R158). -/
def settleDeferred (r : Nat) (s : State) : State := onlyIf ((s.region r).power != .active) (takeDeferred r) s

/-- What was decided for the end of an exit (R157). It waits while the regions are stopped (R59), and a region that could
not be raised has it reported. -/
def takeAfter (r : Nat) (s : State) : State :=
  let reg := s.region r
  match reg.after with
  | none => s
  | some d =>
    if !s.regionsRun then s
    else
      let s := modRegion r (fun x => { x with after := none }) s
      if reg.power = .active then carryOut r d 0 0 s else answerOverride r d stInvalidPlane 3 s

end Sys2Proof.Machine
end

