-- ==== Sys2Proof/Machine/ImageOps.lean ====
section
/-! DEFINITION. The flash and its directory (R166 to R172), the arguments of `TICK_CONFIG` and `SCHEDULE_SET` as commands
and boot patterns carry them (R135 to R145), pattern images and their checks (R173 to R180, R186), and the writing of a
library entry (R181). -/

namespace Sys2Proof.Machine

/-! ### Flash (R168, R170 to R172) -/

/-- Size of the device on a chip select. -/
def LibSt.flashSize (l : LibSt) (cs : Nat) : Nat := if cs = 0 then l.flashSize0 else l.flashSize1

/-- Bytes that can be read from a flash address on: none beyond the size that the device declares (R168). -/
def LibSt.flashRoom (l : LibSt) (a : Nat) : Nat :=
  if 2 ^ 32 ≤ a then 0 else l.flashSize (a / 2147483648) - a % 2147483648

/-- Does a device declare the mode in use (R166, R167)? -/
def Sfdp.suits (d : Sfdp) (quad : Bool) : Bool := d.present && if quad then d.quad else d.octal

/-- The port reads the SFDP tables after a reset: a device without them, or one that does not declare the mode in use, is
treated as blank flash (R167). -/
def LibSt.readSfdp (l : LibSt) (quad : Bool) : LibSt :=
  { l with blank0 := !l.sfdp0.suits quad, blank1 := !l.sfdp1.suits quad }

/-- Is the device at a flash address treated as blank? -/
def LibSt.blankAt (l : LibSt) (a : Nat) : Bool := if a < 2147483648 then l.blank0 else l.blank1

/-- `n` bytes of flash; an unlisted byte is erased, 0xFF, and so is every byte of a device treated as blank. -/
def LibSt.flashBytes (l : LibSt) (a n : Nat) : List Byte :=
  if l.blankAt a then List.replicate n 0xFF else (rdBytes l.flash a n).map (fun b => ~~~b)

/-- Does Cupola program or erase the device at a flash address now (R169)? -/
def flashBusy (s : State) (addr : Nat) : Bool :=
  match s.lib.jobs with
  | j :: _ => match j.ops with
    | .erase a _ :: _ | .program a _ :: _ => a / 2147483648 == addr / 2147483648
    | [] => false
  | [] => false

/-- Programming clears bits: it never sets one. -/
def programBytes (m : Memory) (a : Nat) : List Byte → Memory
  | [] => m
  | b :: bs => programBytes (wrByte m a (rdByte m a ||| ~~~b)) (a + 1) bs

/-- `n` bytes of a byte list from `i` on, little-endian. -/
def leAt (bs : List Byte) (i n : Nat) : Nat := leNat ((bs.drop i).take n)

/-- A number from bytes, the first being the most significant. -/
def beNat (bs : List Byte) : Nat := leNat bs.reverse

/-- Bytes of a directory copy, and its place. -/
def dirBytes : Nat := 4096
def dirAt (copy : Nat) : Nat := copy * 65536

/-- A directory copy that is good (R170). -/
def LibSt.dirCopy (l : LibSt) (copy : Nat) : Option (List Byte) :=
  if l.flashRoom (dirAt copy) < dirBytes then none
  else
    let bs := l.flashBytes (dirAt copy) dirBytes
    if leAt bs 0 4 = 0x44544E47 ∧ leAt bs 4 2 = 1 ∧ leAt bs 12 4 = (crc32c (setLe bs 12 4 0)).toNat then some bs else none

/-- The copy in use: of two good ones that with the higher sequence (R170); with equal sequences, which the manual does not
order, copy 0 (DESIGN CHOICE, notes/assumptions/162.md). -/
def LibSt.dirInUse (l : LibSt) : Option (Nat × List Byte) :=
  match l.dirCopy 0, l.dirCopy 1 with
  | some a, some b => if leAt a 8 4 < leAt b 8 4 then some (1, b) else some (0, a)
  | some a, none => some (0, a)
  | none, some b => some (1, b)
  | none, none => none

/-- The entries of a directory with their numbers, those beyond the count ignored (R171). -/
def dirEntries (d : List Byte) : List (Nat × List Byte) :=
  (List.range (min 63 (leAt d 6 2))).map (fun i => (i, (d.drop (64 + 64 * i)).take 64))

/-- Fields of an entry (Table 7.2). -/
def entType (e : List Byte) : Nat := leAt e 0 1
def entState (e : List Byte) : Nat := leAt e 1 1
def entAddr (e : List Byte) : Nat := leAt e 4 4
def entLen (e : List Byte) : Nat := leAt e 8 4
def entSeq (e : List Byte) : Nat := leAt e 12 4
def entDigest (e : List Byte) : List Byte := (e.drop 16).take 48

/-- The valid entry of a type; of several, which the manual does not order, the first (DESIGN CHOICE,
notes/assumptions/162.md). -/
def validEntry (d : List Byte) (ty : Nat) : Option (List Byte) :=
  ((dirEntries d).find? (fun e => entType e.2 == ty && entState e.2 == 0x3F)).map (·.2)

/-- Images of a pair and golden in the order of R172: `first` is type A's code. Image codes are 1 A, 2 B, 3 golden. With equal
image sequences, which the manual does not order, A comes first (DESIGN CHOICE, notes/assumptions/162.md). -/
def imageOrder (d : List Byte) (first : Nat) : List (Nat × List Byte) :=
  let a := (validEntry d first).map (fun e => (1, e))
  let b := (validEntry d (first + 1)).map (fun e => (2, e))
  let g := (validEntry d (first + 2)).map (fun e => (3, e))
  let pair := match a, b with
    | some x, some y => if entSeq x.2 < entSeq y.2 then [y, x] else [x, y]
    | x, y => x.toList ++ y.toList
  pair ++ g.toList

/-- The stored image of an entry, if it can be read whole and its digest matches (R172). -/
def LibSt.goodImage (l : LibSt) (e : List Byte) : Option (List Byte) :=
  if l.flashRoom (entAddr e) < entLen e then none
  else
    let bs := l.flashBytes (entAddr e) (entLen e)
    if beBytes 48 (Config.sha384 bs).toNat = entDigest e then some bs else none

/-! ### Tick configurations and schedules -/

/-- A tick configuration from bytes 8 to 75 of `TICK_CONFIG`. -/
def tickCfgOf (bs : List Byte) : TickCfg :=
  let n := leAt bs 5 1
  { period := leAt bs 0 4, source := BitVec.ofNat 2 (leAt bs 4 1), nslots := n
    offsets := (List.range (n - 1)).map (fun i => leAt bs (8 + 4 * i) 4) }

/-- The bounds of R135, R136, R140 and R355. -/
def tickCfgValid (bs : List Byte) : Bool :=
  let p := leAt bs 0 4
  let n := leAt bs 5 1
  let off := fun i => leAt bs (8 + 4 * i) 4
  let at_ := fun k => if k = 0 then 0 else off (k - 1)
  decide (375 ≤ p) && decide (p ≤ 375000) && decide (leAt bs 4 1 ≤ 2) && decide (1 ≤ n) && decide (n ≤ 16)
    && (List.range n).all (fun k => decide (at_ k + 64 ≤ (if k + 1 < n then off k else p)))
    && (List.range 15).all (fun i => decide (i + 1 < n) || off i == 0)
    && (leAt bs 4 1 != 2 || decide (750 ≤ p))

/-- A tick configuration in the layout of the arguments, from byte 16 on. -/
def tickCfgResults (c : TickCfg) : Results :=
  [(16, 4, c.period), (20, 1, c.source.toNat), (21, 1, c.nslots)]
    ++ (List.range 15).map (fun i => (24 + 4 * i, 4, lget 0 c.offsets i))

/-- A schedule table with its parameters from bytes 8 to 46 of `SCHEDULE_SET`. -/
def schedOf (bs : List Byte) : Sched :=
  { entries := (List.range 16).map (fun i => BitVec.ofNat 16 (leAt bs (2 * i) 2))
    grace := leAt bs 32 2, force := leAt bs 34 1 == 1, warnLead := leAt bs 36 2
    testMask := BitVec.ofNat 4 (leAt bs 38 1) }

/-- The checks of R142, R143 and R145. -/
def schedValid (bs : List Byte) : Bool :=
  let mask := leAt bs 38 1
  (List.range 16).all (fun i =>
      let e := BitVec.ofNat 16 (leAt bs (2 * i) 2)
      e &&& 0xF03C#16 == 0 && decide ((e.extractLsb' 6 3).toNat < 6) && !mask.testBit (entryPlane e))
    && decide (leAt bs 32 2 ≤ 4095) && decide (leAt bs 34 1 ≤ 1) && decide (leAt bs 36 2 ≤ 4095) && decide (mask < 16)

/-- A schedule in the layout of the arguments, from byte 16 on. -/
def schedResults (c : Sched) : Results :=
  (List.range 16).map (fun i => (16 + 2 * i, 2, (lget 0 c.entries i).toNat))
    ++ [(48, 2, c.grace), (50, 1, bit c.force), (52, 2, c.warnLead), (54, 1, c.testMask.toNat)]

/-! ### Images (R173 to R180, Table 7.7) -/

/-- A rejected image: the cause of Table 7.7, the status, the frame address and the index. -/
structure Reject where
  cause : Nat
  status : Nat
  addr : Nat := 0
  index : Nat := 0xFFFF

/-- A rejection with the status of its cause. -/
def reject (cause : Nat) : Reject :=
  { cause := cause
    status := match cause with
      | 0x02 | 0x03 | 0x11 => stBadArg
      | 0x04 | 0x05 | 0x07 | 0x12 | 0x13 => stDenied
      | _ => stFault }

/-- A section of an image. -/
inductive Section where
  /-- Placement, library index and frames, each with its frame address. -/
  | pattern (placement index : Nat) (frames : List (Nat × List Byte))
  | assign (records : List (List Byte))
  | schedule (records : List (List Byte))
  | tick (args : List Byte)

/-- An image that has passed the checks. -/
structure Image where
  patternId : Nat
  encrypted : Bool
  anchor : Nat
  sections : List Section

/-- Bytes of the image from `o` on; reading beyond what the source gives is check 1. -/
def takeAt (bs : List Byte) (o n : Nat) : Except Reject (List Byte) :=
  if o + n ≤ bs.length then .ok ((bs.drop o).take n) else .error (reject 0x01)

/-- Fails with a rejection unless the condition holds. -/
def need (c : Bool) (r : Reject) : Except Reject Unit := if c then .ok () else .error r

/-- Are the bytes of a list zero? -/
def allZero (bs : List Byte) : Bool := bs.all (· == 0)

/-- Run-length tokens (Table 7.5). -/
def rleDecode : Nat → List Byte → Option (List Byte)
  | _, [] => some []
  | 0, _ => none
  | f + 1, c :: rest =>
    if c.toNat < 0x80 then
      if rest.length < c.toNat + 1 then none
      else (rleDecode f (rest.drop (c.toNat + 1))).map (fun t => rest.take (c.toNat + 1) ++ t)
    else match rest with
      | [] => none
      | b :: r => (rleDecode f r).map (fun t => .replicate (c.toNat - 0x7E) b ++ t)

/-- The tier bit of a frame address. -/
def tierOf (a : Nat) : Nat := a / 8192 % 2

/-- The decoded frame of one record, and where the next record begins (check 12). -/
def decodeRecord (bs : List Byte) (method pos stop addr : Nat) (seen : List (Nat × List Byte)) :
    Except Reject (List Byte × Nat) := do
  let bad : Reject := { reject 0x0B with addr := addr }
  match method with
  | 0 =>
    need (decide (pos + 528 ≤ stop)) bad
    return (← takeAt bs pos 528, pos + 528)
  | 1 => return (.replicate 528 0, pos)
  | 2 =>
    need (decide (pos + 4 ≤ stop)) bad
    let w := leNat (← takeAt bs pos 4)
    need (w < 2 ^ 20 && tierOf w == tierOf addr) bad
    match seen.find? (fun f => f.1 == w) with
    | some f => return (f.2, pos + 4)
    | none => .error bad
  | 3 =>
    need (decide (pos + 2 ≤ stop)) bad
    let n := leNat (← takeAt bs pos 2)
    need (decide (pos + 2 + n ≤ stop)) bad
    match rleDecode n (← takeAt bs (pos + 2) n) with
    | some f =>
      need (f.length == 528) bad
      return (f, pos + 2 + n)
    | none => .error bad
  | _ => .error bad

/-- The frame records of a section, checks 8 to 13; `region` is what R176 asks of the region field. Bits [31:24] of a record's
word are zero (R177); the cause of one that is not is not named, and the model has 0x06, malformed (DESIGN CHOICE,
notes/assumptions/58.md). -/
def decodeRecords (bs : List Byte) (region stop : Nat) :
    Nat → Nat → List (Nat × List Byte) → Except Reject (List (Nat × List Byte))
  | 0, _, seen => .ok seen
  | fuel + 1, pos, seen => do
    if pos = stop then return seen
    need (decide (pos + 4 ≤ stop)) (reject 0x06)
    let w := leNat (← takeAt bs pos 4)
    let addr := w % 2 ^ 20
    let at_ := fun c => ({ reject c with addr := addr } : Reject)
    need (decide (w < 2 ^ 24)) (at_ 0x06)
    need (addr / 16384 == region) (at_ 0x08)
    need (frameNumber (addr % 16384)).isSome (at_ 0x09)
    need (!seen.any (fun f => f.1 == addr)) (at_ 0x0A)
    let (f, next) ← decodeRecord bs (w / 2 ^ 20) (pos + 4) stop addr seen
    need (decide (decodeSyn 64 (frameOf f).syn.toNat = .clean)) (at_ 0x0C)
    decodeRecords bs region stop fuel next (seen ++ [(addr, f)])

/-- What a section's frames use, by the class of its placement. -/
def sectionUse (placement : Nat) (frames : List (Nat × List Byte)) : PlaneUse :=
  let cls := if placement < 64 then classB placement else placement == 0x41
  Config.frameUse cls (frames.map (fun f => (f.1 % 16384, (frameOf f.2).data)))

/-- Checks 14 and 15 (R114, R120). -/
def checkUse (u : PlaneUse) : Except Reject Unit := do
  need (!(List.range 64).any (fun k => contended (u.enables k))) (reject 0x0D)
  need (!u.iso.any (fun c => c.2 == 3#2)) (reject 0x0E)

/-- What the checks of an image need to know of the device and of the command. -/
structure ImageCtx where
  boot : Bool
  /-- Check 7 is left out (R502). -/
  noIndex : Bool := false
  /-- The index that the command names, and the region of its target plane. -/
  want : Nat := 0xFFFF
  region : Option Nat := none
  capacity : Nat
  /-- Is a library entry EMPTY? -/
  empty : Nat → Bool
  fuses : Fuses

/-- The library index of a section (check 7); `taken` are the entries that the image is writing. The command's index
decides unless it is 0xFFFF, then the section's. -/
def claimIndex (c : ImageCtx) (own : Nat) (taken : List Nat) : Except Reject Nat :=
  let w := if c.want = 0xFFFF then own else c.want
  let free := fun i => c.empty i && !taken.contains i
  if c.noIndex then .ok own
  else if w = 0xFFFF ∧ c.boot = false then
    match (List.range c.capacity).find? free with
    | some i => .ok i
    | none => .error { reject 0x11 with status := stNoRoom }
  else if w < c.capacity && free w then .ok w else .error { reject 0x11 with index := w }

/-- Records of `n` bytes each. -/
def recordsOf (n count : Nat) (bs : List Byte) : List (List Byte) :=
  (List.range count).map (fun i => (bs.drop (n * i)).take n)

/-- A payload of records or arguments of a fixed length. -/
def fixedPayload (bs : List Byte) (pos len want : Nat) : Except Reject (List Byte) := do
  need (len == want) (reject 0x06)
  takeAt bs (pos + 16) len

/-- One section at `pos` (checks 6 to 15), and where the next one begins. -/
def parseSection (c : ImageCtx) (bs : List Byte) (stop pos : Nat) (taken : List Nat) :
    Except Reject (Section × Nat) := do
  need (decide (pos + 16 ≤ stop)) (reject 0x06)
  let h ← takeAt bs pos 16
  let ty := leAt h 0 1
  let place := leAt h 1 1
  let len := leAt h 4 4
  let count := leAt h 8 2
  let next := pos + 16 + ceilDiv len 16 * 16
  if ty = 1 then
    match c.region with
    | some r => need (placementFits place r) (reject 0x07)
    | none => pure ()
  let index ← if ty = 1 then claimIndex c (leAt h 2 2) taken else pure 0xFFFF
  let own := fun (x : Except Reject (Section × Nat)) => match x with
    | .error r => .error { r with index := index }
    | ok => ok
  own do
    need (ty == 1 || (c.boot && (ty == 2 || ty == 3 || ty == 4))) (reject 0x06)
    need (allZero (h.drop 10) && decide (next ≤ stop)) (reject 0x06)
    let sec ← match ty with
      | 1 => do
        need (decide (place < 64) || place == 0x40 || place == 0x41) (reject 0x06)
        let fs ← decodeRecords bs (if place < 64 then place else 0) (pos + 16 + len) (len + 1) (pos + 16) []
        need (fs.length == count) (reject 0x06)
        pure (Section.pattern place index fs)
      | 2 => do
        let p ← fixedPayload bs pos len (12 * count)
        pure (Section.assign (recordsOf 12 count p))
      | 3 => do
        let p ← fixedPayload bs pos len (40 * count)
        pure (Section.schedule (recordsOf 40 count p))
      | _ => do
        let p ← fixedPayload bs pos len 68
        pure (Section.tick p)
    need (allZero (← takeAt bs (pos + 16 + len) (next - pos - 16 - len))) (reject 0x06)
    match sec with
      | .pattern pl _ fs => checkUse (sectionUse pl fs)
      | _ => pure ()
    return (sec, next)

/-- Library indices of sections. -/
def sectionIndex : Section → List Nat
  | .pattern _ i _ => [i]
  | _ => []

/-- All the sections, in order; the body ends with the last one. -/
def parseSections (c : ImageCtx) (bs : List Byte) (stop : Nat) : Nat → Nat → List Section → Except Reject (List Section)
  | 0, pos, acc => do
    need (pos == stop) (reject 0x06)
    return acc
  | n + 1, pos, acc => do
    let (x, next) ← parseSection c bs stop pos (acc.flatMap sectionIndex)
    match x with
    | .tick _ => need (!acc.any (fun y => match y with | .tick _ => true | _ => false)) (reject 0x06)
    | _ => pure ()
    parseSections c bs stop n next (acc ++ [x])

/-- Sections of one kind. -/
def assignsOf (l : List Section) : List (List Byte) := l.flatMap (fun x => match x with | .assign r => r | _ => [])
def schedulesOf (l : List Section) : List (List Byte) := l.flatMap (fun x => match x with | .schedule r => r | _ => [])

/-- Region, active plane and index of plane `p` of a plane assignment record. -/
def asgRegion (r : List Byte) : Nat := leAt r 0 1
def asgActive (r : List Byte) : Nat := leAt r 1 1
def asgIndex (r : List Byte) (p : Nat) : Nat := leAt r (4 + 2 * p) 2

/-- Is an index in the image with a placement that fits a region? -/
def namedFits (l : List Section) (i r : Nat) : Bool :=
  l.any (fun x => match x with | .pattern pl j _ => j == i && placementFits pl r | _ => false)

/-- Check 16. -/
def checkPlan (l : List Section) : Except Reject Unit := do
  let asg := assignsOf l
  let sch := schedulesOf l
  let okAsg := asg.all (fun r => decide (asgRegion r < 64) && decide (asgActive r < 4) && allZero ((r.drop 2).take 2)
    && asgIndex r (asgActive r) != 0xFFFF
    && (List.range 4).all (fun p => asgIndex r p == 0xFFFF || namedFits l (asgIndex r p) (asgRegion r)))
  let once := fun (rs : List Nat) => decide (rs.eraseDups.length = rs.length)
  let okSch := sch.all (fun r => decide (leAt r 0 1 < 64) && schedValid (r.drop 1))
  let okTick := l.all (fun x => match x with | .tick a => tickCfgValid a | _ => true)
  need (okAsg && once (asg.map asgRegion) && okSch && once (sch.map (fun r => leAt r 0 1)) && okTick) (reject 0x10)

/-- Bytes in a header and in a signature, and the greatest image (R173). -/
def headerBytes : Nat := 256
def sigBytes : Nat := 96
def maxImage : Nat := 268435456

/-- The GCM keystream applied to a body: counter block 2 serves its first 16 bytes (NIST SP 800-38D). -/
def gcmBody (key : BitVec 256) (nonce body : List Byte) : List Byte :=
  let ks := (List.range (ceilDiv body.length 16)).flatMap (fun i =>
    beBytes 16 (Config.aes256 key (BitVec.ofNat 128 (beNat nonce * 2 ^ 32 + (i + 2) % 2 ^ 32))).toNat)
  List.zipWith (· ^^^ ·) body ks

/-- The header (checks 2 to 5): anchor, and the key of an encrypted body. -/
def checkHeader (c : ImageCtx) (h : List Byte) : Except Reject (Nat × Option (BitVec 256)) := do
  let flags := leAt h 7 1
  let kind := leAt h 6 1
  let len := leAt h 8 4
  let enc := flags % 2 == 1
  need (leAt h 0 4 == 0x50544E47 && leAt h 4 2 == 1 && decide (flags < 4) && decide (headerBytes + sigBytes ≤ len)
    && decide (len ≤ maxImage) && (kind != 2 || leAt h 12 2 == 1) && allZero ((h.drop 14).take 2)
    && allZero ((h.drop 44).take 4) && allZero (h.drop 161)
    && (enc || (allZero ((h.drop 32).take 12) && allZero ((h.drop 48).take 16)))) (reject 0x02)
  need (kind == if c.boot then 1 else 2) (reject 0x03)
  let hash := Config.sha384 ((h.drop 64).take 97)
  let anchor ← if flags / 2 % 2 = 1 then
      if hash = c.fuses.vendorHash then pure 1 else Except.error (reject 0x04)
    else match c.fuses.customerHash with
      | none => pure 2
      | some k => if hash = k then pure 0 else Except.error (reject 0x04)
  if enc then
    match c.fuses.aesKey with
    | none => .error (reject 0x05)
    | some k => return (anchor, some k)
  else return (anchor, none)

/-- A whole image from the bytes that its source gives: every check of Table 7.7 in the order in which the stream meets
them. -/
def parseImage (c : ImageCtx) (bs : List Byte) : Except Reject Image := do
  let h ← takeAt bs 0 headerBytes
  let (anchor, key) ← checkHeader c h
  let len := leAt h 8 4
  let stop := len - sigBytes
  let body := (bs.drop headerBytes).take (stop - headerBytes)
  let plain := match key with
    | none => bs
    | some k => h ++ gcmBody k ((h.drop 32).take 12) body ++ bs.drop stop
  let secs ← parseSections c plain stop (leAt h 12 2) headerBytes []
  checkPlan secs
  let sig ← takeAt bs stop sigBytes
  need (Config.ecdsaVerify ((h.drop 64).take 97) (Config.sha384 (bs.take stop)) sig) (reject 0x12)
  match key with
    | none => pure ()
    | some k =>
      let aad := h.take 48 ++ .replicate 16 0 ++ h.drop 64
      need (beBytes 16 (Config.gcmTag k (BitVec.ofNat 96 (beNat ((h.drop 32).take 12))) aad body).toNat
        == (h.drop 48).take 16) (reject 0x13)
  return { patternId := leAt h 16 16, encrypted := key.isSome, anchor := anchor, sections := secs }

/-! ### Reading an image's source (check 1) -/

/-- `n` HBM lines from `a` on, as the Ladle reads them: it stops at a protected range, beyond HBM, or at an error. -/
def readHbmLines (mid : Nat) : Nat → Nat → State → State × List Byte
  | 0, _, s => (s, [])
  | n + 1, a, s =>
    if hbmBytes ≤ a ∨ (s.rangeOf a).isSome then (s, [])
    else
      let (s, rc, l) := hbmRead a mid s
      if rc = rcOk then
        let (s, rest) := readHbmLines mid n (a + 64) s
        (s, bytesOf l 64 ++ rest)
      else (s, [])

/-- `n` bytes of an HBM buffer, or those before the first that cannot be read. -/
def readBuffer (mid a n : Nat) (s : State) : State × List Byte :=
  if a % 64 ≠ 0 then (s, [])
  else
    let (s, bs) := readHbmLines mid (ceilDiv n 64) a s
    (s, bs.take n)

/-- The image length that a header gives. -/
def headerLength (h : List Byte) : Nat := if h.length = headerBytes then min (leAt h 8 4) maxImage else headerBytes

/-- The bytes of an image, header first. -/
def readSource (flash : Bool) (a : Nat) (s : State) : State × List Byte :=
  if flash then
    let room := s.lib.flashRoom a
    let n := headerLength (s.lib.flashBytes a (min room headerBytes))
    (s, s.lib.flashBytes a (min room n))
  else
    let (s, h) := readBuffer 66 a headerBytes s
    let (s, rest) := readBuffer 66 (a + headerBytes) (headerLength h - headerBytes) s
    (s, if h.length = headerBytes then h ++ rest else h)

/-! ### Writing an entry (R181, R182) -/

/-- The plain bytes of an entry. -/
def entryPlain (frames : List (Nat × List Byte)) : List Byte :=
  (List.range patternFrames).flatMap (fun n =>
    match frames.find? (fun f => f.1 % 16384 == frameKey n) with
    | some f => f.2
    | none => .replicate 528 0)

/-- Writes an entry's lines through the Ladle; false when a write is refused. -/
def writeEntryBytes (i : Nat) (frames : List (Nat × List Byte)) (s : State) : State × Bool :=
  let bs := entryPlain frames
  (List.range (entryBytes / 64)).foldl (fun (acc : State × Bool) k =>
    if acc.2 then
      let (t, rc) := hbmWrite (entryAddr s i + 64 * k) 66 (lineOf (bs.drop (64 * k))) (BitVec.allOnes 64) acc.1
      (t, rc == rcOk)
    else acc) (s, true)

/-- An event of Table 7.13. -/
def loadEvent (row sev : Nat) (details : List (Nat × Nat)) : EvRec :=
  { cls := 0x0C, sev := sev, code := 0x0700 + row, details := details }

/-- One region-pattern section becomes a READY entry. -/
def makeReady (im : Image) (place i : Nat) (frames : List (Nat × List Byte)) (boot : Bool) (mid : Nat) (s : State) : State :=
  let s := modEntry i (fun _ =>
    { st := entryReady, placement := BitVec.ofNat 8 place, anchor := BitVec.ofNat 8 im.anchor
      flags := BitVec.ofNat 8 (bit im.encrypted + 2 * bit boot), carried := frames.length
      patternId := BitVec.ofNat 128 im.patternId, tickLoaded := s.tick.number, loadedBy := BitVec.ofNat 8 mid }) s
  raise (loadEvent 1 0 [(2, i), (16, im.patternId), (1, place), (1, im.anchor)]) s

/-- Places every region pattern of an image in the library; false when a write is refused. -/
def placeImage (im : Image) (boot : Bool) (mid : Nat) (s : State) : State × Bool :=
  im.sections.foldl (fun (acc : State × Bool) x =>
    match x with
    | .pattern pl i fs =>
      if acc.2 then
        let (t, ok) := writeEntryBytes i fs acc.1
        if ok then (makeReady im pl i fs boot mid t, true) else (t, false)
      else acc
    | _ => acc) (s, true)

/-- The events of a rejection (R186): `source` is 0 for HBM, 1 for flash. -/
def rejectEvents (r : Reject) (flash : Bool) (mid : Nat) (s : State) : State :=
  let s := raise (loadEvent 2 3 [(1, r.cause), (2, r.index), (4, r.addr), (1, bit flash)]) s
  onlyIf (r.cause == 0x04 || r.cause == 0x12 || r.cause == 0x13)
    (raise { cls := 5, sev := 2, code := 0x0703, details := [(1, r.cause), (1, bit flash), (1, mid)] }) s

/-- What the checks need to know, for a command or for the boot load; `own` is an entry that the request itself holds. -/
def imageCtx (boot : Bool) (want : Nat) (region own : Option Nat) (s : State) : ImageCtx :=
  { boot := boot, want := want, region := region, capacity := s.lib.capacity, fuses := s.env.fuses
    empty := fun i => decide ((s.entry i).st = entryEmpty) || decide (own = some i) }

end Sys2Proof.Machine
end

