-- ==== Sys2Proof/Machine/FillOps.lean ====
section
/-! DEFINITION. How fills end (R130, R131, R463), how the Ladle takes its next request (R185 to R188), and how a load into
the active plane begins and ends (R190 to R192). -/

namespace Sys2Proof.Machine

/-! ### Ordinary and test fills -/

/-- An event of a fill: region, plane, index and more. -/
def fillEvent (row sev r : Nat) (f : FillJob) (details : List (Nat × Nat)) : EvRec :=
  regEvent 0x0C sev (0x0600 + row) r ((1, f.plane) :: (2, f.index) :: details)

/-- The blocks of a region that a defect-map entry touches: the block of a wire, the eight blocks of a block memory
(R54). -/
def defectBlocks (d : BitVec 32) : List Nat :=
  match (d.extractLsb' 30 2).toNat with
  | 0 => [64 * (d.extractLsb' 10 5).toNat + (d.extractLsb' 15 6).toNat]
  | 1 =>
    let m := (d.extractLsb' 0 8).toNat
    (List.range 8).map (fun i => 64 * (m / 8) + 8 * (m % 8) + i)
  | _ => []

/-- A plane's use without the resources of a defect-map entry. -/
def PlaneUse.without (u : PlaneUse) (d : BitVec 32) : PlaneUse :=
  { u with xbar := u.xbar.filter (fun w => !({ xbar := [w] } : PlaneUse).hits d)
           box := u.box.filter (fun w => !({ box := [w] } : PlaneUse).hits d)
           bonds := u.bonds.filter (fun w => !({ bonds := [w] } : PlaneUse).hits d)
           brams := u.brams.filter (fun b => !({ brams := [b] } : PlaneUse).hits d) }

/-- A test fill deselects what the defect map lists and notes the excluded blocks (R463). -/
def deselected (r : Nat) (s : State) (p : Plane) : Plane :=
  let hit := (s.defectMap r).filter p.use.hits
  if hit.isEmpty then p
  else
    let data := Config.deselect (classB r) (p.frames.map (fun f => (f.1, f.2.data))) hit
    { p with frames := (data.map (fun f => (f.1, ({ data := f.2 } : Frame)))).filter (fun f => decide (f.2 ≠ {}))
             use := hit.foldl PlaneUse.without p.use
             excluded := (hit.flatMap defectBlocks).eraseDups }

/-- Starts the fills that wait, one at a time; one whose region sleeps is abandoned. -/
def nextFill (r : Nat) (s : State) : State :=
  let reg := s.region r
  match reg.fill, reg.fillWait with
  | none, f :: rest =>
    if reg.power.low then
      forEach reg.fillWait (abandonOne r reg.power) (modRegion r (fun x => { x with fillWait := [] }) s)
    else modRegion r (fun x =>
      { x.modPlane f.plane (fun q => { q with st := .filling }) with fill := some f, fillWait := rest }) s
  | _, _ => s

/-- The copy of an entry for a fill, its placement checked first (R130 step 1). A bus error on the plane-fill path (R11) ends it
as one met at the source does; the frame that it met is open. -/
def copyFor (r : Nat) (f : FillJob) (s : State) : State × Copied :=
  if !(s.entry f.index).fits r then (s, .failed (frameAddr r 0) 0x07)
  else if f.spoiled then (useFree s, .failed (frameAddr r (freshNat s % 8192)) 0x01)
  else copyEntry r f.index s

/-- A fill ends (R130, R131): the state, and whether the plane is usable. -/
def endFill (r : Nat) (f : FillJob) (s : State) : State × Bool :=
  match copyFor r f s with
  | (s, .failed addr cause) =>
    let s := modRegion r (fun x => x.modPlane f.plane (fun q => { q with st := .invalid })) s
    let s := raise (fillEvent 0x0B 3 r f [(4, addr), (1, cause)]) s
    (fillReply f stFault 0 cause addr PlaneSt.invalid.code s, false)
  | (s, .ok frames n) =>
    let plane := filledPlane r f.index frames {}
    let done := fun (st : PlaneSt) (p : Plane) (status : Nat) (s : State) =>
      let s := modRegion r (fun x => x.modPlane f.plane (fun _ => { p with st := st, isTest := f.test })) s
      fillReply f status n 0 0 st.code (raise (fillEvent 0x0A 0 r f [(2, n)]) s)
    if f.test then (done .test (deselected r s plane) stOk s, true)
    else if s.barredBy r plane.use then (done .barred plane stInvalidPlane s, false)
    else (done .valid plane stOk s, true)

/-- Does the region let a fill proceed (R133)? -/
def Region.fillable (r : Region) : Bool :=
  !r.power.low && (match r.trans with | some (.entering .gated) | none => true | _ => false)

/-- Is a plane taken by a pending override or a running slice? -/
def Region.planeTaken (r : Region) (p : Nat) : Bool :=
  (match r.pendingOv with | some o => decide (o.plane = p) | none => false)
    || (match r.slice with
      | some j => j.running && (decide (p = r.active) || decide (p = j.entry) || decide (p = j.back))
      | none => false)

/-! ### The Ladle's requests (R185 to R188) -/

/-- The index that the header and the section header of an image give, where checks 2 to 7 pass. -/
def peekIndex (c : ImageCtx) (bs : List Byte) : Option Nat :=
  let r : Except Reject Nat := do
    let h ← takeAt bs 0 headerBytes
    let (_, key) ← checkHeader c h
    let sh ← takeAt bs headerBytes 16
    let sh := match key with
      | none => sh
      | some k => gcmBody k ((h.drop 32).take 12) sh
    need (leAt sh 0 1 == 1) (reject 0x06)
    match c.region with
      | some r => need (placementFits (leAt sh 1 1) r) (reject 0x07)
      | none => pure ()
    claimIndex c (leAt sh 2 2) []
  match r with
  | .ok i => some i
  | .error _ => none

/-- The Ladle starts on the request at the front, once the device of its image is not being programmed (R169): its entry
becomes LOADING when the section header has passed. -/
def startLoad (s : State) : State :=
  match s.lib.queue with
  | [] => s
  | q :: rest =>
    if q.reserved.isSome || (q.flash && flashBusy s q.src) then s else
    let (s, bs) := if q.flash then (s, s.lib.flashBytes q.src (min (s.lib.flashRoom q.src) (headerBytes + 16)))
      else readBuffer 66 q.src (headerBytes + 16) s
    match peekIndex (imageCtx false q.index (q.target.map (·.1)) none s) bs with
    | none => s
    | some i =>
      modEntry i (fun _ => { st := entryLoading })
        (modLib (fun l => { l with queue := { q with reserved := some i } :: rest }) s)

/-- The entry is READY: the target plane is filled from it, or the request answered (R188). -/
def afterReady (q : LoadReq) (i : Nat) (s : State) : State :=
  match q.target with
  | none => loadReply q stOk i 0 0 s
  | some (r, p) =>
    let reg := s.region r
    if !reg.fillable || decide (p = reg.active) then loadReply q stFault i 0 0 s
    else startFill r { plane := p, index := i, waiter := some q.waiter, lib := true } s

/-- The image of the request at the front has been processed (R186, R187). -/
def finishLoad (q : LoadReq) (s : State) : State :=
  let (s, bs) := readSource q.flash q.src s
  let refuse := fun (r : Reject) (s : State) =>
    let r := if r.index = 0xFFFF then { r with index := q.reserved.getD q.index } else r
    loadReply q r.status r.index r.cause r.addr (rejectEvents r q.flash q.master (freeReserved q s))
  match parseImage (imageCtx false q.index (q.target.map (·.1)) q.reserved s) bs with
  | .error r => refuse r s
  | .ok im =>
    match placeImage im false q.master (freeReserved q s) with
    | (s, false) =>
      refuse (reject 0x01) (forEach (im.sections.flatMap sectionIndex) (fun i => modEntry i (fun _ => {})) s)
    | (s, true) => forEach (im.sections.flatMap sectionIndex) (afterReady q) s

/-! ### Loads into the active plane (R190 to R192) -/

/-- The event of a failed active-plane load. -/
def loadFailed (r : Nat) (f : FillJob) (addr cause : Nat) (s : State) : State :=
  raise (regEvent 0x0C 3 0x0706 r [(2, f.index), (4, addr), (1, cause)]) s

/-- A failed load: the plane is INVALID, the region records nothing and goes to COLD, and stays isolated (R192). -/
def dropLoad (r : Nat) (f : FillJob) (s : State) : State :=
  let s := modRegion r (fun x =>
    { x.modPlane f.plane (fun q => { q with st := .invalid, kept := false }) with fill := none, record := none }) s
  nextFill r (startEntry r .cold s)

/-- A load that succeeds (R190 step 4): the region records the entry and waits for its slot boundary. -/
def keepLoad (r : Nat) (f : FillJob) (frames : Table Frame) (s : State) : State :=
  let s := modRegion r (fun x =>
    let x := x.modPlane f.plane (fun q => { filledPlane r f.index frames q with st := .active })
    { x with fill := none, record := some f.index, activeBarred := false, clockOn := true
             freeDue := x.freeDue ++ [.load, .unloaded] }) s
  nextFill r (checkSpines r (raise (regEvent 0x0C 1 0x0705 r [(1, f.plane), (2, f.index)]) s))

/-- The five steps of R130 on the active plane, and what follows. -/
def endLoadActive (r : Nat) (f : FillJob) (s : State) : State :=
  match copyFor r f s with
  | (s, .failed addr cause) =>
    let s := dropLoad r f (loadFailed r f addr cause s)
    fillReply f stFault 0 cause addr PlaneSt.invalid.code s
  | (s, .ok frames n) =>
    if s.barredBy r (useOf r frames) then
      let s := dropLoad r f (useFree (loadFailed r f 0 (freshNat s) s))
      fillReply f stInvalidPlane n 0 0 PlaneSt.invalid.code s
    else fillReply f stOk n 0 0 PlaneSt.active.code (keepLoad r f frames s)

end Sys2Proof.Machine
end

