-- ==== Sys2Proof/Machine/ThermOps.lean ====
section
/-! DEFINITION. Sensors and their cross-check (R445 to R448), thresholds (R449 to R452), the chill governor (R453, R454)
and the thermal state register (Table 17.6). -/

namespace Sys2Proof.Machine

/-! ### Sensors (Tables 17.1, 17.2) -/

/-- Sensor `i`. -/
def ThermSt.sensor (t : ThermSt) (i : Nat) : Sensor := tget {} t.sensors i

/-- Neighbours in a grid of `rows` × `cols`, row-major. -/
def gridNeighbours (rows cols n : Nat) : List Nat :=
  let r := n / cols
  let c := n % cols
  (if r + 1 < rows then [n + cols] else []) ++ (if c + 1 < cols then [n + 1] else [])
    ++ (if 0 < r then [n - cols] else []) ++ (if 0 < c then [n - 1] else [])

/-- The neighbours of a sensor: its stacked partner first. -/
def neighbours (i : Nat) : List Nat :=
  if i < 64 then (64 + i) :: gridNeighbours 8 8 i
  else if i < 128 then (i - 64) :: (gridNeighbours 8 8 (i - 64)).map (· + 64)
  else
    let h := i - 128
    (64 + 16 * (h / 4) + 2 * (h % 4)) :: (gridNeighbours 4 4 h).map (· + 128)

/-- The three sensors of a region's column. -/
def column (r : Nat) : List Nat := [r, 64 + r, 128 + 4 * (r / 16) + r % 8 / 2]

/-- Valid neighbours' readings. -/
def ThermSt.validNear (t : ThermSt) (i : Nat) : List Int :=
  ((neighbours i).filter (fun j => !(t.sensor j).broken)).map (fun j => (t.sensor j).raw)

/-- Insertion into a rising list. -/
def insInt (x : Int) : List Int → List Int
  | [] => [x]
  | y :: ys => if x ≤ y then x :: y :: ys else y :: insInt x ys

def sortInts (l : List Int) : List Int := l.foldr insInt []

/-- The doubled median of a list; with an even count the sum of the two middle readings (R446). -/
def median2 (l : List Int) : Option Int :=
  let v := sortInts l
  let n := v.length
  if n = 0 then none
  else if n % 2 = 1 then some (2 * lget 0 v (n / 2)) else some (lget 0 v (n / 2 - 1) + lget 0 v (n / 2))

/-- Range of a list of medians: more than 2 °C between the least and the greatest. -/
def medianMoved (l : List (Option Int)) : Bool :=
  let v := sortInts (l.filterMap id)
  match v.head?, v.getLast? with
  | some a, some b => decide (16 < b - a)
  | _, _ => false

/-- One sensor's counts after a sample (R447): the readings of all sensors have been taken. -/
def Sensor.check (x : Sensor) (prev : Int) (near : List Int) : Sensor :=
  let med := median2 near
  let far := match med with
    | some m => decide (2 ≤ near.length) && decide (160 < (2 * x.raw - m).natAbs)
    | none => false
  let out := decide (x.raw < -240) || decide (640 < x.raw)
  let run := if x.raw = prev ∧ x.medians ≠ [] then (med :: x.medians).take 256 else [med]
  let x := { x with
    offMedian := if far then x.offMedian + 1 else 0, outRange := if out then x.outRange + 1 else 0, medians := run
    hot := if 500 ≤ x.raw then x.hot + 1 else 0 }
  if x.broken then x
  else if 16 ≤ x.offMedian then { x with broken := true, cause := 1 }
  else if 2 ≤ x.outRange then { x with broken := true, cause := 2 }
  else if run.length = 256 ∧ medianMoved run = true then { x with broken := true, cause := 3 }
  else x

/-- Every sensor's counts after a sample, validity being that before it. -/
def checkSensors (raw : List Int) (t : ThermSt) : ThermSt :=
  let t1 := { t with sensors := (List.range 144).foldl (fun u i =>
    tmod {} u i (fun x => { x with raw := raw.getD i 0 })) t.sensors }
  { t1 with sensors := (List.range 144).foldl (fun u i =>
      tmod {} u i (fun x => x.check (t.sensor i).raw (t1.validNear i))) t1.sensors }

/-- The effective value (R448). -/
def ThermSt.effective (t : ThermSt) (i : Nat) : Int :=
  let x := t.sensor i
  if !x.broken then x.raw
  else match t.validNear i with
    | [] => 4 * t.throttleAt
    | a :: l => l.foldl max a + 20

/-- The sensor with the highest effective value, the lowest index first. -/
def ThermSt.hottest (t : ThermSt) : Nat :=
  (List.range 144).foldl (fun b i => if t.effective b < t.effective i then i else b) 0

/-- A signed reading in 16 bits. -/
def int16 (v : Int) : Nat := (v % 65536).toNat

/-- Columns with fewer than two valid sensors (R448). -/
def ThermSt.forced (t : ThermSt) : List Nat :=
  (List.range 64).filter (fun r => (column r).countP (fun i => !(t.sensor i).broken) < 2)

/-! ### Events (Table 17.11) -/

def thermEvent (row sev kind src : Nat) (details : List (Nat × Nat)) : EvRec :=
  { cls := 2, sev := sev, code := 0x1100 + row, kind := kind, src := src, details := details }

/-- A sensor declared broken or re-admitted; the median in 0.25 °C, a half step being rounded as the device does. -/
def sensorEvent (i sev : Nat) (s : State) : State :=
  let t := s.therm
  let m := (median2 (t.validNear i)).getD 0
  let v := if m % 2 = 0 then m / 2 else m / 2 + (bit (Config.freeBool s.env.freeCtr) : Int)
  useFree (raise (thermEvent 4 sev 7 i [(1, i), (1, (t.sensor i).cause), (2, int16 v)]) s)

/-- The hottest sensor with its value, as the threshold events name it. -/
def hotDetails (t : ThermSt) : List (Nat × Nat) := [(1, t.hottest), (2, int16 (t.effective t.hottest))]

/-! ### Thresholds (R449 to R452) -/

/-- The warning level (R450). -/
def settleWarning (s : State) : State :=
  let t := s.therm
  let eff := (List.range 144).map t.effective
  let enter := eff.any (fun v => decide (4 * (t.warnAt : Int) ≤ v))
  let leave := eff.all (fun v => decide (v ≤ 4 * (t.warnAt : Int) - 12))
  if !t.warning && enter then
    raise (thermEvent 1 2 7 t.hottest (hotDetails t)) (modTherm (fun u => { u with warning := true }) s)
  else if t.warning && leave then
    raise (thermEvent 1 1 7 t.hottest (hotDetails t)) (modTherm (fun u => { u with warning := false }) s)
  else s

/-- The throttle condition; it takes effect at a tick boundary (R451). -/
def settleThrottle (s : State) : State :=
  let t := s.therm
  let eff := (List.range 144).map t.effective
  let enter := eff.any (fun v => decide (4 * (t.throttleAt : Int) ≤ v)) || !t.forcedCols.isEmpty
  let leave := eff.all (fun v => decide (v ≤ 4 * (t.throttleAt : Int) - 20)) && t.forcedCols.isEmpty
  modTherm (fun u => { u with throttleDue := if u.throttleDue then !leave else enter }) s

/-- Columns that become forced raise their event (R448). -/
def settleColumns (s : State) : State :=
  let now := s.therm.forced
  let s := forEach (now.filter (fun r => !s.therm.forcedCols.contains r)) (fun r s =>
    raise (thermEvent 5 3 1 r [(1, r), (1, (column r).countP (fun i => !(s.therm.sensor i).broken))]) s) s
  modTherm (fun t => { t with forcedCols := now }) s

/-- The sensor that shuts the device down: valid, at 125 °C or more on two consecutive samples (R452). -/
def ThermSt.shutdownBy (t : ThermSt) : Option Nat :=
  (List.range 144).find? (fun i => !(t.sensor i).broken && decide (2 ≤ (t.sensor i).hot))

/-- Only the always-on domain goes on: transmitters are idle, and no lane or link carries anything (R270). -/
def darkLanes (s : State) : State :=
  let s := forEach s.lanes (fun e s => match e.2.scan with
    | some j => replyOpt j.waiter stIncomplete [] s
    | none => s) s
  { s with links := []
           lanes := s.lanes.foldl (fun t l => tset {} t l.1 { planned := l.2.planned, margin := l.2.margin }) [] }

/-- Shutdown (R452): `THERM_N`, COOLDOWN and its event. Only the always-on domain goes on. -/
def shutdown (i : Nat) (prev : Int) (s : State) : State :=
  let s := modDev (fun d => { d with thermN := true, cooldown := true }) s
  let s := modTherm (fun t => { t with coolRun := 0 }) s
  let s := raise (thermEvent 3 4 7 i [(1, i), (2, int16 prev), (2, int16 (s.therm.sensor i).raw)]) s
  let s := darkLanes (modIo (fun io => { io with pcie := { io.pcie with up := false } }) s)
  settleMode 0x1A s

/-- One sample (R445 to R452). -/
def sampleSensors (raw : List Int) (s : State) : State :=
  let old := s.therm
  let s := modTherm (checkSensors raw) s
  let s := forEach ((List.range 144).filter (fun i => (s.therm.sensor i).broken && !(old.sensor i).broken))
    (fun i => sensorEvent i 2) s
  let s := settleThrottle (settleWarning (settleColumns s))
  let cool := (List.range 144).all (fun i => (s.therm.sensor i).broken || decide ((s.therm.sensor i).raw ≤ 380))
  if s.dev.cooldown then modTherm (fun t => { t with coolRun := if cool then t.coolRun + 1 else 0 }) s
  else match s.therm.shutdownBy with
    | some i => shutdown i (old.sensor i).raw s
    | none => s

/-! ### The thermal state register (Table 17.6) -/

/-- `THERM_STATE`. -/
def thermState (s : State) : Nat :=
  let t := s.therm
  let level := if s.dev.cooldown then 3 else if t.throttled then 2 else if t.warning then 1 else 0
  let broken := (List.range 144).countP (fun i => (t.sensor i).broken)
  level * 2 ^ 30 + bit (!t.forcedCols.isEmpty) * 2 ^ 29 + t.hottest * 2 ^ 20 + broken * 2 ^ 12
    + (t.effective t.hottest % 4096).toNat

/-! ### The chill governor (R453, R454) -/

/-- Energies of one microsecond of a region in 0.01 pJ: P and P_full. -/
def energyOf (s : State) (a : Activity) : Nat × Nat :=
  let t := s.therm
  let ed := lget 0 t.ed (s.domain (domainOfRegion a.region.val)).point
  let rest := t.ec * a.blockEdges + t.em * a.memOps
  (rest + ed * a.engineCycles, rest + ed * a.engineCyclesFull)

/-- One estimate of one region, averaged over the last 8 µs. -/
def Govern.estimate (g : Govern) (p : Nat × Nat) : Govern :=
  let w := (p :: g.window).take 8
  { g with window := w, power := w.foldl (fun n e => n + e.1) 0, full := w.foldl (fun n e => n + e.2) 0 }

/-- The energy of 8 µs at a power in 0.1 W, in 0.01 pJ. -/
def budgetEnergy (b : Nat) : Nat := b * 80000000

def State.govern (s : State) (r : Nat) : Govern := tget {} s.therm.govern r
def modGovern (r : Nat) (f : Govern → Govern) (s : State) : State :=
  modTherm (fun t => { t with govern := tmod {} t.govern r f }) s

/-- One evaluation of one region (R454). The unit of P and P_full in the event is not given: free values. -/
def evaluateRegion (r : Nat) (s : State) : State :=
  let g := s.govern r
  match g.budget with
  | none => s
  | some b =>
    if budgetEnergy b < g.power then
      let s := modGovern r (fun x => { x with divided := true, withheld := true, okCount := 0
                                              actions := satAdd 4294967295 x.actions 1 }) s
      let c := s.env.freeCtr
      modEnv (fun e => { e with freeCtr := e.freeCtr + 2 })
        (raiseLimited (thermEvent 6 0 1 r [(1, r), (4, Config.freeNat c), (4, Config.freeNat (c + 1)), (1, b)]) [] s)
    else if g.divided && decide (10 * g.full ≤ 9 * budgetEnergy b) then
      if g.okCount = 7 then modGovern r (fun x => { x with divided := false, withheld := false, okCount := 0 }) s
      else modGovern r (fun x => { x with okCount := x.okCount + 1 }) s
    else modGovern r (fun x => { x with okCount := 0 }) s

end Sys2Proof.Machine
end

