-- ==== Sys2Proof/Machine/BondOps.lean ====
section
/-! DEFINITION. Bonds and what their failures bring: sweeps, steering, fold mode and failed bundles (R473 to R477), the
defect map (R123 to R126), retirement (R126, R411), and the ends of self-test slices (R469 to R472, R478). -/

namespace Sys2Proof.Machine

/-! ### The defect map -/

/-- A defect-map entry without its source. -/
def defectKey (d : BitVec 32) : BitVec 32 := d &&& 0xCFFFFFFF#32

/-- Is a resource listed already? -/
def State.listed (s : State) (r : Nat) (d : BitVec 32) : Bool :=
  (s.defectMap r).any (fun e => defectKey e == defectKey d)

/-- A LOAD_ACTIVE in progress is given up with its plane INVALID. -/
def dropActiveFill (r : Nat) (s : State) : State :=
  match (s.region r).fill with
  | some f => if f.active then
      fillReply f stFault 0 0 0 PlaneSt.invalid.code (modRegion r (fun x => { x with fill := none }) s)
    else s
  | none => s

/-- A region is retired (R126): isolated and put in COLD with every plane barred. -/
def retireRegion (r : Nat) (s : State) : State :=
  let s := modRegion r (fun x => (List.range 4).foldl (fun x p => x.modPlane p (fun q => { q with st := .barred }))
    { x with retired := true, activeBarred := false }) (dropActiveFill r s)
  let s := endPending r (isolate r .retired s)
  let reg := s.region r
  if reg.power = .cold ∧ reg.trans.isNone = true then s
  else startEntry r .cold (modRegion r (fun x => { x with trans := none }) s)

def bondEvent (code sev r : Nat) (details : List (Nat × Nat)) : EvRec :=
  { cls := 6, sev := sev, code := code, kind := 1, src := r, details := details }

/-- An entry that finds the map full retires the region (R126). -/
def defectsFull (r : Nat) (s : State) : State := retireRegion r (raise (bondEvent 0x0506 3 r [(1, r)]) s)

/-- A mask of plane numbers. -/
def planeMask (l : List Nat) : Nat := l.foldl (fun n p => n + 2 ^ p) 0

/-- A slice runs in a region. -/
def Region.slicing (r : Region) : Bool := match r.slice with | some j => j.running | none => false

/-- A dead wire's entry (R123 to R126, R475). -/
def addDeadWire (r : Nat) (d : BitVec 32) (s : State) : State :=
  if s.listed r d then s
  else if 1024 ≤ (s.defectMap r).length then defectsFull r s
  else
    let s := modRegion r (fun x => { x with defects := x.defects ++ [d] }) s
    let (s, hit, act) := barPlanes r d s
    if act && (s.region r).slicing then
      raise (bondEvent 0x0504 2 r [(4, d.toNat), (1, planeMask hit)])
        (modRegion r (fun x => x.modPlane x.active (fun q =>
          { q with excluded := (q.excluded ++ defectBlocks d).eraseDups })) s)
    else if act then isolate r .wire (raise (bondEvent 0x0505 3 r [(4, d.toNat), (1, r)]) s)
    else if hit.isEmpty then raise (bondEvent 0x0503 2 r [(4, d.toNat)]) s
    else raise (bondEvent 0x0504 2 r [(4, d.toNat), (1, planeMask hit)]) s

/-- A block memory's entry (R123, R411, R477); a region whose active plane connects it is isolated (R125, R412): the
state, and whether it was. -/
def addRetiredMemory (r : Nat) (d : BitVec 32) (s : State) : State × Bool :=
  if s.listed r d then (s, false)
  else if 1024 ≤ (s.defectMap r).length then (defectsFull r s, false)
  else
    let s := modRegion r (fun x => { x with defects := x.defects ++ [d] }) s
    let s := modBram (256 * r + (d.extractLsb' 0 8).toNat) (fun b => { b with retired := true }) s
    let (s, _, act) := barPlanes r d s
    if act && !(s.region r).slicing then (isolate r .wire s, true) else (s, false)

/-! ### Bundles (R473 to R477) -/

/-- The bundle at both interfaces that it crosses; a bundle of one interface alone (R10). -/
def bundleFaces : BondBundle → List BondBundle
  | .runnerPort p n _ => [.runnerPort p n .copeDrag, .runnerPort p n .dragHearth]
  | .feedThrough n _ => [.feedThrough n .copeDrag, .feedThrough n .dragHearth]
  | b => [b]

/-- Does the bundle exist? The border bundles lie beneath the blocks of the east and the north border alone (R119). -/
def bundleExists : BondBundle → Bool
  | .fabric lx ly n => decide (n.val < 2) || (if n.val < 14 then decide (lx.val = 63) else decide (ly.val = 31))
  | _ => true

/-- Bond state of a bundle. -/
def State.bond (s : State) (r : Nat) (b : BondBundle) : BondSt :=
  match s.bonds.bonds.find? (fun e => e.1 == r && e.2.1 == b) with
  | some e => e.2.2
  | none => {}

/-- The bond state of a bundle changed; a bundle is listed once it differs from a fresh one. -/
def modBond (r : Nat) (b : BondBundle) (f : BondSt → BondSt) (s : State) : State :=
  let x := f (s.bond r b)
  modBonds (fun y => { y with
    bonds := if y.bonds.any (fun e => e.1 == r && e.2.1 == b) then
        y.bonds.map (fun e => if e.1 == r && e.2.1 == b then (r, b, x) else e)
      else y.bonds ++ [(r, b, x)] }) s

/-- Spare bonds of a bundle (R9, R10, R119); a `PCLK` clock bond has one (R477). -/
def bondSpares : BondBundle → Nat
  | .pclk _ => 1
  | _ => 2

/-- Signal and parity bonds. -/
def bondsCarried : BondBundle → Nat
  | .fabric _ _ _ => 32
  | .pclk _ => 1
  | _ => 33

/-- Is it a bus bundle or a clock bond? -/
def isBus : BondBundle → Bool
  | .fabric _ _ _ => false
  | _ => true

/-- Bonds of a bundle that fail: steered ones that are not merely weak, and those left without a spare. -/
def BondSt.failing (x : BondSt) : List Nat := x.steered.filter (fun p => !x.weak.contains p) ++ x.dead

/-- The event of a steering; the manual gives the bundle and the reason no codes: free values. -/
def steerEvent (r pos : Nat) (s : State) : State :=
  let c := s.env.freeCtr
  modEnv (fun e => { e with freeCtr := e.freeCtr + 2 })
    (raise (bondEvent 0x1205 1 r [(1, r), (2, Config.freeNat c), (1, pos), (1, Config.freeNat (c + 1))]) s)

/-- The defect-map entry of a dead wire or of a retired memory: source 1 at start, 2 in service (Table 5.3). -/
def wireEntry (source lx ly bundle wire : Nat) : BitVec 32 :=
  BitVec.ofNat 32 (source * 2 ^ 28 + lx * 2 ^ 15 + ly * 2 ^ 10 + bundle * 2 ^ 5 + wire)
def memEntry (source mem : Nat) : BitVec 32 := BitVec.ofNat 32 (2 ^ 30 + source * 2 ^ 28 + mem)

/-- A bus bundle or clock bond has failed (R477). -/
def bundleFailed (r source : Nat) (b : BondBundle) (s : State) : State :=
  if (s.bond r b).failed then s
  else
    let s := modBond r b (fun x => { x with failed := true }) s
    let c := s.env.freeCtr
    let s := modEnv (fun e => { e with freeCtr := e.freeCtr + 2 })
      (raise (bondEvent 0x1207 3 r [(1, r), (2, Config.freeNat c), (1, Config.freeNat (c + 1))]) s)
    match b with
    | .bramPort m _ | .pclk m => (addRetiredMemory r (memEntry source m.val) s).1
    | _ => retireRegion r s

/-- A failing bond that finds no spare (R475 to R477). -/
def noSpare (r source : Nat) (b : BondBundle) (pos : Nat) (s : State) : State :=
  let s := modBond r b (fun x => { x with dead := x.dead ++ [pos] }) s
  match b with
  | .fabric lx ly n => addDeadWire r (wireEntry source lx.val ly.val n.val (min 31 pos)) s
  | .pclk _ => bundleFailed r source b s
  | _ =>
    if 35 < 17 + (s.bond r b).failing.length then bundleFailed r source b s
    else if (s.bond r b).fold then s
    else useFree (raise (bondEvent 0x1206 2 r [(1, r), (2, freshNat s)]) (modBond r b (fun x => { x with fold := true }) s))

/-- A failing bond (R474): it takes a free spare, or one that serves a weak bond. A failing spare is used up. -/
def failBond (r source : Nat) (b : BondBundle) (pos : Nat) (s : State) : State :=
  let x := s.bond r b
  let told := fun (s : State) => if pos < bondsCarried b then steerEvent r pos s else s
  if x.failing.contains pos then s
  else
    let s := modBond r b (fun x => { x with weak := x.weak.filter (· != pos) }) s
    if x.steered.contains pos then s
    else if x.steered.length < bondSpares b then told (modBond r b (fun x => { x with steered := x.steered ++ [pos] }) s)
    else match x.steered.find? (fun p => x.weak.contains p) with
      | some w => told (modBond r b (fun x => { x with steered := x.steered.filter (· != w) ++ [pos] }) s)
      | none => noSpare r source b pos s

/-- A weak bond is marked (R457), and steered to a free spare at the next sweep that finds it (R474). The unit of its
resistance in the event is not given: a free value. -/
def weakBond (r : Nat) (b : BondBundle) (pos : Nat) (s : State) : State :=
  let x := s.bond r b
  if x.failing.contains pos then s
  else if x.weak.contains pos then
    if x.steered.contains pos = false ∧ x.steered.length < bondSpares b then
      steerEvent r pos (modBond r b (fun x => { x with steered := x.steered ++ [pos] }) s)
    else s
  else
    let c := s.env.freeCtr
    modEnv (fun e => { e with freeCtr := e.freeCtr + 2 })
      (raise { cls := 7, sev := 1, code := 0x110A, kind := 1, src := r,
               details := [(1, r), (2, Config.freeNat c), (1, pos), (2, Config.freeNat (c + 1))] }
        (modBond r b (fun x => { x with weak := x.weak ++ [pos] }) s))

/-- What a sweep measured of one bond (R473). -/
def takeFinding (source : Nat) (f : BondFinding) (s : State) : State :=
  let r := f.region.val
  if !bundleExists f.bundle || decide (bondsCarried f.bundle + bondSpares f.bundle ≤ f.position.val) then s
  else if f.wrong || decide (400 ≤ f.percent) then failBond r source f.bundle f.position.val s
  else if 150 ≤ f.percent then weakBond r f.bundle f.position.val s
  else s

/-- A complete sweep of a region. -/
def noteSweep (r : Nat) (s : State) : State :=
  modBonds (fun b => { b with sweepTick := tset 0 b.sweepTick r s.tick.number }) s

/-- A checker that failed its bypass vectors isolates its region (R414). -/
def takeChecker (c : CheckerFailure) (s : State) : State :=
  raise (isolatedEvent c.region.val (2 + 16 * c.checker.val)) (isolate c.region.val .checker s)

/-! ### Slices -/

/-- Block index of a block, and whether it lies in a slice of a region. -/
def blockIndex (b : Nat × Nat) : Nat := 64 * (b.2 % 32) + b.1 % 64
def inSlice (slice : Nat) (b : Nat × Nat) : Bool := sliceOfBlock (blockIndex b) == slice

/-- The failing blocks that were compared (R463, R475). -/
def comparedFailing (p : Plane) (slice : Nat) (failing : List (Nat × Nat)) : List (Nat × Nat) :=
  failing.filter (fun b => inSlice slice b && !p.excluded.contains (blockIndex b))

/-- The slice after one that passed or failed (R464); slice 7 of T3 ends a rotation. -/
def advanceSlice (r slice pattern : Nat) (s : State) : State :=
  let t := s.test r
  if slice ≠ t.next ∨ pattern ≠ t.pattern then s
  else modTest r (fun t =>
    { t with
      next := (slice + 1) % 8
      pattern := if slice = 7 then (pattern + 1) % 4 else pattern
      rotationTick := if slice = 7 ∧ pattern = 3 then s.tick.number else t.rotationTick }) s

/-- The details of failing blocks: x and y of up to 16. -/
def blockDetails (l : List (Nat × Nat)) : List (Nat × Nat) := (l.take 16).flatMap (fun b => [(2, b.1), (2, b.2)])

def selfTestEvent (row sev r : Nat) (details : List (Nat × Nat)) : EvRec :=
  regEvent 0x0E sev (0x1200 + row) r details

/-- A FAIL (R471): the region is isolated in place of the switch back, and a repeat is owed. -/
def sliceFailed (r : Nat) (j : SliceJob) (failing : List (Nat × Nat)) (s : State) : State :=
  let s := modRegion r (fun x => { x with slice := none }) s
  let s := raise (selfTestEvent 2 3 r ([(1, j.slice), (1, j.pattern)] ++ blockDetails failing)) (isolate r .slice s)
  modTest r (fun t => { t with repeatDue := some (j.slice, j.pattern) }) s

/-- A slice ends (R470): stopped before terminal count it is INCOMPLETE, otherwise its compared blocks decide. -/
def endSlice (r : Nat) (j : SliceJob) (failing : List (Nat × Nat)) (terminal : Bool) (s : State) : State :=
  let bad := comparedFailing (s.region r).tested j.slice failing
  let excluded := excludedIn (s.region r).tested j.slice
  if !terminal then abandonSlice r s
  else if bad.isEmpty then
    let s := advanceSlice r j.slice j.pattern (recordSlice r j 1 excluded [] s)
    closeSlice r j s
  else sliceFailed r j bad (advanceSlice r j.slice j.pattern (recordSlice r j 2 excluded bad s))

/-- Cupola test-fills the plane of a failed slice again and repeats it (R471 step 4): the result is recorded and
reported. -/
def repeatSlice (r : Nat) (slice pattern : Nat) (failing : List (Nat × Nat)) (terminal : Bool) (s : State) : State :=
  let s := modTest r (fun t => { t with repeatDue := none }) s
  let p := (s.region r).active
  let (s, ok) := endFill r { plane := p, index := patternEntry s r pattern, test := true } s
  let s := modRegion r (fun x => { x.modPlane p (fun q => { q with st := .active }) with activeBarred := false }) s
  let bad := comparedFailing (s.region r).tested slice failing
  let result := if !terminal || !ok then 3 else if bad.isEmpty then 1 else 2
  let s := recordSlice r { slice := slice, pattern := pattern } result (excludedIn (s.region r).tested slice) bad s
  raise (selfTestEvent 3 (if result = 1 then 1 else 3) r [(1, slice), (1, result)]) s

/-- A slice of an isolated region that waits runs at once where its TEST plane is resident (Table 18.5). -/
def runIsolated (r : Nat) (s : State) : State :=
  let reg := s.region r
  match reg.slice with
  | some j =>
    if j.running || !reg.isolated || decide (reg.power ≠ .active) || reg.trans.isSome || reg.resets.any (·.begun) then s
    else match testPlane s r j.pattern with
      | some p => runSlice r j p reg.active s
      | none => s
  | none => s

/-! ### Vendor test patterns (R462) -/

/-- The bytes of the firmware image that runs; none for the ROM. -/
def runningImage (s : State) : List Byte :=
  match s.lib.dirInUse with
  | none => []
  | some (_, d) =>
    match (imageOrder d 1).find? (fun e => decide (e.1 = s.dev.fwImage.toNat)) with
    | some e => s.lib.flashBytes (entAddr e.2) (entLen e.2)
    | none => []

/-- Frames of a vendor pattern in a firmware image, in the coding of Table 7.5. -/
def vendorFrames (img : List Byte) (cls k : Nat) : List (Nat × List Byte) :=
  match (Config.vendorPatterns img).find? (fun v => v.1 == cls && v.2.1 == k) with
  | none => []
  | some v =>
    match decodeRecords v.2.2 0 v.2.2.length (v.2.2.length + 1) 0 [] with
    | .ok fs => fs
    | .error _ => []

/-- Library entries that are EMPTY. -/
def emptyEntries (s : State) : List Nat :=
  (List.range s.lib.capacity).filter (fun i => decide ((s.entry i).st = entryEmpty))

/-- Patterns (class and number) that no READY entry holds. -/
def missingPatterns (s : State) : List (Nat × Nat) :=
  ((List.range 2).flatMap (fun c => (List.range 4).map (fun k => (c, k)))).filter (fun ck =>
    !patternHeld s ck.1 ck.2)

/-- Loads one vendor pattern into an EMPTY entry of Cupola's choosing, a free value: master ID 64, anchor 1 (R462). -/
def loadPattern (img : List Byte) (ck : Nat × Nat) (s : State) : State :=
  let l := emptyEntries s
  match l[freshNat s % l.length]? with
  | none => s
  | some i =>
    let fs := vendorFrames img ck.1 ck.2
    let (s, ok) := writeEntryBytes i fs (useFree s)
    if !ok then s
    else
      let im : Image := { patternId := freshNat s, encrypted := false, anchor := 1, sections := [] }
      let s := makeReady im (0x40 + ck.1) i fs false 64 (useFree s)
      let s := modEntry i (fun e => { e with testOf := some (ck.2, ck.1) }) s
      modBonds (fun b => { b with patterns := tset 65535 b.patterns (4 * ck.1 + ck.2) i }) s

/-- Loads what is missing. -/
def loadPatterns (s : State) : State := forEach (missingPatterns s) (loadPattern (runningImage s)) s

/-- Frees the entries that hold vendor patterns. -/
def dropPatterns (s : State) : State :=
  let held := s.bonds.patterns.map (·.2)
  forEach held (fun i => onlyIf (s.entry i).testOf.isSome (modEntry i (fun _ => {})))
    (modBonds (fun b => { b with patterns := [] }) s)

end Sys2Proof.Machine
end

