-- ==== Sys2Proof/Machine/FlashOps.lean ====
section
/-! DEFINITION. Programming and erasing the flash: what each operation does and what an interrupted one leaves, and the
rewriting of the directory (R168 to R171, R501 to R504). -/

namespace Sys2Proof.Machine

/-! ### Operations -/

/-- A flash memory with `n` bytes from `a` on erased. -/
def eraseBytes (m : Memory) (a n : Nat) : Memory := tclear m a (a + n)

/-- The flash after an operation. -/
def FlashOp.apply (m : Memory) : FlashOp → Memory
  | .erase a n => eraseBytes m a n
  | .program a bs => programBytes m a bs

/-- Where an operation works, and on how many bytes. -/
def FlashOp.addr : FlashOp → Nat
  | .erase a _ | .program a _ => a
def FlashOp.size : FlashOp → Nat
  | .erase _ n => n
  | .program _ bs => bs.length

/-- Free byte `i` from counter `c` on: 512 bytes for each count. -/
def freeByteAt (c i : Nat) : Byte := (Config.freeBits (c + i / 512)).extractLsb' (8 * (i % 512)) 8

/-- The flash after an operation that was cut short: each bit of its bytes has or has not been changed, a free choice. An
erase sets bits, a program clears them; the table holds complements. -/
def FlashOp.cut (c : Nat) (m : Memory) : FlashOp → Memory
  | .erase a n => (window m a n).foldl (fun t x => wrByte t x.1 (x.2 &&& freeByteAt c (x.1 - a))) m
  | .program a bs => (bs.zipIdx).foldl (fun t x => wrByte t (a + x.2) (rdByte t (a + x.2) ||| (~~~x.1 &&& freeByteAt c x.2))) m

/-- The operation in progress is cut short. -/
def cutFlash (s : State) : State :=
  match s.lib.jobs with
  | [] => s
  | j :: _ => match j.ops with
    | [] => s
    | o :: _ =>
      modEnv (fun e => { e with freeCtr := e.freeCtr + o.size / 512 + 1 })
        (modLib (fun l => { l with flash := o.cut s.env.freeCtr l.flash }) s)

/-! ### The directory -/

/-- A directory with its CRC-32C (R170). -/
def sealDir (d : List Byte) : List Byte := setLe d 12 4 (crc32c (setLe d 12 4 0)).toNat

/-- Bytes of a list from `i` on replaced. -/
def putAt (d : List Byte) (i : Nat) (bs : List Byte) : List Byte := d.take i ++ bs ++ d.drop (i + bs.length)

/-- A directory with entry `i` changed and its sequence increased by one. -/
def editDir (d : List Byte) (i : Nat) (f : List Byte → List Byte) : List Byte :=
  let e := (d.drop (64 + 64 * i)).take 64
  sealDir (setLe (putAt d (64 + 64 * i) (f e)) 8 4 (leAt d 8 4 + 1))

/-- The operations that rewrite a directory copy. -/
def rewriteDir (copy : Nat) (d : List Byte) : List FlashOp := [.erase (dirAt copy) dirBytes, .program (dirAt copy) d]

/-- The copy with the lower sequence: the one that is not in use. -/
def otherCopy (copy : Nat) : Nat := 1 - copy

/-- The space of an entry (R501): up to the lowest flash address of any other entry above it on the same chip select, or to
the end of the device. -/
def entrySpace (l : LibSt) (d : List Byte) (i : Nat) (e : List Byte) : Nat :=
  let a := entAddr e
  let stop := a / 2147483648 * 2147483648 + l.flashSize (a / 2147483648)
  (dirEntries d).foldl (fun n x =>
    let b := entAddr x.2
    if x.1 ≠ i ∧ entType x.2 ≠ 0 ∧ b / 2147483648 = a / 2147483648 ∧ a < b then min n (b - a) else n) (stop - a)

/-- The entry of a type: the valid one, else the first. -/
def entryOf (d : List Byte) (ty : Nat) : Option (Nat × List Byte) :=
  match (dirEntries d).find? (fun e => entType e.2 == ty && entState e.2 == 0x3F) with
  | some e => some e
  | none => (dirEntries d).find? (fun e => entType e.2 == ty)

/-- The slot of a pair that a staged image takes (1 A, 2 B): the one that is not the active update image (R502), and the
image sequence, one above the active image's; `first` is type A's code. -/
def stageSlot (d : List Byte) (first : Nat) : Nat × Nat :=
  match (imageOrder d first).find? (fun e => e.1 != 3) with
  | some (1, e) => (2, entSeq e + 1)
  | some (_, e) => (1, entSeq e + 1)
  | none => (1, 1)

/-- A directory entry with state, length, image sequence and digest. -/
def stagedEntry (state len seq : Nat) (digest e : List Byte) : List Byte :=
  putAt (setLe (setLe (setLe e 1 1 state) 8 4 len) 12 4 seq) 16 digest

/-- The operations of steps 3 to 5 of R502. -/
def stageOps (l : LibSt) (copy : Nat) (d : List Byte) (i : Nat) (e : List Byte) (seq : Nat) (bs : List Byte) : List FlashOp :=
  let digest := beBytes 48 (Config.sha384 bs).toNat
  let d1 := editDir d i (stagedEntry 0x7F bs.length seq digest)
  let d2 := editDir d1 i (stagedEntry 0x3F bs.length seq digest)
  rewriteDir (otherCopy copy) d1 ++ [.erase (entAddr e) (entrySpace l d i e), .program (entAddr e) bs] ++ rewriteDir copy d2

/-! ### Staged firmware (R503) -/

/-- The image that starts to run: staged firmware runs for the first time, or another image runs. -/
def noteFirstRun (image : Nat) (s : State) : State :=
  modLib (fun l => match l.stagedFw with
    | some (slot, seq) => if slot = image then { l with stagedFw := none, firstRun := some (slot, seq, s.env.now) }
      else { l with firstRun := none }
    | none => { l with firstRun := none }) s

/-- One second of local time. -/
def oneSecond : Nat := 256000000000

/-- A watchdog expiry within 60 s of the first run of staged firmware (R503): its entry is retired by a directory rewrite,
and the event names the image. -/
def retireStaged (s : State) : State :=
  match s.lib.firstRun, s.lib.dirInUse with
  | some (slot, seq, t), some (copy, d) =>
    if 60 * oneSecond < s.env.now - t then s
    else match entryOf d slot with
      | none => s
      | some (i, _) =>
        let new := editDir d i (fun e => setLe e 1 1 0)
        let s := modLib (fun l => { l with
          firstRun := none, flash := (rewriteDir (otherCopy copy) new).foldl FlashOp.apply l.flash }) s
        raise { cls := 0x0F, sev := 3, code := 0x1305, kind := 0, details := [(1, slot), (4, seq)] } s
  | _, _ => s

end Sys2Proof.Machine
end

