-- ==== Sys2Proof/Machine/RegOps.lean ====
section
/-! DEFINITION. The device registers and mailboxes as their readers and writers meet them: mailbox slots, doorbells and
event paths (R484 to R486, R499), CRC units (R416 to R419), and the register lines of Table 19.14 (R549). -/

namespace Sys2Proof.Machine

/-! ### Mailbox slots (R484) -/

/-- Rings a doorbell: a FREE slot becomes POSTED; on any other it has no effect and is counted. -/
def ringSlot (p : Port) (sl : Fin 4) (s : State) : State :=
  if (s.slot p sl).st = .free then
    modSlot p sl (fun x => { x with st := .posted, rangAt := s.env.now }) s
  else modPort p (fun q => { q with ignored := satAdd 4294967295 q.ignored 1 }) s

/-- A new static address takes effect once the response in its slot has been read (Table 20.7). -/
def takeAddress (p : Port) (sl : Fin 4) (s : State) : State :=
  modIo (fun io => match io.nextAddr with
    | some (a, p', sl') => if p' = p ∧ sl' = sl then { io with i2cAddr := a, nextAddr := none } else io
    | none => io) s

/-- Acknowledges a slot: a DONE slot becomes FREE. -/
def ackSlot (p : Port) (sl : Fin 4) (s : State) : State :=
  if (s.slot p sl).st = .done then takeAddress p sl (modSlot p sl (fun x => { x with st := .free }) s) else s

/-- Writes bytes of a request slot from byte `off` on: only a FREE slot takes them. -/
def writeRequest {w n : Nat} (p : Port) (sl : Fin 4) (off : Nat) (data : BitVec w) (be : BitVec n) (s : State) : State :=
  if (s.slot p sl).st = .free then
    modSlot p sl (fun x => { x with
      req := mergeBytes x.req (data.setWidth 2048 <<< (8 * off)) (be.setWidth 256 <<< off) }) s
  else modPort p (fun q => { q with ignored := satAdd 4294967295 q.ignored 1 }) s

/-- Slot states as `SLOT_ST` gives them. -/
def SlotSt.code : SlotSt → Nat
  | .free => 0 | .posted => 1 | .accepted => 2 | .done => 3

/-- The control register of a port (Table 19.3): `SLOT_ST`; the rest reads zero. -/
def ctrlValue (p : Port) (s : State) : Nat :=
  [0, 1, 2, 3].foldl (fun n i => n + (s.slot p (Fin.ofNat 4 i)).st.code * 4 ^ i) 0

/-- A write to the control register: `RING` in bits 11:8, `ACK` in bits 15:12. -/
def writeCtrl (p : Port) (v : Nat) (s : State) : State :=
  let s := forBelow 4 (fun i => onlyIf (v.testBit (8 + i)) (ringSlot p (Fin.ofNat 4 i))) s
  forBelow 4 (fun i => onlyIf (v.testBit (12 + i)) (ackSlot p (Fin.ofNat 4 i))) s

/-! ### Event paths (R485, R499) -/

def State.port (s : State) (p : Port) : PortSt := lget {} s.cudex.ports (portIdx p)

/-- `EV_STATUS` of a port (Table 19.4). -/
def evStatus (p : Port) (s : State) : Nat := (s.port p).path.length % 128 + (s.port p).lost * 65536

/-- The event Event path overflow. -/
def overflowRecord (p : Port) (lost : Nat) (s : State) : Record :=
  mkRecord { cls := 0x0F, sev := 2, code := 0x1308, kind := 9, src := portIdx p,
             details := [(1, portIdx p), (2, lost)] } s.tick.number.toNat

/-- Pops one record of a port's path; an empty record when none waits. With records lost, an overflow record takes the
freed place at the tail (R499). -/
def popRecord (p : Port) (s : State) : State × Record :=
  let q := s.port p
  match q.path with
  | [] => (s, 0)
  | r :: rest =>
    if q.lost = 0 then (modPort p (fun x => { x with path := rest }) s, r)
    else
      let s := modPort p (fun x => { x with path := rest ++ [overflowRecord p q.lost s], lost := 0 }) s
      (onlyIf (p == .mb0) (signalMsix 1) s, r)

/-! ### CRC units (R416 to R419) -/

def modCrcUnit (r : Nat) (f : CrcUnit → CrcUnit) (s : State) : State :=
  modInteg (fun g => { g with crcRegion := tmod {} g.crcRegion r f }) s
def modCrcChan (c : Nat) (f : CrcUnit → CrcUnit) (s : State) : State :=
  modInteg (fun g => { g with crcPool := tmod {} g.crcPool c f }) s

/-- The operations of `CRC_PORT` (Table 15.13). -/
def CrcUnit.feed (u : CrcUnit) (bs : List Byte) : CrcUnit := { u with value := crcBytes u.poly.toNat u.value bs }
def CrcUnit.load (u : CrcUnit) (v : BitVec 32) : CrcUnit := { u with value := v &&& crcMask u.poly.toNat }
def CrcUnit.select (u : CrcUnit) (v : BitVec 32) : CrcUnit := { u with poly := v.extractLsb' 0 2 }

/-- The enabled bytes of a line, in increasing order. -/
def enabledBytes (data : Line) (be : BitVec 64) : List Byte :=
  ((List.range 64).filter (fun i => be.getLsbD i)).map (fun i => byteOf data i)

/-- A write of a channel's `CRC_DATA` line. -/
def crcDataWrite (c : Nat) (data : Line) (be : BitVec 64) (s : State) : State × Nat :=
  if be = 0 then (s, rcOk)
  else if (s.crcChan c).bound.isSome then (s, rcAccess)
  else (modCrcChan c (fun u => u.feed (enabledBytes data be)) s, rcOk)

/-- A write of a channel's `CRC_CTRL` (byte 0) and `CRC_VALUE` (bytes 8 to 11) line. -/
def crcCtrlWrite (c : Nat) (data : Line) (be : BitVec 64) (s : State) : State × Nat :=
  if be = 0 then (s, rcOk)
  else if (s.crcChan c).bound.isSome then (s, rcAccess)
  else
    let s := onlyIf (be.getLsbD 0) (modCrcChan c (fun u => u.select (data.extractLsb' 0 32))) s
    (onlyIf (be.extractLsb' 8 4 != 0) (modCrcChan c (fun u =>
      u.load (mergeBytes u.value (data.extractLsb' 64 32) (be.extractLsb' 8 4 : BitVec 4)))) s, rcOk)

/-- The line of `CRC_CTRL`, `CRC_VALUE` and `CRC_RESULT` (Tables 15.14, 15.15). -/
def crcCtrlLine (u : CrcUnit) : Line :=
  BitVec.ofNat 512 (u.poly.toNat + (match u.bound with | some b => b.1 | none => 0xFF) * 256
    + u.reads.toNat * 2 ^ 64 + u.result.toNat * 2 ^ 128)

/-! ### The direct registers -/

/-- `DEV_STATE` (Table 3.7). -/
def devState (s : State) : Nat :=
  let d := s.dev
  d.resetCause.toNat * 2 ^ 24 + d.fwImage.toNat * 2 ^ 22 + d.patImage.toNat * 2 ^ 20 + bit d.firstBoot * 2 ^ 19
    + bit d.xtalOk * 2 ^ 18 + bit (isDegraded s) * 2 ^ 17 + bit d.alarm * 2 ^ 16 + d.straps.xtalDly.val * 2 ^ 13
    + bit d.straps.holdPull * 2 ^ 12 + bit d.straps.hostSel * 2 ^ 11 + bit d.straps.flashQuad * 2 ^ 10 + d.mode.code

/-- `TICK_STATE` (Table 6.3). -/
def tickState (s : State) : Nat :=
  let t := s.tick
  t.cfg.source.toNat * 2 ^ 30 + t.align.toNat * 2 ^ 28 + (t.cfg.nslots - 1) * 2 ^ 24 + t.cfg.period

/-- `CLK_STATE` (Table 16.7). -/
def clkState (s : State) : Nat :=
  let c := s.clk
  c.badWin * 256 + bit c.forced * 8 + bit c.lost * 4 + bit c.holdover * 2 + bit c.refOsc

/-- `CUPOLA_STATE` (Table 19.1): stopped in STANDBY and COOLDOWN. -/
def cupolaState (s : State) : Nat :=
  let st := if !s.awake then 0 else match s.cudex.cup with
    | .stopped => 0 | .rom => 1 | .running => 2 | .restarting => 3
  st * 2 ^ 24 + s.cudex.restarts * 65536 + s.cudex.heartbeat.toNat

/-- The line of `DEV_STATE` to `CUPOLA_STATE`. -/
def stateRegsLine (s : State) : Line :=
  BitVec.ofNat 512 (devState s + s.tick.number.toNat * 2 ^ 64 + tickState s * 2 ^ 128 + clkState s * 2 ^ 192
    + thermState s * 2 ^ 256 + cupolaState s * 2 ^ 320)

/-- A write to that line: `CLK_STATE.FORCED` clears by 1, `CLK_STATE.LOST` and `CUPOLA_STATE.RESTARTS` are read-write
and sticky; all else is read-only. -/
def stateRegsWrite (data : Line) (be : BitVec 64) (s : State) : State :=
  let s := onlyIf (be.getLsbD 0x18) (modClk (fun c => { c with
    forced := c.forced && !data.getLsbD (0x18 * 8 + 3), lost := data.getLsbD (0x18 * 8 + 2) })) s
  onlyIf (be.getLsbD 0x2A) (modCudex (fun c => { c with restarts := (byteOf data 0x2A).toNat })) s

/-! ### Register lines (R549) -/

/-- What a register line holds. -/
inductive RegLine where
  | state
  | request (sl : Fin 4) (n : Nat)
  | response (sl : Fin 4) (n : Nat)
  | ctrl
  | status
  | pop
  | crcData (c : Nat)
  | crcCtrl (c : Nat)
  | reserved
deriving DecidableEq, Repr

/-- Decodes an offset in the register space. -/
def regLine (off : Nat) : RegLine :=
  if off < 0x40 then .state
  else if 0x10000 ≤ off ∧ off < 0x10400 then .request (Fin.ofNat 4 (off / 256)) (off % 256 / 64)
  else if 0x10400 ≤ off ∧ off < 0x10800 then .response (Fin.ofNat 4 (off / 256)) (off % 256 / 64)
  else if off / 64 = 0x10800 / 64 then .ctrl
  else if off / 64 = 0x10880 / 64 then .status
  else if 0x10C00 ≤ off ∧ off < 0x10E00 then .pop
  else if 0x20000 ≤ off ∧ off < 0x21000 then
    match off % 256 / 64 with
    | 0 => .crcData ((off - 0x20000) / 256)
    | 1 => .crcCtrl ((off - 0x20000) / 256)
    | _ => .reserved
  else .reserved

/-- READ of one register line. -/
def regRead (off : Nat) (s : State) : State × Nat × Line :=
  match regLine off with
  | .state => (s, rcOk, stateRegsLine s)
  | .request sl n => (s, rcOk, (s.slot .mb0 sl).req.extractLsb' (512 * n) 512)
  | .response sl n => (s, rcOk, (s.slot .mb0 sl).resp.extractLsb' (512 * n) 512)
  | .ctrl => (s, rcOk, BitVec.ofNat 512 (ctrlValue .mb0 s))
  | .status => (s, rcOk, BitVec.ofNat 512 (evStatus .mb0 s))
  | .pop => let (s, r) := popRecord .mb0 s; (s, rcOk, r.setWidth 512)
  | .crcData _ => (s, rcOk, 0)
  | .crcCtrl c => (s, rcOk, crcCtrlLine (s.crcChan c))
  | .reserved => (s, rcDecode, 0)

/-- WRITE of one register line. -/
def regWrite (off : Nat) (data : Line) (be : BitVec 64) (s : State) : State × Nat :=
  match regLine off with
  | .state => (stateRegsWrite data be s, rcOk)
  | .request sl n => (if be = 0 then s else writeRequest .mb0 sl (64 * n) data be s, rcOk)
  | .response _ _ | .status | .pop => (s, rcOk)
  | .ctrl => (onlyIf (be.getLsbD 1) (writeCtrl .mb0 (fieldOf data 0 2)) s, rcOk)
  | .crcData c => crcDataWrite c data be s
  | .crcCtrl c => crcCtrlWrite c data be s
  | .reserved => (s, rcDecode)

end Sys2Proof.Machine
end

