-- ==== Sys2Proof/Machine/IoOps.lean ====
section
/-! DEFINITION. The ports to the board: the offset space of the management port and of JTAG (R517, R521), the PCIe endpoint
(R513 to R515), and what the boundary register does (R520). -/

namespace Sys2Proof.Machine

/-! ### The offset space of MB1 and MB3 (R517) -/

/-- The record that waits first on a port's path. -/
def headRecord (p : Port) (s : State) : Record := (s.port p).path.headD 0

/-- One byte of the offset space as it reads; `0xFF` outside the areas. -/
def spaceByte (p : Port) (off : Nat) (s : State) : Byte :=
  if off < 0x400 then byteOf (s.slot p (Fin.ofNat 4 (off / 256))).req (off % 256)
  else if off < 0x800 then byteOf (s.slot p (Fin.ofNat 4 (off / 256))).resp (off % 256)
  else if off < 0x804 then BitVec.ofNat 8 (ctrlValue p s / 256 ^ (off - 0x800))
  else if 0x880 ≤ off ∧ off < 0x884 then BitVec.ofNat 8 (evStatus p s / 256 ^ (off - 0x880))
  else if 0xC00 ≤ off ∧ off < 0xC20 then byteOf (headRecord p s) (off - 0xC00)
  else 0xFF

/-- A write of one byte: request slots, and the `RING` and `ACK` fields of the control register. -/
def spaceWrite (p : Port) (off : Nat) (b : Byte) (s : State) : State :=
  if off < 0x400 then
    writeRequest p (Fin.ofNat 4 (off / 256)) (off % 256) b (1#1) s
  else if off = 0x801 then writeCtrl p (b.toNat * 256) s
  else s

/-- Bytes written at increasing offsets. -/
def spaceWrites (p : Port) : Nat → List Byte → State → State
  | _, [], s => s
  | off, b :: bs, s => spaceWrites p (off + 1) bs (spaceWrite p off b s)

/-- The bytes of a read of `n` bytes. -/
def spaceBytes (p : Port) (off n : Nat) (s : State) : List Byte := (List.range n).map (fun i => spaceByte p (off + i) s)

/-! ### The PCIe endpoint (R513 to R515) -/

def modPcie (f : Pcie → Pcie) (s : State) : State := modIo (fun io => { io with pcie := f io.pcie }) s

/-- Rates of the endpoint in 0.1 GT/s (R291). -/
def pcieRate (code : Nat) : Nat :=
  match code with | 0 => 25 | 1 => 50 | 2 => 80 | 3 => 160 | _ => 320
def pcieWidth (code : Nat) : Nat := 2 ^ code

/-- Byte 17 of `HOST_STATUS`: the rate in GT/s; for 2.5 GT/s, which is no whole number, a free value. -/
def hostRate (s : State) : Nat := if s.io.pcie.rate = 0 then freshNat s else pcieRate s.io.pcie.rate / 10

/-- The events of Table 20.9 on the endpoint's link. -/
def pcieLinkEvent (sev : Nat) (details : List (Nat × Nat)) : EvRec :=
  { cls := 8, sev := sev, code := 0x1401, kind := 0, details := details }

/-- Eye scans of the endpoint's lanes end with the link (R284). -/
def endPcieScans (s : State) : State :=
  forBelow 8 (fun i s => match (s.lane (64 + i)).scan with
    | some j => replyOpt j.waiter stIncomplete [] (modLane (64 + i) (fun x => { x with scan := none }) s)
    | none => s) s

/-- The event PCIe link down; the manual gives the cause no code: a free value. -/
def pcieDown (s : State) : State :=
  if s.io.pcie.up then
    useFree (raise (pcieLinkEvent 2 [(1, hostRate s), (1, pcieWidth s.io.pcie.width), (1, freshNat s)])
      (endPcieScans (modPcie (fun e => { e with up := false }) s)))
  else s

/-- Configuration space and MSI-X table at their reset values, and no completion owed. -/
def endpointReset (s : State) : State :=
  modPcie (fun e => { e with d3hot := false, msixPend := 0, msixLast := none, jobs := [], aer := 0 })
    (mapOutst (fun o => if o.hdr.src = .host then { o with discard := true } else o) s)

/-- Requests of MB0 that are ACCEPTED are answered with `PATH_RESET`, and every slot is freed (R515): their number. -/
def freeMb0 (s : State) : State × Nat :=
  let n := ([0, 1, 2, 3].filter (fun i => decide ((s.slot .mb0 (Fin.ofNat 4 i)).st = .accepted))).length
  let s := abortSlots [.mb0] [.accepted] s
  (forBelow 4 (fun i => modSlot .mb0 (Fin.ofNat 4 i) (fun x => { x with st := .free })) s, n)

/-- The kind of a refusal (Table 20.3): 0 unsupported request, 1 completer abort, 2 poisoned or internal error. -/
def refusalKind (code : Nat) : Nat :=
  if code = rcDecode then 0 else if code = rcAccess ∨ code = rcAsleep then 1 else 2

/-- The event Host requests refused, with one more in the count of a kind (0 to 2 reads by outcome, 3 posted writes). -/
def hostRefused (k : Nat) (s : State) : State :=
  raiseLimited { cls := 8, sev := 1, code := 0x1403, kind := 0,
                 details := (List.range 4).map (fun i => (4, if i = k then 1 else 0)) } [0, 1, 2, 3] s

/-- A host request has come back whole (Table 20.3). -/
def finishHost (j : HostJob) (s : State) : State :=
  let k := refusalKind j.code.toNat
  let data := ((j.parts.flatMap (fun p => p.2.2)).drop j.skip).take j.count
  let count := fun (i : Nat) (s : State) => hostRefused i (modPcie (fun e => { e with counters := bump e.counters i 1 }) s)
  if j.read then
    let s := modPcie (fun e => { e with lastCode := j.code, lastData := if j.code = 0 ∨ k = 2 then data else [] }) s
    onlyIf (j.code != 0) (count k) s
  else onlyIf (j.code != 0) (fun s =>
    count 3 (modPcie (fun e => { e with aer := e.aer ||| BitVec.ofNat 3 (2 ^ k) }) s)) s

/-- One response line of a host request's Runner request. -/
def HostJob.take (j : HostJob) (tag : Nat) (code : BitVec 3) (bytes : List Byte) (last : Bool) : HostJob :=
  { j with
    parts := j.parts.map (fun p => if p.1 = tag then (p.1, last, p.2.2 ++ bytes) else p)
    code := if j.code = 0 then code else j.code }

/-- A response line reaches the endpoint. -/
def hostLine (tag : Nat) (code : BitVec 3) (data : Line) (last : Bool) (s : State) : State :=
  let mine := fun (j : HostJob) => j.parts.any (fun p => p.1 == tag && !p.2.1)
  match s.io.pcie.jobs.find? mine with
  | none => s
  | some j =>
    let j' := j.take tag code (bytesOf data 64) last
    if j'.parts.all (fun p => p.2.1) then
      finishHost j' (modPcie (fun e => { e with jobs := e.jobs.filter (fun x => !mine x) }) s)
    else modPcie (fun e => { e with jobs := e.jobs.map (fun x => if mine x then j' else x) }) s

/-- The vectors that wait are delivered, in rising order; the last one stays visible. -/
def deliverPending (e : Pcie) : Pcie :=
  if e.msixPend = 0 then e
  else { e with
    msixLast := some (if e.msixPend.getLsbD 2 then 2 else if e.msixPend.getLsbD 1 then 1 else 0), msixPend := 0 }

end Sys2Proof.Machine
end

