-- ==== Sys2Proof/Machine/Clocks.lean ====
section
/-! DEFINITION. Meanings of the clock, voltage and region power commands (chapters 9 and 16). -/

namespace Sys2Proof.Machine

/-- CRYSTAL_WAIT_END (R421): the crystal check over three windows begins. -/
def execCrystalWaitEnd (s : State) : Out :=
  occurs (decide (s.dev.base = .standby) && !s.dev.porstLow && decide (s.dev.crystal = .waiting))
    (modDev (fun d => { d with crystal := .checking, checkSeen := 0, checkBad := false })) s

/-- The third window of the start-up check ends: the root PLL goes on to lock to the crystal or to the oscillator. -/
def endCheck (s : State) : State :=
  let s := modDev (fun d => { d with crystal := .locking }) s
  if s.dev.checkBad then
    raise { cls := 1, sev := 4, code := 0x1004, kind := 0, details := s.clk.lastCounts.reverse.map (fun n => (2, n)) }
      (modClk (fun c => { c with refOsc := true }) s)
  else modClk (fun c => { c with refOsc := false }) s

/-- One window of the monitor (R425): it is counted, serves the start-up check (R421), and the third bad one in a row
declares the crystal failed (R427). -/
def endWindow (count : Nat) (s : State) : State :=
  let s := countWindow count s
  if s.dev.crystal = .checking then
    let s := modDev (fun d => { d with checkSeen := d.checkSeen + 1, checkBad := d.checkBad || !goodWindow count }) s
    if s.dev.checkSeen = 3 then endCheck s else s
  else if 3 ≤ s.clk.badRun ∧ s.clk.locked = true ∧ s.clk.refOsc = false ∧ s.clk.holdover = false then failover s
  else s

/-- MONITOR_WINDOW (R425): the monitor runs in every mode except OFF. -/
def execMonitorWindow (count : Nat) (s : State) : Out :=
  occurs (decide (s.dev.base ≠ .off)) (endWindow count) s

/-- The root PLL locks at start-up (R421, Table 3.5 step 4): BOOT begins, and Hearth services move to root domains. -/
def startLock (s : State) : State :=
  let s := modClk (fun c => { c with locked := true }) s
  let s := modDev (fun d => { d with crystal := .locked, xtalOk := !s.clk.refOsc, base := .boot }) s
  let s := modCudex (fun c => { c with cup := .rom }) s
  let s := modLib (·.readSfdp s.dev.straps.flashQuad) s
  let s := modHbm (fun h => { h with key := freshBits 256 s }) s
  settleMode s.dev.resetCause.toNat (beginSwitch .hearth true (useFree s))

/-- The PLL relocks after a reference switch (R427 steps 4 and 5, R429). -/
def relock (s : State) : State :=
  let toOsc := s.clk.rootSw.toNew
  let s := modSwitch .rootRef (fun _ => {}) s
  let s := modClk (fun c => { c with holdover := false, refOsc := toOsc }) s
  let s := modDev (fun d => { d with xtalOk := !toOsc }) s
  onlyIf (!toOsc) (raise { cls := 1, sev := 1, code := 0x1002, kind := 0,
                           details := [(2, s.clk.lastCounts.headD 0)] }) s

/-- ROOT_PLL_LOCK (R422, R427). -/
def execRootPllLock (s : State) : Out :=
  let start := decide (s.dev.base = .standby) && decide (s.dev.crystal = .locking)
  occurs (start || (s.clk.locked && decide (s.clk.rootSw.phase = .released)))
    (fun s => if start then startLock s else relock s) s

/-- CLOCK_SWITCH_ACK (R430): the old side has stopped. -/
def execClockSwitchAck (sw : ClockSwitch) (s : State) : Out :=
  occurs (decide ((s.clockSwitch sw).phase = .stopping)) (releaseSwitch sw) s

/-- Has the old source's detector declared it dead (Table 16.3)? The clock monitor speaks for the crystal; the
detectors of `PCLK` and of a domain PLL are told by the command. The internal oscillator and a fabric clock have none. -/
def oldDead (sw : ClockSwitch) (dead : Bool) (s : State) : Bool :=
  let x := s.clockSwitch sw
  match sw with
  | .rootRef => x.toNew && decide (3 ≤ s.clk.badRun)
  | .hearth => false
  | .bramA _ => !x.toNew && dead
  | .dspDomain _ => dead

/-- A check at the eighth internal-oscillator cycle or later: release by force, or wait on. -/
def checkSwitch (sw : ClockSwitch) (dead : Bool) (s : State) : State :=
  if oldDead sw dead s then
    let s := modClk (fun c => { c with forced := true, forcedTotal := satAdd 4294967295 c.forcedTotal 1 }) s
    releaseSwitch sw (raise (forcedEvent (switchCode sw) (switchPlace sw)) s)
  else modSwitch sw (fun x => { x with waited := if x.waited = 0 then 8 else x.waited + 1 }) s

/-- CLOCK_SWITCH_CHECK (R430). -/
def execClockSwitchCheck (sw : ClockSwitch) (dead : Bool) (s : State) : Out :=
  occurs (decide ((s.clockSwitch sw).phase = .stopping)) (checkSwitch sw dead) s

/-- Is a rail's AVSBus write outstanding? Rails 0 to 3 are the DSP domains, rail 4 is `VCC_COPE` (R431). -/
def railWriting (rail : Fin 5) (s : State) : Bool :=
  if rail.val < 4 then domainWriting (s.domain rail.val) else s.clk.copeWrite

/-- AVS_ACK (R432, R434). -/
def execAvsAck (rail : Fin 5) (s : State) : Out :=
  occurs (s.awake && railWriting rail s) (fun s =>
    if rail.val < 4 then domainAck rail.val s
    else modClk (fun c => { c with copeNow := c.copeTarget, copeWrite := false, copeResent := false }) s) s

/-- An unacknowledged write of `VCC_COPE`: sent once more, then abandoned; the rail has no operating point. -/
def copeNoAck (s : State) : State :=
  if !s.clk.copeResent then modClk (fun c => { c with copeResent := true }) s
  else useFree (raise (abandonEvent 4 (700 + s.clk.copeTarget) (freshNat s))
    (modClk (fun c => { c with copeWrite := false, copeResent := false }) s))

/-- AVS_NO_ACK (R433). -/
def execAvsNoAck (rail : Fin 5) (s : State) : Out :=
  occurs (s.awake && railWriting rail s) (fun s => if rail.val < 4 then domainNoAck rail.val s else copeNoAck s) s

/-- AVS_SETTLE_END (R432): the relock begins. -/
def execAvsSettleEnd (d : Fin 4) (s : State) : Out :=
  occurs (s.awake && decide ((s.domain d.val).step = .upSettle)) (fun s =>
    beginSwitch (.dspDomain d) true (modDomain d.val (fun x => { x with step := .upRelock }) s)) s

/-- DOMAIN_PLL_RELOCK (R251, R432): starts that waited for the end of the pause follow. -/
def execDomainPllRelock (d : Fin 4) (s : State) : Out :=
  occurs (s.awake && domainPaused (s.domain d.val))
    (fun s => forBelow 16 (fun i => startPending (16 * d.val + i)) (domainRelock d.val s)) s

/-- The change of point that a command asks for (R251, R252, Table 9.19). -/
def requestPoint (q : Req) (s : State) : State × Answer :=
  let d := q.target
  let p := q.argByte 8
  let x := s.domain d
  if 3 < p then (s, .done stBadArg [])
  else if x.step ≠ .idle then (s, .done stBusy [])
  else if lget false x.withdrawn p then (s, .done stDenied [])
  else
    let s := modDomain d (fun y => { y with requested := p, deferred := s.therm.throttled && decide (1 < p) }) s
    if s.therm.throttled ∧ 1 < p then (s, .done stOk (domainResults d s))
    else if p = x.point then (s, .done stOk (domainResults d s))
    else (startPoint d p (modDomain d (fun y => { y with waiter := some q.waiter }) s), .wait)

/-- `DSP_DOMAIN` (Table 9.19). -/
def dspDomainSpec : CmdSpec where
  opcode := 0x0403
  query := true
  targetOk := below 4
  owners := fun q _ => [ownKey 5 q.target]
  body := fun q s => if q.queryFlag then (s, .done stOk (domainResults q.target s)) else requestPoint q s
def execDspDomain (p : Port) (sl : Fin 4) (s : State) : Out := runCmd dspDomainSpec p sl s

/-- One reading of one replica (R437, R458). -/
def readReplica (x : Fin 64 × Fin 8 × Int) (s : State) : State :=
  let (r, k, slack) := x
  let key := 8 * r.val + k.val
  let s := modTherm (fun t => { t with minSlack := tmod none t.minSlack key (fun m =>
    match m with | none => some slack | some v => some (min v slack)) }) s
  let ev := fun sev : Nat => ({ cls := 0x0D, sev := sev, code := 0x1006, kind := 1, src := r.val,
                                details := [(1, r.val), (1, k.val), (2, int16 slack)] } : EvRec)
  if slack < 0 then
    let fresh := !s.cudex.windows.any (fun w => sameWindow w.ev (ev 3))
    let s := raiseLimited (ev 3) [] s
    onlyIf (fresh && !s.therm.stepDown.contains r.val)
      (modTherm (fun t => { t with stepDown := t.stepDown ++ [r.val] })) s
  else if slack < 20 then raiseLimited (ev 2) [] s
  else s

/-- REPLICA_READ (R437): the critical-path replicas of the regions that the command gives. -/
def execReplicaRead (slacks : List (Fin 64 × Fin 8 × Int)) (s : State) : Out :=
  occurs s.awake (forEach slacks readReplica) s

/-- FABRIC_CLOCK_CHANGE (R424): at the first common instant after a tick boundary a changed frequency applies. -/
def execFabricClockChange (r : Fin 64) (s : State) : Out :=
  occurs (s.awake && (decide (s.kNow r.val ≠ s.kDue r.val) || (s.region r.val).kHalved != s.therm.throttled))
    (modRegion r.val (fun x => { x with kNow := some (s.kDue r.val), kHalved := s.therm.throttled })) s

/-- The results of `CLOCK_STATUS`; the root frequency is measured, so it is a free value. -/
def clockResults (s : State) : Results :=
  [(16, 4, clkState s), (20, 4, s.clk.lastCounts.headD 0), (24, 4, freshNat s % 2 ^ 32), (28, 4, s.clk.badTotal),
   (32, 4, s.clk.forcedTotal)]

/-- RETURN (R429): the reference switches back to the crystal. -/
def returnToCrystal (s : State) : State × Answer :=
  if s.clk.goodRun < 100 ∨ s.clk.rootSw.phase ≠ .idle ∨ s.clk.holdover = true then (s, .done stBusy [])
  else
    let s := onlyIf s.clk.refOsc (beginSwitch .rootRef false) s
    (s, .done stOk (clockResults s))

/-- `CLOCK_STATUS` (Table 16.8). -/
def clockStatusSpec : CmdSpec where
  opcode := 0x0A00
  portOk := fun q => q.argByte 8 != 1 || mb01 q
  targetOk := devTarget
  body := fun q s => match q.argByte 8 with
    | 0 => (useFree s, .done stOk (clockResults s))
    | 1 => let (t, a) := returnToCrystal s; (useFree t, a)
    | _ => (s, .done stBadArg [])
def execClockStatus (p : Port) (sl : Fin 4) (s : State) : Out := runCmd clockStatusSpec p sl s

/-- The results of `REGION_CLOCK`, with the k that is in effect. -/
def regionClockResults (r k now : Nat) (s : State) : Results :=
  [(16, 1, k), (17, 1, s.kPlan r), (18, 1, now), (19, 1, bit (s.region r).kHalved)]

/-- `REGION_CLOCK` (Table 16.9): answered at the tick boundary at which the change takes effect. -/
def regionClockSpec : CmdSpec where
  opcode := 0x0A01
  query := true
  targetOk := below 64
  owners := ownRegion
  body := fun q s =>
    let r := q.target
    let k := q.argByte 8
    if q.queryFlag then
      (s, .done stOk (regionClockResults r (((s.region r).kShadow.map (·.1)).getD (s.kSet r)) (s.kNow r) s))
    else if k < 8 ∨ s.kMax < k then (s, .done stBadArg [])
    else if (s.region r).kShadow.isSome then (s, .done stBusy [])
    else (modRegion r (fun x => { x with kShadow := some (k, q.waiter) }) s, .wait)
def execRegionClock (p : Port) (sl : Fin 4) (s : State) : Out := runCmd regionClockSpec p sl s

/-- The results of `REGION_POWER` (Table 16.10). -/
def regionPowerResults (r : Nat) (s : State) : Results :=
  let x := s.region r
  [(16, 1, x.power.code), (17, 1, bit x.wake + 2 * bit x.trans.isSome + 4 * bit x.quiescing),
   (18, 2, x.now.changed.length)] ++ (List.range 8).map (fun i => (20 + 4 * i, 4, lget 0 x.powerCnt i))

/-- `REGION_POWER` (Table 16.10). -/
def regionPowerSpec : CmdSpec where
  opcode := 0x0A02
  query := true
  targetOk := below 64
  owners := ownRegion
  body := fun q s =>
    let r := q.target
    if q.queryFlag then (s, .done stOk (regionPowerResults r s))
    else if 2 ≤ q.argByte 8 then (s, .done stBadArg [])
    else
      let s := modRegion r (fun x => { x with wake := q.argByte 8 == 1 }) s
      (s, .done stOk (regionPowerResults r s))
def execRegionPower (p : Port) (sl : Fin 4) (s : State) : Out := runCmd regionPowerSpec p sl s

end Sys2Proof.Machine
end

