-- ==== Sys2Proof/Machine/LaneCode.lean ====
section
/-! DEFINITION. What travels on a serial lane: 8b/10b code-groups and their synchronisation (R257, R258), scrambled blocks and
block lock (R259), transcoding, the Reed-Solomon code, the lane marker and PAM4 (R260 to R264), test patterns (R285) and training
frames (R274). Bits are listed in line order. -/

namespace Sys2Proof.Machine

/-! ### Bits -/

/-- The `w` low bits of a number, bit 0 first, and back. -/
def bitsOf (w n : Nat) : List Bool := (List.range w).map n.testBit
def natOf (l : List Bool) : Nat := l.foldr (fun b n => bit b + 2 * n) 0

/-- A list in pieces of `k`; a rest that is shorter is dropped. -/
def pieces {α : Type} (k : Nat) (l : List α) : List (List α) := (List.range (l.length / k)).map (fun i => (l.drop (k * i)).take k)

/-- Places at which two lists differ. -/
def differ (a b : List Bool) : Nat := (a.zip b).countP (fun x => x.1 != x.2)

/-! ### 8b/10b (R257): the tables of IEEE 802.3 Clause 36 (notes/assumptions/166.md) -/

/-- The 6-bit groups of `D.x` and the 4-bit groups of `D.x.y` and `K.x.y` in negative disparity, bit `a` (`f`) highest. -/
def dSix : List Nat :=
  [0x27, 0x1D, 0x2D, 0x31, 0x35, 0x29, 0x19, 0x38, 0x39, 0x25, 0x15, 0x34, 0x0D, 0x2C, 0x1C, 0x17]
    ++ [0x1B, 0x23, 0x13, 0x32, 0x0B, 0x2A, 0x1A, 0x3A, 0x33, 0x26, 0x16, 0x36, 0x0E, 0x2E, 0x1E, 0x2B]
def dFour : List Nat := [0xB, 0x9, 0x5, 0xC, 0xD, 0xA, 0x6, 0xE]
def kFour : List Nat := [0xB, 0x6, 0xA, 0xC, 0xD, 0x5, 0x9, 0x7]

/-- Ones among the `w` low bits. -/
def onesIn (w v : Nat) : Nat := (List.range w).countP v.testBit

/-- Running disparity behind a group of `w` bits: the sign of its balance, or of a balanced group the side it leans to. -/
def leans (w v : Nat) (rd : Bool) : Bool :=
  if w < 2 * onesIn w v then true
  else if 2 * onesIn w v < w then false
  else if v = 2 ^ (w / 2) - 1 then true
  else if v = 2 ^ w - 2 ^ (w / 2) then false
  else rd

/-- The 6-bit group of a byte's low five bits. -/
def sixOf (k rd : Bool) (x : Nat) : Nat :=
  let v := if k && x == 28 then 0x0F else lget 0 dSix x
  if rd && (onesIn 6 v != 3 || x == 7) then 63 - v else v

/-- The 4-bit group of a byte's high three bits: the alternate `D.x.7` where the first would make a run of five. -/
def fourOf (k rd : Bool) (x y : Nat) : Nat :=
  let alt := y == 7 && (if rd then [11, 13, 14].contains x else [17, 18, 20].contains x)
  let v := if k then lget 0 kFour y else if alt then 0x7 else lget 0 dFour y
  let turns := if k then true else if alt then false else onesIn 4 v != 2 || y == 3
  if alt && !k then (if rd then 0x8 else 0x7) else if rd && turns then 15 - v else v

/-- A number of `w` bits with its highest bit first on the line. -/
def msbFirst (w v : Nat) : List Bool := (bitsOf w v).reverse

/-- The code-group of a character and the disparity behind it. -/
def encodeChar (k : Bool) (b : Nat) (rd : Bool) : List Bool × Bool :=
  let six := sixOf k rd (b % 32)
  let rd := leans 6 six rd
  let four := fourOf k rd (b % 32) (b / 32)
  (msbFirst 6 six ++ msbFirst 4 four, leans 4 four rd)

/-- The twelve K-symbols (Table 10.3). -/
def kSymbols : List Nat := [0x1C, 0x3C, 0x5C, 0x7C, 0x9C, 0xDC, 0xBC, 0xFC, 0xF7, 0xFB, 0xFD, 0xFE]

/-- The character of a code-group in a disparity, if it has one, and the disparity behind it. -/
def decodeChar (g : List Bool) (rd : Bool) : Option (Bool × Nat) × Bool :=
  let all := (List.range 256).map (fun b => (false, b)) ++ kSymbols.map (fun b => (true, b))
  let rd' := leans 4 (natOf (g.drop 6).reverse) (leans 6 (natOf (g.take 6).reverse) rd)
  (all.find? (fun c => (encodeChar c.1 c.2 rd).1 == g), rd')

/-- A code-group that begins with a comma. -/
def hasComma (g : List Bool) : Bool :=
  let h := natOf (g.take 7).reverse
  h == 0x1F || h == 0x60

/-! ### Coder state -/

/-- A received character: value, K-symbol, and bad. -/
abbrev RxChar := Nat × Bool × Bool

/-- The synchronisation machine of Clause 36: 0 loss of sync; 1, 3, 5 comma detected; 2, 4 acquiring; 6 to 9 acquired, with
the bad code-groups not yet made good. `good` counts good ones in a row. -/
def syncStep (bad comma data : Bool) (x : RxCode) : RxCode :=
  let even := !x.even
  -- A comma is bad in an odd place.
  let cgBad := bad || (comma && !even)
  let go (n : Nat) : RxCode := { x with sync := n, good := 0, even := even }
  match x.sync with
  | 0 => if comma && !bad then { x with sync := 1, good := 0, even := true } else { x with even := even }
  | 1 | 3 | 5 => if data && !bad then go (x.sync + 1) else go 0
  | 2 | 4 => if cgBad then go 0 else if comma then go (x.sync + 1) else go x.sync
  | 6 => if cgBad then go 7 else go 6
  | n =>
    if cgBad then (if n = 9 then go 0 else go (n + 1))
    else if x.good = 3 then go (n - 1) else { x with good := x.good + 1, even := even }

/-! ### Blocks (R259) -/

/-- One bit through the scrambler x^58 + x^39 + 1, and through the descrambler. -/
def scrambleBit (s : BitVec 58) (b : Bool) : Bool × BitVec 58 :=
  let o := b != (s.getLsbD 38 != s.getLsbD 57)
  (o, (s <<< 1) ||| BitVec.ofNat 58 (bit o))
def descrambleBit (s : BitVec 58) (b : Bool) : Bool × BitVec 58 :=
  (b != (s.getLsbD 38 != s.getLsbD 57), (s <<< 1) ||| BitVec.ofNat 58 (bit b))

/-- Bits in turn through one of them. -/
def throughBits (f : BitVec 58 → Bool → Bool × BitVec 58) (s : BitVec 58) (l : List Bool) : List Bool × BitVec 58 :=
  l.foldl (fun acc b => let (o, s) := f acc.2 b; (acc.1 ++ [o], s)) ([], s)

/-- A block on the line: the sync header, its left bit first, and the scrambled payload. -/
def encodeBlock (h : BitVec 2) (v : BitVec 64) (s : BitVec 58) : List Bool × BitVec 58 :=
  let (p, s) := throughBits scrambleBit s (bitsOf 64 v.toNat)
  ([h.getLsbD 1, h.getLsbD 0] ++ p, s)

/-- The header of a block of 66 bits. -/
def headerOf (l : List Bool) : BitVec 2 := BitVec.ofNat 2 (2 * bit (l.getD 0 false) + bit (l.getD 1 false))

/-- Block lock (R259): 64 consecutive valid headers give it, 16 invalid within 64 take it. -/
def lockStep (valid : Bool) (x : RxCode) : RxCode :=
  let n := x.headers + 1
  let bad := x.badHeaders + bit !valid
  if !x.synced then
    if !valid then { x with headers := 0, badHeaders := 0 }
    else if n = 64 then { x with synced := true, headers := 0, badHeaders := 0 } else { x with headers := n, badHeaders := 0 }
  else if bad = 16 then { x with synced := false, headers := 0, badHeaders := 0 }
  else if n = 64 then { x with headers := 0, badHeaders := 0 } else { x with headers := n, badHeaders := bad }

/-! ### 256b/257b transcoding (R260): Clause 91 (notes/assumptions/167.md) -/

/-- Four blocks as one of 257 bits: all data, or the kind of each, with the second nibble of the first control block left out. The
five first bits are masked at the end. -/
def transcode (bs : List (List Bool)) : List Bool :=
  let isCtl := fun (b : List Bool) => headerOf b != 1#2
  let body := if bs.all (fun b => !isCtl b) then true :: bs.flatMap (·.drop 2)
    else
      let c := (bs.findIdx? isCtl).getD 0
      false :: (bs.map (fun b => !isCtl b)) ++ (bs.zipIdx.flatMap (fun b =>
        let p := b.1.drop 2
        if b.2 = c then p.take 4 ++ p.drop 8 else p))
  (List.range 5).map (fun i => (body.getD i false) != (body.getD (i + 8) false)) ++ body.drop 5

/-- The second nibble of a block type whose first is known (the block type fields of Clauses 49 and 82). -/
def secondNibble (n : Nat) : Nat :=
  lget 0 [0x0, 0xE, 0xD, 0x3, 0xB, 0x5, 0x6, 0x8, 0x7, 0x9, 0xA, 0x4, 0xC, 0x2, 0x1, 0xF] n

/-- The payload of one block that has come through the transcoder: 64 bits, or 60 when the second nibble of its block type was left
out and is read from the first. -/
def openPayload (short : Bool) (p : List Bool) (s : BitVec 58) : List Bool × BitVec 58 :=
  if short then
    let (a, s) := throughBits descrambleBit s (p.take 4)
    let second := bitsOf 4 (secondNibble (natOf a))
    let (_, s) := throughBits scrambleBit s second
    let (b, s) := throughBits descrambleBit s (p.drop 4)
    (a ++ second ++ b, s)
  else throughBits descrambleBit s p

/-- The four blocks of 257 bits: headers and descrambled payloads. -/
def untranscode (l : List Bool) (s : BitVec 58) : List (BitVec 2 × List Bool) × BitVec 58 :=
  let l := (List.range 5).map (fun i => (l.getD i false) != (l.getD (i + 8) false)) ++ l.drop 5
  if l.getD 0 false then
    (pieces 64 (l.drop 1)).foldl (fun acc p =>
      let (o, s) := openPayload false p acc.2
      (acc.1 ++ [((1#2 : BitVec 2), o)], s)) ([], s)
  else
    let kinds := (l.drop 1).take 4
    let c := (kinds.findIdx? (fun k => !k)).getD 4
    ((kinds.zipIdx.foldl (fun (acc : (List (BitVec 2 × List Bool) × BitVec 58) × List Bool) k =>
      let n := if k.2 = c then 60 else 64
      let (o, s) := openPayload (k.2 == c) (acc.2.take n) acc.1.2
      ((acc.1.1 ++ [((if k.1 then 1#2 else 2#2 : BitVec 2), o)], s), acc.2.drop n)) (([], s), l.drop 5))).1

/-! ### RS(544,514) over GF(2^10) (R260, R262): x^10 + x^3 + 1, roots α^0 to α^29 -/

def gfDouble (a : Nat) : Nat := if 512 ≤ a then (2 * a) ^^^ 0x409 else 2 * a
def gfMul (a b : Nat) : Nat :=
  (List.range 10).foldr (fun i p => gfDouble p ^^^ (if b.testBit i then a else 0)) 0
def gfSquare (a : Nat) : Nat := gfMul a a
/-- The inverse: the power 1022. -/
def gfInv (a : Nat) : Nat := (List.range 9).foldl (fun (x : Nat × Nat) _ => (gfSquare x.1, gfMul x.2 (gfSquare x.1))) (a, 1) |>.2
def alphaPow (n : Nat) : Nat := iter gfDouble n 1

/-- A polynomial, lowest coefficient first, at a point. -/
def gfEval (p : List Nat) (x : Nat) : Nat := p.foldr (fun c v => gfMul v x ^^^ c) 0

/-- The sum of two polynomials. -/
def gfAdd : List Nat → List Nat → List Nat
  | [], q => q
  | p, [] => p
  | a :: p, b :: q => (a ^^^ b) :: gfAdd p q

/-- A polynomial times a scalar and times x^n. -/
def gfScale (c n : Nat) (p : List Nat) : List Nat := List.replicate n 0 ++ p.map (gfMul c)

/-- The generator polynomial. -/
def rsGen : List Nat := (List.range 30).foldl (fun g j => gfAdd (gfScale 1 1 g) (gfScale (alphaPow j) 0 g)) [1]

/-- The 30 check symbols of a message of 514, in the order of the line. -/
def rsParity (msg : List Nat) : List Nat :=
  let g := (rsGen.take 30).reverse
  msg.foldl (fun (r : List Nat) m =>
    let f := m ^^^ r.headD 0
    (r.drop 1 ++ [0]).zipWith (fun a c => a ^^^ gfMul f c) g) (.replicate 30 0)

/-- The syndromes of a codeword in the order of the line. -/
def rsSyndromes (w : List Nat) : List Nat := (List.range 30).map (fun j => gfEval w.reverse (alphaPow j))

/-- The error locator by Berlekamp and Massey: coefficients and degree. -/
def rsLocator (syn : List Nat) : List Nat × Nat :=
  let r := (List.range 30).foldl (fun (x : List Nat × List Nat × Nat × Nat × Nat) n =>
    let (c, b, l, m, d0) := x
    let d := (List.range (l + 1)).foldl (fun d i => d ^^^ gfMul (lget 0 c i) (if i ≤ n then lget 0 syn (n - i) else 0)) 0
    if d = 0 then (c, b, l, m + 1, d0)
    else
      let c' := gfAdd c (gfScale (gfMul d (gfInv d0)) m b)
      if 2 * l ≤ n then (c', c, n + 1 - l, 1, d) else (c', b, l, m + 1, d0)) ([1], [1], 0, 1, 1)
  (r.1, r.2.2.1)

/-- The values of the odd powers of a polynomial at a point: its derivative. -/
def gfDeriv (p : List Nat) : List Nat := (p.drop 1).zipIdx.map (fun c => if c.2 % 2 = 0 then c.1 else 0)

/-- A received codeword decoded (R262): corrected, with the symbols that were in error; none beyond 15. -/
def rsDecode (w : List Nat) : Option (List Nat × Nat) :=
  let syn := rsSyndromes w
  if syn.all (· == 0) then some (w, 0)
  else
    let (loc, l) := rsLocator syn
    let roots := (List.range 544).filter (fun i => gfEval loc (alphaPow ((1023 - i) % 1023)) == 0)
    if l = 0 ∨ 15 < l ∨ roots.length ≠ l then none
    else
      let prod := (loc.zipIdx.foldl (fun p c => gfAdd p (gfScale c.1 c.2 syn)) []).take 30
      let value := fun (i : Nat) =>
        let xi := alphaPow ((1023 - i) % 1023)
        gfMul (alphaPow i) (gfMul (gfEval prod xi) (gfInv (gfEval (gfDeriv loc) xi)))
      some (roots.foldl (fun (w : List Nat) i => w.set (543 - i) (lget 0 w (543 - i) ^^^ value i)) w, l)

/-- Symbols of 10 bits, bit 0 first, and the bits of symbols. -/
def symbolsOf (l : List Bool) : List Nat := (pieces 10 l).map natOf
def symbolBits (l : List Nat) : List Bool := l.flatMap (bitsOf 10)

/-! ### The lane marker (R261) -/

/-- The 128 pattern bits of the marker. -/
def markerPattern : List Bool :=
  let p := bitsOf 64 0x9C3E71A50F2DB684
  p ++ p.map (!·)

/-- The marker of a lane. -/
def laneMarker (l : Nat) : List Bool := [false] ++ markerPattern ++ bitsOf 8 l ++ (bitsOf 8 l).map (!·) ++ .replicate 112 false

/-- A block that matches the marker: at most 8 of the pattern bits differ. -/
def isMarker (b : List Bool) : Bool := decide (differ ((b.drop 1).take 128) markerPattern ≤ 8)

/-- Codewords from one marker to the next, and bits of a codeword. -/
def markerStep : Nat := 1024
def codewordBits : Nat := 5440

/-! ### Levels (R260, R264, R287) -/

/-- Gray mapping of a bit pair, the first bit first, and back. -/
def grayOf (a b : Bool) : Fin 4 := if a then (if b then 2 else 3) else (if b then 1 else 0)
def ungray (v : Fin 4) : List Bool := [decide (2 ≤ v.val), decide (v.val = 1 ∨ v.val = 2)]

/-- The levels of the line from the two bits of each, the first level at bit 0. -/
def lineLevels (n upper lower : Nat) : List (Fin 4) :=
  (List.range n).map (fun i => match upper.testBit i, lower.testBit i with
    | false, false => 0
    | false, true => 1
    | true, false => 2
    | true, true => 3)

/-- Bits as levels of the line: NRZ at the outer levels, or Gray-mapped pairs, precoded where asked; with the level sent last. -/
def toLevels (pam4 pre inv : Bool) (l : List Bool) (last : Fin 4) : List (Fin 4) × Fin 4 :=
  let turn := fun (v : Fin 4) => if inv then 3 - v else v
  if pam4 then
    (pieces 2 l).foldl (fun acc p =>
      let g := grayOf (p.getD 0 false) (p.getD 1 false)
      let v := if pre then g - acc.2 else g
      (acc.1 ++ [turn v], v)) ([], last)
  else (l.map (fun b => turn (if b then 3 else 0)), last)

/-- Levels as bits; with the level received last. -/
def fromLevels (pam4 pre inv : Bool) (l : List (Fin 4)) (last : Fin 4) : List Bool × Fin 4 :=
  let turn := fun (v : Fin 4) => if inv then 3 - v else v
  if pam4 then
    l.foldl (fun acc v => let v := turn v; (acc.1 ++ ungray (if pre then v + acc.2 else v), v)) ([], last)
  else (l.map (fun v => decide (2 ≤ (turn v).val)), last)

/-! ### The transmit coder (R257 to R264) -/

/-- A unit with its control (Table 10.4). -/
abbrev LaneUnit := BitVec 64 × BitVec 8

/-- Bits of the inner code: every 120 bits with their check bits (R263). -/
def innerBits (l : List Bool) (t : TxCode) : List Bool × TxCode :=
  let all := t.inner ++ l
  let ps := pieces 120 all
  (ps.flatMap (fun p => p ++ bitsOf 8 (Config.innerParity (BitVec.ofNat 120 (natOf p))).toNat),
    { t with inner := all.drop (120 * ps.length) })

/-- Blocks of the codeword in progress: one transcoded block of it is the marker's in every 1,024th (R261). -/
def wordBlocks (word : Nat) : Nat := if word = 0 then 76 else 80

/-- A codeword of blocks: the marker where it is due, the transcoded blocks, and the check symbols (R260). -/
def sendWord (lane coding : Nat) (t : TxCode) : List Bool × TxCode :=
  let msg := (if t.word = 0 then laneMarker lane else []) ++ (pieces 4 t.blocks).flatMap transcode
  let syms := symbolsOf msg
  let t := { t with blocks := [], word := (t.word + 1) % markerStep }
  let w := msg ++ symbolBits (rsParity syms)
  if coding = 4 then innerBits w t else (w, t)

/-- The bits that a unit sends, and the coder behind it; in FEC a whole codeword at its last block. -/
def sendUnit (lane : Nat) (coding : Nat) (u : LaneUnit) (t : TxCode) : List Bool × TxCode :=
  match coding with
  | 0 => (bitsOf 64 u.1.toNat, t)
  | 1 => (List.range 8).foldl (fun acc i =>
      let (g, rd) := encodeChar (u.2.getLsbD i) (byteOf u.1 i).toNat acc.2.rd
      (acc.1 ++ g, { acc.2 with rd := rd })) ([], t)
  | 2 => let (b, s) := encodeBlock (u.2.extractLsb' 0 2) u.1 t.scr; (b, { t with scr := s })
  | _ =>
    let (b, s) := encodeBlock (u.2.extractLsb' 0 2) u.1 t.scr
    let t := { t with scr := s, blocks := t.blocks ++ [b] }
    if t.blocks.length = wordBlocks t.word then sendWord lane coding t else ([], t)

/-- The bits of units in turn. -/
def sendAll (lane coding : Nat) (us : List LaneUnit) (t : TxCode) : List Bool × TxCode :=
  us.foldl (fun acc u => let (b, t) := sendUnit lane coding u acc.2; (acc.1 ++ b, t)) ([], t)

/-! ### The receive decoder (R257 to R264, R267) -/

/-- What received bits give: units, each with its control and whether it is bad, and counts of Table 10.14. -/
structure RxOut where
  units : List (LaneUnit × Bool) := []
  counts : List (Nat × Nat) := []
deriving DecidableEq, Repr

/-- Eight characters as a unit. -/
def charUnit (l : List (Nat × Bool × Bool)) : LaneUnit × Bool :=
  let v := l.zipIdx.foldl (fun n c => n + c.1.1 * 256 ^ c.2) 0
  let k := l.zipIdx.foldl (fun n c => n + bit c.1.2.1 * 2 ^ c.2) 0
  ((BitVec.ofNat 64 v, BitVec.ofNat 8 k), l.any (·.2.2))

/-- A code-group (R257, R258): a bad one is K30.7 and counted; a first unit waits for a comma (R267). In Sprue mode K28.0 is left
out. -/
def takeGroup (sprue : Bool) (g : List Bool) (x : RxCode) (o : RxOut) : RxCode × RxOut :=
  let (ch, rd) := decodeChar g x.rd
  let comma := hasComma g && ch.isSome
  let y := syncStep ch.isNone comma (match ch with | some (k, _) => !k | none => false) { x with rd := rd, buf := [] }
  let on := decide (6 ≤ y.sync)
  let y := { y with synced := on, chars := if on && x.synced then x.chars else none }
  let c : Nat × Bool × Bool := match ch with | some (k, v) => (v, k, false) | none => (0xFE, true, true)
  let o := if ch.isNone && x.synced then { o with counts := o.counts ++ [(0, 1)] } else o
  if !on || (sprue && c.2.1 && c.1 == 0x1C) then (y, o)
  else
    let l := match y.chars with | some l => l ++ [c] | none => if comma then [c] else []
    if l.length = 8 then ({ y with chars := some [] }, { o with units := o.units ++ [charUnit l] })
    else ({ y with chars := if l.isEmpty then none else some l }, o)

/-- One bit of 8B10B: out of sync and with automatic alignment a comma at any place sets the boundary (R258). -/
def take8b10b (sprue manual : Bool) (b : Bool) (x : RxCode) (o : RxOut) : RxCode × RxOut :=
  let buf := x.buf ++ [b]
  if x.sync = 0 ∧ manual = false then
    let buf := buf.drop (buf.length - 10)
    if buf.length = 10 ∧ hasComma buf = true then takeGroup sprue buf { x with rd := buf.getD 0 false } o
    else ({ x with buf := buf }, o)
  else if buf.length = 10 then takeGroup sprue buf x o
  else ({ x with buf := buf }, o)

/-- One bit of 64B66B (R259). -/
def take64b66b (manual : Bool) (b : Bool) (x : RxCode) (o : RxOut) : RxCode × RxOut :=
  let buf := x.buf ++ [b]
  if buf.length < 66 then ({ x with buf := buf }, o)
  else
    let h := headerOf buf
    let valid := h == 1#2 || h == 2#2
    let (p, scr) := throughBits descrambleBit x.scr (buf.drop 2)
    let y := lockStep valid { x with scr := scr, buf := if x.synced || valid || manual then [] else buf.drop 1 }
    if y.synced then
      (y, { units := o.units ++ [((BitVec.ofNat 64 (natOf p), h.setWidth 8), !valid)]
            counts := if valid then o.counts else o.counts ++ [(0, 1)] })
    else (y, o)

/-- A received codeword (R260 to R262). -/
def takeWord (x : RxCode) (o : RxOut) : RxCode × RxOut :=
  let first := x.word = 0
  let missed := if first then (if isMarker x.buf then 0 else x.missed + 1) else x.missed
  let dec := rsDecode (symbolsOf x.buf)
  let bits := match dec with | some (w, _) => symbolBits (w.take 514) | none => x.buf.take 5140
  let (blocks, scr) := ((pieces 257 bits).drop (if first then 1 else 0)).foldl (fun acc p =>
    let (bs, s) := untranscode p acc.2
    (acc.1 ++ bs, s)) (([] : List (BitVec 2 × List Bool)), x.scr)
  let lost := dec.isNone
  let counts := match dec with
    | none => [(3, 1)]
    | some (_, 0) => []
    | some (_, n) => [(1, 1), (2, n)]
  ({ x with buf := [], scr := scr, word := (x.word + 1) % markerStep, missed := missed, synced := decide (missed < 4)
            marks := [] },
   { units := o.units ++ blocks.map (fun b =>
       ((BitVec.ofNat 64 (natOf b.2), (if lost then 3#2 else b.1).setWidth 8), lost))
     counts := o.counts ++ counts })

/-- One bit of FEC: without lock the marker is sought at every place, and gives lock at two places 1,024 codewords apart (R261). -/
def takeFec (b : Bool) (x : RxCode) (o : RxOut) : RxCode × RxOut :=
  let x := { x with pos := x.pos + 1, buf := x.buf ++ [b] }
  let span := markerStep * codewordBits
  if x.synced then if x.buf.length = codewordBits then takeWord x o else (x, o)
  else
    let buf := x.buf.drop (x.buf.length - 129)
    let start := x.pos - 129
    if buf.length < 129 ∨ isMarker buf = false then ({ x with buf := buf }, o)
    else if x.marks.any (fun m => m + span == start) then
      ({ x with buf := buf, synced := true, word := 0, missed := 0, marks := [] }, o)
    else ({ x with buf := buf, marks := x.marks.filter (fun m => decide (start ≤ m + span)) ++ [start] }, o)

/-- One received bit (R257 to R264). -/
def takeBit (c : LaneCfg) (b : Bool) (acc : RxCode × RxOut) : RxCode × RxOut :=
  let (x, o) := acc
  if 0 < x.skip then ({ x with skip := x.skip - 1 }, o)
  else match c.coding with
  | 0 =>
    let buf := x.buf ++ [b]
    if buf.length = 64 then
      ({ x with buf := [] }, { o with units := o.units ++ [((BitVec.ofNat 64 (natOf buf), 0), false)] })
    else ({ x with buf := buf }, o)
  | 1 => take8b10b (decide (c.mode = .sprue)) c.manual b x o
  | 2 => take64b66b c.manual b x o
  | 3 => takeFec b x o
  | _ =>
    let buf := x.inner ++ [b]
    if buf.length < 128 then ({ x with inner := buf }, o)
    else (bitsOf 120 (Config.innerDecode (BitVec.ofNat 128 (natOf buf))).toNat).foldl
      (fun a b => takeFec b a.1 a.2) ({ x with inner := [] }, o)

/-- Received bits in turn. -/
def takeBits (c : LaneCfg) (l : List Bool) (x : RxCode) : RxCode × RxOut := l.foldl (fun a b => takeBit c b a) (x, {})

/-- The unit boundary moves one bit later per bit left out (R280). -/
def RxCode.slip (n : Nat) (x : RxCode) : RxCode :=
  { x with buf := x.buf.drop n, skip := x.skip + (n - x.buf.length) }

/-! ### Test patterns (Table 10.11) -/

/-- Taps of a pattern's polynomial; the first is its degree. -/
def prbsTaps (code : Nat) : List Nat :=
  match code with
  | 1 => [7, 6]
  | 2 => [9, 5]
  | 3 | 7 => [13, 12, 2, 1]
  | 4 => [15, 14]
  | 5 => [23, 18]
  | _ => [31, 28]

/-- The next bit behind the bits given, the latest in bit 0 of the register, and the register behind it. -/
def prbsNext (code : Nat) (r : BitVec 31) : Bool := (prbsTaps code).foldl (fun b t => b != r.getLsbD (t - 1)) false
def shiftIn (r : BitVec 31) (b : Bool) : BitVec 31 := (r <<< 1) ||| BitVec.ofNat 31 (bit b)

/-- `n` bits of a pattern. -/
def prbsBits (code : Nat) : Nat → BitVec 31 → List Bool × BitVec 31
  | 0, r => ([], r)
  | n + 1, r =>
    let b := prbsNext code r
    let (l, r) := prbsBits code n (shiftIn r b)
    (b :: l, r)

/-! ### Training frames (R274) -/

/-- A field of 16 bits in differential Manchester code, 8 levels a bit, the most significant bit first: the line turns at the start of
every cell, and in the middle of the cell of a 1; with the level behind it. -/
def manchester (v : BitVec 16) (last : Bool) : List Bool × Bool :=
  (msbFirst 16 v.toNat).foldl (fun acc b =>
    let a := !acc.2
    let z := if b then !a else a
    (acc.1 ++ .replicate 4 a ++ .replicate 4 z, z)) ([], last)

/-- The levels of a training frame: marker, control and status at the outer levels, then the pattern; with the pattern's register. -/
def trainingFrame (pam4 : Bool) (control status : BitVec 16) (r : BitVec 31) : List (Fin 4) × BitVec 31 :=
  let outer := fun (b : Bool) => (if b then 3 else 0 : Fin 4)
  let (c, z) := manchester control false
  let (t, _) := manchester status z
  let n := 4096 - 288
  let (p, r) := prbsBits 3 (if pam4 then 2 * n else n) r
  (.replicate 16 3 ++ .replicate 16 0 ++ c.map outer ++ t.map outer ++ (toLevels pam4 false false p 0).1, r)

end Sys2Proof.Machine
end

