-- ==== Sys2Proof/Machine/RunnerOps.lean ====
section
/-! DEFINITION. A Runner request from its issue to its response: who may issue (R36, R37, R44), the checks in the order of
R545, the Riser windows (R361 to R372), the performance line by line (R39), and the requests that a target holds
(R21, R43, R372, R413). -/

namespace Sys2Proof.Machine

/-! ### Riser windows (Table 13.1) -/

/-- The areas of a queue window. -/
inductive Area where
  | push | pushEop | abort | pop | popStatus | state
deriving DecidableEq, Repr

/-- Area codes (Table 19.18). -/
def Area.code : Area → Nat
  | .push => 0 | .pushEop => 1 | .abort => 2 | .pop => 3 | .popStatus => 4 | .state => 5

/-- The area that a burst lies in, its kind of access and its length being permitted (R363). -/
def areaOf (op : RunOp) (off n : Nat) : Option Area :=
  let stop := off + 64 * n
  match op with
  | .write =>
    if stop ≤ 0x200 then some .push
    else if 0x200 ≤ off ∧ stop ≤ 0x400 then some .pushEop
    else if off = 0x400 ∧ n = 1 then some .abort else none
  | .read =>
    if 0x800 ≤ off ∧ stop ≤ 0xA00 then some .pop
    else if off = 0xA00 ∧ n = 2 then some .popStatus
    else if off = 0xC00 ∧ n = 1 then some .state else none
  | _ => none

/-- An item's bytes: those whose enables are clear are zero (R364). -/
def itemBytes (l : WLine) : Line := mergeBytes 0 l.1 l.2

/-- The lines of a push burst in address order: the code of the lowest refused line. -/
def pushLines (q : Nat) (eopAt : Option Nat) : List (WLine × Nat) → State → Nat → State × Nat
  | [], s, c => (s, c)
  | (l, i) :: rest, s, c =>
    if l.2 = 0 then pushLines q eopAt rest s c
    else
      let (s, refused) := pushOne q (itemBytes l) (decide (eopAt = some i)) s
      pushLines q eopAt rest s (if refused && c == rcOk then rcAccess else c)

/-- PUSH and PUSH_EOP (R364, R369): EOP goes to the last line that appends. -/
def pushBurst (q : Nat) (eop : Bool) (lines : List WLine) (s : State) : State × Nat :=
  let s := checkPointers q s
  let ls := lines.zipIdx
  let last := (ls.filter (fun l => l.1.2 != 0)).getLast?
  match last with
  | none => (onlyIf eop (commitEmpty q) s, rcOk)
  | some l => pushLines q (if eop then some l.2 else none) ls s rcOk

/-- One line of a POP (R370, R372). -/
def popLine (it : Option Item) : RLine :=
  match it with
  | none => ⟨0, 0⟩
  | some i => if i.bad then ⟨BitVec.ofNat 3 rcIntegrity, 0⟩ else ⟨0, i.bytes⟩

/-- A POP burst, evaluated at one instant. -/
def popLines (q : Nat) : Nat → State → State × List RLine
  | 0, s => (s, [])
  | n + 1, s =>
    let (s, it) := popOne q s
    let (s, ls) := popLines q n s
    (s, popLine it :: ls)

/-- A burst at a queue window, its rights having been checked: its response, or none while it is held. A pop waits behind
the held requests `ahead` of it, any other burst behind those of its own port (R46). -/
def riserBurst (q off mid : Nat) (op : RunOp) (n : Nat) (lines : List WLine) (waiting behind : Bool) (s : State) :
    State × Option (List RLine) :=
  let flat := fun c => some (List.replicate (if op = .read then n else 1) ⟨BitVec.ofNat 3 c, 0⟩)
  let x := s.queue q
  if behind then (s, none) else match areaOf op off n with
  | none => (s, flat rcDecode)
  | some .state => (s, some [⟨0, stateLine x⟩])
  | some a =>
    if !x.enabled then (s, flat rcDecode)
    else
      let bound := match a with | .pop | .popStatus => x.consumer | _ => x.producer
      if bound ≠ mid then
        let s := modQueue q (fun y => { y with counters := bump y.counters 4 1 }) s
        (raiseLimited { cls := 0x0A, sev := 1, code := 0x0D04, kind := 4, src := q,
                        details := [(2, q), (1, mid), (1, a.code)] } [] s, flat rcAccess)
      else match a with
        | .push => let (s, c) := pushBurst q false lines s; (s, flat c)
        | .pushEop => let (s, c) := pushBurst q true lines s; (s, flat c)
        | .abort => (onlyIf (lines.any (fun l => l.2 != 0)) (rewindQueue q) s, flat rcOk)
        | .pop =>
          let s := checkPointers q s
          if waiting || (s.queue q).popHeld n then (s, none)
          else let (s, ls) := popLines q n s; (s, some ls)
        | _ =>
          let s := checkPointers q s
          if waiting || (s.queue q).popHeld 1 then (s, none)
          else
            let (s, it) := popOne q s
            (s, some [popLine it, ⟨0, popStatusLine it (s.queue q)⟩])

/-! ### Issue -/

/-- Read lines outstanding at a source: those not transferred yet. -/
def readsOutstanding (src : Source) (s : State) : Nat :=
  s.runner.outst.foldl (fun n o => if o.hdr.src = src ∧ o.op = .read ∧ o.gone = false then n + linesOwed o else n) 0

/-- The transfer that a DSP engine's DMA asks for is this one (R239). -/
def dmaMatches (e : Engine) (h : ReqHdr) (op : RunOp) : Bool :=
  match e.dmaActive with
  | none => false
  | some d => decide (h.addr = d.addr) && decide (h.len = d.len) && decide (h.qos = d.qos) && decide (h.win = d.win)
      && decide (h.tag = 0) && decide (op = if d.toRunner then .write else .read)

/-- A region's fabric port may start a request: its block clock runs, it is not isolated, and the active plane places the
port (R44, R91, R96, R439). -/
def fabricMayIssue (s : State) (r p : Nat) : Bool :=
  let x := s.region r
  fabricClocked s r && !x.isolated && x.trans.isNone && !x.copeReset
    && !(match x.slice with | some j => j.running | none => false) && x.now.use.runnerPorts.contains p

/-- A fabric port takes a response line (R36, R91): the clock of its primitive runs, the active plane places it and holds `RS_READY`
high; until then the line waits in the stop (R38, R439). -/
def portTakes (s : State) (src : Source) : Bool :=
  match src with
  | .fabric r p => fabricClocked s r.val && !(s.region r.val).copeReset && (s.region r.val).now.use.runnerPorts.contains p.val
      && responseReady s r.val p.val
  | _ => true

/-- The fill port and the scrubber port of a region issue: not in the quiesce, nor with the Drag part powered down (R19). -/
def stopIssues (s : State) (r : Nat) : Bool :=
  let x := s.region r
  !x.power.deep && match x.trans with
    | some (.quiescing _) | some .saving => false
    | some (.entering dest) => !dest.deep
    | _ => true

/-- May a source issue at all? -/
def mayIssue (s : State) (h : ReqHdr) (op : RunOp) : Bool :=
  s.awake && match h.src with
  | .fabric r p => fabricMayIssue s r.val p.val && presentsRequest s r.val p.val h op.code
  | .dsp e => dmaMatches (s.engine e.val) h op && !(s.region (e.val / 32)).dragReset && (s.region (e.val / 32)).trans.isNone
  | .host => s.dev.straps.hostSel && s.io.pcie.up
  | .cupola | .mb0 => s.firmware
  | .mb3 => s.firmware && s.dev.debug
  | .fillPort _ | .fettler => match stopOf s h with
    | some r => stopIssues s r
    | none => true
  | _ => true

/-- The stop or attachment point accepts the request (R37). The rule gives the limits of 64 tags and 256 read lines for a port's
stop; the model has them at the attachment of every source, hard units included (DESIGN CHOICE, notes/assumptions/173.md). -/
def accepts (s : State) (h : ReqHdr) (op : RunOp) : Bool :=
  mayIssue s h op && (s.outst h.src h.tag).isNone
    && (decide (op ≠ .read) || decide (readsOutstanding h.src s + lineCount h ≤ 256))

/-- A request that goes to another node: its address is remote and its master may make remote requests. -/
def isRemote (s : State) (h : ReqHdr) : Bool :=
  decide (2 ^ 48 ≤ h.addr.toNat) && decide (rightTo s h.src true h.addr.toNat = .granted)

/-! ### Performance -/

/-- Line `i` of a request as a byte address. -/
def lineAddr (h : ReqHdr) (i : Nat) : Nat := h.addr.toNat / 64 * 64 + 64 * i

/-- One line of a READ at a target. -/
def readLine (mid a : Nat) (s : State) : State × RLine :=
  let (s, c, d) := match decodeAddr a with
    | .hbm h => hbmRead h mid s
    | .bram off => bramLineRead off mid s
    | .dsp e off => match dspPlace off with
      | some (prog, w) => dspLineRead e prog w mid s
      | none => (s, rcDecode, 0)
    | .regs off => regRead off s
    | _ => (s, rcDecode, 0)
  (s, ⟨BitVec.ofNat 3 c, if c = rcOk then d else 0⟩)

/-- One line of a WRITE at a target; one whose enables are all zero changes nothing (R35). -/
def writeLine (mid a : Nat) (l : WLine) (s : State) : State × Nat :=
  if l.2 = 0 then (s, rcOk)
  else match decodeAddr a with
    | .hbm h => hbmWrite h mid l.1 l.2 s
    | .bram off => bramLineWrite off mid l.1 l.2 s
    | .dsp e off => match dspPlace off with
      | some (prog, w) => dspLineWrite e prog w mid l.1 l.2 s
      | none => (s, rcDecode)
    | .regs off => regWrite off l.1 l.2 s
    | _ => (s, rcDecode)

/-- The lines of a READ in address order. -/
def readLines (mid : Nat) (h : ReqHdr) : Nat → Nat → State → State × List RLine
  | 0, _, s => (s, [])
  | n + 1, i, s =>
    let (s, l) := readLine mid (lineAddr h i) s
    let (s, ls) := readLines mid h n (i + 1) s
    (s, l :: ls)

/-- The lines of a WRITE in address order; the code of the lowest refused line (R39). -/
def writeLines (mid : Nat) (h : ReqHdr) : List WLine → Nat → State → Nat → State × Nat
  | [], _, s, c => (s, c)
  | l :: ls, i, s, c =>
    let (s, x) := writeLine mid (lineAddr h i) l s
    writeLines mid h ls (i + 1) s (if c = rcOk then x else c)

/-- Is this an atomic? -/
def RunOp.atomic : RunOp → Bool
  | .read | .write => false
  | _ => true

/-- The rule of R34: an Ingot bank, an aligned word and one line. -/
def atomicOk (op : RunOp) (h : ReqHdr) : Bool :=
  (match decodeAddr h.addr.toNat with | .ingotView _ | .ingotLocal _ => true | _ => false)
    && h.addr.toNat % atomicWidth op == 0 && h.len.val == 0

/-- A burst that crosses a 4 KiB boundary (R33). -/
def crosses (h : ReqHdr) : Bool := decide (4096 < lineAddr h 0 % 4096 + 64 * lineCount h)

/-- A READ burst that reaches `EV_POP` and leaves it (R485). -/
def leavesPop (h : ReqHdr) : Bool :=
  let is := (List.range (lineCount h)).map (fun i => match decodeAddr (lineAddr h i) with
    | .regs off => decide (regLine off = .pop) | _ => false)
  is.any id && !is.all id

/-- A read of 4 bytes: of the host, the one its request asks for. -/
def shortRead (h : ReqHdr) (s : State) : Bool :=
  h.len.val == 0 && match h.src with
  | .host => s.io.pcie.jobs.all (fun j => j.count == 4 || !j.parts.any (fun p => p.1 == h.tag.val && !p.2.1))
  | _ => true

/-- A 4-byte read of `TICK_NUMBER`'s high word returns what the last read of the low word latched, once (Table 6.2). -/
def highWordRead (h : ReqHdr) (s : State) : Option (BitVec 32) :=
  if h.addr.toNat = 0x300000000C ∧ shortRead h s = true then s.tick.latched else none

/-- The lines of a READ, the latched high word in its place. -/
def readBurst (mid : Nat) (h : ReqHdr) (s : State) : State × List RLine :=
  let (t, ls) := readLines mid h (lineCount h) 0 s
  match highWordRead h s with
  | some v => (t, ls.map (fun l => { l with data := putField l.data 12 4 v.toNat }))
  | none => (t, ls)

/-- The read of the high word has used what was latched. -/
def spendLatch (h : ReqHdr) (s : State) : State :=
  onlyIf (decide (rightTo s h.src false h.addr.toNat = .granted) && (highWordRead h s).isSome)
    (modTick (fun t => { t with latched := none })) s

/-- A 4-byte read of `TICK_NUMBER`'s low word latches the high word (Table 6.2). -/
def latchTick (s : State) : State := modTick (fun t => { t with latched := some (t.number.extractLsb' 32 32) }) s

/-- A request issued before this one waits at the queue: any one, or one of the same port. -/
def popAhead (s : State) (q : Nat) (o : Outst) (own : Bool) : Bool :=
  s.runner.outst.any (fun x => decide (x.heldPop = some q) && decide (x.id < o.id) && (!own || decide (x.hdr.src = o.hdr.src)))

/-- The active plane's settings, while the region's ports run (R91). -/
def runningCfg (s : State) (m : Nat) : Option BramCfg :=
  let reg := s.region (m / 256)
  if fabricClocked s (m / 256) && !reg.quiescing && !reg.dragReset then reg.now.use.bram (m % 256)
  else none

/-- A maintenance access to a block memory waits: the fabric presents operations on port B, or window accesses wait (R202,
R203). -/
def portTaken (s : State) (m : Nat) : Bool :=
  ((runningCfg s m).isSome && (s.bram m).presents) || !(s.bram m).maint.isEmpty

/-- The operations of a window access (R202): of a READ line 8, of a WRITE line one for each word with an enable set. -/
def windowOps (off n : Nat) (lines : List WLine) : List (Nat × Nat × Option (BitVec 64 × BitVec 8)) :=
  let w := off % 4096 / 64 * 8
  if lines.isEmpty then (List.range (8 * n)).map (fun i => (i / 8, w + i, none))
  else (lines.zipIdx.flatMap (fun l => (List.range 8).map (fun i =>
    (l.2, w + 8 * l.2 + i, some (lineWord l.1.1 i, lineBe l.1.2 i))))).filter (fun x => match x.2.2 with
      | some (_, be) => be != 0#8
      | none => false)

/-- A window access to a block memory: performed at once, or waiting for port B. -/
def windowAccess (off : Nat) (o : Outst) (s : State) : Option (State × Outst) :=
  let m := off / 4096
  let ops := windowOps off (lineCount o.hdr) (if o.op = .read then [] else o.wlines)
  if portTaken s m && !o.op.atomic && !ops.isEmpty then
    some (modBram m (fun b => { b with maint := b.maint ++ [{ req := o.id, mid := masterOf o.hdr.src, ops := ops }] }) s, o)
  else none

/-- A request enters an Ingot bank (R209). -/
def enterBank (bank off : Nat) (o : Outst) (s : State) : State × Outst :=
  let j : IngotJob := { req := o.id, mid := masterOf o.hdr.src, op := o.op, lines := o.wlines,
                        off := if o.op.atomic then off else off / 64 * 64,
                        left := if o.op.atomic then 1 else lineCount o.hdr }
  (modIngot (fun g => { g with waiting := tmod [] g.waiting bank (· ++ [j]) }) s, { o with atBank := some bank })

/-- What the target does with a request that has passed the checks before it (R545 step 5, R39). -/
def performAt (o : Outst) (s : State) : State × Outst :=
  let h := o.hdr
  let mid := masterOf h.src
  match decodeAddr h.addr.toNat with
  | .riser q off =>
    match riserBurst q (off / 64 * 64) mid o.op (lineCount h) o.wlines (popAhead s q o false) (popAhead s q o true) s with
    | (s, some ls) => (s, { o with resp := some ls, heldPop := none })
    | (s, none) => (s, { o with heldPop := some q })
  | t =>
    let page := h.addr.toNat / 4096
    let repairing := match t, s.hbm.repair with
      | .hbm _, some (p, _) => p == page || !s.dev.hbmReady
      | .hbm _, none => !s.dev.hbmReady
      | _, _ => false
    if repairing then (s, { o with heldPage := some page })
    else
      let o := { o with heldPage := none, heldFor := none }
      let window := match t with | .bram off => windowAccess off o s | _ => none
      match window, ingotPlace s t with
      | some held, _ => held
      | none, some (b, off) => enterBank b off o s
      | none, none => match o.op with
      | .read =>
        if leavesPop h then (s, answerAll rcDecode o)
        else let (s, ls) := readBurst mid h s; (s, { o with resp := some ls })
      | .write => let (s, c) := writeLines mid h o.wlines 0 s rcOk; (s, answerAll c o)
      | _ => (s, answerAll rcDecode o)

/-- The region's answer, then the target (R18, R19, R43, R191). -/
def passGate (o : Outst) (s : State) : State × Outst :=
  match dragRegion s (decodeAddr o.hdr.addr.toNat) with
  | none => performAt o s
  | some (r, ingot) =>
    let x := s.region r
    let (g, wakes) := x.gate ingot (entryStopped r s)
    let s := onlyIf wakes (wakeRegion r) s
    let waking := match (s.region r).trans with | some (.exiting _) => true | _ => false
    match g with
    | .serve => performAt o s
    | .hold => (onlyIf (waking && o.heldFor.isNone) (bumpStop r 7 1) s, { o with heldFor := some r })
    | .asleep => (s, answerAll rcAsleep o)
    | .reset => (s, answerAll rcPathReset o)

/-- The checks of R545 in their order, then the target. -/
def checkAndPerform (o : Outst) (s : State) : State × Outst :=
  let h := o.hdr
  if crosses h then (s, answerAll rcDecode o)
  else if decodeAddr h.addr.toNat = .nothing then (s, answerAll rcDecode o)
  else match rightTo s h.src (decide (o.op ≠ .read)) h.addr.toNat with
    | .refused => (s, answerAll rcAccess o)
    | .byRange ri => (rangeRefusal ri h.addr.toNat (masterOf h.src) s, answerAll rcAccess o)
    | .granted =>
      if o.op.atomic && !atomicOk o.op h then (s, answerAll rcDecode o) else passGate o s

/-- The class a request is carried in (Table 2.3, R48): 3 only for Cupola and the plane-fill port. -/
def classOf (h : ReqHdr) : Nat :=
  match h.src with
  | .cupola | .fillPort _ => 3
  | _ => min h.qos.val 2

/-- A request numbered in the order of issue. -/
def newOutst (h : ReqHdr) (op : RunOp) (lines : List WLine) (s : State) : Outst :=
  { hdr := h, op := op, wlines := lines, id := s.runner.issued + 1, cls := classOf h }

/-- Records an outstanding request. -/
def pushOutst (o : Outst) (s : State) : State :=
  modRunner (fun r => { r with outst := r.outst ++ [o], issued := r.issued + 1 }) s

/-- What becomes of an outstanding request; what it asks for stays. -/
def setOutst (o : Outst) (s : State) : State :=
  mapOutst (fun x => if x.id = o.id then { o with hdr := x.hdr, op := x.op, gone := x.gone } else x) s

/-- A request that has entered a bank is outstanding. Whether the bank has served all that waits there before anything else comes
is open: requests of several masters that arrive together wait together (R209). -/
def settleBank (o : Outst) (s : State) : State :=
  match o.atBank with
  | some b => useFree (onlyIf (Config.freeBool s.env.freeCtr) (runBank b) s)
  | none => s

/-- Tries a held request again; its packet is at another point of its way (R48). -/
def retry (o : Outst) (s : State) : State :=
  let (s, o) := passGate { o with cls := classOf o.hdr } s
  settleBank o (setOutst o s)

/-- Requests held for a region are tried again (R21, R43). -/
def retryHeld (r : Nat) (s : State) : State :=
  forEach (s.runner.outst.filter (fun o => decide (o.heldFor = some r) && o.resp.isNone)) retry s

/-- Requests held at a queue are tried again, oldest first; a pop stays held behind an older one (R46, R365, R372). -/
def retryPops (q : Nat) (s : State) : State :=
  forEach (s.runner.outst.filter (fun o => decide (o.heldPop = some q) && o.resp.isNone)) (fun o s =>
    let (s, o) := performAt { o with heldPop := none } (setOutst { o with heldPop := none } s)
    setOutst o s) s

/-- The pointers are compared before an operation of the Sprue engine; a reset answers held pops (R373). -/
def checkQueue (q : Nat) (s : State) : State :=
  match ptrFault (s.queue q) with
  | none => s
  | some _ => retryPops q (checkPointers q s)

/-- A push of the Sprue engine. -/
def enginePush (q : Nat) (data : Line) (eop : Bool) (s : State) : State := (pushOne q data eop (checkQueue q s)).1

/-- Requests held for a page under repair are tried again (R413). -/
def retryPage (s : State) : State :=
  forEach (s.runner.outst.filter (fun o => o.heldPage.isSome && o.resp.isNone)) retry s

/-- A request is issued: performed, refused or held, and outstanding until its response lines have been transferred. -/
def issueRequest (h : ReqHdr) (op : RunOp) (lines : List WLine) (s : State) : State :=
  let (s, o) := checkAndPerform (newOutst h op lines s) s
  let s := settleBank o (pushOutst o s)
  match decodeAddr h.addr.toNat with
  | .riser q _ => retryPops q s
  | _ => s

/-- Counts an outcome other than `OK` at the stop where the request entered (Table 2.9). -/
def countOutcome (h : ReqHdr) (code n : Nat) (s : State) : State :=
  match stopOf s h with
  | some r => if code = rcOk then s else bumpStop r (code - 1) n s
  | none => s

/-- The lines that an engine's DMA sends (R239): local addresses wrap; a line that reads uncorrectable goes with no byte
enabled. -/
def dmaLines (e mid : Nat) (d : Dma) : Nat → Nat → State → State × List WLine
  | 0, _, s => (s, [])
  | n + 1, i, s =>
    let (s, c, data) := dspLineRead e false ((d.local_.toNat / 8 + 8 * i) % 4096) mid s
    let (s, ls) := dmaLines e mid d n (i + 1) s
    (s, (data, if c = rcOk then BitVec.allOnes 64 else 0) :: ls)

/-- A request that still waits at a bank is served there, with all that waits before it. -/
def serveFirst (src : Source) (tag : Fin 64) (s : State) : State :=
  match s.outst src tag with
  | some o => match o.resp, o.atBank with
    | none, some b => runBank b s
    | _, _ => s
  | none => s

/-- The write data of a request: an engine's come from its data memory. -/
def withLines (h : ReqHdr) (op : RunOp) (lines : List WLine) (s : State) : State × List WLine :=
  match h.src, op with
  | .dsp e, .write =>
    match (s.engine e.val).dmaActive with
    | some d => dmaLines e.val (e.val / 32) d (lineCount h) 0 s
    | none => (s, lines)
  | _, _ => (s, lines)

end Sys2Proof.Machine
end

