-- ==== Sys2Proof/Machine/LaneOps.lean ====
section
/-! DEFINITION. Serial lanes as every family meets them: rates, codings and taps (R253 to R256, R272, R273), transmit PLLs
(R254), entry into STARTING, lane reset (R271), the item being filled (R267) and the idle units (R268). -/

namespace Sys2Proof.Machine

/-! ### Classes, rates, codings -/

/-- A lane event: class 0x08 except where the table says otherwise. -/
def laneEvent (cls sev code l : Nat) (details : List (Nat × Nat)) : EvRec :=
  { cls := cls, sev := sev, code := code, kind := 2, src := l, details := (1, l) :: details }

def isPClass (l : Nat) : Bool := decide (l < 64)
def laneGroup (l : Nat) : Nat := l / 8

/-- The PCIe lanes: `L00` to `L07` while `HOST_SEL` is 1 (R265, R291). -/
def isPcieLane (s : State) (l : Nat) : Bool := s.dev.straps.hostSel && decide (64 ≤ l) && decide (l < 72)

/-- Codings and classes (L, P) of a rate code (Table 10.2). -/
def rateInfo (code : Nat) : Option (List Nat × Bool × Bool) :=
  match code with
  | 0x01 | 0x02 | 0x03 | 0x04 | 0x05 | 0x07 => some ([0, 1], true, false)
  | 0x06 | 0x08 | 0x09 => some ([0, 2], true, true)
  | 0x0A => some ([0, 2], true, false)
  | 0x0B | 0x0C => some ([0, 3], true, true)
  | 0x0D | 0x0E => some ([0, 3], false, true)
  | 0x0F => some ([0, 3, 4], false, true)
  | _ => none

/-- Is the combination of rate, coding and class permitted (R256)? -/
def rateOk (code coding : Nat) (pClass : Bool) : Bool :=
  match rateInfo code with
  | some (cs, onL, onP) => cs.contains coding && (if pClass then onP else onL)
  | none => false

/-- PAM4 rates; rates at which training is available. -/
def isPam4 (code : Nat) : Bool := decide (0x0B ≤ code) && decide (code ≤ 0x0F)
def isTrainable (code : Nat) : Bool := decide (0x06 ≤ code) && decide (code ≤ 0x0F)

/-- Manual alignment (R281). -/
def LaneCfg.isManual (c : LaneCfg) : Bool := decide (c.coding = 0) || (decide (c.coding ≤ 2) && c.manual)

/-! ### Transmit taps (R272) -/

/-- Least and greatest step of each tap (Table 10.6). -/
def tapRange (i : Nat) : Int × Int :=
  match i with
  | 0 => (0, 6)
  | 1 => (0, 12)
  | 2 => (-34, 0)
  | 3 => (50, 100)
  | _ => (-20, 0)

/-- The limits of R272. -/
def tapsOk (t : List Int) : Bool :=
  (List.range 5).all (fun i => decide ((tapRange i).1 ≤ lget 0 t i) && decide (lget 0 t i ≤ (tapRange i).2))
    && decide (((List.range 5).foldl (fun n i => n + (lget 0 t i).natAbs) 0) ≤ 100)

/-- Presets (Table 10.7). -/
def presetTaps (n : Nat) : List Int :=
  match n with
  | 1 => [0, 0, 0, 100, 0]
  | 2 => [0, 0, -10, 90, 0]
  | 3 => [0, 0, -15, 75, -10]
  | 4 => [0, 5, -20, 70, -5]
  | _ => [2, 6, -22, 65, -5]

/-- The configured taps, and those a start takes: the planned preset where there is one (R276, R279). -/
def LaneCfg.taps (c : LaneCfg) : List Int := if c.preset = 0 then c.custom else presetTaps c.preset
def Lane.startTaps (x : Lane) : List Int := if x.planned = 0 then x.cfg.taps else presetTaps x.planned

/-- A signed step as a byte. -/
def tapByte (v : Int) : Nat := (v % 256).toNat
def tapsField (t : List Int) : Nat := (List.range 5).foldl (fun n i => n + tapByte (lget 0 t i) * 256 ^ i) 0

/-- Does a protected range overlap `n` bytes from a local address on? -/
def overlapsRange (s : State) (a n : Nat) : Bool :=
  s.hbm.ranges.any (fun r => r.2.defined && decide (r.2.base < a + n) && decide (a < r.2.base + r.2.span))

/-! ### PLLs (R254) -/

/-- Lanes of the group other than `l` that use a PLL. -/
def pllUsers (s : State) (l : Nat) : List Lane :=
  ((List.range 8).map (fun i => 8 * laneGroup l + i)).filterMap (fun k =>
    if k ≠ l ∧ (s.lane k).cfg.mode ≠ .off then some (s.lane k) else none)

/-- The PLL that a rate and reference clock take: one shared, or one that no other lane uses; none when a third pair
would be needed. Between two unused ones the choice is open. -/
def pickPll (s : State) (l rate ref : Nat) : Option Nat :=
  let us := pllUsers s l
  let sharing := us.find? (fun x => decide (x.cfg.rate = rate) && decide (x.cfg.refclk = ref))
  match sharing with
  | some x => some x.pll
  | none =>
    let used := us.map (fun x => x.pll)
    let mine := s.lane l
    if mine.cfg.mode ≠ .off ∧ mine.cfg.rate = rate ∧ mine.cfg.refclk = ref ∧ used.contains mine.pll = false then
      some mine.pll
    else match used.contains 0, used.contains 1 with
      | true, true => none
      | true, false => some 1
      | false, true => some 0
      | false, false => some (freshNat s % 2)

/-- Is the PLL already locked for another lane of the group? -/
def pllRuns (s : State) (l pll rate ref : Nat) : Bool :=
  (pllUsers s l).any (fun x => decide (x.pll = pll) && decide (x.cfg.rate = rate) && decide (x.cfg.refclk = ref)
    && x.pllLocked)

/-! ### States (Table 10.5) -/

def LaneSt.code : LaneSt → Nat
  | .off => 0 | .starting => 1 | .training => 2 | .locking => 3 | .up => 4 | .test => 5
def LaneMode.code : LaneMode → Nat
  | .off => 0 | .queue => 1 | .sprue => 2 | .pcie => 3

/-- Entry into STARTING: a static lane takes its taps (R273, R279). -/
def startLane (l : Nat) (s : State) : State :=
  modLane l (fun x => { x with
    st := .starting, cdrLocked := false, rxReady := false, partnerReady := 0, framesLeft := none, request := 0,
    status := 0, taps := if x.cfg.training = 0 then x.startTaps else x.taps
    trainResult := if x.cfg.training = 0 then 3 else 0 }) s

/-- The user scan in progress ends with `INCOMPLETE` (R284). -/
def endScan (l : Nat) (s : State) : State :=
  match (s.lane l).scan with
  | none => s
  | some j => replyOpt j.waiter stIncomplete [] (modLane l (fun x => { x with scan := none }) s)

/-- The event Lane entered or left TEST. -/
def testEvent (l : Nat) (s : State) : State :=
  let x := s.lane l
  raise (laneEvent 8 1 0x0A08 l [(1, x.gen), (1, x.chk), (1, x.loopback)]) s

/-- A lane reset (R271). -/
def resetLane (l : Nat) (s : State) : State :=
  let was := (s.lane l).st
  let s := endScan l s
  let s := modLane l (fun x => { x with
    gen := 0, chk := 0, genInv := false, chkInv := false, chkLocked := false, loopback := 0, injectLeft := 0,
    units := [], unitBad := false, gap := true, tx := {}, rx := {}, flit := {}, flitRun := 0, loopLine := [], lineFlips := 0
    dataFlips := 0
    chkRun := 0, chkHist := [], slips := 0 }) s
  let s := onlyIf (decide (was = .test)) (testEvent l) s
  if (s.lane l).cfg.mode = .off then s else startLane l s

/-- A lane goes OFF, its configuration with it. -/
def laneOff (l : Nat) (s : State) : State :=
  let s := resetLane l s
  modLane l (fun x => { x with st := .off, cfg := {}, pllLocked := false, cdrLocked := false, taps := [0, 0, 0, 100, 0], trainResult := 0 }) s

/-- A lane counter (Table 10.14). -/
def bumpLane (l i n : Nat) (s : State) : State := modLane l (fun x => { x with counters := bump x.counters i n }) s

/-! ### Receive items (R266, R267) -/

/-- The Sprue engine holds producer credit in a queue, and no packet of it is open there. -/
def sprueCredit (s : State) (q n : Nat) : Bool :=
  let x := s.queue q
  x.enabled && x.producer == 69 && decide (x.prod = .closed) &&
    decide (n ≤ (x.limit - x.pushed).toNat) && decide ((x.limit - x.pushed).toNat ≤ 2147483648)

/-- The item that a lane's units make (Table 10.4). -/
def laneItem (x : Lane) : Line :=
  let us := x.units.zipIdx
  let n := us.foldl (fun (n : Nat) u => n + u.1.1.toNat * 256 ^ (8 * u.2) + u.1.2.toNat * 256 ^ (56 + u.2)) 0
  BitVec.ofNat 512 (n + (x.units.length - 1 + 8 * bit x.gap + 16 * bit x.unitBad) * 256 ^ 63)

/-- Units discarded for want of credit. -/
def discardUnits (l n : Nat) (s : State) : State :=
  let s := bumpLane l 5 n (modLane l (fun x => { x with gap := true }) s)
  raiseLimited (laneEvent 8 2 0x0A06 l [(2, (s.lane l).cfg.rxQueue), (4, n)]) [] s

/-- Commits the item being filled as a one-item packet, or discards its units when no credit allows. -/
def commitItem (l : Nat) (s : State) : State :=
  let x := s.lane l
  if x.units.isEmpty then s
  else
    let s := modLane l (fun y => { y with units := [], unitBad := false }) s
    if sprueCredit s x.cfg.rxQueue 1 then
      let s := enginePush x.cfg.rxQueue (laneItem x) true s
      retryPops x.cfg.rxQueue (modLane l (fun y => { y with gap := false }) s)
    else discardUnits l x.units.length s

/-- The idle unit of a coding (R268), with its control. -/
def idleUnit (c : LaneCfg) : BitVec 64 × BitVec 8 :=
  match c.coding with
  | 0 => (c.idleWord, 0)
  | 1 => (0x50BC50BC50BC50BC#64, 0x55#8)
  | _ => (0x1E#64, 2#8)

/-- Bit `i` of a list inverted. -/
def flipAt (i : Nat) (l : List Bool) : List Bool := l.set i (!(l.getD i false))

/-- Coded bits leave the transmitter: injected errors in them, as levels, to the line or into the loop (R260, R287, R289). -/
def Lane.sendBits (x : Lane) (bits : List Bool) : Lane :=
  let n := min x.lineFlips bits.length
  let bits := (List.range n).foldl (fun l i => flipAt i l) bits
  let (v, last) := toLevels (isPam4 x.cfg.rate) x.cfg.precode x.cfg.txInvert bits x.tx.last
  { x with lineFlips := x.lineFlips - n, sent := v, tx := { x.tx with last := last }
           loopLine := if x.loopback = 1 ∨ x.loopback = 2 then x.loopLine ++ v else [] }

/-- Units leave by the coder, with injected errors in their data: the first unit has them, in bits from a free place on. -/
def Lane.sendUnits (l free : Nat) (x : Lane) (us : List LaneUnit) : Lane :=
  let us := match us with
    | u :: rest => (u.1 ^^^ (List.range x.dataFlips).foldl (fun v i => v ^^^ BitVec.ofNat 64 (2 ^ ((free + i) % 64))) 0, u.2) :: rest
    | [] => []
  let (bits, t) := sendAll l x.cfg.coding us x.tx
  ({ x with tx := t, dataFlips := if us.isEmpty then x.dataFlips else 0 } : Lane).sendBits bits

/-! ### Flits on a lane (R296, R297) -/

/-- Characters, K-symbols marked, leave by the 8B10B coder. -/
def Lane.sendChars (x : Lane) (cs : List (Bool × Nat)) : Lane :=
  let (bits, rd) := cs.foldl (fun acc c => let (g, rd) := encodeChar c.1 c.2 acc.2; (acc.1 ++ g, rd)) (([] : List Bool), x.tx.rd)
  ({ x with tx := { x.tx with rd := rd } } : Lane).sendBits bits

/-- The idle unit of a Sprue transmitter: K28.5 D16.2, or the idle block. -/
def Lane.sendIdle (l : Nat) (x : Lane) : Lane :=
  let x := { x with flitRun := 0 }
  if x.cfg.coding = 1 then x.sendChars [(true, 0xBC), (false, 0x50)] else x.sendUnits l 0 [idleUnit x.cfg]

/-- A flit leaves, framed by the lane's coding: between K27.7 and K29.7, or as 8 data blocks; an idle unit goes ahead of it after 16 or
32 flits in a row. Injected errors hit its data, in bits from a free place on. -/
def Lane.sendFlit (l free : Nat) (x : Lane) (f : BitVec 512) : Lane :=
  let x := if x.flitRun = (if x.cfg.coding = 1 then 16 else 32) then x.sendIdle l else x
  let f := (List.range x.dataFlips).foldl (fun f i => f ^^^ BitVec.ofNat 512 (2 ^ ((free + i) % 512))) f
  let x := { x with dataFlips := 0, flitRun := x.flitRun + 1 }
  if x.cfg.coding = 1 then
    x.sendChars ((true, 0xFB) :: (List.range 64).map (fun i => (false, (byteOf f i).toNat)) ++ [(true, 0xFD)])
  else x.sendUnits l free ((List.range 8).map (fun k => (f.extractLsb' (64 * k) 64, 1)))

/-- What a Sprue receiver finds: a flit, or a framing error. -/
inductive Framed where
  | flit (f : BitVec 512)
  | error
deriving DecidableEq, Repr

/-- One character of 8B10B (R296). -/
def FlitRx.takeChar (k : Bool) (v : Nat) (x : FlitRx) : FlitRx × List Framed :=
  match x.bytes with
  | none => (if k && v == 0xFB then { x with bytes := some [] } else x, [])
  | some bs =>
    if !k then ({ x with bytes := some (if bs.length < 65 then bs ++ [v] else bs) }, [])
    else if v == 0xFD then
      ({ x with bytes := none },
        if bs.length = 64 then [.flit (BitVec.ofNat 512 (bs.zipIdx.foldl (fun n b => n + b.1 * 256 ^ b.2) 0))] else [.error])
    else ({ x with bytes := if v == 0xFB then some [] else none }, [.error])

/-- One block (R297). -/
def FlitRx.takeBlock (h : BitVec 8) (v : BitVec 64) (x : FlitRx) : FlitRx × List Framed :=
  if h = 2 then ({ blocks := [], run := 0, dead := false }, if x.run % 8 ≠ 0 then [.error] else [])
  else if h = 1 then
    let run := x.run + 1
    if x.dead then ({ x with run := if x.run = 0 then 0 else run }, [])
    else if x.blocks.length = 7 then
      ({ x with run := run, blocks := [] },
        [.flit (BitVec.ofNat 512 ((x.blocks ++ [v]).zipIdx.foldl (fun n b => n + b.1.toNat * 2 ^ (64 * b.2)) 0))])
    else ({ x with run := run, blocks := x.blocks ++ [v] }, [])
  else ({ x with blocks := [], run := x.run + 1, dead := true }, [])

/-- The units of a lane in turn. -/
def FlitRx.take (coding : Nat) (us : List LaneUnit) (x : FlitRx) : FlitRx × List Framed :=
  us.foldl (fun acc u =>
    let step := fun (acc : FlitRx × List Framed) (r : FlitRx × List Framed) => (r.1, acc.2 ++ r.2)
    if coding = 1 then
      (List.range 8).foldl (fun acc i => step acc (acc.1.takeChar (u.2.getLsbD i) (byteOf u.1 i).toNat)) acc
    else step acc (acc.1.takeBlock u.2 u.1)) (x, [])

/-- Bits of the generator's pattern leave, below all coding (R285); an injected error of either point hits them. -/
def Lane.sendPattern (n : Nat) (x : Lane) : Lane :=
  let (bits, r) := prbsBits x.gen n x.genReg
  ({ x with genReg := r, lineFlips := x.lineFlips + x.dataFlips, dataFlips := 0 } : Lane).sendBits (bits.map (· != x.genInv))

/-- One bit at the checker (R285): it locks its own copy to what it receives, then compares. -/
def Lane.checkBit (x : Lane) (b : Bool) : Lane :=
  let b := b != x.chkInv
  let want := prbsNext x.chk x.chkReg
  if x.chkLocked then
    { x with chkReg := shiftIn x.chkReg want, chkBits := satAdd 18446744073709551615 x.chkBits 1
             chkErrs := satAdd 18446744073709551615 x.chkErrs (bit (b != want)), chkHist := ((b != want) :: x.chkHist).take 1024 }
  else
    { x with chkReg := shiftIn x.chkReg b, chkRun := if b = want ∧ x.chkReg ≠ 0 then x.chkRun + 1 else 0, chkHist := [] }

/-! ### Configuration (R254, R292) -/

/-- Two configurations that differ in the queue binding or the flush time at most. -/
def queueOnly (a b : LaneCfg) : Bool :=
  decide ({ a with rxQueue := b.rxQueue, txQueue := b.txQueue, flush := b.flush } = b)

/-- Takes a configuration: none when no PLL is free. -/
def applyCfg (l : Nat) (c : LaneCfg) (s : State) : Option State :=
  let x := s.lane l
  if c.mode = .off then some (laneOff l s)
  else if queueOnly x.cfg c then
    let s := onlyIf (decide (x.cfg ≠ c)) (endScan l) (onlyIf (decide (x.cfg.rxQueue ≠ c.rxQueue)) (commitItem l) s)
    some (modLane l (fun x => { x with cfg := c }) s)
  else
    match pickPll s l c.rate c.refclk with
    | none => none
    | some p =>
      let keep := pllRuns s l p c.rate c.refclk
        || (x.pllLocked && decide (x.pll = p) && decide (x.cfg.rate = c.rate) && decide (x.cfg.refclk = c.refclk)
          && decide (x.cfg.mode ≠ .off))
      let s := useFree (endScan l s)
      some (startLane l (modLane l (fun x => { x with cfg := c, pll := p, pllLocked := keep }) s))

/-- A lane leaves STARTING with its clock recovery locked, or TRAINING: LOCKING, or UP at once in PMA coding (R264). -/
def lockLane (l : Nat) (s : State) : State :=
  modLane l (fun x => { x with st := if x.cfg.coding = 0 then .up else .locking }) s

/-- The event Lane UP. -/
def laneUpEvent (l : Nat) (s : State) : State :=
  let x := s.lane l
  raise (laneEvent 8 0 0x0A01 l [(1, x.cfg.rate), (1, x.cfg.coding), (1, x.trainResult)]) s

/-- Entry into TRAINING (R276). -/
def enterTraining (l : Nat) (s : State) : State :=
  modLane l (fun x => { x with
    st := .training, taps := x.startTaps, rxReady := false, partnerReady := 0, framesLeft := none, request := 0,
    status := 0, trainResult := 0, trainReg := Config.trainSeed l }) s

end Sys2Proof.Machine
end

