-- ==== Sys2Proof/Machine/PartnerOps.lean ====
section
/-! DEFINITION. Sprue nodes: exported windows and rights (R330, R331), the partner table (R339 to R346), routes (R347,
R348) and the completion of a node's own transactions (R335, R336). -/

namespace Sys2Proof.Machine

/-- The unassigned node ID (R329). -/
def noNode : Nat := 0x3FFFF

/-- A partner event, class 0x09. -/
def sysEvent (sev code : Nat) (details : List (Nat × Nat)) : EvRec :=
  { cls := 9, sev := sev, code := code, kind := 0, details := details }

/-- Adds to a counter of `SysSt.counters`. -/
def bumpSys (i n : Nat) (s : State) : State := modSys (fun y => { y with counters := bump y.counters i n }) s

/-! ### Rights (R331) -/

/-- Rights of a node in a window. -/
def Window.rightsOf (w : Window) (node : Nat) : BitVec 3 :=
  w.ranges.foldl (fun a r => if r.1 ≤ node ∧ node ≤ r.2.1 then a ||| r.2.2 else a) 0

/-- A defined window: one of at least one page. -/
def State.window (s : State) (w : Nat) : Option Window :=
  let x := tget {} s.sys.windows w
  if x.pages = 0 then none else some x

/-- The rights of a node in every window, as an entry holds them (Table 12.5). -/
def rightsField (s : State) (node : Nat) : Nat :=
  (List.range 16).foldl (fun n w => n + (match s.window w with
    | some x => (x.rightsOf node).toNat
    | none => 0) * 8 ^ w) 0

/-! ### Partner entries (Table 12.5) -/

/-- The fields of a partner entry. -/
structure Partner where
  state : Nat := 0
  node : Nat := 0
  rights : Nat := 0
  link : Nat := 63
  profile : Nat := 0
  tseq : Nat := 0
  outst : Nat := 0
  seen : Nat := 0
  byContact : Bool := false

def Partner.ofBits (e : BitVec 128) : Partner :=
  { state := (e.extractLsb' 126 2).toNat, node := (e.extractLsb' 108 18).toNat, rights := (e.extractLsb' 60 48).toNat
    link := (e.extractLsb' 54 6).toNat, profile := (e.extractLsb' 50 4).toNat, tseq := (e.extractLsb' 34 16).toNat
    outst := (e.extractLsb' 26 8).toNat, seen := (e.extractLsb' 14 12).toNat, byContact := e.getLsbD 13 }

def Partner.bits (p : Partner) : BitVec 128 :=
  BitVec.ofNat 128 (p.state % 4 * 2 ^ 126 + p.node % 2 ^ 18 * 2 ^ 108 + p.rights % 2 ^ 48 * 2 ^ 60 + p.link % 64 * 2 ^ 54
    + p.profile % 16 * 2 ^ 50 + p.tseq % 65536 * 2 ^ 34 + p.outst % 256 * 2 ^ 26 + p.seen % 4096 * 2 ^ 14
    + bit p.byContact * 2 ^ 13)

def State.partner (s : State) (k : Nat) : Partner := Partner.ofBits (tget 0 s.sys.partners k)

/-- Rewrites a slot; the line's check bits follow. -/
def setPartner (k : Nat) (p : Partner) (s : State) : State :=
  modSys (fun y => { y with partners := tset 0 y.partners k p.bits, partnerSyn := tset 0 y.partnerSyn (k / 2) 0 }) s

def modPartner (k : Nat) (f : Partner → Partner) (s : State) : State := setPartner k (f (s.partner k)) s

/-- Replaces the table: a line written anew takes check bits that fit. -/
def putPartners (t : Table (BitVec 128)) (s : State) : State :=
  modSys (fun y => { y with
    partners := t
    partnerSyn := y.partnerSyn.filter (fun e => [2 * e.1, 2 * e.1 + 1].all (fun k => tget 0 t k == tget 0 y.partners k)) }) s

/-- Empties a slot. -/
def dropPartner (k : Nat) (s : State) : State := putPartners (tset 0 s.sys.partners k 0) s

/-- Buckets of a node (R339). -/
def nodeBuckets (n : Nat) : Nat × Nat :=
  let c := (crc32c (leBytes 3 n)).toNat
  let h0 := c % 16384
  let h1 := c / 16384 % 16384
  (h0, if h1 = h0 then h0 ^^^ 1 else h1)

/-- The profile of a number; the one that a link's rate maps to, free where no link is chosen. -/
def State.profile (s : State) (n : Nat) : GenProfile := tget {} s.sys.profiles n
def profileFor (s : State) (link : Option Nat) : Nat :=
  match link with
  | some l => lget 0 s.sys.rateMap ((s.link l).prof.rate - 1)
  | none => freshNat s % 16

/-- Is a node the recorded partner of an UP link? -/
def upPartner (s : State) (n : Nat) : Bool := s.links.any (fun l => decide (l.2.st = .up) && decide (l.2.partner = n))

/-! ### Completion of own transactions (R335, R336) -/

/-- The slot of a node. -/
def slotOf (s : State) (n : Nat) : Option Nat :=
  let (h0, h1) := nodeBuckets n
  ([0, 1, 2, 3].map (fun i => 4 * h0 + i) ++ [0, 1, 2, 3].map (fun i => 4 * h1 + i)).find? (fun k =>
    decide ((s.partner k).state ≠ 0) && decide ((s.partner k).node = n))

/-- Marks activity of a partner (R343). -/
def touchPartner (n : Nat) (s : State) : State :=
  match slotOf s n with
  | some k => modPartner k (fun p => { p with seen := s.sys.ageCtr }) s
  | none => s

/-- Records the link chosen toward a partner, and its activity (R343, R347). -/
def usePartner (n l : Nat) (s : State) : State :=
  match slotOf s n with
  | some k => modPartner k (fun p => { p with seen := s.sys.ageCtr, link := l }) s
  | none => s

def isTxn (node sequence : Nat) (t : Txn) : Bool := decide (t.node = node) && decide (t.sequence = sequence)

/-- The outstanding request of a transaction answered by a function of it. -/
def answerTxn (t : Txn) (f : Outst → Outst) (s : State) : State :=
  let s := mapOutst (fun o => if o.id = t.id ∧ o.resp = none then f o else o) s
  let s := modSys (fun y => { y with txns := y.txns.filter (fun u => !isTxn t.node t.sequence u) }) s
  match slotOf s t.node with
  | some k => modPartner k (fun p => { p with outst := p.outst - 1 }) s
  | none => s

/-- The event Transactions completed with `TIMEOUT` or `PATH_RESET`. -/
def txnEvent (node code : Nat) (s : State) : State :=
  raiseLimited (sysEvent 1 0x0C05 [(4, node), (1, code), (4, 1)]) [2] s

/-- A transaction completed with one code on every line. -/
def failTxn (t : Txn) (code : Nat) (s : State) : State :=
  txnEvent t.node code (answerTxn t (answerAll code) s)

/-- Every transaction that satisfies `p` completes with `PATH_RESET`. -/
def resetTxns (p : Txn → Bool) (s : State) : State :=
  forEach (s.sys.txns.filter p) (fun t => failTxn t rcPathReset) s

/-! ### Look-up and insertion (R339, R341, R342) -/

/-- An uncorrectable line empties both its entries (R341). -/
def checkLine (i : Nat) (s : State) : State :=
  match decodeSyn 16 (tget 0 s.sys.partnerSyn i).toNat with
  | .uncorrectable =>
    let ks := [2 * i, 2 * i + 1]
    let nodes := ks.filterMap (fun k => if (s.partner k).state = 0 then none else some (s.partner k).node)
    let s := resetTxns (fun t => nodes.contains t.node) s
    let s := modSys (fun y => { y with
      partners := ks.foldl (fun t k => tset 0 t k 0) y.partners, partnerSyn := tset 0 y.partnerSyn i 0 }) s
    raise { cls := 4, sev := 3, code := 0x0C07, kind := 0, details := [(2, i / 2), (1, nodes.length)] } s
  | _ => s

/-- The lines of a node's buckets are read. -/
def checkBuckets (n : Nat) (s : State) : State :=
  let (h0, h1) := nodeBuckets n
  forEach [2 * h0, 2 * h0 + 1, 2 * h1, 2 * h1 + 1] checkLine s

/-- Every line of the table is read; a line that no error has marked decodes without one. -/
def checkLines (s : State) : State := forEach (s.sys.partnerSyn.map (·.1)) checkLine s

/-- A free slot of a bucket. -/
def freeSlot (t : Table (BitVec 128)) (h : Nat) : Option Nat :=
  ([0, 1, 2, 3].map (fun i => 4 * h + i)).find? (fun k => decide ((Partner.ofBits (tget 0 t k)).state = 0))

/-- The moves of R339: entry `e` takes slot `m` mod 4 of bucket `h`, whose resident goes to its other bucket. -/
def moveResidents : Nat → Nat → Nat → BitVec 128 → Table (BitVec 128) → Option (Table (BitVec 128))
  | 0, _, _, _, _ => none
  | fuel + 1, m, h, e, t =>
    let k := 4 * h + m % 4
    let old := tget 0 t k
    let t := tset 0 t k e
    let (a, b) := nodeBuckets (Partner.ofBits old).node
    let other := if a = h then b else a
    match freeSlot t other with
    | some j => some (tset 0 t j old)
    | none => moveResidents fuel (m + 1) other old t

/-- Inserts an entry; none when no slot frees. -/
def insertEntry (p : Partner) (t : Table (BitVec 128)) : Option (Table (BitVec 128)) :=
  let (h0, h1) := nodeBuckets p.node
  match freeSlot t h0 with
  | some k => some (tset 0 t k p.bits)
  | none => match freeSlot t h1 with
    | some k => some (tset 0 t k p.bits)
    | none => moveResidents 64 0 h0 p.bits t

/-- The event Partner refused, table full (R345): side 0 requester, 1 target, 2 link. The side has no code in the
manual: a free value. -/
def refusePartner (n : Nat) (s : State) : State :=
  let s := bumpSys 0 1 (modSys (fun y => { y with refused := if y.refused.contains n then y.refused else y.refused ++ [n] }) s)
  useFree (raiseLimited (sysEvent 2 0x0C02 [(4, n), (1, freshNat s), (4, 1)]) [2] s)

/-- Creates the entry of a node (R342): the state, and whether it could be inserted. -/
def createPartner (n : Nat) (link : Option Nat) (contact : Bool) (s : State) : State × Bool :=
  let p : Partner := { state := 1, node := n, rights := rightsField s n, link := link.getD 63
                       profile := profileFor s link, seen := s.sys.ageCtr, byContact := contact }
  match insertEntry p s.sys.partners with
  | some t => (useFree (putPartners t s), true)
  | none => (refusePartner n s, false)

/-- The entry of a node, found or created. -/
def needPartner (n : Nat) (link : Option Nat) (s : State) : State × Bool :=
  let s := checkBuckets n s
  match slotOf s n with
  | some _ => (s, true)
  | none => createPartner n link true s

/-! ### Ageing and eviction (R343 to R346) -/

/-- Age of an entry; idle entries. -/
def Partner.age (p : Partner) (ctr : Nat) : Nat := (ctr + 4096 - p.seen) % 4096
def idlePartner (s : State) (p : Partner) : Bool :=
  decide (p.state = 1) && decide (p.outst = 0) && !upPartner s p.node

/-- Does `a` go before `b` under the eviction policy (R346)? -/
def evictsBefore (s : State) (a b : Partner) : Bool :=
  let old := decide (b.age s.sys.ageCtr < a.age s.sys.ageCtr)
  if s.sys.policy = 2 then
    let ra := (s.profile a.profile).rank
    let rb := (s.profile b.profile).rank
    decide (ra < rb) || (decide (ra = rb) && old)
  else old

/-- The slot to evict among some; the lowest slot among equals. -/
def evictChoice (s : State) (ks : List Nat) : Option Nat :=
  if s.sys.policy = 0 then none
  else (ks.filter (fun k => idlePartner s (s.partner k) && decide (s.sys.minIdle ≤ (s.partner k).age s.sys.ageCtr))).foldl
    (fun best k => match best with
      | none => some k
      | some b => if evictsBefore s (s.partner k) (s.partner b) then some k else best) none

/-- Evicts one entry among some slots, with its event. -/
def evictOne (ks : List Nat) (s : State) : State × Bool :=
  match evictChoice s ks with
  | none => (s, false)
  | some k => (raiseLimited (sysEvent 1 0x0C03 [(1, s.sys.policy), (4, 1)]) [1] (bumpSys 1 1 (dropPartner k s)), true)

/-- Evicts across the table down to the high-water mark. -/
def evictDown : Nat → State → State
  | 0, s => s
  | n + 1, s =>
    if s.sys.partners.length * 100 ≤ s.sys.highWater * 65536 then s
    else match evictOne (s.sys.partners.map (·.1)) s with
      | (s, true) => evictDown n s
      | (s, false) => s

/-! ### Routes (R347, R348) -/

/-- Fields of a route entry (Table 12.7). -/
def routeValid (e : BitVec 64) : Bool := e.getLsbD 63
def routeBackup (e : BitVec 64) : Nat := (e.extractLsb' 50 6).toNat
def routePrimary (e : BitVec 64) : Nat := (e.extractLsb' 44 6).toNat
def routeLen (e : BitVec 64) : Nat := (e.extractLsb' 39 5).toNat
def routePrefix (e : BitVec 64) : Nat := (e.extractLsb' 0 18).toNat

/-- Does an entry match a node? -/
def routeMatches (e : BitVec 64) (d : Nat) : Bool :=
  routeValid e && decide (d % 2 ^ 18 / 2 ^ (18 - routeLen e) = routePrefix e / 2 ^ (18 - routeLen e))

/-- The entry with the longest length that matches, with its index. -/
def bestRoute (s : State) (d : Nat) : Option (Nat × BitVec 64) :=
  (s.sys.routes.filter (fun e => routeMatches e.2 d)).foldl (fun best e => match best with
    | none => some e
    | some b => if routeLen b.2 < routeLen e.2 then some e else best) none

/-- Where R347 sends traffic. -/
inductive Route where
  | self
  | link (l : Nat)
  | none
deriving DecidableEq, Repr

def linkUp (s : State) (l : Nat) : Bool := decide ((s.link l).st = .up)

/-- The choice of R347, and the index of the route entry used. -/
def routeTo (s : State) (source d : Nat) : Route × Option Nat :=
  if d = s.sys.node then (.self, .none)
  else
    let near := (s.links.filter (fun l => decide (l.2.st = .up) && decide (l.2.partner = d))).map (·.1)
    if near ≠ [] then (.link (lget 0 near ((source ^^^ d) % near.length)), .none)
    else match bestRoute s d with
      | .none => (.none, .none)
      | some (i, e) =>
        if linkUp s (routePrimary e) then (.link (routePrimary e), some i)
        else if routeBackup e < 48 ∧ linkUp s (routeBackup e) = true then (.link (routeBackup e), some i)
        else (.none, .none)

/-- The link of a route. -/
def Route.link? : Route → Option Nat
  | .link l => some l
  | _ => Option.none

end Sys2Proof.Machine
end

