-- ==== Sys2Proof/Machine/LinkOps.lean ====
section
/-! DEFINITION. The Sprue link layer and its transport: flits (R299 to R306), credits (R310, R311), messages and their
segments (R313 to R318), the receipt of segments, and links going up and down (R319 to R325). -/

namespace Sys2Proof.Machine

/-! ### Flits (Tables 11.3, 11.4) -/

def flitField (f : Line) (lo n : Nat) : Nat := (f.extractLsb' lo n).toNat
def flitType (f : Line) : Nat := flitField f 60 4
def flitSeq (f : Line) : Nat := flitField f 48 12
def flitAck (f : Line) : Nat := flitField f 36 12
def flitVc (f : Line) : Nat := flitField f 33 3
def flitFirst (f : Line) : Bool := f.getLsbD 32
def flitLast (f : Line) : Bool := f.getLsbD 31
def flitLen (f : Line) : Nat := flitField f 25 6
def flitCvc (f : Line) : Nat := flitField f 22 3
def flitCcum (f : Line) : Nat := flitField f 10 12
def flitAbt (f : Line) : Bool := f.getLsbD 9
def flitPayload (f : Line) : BitVec 416 := f.extractLsb' 64 416
def flitCrc (f : Line) : BitVec 32 := f.extractLsb' 480 32

/-- The CRC passes (R299). -/
def crcPasses (f : Line) : Bool := decide (crc32c (bytesOf f 60) = flitCrc f)

/-- A flit with a reserved value set (R300). -/
def isMalformedFlit (f : Line) : Bool :=
  let ty := flitType f
  decide (ty = 0 ∨ 7 < ty) || decide (flitField f 0 9 ≠ 0)
    || (if ty = 1 then decide (flitLen f = 0 ∨ 52 < flitLen f) else decide (flitLen f ≠ 0))
    || (flitAbt f && !flitLast f)

/-- A good flit of a type. -/
def goodFlit (ty : Nat) (f : Line) : Bool := crcPasses f && !isMalformedFlit f && decide (flitType f = ty)

/-- A flit from its header word and payload (R299). -/
def sealFlit (header : Nat) (payload : BitVec 416) : Line :=
  let body := header % 2 ^ 64 + payload.toNat * 2 ^ 64
  BitVec.ofNat 512 (body + (crc32c (leBytes 60 body)).toNat * 2 ^ 480)

/-- `n` is ahead of `m` modulo 4,096. -/
def aheadOf (n m : Nat) : Bool :=
  let d := (n + 4096 - m % 4096) % 4096
  decide (1 ≤ d) && decide (d ≤ 2047)

/-! ### Links -/

def LinkSt.code : LinkSt → Nat
  | .off => 0 | .starting => 1 | .hello => 2 | .up => 3 | .down => 4

/-- A link event. -/
def linkEvent (cls sev code l : Nat) (details : List (Nat × Nat)) : EvRec :=
  { cls := cls, sev := sev, code := code, kind := 3, src := l, details := (1, l) :: details }

def bumpLink (l i n : Nat) (s : State) : State := modLink l (fun x => { x with counters := bump x.counters i n }) s
def modRx (l v : Nat) (f : VcRx → VcRx) (s : State) : State := modLink l (fun x => { x with rx := lmod {} x.rx v f }) s
def modTx (l v : Nat) (f : VcTx → VcTx) (s : State) : State := modLink l (fun x => { x with tx := lmod {} x.tx v f }) s
def Link.rxOf (x : Link) (v : Nat) : VcRx := lget {} x.rx v
def Link.txOf (x : Link) (v : Nat) : VcTx := lget {} x.tx v

/-- Link lanes that are UP, as a mask. -/
def upMask (s : State) (l : Nat) : Nat :=
  (s.link l).prof.lanes.zipIdx.foldl (fun n k => if (s.lane k.1).st = .up then n + 2 ^ k.2 else n) 0

/-- The link that a lane belongs to, and the lane's place in it. -/
def linkOfLane (s : State) (lane : Nat) : Option (Nat × Nat) :=
  (s.links.filter (fun k => decide (k.2.st ≠ .off) && k.2.prof.lanes.contains lane)).head?.map
    (fun k => (k.1, k.2.prof.lanes.idxOf lane))

/-- Lanes of a mask in link-lane order; the lane whose turn it is after another (R307). -/
def maskLanes (m : Nat) : List Nat := (List.range 8).filter (fun k => m.testBit k)
def nextLane (m after : Nat) : Nat := ((maskLanes m).find? (fun k => decide (after < k))).getD ((maskLanes m).headD 0)

/-- Sends a flit on a link lane, framed by its coding (R296, R297): `ACK`, `CVC` and `CCUM` as they stand (R302, R311). -/
def emit (l lane ty sequence vc : Nat) (seg : Segment) (s : State) : State :=
  let x := s.link l
  let ack := (x.expect + 4095) % 4096
  let f := sealFlit (ty * 2 ^ 60 + sequence % 4096 * 2 ^ 48 + ack * 2 ^ 36 + vc * 2 ^ 33 + bit seg.first * 2 ^ 32
    + bit seg.last * 2 ^ 31 + seg.len * 2 ^ 25 + x.cvc * 2 ^ 22 + (x.rxOf x.cvc).freed % 4096 * 2 ^ 10
    + bit seg.abt * 2 ^ 9) seg.payload
  let on := lget 0 x.prof.lanes lane
  let s := onlyIf (decide ((s.lane on).dataFlips ≠ 0)) useFree (modLane on (fun y => y.sendFlit on (freshNat s) f) s)
  bumpLink l 0 1 (modLink l (fun x => { x with
    line := ((lane, f) :: x.line).take 8, lastTx := s.env.now, laneTurn := lane, ackSent := ack
    rx := lmod {} x.rx x.cvc (fun r => { r with freedSent := r.freed }), cvc := (x.cvc + 1) % 8 }) s)

/-- Sends a flit of a type other than DATA on the lane whose turn it is. -/
def emitCtl (l ty : Nat) (payload : BitVec 416) (s : State) : State :=
  let x := s.link l
  emit l (nextLane x.active x.laneTurn) ty x.nextSeq 0 { payload := payload } s

/-! ### Receive buffers and credits (R310, R311) -/

/-- Frees `n` buffers of a VC; a link number of 48 or more has none. -/
def freeBuf (l v n : Nat) (s : State) : State :=
  if l < 48 then modRx l v (fun r => { r with held := r.held - n, freed := (r.freed + n) % 4096 }) s else s

/-- A cumulative credit count arrives. -/
def takeCredit (l v c : Nat) (s : State) : State :=
  modTx l v (fun t => if aheadOf c t.limit then { t with limit := c } else t) s

/-- New data may be sent on a VC. -/
def VcTx.hasCredit (t : VcTx) : Bool :=
  let d := (t.limit + 4096 - t.sent) % 4096
  decide (1 ≤ d) && decide (d ≤ 2047)

/-- The segment that a VC sends next: the message in progress first (R313). -/
def VcTx.next (t : VcTx) : Option Segment :=
  t.waiting.find? (fun g => match t.cur with | some c => decide (g.src = c) | none => g.first)

/-- The next segment leaves the list. -/
def VcTx.take (t : VcTx) (g : Segment) : VcTx :=
  { t with waiting := t.waiting.eraseP (fun h => decide (h = g)), sent := (t.sent + 1) % 4096
           cur := if g.last then none else some g.src }

/-! ### Messages (R314, Tables 11.5, 11.6) -/

/-- Fields of the transport header. -/
def hdrDest (h : BitVec 128) : Nat := fieldOf h 0 3 % 2 ^ 18
def hdrSource (h : BitVec 128) : Nat := fieldOf h 3 3 % 2 ^ 18
def hdrKind (h : BitVec 128) : Nat := fieldOf h 6 1
def hdrHop (h : BitVec 128) : Nat := fieldOf h 7 1
def hdrLen (h : BitVec 128) : Nat := fieldOf h 8 2 % 16384 + 1
def hdrQueue (h : BitVec 128) : Nat := fieldOf h 10 2 % 4096
def hdrUser (h : BitVec 128) : Nat := fieldOf h 12 4

/-- A transport header; `tail` is bytes 10 to 15. -/
def mkHeader (dest source kind hop len tail : Nat) : BitVec 128 :=
  BitVec.ofNat 128 (dest + source * 2 ^ 24 + kind * 2 ^ 48 + hop % 256 * 2 ^ 56 + (len - 1) % 16384 * 2 ^ 64
    + tail % 2 ^ 48 * 2 ^ 80)

/-- The later segments of a message: 52 bytes each. -/
def laterSegments (q : Option Nat) : Nat → List Byte → List Segment
  | 0, _ => []
  | fuel + 1, bs =>
    let rest := bs.drop 52
    let last := rest.isEmpty
    let seg : Segment := { payload := BitVec.ofNat 416 (leNat (bs.take 52)), last := last, len := (bs.take 52).length
                           queue := if last then q else none }
    if last then [seg] else seg :: laterSegments q fuel rest

/-- The segments of a message of this node (R314). -/
def segmentsOf (h : BitVec 128) (body : List Byte) (q : Option Nat) : List Segment :=
  let rest := body.drop 36
  let last := rest.isEmpty
  { payload := BitVec.ofNat 416 (h.toNat + leNat (body.take 36) * 2 ^ 128), first := true, last := last
    len := 16 + (body.take 36).length, queue := if last then q else none : Segment }
    :: (if last then [] else laterSegments q rest.length rest)

/-- Puts segments on a VC of a link. -/
def enqueue (l v : Nat) (gs : List Segment) (s : State) : State :=
  modTx l v (fun t => { t with waiting := t.waiting ++ gs }) s

/-! ### Messages into Riser queues (R317) -/

/-- Items of a packet that carries `n` message bytes. -/
def packetItems (n : Nat) : Nat := 1 + ceilDiv n 64

/-- May a message of a source go into a queue? -/
def receives (s : State) (q source : Nat) : Bool :=
  match (s.queue q).role with
  | .receive a b => decide (a ≤ source) && decide (source ≤ b)
  | _ => false

/-- The receive descriptor (Table 11.6); the tick is filled in when the last segment arrives. -/
def receiveDesc (h : BitVec 128) (vc link : Nat) : Line :=
  BitVec.ofNat 512 (hdrSource h + hdrQueue h * 2 ^ 32 + vc * 2 ^ 48 + (if link < 48 then link else 0xFF) * 2 ^ 56
    + (hdrLen h - 1) * 2 ^ 64 + hdrHop h * 2 ^ 80 + hdrUser h * 2 ^ 96)

/-- The tick number of the last segment's arrival into the descriptor of the open packet. -/
def stampDesc (q : Nat) (s : State) : State :=
  modQueue q (fun x => { x with opened := match x.opened with
    | d :: rest => { d with bytes := putField d.bytes 16 8 s.tick.number.toNat } :: rest
    | [] => [] }) s

/-- The event Message discarded at receipt; the reason has no code in the manual: a free value. -/
def discardEvent (q source : Nat) (s : State) : State :=
  useFree (raiseLimited { cls := 0x0A, sev := 2, code := 0x0B07, kind := 4, src := q,
                          details := [(2, q), (4, source), (1, freshNat s)] } [] s)

/-- Writes full items of a message, the last one only when `fin`. -/
def writeItems (q : Nat) (fin : Bool) : Nat → List Byte → State → State × List Byte
  | 0, bs, s => (s, bs)
  | fuel + 1, bs, s =>
    if 64 < bs.length then writeItems q fin fuel (bs.drop 64) (enginePush q (lineOf bs) false s)
    else if fin then (retryPops q (enginePush q (lineOf bs) true (stampDesc q s)), []) else (s, bs)

/-- A message that has come whole goes into its queue. -/
def writeWhole (h : BitVec 128) (vc link : Nat) (body : List Byte) (s : State) : State :=
  (writeItems (hdrQueue h) true (body.length + 1) body (enginePush (hdrQueue h) (receiveDesc h vc link) false s)).1

/-- An earlier message of the same VC waits for producer credit. -/
def wholeAhead (s : State) (vc link : Nat) : Bool := s.sys.whole.any (fun m => m.2.1 == vc && m.2.2.1 == link)

/-- A message that has come whole and by no VC of a link (R316, R317, R327): into its queue, or it waits there for producer credit, or
is discarded. -/
def deliverWhole (h : BitVec 128) (vc link : Nat) (body : List Byte) (s : State) : State :=
  let q := hdrQueue h
  if !receives s q (hdrSource h) then discardEvent q (hdrSource h) s
  else if sprueCredit s q (packetItems (hdrLen h)) && !wholeAhead s vc link then writeWhole h vc link body s
  else modSys (fun y => { y with whole := y.whole ++ [(h, vc, link, body)] }) s

/-- The messages that wait and whose credit has come, in order. -/
def retryWhole (s : State) : State :=
  forEach s.sys.whole (fun m s => deliverWhole m.1 m.2.1 m.2.2.1 m.2.2.2 s) (modSys (fun y => { y with whole := [] }) s)

/-- The 10 µs of the oldest message of a VC that waits are over: it is discarded unless its credit has come (R317). -/
def giveWhole (vc link : Nat) (s : State) : State :=
  let s := retryWhole s
  match s.sys.whole.find? (fun m => m.2.1 == vc && m.2.2.1 == link) with
  | some m =>
    let s := modSys (fun y => { y with whole := y.whole.eraseP (fun n => n.2.1 == vc && n.2.2.1 == link) }) s
    retryWhole (discardEvent (hdrQueue m.1) (hdrSource m.1) (onlyIf (decide (link < 48)) (modLink link (fun x => { x with
      counters := bump x.counters 11 1 })) s))
  | none => s

/-! ### Outcomes of sent messages (R316) -/

/-- Completion statuses. -/
def sentOk : Nat := 0
def sentLinkDown : Nat := 1
def sentNoRoute : Nat := 2
def sentBadDesc : Nat := 3

/-- Commits completion items that have credit. -/
def flushCompletions (s : State) : State :=
  let todo := s.sys.completions
  forEach todo (fun c s =>
    if sprueCredit s c.1 1 then retryPops c.1 (enginePush c.1 c.2 true s)
    else modSys (fun y => { y with completions := y.completions ++ [c] }) s)
    (modSys (fun y => { y with completions := [] }) s)

/-- The outcome of a message of send queue `q` with descriptor `d`. -/
def sendOutcome (q : Nat) (d : BitVec 128) (link status : Nat) (s : State) : State :=
  let s := modQueue q (fun x => { x with sending := none }) s
  let s := onlyIf (status != sentOk) (raiseLimited { cls := 0x0A, sev := 1, code := 0x0B08, kind := 4, src := q,
                                                     details := [(2, q), (1, status)] } []) s
  match (s.queue q).role with
  | .send (some c) =>
    if status = sentOk ∧ d.getLsbD 56 = false then s
    else
      let item := BitVec.ofNat 512 (fieldOf d 0 4 + q * 2 ^ 32 + status * 2 ^ 48 + link * 2 ^ 56 + fieldOf d 8 2 * 2 ^ 64
        + fieldOf d 12 4 * 2 ^ 96 + s.tick.number.toNat * 2 ^ 128)
      flushCompletions (modSys (fun y => { y with completions := y.completions ++ [(c, item)] }) s)
  | _ => s

/-- The outcome of the message in progress on a send queue. -/
def endSend (q status : Nat) (s : State) : State :=
  match (s.queue q).sending with
  | some (d, l) => sendOutcome q d l status s
  | none => s

/-! ### Acknowledgement and replay (R305, R306) -/

/-- The oldest unacknowledged number. -/
def Link.oldest (x : Link) : Nat := match x.replay with | r :: _ => r.sequence | [] => x.nextSeq

/-- Entries that an acknowledgement covers. -/
def Link.ackCount (x : Link) (a : Nat) : Nat := (a + 4096 - (x.oldest + 4095) % 4096) % 4096

/-- Releases the first `n` entries. -/
def releaseEntries (l n : Nat) (s : State) : State :=
  let gone := (s.link l).replay.take n
  let s := modLink l (fun x => { x with
    replay := x.replay.drop n
    replayAt := match x.replayAt with
      | some i => if x.replay.length ≤ max i n then none else some (i - n)
      | none => none }) s
  forEach (gone.filterMap (fun r => r.seg.queue)) (fun q => endSend q sentOk) s

/-- An acknowledgement arrives. -/
def takeAck (l a : Nat) (s : State) : State :=
  let n := (s.link l).ackCount a
  if 1 ≤ n ∧ n ≤ (s.link l).replay.length then
    modLink l (fun x => { x with replayCount := 0 }) (releaseEntries l n s)
  else s

/-! ### Going down (R318, R324) -/

/-- A message that is arriving on a VC is given up (R317, R318). -/
def abandonArrival (l v : Nat) (s : State) : State :=
  let r := (s.link l).rxOf v
  match r.arrive with
  | .idle | .sink => s
  | .deliver q =>
    discardEvent q (hdrSource r.header) (bumpLink l 11 1 (modQueue q Queue.rewind (checkQueue q s)))
  | .credit q => discardEvent q (hdrSource r.header) (bumpLink l 11 1 s)
  | .transact => bumpLink l 11 1 s
  | .forward b =>
    enqueue b v [{ last := true, abt := true, len := 1, src := (l, v) }] (bumpLink l 11 1 s)

/-- Segments that came in on a link free none of its buffers any more. -/
def orphanSegments (l : Nat) (s : State) : State :=
  modify s
where
  relabel (p : Nat × Nat) : Nat × Nat := if p.1 = l then (l + 100, p.2) else p
  modify (s : State) : State := forEach (s.links.map (·.1)) (fun b => modLink b (fun x => { x with
    tx := x.tx.map (fun t => { t with
      waiting := t.waiting.map (fun g => { g with src := relabel g.src })
      cur := t.cur.map relabel }) })) s

/-- Messages that were being forwarded to a link are freed as they arrive (R318). -/
def sinkForwards (l : Nat) (s : State) : State :=
  let segs := (s.link l).tx.flatMap (fun t => t.waiting)
  let s := forEach segs (fun g => freeBuf g.src.1 g.src.2 1) s
  forEach (s.links.map (·.1)) (fun a => modLink a (fun x => { x with
    rx := x.rx.map (fun r => if r.arrive = .forward l then { r with arrive := .sink } else r) })) s

/-- Does the cause allow a DOWN flit: a lane is left to send it on. -/
def downPayload (cause : Nat) : BitVec 416 := BitVec.ofNat 416 cause

/-- Credit-stall time so far, the stall in progress included, in whole µs (Table 11.10). -/
def VcTx.stallNow (t : VcTx) (now : Nat) : Nat :=
  match t.stallAt with
  | some a => satAdd 4294967295 t.stallUs ((now - a) / 256000)
  | none => t.stallUs

/-- The link goes down (R324). -/
def linkDown (l cause : Nat) (s : State) : State :=
  let x := s.link l
  let s := onlyIf (decide (x.st = .up)) (forEach (maskLanes x.active) (fun k =>
    emit l k 7 (s.link l).nextSeq 0 { payload := downPayload cause })) s
  let queues := x.replay.filterMap (fun r => r.seg.queue) ++ x.tx.flatMap (fun t => t.waiting.filterMap (fun g => g.queue))
  let arriving := x.rx.countP (fun r => decide (r.arrive ≠ .idle) && decide (r.arrive ≠ .sink))
  let s := forBelow 8 (abandonArrival l) s
  let s := sinkForwards l (orphanSegments l s)
  let s := modLink l (fun x => { x with
    st := .down, downCause := cause, active := 0, replay := [], replayAt := none, replayCount := 0, rxHeld := []
    gapTo := none, nakDue := false, nakOut := false, loopDue := none, loopback := 0, loopPartner := false
    loopReturn := [], loopOut := [], timeDue := false, helloing := false, seen := false, helloBad := false
    nextSeq := 0, expect := 0, ackSent := 4095, cvc := 0
    rx := .replicate 8 {}, tx := x.tx.map (fun t => { stallUs := t.stallNow s.env.now })
    counters := bump x.counters 10 1 }) s
  let s := forEach queues (fun q => endSend q sentLinkDown) s
  let s := resetTxns (fun t => decide (t.link = l)) s
  let s := forEach x.prof.lanes resetLane s
  raise (linkEvent 8 (if cause = 6 ∨ cause = 7 then 1 else 2) 0x0B02 l [(1, cause), (2, queues.length + arriving)]) s

/-! ### Bring-up (R319 to R323) -/

/-- The link enters HELLO. -/
def enterHello (l : Nat) (s : State) : State :=
  let m := upMask s l
  modLink l (fun x => { x with
    st := .hello, active := m, seen := false, helloBad := false, helloTx := 0, helloRx := 0, stable := false }) s

/-- Every lane of the profile is UP. -/
def allLanesUp (s : State) (l : Nat) : Bool := (s.link l).prof.lanes.all (fun k => decide ((s.lane k).st = .up))

/-- The link enters STARTING (R295, R325); lanes that are UP already count. -/
def startLink (l : Nat) (s : State) : State :=
  let s := modLink l (fun x => { x with st := .starting, active := 0 }) s
  if allLanesUp s l then enterHello l s else s

/-- The link goes down, and after `COMMAND` and `RESET` starts again at once (R325). -/
def dropLink (l cause : Nat) (s : State) : State :=
  let s := linkDown l cause s
  if cause = 6 ∨ cause = 7 then startLink l s else s

/-- A lane of a link has reached UP (R308, R319). -/
def laneJoined (lane : Nat) (s : State) : State :=
  match linkOfLane s lane with
  | none => s
  | some (l, k) =>
    match (s.link l).st with
    | .starting => if allLanesUp s l then enterHello l s else s
    | .hello => modLink l (fun x => { x with active := x.active ||| 2 ^ k }) s
    | .up =>
      let s := modLink l (fun x => { x with active := x.active ||| 2 ^ k }) s
      raise (linkEvent 8 1 0x0B03 l [(1, (s.link l).active)]) s
    | _ => s

/-- A lane of a link has left UP through a fault (R308, R328). -/
def laneLeft (lane : Nat) (s : State) : State :=
  match linkOfLane s lane with
  | none => s
  | some (l, k) =>
    let x := s.link l
    if x.active.testBit k then
      let m := x.active - 2 ^ k
      match x.st with
      | .hello =>
        if x.prof.degrade && decide (m ≠ 0) then modLink l (fun x => { x with active := m }) s else startLink l s
      | .up =>
        if x.prof.degrade && decide (m ≠ 0) then
          raise (linkEvent 8 2 0x0B03 l [(1, m)]) (modLink l (fun x => { x with active := m }) s)
        else dropLink l 1 (modLink l (fun x => { x with active := m }) s)
      | _ => s
    else s

/-- The link enters UP on a valid HELLO with `SEEN` (R322): the partner's node, link and allocations. -/
def enterUp (l node link : Nat) (s : State) : State :=
  let s := modLink l (fun x => { x with
    st := .up, active := upMask s l, partner := node, partnerLink := link, nextSeq := 0, expect := 0, ackSent := 4095
    helloing := true, stable := false, wrrVc := 0, wrrLeft := 0, cvc := 0
    rx := (List.range 8).map (fun v => { freed := lget 0 x.prof.alloc v, freedSent := lget 0 x.prof.alloc v : VcRx })
    tx := (List.range 8).map (fun v => { limit := lget 0 x.partnerAlloc v, stallUs := (x.txOf v).stallUs : VcTx }) }) s
  let s := checkBuckets node s
  let s := match slotOf s node with
    | some _ => s
    | none => (createPartner node (some l) false s).1
  let x := s.link l
  raise (linkEvent 8 0 0x0B01 l [(1, x.prof.width), (1, x.prof.rate), (4, node), (4, x.rtt)]) s

end Sys2Proof.Machine
end

