-- ==== Sys2Proof/Machine/SysOps.lean ====
section
/-! DEFINITION. What the Sprue engine does with what arrives and what leaves: arriving segments (R313 to R317), forwarding
(R349), remote requests and transactions (R333 to R338), and Sprue time (R350 to R356). -/

namespace Sys2Proof.Machine

/-! ### Whole messages -/

/-- A message of this node, or one turned round, arrives without a VC's buffers. -/
def arriveWhole (link : Nat) (h : BitVec 128) (vc : Nat) (body : List Byte) (s : State) : State :=
  match hdrKind h with
  | 0x01 => deliverWhole h vc link body s
  | 0x10 => modSys (fun y => { y with inReq := y.inReq ++ [(link, ⟨h, body⟩, vc, 0)] }) s
  | 0x11 => modSys (fun y => { y with inResp := y.inResp ++ [(link, ⟨h, body⟩, vc, 0)] }) s
  | _ => s

/-- Sends a whole message of this node (R347, R327): the state and the link, 63 for the own node; none without a
route. -/
def dispatch (h : BitVec 128) (vc : Nat) (body : List Byte) (q : Option Nat) (s : State) : State × Option Nat :=
  match (routeTo s s.sys.node (hdrDest h)).1 with
  | .self => (arriveWhole 63 h vc body s, some 63)
  | .link b =>
    if (s.link b).loopback = 6 then (arriveWhole b h vc body s, some b)
    else (enqueue b vc (segmentsOf h body q) (usePartner (hdrDest h) b s), some b)
  | .none => (s, none)

/-! ### Responses (R333, Tables 12.1 to 12.3) -/

/-- Transaction status codes that are no Runner codes. -/
def txNoRoom : Nat := 8
def txNoRoute : Nat := 9

/-- `RQ_OP` of an operation (Table 2.2). -/
def remoteCode : RemoteOp → Nat
  | .read => 0 | .write => 1 | .add32 => 2 | .add64 => 3 | .swap32 => 4 | .swap64 => 5
def runOp : RemoteOp → RunOp
  | .read => .read | .write => .write | .add32 => .add32 | .add64 => .add64 | .swap32 => .swap32 | .swap64 => .swap64
def remoteOp : RunOp → RemoteOp
  | .read => .read | .write => .write | .add32 => .add32 | .add64 => .add64 | .swap32 => .swap32 | .swap64 => .swap64
def opOfCode : Nat → Option RemoteOp
  | 0 => some .read | 1 => some .write | 2 => some .add32 | 3 => some .add64 | 4 => some .swap32 | 5 => some .swap64
  | _ => none

/-- Sends a response: `v` holds whom it answers, `status`, the mask of failed lines, and the data after it. -/
def respond (v : Serving) (status mask : Nat) (data : List Byte) (s : State) : State :=
  let body := leBytes 8 v.offset ++ leBytes 8 mask ++ data
  let h := mkHeader v.node v.self 0x11 s.sys.hop body.length (v.sequence + v.op * 2 ^ 16 + status * 2 ^ 24 + (v.lines - 1) * 2 ^ 32)
  (dispatch h 6 body none s).1

/-- The bytes that follow the mask when no line was performed. -/
def emptyData (op lines : Nat) : List Byte :=
  if op = 0 then .replicate (64 * lines) 0 else if op = 1 then [] else .replicate 8 0

/-- A request refused with a status: every line has failed. -/
def refuseTxn (v : Serving) (status : Nat) (s : State) : State :=
  respond v status (2 ^ v.lines - 1) (emptyData v.op v.lines) s

/-- The transaction fields of a request header. -/
def servingOf (h : BitVec 128) (offset : Nat) : Serving :=
  { node := hdrSource h, self := hdrDest h, sequence := fieldOf h 10 2, op := fieldOf h 12 1, offset := offset % 2 ^ 30
    lines := fieldOf h 14 1 % 64 + 1 }

/-- The answer of a request that the Runner has completed (R337): the status is that of the lowest failed line. -/
def finishServing (v : Serving) (s : State) : State :=
  let codes := v.got.map (fun l => l.code.toNat)
  let status := (codes.find? (· != 0)).getD 0
  let s := modSys (fun y => { y with serving := y.serving.filter (fun w => decide (w.tag ≠ v.tag)) }) s
  let s := touchPartner v.node s
  if v.op = 0 then
    let mask := codes.zipIdx.foldl (fun n c => if c.1 = 0 then n else n + 2 ^ c.2) 0
    respond v status mask (v.got.flatMap (fun l => bytesOf l.data 64)) s
  else if v.op = 1 then respond v status (if status = 0 then 0 else 2 ^ v.lines - 1) [] s
  else
    let w := if v.op = 2 ∨ v.op = 4 then 4 else 8
    let old := fieldOf ((v.got.headD {}).data) (v.offset % 64) w
    respond v status (if status = 0 then 0 else 1) (leBytes 8 old) s

/-! ### Forwarding (R349) -/

/-- The event Traffic not forwarded; the reason has no code in the manual: a free value. -/
def notForwarded (l dest : Nat) (s : State) : State :=
  useFree (raiseLimited (sysEvent 2 0x0C06 [(4, dest), (1, l), (1, freshNat s)]) [] (bumpSys 5 1 s))

/-- The link on which traffic from link `l` goes on, or none: with the refusal of a request answered. On a link at depth 6 it would
arrive again and be routed there again until its hop limit ends it (R327). -/
def forwardTo (l : Nat) (h : BitVec 128) (offset : Nat) (s : State) : State × Option Nat :=
  let isReq := decide (hdrKind h = 0x10)
  if isReq && decide (s.dev.mode = .hold) then (refuseTxn (servingOf h offset) rcAccess s, none)
  else
    let r := (routeTo s (hdrSource h) (hdrDest h)).1.link?
    match r with
    | some b =>
      if hdrHop h ≤ 1 then (fail l isReq s, none)
      else if (s.link b).loopback = 6 then (fail b isReq s, none)
      else (s, some b)
    | none => (fail l isReq s, none)
where
  fail (l : Nat) (isReq : Bool) (s : State) : State :=
    notForwarded l (hdrDest h) (onlyIf isReq (refuseTxn (servingOf h offset) txNoRoute) s)

/-! ### Arriving segments (R313 to R317) -/

/-- What becomes of a VC once a segment has ended its message or not. -/
def endOrSink (l v : Nat) (last : Bool) (s : State) : State :=
  modRx l v (fun r => { r with arrive := if last then .idle else .sink, got := [], count := 0, ends := [] }) s

/-- A segment that is freed without being written. -/
def sinkSegment (l v : Nat) (last : Bool) (s : State) : State := endOrSink l v last (freeBuf l v 1 s)

/-- A message that disagrees with its header (R315), or ends with `ABT` (R317): discarded and counted. Of a message that goes on to
another link, the flit that ends it there frees the buffer when it is sent (R313). -/
def dropMessage (l v : Nat) (last : Bool) (s : State) : State :=
  let r := (s.link l).rxOf v
  let n := match r.arrive with
    | .forward _ => 0
    | _ => r.ends.length + 1
  let s := abandonArrival l v s
  endOrSink l v last (freeBuf l v n s)

/-- The message bytes written, counted from the front of `got`, free the buffers that they end. -/
def freeWritten (l v written : Nat) (s : State) : State :=
  let ends := ((s.link l).rxOf v).ends
  let done := ends.countP (fun e => decide (e ≤ written))
  freeBuf l v done (modRx l v (fun r => { r with ends := (ends.drop done).map (· - written) }) s)

/-- More bytes of a message in progress. -/
def continueMessage (l v : Nat) (a : Arrive) (bytes : List Byte) (last abt : Bool) (s : State) : State :=
  let r := (s.link l).rxOf v
  let count := r.count + bytes.length
  if abt || (last && decide (count ≠ hdrLen r.header)) || decide (hdrLen r.header < count) then dropMessage l v last s
  else
    let got := r.got ++ bytes
    let s := modRx l v (fun r => { r with got := got, count := count, ends := r.ends ++ [got.length] }) s
    match a with
    | .deliver q =>
      let (s, rest) := writeItems q last (got.length + 1) got s
      let s := freeWritten l v (got.length - rest.length) (modRx l v (fun r => { r with got := rest }) s)
      onlyIf last (fun s => touchPartner (hdrSource r.header) (endOrSink l v true s)) s
    | _ =>
      if last then
        let entry := (l, (⟨r.header, got⟩ : Message), v, r.ends.length + 1)
        let s := if hdrKind r.header = 0x10 then modSys (fun y => { y with inReq := y.inReq ++ [entry] }) s
          else modSys (fun y => { y with inResp := y.inResp ++ [entry] }) s
        endOrSink l v true s
      else s

/-- A first segment (R314, R315, R317, R349). -/
def startMessage (l v : Nat) (f : Line) (s : State) : State :=
  let last := flitLast f
  let p := flitPayload f
  let h : BitVec 128 := p.extractLsb' 0 128
  let bytes := (bytesOf p (flitLen f)).drop 16
  let kind := hdrKind h
  if flitLen f < 16 ∨ (kind ≠ 0x01 ∧ kind ≠ 0x10 ∧ kind ≠ 0x11) then
    sinkSegment l v last (bumpLink l 11 1 s)
  else
    let s := modRx l v (fun r => { r with header := h, got := [], count := 0, ends := [] }) s
    if hdrDest h ≠ s.sys.node then
      match forwardTo l h (fieldOf p 16 4) s with
      | (s, none) => sinkSegment l v last s
      | (s, some b) =>
        let h' := putField h 7 1 (hdrHop h - 1)
        let seg : Segment := { payload := putField p 0 16 h'.toNat, first := true, last := last, len := flitLen f,
                               abt := flitAbt f, src := (l, v) }
        modRx l v (fun r => { r with arrive := if last then .idle else .forward b }) (enqueue b v [seg] s)
    else if kind = 0x01 then
      let q := hdrQueue h
      if !receives s q (hdrSource h) then
        sinkSegment l v last (discardEvent q (hdrSource h) (bumpLink l 11 1 s))
      else if sprueCredit s q (packetItems (hdrLen h)) then
        let s := enginePush q (receiveDesc h v l) false s
        continueMessage l v (.deliver q) bytes last (flitAbt f) (modRx l v (fun r => { r with arrive := .deliver q }) s)
      else modRx l v (fun r => { r with arrive := .credit q, wait := [f] }) s
    else
      continueMessage l v .transact bytes last (flitAbt f) (modRx l v (fun r => { r with arrive := .transact }) s)

/-- A DATA flit whose turn it is reaches its VC. -/
def takeSegment (l v : Nat) (f : Line) (s : State) : State :=
  let r := (s.link l).rxOf v
  let last := flitLast f
  match r.arrive with
  | .credit _ => modRx l v (fun r => { r with wait := r.wait ++ [f] }) s
  | .idle => if flitFirst f then startMessage l v f s else sinkSegment l v last (bumpLink l 11 1 s)
  | .sink => sinkSegment l v last s
  | .forward b =>
    if flitFirst f then dropMessage l v last s
    else
      let seg : Segment := { payload := flitPayload f, last := last, len := flitLen f, abt := flitAbt f, src := (l, v) }
      modRx l v (fun r => { r with arrive := if last then .idle else .forward b }) (enqueue b v [seg] s)
  | a =>
    if flitFirst f then dropMessage l v last s
    else continueMessage l v a (bytesOf (flitPayload f) (flitLen f)) last (flitAbt f) s

/-- Flits that waited for producer credit go on; `give` discards their message instead. -/
def resumeVc (l v : Nat) (give : Bool) (s : State) : State :=
  let r := (s.link l).rxOf v
  let s := modRx l v (fun r => { r with arrive := if give then .sink else .idle, wait := [] }) s
  forEach r.wait (takeSegment l v) s

/-- A VC that waits for credit which has come (R317). -/
def retryCredit (l v : Nat) (s : State) : State :=
  let r := (s.link l).rxOf v
  match r.arrive with
  | .credit q => if sprueCredit s q (packetItems (hdrLen r.header)) then resumeVc l v false s else s
  | _ => s

/-! ### Remote requests (R334) -/

/-- Node and offset of a remote address (R55). -/
def remoteNode (h : ReqHdr) : Nat := h.addr.toNat / 2 ^ 30 % 2 ^ 18
def remoteOffset (h : ReqHdr) : Nat := h.addr.toNat % 2 ^ 30

/-- The next sequence number of an entry, skipping those outstanding to the partner. -/
def nextSequence (s : State) (node : Nat) : Nat → Nat → Nat
  | 0, n => n
  | fuel + 1, n => if s.sys.txns.any (isTxn node n) then nextSequence s node fuel ((n + 1) % 65536) else n

/-- The body of a request (Table 12.2), and whether byte enables are present. -/
def requestBody (o : Outst) : List Byte × Bool :=
  let off := leBytes 8 (remoteOffset o.hdr)
  match o.op with
  | .read => (off, false)
  | .write =>
    let bes := o.wlines.any (fun l => l.2 != BitVec.allOnes 64)
    (off ++ (if bes then o.wlines.flatMap (fun l => bytesOf l.2 8) else []) ++ o.wlines.flatMap (fun l => bytesOf l.1 64), bes)
  | op => (off ++ leBytes 8 (fieldOf ((o.wlines.map (·.1)).headD 0) (remoteOffset o.hdr % 64) (atomicWidth op)), false)

/-- Sends the request of an accepted transaction. -/
def sendRequest (o : Outst) (k sequence : Nat) (s : State) : State :=
  let node := remoteNode o.hdr
  let (body, bes) := requestBody o
  let op := remoteOp o.op
  let h := mkHeader node s.sys.node 0x10 s.sys.hop body.length
    (sequence + remoteCode op * 2 ^ 16 + o.hdr.win.val * 2 ^ 24 + o.hdr.len.val * 2 ^ 32 + bit bes * 2 ^ 40)
  let (s, link) := dispatch h 5 body none s
  let l := link.getD 63
  let s := modPartner k (fun p => { p with
    tseq := (sequence + 1) % 65536, outst := p.outst + 1, seen := s.sys.ageCtr, link := l }) s
  let txn : Txn := { node := node, sequence := sequence, op := op, offset := remoteOffset o.hdr,
                     lines := lineCount o.hdr, link := l, src := o.hdr.src, tag := o.hdr.tag, id := o.id }
  modSys (fun y => { y with txns := y.txns ++ [txn] }) s

/-- An earlier remote request of the same port to the same page still waits for acceptance (R46). -/
def remoteAhead (s : State) (o : Outst) : Bool :=
  s.runner.outst.any (fun x => decide (x.hdr.src = o.hdr.src) && decide (x.id < o.id) && !x.gone && !x.accepted && x.resp.isNone
    && decide (x.hdr.addr.toNat / 4096 = o.hdr.addr.toNat / 4096))

/-- Accepts a waiting remote request if R46 and R334 let it: none while it must wait. -/
def tryAccept (o : Outst) (s : State) : Option State :=
  let node := remoteNode o.hdr
  let room := match slotOf s node with
    | some k => decide ((s.partner k).outst < (s.profile (s.partner k).profile).limit)
    | none => true
  if !room || decide (4096 ≤ s.sys.txns.length) || remoteAhead s o then none
  else
    let done := fun (code : Nat) (s : State) => setOutst (answerAll code { o with accepted := true }) s
    let route := (routeTo s s.sys.node node).1
    match needPartner node route.link? s with
    | (s, false) => some (raiseLimited (sysEvent 1 0x0C04 [(4, node), (4, 1)]) [1] (done rcAccess s))
    | (s, true) =>
      match slotOf s node with
      | none => some (done rcAccess s)
      | some k =>
        let p := s.profile (s.partner k).profile
        if !p.opMask.getLsbD (remoteCode (remoteOp o.op)) || decide (p.maxLines < lineCount o.hdr) then some (done rcDecode s)
        else if route = .none then some (done rcDecode s)
        else some (sendRequest o k (nextSequence s node 65536 (s.partner k).tseq) (setOutst { o with accepted := true } s))

/-- A remote request is issued: its burst is checked (R33), and it is answered, accepted or waits (R329, R334). -/
def issueRemote (h : ReqHdr) (op : RunOp) (lines : List WLine) (s : State) : State :=
  let o := newOutst h op lines s
  if crosses h || decide (s.sys.node = noNode) then pushOutst (answerAll rcDecode o) s
  else
    let s := pushOutst o s
    (tryAccept o s).getD s

/-! ### Transactions at the target (R337, Table 12.4) -/

/-- Bytes that a request's body must have. -/
def bodyLength (op : RemoteOp) (lines : Nat) (bes : Bool) : Nat :=
  match op with
  | .read => 8
  | .write => 8 + 64 * lines + (if bes then 8 * lines else 0)
  | _ => 16

/-- The lines of a request's body. -/
def bodyLines (op : RemoteOp) (lines offset : Nat) (bes : Bool) (body : List Byte) : List WLine :=
  match op with
  | .read => []
  | .write =>
    let data := body.drop (8 + if bes then 8 * lines else 0)
    (List.range lines).map (fun k => (lineOf ((data.drop (64 * k)).take 64),
      if bes then BitVec.ofNat 64 (leNat (((body.drop (8 + 8 * k))).take 8)) else BitVec.allOnes 64))
  | _ => [(BitVec.ofNat 512 (leNat ((body.drop 8).take 8) * 256 ^ (offset % 64)), BitVec.allOnes 64)]

/-- The right that an operation needs: R, W or A. -/
def remoteRight : RemoteOp → Nat
  | .read => 0 | .write => 1 | _ => 2

/-- A free tag of the Sprue engine at the Runner. -/
def freeTag (s : State) : Option (Fin 64) :=
  ((List.range 64).map (Fin.ofNat 64)).find? (fun t => (s.outst .sprue t).isNone)

/-- The source's right in a window: its entry's, or the list's for the own node. -/
def holdsRight (s : State) (node w : Nat) (x : Window) (right : Nat) : Bool :=
  if node = s.sys.node then (x.rightsOf node).getLsbD right
  else match slotOf s node with
    | some k => ((s.partner k).rights).testBit (3 * w + right)
    | none => false

/-- Checks 4 to 7 and the issue to the Runner. -/
def issueServing (v : Serving) (op : RemoteOp) (win : Nat) (lines : List WLine) (tag : Fin 64) (s : State) : State :=
  match s.window win with
  | none => refuseTxn v rcDecode s
  | some x =>
    let h : ReqHdr := { src := .sprue, addr := BitVec.ofNat 49 (x.base + v.offset), len := Fin.ofNat 64 (v.lines - 1),
                        tag := tag, qos := 0, win := 0 }
    let atomic := (runOp op).atomic
    let bytes := if atomic then atomicWidth (runOp op) else 64 * v.lines
    let start := if atomic then v.offset else v.offset / 64 * 64
    if crosses h || (atomic && !atomicOk (runOp op) h) || decide (4096 * x.pages < start + bytes) then refuseTxn v rcDecode s
    else if !holdsRight s v.node win x (remoteRight op) then refuseTxn v rcAccess s
    else
      issueRequest h (runOp op) lines (modSys (fun y => { y with serving := y.serving ++ [{ v with tag := tag }] }) s)

/-- A request is taken by the transaction engine (R337). -/
def serveTxn (link : Nat) (m : Message) (tag : Fin 64) (s : State) : State :=
  let h := m.header
  let v := servingOf h (leNat (m.body.take 4))
  let bes := (fieldOf h 15 1).testBit 0
  if s.dev.mode = .hold then refuseTxn v rcAccess s
  else match opOfCode v.op with
    | none => refuseTxn v rcDecode s
    | some op =>
      if m.body.length ≠ bodyLength op v.lines bes ∨ (bes = true ∧ op ≠ .write) then refuseTxn v rcDecode s
      else
        let (s, found) := if v.node = s.sys.node then (s, true)
          else needPartner v.node (if link < 48 then some link else none) s
        if !found then refuseTxn v txNoRoom s
        else issueServing v op (fieldOf h 13 1 % 16) (bodyLines op v.lines v.offset bes m.body) tag (touchPartner v.node s)

/-! ### Responses at the requester (R335, R336) -/

/-- The Runner code of a status; none for a reserved one. -/
def codeOfStatus (n : Nat) : Option Nat :=
  if n ≤ 6 then some n else if n = txNoRoom then some rcAccess else if n = txNoRoute then some rcDecode else none

/-- The response lines of a transaction. -/
def txnLines (t : Txn) (code mask : Nat) (data : List Byte) : List RLine :=
  match t.op with
  | .read => (List.range t.lines).map (fun k =>
      if mask.testBit k then ⟨BitVec.ofNat 3 code, 0⟩ else ⟨0, lineOf ((data.drop (64 * k)).take 64)⟩)
  | .write => [⟨BitVec.ofNat 3 code, 0⟩]
  | op =>
    let w := atomicWidth (runOp op)
    [⟨BitVec.ofNat 3 code, if code = 0 then BitVec.ofNat 512 (leNat (data.take w) * 256 ^ (t.offset % 64)) else 0⟩]

/-- A response is matched and completes its request, or is discarded and counted. -/
def takeResponse (m : Message) (s : State) : State :=
  let h := m.header
  let offset := leNat (m.body.take 4) % 2 ^ 30
  match s.sys.txns.find? (fun t => isTxn (hdrSource h) (fieldOf h 10 2) t && decide (remoteCode t.op = fieldOf h 12 1)
      && decide (t.offset = offset)), codeOfStatus (fieldOf h 13 1) with
  | some t, some code =>
    let s := touchPartner t.node s
    let lines := txnLines t code (leNat ((m.body.drop 8).take 8)) (m.body.drop 16)
    let s := answerTxn t (fun o => { o with resp := some lines }) s
    if fieldOf h 13 1 = txNoRoom then raiseLimited (sysEvent 1 0x0C04 [(4, t.node), (4, 1)]) [1] s
    else if code = rcTimeout ∨ code = rcPathReset then txnEvent t.node code s else s
  | _, _ => bumpSys 4 1 s

/-! ### Sprue time (R350 to R356) -/

/-- A tick period in 1/256 ns: 8/3 ns a unit. -/
def tickTime (units : Nat) : Nat := units * 2048 / 3

/-- Position within the tick in progress, in 1/256 ns. -/
def tickPosition (s : State) : Nat := s.env.now - s.tick.startAt

/-- Synchronised (R351). -/
def isSynced (s : State) : Bool :=
  (decide (s.sys.role = .root) && decide (s.tick.cfg.source ≠ 2)) || (decide (s.tick.cfg.source = 2) && decide (s.tick.align = 1))

/-- The advertised root and distance. -/
def advert (s : State) : Nat × Nat :=
  if !isSynced s then (noNode, 0xFF)
  else if s.sys.role = .root then (s.sys.node, 0) else (s.sys.rootNode, s.sys.distance)

/-- The HELLO system word. -/
def systemWord (s : State) : Nat := (advert s).1 + (advert s).2 * 2 ^ 18

/-- The TIME payload at this moment (Table 12.8). -/
def timePayload (l : Nat) (s : State) : BitVec 416 :=
  let x := s.link l
  let (copy, hold) := match x.timeRx with
    | some (p, at_) => (fieldOf p 0 8, s.env.now - at_)
    | none => (0, 0)
  BitVec.ofNat 416 (s.env.now % 2 ^ 64 + copy * 2 ^ 64 + hold % 2 ^ 64 * 2 ^ 128 + s.tick.number.toNat * 2 ^ 192
    + tickPosition s % 2 ^ 32 * 2 ^ 256 + (advert s).1 * 2 ^ 288 + (advert s).2 * 2 ^ 320 + bit (isSynced s) * 2 ^ 328
    + s.tick.cfg.period * 2 ^ 336)

/-- A valid TIME payload: its reserved bits are zero. -/
def timeValid (p : BitVec 416) : Bool :=
  decide (fieldOf p 36 4 < 2 ^ 18) && decide (fieldOf p 41 1 < 2) && decide (fieldOf p 46 6 = 0)

/-- A phase difference taken to the nearest boundary (R137). -/
def wrapPhase (period : Nat) (d : Int) : Int :=
  let p : Int := period
  if p = 0 then 0
  else
    let m := d % p
    if p < 2 * m then m - p else m

/-- What a node takes from a TIME flit of its parent (R353). -/
def fromParent (l : Nat) (p : BitVec 416) (s : State) : State :=
  let x := s.link l
  let copy := fieldOf p 8 8
  let delay : Int := if copy ≠ 0 ∧ x.timeSent.contains copy = true then
      ((s.env.now : Int) - copy - fieldOf p 16 8) / 2 + x.asym
    else s.sys.delay
  let e := wrapPhase (tickTime s.tick.cfg.period) ((fieldOf p 32 4 : Int) + delay - tickPosition s)
  let n := s.sys.exchanges + 1
  let trim := if n < 8 then s.sys.trim else clampInt (-858993) 858993 ((freshNat s : Int) - 858993)
  useFree (modSys (fun y => { y with delay := delay, lastE := e, exchanges := n, trim := trim })
    (modLink l (fun x => { x with delay := some delay }) s))

/-- A TIME flit arrives (R352, R353). -/
def takeTime (l : Nat) (p : BitVec 416) (s : State) : State :=
  if s.sys.role = .none ∨ timeValid p = false then s
  else
    let s := modLink l (fun x => { x with timeRx := some (p, s.env.now), timeInTick := true }) s
    let s := modSys (fun y => { y with timeRx := satAdd 4294967295 y.timeRx 1 }) s
    if s.sys.parent = some l then fromParent l p s else s

/-- Advertisement of a link's partner: synchronised, root, distance, period. -/
def Link.advert (x : Link) : Option (Nat × Nat × Nat) :=
  match x.timeRx with
  | some (p, _) =>
    if x.timeInTick ∧ x.st = .up ∧ fieldOf p 41 1 % 2 = 1 ∧ fieldOf p 40 1 < 254 then
      some (fieldOf p 36 4, fieldOf p 40 1, fieldOf p 42 4) else none
  | none => none

/-- Candidates for parent: link, root, distance (R354); those that differ only in period. -/
def parentCandidates (s : State) (same : Bool) : List (Nat × Nat × Nat × Nat) :=
  s.links.filterMap (fun k => match k.2.advert with
    | some (r, d, p) => if (p = s.tick.cfg.period) = same then some (k.1, r, d, p) else none
    | none => none)

/-- Is `a` ranked before `b`? -/
def ranksBefore (a b : Nat × Nat × Nat × Nat) : Bool :=
  decide (a.2.1 < b.2.1) || (decide (a.2.1 = b.2.1) && (decide (a.2.2.1 < b.2.2.1) ||
    (decide (a.2.2.1 = b.2.2.1) && decide (a.1 < b.1))))

/-- The parent that a MEMBER chooses at a tick boundary (R354). -/
def chosenParent (s : State) : Option (Nat × Nat × Nat × Nat) :=
  let cs := parentCandidates s true
  match cs.foldl (fun (best : Option (Nat × Nat × Nat × Nat)) c => match best with
      | none => some c
      | some b => if ranksBefore c b then some c else best) none with
  | none => none
  | some best =>
    match s.sys.parent.bind (fun l => cs.find? (fun c => decide (c.1 = l))) with
    | none => some best
    | some cur => if cs.any (fun c => decide (c.2.1 < cur.2.1) || decide (c.2.2.1 < cur.2.2.1)) then some best else some cur

/-- The choice of parent and the reports of R354; whether the parent changed. -/
def settleParent (s : State) : State × Bool :=
  let warn := fun (c : Nat × Nat × Nat × Nat) => raise
    { cls := 0x0B, sev := 2, code := 0x0C09, kind := 3, src := c.1, details := [(1, c.1), (4, c.2.1), (4, c.2.2.2)] }
  match s.sys.role with
  | .none => (s, false)
  | .root =>
    match (parentCandidates s true ++ parentCandidates s false).find? (fun c => decide (c.2.1 < s.sys.node)) with
    | some c => (onlyIf (!s.sys.competing) (warn c) (modSys (fun y => { y with competing := true }) s), false)
    | none => (modSys (fun y => { y with competing := false }) s, false)
  | .member =>
    let others := parentCandidates s false
    let s := onlyIf (decide (s.sys.mismatchFor ≠ some s.tick.cfg.period)) (modSys (fun y => { y with mismatchFor := none })) s
    let s := match others, parentCandidates s true with
      | c :: _, [] => onlyIf (decide (s.sys.mismatchFor ≠ some s.tick.cfg.period)) (warn c)
          (modSys (fun y => { y with mismatchFor := some s.tick.cfg.period }) s)
      | _, _ => s
    match chosenParent s with
    | none => (modSys (fun y => { y with parent := none, rootNode := noNode, distance := 255 }) s, false)
    | some (l, r, d, _) =>
      let changed := decide (s.sys.parent ≠ some l)
      let old := s.sys.parent.getD 0xFF
      let s := modSys (fun y => { y with parent := some l, rootNode := r, distance := d + 1,
                                         exchanges := if changed then 0 else y.exchanges }) s
      (onlyIf changed (raise { cls := 0x0B, sev := 1, code := 0x0C08, kind := 3, src := l,
                               details := [(1, old), (1, l), (4, r), (1, d + 1)] }) s, changed)

end Sys2Proof.Machine
end

