-- ==== Sys2Proof/Machine/Lanes.lean ====
section
/-! DEFINITION. Meanings of the lane commands and lane events (chapter 10). -/

namespace Sys2Proof.Machine

/-- A lane in use that is not one of the endpoint's. -/
def laneRuns (s : State) (l : Nat) : Bool := s.awake && !isPcieLane s l && decide ((s.lane l).cfg.mode ≠ .off)

/-- A lane of a formed link (R265, R286). -/
def inLink (s : State) (l : Nat) : Bool := (linkOfLane s l).isSome

/-! ### LANE_CONFIG (Table 10.13) -/

/-- The configuration that a request asks for. -/
def reqLaneCfg (q : Req) : LaneCfg :=
  let b := fun i => q.argByte i
  { mode := match b 8 with | 1 => .queue | 2 => .sprue | _ => .off
    rate := b 9, coding := b 10, txInvert := (b 11).testBit 0, rxInvert := (b 11).testBit 1, manual := (b 11).testBit 2
    precode := (b 11).testBit 3, training := b 12, preset := b 13
    custom := (List.range 5).map (fun i => signed 8 (b (14 + i)))
    refclk := b 19, timeoutMs := q.arg 20 2, rxQueue := q.arg 22 2, txQueue := q.arg 24 2, flush := q.arg 26 2
    idleWord := BitVec.ofNat 64 (q.arg 28 8) }

/-- The arguments' rules (R256, R267, R272, R276). -/
def laneArgsOk (q : Req) : Bool :=
  let c := reqLaneCfg q
  if q.argByte 8 = 0 then true
  else decide (q.argByte 8 ≤ 2) && rateOk c.rate c.coding (isPClass q.target) && decide (q.argByte 11 < 16)
    && decide (c.training ≤ 2) && (decide (c.training = 0) || (isTrainable c.rate && decide (1 ≤ c.timeoutMs) && decide (c.timeoutMs ≤ 4000)))
    && decide (c.preset ≤ 5) && (decide (c.preset ≠ 0) || tapsOk c.custom) && decide (c.refclk < 8)
    && (decide (c.mode ≠ .queue) || (decide (c.rxQueue < 4096) && decide (c.txQueue < 4096) && decide (1 ≤ c.flush)
      && decide (c.flush ≤ 1000)))

/-- The configuration in effect, in the layout of the arguments. -/
def laneCfgResults (l : Nat) (s : State) : Results :=
  let x := s.lane l
  let c := x.cfg
  [(16, 1, if isPcieLane s l then 3 else c.mode.code), (17, 1, c.rate), (18, 1, c.coding),
   (19, 1, bit c.txInvert + 2 * bit c.rxInvert + 4 * bit c.manual + 8 * bit c.precode), (20, 1, c.training),
   (21, 1, c.preset)] ++ (List.range 5).map (fun i => (22 + i, 1, tapByte (lget 0 c.custom i))) ++
  [(27, 1, c.refclk), (28, 2, c.timeoutMs), (30, 2, c.rxQueue), (32, 2, c.txQueue), (34, 2, c.flush),
   (36, 8, c.idleWord.toNat), (48, 1, x.st.code), (49, 1, x.pll)]

/-- The queues that a configuration binds (R266). -/
def LaneCfg.queues (c : LaneCfg) : List Nat := if c.mode = .queue then [c.rxQueue, c.txQueue] else []

/-- Takes a configuration, with its answer (R292); the queues let go and taken follow (R362). -/
def configureLane (l : Nat) (c : LaneCfg) (s : State) : State × Nat :=
  match applyCfg l c s with
  | some t => (bindQueues ((s.lane l).cfg.queues ++ c.queues) t, stOk)
  | none => (s, stNoRoom)

def laneConfigSpec : CmdSpec :=
  { opcode := 0x0500, query := true, targetOk := below 96
    owners := fun q _ => ownKey 1 q.target ::
      (if q.argByte 8 = 1 then [ownKey 3 (q.arg 22 2 / 64 % 64), ownKey 3 (q.arg 24 2 / 64 % 64)] else [])
    body := fun q s =>
      let l := q.target
      if isPcieLane s l then (s, .done stDenied [])
      else if q.queryFlag then (s, .done stOk (laneCfgResults l s))
      else if !laneArgsOk q then (s, .done stBadArg [])
      else if inLink s l then (s, .done stDenied [])
      else if (s.lane l).st = .test then (s, .done stBusy [])
      else
        let c := if q.argByte 8 = 0 then {} else reqLaneCfg q
        if c.mode ≠ .off ∧ queueOnly (s.lane l).cfg c = false ∧ (pickPll s l c.rate c.refclk).isNone = true then
          (s, .done stNoRoom [])
        else if q.atTick && !queueOnly (s.lane l).cfg c then
          (modLane l (fun x => { x with shadow := x.shadow ++ [(c, q.waiter)] }) s, .wait)
        else
          let (s, st) := configureLane l c s
          (s, .done st (if st = stOk then laneCfgResults l s else [])) }

/-- LANE_CONFIG (R292). -/
def execLaneConfig (p : Port) (sl : Fin 4) (s : State) : Out := runCmd laneConfigSpec p sl s

/-- `LANE_CONFIG` commands with AT_TICK take effect at the tick boundary (R292). -/
def applyLaneShadows (s : State) : State :=
  forEach (s.lanes.filter (fun x => !x.2.shadow.isEmpty)) (fun x s =>
    let s := modLane x.1 (fun y => { y with shadow := [] }) s
    forEach x.2.shadow (fun c s =>
      let (s, st) := configureLane x.1 c.1 s
      reply c.2 st (if st = stOk then laneCfgResults x.1 s else []) s) s) s

/-! ### LANE_STATUS (Table 10.14) -/

/-- State of a PCIe lane: UP while the link is up. -/
def pcieLaneState (s : State) : Nat := if s.io.pcie.up then LaneSt.up.code else LaneSt.starting.code

def laneStatusResults (l : Nat) (s : State) : Results :=
  let x := s.lane l
  if isPcieLane s l then
    [(16, 1, pcieLaneState s), (17, 2, if s.io.pcie.up then pcieRate s.io.pcie.rate else 0),
     (19, 1, if s.io.pcie.up then pcieWidth s.io.pcie.width else 0)]
  else
    [(16, 1, x.st.code), (17, 1, x.cfg.mode.code), (18, 1, x.cfg.rate), (19, 1, x.cfg.coding)] ++
    (List.range 5).map (fun i => (20 + i, 1, tapByte (lget 0 x.taps i))) ++
    [(25, 1, x.trainResult), (26, 1, x.planned)] ++ (List.range 8).map (fun i => (28 + 4 * i, 4, lget 0 x.counters i))

def laneStatusSpec : CmdSpec :=
  { opcode := 0x0501, targetOk := below 96
    body := fun q s =>
      let l := q.target
      let res := laneStatusResults l s
      if 2 ≤ q.argByte 8 then (s, .done stBadArg [])
      else if q.argByte 8 = 0 then (s, .done stOk res)
      else
        let (s, st) := claimOne q (ownKey 1 l) s
        (onlyIf (st == stOk) (modLane l (fun x => { x with counters := .replicate 8 0 })) s, .done st res) }

/-- LANE_STATUS (R269). -/
def execLaneStatus (p : Port) (sl : Fin 4) (s : State) : Out := runCmd laneStatusSpec p sl s

/-! ### LANE_RESET, LANE_SLIP (Tables 10.15, 10.16) -/

def ownLane (q : Req) (_ : State) : List Nat := [ownKey 1 q.target]

def laneResetSpec : CmdSpec :=
  { opcode := 0x0502, targetOk := below 96, owners := ownLane
    body := fun q s =>
      if isPcieLane s q.target || inLink s q.target then (s, .done stDenied [])
      else (resetLane q.target s, .done stOk []) }

/-- LANE_RESET (R271). -/
def execLaneReset (p : Port) (sl : Fin 4) (s : State) : Out := runCmd laneResetSpec p sl s

def laneSlipSpec : CmdSpec :=
  { opcode := 0x0503, targetOk := below 96, owners := ownLane
    body := fun q s =>
      let l := q.target
      if q.argByte 8 = 0 then (s, .done stBadArg [])
      else if isPcieLane s l || !(s.lane l).cfg.isManual then (s, .done stDenied [])
      else
        let n := q.argByte 8 * (if isPam4 (s.lane l).cfg.rate then 2 else 1)
        let s := modLane l (fun x => { x with slips := (x.slips + q.argByte 8) % 65536, gap := true, rx := x.rx.slip n }) s
        (s, .done stOk [(16, 2, (s.lane l).slips)]) }

/-- LANE_SLIP (R280). -/
def execLaneSlip (p : Port) (sl : Fin 4) (s : State) : Out := runCmd laneSlipSpec p sl s

/-! ### Eye scans (R282 to R284, Table 10.17) -/

/-- Eyes of a lane: one for NRZ, three for PAM4; the endpoint's rates are NRZ. -/
def laneEyes (s : State) (l : Nat) : Nat := if !isPcieLane s l && isPam4 (s.lane l).cfg.rate then 3 else 1

/-- The scan that a request asks for. -/
def reqScan (q : Req) : EyeScan :=
  { mask := q.argByte 8, h0 := signed 8 (q.argByte 9), h1 := signed 8 (q.argByte 10), v0 := signed 8 (q.argByte 11)
    v1 := signed 8 (q.argByte 12), dwell := q.argByte 13, errmax := q.arg 14 2, buffer := q.arg 16 8
    waiter := some q.waiter }

def scanArgsOk (s : State) (l : Nat) (j : EyeScan) : Bool :=
  decide (-32 ≤ j.h0) && decide (j.h0 ≤ j.h1) && decide (j.h1 ≤ 31) && decide (-64 ≤ j.v0) && decide (j.v0 ≤ j.v1)
    && decide (j.v1 ≤ 63) && decide (j.mask < 2 ^ laneEyes s l) && decide (16 ≤ j.dwell) && decide (j.dwell ≤ 40)
    && (decide (j.buffer = 0) || (decide (j.buffer % 4096 = 0) && [0, 1, 2].all (fun e =>
      !j.mask.testBit e || !overlapsRange s (j.buffer + 32768 * e) 32768)))

/-- May a scan run: UP or TEST, clock recovery locked, and no depth that R290 forbids? -/
def scanAllowed (s : State) (l : Nat) : Bool :=
  let x := s.lane l
  if isPcieLane s l then s.io.pcie.up && decide (2 ≤ s.io.pcie.rate)
  else (decide (x.st = .up) || decide (x.st = .test)) && x.cdrLocked && decide (x.loopback ≠ 1)

def laneEyescanSpec : CmdSpec :=
  { opcode := 0x0504, targetOk := below 96, owners := ownLane
    body := fun q s =>
      let l := q.target
      let j := reqScan q
      if !scanArgsOk s l j then (s, .done stBadArg [])
      else if (s.lane l).scan.isSome then (s, .done stBusy [])
      else if !scanAllowed s l then (s, .done stDenied [])
      else (modLane l (fun x => { x with scan := some j }) s, .wait) }

/-- LANE_EYESCAN (R282). -/
def execLaneEyescan (p : Port) (sl : Fin 4) (s : State) : Out := runCmd laneEyescanSpec p sl s

/-- The integers from `a` to `b`. -/
def intRange (a b : Int) : List Int := (List.range (b - a + 1).toNat).map (fun (i : Nat) => a + (i : Int))

/-- Points of a scan in order: eye, v, h. -/
def scanPoints (j : EyeScan) : List (Nat × Int × Int) :=
  ([0, 1, 2].filter (fun e => j.mask.testBit e)).flatMap (fun e =>
    (intRange j.v0 j.v1).flatMap (fun v => (intRange j.h0 j.h1).map (fun h => (e, v, h))))

/-- Passing points, consecutive through 0, along one axis of up to 64 points each way. -/
def runThrough (pass : Int → Bool) : Nat :=
  let up := ((intRange 0 63).takeWhile pass).length
  let down := (((intRange 1 64).map (fun (i : Int) => -i)).takeWhile pass).length
  if pass 0 then up + down else 0

/-- Width and height of an eye. -/
def eyeSize (j : EyeScan) (pts : List ((Nat × Int × Int) × Nat)) (e : Nat) : Nat × Nat :=
  let good := (pts.filter (fun p => p.1.1 == e && decide (p.2 ≤ j.errmax))).map (fun p => p.1.2)
  (runThrough (fun h => good.contains (0, h)), runThrough (fun v => good.contains (v, 0)))

/-- Writes one count into the buffer as master 64 (R283). -/
def writeCount (j : EyeScan) (p : (Nat × Int × Int) × Nat) (s : State) : State :=
  let a := j.buffer + 32768 * p.1.1 + 4 * ((p.1.2.1 + 64) * 64 + (p.1.2.2 + 32)).toNat
  (writeLine 64 a (BitVec.ofNat 512 (min p.2 4294967295 * 256 ^ (a % 64)), BitVec.ofNat 64 (15 * 2 ^ (a % 64))) s).1

/-- A scan has counted every point. -/
def completeScan (l : Nat) (counts : List Nat) (s : State) : State :=
  match (s.lane l).scan with
  | none => s
  | some j =>
    let pts := (scanPoints j).zipIdx.map (fun p => (p.1, lget 0 counts p.2))
    let s := onlyIf (j.buffer != 0) (forEach pts (writeCount j)) s
    let sizes := [0, 1, 2].map (eyeSize j pts)
    let s := modLane l (fun x => { x with scan := none }) s
    replyOpt j.waiter stOk (sizes.zipIdx.flatMap (fun e => [(16 + 2 * e.2, 1, e.1.1), (17 + 2 * e.2, 1, e.1.2)])
      ++ [(22, 2, pts.length)]) s

/-- EYESCAN_COMPLETE (R283): the mismatches counted at each point, in the order of the scan. -/
def execEyescanComplete (lane : Fin 96) (counts : List Nat) (s : State) : Out :=
  occurs (s.awake && (s.lane lane.val).scan.isSome) (completeScan lane.val counts) s

/-- AGEING_EYESCAN (R277, R279): Cupola's scan of an UP lane with no user scan: the margins, the preset planned from them
(0 none), and the event when the margin lies below its planned bound, which the manual does not give. -/
def execAgeingEyescan (lane : Fin 96) (width height : Nat) (plan : Fin 6) (s : State) : Out :=
  let l := lane.val
  occurs (s.firmware && (if isPcieLane s l then s.io.pcie.up else laneRuns s l && decide ((s.lane l).st = .up))
      && (s.lane l).scan.isNone) (fun s =>
    let s := modLane l (fun x => { x with margin := some (width, height), planned := plan.val }) s
    useFree (onlyIf (Config.freeBool s.env.freeCtr)
      (raise (laneEvent 7 2 0x0A09 l [(1, width), (1, height), (1, plan.val)])) s)) s

/-! ### PRBS, injection, loopback (R285 to R290, Tables 10.18 to 10.20) -/

/-- A pattern suits a modulation. -/
def patternSuits (rate n : Nat) : Bool :=
  decide (n = 0) || (decide (rate ≠ 0) && if isPam4 rate then decide (n = 7 ∨ n = 8) else decide (n ≤ 6))

/-- Depths with which the generator and the checker may run. -/
def testCombines (gen chk depth : Nat) : Bool :=
  (decide (gen = 0) || decide (depth = 0 ∨ depth = 2)) && (decide (chk = 0) || decide (depth ≠ 1))

/-- A lane takes its test settings: into TEST, or out of it through STARTING. -/
def settleTest (l : Nat) (s : State) : State :=
  let x := s.lane l
  let on := decide (x.gen ≠ 0) || decide (x.chk ≠ 0) || decide (x.loopback ≠ 0)
  let s := onlyIf (x.loopback == 1) (endScan l) s
  if on then
    onlyIf (decide (x.st ≠ .test)) (testEvent l) (modLane l (fun x => { x with st := .test }) s)
  else if x.st = .test then
    let s := testEvent l s
    if x.cfg.mode = .off then modLane l (fun x => { x with st := .off }) s else startLane l (endScan l s)
  else s

/-- The rule of R286: a lane of a formed link takes its link down with `COMMAND` when FORCE is set. -/
def takeFromLink (l : Nat) (s : State) : State :=
  match linkOfLane s l with
  | some (k, _) => if (s.link k).st = .up ∨ (s.link k).st = .hello then dropLink k 6 s else s
  | none => s

/-- Results of `LANE_PRBS`. -/
def prbsResults (l : Nat) (s : State) : Results :=
  let x := s.lane l
  [(16, 1, bit x.chkLocked), (24, 8, x.chkBits), (32, 8, x.chkErrs)]

def setPrbs (q : Req) (l : Nat) (s : State) : State :=
  let f := q.argByte 10
  let s := takeFromLink l s
  let seed : BitVec 31 := freshBits 31 s
  settleTest l (useFree (modLane l (fun x =>
    let same := decide (x.chk = q.argByte 9) && decide (x.chkInv = f.testBit 1)
    { x with
      gen := q.argByte 8, chk := q.argByte 9, genInv := f.testBit 0, chkInv := f.testBit 1
      genReg := if x.gen = q.argByte 8 then x.genReg else seed ||| 1, loopLine := []
      chkLocked := x.chkLocked && same, chkRun := if same then x.chkRun else 0 }) s))

def lanePrbsSpec : CmdSpec :=
  { opcode := 0x0505, query := true, targetOk := below 96, owners := ownLane
    body := fun q s =>
      let l := q.target
      let clear := onlyIf ((q.argByte 10).testBit 2) (modLane l (fun x => { x with chkBits := 0, chkErrs := 0 }))
      let x := s.lane l
      if isPcieLane s l then (s, .done stDenied [])
      else if q.queryFlag then
        (clear s, .done stOk (prbsResults l s))
      else if !patternSuits x.cfg.rate (q.argByte 8) || !patternSuits x.cfg.rate (q.argByte 9) || decide (8 ≤ q.argByte 10) then
        (s, .done stBadArg [])
      else if (inLink s l && !q.force) || !testCombines (q.argByte 8) (q.argByte 9) x.loopback then (s, .done stDenied [])
      else
        let s := clear (setPrbs q l s)
        (s, .done stOk (prbsResults l s)) }

/-- LANE_PRBS (R285). -/
def execLanePrbs (p : Port) (sl : Fin 4) (s : State) : Out := runCmd lanePrbsSpec p sl s

/-- PRBS_CHECKER_LOCK (R285): 64 consecutive bits have matched. -/
def execPrbsCheckerLock (lane : Fin 96) (s : State) : Out :=
  let x := s.lane lane.val
  occurs (s.awake && decide (x.chk ≠ 0) && !x.chkLocked && decide (64 ≤ x.chkRun))
    (modLane lane.val (fun x => { x with chkLocked := true, chkHist := [] })) s

/-- PRBS_CHECKER_LOCK_LOST (R285): more than 256 of the last 1,024 bits were errors. -/
def execPrbsCheckerLockLost (lane : Fin 96) (s : State) : Out :=
  let x := s.lane lane.val
  occurs (s.awake && decide (x.chk ≠ 0) && x.chkLocked && decide (256 < x.chkHist.countP id))
    (modLane lane.val (fun x => { x with chkLocked := false, chkRun := 0, chkHist := [] })) s

def laneInjectSpec : CmdSpec :=
  { opcode := 0x0506, targetOk := below 96, owners := ownLane
    body := fun q s =>
      let l := q.target
      let n := q.arg 10 2
      let k := q.argByte 12
      if 2 ≤ q.argByte 8 ∨ n = 0 ∨ k < 10 ∨ 40 < k then (s, .done stBadArg [])
      else if isPcieLane s l || decide ((s.lane l).st = .off) then (s, .done stDenied [])
      else if (s.lane l).injectLeft ≠ 0 then (s, .done stBusy [])
      else (modLane l (fun x => { x with injectLeft := n, injectK := k, injectData := decide (q.argByte 8 = 1), flipped := 0 }) s,
        .done stOk []) }

/-- LANE_INJECT (R287). -/
def execLaneInject (p : Port) (sl : Fin 4) (s : State) : Out := runCmd laneInjectSpec p sl s

/-- INJECT_ERROR (R287): one bit of what the transmitter sends next is flipped, before the coding or behind it. -/
def execInjectError (lane : Fin 96) (s : State) : Out :=
  let l := lane.val
  occurs (s.awake && decide ((s.lane l).injectLeft ≠ 0)) (modLane l (fun x => { x with
    injectLeft := x.injectLeft - 1, flipped := x.flipped + 1
    dataFlips := x.dataFlips + bit x.injectData, lineFlips := x.lineFlips + bit !x.injectData })) s

/-- Depths permitted for a coding (Table 10.12); none on a lane that is OFF. -/
def depthFits (x : Lane) (d : Nat) : Bool :=
  decide (d = 0) || (decide (d ≤ 4) && decide (x.cfg.mode ≠ .off) && (decide (x.cfg.coding ≠ 0) || decide (d = 2 ∨ d = 3)))

def laneLoopbackSpec : CmdSpec :=
  { opcode := 0x0507, query := true, targetOk := below 96, owners := ownLane
    body := fun q s =>
      let l := q.target
      let d := q.argByte 8
      let x := s.lane l
      if isPcieLane s l then (s, .done stDenied [])
      else if q.queryFlag then (s, .done stOk [(16, 1, x.loopback)])
      else if !depthFits x d then (s, .done stBadArg [])
      else if (inLink s l && !q.force) || !testCombines x.gen x.chk d then (s, .done stDenied [])
      else
        let s := takeFromLink l s
        let s := settleTest l (modLane l (fun x => { x with loopback := d, loopLine := [] }) s)
        (s, .done stOk [(16, 1, d)]) }

/-- LANE_LOOPBACK (R288). -/
def execLaneLoopback (p : Port) (sl : Fin 4) (s : State) : Out := runCmd laneLoopbackSpec p sl s

/-! ### Locks (R269, R271) -/

/-- LANE_PLL_LOCKED (R269): every lane of the group that uses the PLL. -/
def execLanePllLocked (g : Fin 12) (pll : Fin 2) (s : State) : Out :=
  occurs s.awake (forBelow 8 (fun i s =>
    let l := 8 * g.val + i
    onlyIf (laneRuns s l && decide ((s.lane l).pll = pll.val)) (modLane l (fun x => { x with pllLocked := true })) s)) s

/-- LANE_PLL_LOCK_LOST (R271): a lane reset of every lane that uses the PLL; a link that loses an UP lane so meets a lane
fault (R308). -/
def execLanePllLockLost (g : Fin 12) (pll : Fin 2) (s : State) : Out :=
  let ls := ((List.range 8).map (fun i => 8 * g.val + i)).filter (fun l =>
    laneRuns s l && decide ((s.lane l).pll = pll.val) && (s.lane l).pllLocked)
  occurs (!ls.isEmpty) (fun s =>
    let s := raise { cls := 8, sev := 3, code := 0x0A03, kind := 0, details := [(1, g.val), (1, pll.val), (1, ls.length)] } s
    forEach ls (fun l s =>
      let s := resetLane l (modLane l (fun x => { x with pllLocked := false }) s)
      laneLeft l s) s) s

/-- A lane that has reached UP says so to its link. -/
def laneUp (l : Nat) (s : State) : State :=
  if (s.lane l).st = .up then laneJoined l (laneUpEvent l s) else s

/-- CDR_LOCKED (R269): to TRAINING when training is on, otherwise to LOCKING, or UP in PMA coding (R264). In TEST the lock
only serves the checker and the scan. -/
def execCdrLocked (lane : Fin 96) (s : State) : Out :=
  let l := lane.val
  let x := s.lane l
  occurs (laneRuns s l && x.pllLocked && !x.cdrLocked && (decide (x.st = .starting) || decide (x.st = .test))) (fun s =>
    let s := modLane l (fun x => { x with cdrLocked := true }) s
    if x.st = .test then s
    else if x.cfg.training ≠ 0 then enterTraining l s
    else laneUp l (lockLane l s)) s

/-- LANE_LOCK_ACQUIRED (R257, R259, R261, R269): the decoder has found its lock in what the lane received. -/
def execLaneLockAcquired (lane : Fin 96) (s : State) : Out :=
  let l := lane.val
  occurs (laneRuns s l && decide ((s.lane l).st = .locking) && (s.lane l).rx.synced) (fun s =>
    laneUp l (modLane l (fun x => { x with st := .up }) s)) s

/-- A lane leaves UP; the event's cause has no code in the manual: a free value. -/
def leaveUp (l : Nat) (dest : LaneSt) (s : State) : State :=
  let s := useFree (raise (laneEvent 8 2 0x0A02 l [(1, freshNat s), (1, dest.code)]) s)
  laneLeft l (endScan l s)

/-- LANE_LOCK_LOST (R269): the decoder has lost it. -/
def execLaneLockLost (lane : Fin 96) (s : State) : Out :=
  let l := lane.val
  occurs (laneRuns s l && decide ((s.lane l).st = .up) && decide ((s.lane l).cfg.coding ≠ 0) && !(s.lane l).rx.synced) (fun s =>
    leaveUp l .locking (bumpLane l 4 1 (modLane l (fun x => { x with st := .locking }) s))) s

/-- LANE_SIGNAL_LOST (R269). -/
def execLaneSignalLost (lane : Fin 96) (s : State) : Out :=
  let l := lane.val
  occurs (laneRuns s l && decide ((s.lane l).st = .up)) (fun s => leaveUp l .starting (startLane l s)) s

/-! ### Training (R274 to R276) -/

/-- Fields of a control word (Table 10.9). -/
def ctlPreset (c : BitVec 16) : Nat := (c.extractLsb' 12 3).toNat
def ctlTap (c : BitVec 16) : Nat := (c.extractLsb' 7 3).toNat
def ctlReq (c : BitVec 16) : Nat := (c.extractLsb' 5 2).toNat

/-- A control word without reserved bits or values. -/
def ctlValid (c : BitVec 16) : Bool :=
  decide (c &&& 0x8C1F#16 = 0) && decide (ctlPreset c ≤ 5) && decide (ctlTap c ≤ 4) && decide (ctlReq c ≤ 2)

/-- A status word (Table 10.10), without `RX_READY`. -/
def mkStatus (preset tap result : Nat) : BitVec 16 := BitVec.ofNat 16 (preset * 4096 + tap * 128 + result * 32)

/-- The partner's request is answered: applied, or refused at a limit of R272; hold returns the result to not updated. -/
def answerControl (c : BitVec 16) (x : Lane) : Lane :=
  let st := x.status
  let result := (st.extractLsb' 5 2).toNat
  if ctlPreset c = 0 ∧ ctlReq c = 0 then { x with status := mkStatus (ctlPreset st) (ctlTap st) 0 }
  else if result ≠ 0 then x
  else if ctlPreset c ≠ 0 then { x with taps := presetTaps (ctlPreset c), status := mkStatus (ctlPreset c) (ctlTap st) 1 }
  else
    let i := ctlTap c
    let up := decide (ctlReq c = 1)
    let taps := lput 0 x.taps i (lget 0 x.taps i + if up then 1 else -1)
    if tapsOk taps then { x with taps := taps, status := mkStatus (ctlPreset st) i 1 }
    else { x with status := mkStatus (ctlPreset st) i (if up then 3 else 2) }

/-- The request outstanding has been echoed with a result (R275). -/
def echoed (request status : BitVec 16) : Bool :=
  decide ((status.extractLsb' 5 2).toNat ≠ 0) &&
    if ctlPreset request ≠ 0 then decide (ctlPreset status = ctlPreset request) else decide (ctlTap status = ctlTap request)

/-- What the lane's receiver does next is its own: another request, a frame without one, or it has finished. -/
def adapt (ctr : Nat) (x : Lane) : Lane :=
  if x.rxReady then x
  else if Config.freeBool ctr then { x with rxReady := true }
  else
    let v := Config.freeNat ctr
    let req := if v % 2 = 0 then BitVec.ofNat 16 ((1 + v / 2 % 5) * 4096)
      else BitVec.ofNat 16 (v / 2 % 5 * 128 + (1 + v / 10 % 2) * 32)
    if Config.freeBool (ctr + 1) then x else { x with request := req }

/-- The request of the next frame (R275): one that the partner has echoed with a result gives way to hold, and a new one comes only
when the partner's result is back at not updated. -/
def nextRequest (status : BitVec 16) (ctr : Nat) (x : Lane) : Lane :=
  if x.request ≠ 0 then (if echoed x.request status then { x with request := 0 } else x)
  else if status.extractLsb' 5 2 = 0#2 then adapt ctr x else x

/-- The lane sends a training frame with its request and its status (R274); the pattern runs on from frame to frame. -/
def Lane.sendFrame (x : Lane) : Lane :=
  { x with trainReg := (trainingFrame (isPam4 x.cfg.rate) x.request x.status x.trainReg).2 }

/-- A training frame (R274 to R276): the lane answers it, and its own frame carries the pattern on. -/
def takeFrame (control status : BitVec 16) (ctr : Nat) (x : Lane) : Lane :=
  let x := answerControl control x
  let n := if status.getLsbD 4 then x.partnerReady + 1 else 0
  let x := nextRequest status ctr { x.sendFrame with partnerReady := n }
  let x := { x with status := if x.rxReady then x.status ||| 0x10#16 else x.status }
  if x.rxReady ∧ 3 ≤ x.partnerReady ∧ x.framesLeft = none then { x with framesLeft := some 32 } else x

/-- TRAINING_FRAME (R275). -/
def execTrainingFrame (lane : Fin 96) (control status : BitVec 16) (s : State) : Out :=
  let l := lane.val
  occurs (laneRuns s l && decide ((s.lane l).st = .training) && ctlValid control) (fun s =>
    useFree (useFree (modLane l (takeFrame control status s.env.freeCtr) s))) s

/-- TRAINING_DONE (R276): the 32 frames have been sent. -/
def execTrainingDone (lane : Fin 96) (s : State) : Out :=
  let l := lane.val
  occurs (laneRuns s l && decide ((s.lane l).st = .training) && (s.lane l).framesLeft.isSome) (fun s =>
    laneUp l (lockLane l (modLane l (fun x => { x with framesLeft := none, trainResult := 1 }) s))) s

/-- TRAINING_TIMEOUT (R276). -/
def execTrainingTimeout (lane : Fin 96) (s : State) : Out :=
  let l := lane.val
  occurs (laneRuns s l && decide ((s.lane l).st = .training)) (fun s =>
    let x := s.lane l
    if x.cfg.training = 2 then
      let s := raise (laneEvent 8 1 0x0A05 l [(1, x.cfg.preset)]) s
      laneUp l (lockLane l (modLane l (fun x => { x with taps := x.cfg.taps, trainResult := 2, framesLeft := none }) s))
    else startLane l (raise (laneEvent 8 2 0x0A04 l [(8, tapsField x.taps)]) s)) s

/-! ### Queue mode (R266 to R268) -/

/-- Does a lane deliver what it receives: UP, or TEST by a loopback without generator and checker (R286, R289)? -/
def Lane.delivers (x : Lane) : Bool :=
  decide (x.st = .up) || (decide (x.st = .test) && decide (x.gen = 0) && decide (x.chk = 0))

/-- A unit reaches the lane's item (R267). -/
def receiveUnit (l : Nat) (u : BitVec 64 × BitVec 8) (wrong : Bool) (s : State) : State :=
  if !sprueCredit s (s.lane l).cfg.rxQueue 1 then discardUnits l ((s.lane l).units.length + 1)
    (modLane l (fun x => { x with units := [], unitBad := false }) s)
  else
    let s := modLane l (fun x => { x with units := x.units ++ [u], unitBad := x.unitBad || wrong }) s
    if (s.lane l).units.length = 7 then commitItem l s else s

/-- The receiver works: clock recovery is locked, and the lane seeks its lock, carries traffic or is in TEST. -/
def receiving (s : State) (l : Nat) : Bool :=
  let x := s.lane l
  laneRuns s l && (decide (x.st = .locking) || decide (x.st = .up) || decide (x.st = .test)) && x.cdrLocked

/-- The levels that the receiver takes: of the line, or of the lane's own loop (R289). -/
def Lane.incoming (x : Lane) (line : List (Fin 4)) : List (Fin 4) :=
  if x.loopback = 1 ∨ x.loopback = 2 then x.loopLine.take line.length else line

/-- Received levels pass the checker and the decoder; a far-end loopback sends them back as they are or coded again (R285, R288). -/
def Lane.decode (l free : Nat) (x : Lane) (line : List (Fin 4)) : Lane × RxOut :=
  let v := x.incoming line
  let (bits, last) := fromLevels (isPam4 x.cfg.rate) x.cfg.precode (if x.loopback = 1 then x.cfg.txInvert else x.cfg.rxInvert) v x.rx.last
  let (rx, o) := takeBits x.cfg bits { x.rx with last := last }
  let x := { x with rx := rx, loopLine := if x.loopback = 1 ∨ x.loopback = 2 then x.loopLine.drop line.length else [] }
  let x := if x.chk = 0 then x else bits.foldl Lane.checkBit x
  (if x.loopback = 3 then { x with sent := v }
   else if x.loopback = 4 then x.sendUnits l free (o.units.map (·.1)) else x, o)

/-- LANE_FLUSH_TIMEOUT (R267). -/
def execLaneFlushTimeout (lane : Fin 96) (s : State) : Out :=
  let l := lane.val
  occurs (laneRuns s l && decide ((s.lane l).cfg.mode = .queue) && (s.lane l).delivers && !(s.lane l).units.isEmpty)
    (commitItem l) s

/-- Units of an item as the transmitter sends them: a byte marked as a K-symbol that is none goes as K30.7 (R258); with the
number of those. -/
def itemUnits (c : LaneCfg) (it : Line) : List (BitVec 64 × BitVec 8) × Nat :=
  let n := (byteOf it 63).toNat % 8 + 1
  ((List.range (min n 7)).map (fun u => (it.extractLsb' (64 * u) 64, byteOf it (56 + u)))).foldr (fun u acc =>
    if c.coding = 1 then
      let badK := (List.range 8).filter (fun i => u.2.getLsbD i && !kSymbols.contains (byteOf u.1 i).toNat)
      ((badK.foldl (fun (v : BitVec 64) i => putField v i 1 0xFE) u.1, u.2) :: acc.1, acc.2 + badK.length)
    else (u :: acc.1, acc.2)) ([], 0)

/-- The transmitter reads its source: UP, or TEST with depth 1 or 2 and no generator or checker (R286, R289). -/
def Lane.transmits (x : Lane) : Bool :=
  decide (x.st = .up) || (decide (x.st = .test) && decide (x.gen = 0) && decide (x.chk = 0) && decide (x.loopback ≤ 2))

/-- Reads one item of the transmit queue as its consumer, master 69: none when there is none to be had. -/
def readTxItem (q : Nat) (s : State) : State × Option Line :=
  let s := checkQueue q s
  let x := s.queue q
  if x.enabled && x.consumer == 69 && !(x.popHeld 1) then
    match popOne q s with
    | (s, some it) => (s, if it.bad then none else some it.bytes)
    | (s, none) => (s, none)
  else (s, none)

/-- LANE_TRANSMIT_ITEM (R268): the units of an item, or one idle unit; under the generator 64 bits of its pattern instead (R285). -/
def execLaneTransmitItem (lane : Fin 96) (s : State) : Out :=
  let l := lane.val
  let x := s.lane l
  if x.st = .test ∧ x.gen ≠ 0 then occurs (laneRuns s l) (modLane l (Lane.sendPattern 64)) s
  else occurs (laneRuns s l && decide (x.cfg.mode = .queue) && x.transmits) (fun s =>
    let free := freshNat s
    match readTxItem x.cfg.txQueue s with
    | (s, some it) =>
      let (us, badK) := itemUnits x.cfg it
      bumpLane l 7 badK (useFree (modLane l (fun y => { y.sendUnits l free us with txIdle := false }) s))
    | (s, none) =>
      bumpLane l 6 1 (useFree (modLane l (fun y => { y.sendUnits l free [idleUnit y.cfg] with txIdle := true }) s))) s

end Sys2Proof.Machine
end

