-- ==== Sys2Proof/Machine/Loading.lean ====
section
/-! DEFINITION. Meanings of the library and loading commands (chapter 7). -/

namespace Sys2Proof.Machine

/-- The master ID under which a port's commands act (Table 2.6). -/
def portMaster : Port → Nat
  | .mb0 => 65 | .mb3 => 70 | _ => 64

/-- `LIB_LOAD` once its arguments hold: accepted, or BUSY (R185, R188). Its target plane is INVALID from then on; one that a
fill is writing stays FILLING until that fill ends, which the new one waits for. -/
def acceptLoad (q : Req) (target : Option (Nat × Nat)) (s : State) : State × Answer :=
  let busy := match target with
    | none => false
    | some (r, p) =>
      let reg := s.region r
      decide ((reg.plane p).st = .active) || reg.planeTaken p
  if decide (8 ≤ s.lib.queue.length) || busy then (s, .done stBusy [])
  else
    let x : LoadReq := { flash := q.argByte 8 == 1, src := if q.argByte 8 = 1 then q.arg 16 4 else q.arg 16 8
                         index := q.arg 24 2, target := target, waiter := q.waiter
                         master := portMaster q.port }
    let s := match target with
      | none => s
      | some (r, p) => modPlane r p (fun y => { y with st := if y.st = .filling then .filling else .invalid }) s
    let first := s.lib.queue.isEmpty
    (onlyIf first startLoad (modLib (fun l => { l with queue := l.queue ++ [x] }) s), .wait)

/-- `LIB_LOAD` (Table 7.8). -/
def libLoadSpec : CmdSpec where
  opcode := 0x0100
  targetOk := belowOrDev 64
  owners := fun q _ => ownKey 4 0 :: (if q.target = 0xFFFF then [] else [ownKey 0 q.target])
  body := fun q s =>
    let p := q.argByte 26
    if 2 ≤ q.argByte 8 ∨ (q.target = 0xFFFF ∧ p ≠ 0xFF) ∨ (q.target ≠ 0xFFFF ∧ 4 ≤ p) then (s, .done stBadArg [])
    else acceptLoad q (if q.target = 0xFFFF then none else some (q.target, p)) s
def execLibLoad (p : Port) (sl : Fin 4) (s : State) : Out := runCmd libLoadSpec p sl s

/-- The end of the request at the front, and the start on the next (R186, R194). -/
def endProcessing (s : State) : State :=
  match s.lib.queue with
  | [] => s
  | q :: rest =>
    if s.dev.mode = .hold then stopLoads s
    else startLoad (finishLoad q (modLib (fun l => { l with queue := rest }) s))

/-- IMAGE_PROCESSING_END (R186). -/
def execImageProcessingEnd (s : State) : Out :=
  occurs (s.awake && (match s.lib.queue with | [] => false | q :: _ => !(q.flash && flashBusy s q.src))) endProcessing s

/-- Removes an entry; regions that record it record none (R184). -/
def removeEntry (i : Nat) (s : State) : State :=
  forBelow 64 (fun r s =>
    let reg := s.region r
    if decide (reg.record = some i) || (List.range 4).any (fun p => (reg.plane p).libIndex == some i) then
      modRegion r (fun x =>
        let x := (List.range 4).foldl (fun x p => x.modPlane p (fun y =>
          if y.libIndex = some i then { y with kept := false } else y)) x
        { x with record := if x.record = some i then none else x.record }) s
    else s) (modEntry i (fun _ => {}) s)

/-- Is a fill reading an entry? -/
def fillReads (i : Nat) (s : State) : Bool :=
  s.regions.any (fun e => match e.2.fill with | some f => f.index == i | none => false)

/-- `LIB_REMOVE` (Table 7.9). -/
def libRemoveSpec : CmdSpec where
  opcode := 0x0101
  targetOk := devTarget
  owners := fun _ _ => [ownKey 4 0]
  body := fun q s =>
    let i := q.arg 8 2
    let st := (s.entry i).st
    let pins := (pinning i s).length
    if s.lib.capacity ≤ i ∨ st = entryEmpty then (s, .done stBadArg [])
    else if st = entryLoading ∨ fillReads i s = true then (s, .done stBusy [])
    else if 0 < pins ∧ q.force = false then (s, .done stDenied [])
    else (raise (loadEvent 4 1 [(2, i), (1, pins)]) (removeEntry i s), .done stOk [(16, 2, pins)])
def execLibRemove (p : Port) (sl : Fin 4) (s : State) : Out := runCmd libRemoveSpec p sl s

/-- An entry's descriptor (Table 7.6) from byte 16 on. -/
def descriptor (i : Nat) (s : State) : Results := [(16, 64, leNat (descriptorBytes s i))]

/-- `LIB_QUERY` (Table 7.10). -/
def libQuerySpec : CmdSpec where
  opcode := 0x0102
  targetOk := devTarget
  body := fun q s =>
    let i := q.arg 8 2
    if s.lib.capacity ≤ i then (s, .done stBadArg [])
    else
      let ready := s.lib.entries.countP (fun e => decide (e.2.st = entryReady))
      (s, .done stOk (descriptor i s ++ [(80, 2, s.lib.capacity), (82, 2, ready), (84, 8, s.lib.base)]))
def execLibQuery (p : Port) (sl : Fin 4) (s : State) : Out := runCmd libQuerySpec p sl s

/-- The load begins (R190 steps 1 and 2). -/
def beginLoadActive (q : Req) (s : State) : State × Answer :=
  let r := q.target
  let p := q.argByte 8
  let cold := decide ((s.region r).power = .cold)
  let s := landEngines (· == r) (rewindRegion r (isolate r .load s))
  let s := modRegion r (fun x => { x with
    fill := some { plane := p, index := q.arg 10 2, active := true, waiter := some q.waiter }
    clockOn := false, grace := none, active := if cold then p else x.active, deferred := none }) s
  (onlyIf cold (startExit r none) (pauseSweeps r s), .wait)

/-- `LOAD_ACTIVE` (Table 7.11). -/
def loadActiveSpec : CmdSpec where
  opcode := 0x0103
  targetOk := below 64
  owners := ownRegion
  body := fun q s =>
    let r := q.target
    let reg := s.region r
    let p := q.argByte 8
    let i := q.arg 10 2
    if 4 ≤ p ∨ (reg.power ≠ .cold ∧ p ≠ reg.active) ∨ s.lib.capacity ≤ i ∨ (s.entry i).st ≠ entryReady then
      (s, .done stBadArg [])
    else if (s.entry i).fits r = false ∨ reg.retired = true then (s, .done stDenied [])
    else if reg.fill.isSome ∨ (match reg.slice with | some j => j.running | none => false) = true ∨ reg.trans.isSome then
      (s, .done stBusy [])
    else if reg.power.low ∧ reg.power ≠ .cold then (s, .done stRegionAsleep [])
    else beginLoadActive q s
def execLoadActive (p : Port) (sl : Fin 4) (s : State) : Out := runCmd loadActiveSpec p sl s

/-- LOAD_ACTIVE_COMPLETE (R190, R192). -/
def execLoadActiveComplete (r : Fin 64) (s : State) : Out :=
  match (s.region r.val).fill with
  | some f => occurs (s.awake && f.active && !(s.region r.val).power.low && (s.region r.val).trans.isNone)
      (endLoadActive r.val f) s
  | none => .next s

/-- A directory copy in the results of `FLASH_DIR_READ`: the header and up to two entries. -/
def dirResults (d : List Byte) (first : Nat) : Results :=
  let es := ((dirEntries d).drop first).take 2
  [(16, 64, leAt d 0 64), (80, 2, es.length)] ++ es.zipIdx.map (fun e => (84 + 64 * e.2, 64, leAt e.1.2 0 64))

/-- A directory copy is read and the request answered (Table 7.12). -/
def readDir (w : Waiter) (copy first : Nat) (s : State) : State :=
  match if copy = 0 then s.lib.dirInUse.map (·.2) else s.lib.dirCopy (copy - 1) with
  | none => reply w stFault [] s
  | some d => reply w stOk (dirResults d first) s

/-- Writes bytes into an HBM buffer as Cupola does; false when a line is refused. -/
def writeBuffer (a : Nat) (bs : List Byte) (s : State) : State × Bool :=
  let n := ceilDiv (a % 64 + bs.length) 64
  (List.range n).foldl (fun (acc : State × Bool) i =>
    let line := a / 64 * 64 + 64 * i
    let mine := fun (k : Nat) => decide (a ≤ line + k) && decide (line + k < a + bs.length)
    let data := lineOf ((List.range 64).map (fun k => if mine k then lget 0 bs (line + k - a) else 0))
    let be := BitVec.ofNat 64 ((List.range 64).foldl (fun m k => if mine k then m + 2 ^ k else m) 0)
    if acc.2 ∧ line < hbmBytes ∧ rightTo acc.1 .cupola true line = .granted then
      let (t, rc) := hbmWrite line 64 data be acc.1
      (t, decide (rc = rcOk))
    else (acc.1, false)) (s, true)

/-- A flash read by command: inline, or into HBM. -/
def flashRead (w : Waiter) (addr len : Nat) (hbm : Option Nat) (s : State) : State :=
  if s.lib.flashRoom addr < len then reply w stFault [] s
  else
    let bs := s.lib.flashBytes addr len
    match hbm with
    | none => reply w stOk ((List.range len).map (fun i => (16 + i, 1, (lget 0 bs i).toNat))) s
    | some a =>
      let (s, ok) := writeBuffer a bs s
      reply w (if ok then stOk else stFault) [] s

/-- A read that waits is performed once Cupola programs nothing on its device (R169, R504). -/
def runRead (j : FlashJob) (s : State) : State :=
  match j.use, j.waiter with
  | .read addr len hbm, some w => flashRead w addr len hbm s
  | .dirRead copy first, some w => readDir w copy first s
  | _, _ => s

/-- Does a read wait for a device that is being programmed or erased? Both directory copies lie on chip select 0. -/
def readWaits (s : State) (j : FlashJob) : Bool :=
  match j.use with
  | .read addr _ _ => flashBusy s addr
  | .dirRead _ _ => flashBusy s 0
  | _ => true

/-- The reads that have nothing left to wait for. -/
def runReads (s : State) : State :=
  let ready := s.lib.jobs.filter (fun j => !readWaits s j)
  forEach ready runRead (modLib (fun l => { l with jobs := l.jobs.filter (readWaits s) }) s)

/-- A read by command takes its place. -/
def addRead (use : FlashUse) (w : Waiter) (s : State) : State :=
  runReads (modLib (fun l => { l with jobs := l.jobs ++ [{ use := use, waiter := some w }] }) s)

/-- `FLASH_DIR_READ` (Table 7.12). -/
def flashDirReadSpec : CmdSpec where
  opcode := 0x0104
  targetOk := devTarget
  body := fun q s =>
    let c := q.argByte 8
    if 3 ≤ c ∨ 63 ≤ q.argByte 9 then (s, .done stBadArg [])
    else (addRead (.dirRead c (q.argByte 9)) q.waiter s, .wait)
def execFlashDirRead (p : Port) (sl : Fin 4) (s : State) : Out := runCmd flashDirReadSpec p sl s

end Sys2Proof.Machine
end

