-- ==== Sys2Proof/Machine/Planes.lean ====
section
/-! DEFINITION. Meanings of the plane, schedule, isolation and region reset commands (chapters 3, 5 and 6). -/

namespace Sys2Proof.Machine

/-! ### Slot boundaries (R147 to R163) -/

/-- A slot boundary at every region: the governor's decision of the last evaluation applies, then the region decides.
Where the regions are stopped nothing else takes effect (R59). -/
def slotBoundary (k : Nat) (s : State) : State :=
  let run := s.regionsRun
  let s := modTick (fun t => { t with slot := k, slot0Due := false, slots := t.slots + 1 }) s
  forBelow 64 (fun r s =>
    let s := onlyIf (k == 0 && fabricClocked s r) (modRegion r (fun x => { x with tickDue := true })) s
    let s := onlyIf run (modGovern r (fun g => { g with withheldNow := g.withheld })) s
    onlyIf run (fun s => fillForTest r (startPending r s)) (regionBoundary k r s)) s

/-- The slot that may begin: slot 0 after its tick boundary, a later one in its turn. -/
def slotFollows (s : State) (k : Nat) : Bool :=
  if s.tick.slot0Due then k == 0 else k == s.tick.slot + 1 && decide (k < s.tick.cfg.nslots)

/-- Does the tick generator run? From LOAD on (Table 3.1). -/
def State.ticking (s : State) : Bool := s.awake && decide (s.dev.base ≠ .boot)

/-- SLOT_BOUNDARY (R147). -/
def execSlotBoundary (k : Fin 16) (s : State) : Out :=
  occurs (s.ticking && slotFollows s k.val) (slotBoundary k.val) s

/-- A pending change of a region, where regions run. -/
def graceOf (s : State) (r : Nat) : Option Decision :=
  if s.regionsRun && decide ((s.region r).power = .active) then (s.region r).grace else none

/-- DELAYED_SWITCH (R153). -/
def execDelayedSwitch (r : Fin 64) (s : State) : Out :=
  match graceOf s r.val with
  | some d => occurs (!(s.region r.val).pins.holdSwitch) (carryOut r.val d 3 1) s
  | none => .next s

/-- GRACE_EXPIRY (R153). -/
def execGraceExpiry (r : Fin 64) (s : State) : Out :=
  match graceOf s r.val with
  | some d => occurs (s.region r.val).pins.holdSwitch (overrun r.val d) s
  | none => .next s

/-! ### Commands of chapter 6 -/

/-- `SCHEDULE_SET` (Table 6.11). -/
def scheduleSetSpec : CmdSpec where
  opcode := 0x0201
  query := true
  targetOk := below 64
  owners := ownRegion
  body := fun q s =>
    let r := q.target
    let bs := q.argBytes 8 39
    if q.queryFlag then (s, .done stOk (schedResults (s.region r).sched))
    else if schedValid bs = false then (s, .done stBadArg [])
    else if (s.region r).shadow.isSome then (s, .done stBusy [])
    else (modRegion r (fun x => { x with shadow := some (schedOf bs, some q.waiter) }) s, .wait)
def execScheduleSet (p : Port) (sl : Fin 4) (s : State) : Out := runCmd scheduleSetSpec p sl s

/-- `PLANE_FILL` (Table 6.12). -/
def planeFillSpec : CmdSpec where
  opcode := 0x0202
  targetOk := below 64
  owners := ownRegion
  body := fun q s =>
    let r := q.target
    let reg := s.region r
    let p := q.argByte 8
    let i := q.arg 10 2
    if 4 ≤ p ∨ s.lib.capacity ≤ i ∨ (s.entry i).st ≠ entryReady then (s, .done stBadArg [])
    else if p = reg.active ∨ (s.entry i).fits r = false then (s, .done stDenied [])
    else if reg.fill.isSome ∨ reg.planeTaken p = true then (s, .done stBusy [])
    else if reg.fillable = false then (s, .done stRegionAsleep [])
    else (startFill r { plane := p, index := i, waiter := some q.waiter } s, .wait)
def execPlaneFill (p : Port) (sl : Fin 4) (s : State) : Out := runCmd planeFillSpec p sl s

/-- Does an accepted load, or a fill that waits, replace what stands in a plane (R188)? -/
def aboutToReplace (s : State) (r p : Nat) : Bool :=
  s.lib.queue.any (fun q => decide (q.target = some (r, p))) || (s.region r).fillWait.any (fun f => f.plane == p)

/-- A fill in progress ends, and the next one starts. A plane that is about to be replaced is INVALID again (R188). -/
def completeFill (r : Nat) (f : FillJob) (s : State) : State :=
  let s := (endFill r f (modRegion r (fun x => { x with fill := none }) s)).1
  let s := onlyIf (aboutToReplace s r f.plane) (modRegion r (fun x => x.modPlane f.plane (fun q => { q with st := .invalid }))) s
  runIsolated r (nextFill r s)

/-- PLANE_FILL_COMPLETE (R130). -/
def execPlaneFillComplete (r : Fin 64) (s : State) : Out :=
  match (s.region r.val).fill with
  | some f => occurs (s.awake && !f.active) (completeFill r.val f) s
  | none => .next s

/-- A clear of the persistent override (R149). -/
def clearOverride (r : Nat) (s : State) : State × Answer :=
  let reg := s.region r
  let had := reg.persistOv.isSome || (match reg.pendingOv with | some o => o.persistent | none => false)
  let s := match reg.pendingOv with
    | some o => if o.persistent then
        replyOpt o.waiter stOk [(16, 1, 3), (17, 1, reg.active)] (modRegion r (fun x => { x with pendingOv := none }) s)
      else s
    | none => s
  (modRegion r (fun x => { x with persistOv := none }) s,
    .done stOk [(16, 1, if had then 0 else 3), (17, 1, reg.active)])

/-- `PLANE_OVERRIDE` (Table 6.13). -/
def planeOverrideSpec : CmdSpec where
  opcode := 0x0203
  targetOk := below 64
  owners := ownRegion
  body := fun q s =>
    let r := q.target
    let reg := s.region r
    let p := q.argByte 8
    let w := q.argByte 9
    let d := q.argByte 10
    if 3 ≤ d then (s, .done stBadArg [])
    else if d = 2 then clearOverride r s
    else if 4 ≤ p ∨ (6 ≤ w ∧ w ≠ 0xFF) then (s, .done stBadArg [])
    else if reg.pendingOv.isSome then (s, .done stBusy [])
    else if reg.mayTake p = false then (s, .done stInvalidPlane [(16, 1, 3), (17, 1, reg.active)])
    else
      let o : Override := { plane := p, power := Power.ofCode w, persistent := d == 1, atTick := q.atTick
                            force := q.force, owner := q.port, waiter := some q.waiter }
      (modRegion r (fun x => { x with pendingOv := some o }) s, .wait)
def execPlaneOverride (p : Port) (sl : Fin 4) (s : State) : Out := runCmd planeOverrideSpec p sl s

/-- The results of `PLANE_STATUS` (Table 6.14). -/
def planeStatusResults (r : Nat) (s : State) : Results :=
  let x := s.region r
  [(16, 1, x.active), (17, 1, x.slotOut)]
    ++ (List.range 4).map (fun p => (18 + p, 1, (x.plane p).st.code))
    ++ (List.range 4).map (fun p => (22 + 2 * p, 2, (x.plane p).libIndex.getD 0xFFFF))
    ++ [(30, 1, x.power.code),
        (31, 1, bit x.isolated + 2 * bit (match x.slice with | some j => j.running | none => false)
          + 4 * bit x.persistOv.isSome + 8 * bit x.activeBarred),
        (32, 4, x.skips), (36, 4, x.forced), (40, 4, x.granted), (44, 4, x.lost)]

/-- `PLANE_STATUS` (Table 6.14). -/
def planeStatusSpec : CmdSpec where
  opcode := 0x0204
  targetOk := below 64
  body := fun q s =>
    let r := q.target
    let res := planeStatusResults r s
    if 2 ≤ q.argByte 8 then (s, .done stBadArg [])
    else if q.argByte 8 = 0 then (s, .done stOk res)
    else
      let (s, st) := claimOne q (ownKey 0 r) s
      (onlyIf (st == stOk) (modRegion r (fun x => { x with skips := 0, forced := 0, granted := 0, lost := 0 })) s,
        .done st res)
def execPlaneStatus (p : Port) (sl : Fin 4) (s : State) : Out := runCmd planeStatusSpec p sl s

/-! ### Commands of chapter 5 -/

/-- SPINE_CONTENTION (R116): the detector watches the enables of the active plane. -/
def execSpineContention (r : Fin 64) (spine : Fin 64) (s : State) : Out :=
  let x := s.region r.val
  occurs (s.awake && contended (x.now.use.enables spine.val) && !x.spineDisable.getLsbD spine.val)
    (tripSpine r.val spine.val) s

/-- The plane that the schedule names for the next slot: at the next tick, the table that takes effect there. -/
def nextSlotPlane (s : State) (r : Nat) : Nat :=
  let x := s.region r
  let k := s.tick.slot + 1
  if s.tick.slot0Due then entryPlane (x.entry 0)
  else if k < s.tick.cfg.nslots then entryPlane (x.entry k)
  else entryPlane (match x.shadow with
    | some (c, _) => lget 0 c.entries 0
    | none => x.entry 0)

/-- Causes that a release ends: not those of a start, a reset, a load, TEST, the clock floor or retirement. -/
def releasable : IsoCause → Bool
  | .command | .wire | .frame | .checker | .slice => true
  | _ => false

/-- A release by command (Table 5.5, R125). -/
def releaseRegion (q : Req) (s : State) : State × Answer :=
  let r := q.target
  let x := s.region r
  let p := nextSlotPlane s r
  let st := (x.plane p).st
  if x.retired = true ∨ x.loadingActive = true ∨ x.iso.contains .reset = true ∨ x.iso.contains .boot = true
      ∨ x.resets ≠ [] then (s, .done stDenied [])
  else if x.power.deep then (s, .done stRegionAsleep [])
  else if st = .invalid ∨ st = .barred ∨ (p = x.active ∧ x.activeBarred = true) then
    (s, .done stInvalidPlane [])
  else
    let cs := x.iso.filter releasable
    if cs.isEmpty then (s, .done stOk (isolateResults r s))
    else (modRegion r (fun y => { y with freeDue := y.freeDue ++ cs.filter (fun c => !y.freeDue.contains c)
                                         freeWait := y.freeWait ++ [q.waiter] }) s, .wait)

/-- `REGION_ISOLATE` (Table 5.5). -/
def regionIsolateSpec : CmdSpec where
  opcode := 0x0004
  query := true
  targetOk := below 64
  owners := ownRegion
  body := fun q s =>
    let r := q.target
    if q.queryFlag then (s, .done stOk (isolateResults r s))
    else match q.argByte 8 with
      | 0 =>
        if q.atTick then (modRegion r (fun x => { x with isoDue := x.isoDue ++ [q.waiter] }) s, .wait)
        else (isolateByCommand r q.waiter s, .wait)
      | 1 => releaseRegion q s
      | _ => (s, .done stBadArg [])
def execRegionIsolate (p : Port) (sl : Fin 4) (s : State) : Out := runCmd regionIsolateSpec p sl s

/-- Re-enables the spines of a mask that have at most one enable (R117); false when one still has two. -/
def enableSpines (r mask : Nat) (s : State) : State × Bool :=
  (List.range 64).foldl (fun (acc : State × Bool) k =>
    let (s, ok) := acc
    let x := s.region r
    if mask.testBit k && x.spineDisable.getLsbD k then
      if contended (x.now.use.enables k) then (s, false)
      else
        let s := modRegion r (fun y => { y with
          spineDisable := y.spineDisable &&& ~~~(BitVec.ofNat 64 (2 ^ k)), spineOff := y.spineOff ||| BitVec.ofNat 64 (2 ^ k) }) s
        (raise (regEvent 3 1 0x0502 r [(1, k)]) s, ok)
    else acc) (s, true)

/-- `SPINE_ENABLE` (Table 5.6). -/
def spineEnableSpec : CmdSpec where
  opcode := 0x0940
  query := true
  targetOk := below 64
  owners := ownRegion
  body := fun q s =>
    let r := q.target
    let res := fun (s : State) => ([(16, 8, (s.region r).spineDisable.toNat)] : Results)
    if q.queryFlag then (s, .done stOk (res s))
    else
      let (s, ok) := enableSpines r (q.arg 8 8) s
      (s, .done (if ok then stOk else stFault) (res s))
def execSpineEnable (p : Port) (sl : Fin 4) (s : State) : Out := runCmd spineEnableSpec p sl s

/-- `DEFECT_MAP_READ` (Table 5.7). -/
def defectMapReadSpec : CmdSpec where
  opcode := 0x0C20
  targetOk := below 64
  body := fun q s =>
    let m := s.defectMap q.target
    let first := q.arg 8 2
    if m.length < first then (s, .done stBadArg [])
    else
      let out := (m.drop first).take 58
      (s, .done stOk ([(16, 2, m.length), (18, 2, out.length)]
        ++ out.zipIdx.map (fun e => (20 + 4 * e.2, 4, e.1.toNat))))
def execDefectMapRead (p : Port) (sl : Fin 4) (s : State) : Out := runCmd defectMapReadSpec p sl s

/-! ### Region resets (R66 to R68) -/

/-- `REGION_RESET` scopes (Table 3.10). -/
def scopeOf : Nat → Option ResetScope
  | 0 => some .region | 1 => some .cope | 2 => some .drag | _ => none

/-- `REGION_RESET` (Table 3.10). -/
def regionResetSpec : CmdSpec where
  opcode := 0x0003
  targetOk := below 64
  owners := ownRegion
  body := fun q s =>
    let r := q.target
    match scopeOf (q.argByte 8) with
    | none => (s, .done stBadArg [])
    | some scope =>
      if q.atTick then
        (modRegion r (fun x => { x with
          resets := x.resets ++ [{ scope := scope, atTick := true, waiter := some q.waiter }] }) s, .wait)
      else tryReset r scope q.waiter s
def execRegionReset (p : Port) (sl : Fin 4) (s : State) : Out := runCmd regionResetSpec p sl s

/-- The 1 µs of the reset that began first ends; with no other one left, isolation ends at the next slot boundary. -/
def endReset (r : Nat) (s : State) : State :=
  let s := modRegion r (fun x => { x with resets := x.resets.eraseP (fun j => j.begun) }) s
  resumeSweeps r false (onlyIf (!(s.region r).resets.any (fun j => j.begun))
    (modRegion r (fun x => { x with freeDue := x.freeDue ++ [.reset] })) s)

/-- REGION_RESET_END (R67). -/
def execRegionResetEnd (r : Fin 64) (s : State) : Out :=
  occurs ((s.region r.val).resets.any (fun j => j.begun)) (endReset r.val) s

end Sys2Proof.Machine
end

