-- ==== Sys2Proof/Machine/Tick.lean ====
section
/-! DEFINITION. Meanings of the tick's events and command (R135 to R141, R353 to R356): alignment to `TICK_IN` and to
Sprue time, and everything that takes effect at a tick boundary. -/

namespace Sys2Proof.Machine

/-! ### Alignment -/

/-- Alignment begins afresh (R141). -/
def TickGen.afresh (t : TickGen) : TickGen :=
  { t with
    align := 0, stepCount := 0, missCount := 0, holdover := false, edgesSeen := false, edgeThisTick := false
    stepping := false, numbered := false, nextAdjust := 0 }

def tickEvent (row sev : Nat) (details : List (Nat × Nat)) : EvRec :=
  { cls := 0x0B, sev := sev, code := 0x0600 + row, kind := 0, details := details }

/-- A signed value in `n` bytes. -/
def signedBytes (n : Nat) (v : Int) : Nat := (v % (256 ^ n : Nat)).toNat

/-- A reference with error `e`, scaled so that `unit` is one tick unit (R137): no correction, slew, or one more toward
a step. -/
def takeReference (e : Int) (unit : Nat) (s : State) : State :=
  let s := modTick (fun t => { t with edgesSeen := true, edgeThisTick := true, missCount := 0 }) s
  if e.natAbs ≤ unit then
    let was := s.tick.holdover
    let s := modTick (fun t => { t with align := 1, stepCount := 0, holdover := false, nextAdjust := 0 }) s
    onlyIf was (raise (tickEvent 9 1 [(1, s.tick.cfg.source.toNat)])) s
  else if e.natAbs ≤ 64 * unit then
    modTick (fun t => { t with align := 2, stepCount := 0, nextAdjust := if 0 < e then 1 else -1 }) s
  else
    let n := s.tick.stepCount + 1
    onlyIf (n == 8) (modTick (fun t => { t with stepping := true, align := 2 }))
      (modTick (fun t => { t with stepCount := n, nextAdjust := 0 }) s)

/-- A step is made: the tick's boundary lies at this reference, and the tick is aligned. -/
def makeStep (units : Int) (s : State) : State :=
  let was := s.tick.holdover
  let s := modTick (fun t => { t with
    stepping := false, stepCount := 0, steps := satAdd 4294967295 t.steps 1, missCount := 0
    edgesSeen := true, edgeThisTick := true, align := 1, holdover := false, nextAdjust := 0 }) s
  onlyIf was (raise (tickEvent 9 1 [(1, s.tick.cfg.source.toNat)])) (raise (tickEvent 7 1 [(4, signedBytes 4 units)]) s)

/-- A rising edge of `TICK_IN`, `pos` tick units after the last tick boundary (R137): the error is measured against the
nearer boundary of the tick in progress, with the length that the tick has. -/
def tickInEdge (pos : Nat) (s : State) : State :=
  let n := s.tick.length
  let e : Int := if 2 * pos ≤ n then pos else (pos : Int) - n
  if s.tick.stepping then if n ≤ pos then makeStep ((pos : Int) - n) s else s
  else takeReference e 1 s

/-- TICK_IN_EDGE (R137): an edge counts with source TICK_IN while the tick generator runs; a tick that is held open for a
step lasts at most one period longer. -/
def execTickInEdge (pos : Nat) (s : State) : Out :=
  occurs (s.ticking && s.tick.cfg.source == 1#2
      && decide (pos ≤ if s.tick.stepping then s.tick.length + s.tick.cfg.period else s.tick.length))
    (tickInEdge pos) s

/-- TICK_HOLDOVER (R137): four consecutive ticks without a reference, after references have been seen. -/
def execTickHoldover (s : State) : Out :=
  occurs (s.ticking && s.tick.cfg.source != 0#2 && s.tick.edgesSeen && s.tick.align != 3#2 && decide (4 ≤ s.tick.missCount))
    (fun s =>
      let s := modTick (fun t => { t with holdover := true, align := 3, nextAdjust := 0 }) s
      raise (tickEvent 8 2 [(1, s.tick.cfg.source.toNat)]) s) s

/-- `TICK_CONFIG` (R141, Table 6.10). -/
def tickConfigSpec : CmdSpec where
  opcode := 0x0200
  query := true
  portOk := fun q => q.queryFlag || mb01 q
  targetOk := devTarget
  body := fun q s =>
    let bs := q.argBytes 8 68
    if q.queryFlag then (s, .done stOk (tickCfgResults s.tick.cfg))
    else if tickCfgValid bs = false then (s, .done stBadArg [])
    else if s.tick.shadow.isSome then (s, .done stBusy [])
    else (modTick (fun t => { t with shadow := some (tickCfgOf bs, some q.waiter) }) s, .wait)
def execTickConfig (p : Port) (sl : Fin 4) (s : State) : Out := runCmd tickConfigSpec p sl s

/-! ### The tick boundary -/

/-- The tick number advances; a tick without a reference counts toward holdover, and a step that found none is given
up (R137, R139). What `TICK_STATE.ALIGN` reads then is not said: the model has free-running (DESIGN CHOICE,
notes/assumptions/48.md). -/
def advanceTick (s : State) : State :=
  modTick (fun t => { t with
    number := t.number + 1, slot0Due := true, startAt := s.env.now, ticks := t.ticks + 1
    adjust := t.nextAdjust, nextAdjust := 0
    missCount := if t.edgesSeen && !t.edgeThisTick then t.missCount + 1 else t.missCount
    edgeThisTick := false
    stepCount := if t.stepping then 0 else t.stepCount
    stepping := false
    align := if t.stepping then 0 else t.align }) s

/-- The configuration that waits changes the source or the period: alignment starts afresh (R141). -/
def TickGen.freshDue (t : TickGen) : Bool :=
  match t.shadow with
  | some (c, _) => c.source != t.cfg.source || c.period != t.cfg.period
  | none => false

/-- The tick configuration that waits (R141). -/
def applyTickShadow (s : State) : State :=
  match s.tick.shadow with
  | none => s
  | some (c, w) =>
    let fresh := s.tick.freshDue
    let s := modTick (fun t =>
      let t := if fresh then { t.afresh with adjust := 0 } else t
      { t with cfg := c, shadow := none }) s
    replyOpt w stOk (tickCfgResults c) s

/-- The tick number that the parent has at this boundary (R356): its last one, carried by the time since. -/
def parentNumber (l : Nat) (s : State) : Option (BitVec 64) :=
  match (s.link l).timeRx with
  | none => none
  | some (p, at_) =>
    let period := tickTime (fieldOf p 42 4)
    let since : Int := (fieldOf p 32 4 : Int) + s.sys.delay + ((s.env.now - at_ : Nat) : Int)
    let whole : Int := if period = 0 then 0 else (2 * since + period) / (2 * period)
    some (BitVec.ofNat 64 (fieldOf p 24 8) + BitVec.ofInt 64 whole)

/-- The tick number taken from the parent; reported when the node was aligned already (R356). -/
def setNumber (l : Nat) (report : Bool) (s : State) : State :=
  match parentNumber l s with
  | none => s
  | some n =>
    let old := s.tick.number
    if old = n then modTick (fun t => { t with numbered := true }) s
    else onlyIf report (raise { cls := 0x0B, sev := 1, code := 0x0C0A, kind := 0, details := [(8, old.toNat), (8, n.toNat)] })
      (modTick (fun t => { t with number := n, numbered := true }) s)

/-- The Sprue reference of the tick that has ended (R353 to R356). R353's error is this node's boundary measured from
the parent's, the negative of R137's. -/
def sprueReference (l : Nat) (changed stepping : Bool) (s : State) : State :=
  let e : Int := -3 * s.sys.lastE
  if stepping then setNumber l false (makeStep (e / 2048) s)
  else
    let s := takeReference e 2048 s
    let first := s.tick.align == 1#2 && !s.tick.numbered
    if changed || first then setNumber l false s
    else if s.tick.align == 1#2 then setNumber l true s else s

/-- Sprue time at a tick boundary: the parent, its reference, and the flits of the past tick. A reference of the tick that
has ended says nothing of the new one (R355), and none is taken where alignment starts afresh (R141). -/
def sprueBoundary (stepping fresh : Bool) (s : State) : State :=
  let (s, changed) := settleParent s
  let s := onlyIf (changed && s.tick.cfg.source == 2#2)
    (modTick (fun t => { t with missCount := 0, stepCount := 0 })) s
  let s := match s.sys.parent with
    | some l => onlyIf (s.tick.cfg.source == 2#2 && !fresh && (s.link l).timeInTick)
        (fun s => modTick (fun t => { t with edgeThisTick := false }) (sprueReference l changed stepping s)) s
    | none => s
  forEach (s.links.map (·.1)) (fun l => modLink l (fun x => { x with timeInTick := false })) s

/-- A region's schedule table and fabric clock that wait (R144, R423). -/
def applyRegionShadows (r : Nat) (s : State) : State :=
  let s := match (s.region r).shadow with
    | none => s
    | some (c, w) => replyOpt w stOk (schedResults c) (modRegion r (fun x => { x with sched := c, shadow := none }) s)
  match (s.region r).kShadow with
  | none => s
  | some (k, w) =>
    reply w stOk (regionClockResults r k (min k (s.kPlan r)) s)
      (modRegion r (fun x => { x with kSet := some k, kShadow := none }) s)

/-- The result fields of `DEVICE_MODE` (Table 3.8). -/
def modeResults (s : State) : Results := [(16, 4, devState s), (20, 8, s.dev.modeTick.toNat)]

/-- `DEVICE_MODE` FROZEN, RESUME and RELEASE take effect (R59, R393). -/
def applyMode (c : Nat) (d : Device) : Device :=
  match c with
  | 1 => { d with frozenCmd := true }
  | 2 => { d with frozenCmd := false }
  | _ => { d with hold := false, alarm := false, rangesClosed := false }

/-- A mode request of this boundary. RESUME and RELEASE may be refused with `FAULT`, and when is not said: a free choice; the
outage of R64 begins with a RESUME so refused (notes/assumptions/26.md). -/
def takeMode (c : Nat × Waiter) (s : State) : State :=
  if c.1 ≠ 1 ∧ Config.freeBool s.env.freeCtr = true then
    let s := useFree (onlyIf (c.1 == 2 && s.dev.mode == .frozen && s.dev.resumeRefused.isNone)
      (modDev (fun d => { d with resumeRefused := some (s.tick.number, s.env.now) })) s)
    reply c.2 stFault (modeResults s) s
  else
    let s := settleMode 0x10 (modDev (applyMode c.1) (onlyIf (c.1 != 1) useFree s))
    reply c.2 stOk (modeResults s) s

/-- Mode requests of this boundary, and the stopping of the regions (R59). -/
def modeBoundary (s : State) : State :=
  let due := s.dev.modeDue
  let s := modDev (fun d => { d with modeDue := [] }) s
  let s := forEach due takeMode s
  let stop := decide (s.dev.base = .running) && (s.dev.hold || s.dev.frozenCmd)
  onlyIf (stop && !s.dev.stopped) (landEngines (fun _ => true)) (modDev (fun d => { d with stopped := stop }) s)

/-- Throttle is entered or left (R451). -/
def throttleBoundary (s : State) : State :=
  let t := s.therm
  if t.throttleDue = t.throttled then s
  else
    let s := modTherm (fun u => { u with throttled := u.throttleDue }) s
    let s := raise (thermEvent 2 (if t.throttleDue then 2 else 1) 7 t.hottest
      (hotDetails t ++ [(8, s.tick.number.toNat)])) s
    forBelow 4 domainNext s

/-- Cupola's plan at a tick boundary (R434, R457, R458). -/
def planBoundary (s : State) : State :=
  let down := s.therm.stepDown
  let s := forEach down stepDownRegion (modTherm (fun t => { t with stepDown := [] }) s)
  let s := stepCope (forBelow 64 applyPlanMax s)
  onlyIf (!down.isEmpty) rePlan s

/-- The results of `INGOT_BANKS` (Table 8.9). -/
def ingotResults (s : State) : Results :=
  let act := s.activeBanks
  [(16, 8, act.foldl (fun n b => n + 2 ^ b) 0), (24, 1, act.length), (28, 4, 1024 * act.length)]

/-- A list of distinct numbers with one more. -/
def insNat (x : Nat) (l : List Nat) : List Nat := if l.contains x then l else l ++ [x]

/-- The hard-fault records of a retired bank (R411); a bank has no location of its own: a free value. -/
def retireBank (b : Nat) (s : State) : State :=
  if s.integ.log.any (fun e => e.2.kind == 5 && e.2.place == b) then
    useFree (raise (retiredEvent (.region b) 5 (freshNat s)) (markRetired 5 b (fun _ => true) s))
  else s

/-- An Ingot bank is retired or restored (R212). -/
def ingotBoundary (s : State) : State :=
  match s.ingot.change with
  | none => s
  | some (retire, b, w) =>
    let s := modIngot (fun g => { g with
      change := none, retired := if retire then insNat b g.retired else g.retired.filter (· != b) }) s
    let s := settleMode (isoChangeCause s) s
    let s := onlyIf retire (retireBank b) s
    let s := raise { cls := 3, sev := 2, code := 0x0803, kind := 10, src := b,
                     details := [(1, b), (1, s.activeBanks.length), (8, s.tick.number.toNat)] } s
    reply w stOk (ingotResults s) s

/-- AT_TICK resets and isolations of a region (Tables 3.10 and 5.5). -/
def regionDues (r : Nat) (s : State) : State :=
  let due := (s.region r).resets.filter (fun j => j.atTick)
  let s := onlyIf (!due.isEmpty)
    (modRegion r (fun x => { x with resets := x.resets.filter (fun j => !j.atTick) })) s
  let s := forEach due (fun j s => match j.waiter with
    | none => s
    | some w =>
      let (s, a) := tryReset r j.scope w s
      answer w a s) s
  let iso := (s.region r).isoDue
  forEach iso (isolateByCommand r) (onlyIf (!iso.isEmpty) (modRegion r (fun x => { x with isoDue := [] })) s)

/-- T0 of the start-up release (R72, Table 3.6): every region of the boot pattern has loaded. -/
def releaseBoundary (s : State) : State :=
  if s.dev.base = .load ∧ s.dev.loadDone = true ∧ s.dev.release = .none ∧ s.dev.hold = false then
    let s := modDev (fun d => { d with base := .running, release := .t0 }) s
    let s := forBelow 64 (fun r => onlyIf ((s.region r).iso.contains .boot)
      (modRegion r (fun x => { x with ffHeld := false, clockOn := true }))) s
    settleMode 0x12 s
  else s

/-- Everything that a tick boundary does (R137 to R141, R144, R292, R423, R451, R458, R212). -/
def tickBoundary (s : State) : State :=
  let stepping := s.tick.stepping
  let fresh := s.tick.freshDue
  let s := applyTickShadow (advanceTick s)
  let s := sprueBoundary stepping fresh s
  let s := applyLaneShadows (forBelow 64 applyRegionShadows s)
  let s := throttleBoundary (modeBoundary s)
  let s := onlyIf s.firmware planBoundary s
  let s := ingotBoundary s
  let s := releaseBoundary (forBelow 64 regionDues s)
  forBelow 64 (fun r => modTest r (fun t => { t with ticksSince := t.ticksSince.map (fun n => satAdd 4294967295 n 1) })) s

/-- TICK_BOUNDARY (R139). -/
def execTickBoundary (s : State) : Out := occurs s.ticking tickBoundary s

end Sys2Proof.Machine
end

