-- ==== Sys2Proof/Machine/StartOps.lean ====
section
/-! DEFINITION. Resets of the whole device (R66, R69, Table 3.3), the start-up of Table 3.5 from the Cupola ROM to the
release (R72 to R78, R172, R189, R380), and the entries into STANDBY, TEST and RECOVERY (Table 3.2). -/

namespace Sys2Proof.Machine

/-! ### What resets keep (Table 3.3) -/

/-- A region after a reset: COLD and isolated, with what the ledger keeps of it (R123, R458); a retired region stays one
until a power-on reset (R126). -/
def keptRegion (warm : Bool) (s : State) (r : Nat) : Region :=
  let x := s.region r
  let retired := warm && x.retired
  let y : Region :=
    { defects := x.defects, retired := retired
      iso := [.unloaded] ++ (if retired then [.retired] else [])
        ++ (if s.therm.floorOut.contains r then [.floor] else []) }
  if retired then (List.range 4).foldl (fun y p => y.modPlane p (fun q => { q with st := .barred })) y else y

def keptRegions (warm : Bool) (s : State) : Table Region :=
  (List.range 64).foldl (fun t r => tset {} t r (keptRegion warm s r)) []

/-- Memories that a defect map retires. -/
def keptBrams (s : State) : Table Bram :=
  (List.range 64).foldl (fun t r =>
    ((s.defectMap r).filter (fun d => d.extractLsb' 30 2 == 1#2)).foldl (fun t d =>
      tset {} t (256 * r + (d.extractLsb' 0 8).toNat) { retired := true }) t) []

/-- Lane margins and planned presets (R279, R456). -/
def keptLanes (s : State) : Table Lane :=
  s.lanes.foldl (fun t l => tset {} t l.1 { planned := l.2.planned, margin := l.2.margin }) []

/-- Is the ageing ledger there (R77, R456): a partition in the directory in use, with a good header record? -/
def ledgerGood (s : State) : Bool :=
  s.therm.ledger && (match s.lib.dirInUse with
    | some (_, d) => (dirEntries d).any (fun e => entType e.2 == 0x20)
    | none => false)

/-- What the ledger alone keeps over a reset is gone with it (R77): recorded defects, bank retirements, repairs, steerings,
lane margins, planned values, and the hard-fault records of before a power-on reset. -/
def forgetLedger (warm : Bool) (s : State) : State :=
  if ledgerGood s then s
  else { s with
    regions := s.regions.map (fun e => (e.1, { e.2 with defects := [] }))
    lanes := [], ingot := { s.ingot with retired := [] }, hbm := { s.hbm with repaired := [] }
    integ := if warm then s.integ else { s.integ with log := [] }
    therm := { s.therm with ledger := false, ledgerGone := [], guardBand := false, measureCount := 0, measures := []
                            floorOut := [] }
    bonds := { s.bonds with bonds := [] } }

/-- What a power-on reset and a warm reset have in common: every part but the always-on domain at its reset values, with
the contents of the flash and of the ledger. -/
def resetParts (warm : Bool) (s : State) : State :=
  let s := forgetLedger warm (cutFlash s)
  { pending := s.pending
    env := s.env
    dev := s.dev
    regions := keptRegions warm s
    lib := { flash := s.lib.flash, flashSize0 := s.lib.flashSize0, flashSize1 := s.lib.flashSize1
             sfdp0 := s.lib.sfdp0, sfdp1 := s.lib.sfdp1
             stagedFw := if warm then s.lib.stagedFw else none }
    brams := keptBrams s
    ingot := { retired := s.ingot.retired }
    lanes := keptLanes s
    hbm := { repaired := s.hbm.repaired }
    integ := { log := s.integ.log }
    therm := { ledger := s.therm.ledger, ledgerGone := s.therm.ledgerGone, guardBand := s.therm.guardBand, measureCount := s.therm.measureCount
               measures := s.therm.measures, floorOut := s.therm.floorOut }
    bonds := { bonds := s.bonds.bonds.map (fun b => (b.1, b.2.1, { b.2.2 with queued := false })) }
    io := { pcie := { heldReset := s.io.pcie.heldReset } } }

/-- The power-on reset (R66): everything but fuses and flash, the ledger included. -/
def powerOnReset (s : State) : State :=
  let t := resetParts false s
  { t with dev := { mode := s.dev.mode } }

/-- A new HBM key from the bit generator (R394): a free value. -/
def drawKey (s : State) : State := useFree (modHbm (fun h => { h with key := freshBits 256 s }) s)

/-- The event Reset begun. -/
def resetBegun (cause : Nat) (s : State) : State :=
  raise { cls := 0x0F, sev := 1, code := 0x130A, kind := 0, details := [(1, cause)] } s

/-- What a warm reset keeps of a slot: the answer that stands in it. -/
def keptSlot (x : Slot) : Slot := if x.st = .done then x else {}

/-- What a warm reset keeps of a port: the event path, which is the event collector's (R497), the slots of MB1 and MB3,
which the always-on domain answers (R488), and on MB0 and MB2 the answers that stand in a slot, `PATH_RESET` among them
(R69; notes/assumptions/28.md). -/
def keptPort (p : PortSt × Nat) : PortSt :=
  { p.1 with slots := if p.2 = 1 ∨ p.2 = 3 then p.1.slots else p.1.slots.map keptSlot, ignored := 0
             delivered := 0, deliverSlot := 0 }

/-- The warm reset (R66, R69, Table 3.3): every request is answered with `PATH_RESET`; the always-on domain, the log, the
straps, the sticky fields and the root PLL stay, and BOOT begins. -/
def warmReset (cause : Nat) (s : State) : State :=
  let s := pcieDown (abortSlots portsInOrder [.posted, .accepted] (resetBegun cause s))
  let t := resetParts true s
  let t : State :=
    { t with
      dev := { mode := s.dev.mode, base := .boot, straps := s.dev.straps, xtalOk := s.dev.xtalOk, porstLow := false
               crystal := s.dev.crystal, resetCause := BitVec.ofNat 4 cause, resetSilent := true
               outages := (closeOutage s s.dev).outages }
      clk := { s.clk with forced := false, bramSw := [], dspSw := [], copeNow := 0, copePlan := 0, copeWrite := false
                          copeResent := false, copeTarget := 0 }
      cudex := { log := s.cudex.log, logSeq := s.cudex.logSeq, overwritten := s.cudex.overwritten
                 logThreshold := s.cudex.logThreshold, restarts := s.cudex.restarts, wdAt := s.cudex.wdAt
                 serial := s.cudex.serial, windows := s.cudex.windows, ports := s.cudex.ports.zipIdx.map keptPort }
      io := { t.io with i2cAddr := s.io.i2cAddr, dynAddr := s.io.dynAddr, jtagIr := s.io.jtagIr, mbacc := s.io.mbacc
                        boundary := s.io.boundary, extest := s.io.extest, jtagDr := s.io.jtagDr } }
  settleMode cause (drawKey (modLib (·.readSfdp s.dev.straps.flashQuad) t))

/-- The modes from which a warm reset starts: every one from BOOT to DEBUG, and a commanded STANDBY for a `WRST_N` pulse
(Table 3.2). -/
def mayReset (s : State) : Bool :=
  decide (s.dev.base ≠ .off) && (decide (s.dev.base ≠ .standby) || s.dev.standbyCmd)

/-! ### Firmware (R172, R74, R77, R380) -/

/-- The event Directory copy bad. -/
def badCopies (s : State) : State :=
  forBelow 2 (fun c s => onlyIf (s.lib.dirCopy c).isNone (raise (loadEvent 8 2 [(1, c)])) s) s

/-- The first firmware image of the order that authenticates; after `DEVICE_MODE` RECOVERY only golden is tried. -/
def bootFirmware (s : State) : Option Nat :=
  match s.lib.dirInUse with
  | none => none
  | some (_, d) =>
    ((imageOrder d 1).find? (fun e => (decide (s.dev.resetCause ≠ 7) || e.1 == 3) &&
      (match s.lib.goodImage e.2 with | some bs => Config.firmwareSigned bs | none => false))).map (·.1)

/-- The smallest span whose data part holds the library (R380). -/
def librarySpan (capacity : Nat) : Nat := ceilDiv (262144 + capacity * entryBytes) 897581056

/-- Base and capacity of the library from the directory (Table 7.1). A capacity outside 64 to 4,096 or no multiple of 64, and a
base that is no multiple of 1 GiB, have no outcome in the manual: the value is taken as it stands (DESIGN CHOICE,
notes/assumptions/162.md). -/
def libraryPlace (s : State) : Nat × Nat :=
  match s.lib.dirInUse with
  | none => (0, 1024)
  | some (_, d) => (leAt d 16 8, if leAt d 24 2 = 0 then 1024 else leAt d 24 2)

/-- The event Range created or removed. -/
def rangeMade (ri : Nat) (s : State) : State :=
  raise (rangeEvent 9 1 ri [(8, (s.range ri).base), (1, (s.range ri).gib)]) s

/-- Cupola creates range 0 (R380). -/
def createLibrary (s : State) : State :=
  let (base, cap) := libraryPlace s
  let s := modLib (fun l => { l with base := base, capacity := cap }) s
  rangeMade 0 (modRange 0 (fun _ => { defined := true, base := base, gib := librarySpan cap }) s)

/-- Cupola takes up the ledger, creating a missing one with the guard band (R77, R459). -/
def takeLedger (s : State) : State :=
  if ledgerGood s then s
  else
    let s := modTherm (fun t => { t with ledger := true, ledgerGone := [], guardBand := true, measureCount := 0 }) s
    let s := modDev (fun d => { d with firstBoot := true }) s
    raise { cls := 7, sev := 1, code := 0x130B, kind := 0 } s

/-- Firmware begins to run. -/
def runFirmware (image : Nat) (s : State) : State :=
  let s := noteFirstRun image (modDev (fun d => { d with fwImage := BitVec.ofNat 2 image, resetSilent := false }) s)
  let s := modCudex (fun c => { c with cup := .running }) s
  let s := onlyIf (s.dev.resetCause == 1) (resetBegun 1) s
  rePlan (createLibrary (takeLedger s))

/-- BOOT ends when the firmware runs and HBM and the bonds are ready (Table 3.2). -/
def enterLoad (s : State) : State :=
  if s.dev.base = .boot ∧ s.dev.fwRunning = true ∧ s.dev.hbmReady = true ∧ s.dev.sweepDone = true ∧ s.dev.hold = false then
    settleMode 0x11 (modDev (fun d => { d with base := .load }) s)
  else s

/-- The Cupola ROM has finished with the firmware images (R172, R74, R78). -/
def authenticate (s : State) : State :=
  let recovery := fun (cause : Nat) (s : State) => settleMode cause (modDev (fun d => { d with base := .recovery }) s)
  let s := badCopies s
  let cause := if s.dev.resetCause = 7 then 7 else 0x13
  match bootFirmware s with
  | none => recovery cause (modDev (fun d => { d with romService := true, resetSilent := false }) s)
  | some 3 => recovery cause (runFirmware 3 s)
  | some k => enterLoad (modDev (fun d => { d with fwRunning := true }) (runFirmware k s))

/-! ### The boot pattern (R74, R75, R189) -/

/-- Boot pattern images not tried yet whose digest matches, in the order of R172. -/
def bootImages (s : State) : List (Nat × List Byte) :=
  match s.lib.dirInUse with
  | none => []
  | some (_, d) =>
    (imageOrder d 0x11).filterMap (fun e =>
      if s.lib.bootTried.contains e.1 then none else (s.lib.goodImage e.2).map (fun bs => (e.1, bs)))

/-- The first entry of a region's map that a plane uses. -/
def hitEntry (s : State) (r : Nat) (u : PlaneUse) : Option (BitVec 32) := (s.defectMap r).find? u.hits

/-- Fills one plane of a starting region; the cause when the copy fails. -/
def bootPlane (r p i : Nat) (active : Bool) (s : State) : State × Option Nat :=
  match copyFor r { index := i } s with
  | (s, .failed _ cause) => (s, some cause)
  | (s, .ok frames _) =>
    let plane := filledPlane r i frames {}
    let st : PlaneSt := if active then .active else if s.barredBy r plane.use then .barred else .valid
    (modRegion r (fun x => x.modPlane p (fun _ => { plane with st := st })) s, none)

/-- A region that R75 leaves out: it stays COLD and isolated, and an event names it. -/
def leaveOut (r : Nat) (d : BitVec 32) (s : State) : State :=
  let s := modLib (fun l => { l with barredBoot := insNat r l.barredBoot }) s
  let s := raise (bondEvent 0x130C 3 r [(1, r), (4, d.toNat)]) s
  modRegion r (fun x => { x with iso := x.iso ++ [.wire], plane0 := {}, plane1 := {}, plane2 := {}, plane3 := {} }) s

/-- A region named by the boot pattern (R189 step 2): ACTIVE, isolated, its flip-flops held. A region that is retired or
below its least clock stays COLD. -/
def bootRegion (a : List Byte) (s : State) : State × Option Nat :=
  let r := asgRegion a
  let act := asgActive a
  if (s.region r).retired || (s.region r).iso.contains .floor then (s, none)
  else
    match bootPlane r act (asgIndex a act) true s with
    | (s, some cause) => (s, some cause)
    | (s, none) =>
      match hitEntry s r ((s.region r).plane act).use with
      | some d => (leaveOut r d s, none)
      | none =>
        let s := modRegion r (fun x => { x with
          active := act, record := some (asgIndex a act), power := .active, shieldClosed := false, ffHeld := true
          iso := (x.iso.filter (· != .unloaded)) ++ [.boot] }) s
        ((List.range 4).filter (fun p => p != act && asgIndex a p != 0xFFFF)).foldl
          (fun (acc : State × Option Nat) p =>
            match acc with
            | (s, some c) => (s, some c)
            | (s, none) => bootPlane r p (asgIndex a p) false s) (s, none)

/-- The whole of a boot pattern image: the cause when any step fails. -/
def bootPlace (im : Image) (s : State) : State × Option Nat :=
  match placeImage im true 66 s with
  | (s, false) => (s, some 1)
  | (s, true) =>
    let (s, bad) := (assignsOf im.sections).foldl (fun (acc : State × Option Nat) a =>
      match acc with
      | (s, some c) => (s, some c)
      | (s, none) => bootRegion a s) (s, none)
    let s := forEach (schedulesOf im.sections) (fun x => modRegion (leAt x 0 1) (fun y =>
      { y with shadow := some (schedOf (x.drop 1), none) })) s
    let s := forEach im.sections (fun x => match x with
      | .tick a => modTick (fun t => { t with shadow := some (tickCfgOf a, none) })
      | _ => id) s
    (s, bad)

/-- An image is abandoned (R189); when no other is left the device enters RECOVERY (R74). -/
def abandonImage (code cause : Nat) (s : State) : State :=
  let s := raise (loadEvent 7 3 [(1, code), (1, cause)]) s
  if (bootImages s).isEmpty then settleMode 0x14 (modDev (fun d => { d with base := .recovery }) s) else s

/-- The Ladle has finished with one boot pattern image (R189). -/
def bootLoad (s : State) : State :=
  match bootImages s with
  | [] => settleMode 0x14 (modDev (fun d => { d with base := .recovery }) s)
  | (code, bs) :: _ =>
    let s := modLib (fun l => { l with bootTried := l.bootTried ++ [code] }) s
    match parseImage (imageCtx true 0xFFFF none none s) bs with
    | .error e => abandonImage code e.cause (rejectEvents e true 66 s)
    | .ok im =>
      match bootPlace im s with
      | (t, some cause) =>
        let t := forEach (im.sections.flatMap sectionIndex) (fun i => modEntry i (fun _ => {}))
          { t with regions := s.regions, tick := s.tick }
        abandonImage code cause t
      | (t, none) =>
        let t := modDev (fun d => { d with loadDone := true, patImage := BitVec.ofNat 2 code }) t
        onlyIf (t.bonds.enabled && decide (8 ≤ (emptyEntries t).length)) loadPatterns t

/-! ### Modes entered by command (Table 3.2) -/

/-- STANDBY by command: only the always-on domain runs. -/
def enterStandby (s : State) : State :=
  let s := darkLanes (pcieDown s)
  settleMode 0x10 (modDev (fun d => { d with base := .standby, standbyCmd := true }) s)

/-- A region in TEST (R478): isolated, ACTIVE, every plane INVALID; its fills and its pending change end with their reports.
One that was COLD comes up with its memories zeroed, and one below DAMPED with its engines reset (Tables 8.7 and 9.13). -/
def testRegion (r : Nat) (s : State) : State :=
  let reg := s.region r
  let s := endPending r s
  let s := onlyIf reg.power.deep (forBelow 32 (fun j => dropEngine (32 * r + j))) s
  let s := onlyIf (decide (reg.power = .cold)) (fun s => clearDragMemories r (modRegion r (fun x => { x with brg := [] }) s)) s
  let s := forEach (reg.fill.toList ++ reg.fillWait) (fun f => fillReply f stIncomplete 0 0 0 PlaneSt.invalid.code) s
  let s := modRegion r (fun x =>
    (List.range 4).foldl (fun x p => x.modPlane p (fun q => { q with st := .invalid }))
      { x with
        fill := none, fillWait := [], slice := none, deferred := none, trans := none
        power := .active, shieldClosed := false, record := none, activeBarred := false, shelf := none }) s
  isolate r .testMode s

/-- TEST by command (R478). -/
def enterTest (s : State) : State :=
  let s := forBelow 64 testRegion (modDev (fun d => { d with base := .test }) s)
  settleMode 0x10 (modBonds (fun b => { b with fullTest := true }) s)

/-- The tick in which an instant 10 µs from now falls. -/
def tickIn10us (s : State) : Nat :=
  let first := tickTime s.tick.length
  let at_ := tickPosition s + 2560000
  s.tick.number.toNat +
    (if s.ticking = true ∧ first ≤ at_ then 1 + (at_ - first) / max 1 (tickTime s.tick.cfg.period) else 0)

/-- A warm reset scheduled by command (R69): the request is answered with the tick in which the reset begins. One that is
scheduled already begins at its own time. -/
def scheduleReset (cause : Nat) (res : Results) (s : State) : State × Answer :=
  let s := onlyIf s.dev.warmDue.isNone
    (modDev (fun d => { d with warmDue := some (BitVec.ofNat 4 cause), warmTick := tickIn10us s })) s
  (s, .doneAt stOk s.dev.warmTick res)

end Sys2Proof.Machine
end

