-- ==== Sys2Proof/Machine/Start.lean ====
section
/-! DEFINITION. Meanings of power, reset and start-up events and of `DEVICE_MODE` and `WARM_RESET` (chapters 3 and 21). -/

namespace Sys2Proof.Machine

/-! ### Power and resets -/

/-- AON_POWER_UP (Table 3.2): OFF becomes STANDBY. -/
def execAonPowerUp (s : State) : Out :=
  occurs (decide (s.dev.base = .off)) (fun s =>
    settleMode 0x1B (modDev (fun d => { d with base := .standby }) (powerOnReset s))) s

/-- POWER_OFF (R535). -/
def execPowerOff (s : State) : Out :=
  occurs (decide (s.dev.base ≠ .off)) (fun s =>
    settleMode 0 (modDev (fun d => { d with base := .off }) (powerOnReset s))) s

/-- PORST_N_ASSERT (R66): a power-on reset. -/
def execPorstAssert (s : State) : Out :=
  occurs (decide (s.dev.base ≠ .off) && !s.dev.porstLow) (fun s => settleMode 1 (powerOnReset s)) s

/-- PORST_N_RELEASE (R70): the straps are latched and the crystal wait begins. -/
def execPorstRelease (straps : Straps) (s : State) : Out :=
  occurs (decide (s.dev.base = .standby) && s.dev.porstLow)
    (modDev (fun d => { d with straps := straps, porstLow := false, crystal := .waiting })) s

/-- WRST_N_LOW_DETECTED (R71). -/
def execWrstLowDetected (s : State) : Out := occurs (mayReset s) (warmReset 2) s

/-- WARM_RESET_BEGIN (R69). -/
def execWarmResetBegin (s : State) : Out :=
  match s.dev.warmDue with
  | some c => occurs (mayReset s) (warmReset c.toNat) s
  | none => .next s

/-- COOLDOWN_END (R452): 10,000 samples at 100 µs with every valid sensor at or below 95 °C. -/
def execCooldownEnd (s : State) : Out :=
  occurs (s.dev.cooldown && mayReset s && decide (10000 ≤ s.therm.coolRun)) (warmReset 5) s

/-! ### Start-up -/

/-- FIRMWARE_AUTHENTICATED (R172). -/
def execFirmwareAuthenticated (s : State) : Out :=
  occurs (s.awake && decide (s.dev.base = .boot) && decide (s.cudex.cup = .rom)) authenticate s

/-- Step 6 of Table 3.5 runs in BOOT, and goes on where BOOT has ended in RECOVERY. -/
def bootWork (s : State) : Bool := s.awake && (decide (s.dev.base = .boot) || decide (s.dev.base = .recovery))

/-- HBM_ZERO_FILL_COMPLETE (R378). -/
def execHbmZeroFillComplete (s : State) : Out :=
  occurs (bootWork s && !s.dev.hbmReady)
    (fun s => enterLoad (retryPage (modDev (fun d => { d with hbmReady := true }) s))) s

/-- The start sweep (R473) and the checker tests of BOOT (R414). -/
def startSweep (findings : List BondFinding) (checkers : List CheckerFailure) (s : State) : State :=
  let s := forEach checkers takeChecker (forEach findings (takeFinding 1) s)
  enterLoad (forBelow 64 noteSweep (modDev (fun d => { d with sweepDone := true }) s))

/-- BOOT_BOND_SWEEP_COMPLETE (R473). -/
def execBootBondSweepComplete (findings : List BondFinding) (checkers : List CheckerFailure) (s : State) : Out :=
  occurs (bootWork s && !s.dev.sweepDone) (startSweep findings checkers) s

/-- Does the boot load read a device that Cupola programs or erases (R169)? The directory lies on chip select 0, an image where
its entry says. -/
def bootLoadWaits (s : State) : Bool :=
  flashBusy s 0 || (match s.lib.dirInUse with
    | some (_, d) => (imageOrder d 0x11).any (fun e => flashBusy s (entAddr e.2))
    | none => false)

/-- BOOT_LOAD_COMPLETE (R189). -/
def execBootLoadComplete (s : State) : Out :=
  occurs (s.awake && decide (s.dev.base = .load) && !s.dev.loadDone && !s.dev.hold && !bootLoadWaits s) bootLoad s

/-- Border isolation opens (Table 3.6). -/
def openBorders (s : State) : State :=
  let s := modDev (fun d => { d with release := .isolationOpen }) s
  forBelow 64 (fun r s => onlyIf ((s.region r).iso.contains .boot) (endCause r .boot) s) s

/-- RELEASE_ISOLATION_OPEN (R72). -/
def execReleaseIsolationOpen (s : State) : Out :=
  occurs (s.awake && decide (s.dev.release = .t0)) openBorders s

/-- RELEASE_OUTPUT_ENABLE (R72). -/
def execReleaseOutputEnable (s : State) : Out :=
  occurs (s.awake && decide (s.dev.release = .isolationOpen))
    (modDev (fun d => { d with release := .done })) s

/-! ### Commands -/

/-- Modes in which the regions run under Table 3.2's rows. -/
def Mode.serving : Mode → Bool
  | .run | .degraded => true
  | _ => false

/-- The transition that a request asks for is in Table 3.2. -/
def mayChange (s : State) (c : Nat) : Bool :=
  let m := s.dev.mode
  match c with
  | 1 => m.serving || m == .debug
  | 2 => m == .frozen
  | 3 => m == .hold && !s.dev.holdInStartup
  | 4 | 5 => m.serving || m == .recovery
  | _ => m.serving || m == .frozen || m == .debug

/-- `DEVICE_MODE` (Table 3.8). -/
def deviceModeSpec : CmdSpec where
  opcode := 0x0001
  query := true
  portOk := fun q => q.queryFlag || mb01 q
  targetOk := devTarget
  body := fun q s =>
    let c := q.argByte 8
    if q.queryFlag then (s, .done stOk (modeResults s))
    else if c = 0 ∨ 6 < c then (s, .done stBadArg [])
    else if mayChange s c = false then (s, .done stDenied [])
    else if c ≤ 3 then (modDev (fun d => { d with modeDue := d.modeDue ++ [(c, q.waiter)] }) s, .wait)
    else if c = 6 then scheduleReset 7 (modeResults s) s
    else
      let tick := s.tick.number.toNat
      let s := if c = 4 then enterStandby s else enterTest s
      (s, .doneAt stOk tick (modeResults s))
def execDeviceMode (p : Port) (sl : Fin 4) (s : State) : Out := runCmd deviceModeSpec p sl s

/-- `WARM_RESET` (Table 3.9). -/
def warmResetSpec : CmdSpec where
  opcode := 0x0002
  portOk := mb01
  targetOk := devTarget
  body := fun _ s => scheduleReset 3 [] s
def execWarmReset (p : Port) (sl : Fin 4) (s : State) : Out := runCmd warmResetSpec p sl s

end Sys2Proof.Machine
end

