-- ==== Sys2Proof/Machine/Brams.lean ====
section
/-! DEFINITION. One operation of a block memory port, its collisions and its results in flight (R195 to R205), and the meanings of
the commands of chapter 8. -/

namespace Sys2Proof.Machine

/-! ### Elements (R196, Table 8.1) -/

/-- Element width of a port. -/
def BramCfg.width (c : BramCfg) (isA : Bool) : Nat := if isA then c.widthA else c.widthB

/-- Elements in a word. -/
def BramCfg.perWord (c : BramCfg) (isA : Bool) : Nat := (if c.raw then 80 else 64) / c.width isA

/-- Word and bit position of the element at an address; address bits above the depth are ignored. -/
def BramCfg.place (c : BramCfg) (isA : Bool) (addr : BitVec 15) : Nat × Nat :=
  let e := c.perWord isA
  let a := addr.toNat % (512 * e)
  (a / e, c.width isA * (a % e))

/-- `n` bits of a vector from bit `i` on replaced. -/
def putBits {w : Nat} (v : BitVec w) (i n x : Nat) : BitVec w :=
  let mask := BitVec.ofNat w ((2 ^ n - 1) * 2 ^ i)
  (v &&& ~~~mask) ||| (BitVec.ofNat w (x % 2 ^ n * 2 ^ i) &&& mask)

/-- The bits of a word that a write leaves: groups of `g` bits where `BE` enables, or one element. -/
def writeBits {w : Nat} (whole : Bool) (g : Nat) (at_ n : Nat) (o : PortOp) (old : BitVec w) : BitVec w :=
  if whole then
    (List.range 8).foldl (fun v j =>
      if o.be.getLsbD j then putBits v (g * j) g (o.di.toNat / 2 ^ (g * j)) else v) old
  else putBits old at_ n o.di.toNat

/-! ### One operation (R200, R201) -/

/-- Has a write every bit of its word (R200)? -/
def fullWrite (c : BramCfg) (isA : Bool) (o : PortOp) : Bool := c.width isA == 64 && o.be == BitVec.allOnes 8

/-- A write of one port: the state, its result, and whether it is a partial write. -/
def portWrite (m : Nat) (isA : Bool) (c : BramCfg) (o : PortOp) (s : State) : State × PortOut × Bool :=
  let (w, at_) := c.place isA o.addr
  let n := c.width isA
  if c.raw then (modBram m (fun b => b.put w (writeBits (n == 80) 10 at_ n o (b.word w))) s, {}, false)
  else if fullWrite c isA o then (bramStore m w (o.di.extractLsb' 0 64) s, {}, false)
  else
    let (s, ok) := bramPartial m w (bit (!isA)) (writeBits (n == 64) 8 at_ n o) s
    (s, { uerr := !ok }, true)

/-- A read of one port. -/
def portRead (m : Nat) (isA : Bool) (c : BramCfg) (o : PortOp) (s : State) : State × PortOut :=
  let (w, at_) := c.place isA o.addr
  let n := c.width isA
  let pick := fun (v : Nat) => BitVec.ofNat 80 (v / 2 ^ at_ % 2 ^ n)
  if c.raw then (s, { dout := pick ((s.bram m).word w).toNat })
  else
    let (s, d, out) := bramFetch m w (bit (!isA)) false s
    let fixed := match out with | .dataBit _ => true | _ => false
    (s, { dout := pick d.toNat, cerr := fixed, uerr := decide (out = .uncorrectable) })

/-! ### Collisions (R204, R205) -/

/-- How an operation meets a collision: its read data are undefined, it is the later port, it is not performed. -/
structure Clash where
  undef : Bool := false
  busy : Bool := false
  drop : Bool := false

/-- The collision of two operations taken in one cycle (Table 8.4): for port A and for port B. -/
def clashOf (c : BramCfg) (a b : PortOp) (bFirst : Bool) : Clash × Clash :=
  if (c.place true a.addr).1 ≠ (c.place false b.addr).1 then ({}, {})
  else
    let aLater := c.pclk && bFirst
    match a.we, b.we with
    | false, false => ({}, {})
    | true, true => ({}, { busy := true, drop := true })
    | false, true => ({ undef := true, busy := aLater }, { busy := !aLater })
    | true, false => ({ busy := aLater }, { undef := true, busy := !aLater })

/-- A read that meets the second cycle of the other port's partial write (R205): its data are undefined; `BUSY` goes to
port B on a common clock, otherwise to the reading port, whose edge comes later. The mark: reader, writer. -/
def clashRmw (c : BramCfg) (isA : Bool) (o : PortOp) (other : Option Nat) : Clash × Bool :=
  if !o.we && decide (other = some (c.place isA o.addr).1) then
    let readerLater := c.pclk || !isA
    ({ undef := true, busy := readerLater }, !readerLater)
  else ({}, false)

/-! ### One port edge (R198, R199) -/

/-- Read latency before the output register (Table 8.3). -/
def BramCfg.latency (c : BramCfg) : Nat := if c.raw then 1 else 2

/-- The flags last one cycle. -/
def PortOut.quiet (p : PortOut) : PortOut := { p with busy := false, cerr := false, uerr := false }

/-- One edge with `WAIT` low of the results of a port: in flight, before the output register, and on `DO`. -/
def stepPipe (outReg oce orst : Bool) (pipe : List (Nat × Bool × PortOut)) (pre out : PortOut) :
    List (Nat × Bool × PortOut) × PortOut × PortOut :=
  let next := pipe.map (fun e => (e.1 - 1, e.2))
  let pre' := match next.find? (fun e => e.1 == 0) with
    | some (_, rd, v) => if rd then v else { v with dout := pre.dout }
    | none => pre.quiet
  (next.filter (fun e => e.1 != 0), pre',
    if outReg then (if orst then {} else if oce then pre else out) else pre')

/-- Does a bundle of a port run in fold mode (R199, R476)? -/
def foldPort (s : State) (m : Nat) (isA : Bool) : Bool :=
  s.bonds.bonds.any (fun e => decide (e.1 = m / 256) && e.2.2.fold && match e.2.1 with
    | .bramPort k n => decide (k.val = m % 256) && (bundleOfA n.val == isA)
    | _ => false)

/-- The port's results advance by one edge with `WAIT` low. -/
def advancePort (m : Nat) (isA : Bool) (c : BramCfg) (o : PortOp) (s : State) : State :=
  modBram m (fun b =>
    if isA then
      let (pipe, pre, out) := stepPipe c.outRegA o.oce o.orst b.pipeA b.preA b.outA
      { b with pipeA := pipe, preA := pre, outA := out }
    else
      let (pipe, pre, out) := stepPipe c.outRegB o.oce o.orst b.pipeB b.preB b.outB
      { b with pipeB := pipe, preB := pre, outB := out }) s

/-- An edge with `WAIT` high: results are delayed, the flags on the outputs end with their cycle, and `ORST` clears the output
register (R198, R199). -/
def stallPipe (outReg oce orst : Bool) (pre out : PortOut) : PortOut × PortOut :=
  if outReg then (pre, if orst then {} else if oce then out.quiet else out) else (pre.quiet, out.quiet)

/-- The port's outputs at an edge with `WAIT` high. -/
def stallPort (m : Nat) (isA : Bool) (c : BramCfg) (o : PortOp) (s : State) : State :=
  modBram m (fun b =>
    if isA then
      let (pre, out) := stallPipe c.outRegA o.oce o.orst b.preA b.outA
      { b with preA := pre, outA := out }
    else
      let (pre, out) := stallPipe c.outRegB o.oce o.orst b.preB b.outB
      { b with preB := pre, outB := out }) s

/-- An operation's result goes into flight. -/
def pushPipe (m : Nat) (isA rd : Bool) (lat : Nat) (v : PortOut) (s : State) : State :=
  modBram m (fun b =>
    if isA then { b with pipeA := b.pipeA ++ [(lat, rd, v)] } else { b with pipeB := b.pipeB ++ [(lat, rd, v)] }) s

/-- An operation that a port takes. -/
def takeOp (m : Nat) (isA : Bool) (c : BramCfg) (o : PortOp) (x : Clash) (s : State) : State :=
  if o.we then
    let (s, v, rmw) := if x.drop then (s, {}, false) else portWrite m isA c o s
    let s := pushPipe m isA false c.latency { v with busy := x.busy } s
    let w := if rmw then some (c.place isA o.addr).1 else none
    modBram m (fun b =>
      if isA then { b with waitA := rmw, rmwA := w } else { b with waitB := rmw, rmwB := w }) s
  else
    let (s, v) := portRead m isA c o s
    let d := if x.undef then BitVec.ofNat 80 (Config.freeNat s.env.freeCtr % 2 ^ c.width isA) else v.dout
    let s := onlyIf x.undef useFree s
    pushPipe m isA true c.latency { v with dout := d, busy := x.busy } s

/-- Is the edge's operation taken (R198)? -/
def Bram.takes (b : Bram) (isA : Bool) (o : PortOp) : Bool := o.en && !(if isA then b.waitA else b.waitB)

/-! ### Commands -/

/-- `INGOT_CONFLICTS` (Table 8.8). -/
def ingotConflictsSpec : CmdSpec where
  opcode := 0x0300
  targetOk := devTarget
  body := fun q s =>
    let first := q.argByte 8
    let n := q.argByte 9
    if 95 < first ∨ n = 0 ∨ 56 < n ∨ 96 < first + n ∨ 2 ≤ q.argByte 10 then (s, .done stBadArg [])
    else
      let ids := List.range n
      let res := ids.map (fun i => (16 + 4 * i, 4, tget 0 s.ingot.conflicts (first + i)))
      if q.argByte 10 = 0 then (s, .done stOk res)
      else if mb01 q = false then (s, .done stDenied res)
      else (modIngot (fun g => { g with conflicts := ids.foldl (fun t i => tset 0 t (first + i) 0) g.conflicts }) s,
        .done stOk res)
def execIngotConflicts (p : Port) (sl : Fin 4) (s : State) : Out := runCmd ingotConflictsSpec p sl s

/-- `INGOT_BANKS` (Table 8.9). -/
def ingotBanksSpec : CmdSpec where
  opcode := 0x0301
  query := true
  portOk := fun q => q.queryFlag || mb01 q
  targetOk := devTarget
  owners := fun q _ => if q.argByte 9 < 64 then [ownKey 0 (q.argByte 9)] else []
  body := fun q s =>
    let act := q.argByte 8
    let b := q.argByte 9
    if q.queryFlag then (s, .done stOk (ingotResults s))
    else if (act ≠ 1 ∧ act ≠ 2) ∨ 64 ≤ b then (s, .done stBadArg [])
    else if (act = 1 ∧ (s.activeBanks.length = 1 ∨ s.ingot.retired.contains b = true))
        ∨ (act = 2 ∧ s.ingot.retired.contains b = false) then (s, .done stDenied [])
    else if s.ingot.change.isSome then (s, .done stBusy [])
    else (modIngot (fun g => { g with change := some (act == 1, b, q.waiter) }) s, .wait)
def execIngotBanks (p : Port) (sl : Fin 4) (s : State) : Out := runCmd ingotBanksSpec p sl s

/-- `BRAM_CLEAR` (Table 8.10). -/
def bramClearSpec : CmdSpec where
  opcode := 0x0302
  targetOk := below 64
  owners := ownRegion
  body := fun q s =>
    let r := q.target
    let i := q.arg 8 2
    let reg := s.region r
    if 256 ≤ i ∧ i ≠ 0xFFFF then (s, .done stBadArg [])
    else if reg.quiescing || reg.dragReset then (s, .done stBusy [])
    else if reg.power.low then (s, .done stRegionAsleep [])
    else (modRegion r (fun x => { x with
      clearing := x.clearing ++ [(if i = 0xFFFF then List.range 256 else [i], q.waiter)] }) s, .wait)
def execBramClear (p : Port) (sl : Fin 4) (s : State) : Out := runCmd bramClearSpec p sl s

/-- Every word of the memories named first has been written. -/
def clearDone (r : Nat) (ms : List Nat) (w : Waiter) (s : State) : State :=
  let s := modRegion r (fun x => { x with clearing := x.clearing.drop 1 }) s
  reply w stOk [(16, 2, ms.length)] (forEach ms (fun m => clearBram (256 * r + m)) s)

/-- BRAM_CLEAR_COMPLETE (R213). -/
def execBramClearComplete (r : Fin 64) (s : State) : Out :=
  match (s.region r.val).clearing with
  | (ms, w) :: _ => occurs (s.awake && !(s.region r.val).power.low) (clearDone r.val ms w) s
  | [] => .next s

end Sys2Proof.Machine
end

