-- ==== Sys2Proof/Machine/Dsp.lean ====
section
/-! DEFINITION. Meanings of the DSP engines' bundles, interrupts, streams, DMA and commands (chapter 9). -/

namespace Sys2Proof.Machine

/-! ### When an engine runs (R241, R248, R251) -/

/-- The engine, with the tick and slot boundaries so far taken in. -/
def State.engineNow (s : State) (id : Nat) : Engine := (s.engine id).sync s.tick.ticks s.tick.slots

/-- The engine's clock runs: regions run, its region is ACTIVE with no transition, load or Drag reset, and its domain is
not relocking (Table 9.13, R191, R251). -/
def engineClocked (s : State) (id : Nat) : Bool :=
  let reg := s.region (id / 32)
  s.awake && s.regionsRun && decide (reg.power = .active) && reg.trans.isNone && !reg.loadingActive && !reg.dragReset
    && !domainPaused (s.domain (domainOfRegion (id / 32)))

/-- It may issue a bundle: no interrupt that it can take is pending (R245). A tick or slot boundary may still be on its way. -/
def engineIssues (s : State) (id : Nat) : Bool :=
  engineClocked s id && decide ((s.engine id).st = .running) && !(s.engine id).waiting && !(s.engine id).canInterrupt

/-- What a fetch of the bundle at the engine's PC sees: within 4 engine cycles of a write, the old bundle or the new one,
whichever is open (R218). -/
def fetched (s : State) (id : Nat) : BitVec 64 × GridOut :=
  let e := s.engine id
  let now := e.readWord true e.pc.toNat
  match e.oldProg.filter (fun x => x.1 == e.pc.toNat) with
  | [] => now
  | l => match l[freshNat s % (l.length + 1)]? with
    | some (_, _, v, syn) => (correctBits v (decodeSyn 8 syn.toNat), decodeSyn 8 syn.toNat)
    | none => now

/-- The engine's next bundle is of a kind. -/
def issues (k : BundleKind) (id : Nat) (s : State) : Bool :=
  engineIssues s id && decide (kindOf (fetched s id).1 = k)

/-! ### Issue -/

/-- The event Engine entered FAULT (R244). -/
def faultEvent (id : Nat) (e : Engine) : EvRec :=
  { cls := 4, sev := 3, code := 0x0901, kind := 12, src := id
    details := [(2, id), (1, e.istat.toNat / 16), (2, e.pc.toNat)] }

/-- The engines of a mask have all stopped. -/
def allStopped (r : Nat) (mask : BitVec 32) (s : State) : Bool :=
  (List.range 32).all (fun j => !mask.getLsbD j ||
    match (s.engine (32 * r + j)).st with | .halted | .fault => true | _ => false)

/-- `DSP_HALT` commands whose engines have all stopped are answered (Table 9.17). -/
def settleHalts (r : Nat) (s : State) : State :=
  let jobs := (s.region r).haltJobs
  let (done, wait) := jobs.partition (fun j => allStopped r j.mask s)
  if done.isEmpty then s
  else forEach done (fun j => reply j.waiter stOk [(16, 4, j.halted.toNat), (20, 4, j.cancelled.toNat)])
    (modRegion r (fun x => { x with haltJobs := wait }) s)

/-- What follows a change of an engine: an entry into FAULT is reported, and halts are settled. -/
def afterEngine (id : Nat) (was : EngSt) (s : State) : State :=
  let e := s.engine id
  let s := onlyIf (decide (e.st = .fault) && decide (was ≠ .fault)) (raise (faultEvent id e)) s
  onlyIf (decide (e.st ≠ .running)) (settleHalts (id / 32)) s

/-- A bundle issues (R226 to R237): the fetch is checked, a stream may stall it, and what its accesses met is noted. -/
def issueBundle (id : Nat) (s : State) : State :=
  let e := s.engineNow id
  let was := e.st
  let (b, out) := fetched s id
  let note := e.noteOf true e.pc.toNat out
  let fixed := match out with | .dataBit _ | .checkBit _ => true | _ => false
  let s := dspNote id note (id / 32) false s
  let e := if fixed then { e with corrected := e.corrected + 1 } else e
  if out = .uncorrectable then afterEngine id was (modEngine id (fun _ => e.stopHard id 8) s)
  else if (e.reads b).any e.parityBad.contains then afterEngine id was (modEngine id (fun _ => e.stopHard id 9) s)
  else if kindOf b = .slots ∧ e.illegal b = false ∧ e.stallsOn b = true then modEngine id (fun _ => e.stall) s
  else
    let i := e.issue id b (freshBits 15 s)
    let s := modEngine id (fun _ => i.e) (onlyIf (decide (kindOf b = .slots) || !e.oldProg.isEmpty) useFree s)
    let s := forEach i.notes (fun n => dspNote id n (id / 32) false) s
    let s := forEach i.wrote (fun w => noteWrite (.region (id / 32)) (dspRef false (id % 32) w)) s
    afterEngine id was s

/-- A bundle issues under the row that its word names. -/
def issueAs (k : BundleKind) (id : Nat) (s : State) : State := onlyIf (issues k id s) (issueBundle id) s

/-- BUNDLE (R226, R237). -/
def execBundle (e : Fin 2048) (s : State) : Out := occurs (issues .slots e.val s) (issueAs .slots e.val) s

/-- B (R229). -/
def execB (e : Fin 2048) (s : State) : Out := occurs (issues .b e.val s) (issueAs .b e.val) s

/-- CALL (R229). -/
def execCall (e : Fin 2048) (s : State) : Out := occurs (issues .call e.val s) (issueAs .call e.val) s

/-- RET (R229). -/
def execRet (e : Fin 2048) (s : State) : Out := occurs (issues .ret e.val s) (issueAs .ret e.val) s

/-- BEQZ (R229). -/
def execBeqz (e : Fin 2048) (s : State) : Out := occurs (issues .beqz e.val s) (issueAs .beqz e.val) s

/-- BNEZ (R229). -/
def execBnez (e : Fin 2048) (s : State) : Out := occurs (issues .bnez e.val s) (issueAs .bnez e.val) s

/-- BLTZ (R229). -/
def execBltz (e : Fin 2048) (s : State) : Out := occurs (issues .bltz e.val s) (issueAs .bltz e.val) s

/-- BGEZ (R229). -/
def execBgez (e : Fin 2048) (s : State) : Out := occurs (issues .bgez e.val s) (issueAs .bgez e.val) s

/-- BDEC (R229). -/
def execBdec (e : Fin 2048) (s : State) : Out := occurs (issues .bdec e.val s) (issueAs .bdec e.val) s

/-- LIMM (R229). -/
def execLimm (e : Fin 2048) (s : State) : Out := occurs (issues .limm e.val s) (issueAs .limm e.val) s

/-- LOOP (R230, R233). -/
def execLoop (e : Fin 2048) (s : State) : Out := occurs (issues .loop e.val s) (issueAs .loop e.val) s

/-- NOP (R230). -/
def execNop (e : Fin 2048) (s : State) : Out := occurs (issues .nop e.val s) (issueAs .nop e.val) s

/-- HALT (R243). -/
def execHalt (e : Fin 2048) (s : State) : Out := occurs (issues .halt e.val s) (issueAs .halt e.val) s

/-- WAITI (R245). -/
def execWaiti (e : Fin 2048) (s : State) : Out := occurs (issues .waiti e.val s) (issueAs .waiti e.val) s

/-- RETI (R247). -/
def execReti (e : Fin 2048) (s : State) : Out := occurs (issues .reti e.val s) (issueAs .reti e.val) s

/-- EI (R230). -/
def execEi (e : Fin 2048) (s : State) : Out := occurs (issues .ei e.val s) (issueAs .ei e.val) s

/-- DI (R230). -/
def execDi (e : Fin 2048) (s : State) : Out := occurs (issues .di e.val s) (issueAs .di e.val) s

/-- SIG (R230). -/
def execSig (e : Fin 2048) (s : State) : Out := occurs (issues .sig e.val s) (issueAs .sig e.val) s

/-- RESERVED_BRANCH_OR_SYSTEM_OP (R226, R244). -/
def execReservedBranchOrSystemOp (e : Fin 2048) (s : State) : Out := occurs (issues .reserved e.val s) (issueAs .reserved e.val) s

/-! ### Interrupts, timer and waits (R245, Table 9.10) -/

/-- Cycles spent in `WAITI` before something ends it: a free number, short of the timer's expiry. -/
def Engine.waited (e : Engine) (n : Nat) : Engine :=
  if e.waiting then e.count (if e.ctl.getLsbD 1 then n % (e.timer.toNat + 1) else n) else e

/-- A free value is used up by a wait that ends. -/
def useIfWaiting (id : Nat) (s : State) : State := onlyIf (s.engine id).waiting useFree s

/-- The engine may take an interrupt now. -/
def interrupts (s : State) (id : Nat) : Bool :=
  let e := s.engineNow id
  engineClocked s id && decide (e.st = .running) && !e.haltDue && !e.faultDue && e.canInterrupt

/-- INTERRUPT_ENTRY (R245). -/
def execInterruptEntry (e : Fin 2048) (s : State) : Out :=
  occurs (interrupts s e.val) (fun s =>
    let x := (s.engineNow e.val).waited (freshNat s)
    modEngine e.val (fun _ => x.enter) (useIfWaiting e.val s)) s

/-- WAITI_RESUME (R230, R245): a pending source that is not taken as an interrupt ends the wait. -/
def execWaitiResume (e : Fin 2048) (s : State) : Out :=
  let x := s.engineNow e.val
  occurs (engineClocked s e.val && decide (x.st = .running) && x.waiting && !x.canInterrupt && x.pendNow &&& x.imask != 0#8)
    (fun s =>
      let x := (s.engineNow e.val).waited (freshNat s)
      modEngine e.val (fun _ => { x with waiting := false }) (useIfWaiting e.val s)) s

/-- The timer expires: source 3 pends and the timer reloads; a wait lasts until then. -/
def Engine.expire (e : Engine) : Engine :=
  let e := if e.waiting then e.count e.timer.toNat else e
  { e.pend 3 with timer := e.treload }

/-- TIMER_EXPIRY (Table 9.10): `TIMER` has reached zero, or the engine waits or stands still until it does. -/
def execTimerExpiry (e : Fin 2048) (s : State) : Out :=
  let x := s.engineNow e.val
  occurs (engineClocked s e.val && x.ctl.getLsbD 1 && (x.timer == 0#32 || x.waiting || decide (x.st ≠ .running)))
    (fun s => modEngine e.val (fun _ => (s.engineNow e.val).expire) s) s

/-! ### DMA (R239, R240) -/

/-- The code of a transfer: that of its first line that failed. -/
def dmaCodeOf (ls : List RLine) : BitVec 3 := ((ls.find? (fun l => l.code != 0#3)).map (·.code)).getD 0

/-- One line of a READ written to the data memory; local addresses wrap. -/
def storeLine (id : Nat) (d : Dma) (i : Nat) (l : RLine) (s : State) : State :=
  if l.code ≠ 0 then s
  else forBelow 8 (fun k => dspPut id false ((d.local_.toNat / 8 + 8 * i + k) % 4096) (lineWord l.data k)) s

/-- The transfer in progress ends; lines that failed are counted at the stop (Table 2.9). -/
def endDma (id : Nat) (o : Outst) (ls : List RLine) (s : State) : State :=
  let s := modRunner (fun r => { r with outst := r.outst.filter (fun x => x.id != o.id) }) s
  let s := forEach ls (fun l => countOutcome o.hdr l.code.toNat 1) s
  match (s.engine id).dmaActive with
  | none => s
  | some d =>
    let s := if d.toRunner then s else forEach ls.zipIdx (fun l => storeLine id d l.2 l.1) s
    modEngine id (fun e => ({ e with dmaCode := dmaCodeOf ls, dmaActive := e.dmaQueued, dmaQueued := none }).pend 4) s

/-- DMA_DONE (R240): every line of the engine's transfer has been answered. -/
def execDmaDone (e : Fin 2048) (s : State) : Out :=
  let s := serveFirst (.dsp e) 0 s
  match s.outst (.dsp e) 0 with
  | some o => match o.resp with
    | some ls => occurs (s.awake && !domainPaused (s.domain (domainOfRegion (e.val / 32)))) (endDma e.val o ls) s
    | none => .next s
  | none => .next s

/-! ### The fabric interface (R235 to R238) -/

/-- The active plane connects the engine, and its fabric clock runs. -/
def engineConnected (s : State) (id : Nat) : Bool :=
  let reg := s.region (id / 32)
  fabricClocked s (id / 32) && !reg.slicing && !reg.dragReset && !domainPaused (s.domain (domainOfRegion (id / 32)))
    && reg.now.use.dspEngines.contains (id % 32)

/-- A start request (R242): the engine starts, is PENDING, or ignores it. -/
def requestStart (id : Nat) (addr : BitVec 11) (s : State) : State :=
  match (s.engine id).st with
  | .halted | .fault =>
    let s := modEngine id (fun e => { e with st := .pending, startAddr := addr }) s
    onlyIf (s.dspPermitted (id / 32)) (startEngine id) s
  | _ => s

/-- A signal of the engine's interface that the fabric drives (Table 9.9). -/
def enginePin (s : State) (id k : Nat) : Bool := portDown s (id / 32) (.dsp (id % 32)) k

/-- The item that the fabric presents on an input stream, and whether it takes one from an output stream. -/
def offers (s : State) (id : Nat) (k : Fin 2) (item : BitVec 64) : Bool :=
  enginePin s id (64 + 65 * k.val) && portWord s (id / 32) (.dsp (id % 32)) (65 * k.val) 64 == item.toNat
def takesItem (s : State) (id : Nat) (k : Fin 2) : Bool := enginePin s id (130 + k.val)

/-- DOORBELL (R238): a rising edge. -/
def execDoorbell (e : Fin 2048) (s : State) : Out :=
  occurs (engineConnected s e.val && enginePin s e.val 132 && !(s.engine e.val).bellWas) (fun s => modEngine e.val (fun _ => (s.engineNow e.val).pend 5) s) s

/-- START (R238): a rising edge, ignored unless `CTL.FSE` is set. -/
def execStart (e : Fin 2048) (s : State) : Out :=
  occurs (engineConnected s e.val && enginePin s e.val 133 && !(s.engine e.val).startWas && (s.engine e.val).ctl.getLsbD 0) (fun s => requestStart e.val (s.engine e.val).spc s) s

/-- Space in an input buffer; items in an output buffer. -/
def Engine.input (e : Engine) (k : Fin 2) : List (BitVec 64) := if k = 0 then e.in0 else e.in1
def Engine.output (e : Engine) (k : Fin 2) : List (BitVec 64) := if k = 0 then e.out0 else e.out1

/-- STREAM_INPUT_ITEM (R236). -/
def execStreamInputItem (e : Fin 2048) (k : Fin 2) (item : BitVec 64) (s : State) : Out :=
  occurs (engineConnected s e.val && offers s e.val k item && !(s.engine e.val).portWait
      && decide (((s.engine e.val).input k).length < 8))
    (modEngine e.val (fun x => if k = 0 then { x with in0 := x.in0 ++ [item] } else { x with in1 := x.in1 ++ [item] })) s

/-- STREAM_OUTPUT_ITEM (R236): the fabric takes the oldest item. -/
def execStreamOutputItem (e : Fin 2048) (k : Fin 2) (s : State) : Out :=
  occurs (engineConnected s e.val && takesItem s e.val k && !(s.engine e.val).portWait && !((s.engine e.val).output k).isEmpty)
    (modEngine e.val (fun x => if k = 0 then { x with out0 := x.out0.drop 1 } else { x with out1 := x.out1.drop 1 })) s

/-! ### Commands -/

/-- Local engines of a mask whose state satisfies a condition, as a mask. -/
def engineMask (r : Nat) (mask : BitVec 32) (p : EngSt → Bool) (s : State) : Nat :=
  (List.range 32).foldl (fun n j =>
    if mask.getLsbD j && p (s.engine (32 * r + j)).st then n + 2 ^ j else n) 0

/-- `DSP_START` (Table 9.16). -/
def dspStartSpec : CmdSpec where
  opcode := 0x0400
  targetOk := below 64
  owners := ownRegion
  body := fun q s =>
    let r := q.target
    let mask := BitVec.ofNat 32 (q.arg 8 4)
    let addr := q.arg 12 2
    let reg := s.region r
    if 2048 ≤ addr ∨ 2 ≤ q.argByte 14 then (s, .done stBadArg [])
    else if reg.quiescing || reg.dragReset then (s, .done stBusy [])
    else if reg.power.low then (s, .done stRegionAsleep [])
    else
      let busy := fun (e : EngSt) => match e with | .running | .pending => true | _ => false
      let ignored := engineMask r mask busy s
      let named := (List.range 32).filter (fun j => mask.getLsbD j)
      let s := onlyIf (q.argByte 14 == 1) (forEach named (fun j => modEngine (32 * r + j) (fun e =>
        { e with ctl := e.ctl ||| 1#2, spc := BitVec.ofNat 11 addr }))) s
      let s := forEach named (fun j => requestStart (32 * r + j) (BitVec.ofNat 11 addr)) s
      let rest := mask &&& ~~~BitVec.ofNat 32 ignored
      (s, .done stOk [(16, 4, engineMask r rest (fun e => decide (e = .running)) s),
        (20, 4, engineMask r rest (fun e => decide (e = .pending)) s), (24, 4, ignored)])

/-- The request in a slot names a region whose engines pause for a relock: it waits for the end of the pause (R251). -/
def awaitsRelock (p : Port) (sl : Fin 4) (s : State) : Bool :=
  domainPaused (s.domain (domainOfRegion (s.req p sl).target))

def execDspStart (p : Port) (sl : Fin 4) (s : State) : Out :=
  if awaitsRelock p sl s then .next s else runCmd dspStartSpec p sl s

/-- A named engine halts, or will at the next boundary outside a delay slot (R243); a pending start is cancelled. -/
def haltEngine (id : Nat) (s : State) : State :=
  modEngine id (fun e => match e.st with
    | .pending => { e with st := .halted }
    | .running => ({ e with haltDue := true }).settleStop
    | _ => e) s

/-- `DSP_HALT` (Table 9.17). -/
def dspHaltSpec : CmdSpec where
  opcode := 0x0401
  targetOk := below 64
  owners := ownRegion
  body := fun q s =>
    let r := q.target
    let mask := BitVec.ofNat 32 (q.arg 8 4)
    if (s.region r).power.low then (s, .done stRegionAsleep [])
    else
      let halted := engineMask r mask (fun e => decide (e = .running)) s
      let cancelled := engineMask r mask (fun e => decide (e = .pending)) s
      let s := forEach ((List.range 32).filter (fun j => mask.getLsbD j)) (fun j => haltEngine (32 * r + j)) s
      let job : HaltJob := { mask := mask, halted := BitVec.ofNat 32 halted, cancelled := BitVec.ofNat 32 cancelled
                             waiter := q.waiter }
      (settleHalts r (modRegion r (fun x => { x with haltJobs := x.haltJobs ++ [job] }) s), .wait)
def execDspHalt (p : Port) (sl : Fin 4) (s : State) : Out :=
  if awaitsRelock p sl s then .next s else runCmd dspHaltSpec p sl s

/-- State codes of `DSP_STATUS`. -/
def EngSt.code : EngSt → Nat
  | .halted => 0 | .pending => 1 | .running => 2 | .fault => 3

/-- `DSP_STATUS` (Table 9.18). -/
def dspStatusSpec : CmdSpec where
  opcode := 0x0402
  targetOk := below 64
  body := fun q s =>
    let r := q.target
    let j := q.argByte 8
    if 32 ≤ j then (s, .done stBadArg [])
    else if (s.region r).power.deep then (s, .done stRegionAsleep [])
    else
      let e := s.engineNow (32 * r + j)
      (s, .done stOk [(16, 1, e.st.code), (17, 1, e.istat.toNat), (18, 2, e.pc.toNat), (20, 1, e.stat.toNat),
        (21, 1, e.pendNow.toNat), (22, 1, e.imask.toNat), (23, 1, e.lctl.toNat), (24, 8, e.cycle.toNat),
        (32, 4, e.stalls), (36, 4, e.corrected),
        (40, 4, engineMask r (BitVec.allOnes 32) (fun x => decide (x = .running)) s),
        (44, 1, (s.domain (domainOfRegion r)).point)])
def execDspStatus (p : Port) (sl : Fin 4) (s : State) : Out := runCmd dspStatusSpec p sl s

end Sys2Proof.Machine
end

