-- ==== Sys2Proof/Machine/Fettler.lean ====
section
/-! DEFINITION. Meanings of the Fettler's events, of the trackers and of the commands on stored data (R403 to R415), and of
the CRC units' operations and `CRC_BIND` (R416 to R419). -/

namespace Sys2Proof.Machine

/-! ### Words the Fettler reads (R404) -/

/-- The event Uncorrectable word found by the Fettler. -/
def fettlerBad (pl : Place) (target loc plane : Nat) (inj : Bool) : EvRec :=
  { cls := 4, sev := 3, code := 0x0F05, kind := pl.kind, src := pl.idx, injected := inj
    details := [(1, target), (8, loc), (1, plane)] }

/-- The outcome is one that the Fettler writes back. -/
def GridOut.fixable : GridOut → Bool
  | .dataBit _ | .checkBit _ => true
  | _ => false

/-- A plane that the Fettler sweeps (Table 15.4). -/
def Plane.swept (p : Plane) : Bool :=
  decide (p.st = .valid) || decide (p.st = .active) || decide (p.st = .barred) || decide (p.st = .test)

/-- A plane's frame changed, and what its frames now use (R546). -/
def putFrame (r p key : Nat) (f : Frame) (s : State) : State :=
  modPlane r p (fun x =>
    let frames := tset {} x.frames key f
    { x with frames := frames, use := useOf r frames }) s

/-- What an uncorrectable frame does to its plane (R405). -/
def frameConsequence (r p : Nat) (inj : Bool) (s : State) : State :=
  let reg := s.region r
  if p = reg.active ∧ (reg.now.st = .active ∨ reg.now.st = .test) then
    if inj then s else raise (isolatedEvent r 1) (isolate r .frame s)
  else modPlane r p (fun x => { x with st := .invalid }) s

/-- One frame read by the Fettler. -/
def fettleFrame (r p key : Nat) (s : State) : State × GridOut :=
  let f := tget {} ((s.region r).plane p).frames key
  let out := decodeSyn 64 f.syn.toNat
  let ref := frameRef p (frameAddr r key)
  let (s, _) := noteRead (.region r) ref out f.injected true s
  let s := onlyIf out.fixable (putFrame r p key { data := correctBits f.data out }) s
  if out = .uncorrectable then
    (frameConsequence r p f.injected (raise (fettlerBad (.region r) 0 ref.loc p f.injected) s), out)
  else (s, out)

/-- One block memory word. -/
def fettleBram (m w : Nat) (s : State) : State × GridOut :=
  let inj := (s.bram m).injected.contains w
  let (s, d, out) := bramFetch m w 67 true s
  let s := onlyIf out.fixable (modBram m (fun b => b.put w (wordEncode d))) s
  (onlyIf (decide (out = .uncorrectable)) (raise (fettlerBad (.region (m / 256)) 1 (bramRef (m % 256) w).loc 0 inj)) s, out)

/-- One word of an engine memory. -/
def fettleDsp (id : Nat) (prog : Bool) (w : Nat) (s : State) : State × GridOut :=
  let e := s.engine id
  let (v, out) := e.readWord prog w
  let n := e.noteOf prog w out
  let s := dspNote id n 67 true s
  let s := onlyIf out.fixable (modEngine id (fun e => e.putWord prog w v)) s
  (onlyIf (decide (out = .uncorrectable))
    (raise (fettlerBad (.region (id / 32)) 2 (dspRef prog (id % 32) w).loc 0 n.injected)) s, out)

/-- One line of an Ingot bank: read, correct and write are one grant (R208, R209). -/
def fettleIngot (bank line : Nat) (s : State) : State × GridOut :=
  let off := 32 * line
  let inj := s.ingot.injected.contains (ingotKey bank off / 32)
  let (s, d, out) := ingotFetch bank off 67 true (ingotGrant bank 67 (runBank bank s))
  let s := onlyIf out.fixable (ingotPut bank off d) s
  (onlyIf (decide (out = .uncorrectable)) (raise (fettlerBad (.region bank) 3 off 0 inj)) s, out)

/-- One line of HBM: stored bits only (R398). -/
def fettleHbm (a : Nat) (s : State) : State × GridOut :=
  let out := (s.hbm.eccAt a).out
  let s := touchLine a true s
  let s := onlyIf out.fixable (modHbm (fun h => { h with ecc := tset .clean h.ecc (a / 64) .clean })) s
  (onlyIf (decide (out = .uncorrectable)) (raise (fettlerBad (.pc (pcOf a)) 4 a 0 false)) s, out)

/-! ### Sweeps (R404, R406) -/

/-- The Fettler scrubs a memory while every VALID or ACTIVE plane that connects it configures it protected (R202). -/
def bramSwept (reg : Region) (m : Nat) : Bool :=
  (List.range 4).all (fun p =>
    let x := reg.plane p
    !(decide (x.st = .valid) || decide (x.st = .active)) || (match x.use.bram m with | some c => !c.raw | none => true))

/-- The first word of a sweep at or after a position. A region's frames stand plane by plane, its memories memory by
memory, its engines engine by engine, program before data. -/
def wordAt (s : State) (r k pos : Nat) : Option Nat :=
  let reg := s.region r
  let unit := fun (size n : Nat) (ok : Nat → Bool) =>
    ((List.range n).find? (fun i => decide (pos < size * (i + 1)) && ok i)).map (fun i => max pos (size * i))
  match k with
  | 0 => unit patternFrames 4 (fun p => (reg.plane p).swept)
  | 1 => unit 512 256 (bramSwept reg)
  | 2 => if pos < 32 * 6144 then some pos else none
  | _ => if pos < 131072 then some pos else none

/-- Reads one word of a region's sweep. -/
def fettleWord (r k pos : Nat) (s : State) : State × GridOut :=
  match k with
  | 0 => fettleFrame r (pos / patternFrames) (frameKey (pos % patternFrames)) s
  | 1 => fettleBram (256 * r + pos / 512) (pos % 512) s
  | 2 =>
    let w := pos % 6144
    fettleDsp (32 * r + pos / 6144) (decide (w < 2048)) (if w < 2048 then w else w - 2048) s
  | _ => fettleIngot r pos s

/-- The period setting that a pass takes at its first word. -/
def beginPass (s : State) (i : Nat) (w : Sweep) : Sweep :=
  if w.pos = 0 then { w with period := lget 0 s.integ.periods i } else w

/-- A region's sweep goes on behind a word; the pass ends with the last one. -/
def sweepOn (r k i : Nat) (s : State) : State :=
  if (wordAt s r k (i + 1)).isSome then modSweep r k (fun w => { w with pos := i + 1 }) s
  else bumpInteg (.region r) 7 1 (modSweep r k (fun w => { w with pos := 0, passes := w.passes + 1 }) s)

/-- The block memory whose port B the next word of the sweep has to wait for (R202, R203). -/
def scrubWaits (s : State) (r k i : Nat) : Bool := k == 1 && portTaken s (256 * r + i / 512)

/-- The next word of a region's sweep. -/
def sweepStep (r k : Nat) (s : State) : State :=
  match wordAt s r k (s.sweep r k).pos with
  | none => modSweep r k (fun w => { w with pos := 0 }) s
  | some i =>
    let s := modSweep r k (beginPass s k) s
    if scrubWaits s r k i then
      modBram (256 * r + i / 512) (fun b => { b with scrub := some (i % 512) }) (modSweep r k (fun w => { w with pos := i }) s)
    else sweepOn r k i (fettleWord r k i s).1

/-- The next line of the HBM sweep. -/
def hbmStep (s : State) : State :=
  let s := modSweep 64 0 (beginPass s 4) s
  let i := (s.sweep 64 0).pos
  let (s, _) := fettleHbm (64 * i) s
  if 64 * (i + 1) < hbmBytes then modSweep 64 0 (fun w => { w with pos := i + 1 }) s
  else bumpInteg (.pc 0) 7 1 (modSweep 64 0 (fun w => { w with pos := 0, passes := w.passes + 1 }) s)

/-- The Fettler runs: it stops for good when a restart has not helped (R407). -/
def fettling (s : State) : Bool := s.awake && s.integ.status != 2

/-- A region's sweep goes on. -/
def sweeping (s : State) (r k : Nat) : Bool := fettling s && !(s.region r).sweepPaused k

/-- FETTLER_WORD_READ (R404). HBM is one sweep, in address order; its word lies in the pseudo-channel named. -/
def execFettlerWordRead (t : SweepTarget) (s : State) : Out :=
  match t with
  | .frames r => occurs (sweeping s r.val 0) (sweepStep r.val 0) s
  | .brams r => occurs (sweeping s r.val 1) (sweepStep r.val 1) s
  | .dsp r => occurs (sweeping s r.val 2) (sweepStep r.val 2) s
  | .ingot r => occurs (sweeping s r.val 3) (sweepStep r.val 3) s
  | .hbm pc => occurs (fettling s && s.dev.hbmReady && pcOf (64 * (s.sweep 64 0).pos) == pc.val) hbmStep s

/-! ### The heartbeat (R407) -/

/-- FETTLER_HEARTBEAT (R407). -/
def execFettlerHeartbeat (s : State) : Out :=
  occurs (fettling s) (modInteg (fun g => { g with heartbeat := (g.heartbeat + 1) % 2 ^ 32 })) s

/-- The event Fettler restarted; restart failed. -/
def fettlerEvent (sev : Nat) (s : State) : State :=
  raise { cls := 4, sev := sev, code := 0x0F08, kind := 0, details := [(4, s.integ.heartbeat)] } s

/-- Cupola's check of the count: a count that stands restarts the Fettler once, and then stops it for good. -/
def watchFettler (s : State) : State :=
  let g := s.integ
  if g.heartbeat ≠ g.lastBeat then modInteg (fun g => { g with lastBeat := g.heartbeat, restartTried := false }) s
  else if g.restartTried then fettlerEvent 4 (modInteg (fun g => { g with status := 2 }) s)
  else
    fettlerEvent 3 (modInteg (fun g => { g with
      status := 1, restartTried := true, sweeps := g.sweeps.map (fun w => (w.1, { w.2 with pos := 0 })) }) s)

/-- FETTLER_WATCH (R407). -/
def execFettlerWatch (s : State) : Out := occurs (s.firmware && fettling s) watchFettler s

/-! ### Trackers (R409) -/

/-- One scrub interval of the words of the kinds given: sticky entries quiet for 8 intervals are freed. -/
def ageTracker (kinds : List Nat) (l : List TrackEnt) : List TrackEnt :=
  (l.map (fun e => if kinds.contains e.word.kind then { e with quiet := e.quiet + 1 } else e)).filter
    (fun e => !(kinds.contains e.word.kind && e.sticky && decide (8 ≤ e.quiet)))

def ageAt (pl : Place) (kinds : List Nat) (s : State) : State := setTracker pl (ageTracker kinds (s.tracker pl)) s

/-- TRACKER_INTERVAL (R409). -/
def execTrackerInterval (t : SweepTarget) (s : State) : Out :=
  match t with
  | .frames r => occurs s.awake (ageAt (.region r.val) [1]) s
  | .brams r => occurs s.awake (ageAt (.region r.val) [2]) s
  | .dsp r => occurs s.awake (ageAt (.region r.val) [3, 4]) s
  | .ingot r => occurs s.awake (ageAt (.region r.val) [5]) s
  | .hbm pc => occurs s.awake (ageAt (.pc pc.val) [6]) s

/-! ### FETTLER_CONFIG (Table 15.5) and FETTLER_PASS (Table 15.6) -/

/-- Shortest and default periods (Table 15.4). -/
def shortestPeriods : List Nat := [3100, 10000, 10000, 10000, 600000]
def defaultPeriods : List Nat := [100000, 100000, 1000000, 1000000, 86400000]

/-- A period asked for: 0 keeps the present one. -/
def periodOk (i v : Nat) : Bool :=
  v == 0 || (decide (lget 0 shortestPeriods i ≤ v) && decide (v ≤ 100 * lget 0 defaultPeriods i))

def fettlerResults (s : State) : Results :=
  (List.range 5).map (fun i => (16 + 4 * i, 4, lget 0 s.integ.periods i)) ++ [(36, 1, s.integ.status), (40, 4, s.integ.heartbeat)]

def fettlerConfigSpec : CmdSpec where
  opcode := 0x0900
  query := true
  portOk := fun q => q.queryFlag || mb01 q
  targetOk := devTarget
  body := fun q s =>
    let want := fun (i : Nat) => q.arg (8 + 4 * i) 4
    if q.queryFlag then
      (modInteg (fun g => { g with status := if g.status = 1 then 0 else g.status }) s, .done stOk (fettlerResults s))
    else if !(List.range 5).all (fun i => periodOk i (want i)) then (s, .done stBadArg [])
    else
      let s := modInteg (fun g => { g with
        periods := (List.range 5).map (fun i => if want i = 0 then lget 0 g.periods i else want i) }) s
      (s, .done stOk (fettlerResults s))
/-- FETTLER_CONFIG (R404). -/
def execFettlerConfig (p : Port) (sl : Fin 4) (s : State) : Out := runCmd fettlerConfigSpec p sl s

/-- BANKED or below. -/
def asleep (s : State) (r : Nat) : Bool := (s.region r).power.low

def fettlerPassSpec : CmdSpec where
  opcode := 0x0901
  targetOk := below 64
  owners := ownRegion
  body := fun q s =>
    let r := q.target
    let t := q.argByte 8
    if 32 ≤ t then (s, .done stBadArg [])
    else if s.integ.passes.any (fun e => e.1 == r) then (s, .done stBusy [])
    else if asleep s r then (s, .done stRegionAsleep [])
    else (startPass r (BitVec.ofNat 5 t) (some q.waiter) s, .wait)
/-- FETTLER_PASS (R408). -/
def execFettlerPass (p : Port) (sl : Fin 4) (s : State) : Out := runCmd fettlerPassSpec p sl s

/-- What a pass has counted: words, data-bit corrections, check-bit corrections, uncorrectable words. -/
structure PassCount where
  words : Nat := 0
  data : Nat := 0
  check : Nat := 0
  bad : Nat := 0

def PassCount.add (c : PassCount) : GridOut → PassCount
  | .clean => c
  | .dataBit _ => { c with data := c.data + 1 }
  | .checkBit _ => { c with check := c.check + 1 }
  | .uncorrectable => { c with bad := c.bad + 1 }

/-- Reads words in order; a word that is not listed is clean, and only counted by the caller. -/
def passOver {α : Type} (l : List α) (read : α → State → State × GridOut) (acc : State × PassCount) : State × PassCount :=
  l.foldl (fun (a : State × PassCount) x =>
    let (s, out) := read x a.1
    (s, a.2.add out)) acc

/-- Frames of one tier: `lo` to `hi` are their keys. -/
def passFrames (r lo hi : Nat) (acc : State × PassCount) : State × PassCount :=
  (List.range 4).foldl (fun (a : State × PassCount) p =>
    let x := (a.1.region r).plane p
    if x.swept then
      let dirty := x.frames.filter (fun f => decide (lo ≤ f.1) && decide (f.1 < hi) && f.2.syn != 0)
      passOver dirty (fun f => fettleFrame r p f.1) (a.1, { a.2 with words := a.2.words + (hi - lo) })
    else a) acc

def passBrams (r : Nat) (acc : State × PassCount) : State × PassCount :=
  ((List.range 256).filter (bramSwept (acc.1.region r))).foldl (fun (a : State × PassCount) m =>
    let dirty := (a.1.bram (256 * r + m)).words.filter (fun w => decide (wordOut w.2 ≠ .clean))
    passOver dirty (fun w => fettleBram (256 * r + m) w.1) (a.1, { a.2 with words := a.2.words + 512 })) acc

def passDsp (r : Nat) (acc : State × PassCount) : State × PassCount :=
  (List.range 32).foldl (fun (a : State × PassCount) j =>
    let e := a.1.engine (32 * r + j)
    let dirty := (e.progSyn.map (fun w => (true, w.1))) ++ (e.dataSyn.map (fun w => (false, w.1)))
    passOver dirty (fun w => fettleDsp (32 * r + j) w.1 w.2) (a.1, { a.2 with words := a.2.words + 6144 })) acc

def passIngot (r : Nat) (acc : State × PassCount) : State × PassCount :=
  let dirty := acc.1.ingot.syn.filter (fun l => l.1 / 131072 == r)
  passOver dirty (fun l => fettleIngot r (l.1 % 131072)) (acc.1, { acc.2 with words := acc.2.words + 131072 })

/-- A whole priority pass: the targets in the order of their bits. -/
def wholePass (r : Nat) (t : BitVec 5) (s : State) : State × PassCount :=
  let on := fun (i : Nat) (f : State × PassCount → State × PassCount) (a : State × PassCount) => if t.getLsbD i then f a else a
  on 4 (passIngot r) (on 3 (passDsp r) (on 2 (passBrams r) (on 1 (passFrames r 8192 9728) (on 0 (passFrames r 0 4608) (s, {})))))

/-- The pass of a region ends and its request is answered. -/
def endPass (r : Nat) (j : PassJob) (s : State) : State :=
  let (s, c) := wholePass r j.targets s
  let s := modInteg (fun g => { g with passes := g.passes.filter (fun e => e.1 != r) }) s
  replyOpt j.waiter stOk [(16, 4, c.words), (20, 4, c.data), (24, 4, c.check), (28, 4, c.bad)] s

/-- A pass pauses with its region (R406). -/
def passPaused (reg : Region) (t : BitVec 5) : Bool :=
  ((t.getLsbD 0 || t.getLsbD 1) && reg.sweepPaused 0) || (List.range 3).any (fun k => t.getLsbD (k + 2) && reg.sweepPaused (k + 1))

/-- FETTLER_PASS_COMPLETE (R408). -/
def execFettlerPassComplete (r : Fin 64) (s : State) : Out :=
  match s.integ.passes.find? (fun e => e.1 == r.val) with
  | some e => occurs (fettling s && !passPaused (s.region r.val) e.2.targets) (endPass r.val e.2) s
  | none => .next s

/-! ### INTEGRITY_COUNTERS (Table 15.17) and HARD_FAULT_LOG (Table 15.9) -/

/-- The right to clear a target's counters: the region's owner, or MB0 and MB1 for HBM. -/
def mayClear (q : Req) (s : State) : State × Nat :=
  if q.target < 64 then claimOne q (ownKey 0 q.target) s else (s, if mb01 q then stOk else stNotOwner)

def integrityCountersSpec : CmdSpec where
  opcode := 0x0902
  targetOk := belowOrDev 64
  body := fun q s =>
    let key := min q.target 64
    let cs := tget [0, 0, 0, 0, 0, 0, 0, 0] s.integ.counters key
    let res : Results := (List.range 8).map (fun i => (16 + 4 * i, 4, lget 0 cs i))
    if 2 ≤ q.argByte 8 then (s, .done stBadArg [])
    else if q.argByte 8 = 0 then (s, .done stOk res)
    else
      let (s, st) := mayClear q s
      (onlyIf (st == stOk) (modInteg (fun g => { g with
        counters := tset [0, 0, 0, 0, 0, 0, 0, 0] g.counters key [0, 0, 0, 0, 0, 0, 0, 0] })) s, .done st res)
/-- INTEGRITY_COUNTERS (R400). -/
def execIntegrityCounters (p : Port) (sl : Fin 4) (s : State) : Out := runCmd integrityCountersSpec p sl s

/-- Clears a record; the tracker entry that it belonged to has none. -/
def clearRecord (k : Nat) (s : State) : State :=
  modInteg (fun g => { g with
    log := tset {} g.log k {}
    trackers := g.trackers.map (fun t => (t.1, t.2.map (fun e => if e.record = some k then { e with record := none } else e))) }) s

def hardFaultLogSpec : CmdSpec where
  opcode := 0x0910
  portOk := fun q => q.argByte 8 != 1 || mb01 q
  targetOk := devTarget
  body := fun q s =>
    let i := q.arg 10 2
    let res := fun (s : State) (recs : Results) =>
      [(16, 2, s.integ.log.length), (18, 2, s.integ.logOverflow)] ++ recs
    if 2 ≤ q.argByte 8 ∨ 256 ≤ i then (s, .done stBadArg [])
    else if q.argByte 8 = 1 then
      let s := clearRecord i s
      (s, .done stOk (res s []))
    else (s, .done stOk (res s ((List.range (min 7 (256 - i))).map (fun k => (24 + 32 * k, 32, (tget {} s.integ.log (i + k)).word)))))
/-- HARD_FAULT_LOG (R410). -/
def execHardFaultLog (p : Port) (sl : Fin 4) (s : State) : Out := runCmd hardFaultLogSpec p sl s

/-! ### FAULT_RETIRE (Table 15.10) -/

/-- Planes that a defect bars: the resident planes that use it (R124). -/
def barredMask (reg : Region) (d : BitVec 32) : Nat :=
  (List.range 4).foldl (fun n p =>
    let x := reg.plane p
    if (x.swept && x.use.hits d) = true then n + 2 ^ p else n) 0

/-- A block memory retired by software (R411, R412). -/
def retireBram (q : Req) (s : State) : State × Answer :=
  let r := q.target
  let m := q.arg 10 2
  let d := memEntry 3 m
  let reg := s.region r
  let connected := decide (reg.now.st = .active) && (reg.now.use.bram m).isSome
  if 256 ≤ m then (s, .done stBadArg [])
  else if (s.bram (256 * r + m)).retired then (s, .done stDenied [])
  else if asleep s r then (s, .done stRegionAsleep [])
  else if connected ∧ q.force = false then (s, .done stBusy [])
  else
    let users := barredMask reg d
    let (s, isolated) := addRetiredMemory r d s
    let s := onlyIf isolated (raise (isolatedEvent r 3)) s
    let s := markRetired 2 r (fun loc => loc / 256 % 256 == m) s
    let s := raise (retiredEvent (.region r) 2 (256 * m)) s
    (s, .done stOk [(16, 1, users)])

/-- A page repair begins (R413). -/
def retirePage (q : Req) (s : State) : State × Answer :=
  let a := q.arg 16 8
  if hbmBytes ≤ a then (s, .done stBadArg [])
  else if s.hbm.repair.isSome then (s, .done stBusy [])
  else if Config.spareRows s.hbm.repaired (a / 4096) = 0 then (s, .done stNoRoom [])
  else (modHbm (fun h => { h with repair := some (a / 4096, q.waiter) }) s, .wait)

def faultRetireSpec : CmdSpec where
  opcode := 0x0911
  portOk := fun q => q.target != 0xFFFF || mb01 q
  targetOk := belowOrDev 64
  owners := fun q _ => if q.target < 64 then [ownKey 0 q.target] else []
  body := fun q s =>
    if q.argByte 8 = 1 ∧ q.target < 64 then retireBram q s
    else if q.argByte 8 = 2 ∧ q.target = 0xFFFF then retirePage q s
    else (s, .done stBadArg [])
/-- FAULT_RETIRE (R411). -/
def execFaultRetire (p : Port) (sl : Fin 4) (s : State) : Out := runCmd faultRetireSpec p sl s

/-- The repair of a page ends (R413): it was read with correction and written back, and what was held goes on. -/
def endRepair (page : Nat) (w : Waiter) (s : State) : State :=
  let s := forBelow 64 (fun i s =>
    let a := 4096 * page + 64 * i
    let fix := decide (s.hbm.eccAt a = .corrected)
    onlyIf fix (modHbm (fun h => { h with ecc := tset .clean h.ecc (a / 64) .clean })) (touchLine a false s)) s
  let s := modHbm (fun h => { h with repair := none, repaired := insNat page h.repaired }) s
  let s := markRetired 6 (page % 64) (fun loc => loc / 4096 == page) s
  let s := raise (retiredEvent (.pc (page % 64)) 6 (4096 * page)) s
  retryPage (reply w stOk [(16, 2, Config.spareRows s.hbm.repaired page)] s)

/-- HBM_REPAIR_COMPLETE (R413). -/
def execHbmRepairComplete (s : State) : Out :=
  match s.hbm.repair with
  | some (page, w) => occurs s.awake (endRepair page w) s
  | none => .next s

/-! ### SPLIT_WRITE (Table 15.11) -/

/-- Stored data and syndrome after the named positions have been inverted. -/
def flipBits {w v : Nat} (n : Nat) (ps : List Nat) (data : BitVec w) (syn : BitVec v) : BitVec w × BitVec v :=
  ps.foldl (fun (a : BitVec w × BitVec v) p =>
    let chk := decide (32768 ≤ p)
    let i := p % 32768
    (if chk then a.1 else a.1 ^^^ BitVec.ofNat w (2 ^ i), a.2 ^^^ BitVec.ofNat v (synOfFlip n chk i))) (data, syn)

/-- A position lies in a Gn code. -/
def positionOk (n p : Nat) : Bool := if p < 32768 then decide (p < n * n) else decide (p - 32768 < 2 * n)

/-- Side of the code of a kind (Table 15.1). -/
def codeSide (kind : Nat) : Nat := if kind = 1 then 64 else if kind = 5 then 16 else 8

/-- A location names a word of the kind in region `r` (Table 15.7). -/
def locationOk (kind r loc : Nat) : Bool :=
  match kind with
  | 1 => decide (loc < 2 ^ 22) && loc % 2 ^ 20 / 16384 == r && (frameNumber (loc % 16384)).isSome
  | 2 => loc % 256 == 0 && decide (loc < 2 ^ 25)
  | 3 => decide (loc % 65536 < 32) && decide (loc / 65536 < 2048)
  | 4 => decide (loc % 65536 < 32) && decide (loc / 65536 < 4096)
  | _ => decide (loc < bankBytes)

/-- Plants an error pattern in a frame of a plane. -/
def splitFrame (r p key : Nat) (ps : List Nat) (s : State) : State × GridOut :=
  let f := tget {} ((s.region r).plane p).frames key
  let (d, syn) := flipBits 64 ps f.data f.syn
  (putFrame r p key { data := d, syn := syn, injected := true } s, decodeSyn 64 syn.toNat)

/-- In a block memory word, which is stored with its check bits. -/
def splitBram (m w : Nat) (ps : List Nat) (s : State) : State × GridOut :=
  let at_ := fun (p : Nat) => if p < 32768 then p else 64 + (p - 32768)
  let v := ps.foldl (fun (v : BitVec 80) p => v ^^^ BitVec.ofNat 80 (2 ^ at_ p)) ((s.bram m).word w)
  (modBram m (fun b =>
    let b := b.put w v
    { b with injected := insNat w b.injected }) s, wordOut v)

/-- In a word of an engine memory. -/
def splitDsp (id : Nat) (prog : Bool) (w : Nat) (ps : List Nat) (s : State) : State × GridOut :=
  let e := s.engine id
  let (d, syn) := flipBits 8 ps (tget 0 (if prog then e.prog else e.data) w) (tget 0 (if prog then e.progSyn else e.dataSyn) w)
  (modEngine id (fun e =>
    let e := { e with injected := insNat (injKey prog w) e.injected }
    if prog then { e with prog := tset 0 e.prog w d, progSyn := tset 0 e.progSyn w syn }
    else { e with data := tset 0 e.data w d, dataSyn := tset 0 e.dataSyn w syn }) s, decodeSyn 8 syn.toNat)

/-- In a line of an Ingot bank. -/
def splitIngot (bank off : Nat) (ps : List Nat) (s : State) : State × GridOut :=
  let a := ingotKey bank (off / 32 * 32)
  let (d, syn) := flipBits 16 ps (s.ingot.half bank off) (tget 0 s.ingot.syn (a / 32))
  (modIngot (fun g => { g with
    mem := wrBytes g.mem a (bytesOf d 32), syn := tset 0 g.syn (a / 32) syn, injected := insNat (a / 32) g.injected }) s,
   decodeSyn 16 syn.toNat)

/-- The write of a kind. -/
def splitWord (kind r plane loc : Nat) (ps : List Nat) (s : State) : State × GridOut :=
  match kind with
  | 1 => splitFrame r plane (loc % 16384) ps s
  | 2 => splitBram (256 * r + loc / 256 % 256) (loc / 65536) ps s
  | 3 => splitDsp (32 * r + loc % 65536) true (loc / 65536) ps s
  | 4 => splitDsp (32 * r + loc % 65536) false (loc / 65536) ps s
  | _ => splitIngot r loc ps s

def splitWriteSpec : CmdSpec where
  opcode := 0x0920
  targetOk := below 64
  owners := ownRegion
  body := fun q s =>
    let r := q.target
    let kind := q.argByte 8
    let plane := q.argByte 9
    let loc := q.arg 12 4
    let n := q.argByte 16
    let ps := (List.range n).map (fun i => q.arg (18 + 2 * i) 2)
    if kind = 0 ∨ 5 < kind ∨ (kind = 1 ∧ 4 ≤ plane) ∨ locationOk kind r loc = false ∨ n = 0 ∨ 16 < n
        ∨ ps.all (positionOk (codeSide kind)) = false then (s, .done stBadArg [])
    else if (kind = 1 ∧ ((s.region r).plane plane).st = .active)
        ∨ (kind = 2 ∧ (s.bramCfg (256 * r + loc / 256 % 256)).raw = true) then (s, .done stDenied [])
    else if asleep s r then (s, .done stRegionAsleep [])
    else
      let (s, out) := splitWord kind r plane loc ps s
      (s, .done stOk [(16, 2, out.code)])
/-- SPLIT_WRITE (R415). -/
def execSplitWrite (p : Port) (sl : Fin 4) (s : State) : Out := runCmd splitWriteSpec p sl s

/-! ### CRC units (R416 to R419) -/

def crcBindResults (s : State) (r : Nat) : Results :=
  (List.range 4).map (fun i => (16 + i, 1, (boundChannel s r i).getD 0xFF))

/-- Ends the binding of a slot. -/
def unbindSlot (r slot : Nat) (s : State) : State :=
  match boundChannel s r slot with
  | some c => modCrcChan c (fun u => { u with bound := none }) s
  | none => s

def crcBindSpec : CmdSpec where
  opcode := 0x0930
  query := true
  targetOk := below 64
  owners := ownRegion
  body := fun q s =>
    let r := q.target
    let slot := q.argByte 8
    let c := q.argByte 9
    if q.queryFlag then (s, .done stOk (crcBindResults s r))
    else if 4 ≤ slot ∨ (16 ≤ c ∧ c ≠ 0xFF) then (s, .done stBadArg [])
    else if c = 0xFF then
      let s := unbindSlot r slot s
      (s, .done stOk (crcBindResults s r))
    else if (s.crcChan c).bound.isSome ∧ (s.crcChan c).bound ≠ some (r, slot) then (s, .done stDenied [])
    else
      let s := modCrcChan c (fun u => { u with bound := some (r, slot) }) (unbindSlot r slot s)
      (s, .done stOk (crcBindResults s r))
/-- CRC_BIND (R419). -/
def execCrcBind (p : Port) (sl : Fin 4) (s : State) : Out := runCmd crcBindSpec p sl s

/-- Does the fabric reach a primitive that the active plane places (R91)? -/
def fabricReaches (s : State) (r : Nat) (placed : PlaneUse → Bool) : Bool :=
  let reg := s.region r
  fabricClocked s r && !reg.copeReset && placed reg.now.use

/-- Changes the unit that `CRC_UNIT` names: the region's own, or the channel bound to a slot. -/
def crcUnitOp (r unit : Nat) (f : CrcUnit → CrcUnit) (s : State) : State :=
  if unit = 0 then modCrcUnit r f s
  else match boundChannel s r (unit - 1) with
    | some c => if unit < 5 then modCrcChan c f s else s
    | none => s

/-- Bytes of a feed: `CRC_SIZE` 3 is taken as a word (Table 15.13). -/
def feedBytes (size : Nat) (v : BitVec 32) : List Byte := bytesOf v (if size = 0 then 1 else if size = 1 then 2 else 4)

/-- The active plane places `CRC_PORT` and presents an operation there, and the region's own unit is not occupied (R417,
R418). -/
def crcTaken (s : State) (r op unit : Nat) (size : Option Nat) (data : BitVec 32) : Bool :=
  fabricReaches s r (·.crcPort) && presentsCrc s r op unit size data && (unit != 0 || (s.region r).crcLeft == 0)

/-- An operation of the named unit; one on the region's own occupies it for `n` cycles (R418). -/
def crcOperate (r unit n : Nat) (f : CrcUnit → CrcUnit) (s : State) : State :=
  crcUnitOp r unit f (onlyIf (unit == 0) (modRegion r (fun x => { x with crcLeft := n })) s)

/-- CRC_FEED (R418). -/
def execCrcFeed (r : Fin 64) (unit : Fin 8) (size : Fin 4) (value : BitVec 32) (s : State) : Out :=
  occurs (crcTaken s r.val 0 unit.val (some size.val) value) (crcOperate r.val unit.val (feedBytes size.val value).length (fun u => u.feed (feedBytes size.val value))) s

/-- CRC_LOAD (R418). -/
def execCrcLoad (r : Fin 64) (unit : Fin 8) (value : BitVec 32) (s : State) : Out :=
  occurs (crcTaken s r.val 1 unit.val none value) (crcOperate r.val unit.val 1 (fun u => u.load value)) s

/-- CRC_SELECT (R418). -/
def execCrcSelect (r : Fin 64) (unit : Fin 8) (value : BitVec 32) (s : State) : Out :=
  occurs (crcTaken s r.val 2 unit.val none value) (crcOperate r.val unit.val 1 (fun u => u.select value)) s

end Sys2Proof.Machine
end

