-- ==== Sys2Proof/Machine/Riser.lean ====
section
/-! DEFINITION. Meanings of the Riser engine's event and of its commands (R358 to R375, Tables 13.4 to 13.7). -/

namespace Sys2Proof.Machine

/-! ### Read-back (R359, R372) -/

/-- SPILL_READBACK_COMPLETE (R359): the item stands in the head buffer, and a held pop is answered. -/
def execSpillReadbackComplete (q : Fin 4096) (bad : Bool) (s : State) : Out :=
  let x := s.queue q.val
  occurs (s.awake && x.enabled && decide (0 < x.reading) && decide (0 < x.spilled)) (fun s =>
    retryPops q.val (modQueue q.val (Queue.readBack bad) s)) s

/-! ### RISER_SPILL (Table 13.4) -/

/-- Does a span of HBM touch a protected range, or one that is being created? -/
def spanProtected (s : State) (base len : Nat) : Bool :=
  (List.range 8).any (fun i => ((s.range i).defined || (s.range i).filling.isSome)
    && decide (base < (s.range i).base + (s.range i).span) && decide ((s.range i).base < base + len))

def spillResults (s : State) : Results :=
  [(16, 8, s.riser.spillBase), (24, 4, s.riser.spillPages), (28, 4, pagesReserved s)]

/-- The span asked for (R360). -/
def spillOk (s : State) (base pages : Nat) : Bool :=
  pages == 0 || (base % 4096 == 0 && decide (pages ≤ 4194304) && decide (base + 4096 * pages ≤ hbmBytes)
    && !spanProtected s base (4096 * pages))

def riserSpillSpec : CmdSpec where
  opcode := 0x0700
  query := true
  portOk := fun q => q.queryFlag || mb01 q
  targetOk := devTarget
  body := fun q s =>
    let base := q.arg 8 8
    let pages := q.arg 16 4
    if q.queryFlag then (s, .done stOk (spillResults s))
    else if !spillOk s base pages then (s, .done stBadArg [])
    else if pagesReserved s ≠ 0 then (s, .done stBusy [])
    else
      let s := modRiser (fun r => { r with spillBase := if pages = 0 then 0 else base, spillPages := pages }) s
      (s, .done stOk (spillResults s))
/-- RISER_SPILL (R360). -/
def execRiserSpill (p : Port) (sl : Fin 4) (s : State) : Out := runCmd riserSpillSpec p sl s

/-! ### RISER_CONFIG (Table 13.5) -/

/-- The owner of a queue's set (R358). -/
def ownQueueSet (q : Req) (_ : State) : List Nat := [ownKey 3 (q.target / 64)]

/-- Resets a queue by command, and answers its held pops with the idle item (R373). -/
def commandReset (q : Nat) (s : State) : State := retryPops q (resetQueue q none s)

/-- The configuration in effect. -/
def riserConfigResults (x : Queue) : Results :=
  [(16, 1, bit x.enabled), (20, 4, x.cap), (24, 1, x.producer), (25, 1, x.consumer),
   (48, 1, bit x.prodHard + 2 * bit x.consHard)]

/-- A queue that is enabled: empty, its counts at their start, with credit for its whole capacity (R368). -/
def Queue.enable (x : Queue) (cap pages : Nat) : Queue :=
  { x with enabled := true, cap := cap, pages := pages, limit := BitVec.ofNat 32 cap, pushed := 0, popped := 0, committedCnt := 0, prod := .closed
           committed := [], opened := [], headCount := 0, spilled := 0, reading := 0, ptrSyn := 0 }

/-- A queue that is disabled: its spill pages are released (R358). -/
def Queue.disable (x : Queue) : Queue := { x with enabled := false, pages := 0 }

/-- Master ID of one side: 0xFF keeps the binding. -/
def sideOf (arg now : Nat) : Nat := if arg = 0xFF then now else arg

/-- What enabling a queue asks for, by the spec of each side. -/
def enableQueue (q : Req) (x : Queue) (s : State) : State × Answer :=
  let n := q.target
  let cap := q.arg 12 4
  let prod := sideOf (q.argByte 16) x.producer
  let cons := sideOf (q.argByte 17) x.consumer
  let pages := spillPagesFor cap
  if cap = 0 ∨ 16 + 2 ^ 24 < cap ∨ 71 < prod ∨ 71 < cons then (s, .done stBadArg [])
  else if (x.prodHard && prod != x.producer) || (x.consHard && cons != x.consumer) then (s, .done stDenied [])
  else if x.enabled = true ∧ (cap ≠ x.cap ∨ prod ≠ x.producer ∨ cons ≠ x.consumer) then (s, .done stBusy [])
  else if x.enabled = true then (s, .done stOk (riserConfigResults x))
  else if s.riser.spillPages < pagesReserved s + pages then (s, .done stNoRoom [])
  else
    let s := modQueue n (fun x => { x.enable cap pages with producer := prod, consumer := cons }) s
    (s, .done stOk (riserConfigResults (s.queue n)))

/-- What disabling a queue asks for (R375). -/
def disableQueue (q : Req) (x : Queue) (s : State) : State × Answer :=
  let n := q.target
  if x.enabled = true ∧ x.size ≠ 0 ∧ q.force = false then (s, .done stBusy [])
  else
    let s := onlyIf (x.enabled && x.size != 0) (commandReset n) s
    let s := modQueue n Queue.disable s
    (s, .done stOk (riserConfigResults (s.queue n)))

def riserConfigSpec : CmdSpec where
  opcode := 0x0701
  query := true
  targetOk := below 4096
  owners := ownQueueSet
  body := fun q s =>
    let x := s.queue q.target
    if q.queryFlag then (s, .done stOk (riserConfigResults x))
    else match q.argByte 8 with
      | 0 => disableQueue q x s
      | 1 => enableQueue q x s
      | _ => (s, .done stBadArg [])
/-- RISER_CONFIG (R375). -/
def execRiserConfig (p : Port) (sl : Fin 4) (s : State) : Out := runCmd riserConfigSpec p sl s

/-! ### RISER_STATUS (Table 13.6) and RISER_RESET (Table 13.7) -/

def riserStatusSpec : CmdSpec where
  opcode := 0x0702
  targetOk := below 4096
  body := fun q s =>
    let n := q.target
    let x := s.queue n
    let res : Results := (16, 48, (stateLine x).toNat) :: (List.range 7).map (fun i => (64 + 4 * i, 4, lget 0 x.counters i))
    if 2 ≤ q.argByte 8 then (s, .done stBadArg [])
    else if q.argByte 8 = 0 then (s, .done stOk res)
    else
      let (s, st) := claimOne q (ownKey 3 (n / 64)) s
      (onlyIf (st == stOk) (modQueue n (fun x => { x with counters := [0, 0, 0, 0, 0, 0, 0] })) s, .done st res)
/-- RISER_STATUS (R374). -/
def execRiserStatus (p : Port) (sl : Fin 4) (s : State) : Out := runCmd riserStatusSpec p sl s

def riserResetSpec : CmdSpec where
  opcode := 0x0703
  targetOk := below 4096
  owners := ownQueueSet
  body := fun q s =>
    let n := q.target
    if (s.queue n).enabled = false then (s, .done stBadArg [])
    else
      let s := commandReset n s
      (s, .done stOk [(16, 1, (s.queue n).epoch.toNat), (20, 4, (s.queue n).limit.toNat)])
/-- RISER_RESET (R373). -/
def execRiserReset (p : Port) (sl : Fin 4) (s : State) : Out := runCmd riserResetSpec p sl s

end Sys2Proof.Machine
end

