-- ==== Sys2Proof/Machine/Protect.lean ====
section
/-! DEFINITION. Meanings of the commands and events of HBM protection: ranges, rekeying and re-initialisation (R379 to
R398, Tables 14.6 to 14.9). -/

namespace Sys2Proof.Machine

/-! ### PROT_RANGE (Table 14.6) -/

/-- The owner of a range (Table 19.10). -/
def ownRange (q : Req) (_ : State) : List Nat := [ownKey 4 q.target]

def rangeResults (r : Range) : Results :=
  [(16, 8, r.base), (24, 1, r.gib), (25, 1, if r.gib = 0 then 0 else r.depth), (28, 4, r.pages), (32, 8, r.mask.toNat)]
    ++ (List.range 6).map (fun i => (40 + 4 * i, 4, lget 0 r.counters i))

/-- Does a span overlap the Riser spill area? -/
def overSpill (s : State) (base len : Nat) : Bool :=
  s.riser.spillPages != 0 && decide (base < s.riser.spillBase + 4096 * s.riser.spillPages) && decide (s.riser.spillBase < base + len)

/-- The checks of a create on its arguments (R379). -/
def createOk (base gib : Nat) : Bool :=
  base % gibBytes == 0 && decide (1 ≤ gib) && decide (gib ≤ 72) && decide (base + gib * gibBytes ≤ hbmBytes)

/-- A create (R379): the range stands once its metadata are zero. -/
def createRange (q : Req) (s : State) : State × Answer :=
  let ri := q.target
  let base := q.arg 16 8
  let gib := q.argByte 24
  if !createOk base gib then (s, .done stBadArg [])
  else if ri = 0 ∨ (s.range ri).defined = true ∨ spanProtected s base (gib * gibBytes) = true
      ∨ overSpill s base (gib * gibBytes) = true then (s, .done stDenied [])
  else if s.hbm.rekey.isSome ∨ (s.range ri).filling.isSome then (s, .done stBusy [])
  else
    (modRange ri (fun _ => { base := base, gib := gib, mask := BitVec.ofNat 64 (q.arg 32 8), filling := some (false, q.waiter) }) s,
      .wait)

/-- A removal (R398). -/
def removeRange (q : Req) (s : State) : State × Answer :=
  let ri := q.target
  if ri = 0 ∨ (s.range ri).defined = false then (s, .done stDenied [])
  else if s.hbm.rekey.isSome ∨ (s.range ri).filling.isSome then (s, .done stBusy [])
  else (modRange ri (fun r => { r with filling := some (true, q.waiter) }) s, .wait)

/-- A new region mask (R382). -/
def maskRange (q : Req) (s : State) : State × Answer :=
  let ri := q.target
  if ri = 0 ∨ (s.range ri).defined = false then (s, .done stDenied [])
  else
    let s := modRange ri (fun r => { r with mask := BitVec.ofNat 64 (q.arg 32 8) }) s
    (s, .done stOk (rangeResults (s.range ri)))

def protRangeSpec : CmdSpec where
  opcode := 0x0800
  query := true
  targetOk := below 8
  owners := ownRange
  body := fun q s =>
    if q.queryFlag then (s, .done stOk (rangeResults (s.range q.target)))
    else match q.argByte 8 with
      | 0 => removeRange q s
      | 1 => createRange q s
      | 2 => maskRange q s
      | _ => (s, .done stBadArg [])
/-- PROT_RANGE (R379). -/
def execProtRange (p : Port) (sl : Fin 4) (s : State) : Out := runCmd protRangeSpec p sl s

/-- The event Range created or removed. -/
def rangeEnded (ri base gib : Nat) (s : State) : State := raise (rangeEvent 9 1 ri [(8, base), (1, gib)]) s

/-- Zero with clean ECC. -/
def zeroHbm (a n : Nat) (h : HbmSt) : HbmSt :=
  { h with mem := zeroBytes h.mem a n, ecc := tclear h.ecc (a / 64) ((a + n) / 64) }

/-- The metadata part is zero, and the range stands (R379, R398). -/
def finishCreate (ri : Nat) (w : Waiter) (s : State) : State :=
  let r := s.range ri
  let s := modHbm (zeroHbm (r.base + r.dc) (r.span - r.dc)) s
  let s := modRange ri (fun r => { r with defined := true, filling := none }) s
  reply w stOk (rangeResults (s.range ri)) (rangeEnded ri r.base r.gib s)

/-- The whole span is zero and ordinary HBM; its poison is gone (R391, R398). -/
def finishRemove (ri : Nat) (w : Waiter) (s : State) : State :=
  let r := s.range ri
  let s := forEach r.reinit (fun j => reply j.2.2 stFault []) s
  let s := modHbm (fun h => { zeroHbm r.base r.span h with poison := h.poison.filter (fun p => p.1 != ri) }) s
  let s := modRange ri (fun _ => {}) s
  reply w stOk (rangeResults (s.range ri)) (rangeEnded ri r.base r.gib s)

/-- A request to a range that has not been performed yet. -/
def rangeInUse (s : State) (ri : Nat) : Bool :=
  s.runner.outst.any (fun o => o.resp.isNone && (s.range ri).has o.hdr.addr.toNat)

/-- PROT_ZERO_FILL_COMPLETE (R379): a removal has waited for the requests accepted before it. -/
def execProtZeroFillComplete (range : Fin 8) (s : State) : Out :=
  match (s.range range.val).filling with
  | some (false, w) => occurs s.awake (finishCreate range.val w) s
  | some (true, w) => occurs (s.awake && !rangeInUse s range.val) (finishRemove range.val w) s
  | none => .next s

/-! ### PROT_STATUS (Table 14.7) -/

/-- Counters of a leaf record (its major counter) or of a node. -/
def itemCounters (h : HbmSt) (r : Range) (k j : Nat) : List Nat :=
  let bs := rdBytes h.mem (r.itemAddr k j) 64
  if k = 0 then [ctrAt bs 0] else (List.range 8).map (ctrAt bs)

/-- The highest counter of a range's tree and root. -/
def highestOf (h : HbmSt) (r : Range) : Nat :=
  let root := r.root.foldl (fun n c => max n c.toNat) 0
  (List.range (r.depth + 1)).foldl (fun n k =>
    (usedItems h r k).foldl (fun n j => (itemCounters h r k j).foldl max n) n) root

def definedRanges (s : State) : List Nat := (List.range 8).filter (fun i => (s.range i).defined)

/-- One poison entry as a number of 8 bytes. -/
def poisonWord (p : Nat × Nat × Nat) : Nat := p.1 + p.2.1 * 256 + p.2.2 * 2 ^ 32

def protStatusSpec : CmdSpec where
  opcode := 0x0801
  targetOk := devTarget
  body := fun q s =>
    let first := q.argByte 8
    if 64 ≤ first then (s, .done stBadArg [])
    else
      let shown := (s.hbm.poison.drop first).take 27
      let running := s.hbm.rekey.isSome
      (s, .done stOk ([(16, 4, s.hbm.epoch), (20, 1, bit running),
          (21, 1, if running then (definedRanges s).headD 0 else 0), (24, 4, 0),
          (28, 1, (definedRanges s).foldl (fun n i => n + 2 ^ i) 0), (29, 1, s.hbm.poison.length),
          (32, 8, (definedRanges s).foldl (fun n i => max n (highestOf s.hbm (s.range i))) 0)]
        ++ (List.range shown.length).map (fun i => (40 + 8 * i, 8, poisonWord (lget (0, 0, 0) shown i)))))
/-- PROT_STATUS (R390). -/
def execProtStatus (p : Port) (sl : Fin 4) (s : State) : Out := runCmd protStatusSpec p sl s

/-! ### Rekeying (R387, R395, Table 14.8) -/

def rekeyResults (s : State) : Results := [(16, 4, s.hbm.epoch), (20, 2, s.hbm.rekeyDays)]

def protRekeySpec : CmdSpec where
  opcode := 0x0802
  portOk := mb01
  targetOk := devTarget
  body := fun q s =>
    if 2 ≤ q.argByte 8 then (s, .done stBadArg [])
    else if s.hbm.rekey.isSome then (s, .done stBusy [])
    else
      let s := modHbm (fun h => { h with rekeyDays := q.arg 12 2 }) s
      if q.argByte 8 = 0 then (s, .done stOk (rekeyResults s)) else (startRekey (some q.waiter) s, .wait)
/-- PROT_REKEY (R395). -/
def execProtRekey (p : Port) (sl : Fin 4) (s : State) : Out := runCmd protRekeySpec p sl s

/-- REKEY_INTERVAL (R387). -/
def execRekeyInterval (s : State) : Out :=
  occurs (s.awake && s.hbm.rekeyDays != 0 && s.hbm.rekey.isNone) (startRekey none) s

/-- The last range is converted: the new key is in force, and the request is answered. -/
def endRekey (k : Rekey) (s : State) : State :=
  let s := convertAll k s
  replyOpt k.waiter stOk (rekeyResults s) s

/-- REKEY_COMPLETE (R395). -/
def execRekeyComplete (s : State) : Out :=
  match s.hbm.rekey with
  | some k => occurs s.awake (endRekey k) s
  | none => .next s

/-! ### Re-initialisation (R392, Table 14.9) -/

/-- A poison entry of a higher level covers a subtree (R392). -/
def underPoison (s : State) (ri level index : Nat) : Bool :=
  level != 255 && s.hbm.poison.any (fun p => p.1 == ri && (p.2.1 == 255 || (decide (level < p.2.1) && index / 8 ^ (p.2.1 - level) == p.2.2)))

/-- A poison entry lies within a subtree. -/
def inSubtree (ri level index : Nat) (p : Nat × Nat × Nat) : Bool :=
  p.1 == ri && (level == 255 || (p.2.1 != 255 && decide (p.2.1 ≤ level) && p.2.2 / 8 ^ (level - p.2.1) == index))

/-- A level and index of a range's tree. -/
def subtreeOk (r : Range) (level index : Nat) : Bool := level == 255 || (decide (level ≤ r.depth) && decide (index < r.count level))

def protReinitSpec : CmdSpec where
  opcode := 0x0803
  targetOk := below 8
  owners := ownRange
  body := fun q s =>
    let ri := q.target
    let level := q.argByte 8
    let index := if level = 255 then 0 else q.arg 12 4
    if (s.range ri).defined = false ∨ subtreeOk (s.range ri) level index = false then (s, .done stBadArg [])
    else if underPoison s ri level index then (s, .done stFault [])
    else (modRange ri (fun r => { r with reinit := r.reinit ++ [(level, index, q.waiter)] }) s, .wait)
/-- PROT_REINIT (R392). -/
def execProtReinit (p : Port) (sl : Fin 4) (s : State) : Out := runCmd protReinitSpec p sl s

/-- The subtree is written and reads as never written. -/
def subtreeDone (ri level index : Nat) (w : Waiter) (s : State) : State :=
  let pages := subtreePages (s.range ri) level index
  let s := if level = 255 then reinitRange ri s else reinitSubtree ri level index s
  let s := modHbm (fun h => { h with poison := h.poison.filter (fun p => !inSubtree ri level index p) }) s
  let s := raise (rangeEvent 8 1 ri [(1, level), (4, index)]) s
  reply w stOk [(16, 4, pages.2 - pages.1), (20, 1, s.hbm.poison.length)] s

/-- The oldest re-initialisation of a range ends; a parent that fails verification extends the poison. -/
def endReinit (ri level index : Nat) (w : Waiter) (s : State) : State :=
  let s := modRange ri (fun r => { r with reinit := r.reinit.drop 1 }) s
  if underPoison s ri level index then reply w stFault [] s
  else if level = 255 then subtreeDone ri level index w s
  else match parentFails s.hbm (s.range ri) level index with
    | some (k, j) => reply w stFault [] (itemFailure ri k j 71 s)
    | none => subtreeDone ri level index w s

/-- PROT_REINIT_COMPLETE (R392). -/
def execProtReinitComplete (range : Fin 8) (s : State) : Out :=
  match (s.range range.val).reinit with
  | (level, index, w) :: _ => occurs s.awake (endReinit range.val level index w) s
  | [] => .next s

end Sys2Proof.Machine
end

