-- ==== Sys2Proof/Machine/Cudex.lean ====
section
/-! DEFINITION. Meanings of Cupola's own events, of the mailbox ports' and of the commands of chapter 19 (R480 to R506,
R547, Table 19.15). -/

namespace Sys2Proof.Machine

/-! ### Machine-checks, the watchdog and restarts (R481 to R483) -/

/-- The event Machine-check. -/
def machineCheckEvent (cause pc : Nat) : EvRec :=
  { cls := 0x0F, sev := 4, code := 0x1301, kind := 0, details := [(1, cause), (8, pc)] }

/-- MACHINE_CHECK (R481): cause 0 a divergence of the cores, 1 an uncorrectable error in the SRAM. -/
def execMachineCheck (cause : Fin 2) (pc : BitVec 64) (s : State) : Out :=
  occurs (s.awake && s.cudex.cup != .stopped) (fun s =>
    warmReset 4 (abortSlots portsInOrder [.accepted] (raise (machineCheckEvent cause.val pc.toNat) s))) s

/-- Every ACCEPTED request but the one that restarts Cupola is answered with `PATH_RESET` (R483). -/
def abortOthers (keep : Option Waiter) (s : State) : State :=
  forEach portsInOrder (fun p => forBelow 4 (fun i t =>
    let sl : Fin 4 := Fin.ofNat 4 i
    let own := match keep with | some w => decide (w.1 = p) && decide (w.2.1 = sl) | none => false
    if (t.slot p sl).st = .accepted ∧ own = false then postResponse p sl stPathReset t.tick.number.toNat [] t else t)) s

/-- Flash operations after a restart: the one in progress ends; nothing follows it. -/
def cutJobs (l : List FlashJob) : List FlashJob :=
  match l with
  | [] => []
  | j :: _ => [{ ops := j.ops.take 1 }]

/-- A restart begins (R483): by the watchdog, or for a request. -/
def beginRestart (wd : Bool) (w : Option Waiter) (s : State) : State :=
  let s := abortOthers w s
  let s := modLib (fun l => { l with jobs := cutJobs l.jobs }) s
  modCudex (fun c => { c with
    cup := .restarting, restarts := satAdd 255 c.restarts 1, restartWaiter := w, wdRestart := wd
    wdAt := if wd then some s.env.now else c.wdAt }) s

/-- The watchdog has expired within 10 s after a watchdog restart (R482). -/
def wdAgain (s : State) : Bool := match s.cudex.wdAt with
  | some t => decide (s.env.now - t ≤ 10 * oneSecond)
  | none => false

/-- WATCHDOG_EXPIRY (R482, R503). -/
def execWatchdogExpiry (s : State) : Out :=
  occurs s.firmware (fun s =>
    let again := wdAgain s
    let s := retireStaged s
    if again then warmReset 6 s else beginRestart true none s) s

/-- The event Cupola restarted; the manual gives the cause no code: a free value. -/
def restartedEvent (image : Nat) (s : State) : State :=
  useFree (raise { cls := 0x0F, sev := if s.cudex.wdRestart then 2 else 1, code := 0x1302, kind := 0
                   details := [(1, freshNat s), (1, image)] } s)

/-- The firmware runs again: the image that R172 chooses. -/
def endRestart (image : Nat) (s : State) : State :=
  let s := noteFirstRun image (modDev (fun d => { d with fwImage := BitVec.ofNat 2 image }) s)
  let s := restartedEvent image (modCudex (fun c => { c with cup := .running }) s)
  let w := s.cudex.restartWaiter
  replyOpt w stOk [] (modCudex (fun c => { c with restartWaiter := none, wdRestart := false }) s)

/-- CUPOLA_RESTART_COMPLETE (R483). -/
def execCupolaRestartComplete (s : State) : Out :=
  match bootFirmware s with
  | some image => occurs (s.awake && decide (s.cudex.cup = .restarting)) (endRestart image) s
  | none => .next s

/-- CUPOLA_RESTART_LIMIT (R482). -/
def execCupolaRestartLimit (s : State) : Out :=
  occurs (s.awake && decide (s.cudex.cup = .restarting)) (warmReset 6) s

/-- `CUPOLA_RESTART`. -/
def cupolaRestartSpec : CmdSpec where
  opcode := 0x0E00
  portOk := mb01
  targetOk := devTarget
  body := fun q s => (beginRestart false (some q.waiter) s, .wait)
/-- CUPOLA_RESTART (R483). -/
def execCupolaRestart (p : Port) (sl : Fin 4) (s : State) : Out := runCmd cupolaRestartSpec p sl s

/-! ### Mailbox ports (R484 to R488) -/

/-- Does the fabric of region `r` reach MB2 (R487)? -/
def mb2Reaches (s : State) (r : Nat) : Bool :=
  decide (s.cudex.mb2Region = some r) && fabricReaches s r (·.mailboxPort)

/-- A port whose doorbells and acknowledgements have a path of their own: MB2 rings and acknowledges with its lines
(R486), MB0 needs the Runner, MB1 and MB3 only the always-on domain. -/
def portLive (p : Port) (s : State) : Bool :=
  match p with
  | .mb0 => s.awake
  | .mb2 => false
  | _ => decide (s.dev.base ≠ .off)

/-- RING (R484). -/
def execRing (p : Port) (sl : Fin 4) (s : State) : Out := occurs (portLive p s) (ringSlot p sl) s

/-- ACK (R484). -/
def execAck (p : Port) (sl : Fin 4) (s : State) : Out := occurs (portLive p s) (ackSlot p sl) s

/-- MAILBOX_REQUEST_LINE (R486): line `n` of the slot, and its doorbell. -/
def execMailboxRequestLine (r : Fin 64) (sl n : Fin 4) (line : Line) (wring : Bool) (s : State) : Out :=
  occurs (mb2Reaches s r.val && presentsLine s r.val sl.val n.val line wring) (fun s =>
    onlyIf wring (ringSlot .mb2 sl) (writeRequest .mb2 sl (64 * n.val) line (BitVec.allOnes 64) s)) s

/-- DONE slots of MB2. -/
def doneSlots (s : State) : List Nat := [0, 1, 2, 3].filter (fun i => decide ((s.slot .mb2 (Fin.ofNat 4 i)).st = .done))

/-- The slot whose response is delivered: the one begun, else a free choice among the DONE ones. -/
def deliverFrom (s : State) : Nat :=
  let q := s.port .mb2
  if q.delivered ≠ 0 ∧ (doneSlots s).contains q.deliverSlot = true then q.deliverSlot
  else lget 0 (doneSlots s) (freshNat s % (doneSlots s).length)

/-- One response line goes to the fabric; line 3 acknowledges the slot. -/
def deliverLine (s : State) : State :=
  let i := deliverFrom s
  let q := s.port .mb2
  let n := if i = q.deliverSlot then q.delivered else 0
  let line := (s.slot .mb2 (Fin.ofNat 4 i)).resp.extractLsb' (512 * n) 512
  let s := useFree (modCudex (fun c => { c with mb2Line := (i, n, line) }) s)
  let s := modPort .mb2 (fun q => { q with deliverSlot := i, delivered := (n + 1) % 4 }) s
  onlyIf (n == 3) (ackSlot .mb2 (Fin.ofNat 4 i)) s

/-- MAILBOX_RESPONSE_LINE (R486). -/
def execMailboxResponseLine (r : Fin 64) (s : State) : Out :=
  occurs (mb2Reaches s r.val && mailboxReady s r.val false && !(doneSlots s).isEmpty) deliverLine s

/-- One event record goes to the fabric. -/
def deliverEvent (s : State) : State :=
  let (s, e) := popRecord .mb2 s
  modCudex (fun c => { c with mb2Event := e }) s

/-- MAILBOX_EVENT_RECORD (R486). -/
def execMailboxEventRecord (r : Fin 64) (s : State) : Out :=
  occurs (mb2Reaches s r.val && mailboxReady s r.val true && !(s.port .mb2).path.isEmpty) deliverEvent s

/-- Every slot of MB2 is free, and the requests taken are answered first (R487). -/
def clearMb2 (s : State) : State :=
  let s := abortSlots [.mb2] [.accepted] s
  let s := forBelow 4 (fun i => modSlot .mb2 (Fin.ofNat 4 i) (fun x => { x with st := .free })) s
  modPort .mb2 (fun q => { q with delivered := 0 }) s

def mb2Results (s : State) : Results := [(16, 1, s.cudex.mb2Region.getD 0xFF)]

/-- `MB2_BIND`. -/
def mb2BindSpec : CmdSpec where
  opcode := 0x0011
  portOk := mb01
  targetOk := devTarget
  body := fun q s =>
    let b := q.argByte 8
    let new := if b = 0xFF then none else some b
    if 64 ≤ b ∧ b ≠ 0xFF then (s, .done stBadArg [])
    else
      let s := if new = s.cudex.mb2Region then s else clearMb2 (modCudex (fun c => { c with mb2Region := new }) s)
      (s, .done stOk (mb2Results s))
/-- MB2_BIND (R487). -/
def execMb2Bind (p : Port) (sl : Fin 4) (s : State) : Out := runCmd mb2BindSpec p sl s

/-! ### Ownership (R494 to R496) -/

/-- Resources of a kind (Table 19.10). -/
def kindSize (kind : Nat) : Nat :=
  match kind with
  | 0 => 64 | 1 => 96 | 2 => 48 | 3 => 64 | 4 => 8 | 5 => 4 | _ => 0

/-- Whole seconds left of a lease. -/
def leaseLeft (s : State) (o : Owner) : Nat := o.lease - (s.env.now - o.since) / oneSecond

def claimResults (s : State) (k : Nat) : Results :=
  match s.owner k with
  | none => [(16, 1, 0xFF), (20, 4, 0)]
  | some o => [(16, 1, portIdx o.port), (20, 4, leaseLeft s o)]

/-- A lease that a claim may ask for. -/
def leaseOk (n : Nat) : Bool := decide (1 ≤ n) && decide (n ≤ 86400)

/-- A claim or renewal (R495). -/
def claimRes (q : Req) (k : Nat) (s : State) : State × Answer :=
  let lease := q.arg 12 4
  let give := fun (at_ : Option Nat) (s : State) =>
    let s := setOwner k ⟨q.port, lease, at_, s.env.now⟩ s
    (s, Answer.done stOk (claimResults s k))
  match ownView q k s, s.owner k with
  | .conflict, _ => (s, .done stConflict (claimResults s k))
  | .other, some o =>
    if q.force = true ∧ portRank q.port < portRank o.port then
      if leaseOk lease then give none (endOwner k 2 (portIdx q.port) s) else (s, .done stBadArg [])
    else (s, .done stNotOwner (claimResults s k))
  | .mine, some o => if leaseOk lease then give o.claimedAt s else (s, .done stBadArg [])
  | _, _ => if leaseOk lease then give (some q.rangAt) s else (s, .done stBadArg [])

/-- A release. -/
def releaseRes (q : Req) (k : Nat) (s : State) : State × Answer :=
  match ownView q k s with
  | .mine =>
    let s := endOwner k 1 0xFF s
    (s, .done stOk (claimResults s k))
  | .conflict => (s, .done stConflict (claimResults s k))
  | _ => (s, .done stNotOwner (claimResults s k))

/-- `RES_CLAIM`. -/
def resClaimSpec : CmdSpec where
  opcode := 0x0010
  query := true
  targetOk := fun q => decide (q.target < kindSize (q.argByte 8))
  body := fun q s =>
    let k := ownKey (q.argByte 8) q.target
    if q.queryFlag then (s, .done stOk (claimResults s k))
    else match q.argByte 9 with
      | 0 => claimRes q k s
      | 1 => releaseRes q k s
      | _ => match ownView q k s with
        | .other => (s, .done stNotOwner (claimResults s k))
        | .conflict => (s, .done stConflict (claimResults s k))
        | _ => (s, .done stBadArg [])
/-- RES_CLAIM (R495). -/
def execResClaim (p : Port) (sl : Fin 4) (s : State) : Out := runCmd resClaimSpec p sl s

/-- LEASE_EXPIRY (R496); none runs down during a restart (R483). -/
def execLeaseExpiry (kind : Fin 6) (index : Fin 96) (s : State) : Out :=
  occurs (s.firmware && (s.owner (ownKey kind.val index.val)).isSome) (endOwner (ownKey kind.val index.val) 0 0xFF) s

/-! ### Events (R499, R500, R547) -/

/-- A window closes: a summary record, if any occurrence was counted in it. -/
def closeWindow (w : RateWin) (s : State) : State :=
  let s := modCudex (fun c => { c with windows := c.windows.filter (fun x => !sameWindow x.ev w.ev) }) s
  onlyIf (w.counted != 0) (raise { w.ev with summary := true }) s

/-- EVENT_WINDOW_CLOSE (R547). -/
def execEventWindowClose (code : BitVec 16) (kind : BitVec 8) (source : BitVec 16) (s : State) : Out :=
  match s.cudex.windows.find? (fun w => w.ev.code == code.toNat && w.ev.kind == kind.toNat && w.ev.src == source.toNat) with
  | some w => occurs (decide (s.dev.base ≠ .off)) (closeWindow w) s
  | none => .next s

/-- The port that a target names. -/
def portOf (n : Nat) : Port := match n with
  | 0 => .mb0 | 1 => .mb1 | 2 => .mb2 | _ => .mb3

/-- `EVENT_CONFIG`. -/
def eventConfigSpec : CmdSpec where
  opcode := 0x0F00
  portOk := fun q => mb01 q || q.target == portIdx q.port
  targetOk := belowOrDev 4
  body := fun q s =>
    let sev := q.argByte 10
    if q.target = 0xFFFF then
      if 2 < sev then (s, .done stBadArg [])
      else (modCudex (fun c => { c with logThreshold := sev }) s, .done stOk [(16, 2, 0xFFFF), (18, 1, sev)])
    else if 4 < sev then (s, .done stBadArg [])
    else
      let mask := q.arg 8 2
      (modPort (portOf q.target) (fun x => { x with classMask := BitVec.ofNat 16 mask, minSev := sev }) s,
        .done stOk [(16, 2, mask), (18, 1, sev)])
/-- EVENT_CONFIG (R499). -/
def execEventConfig (p : Port) (sl : Fin 4) (s : State) : Out := runCmd eventConfigSpec p sl s

/-- The records returned from a sequence number on: the number of the first, and up to 7 of them. -/
def logFrom (c : CudexSt) (first : Nat) : Nat × List Record :=
  let oldest := c.logSeq - c.log.length
  let first := max first oldest
  (first, (c.log.drop (first - oldest)).take 7)

/-- `EVENT_LOG_READ`. -/
def eventLogReadSpec : CmdSpec where
  opcode := 0x0F01
  targetOk := devTarget
  body := fun q s =>
    let (first, recs) := logFrom s.cudex (q.arg 8 4)
    (s, .done stOk ([(16, 4, first), (20, 4, s.cudex.overwritten)]
      ++ (List.range recs.length).map (fun i => (24 + 32 * i, 32, (lget 0 recs i).toNat))))
/-- EVENT_LOG_READ (R500). -/
def execEventLogRead (p : Port) (sl : Fin 4) (s : State) : Out := runCmd eventLogReadSpec p sl s

/-! ### Staging and flash (R501 to R504) -/

/-- The verification of a staged image (R502 step 1). -/
def verifyStaged (kind : Nat) (bs : List Byte) (len : Nat) (s : State) : Option Reject :=
  if bs.length < len then some (reject 0x01)
  else if kind = 1 then if Config.firmwareSigned bs then none else some (reject 0x12)
  else match parseImage { imageCtx true 0xFFFF none none s with noIndex := true } bs with
    | .ok _ => none
    | .error r => some r

/-- A verified image is staged, if its slot's space holds it. -/
def stageImage (q : Req) (kind : Nat) (bs : List Byte) (s : State) : State × Answer :=
  match s.lib.dirInUse with
  | none => (s, .done stFault [])
  | some (copy, d) =>
    let first := if kind = 1 then 1 else 0x11
    let (slot, seq) := stageSlot d first
    match entryOf d (first + slot - 1) with
    | none => (s, .done stFault [])
    | some (i, e) =>
      if entrySpace s.lib d i e < bs.length then (s, .done stNoRoom [])
      else
        (modLib (fun l => { l with jobs := [{
          ops := stageOps l copy d i e seq bs, use := .stage slot kind seq
          waiter := some q.waiter, check := some (entAddr e, bs) }] }) s, .wait)

/-- `FW_STAGE`. -/
def fwStageSpec : CmdSpec where
  opcode := 0x0E01
  portOk := mb01
  targetOk := devTarget
  body := fun q s =>
    let kind := q.argByte 8
    let a := q.arg 16 8
    let len := q.arg 24 4
    if kind = 0 ∨ 2 < kind ∨ a % 64 ≠ 0 ∨ len = 0 ∨ hbmBytes < a + len ∨ spanProtected s a len = true then
      (s, .done stBadArg [])
    else if !s.lib.jobs.isEmpty then (s, .done stBusy [])
    else
      let (s, bs) := readBuffer 64 a len s
      match verifyStaged kind bs len s with
      | some r => (rejectEvents r false 64 s, .done r.status [(24, 1, r.cause)])
      | none => stageImage q kind bs s
/-- FW_STAGE (R502). -/
def execFwStage (p : Port) (sl : Fin 4) (s : State) : Out := runCmd fwStageSpec p sl s

/-- Reads bytes of an HBM buffer as Cupola does. -/
def readBufferBytes (a n : Nat) (s : State) : State × Option (List Byte) :=
  let lines := ceilDiv (a % 64 + n) 64
  let (s, bs) := (List.range lines).foldl (fun (acc : State × Option (List Byte)) i =>
    let line := a / 64 * 64 + 64 * i
    match acc.2 with
    | none => acc
    | some bs =>
      if line < hbmBytes ∧ rightTo acc.1 .cupola false line = .granted then
        let (t, rc, l) := hbmRead line 64 acc.1
        (t, if rc = rcOk then some (bs ++ bytesOf l 64) else none)
      else (acc.1, none)) (s, some [])
  (s, bs.map (fun l => (l.drop (a % 64)).take n))

/-- May a span be erased or programmed (R504)? In the space of a user store, or anywhere in RECOVERY. -/
def mayWriteFlash (s : State) (addr len : Nat) : Bool :=
  decide (s.dev.mode = .recovery) || (match s.lib.dirInUse with
    | none => false
    | some (_, d) => (dirEntries d).any (fun e =>
        entType e.2 == 0x30 && decide (entAddr e.2 ≤ addr) && decide (addr + len ≤ entAddr e.2 + entrySpace s.lib d e.1 e.2)))

/-- An erase or program by command; its data are those of the request or of HBM. -/
def flashChange (q : Req) (addr len : Nat) (s : State) : State × Answer :=
  let start := fun (o : FlashOp) (s : State) =>
    (modLib (fun l => { l with jobs := [{ ops := [o], waiter := some q.waiter }] }) s, Answer.wait)
  if mayWriteFlash s addr len = false then (s, .done stDenied [])
  else if !s.lib.jobs.isEmpty then (s, .done stBusy [])
  else if s.lib.flashRoom addr < len then (s, .done stFault [])
  else if q.argByte 8 = 1 then start (.erase addr len) s
  else if q.argByte 9 = 0 then start (.program addr (q.argBytes 32 len)) s
  else match readBufferBytes (q.arg 24 8) len s with
    | (s, some bs) => start (.program addr bs) s
    | (s, none) => (s, .done stFault [])

/-- `FLASH_ACCESS`: from MB3 only in the ROM service. -/
def flashAccessSpec : CmdSpec where
  opcode := 0x0E02
  portOk := fun q => q.port != .mb2
  targetOk := fun q => devTarget q || q.port == .mb3
  body := fun q s =>
    let op := q.argByte 8
    let inl := q.argByte 9
    let addr := q.arg 12 4
    let len := q.arg 16 4
    if q.port = .mb3 ∧ serverOf s ≠ .rom then (s, .done stDenied [])
    else if devTarget q = false ∨ 2 < op ∨ 1 < inl ∨ (inl = 0 ∧ op ≠ 1 ∧ 224 < len)
        ∨ (op = 1 ∧ (addr % 4096 ≠ 0 ∨ len % 4096 ≠ 0)) then (s, .done stBadArg [])
    else if op = 0 then
      let hbm := if inl = 0 then none else some (q.arg 24 8)
      (addRead (.read addr len hbm) q.waiter s, .wait)
    else flashChange q addr len s
/-- FLASH_ACCESS (R504). -/
def execFlashAccess (p : Port) (sl : Fin 4) (s : State) : Out := runCmd flashAccessSpec p sl s

/-- The results of `FW_STAGE`. -/
def stageResults (slot seq : Nat) : Results := [(16, 1, slot), (20, 4, seq), (24, 1, 0)]

/-- A series of operations has ended well. -/
def finishJob (j : FlashJob) (s : State) : State :=
  match j.use with
  | .stage slot kind seq =>
    let s := onlyIf (kind == 1) (modLib (fun l => { l with stagedFw := some (slot, seq) })) s
    let s := raise { cls := 0x0F, sev := 1, code := 0x1304, kind := 0, details := [(1, kind), (1, slot), (4, seq)] } s
    replyOpt j.waiter stOk (stageResults slot seq) s
  | _ => replyOpt j.waiter stOk [] s

/-- The read-back of step 4 holds: the image stands in the flash once its program has ended. -/
def readsBack (j : FlashJob) (o : FlashOp) (s : State) : Bool :=
  match j.check, o with
  | some (a, bs), .program b _ => a != b || s.lib.flashBytes a bs.length == bs
  | _, _ => true

/-- The ledger's partition: its flash address (R456). -/
def LibSt.ledgerAt (l : LibSt) : Option Nat :=
  match l.dirInUse with
  | none => none
  | some (_, d) => ((dirEntries d).find? (fun e => entType e.2 == 0x20)).map (fun e => entAddr e.2)

/-- Sectors of the ledger's partition that an operation touches. -/
def ledgerSectors (base : Nat) (o : FlashOp) : List Nat :=
  (List.range 256).filter (fun k => decide (o.addr < base + 4096 * (k + 1)) && decide (base + 4096 * k < o.addr + o.size))

/-- An erase or program in the ledger's partition (R77, R456): with every sector erased no sector holds a good header record;
short of that, whether one is left is open. -/
def noteLedger (base : Nat) (o : FlashOp) (s : State) : State :=
  let hit := ledgerSectors base o
  if hit.isEmpty || !s.therm.ledger then s
  else
    let gone := match o with
      | .erase _ _ => (s.therm.ledgerGone ++ hit).eraseDups
      | .program _ _ => s.therm.ledgerGone
    let left := decide (gone.length < 256) && Config.freeBool s.env.freeCtr
    useFree (modTherm (fun t => { t with ledger := left, ledgerGone := if left then gone else [] }) s)

/-- One operation of the job at the front has ended (R169, R502); the Ladle's requests and the reads that waited for its
device go on. -/
def endFlashOp (failed : Bool) (j : FlashJob) (o : FlashOp) (rest : List FlashJob) (s : State) : State :=
  let place := s.lib.ledgerAt
  let s := if failed then cutFlash s else modLib (fun l => { l with flash := o.apply l.flash }) s
  let s := match place with
    | some base => noteLedger base o s
    | none => s
  let bad := failed || !readsBack j o s
  let set := fun (js : List FlashJob) => modLib (fun l => { l with jobs := js })
  let s := if bad then replyOpt j.waiter stFault [] (set rest s)
    else if 1 < j.ops.length then set ({ j with ops := j.ops.drop 1 } :: rest) s
    else finishJob j (set rest s)
  startLoad (runReads s)

/-- PROGRAM_OR_ERASE_END (R169). -/
def execProgramOrEraseEnd (failed : Bool) (s : State) : Out :=
  match s.lib.jobs with
  | j :: rest => match j.ops with
    | o :: _ => occurs s.awake (endFlashOp failed j o rest) s
    | [] => .next s
  | [] => .next s

/-! ### Debug unlock (R505, R506) -/

def modDbg (f : DebugSt → DebugSt) (s : State) : State := modCudex (fun c => { c with dbg := f c.dbg }) s

/-- The event Debug locked; the manual gives the cause no code: a free value. -/
def lockedEvent (s : State) : State :=
  useFree (raise { cls := 5, sev := 1, code := 0x1306, kind := 0, details := [(1, freshNat s)] } s)

/-- DEBUG ends, by the lock or by its lease (R506). -/
def endDebug (s : State) : State :=
  let s := lockedEvent (modDbg (fun d => { d with level := 0, lease := 0 }) (modDev (fun d => { d with debug := false }) s))
  settleMode 0x18 s

/-- A challenge (R505 step 1). -/
def debugChallenge (s : State) : State × Answer :=
  if s.dev.mode ≠ .run ∧ s.dev.mode ≠ .degraded then (s, .done stDenied [])
  else if s.cudex.dbg.lockout then (s, .done stDenied [])
  else
    let nonce := freshBits 256 s
    (useFree (modDbg (fun d => { d with nonce := some nonce }) s),
      .done stOk [(16, 32, nonce.toNat), (48, 16, s.env.fuses.deviceId.toNat)])

/-- What a response verifies as (R505 steps 2 and 3): refused, anchored or unanchored. -/
inductive Verdict where
  | refused | anchored | unanchored
deriving DecidableEq, Repr

/-- The check of a response under a nonce. -/
def checkUnlock (q : Req) (nonce : BitVec 256) (f : Fuses) : Verdict :=
  let level := q.argByte 9
  let key := q.argBytes 16 97
  let text := bytesOf nonce 32 ++ bytesOf f.deviceId 16 ++ [BitVec.ofNat 8 level] ++ leBytes 4 (q.arg 12 4)
  let signed := Config.ecdsaVerify key (Config.sha384 text) (q.argBytes 116 96)
  let hash := Config.sha384 key
  if signed = false then .refused
  else if level = 2 then if hash = f.vendorHash then .anchored else .refused
  else match f.customerHash with
    | none => .unanchored
    | some h => if hash = h then .anchored else .refused

/-- A response that fails: counted, and the eighth in a row shuts challenges out for 60 s. -/
def refuseUnlock (s : State) : State :=
  let n := s.cudex.dbg.failures + 1
  let out := decide (8 ≤ n)
  let s := modDbg (fun d => { d with nonce := none, failures := n, lockout := out }) s
  raise { cls := 5, sev := 2, code := 0x1307, kind := 0, details := [(1, n), (1, bit out)] } s

/-- A response that verifies: DEBUG. How the event codes an anchored and an unanchored key is open: a free value. -/
def acceptUnlock (q : Req) (s : State) : State :=
  let level := q.argByte 9
  let lease := q.arg 12 4
  let s := modDbg (fun d => { d with nonce := none, failures := 0, level := level, lease := lease }) s
  let s := settleMode 0x17 (modDev (fun d => { d with debug := true }) s)
  useFree (raise { cls := 5, sev := 1, code := 0x1306, kind := 0, details := [(1, level), (4, lease), (1, freshNat s)] } s)

/-- A response (R505). -/
def debugRespond (q : Req) (s : State) : State × Answer :=
  let level := q.argByte 9
  let lease := q.arg 12 4
  if level = 0 ∨ 2 < level ∨ lease < 60 ∨ 86400 < lease then (s, .done stBadArg [])
  else if s.dev.mode ≠ .run ∧ s.dev.mode ≠ .degraded then (s, .done stDenied [])
  else
    let verdict := match s.cudex.dbg.nonce with
      | some n => checkUnlock q n s.env.fuses
      | none => .refused
    if verdict = .refused then (refuseUnlock s, .done stDenied []) else (acceptUnlock q s, .done stOk [])

/-- `DEBUG_UNLOCK`: challenges and responses from MB3; the lock from MB0, MB1 or MB3. -/
def debugUnlockSpec : CmdSpec where
  opcode := 0x0E10
  portOk := fun q => q.port == .mb3 || (q.argByte 8 == 2 && mb01 q)
  targetOk := devTarget
  body := fun q s =>
    match q.argByte 8 with
    | 0 => debugChallenge s
    | 1 => debugRespond q s
    | 2 => if s.dev.debug then (endDebug s, .done stOk []) else (s, .done stDenied [])
    | _ => (s, .done stBadArg [])
/-- DEBUG_UNLOCK (R505). -/
def execDebugUnlock (p : Port) (sl : Fin 4) (s : State) : Out := runCmd debugUnlockSpec p sl s

/-- DEBUG_LEASE_EXPIRY (R506). -/
def execDebugLeaseExpiry (s : State) : Out := occurs (s.firmware && s.dev.debug) endDebug s

/-- NONCE_EXPIRY (R505). -/
def execNonceExpiry (s : State) : Out :=
  occurs (s.awake && s.cudex.dbg.nonce.isSome) (modDbg (fun d => { d with nonce := none })) s

/-- UNLOCK_LOCKOUT_END (R505). -/
def execUnlockLockoutEnd (s : State) : Out :=
  occurs (s.awake && s.cudex.dbg.lockout) (modDbg (fun d => { d with lockout := false, failures := 0 })) s

/-- Flip-flop states of a block in a plane, and its bridge registers. -/
def blockState (reg : Region) (plane block : Nat) : Results :=
  let x := reg.plane plane
  let ff := (List.range 64).foldl (fun n i => n + bit (tget false x.ff (64 * block + i)) * 2 ^ i) 0
  (16, 8, ff) :: (List.range 16).map (fun j => (24 + 4 * j, 4, (tget 0 reg.brg (16 * block + j)).toNat))

/-- `DEBUG_STATE_READ`. -/
def debugStateReadSpec : CmdSpec where
  opcode := 0x0E11
  portOk := fun q => q.port == .mb3
  targetOk := below 64
  body := fun q s =>
    let r := q.target
    let plane := q.argByte 8
    let x := q.arg 10 2
    let y := q.arg 12 2
    let reg := s.region r
    let st := (reg.plane plane).st
    if s.dev.debug = false then (s, .done stDenied [])
    else if 4 ≤ plane ∨ 512 ≤ x ∨ 256 ≤ y ∨ x / 64 + 8 * (y / 32) ≠ r then (s, .done stBadArg [])
    else if st = .active ∧ s.dev.mode ≠ .frozen then (s, .done stBusy [])
    else if st = .invalid then (s, .done stInvalidPlane [])
    else if asleep s r then (s, .done stRegionAsleep [])
    else (s, .done stOk (blockState reg plane (64 * (y % 32) + x % 64)))
/-- DEBUG_STATE_READ (R505). -/
def execDebugStateRead (p : Port) (sl : Fin 4) (s : State) : Out := runCmd debugStateReadSpec p sl s

/-! ### Opcodes that are not allocated (R7) -/

/-- The opcodes of Table 19.16 and of chapter 20. -/
def allocated (o : Nat) : Bool :=
  [0x0001, 0x0002, 0x0003, 0x0004, 0x0010, 0x0011, 0x0080].contains o
    || [0x0100, 0x0101, 0x0102, 0x0103, 0x0104, 0x0200, 0x0201, 0x0202, 0x0203, 0x0204].contains o
    || [0x0300, 0x0301, 0x0302, 0x0400, 0x0401, 0x0402, 0x0403].contains o
    || (decide (0x0500 ≤ o) && decide (o ≤ 0x0507)) || (decide (0x0600 ≤ o) && decide (o ≤ 0x0604))
    || (decide (0x0610 ≤ o) && decide (o ≤ 0x0617)) || (decide (0x0700 ≤ o) && decide (o ≤ 0x0703))
    || (decide (0x0800 ≤ o) && decide (o ≤ 0x0803))
    || [0x0900, 0x0901, 0x0902, 0x0910, 0x0911, 0x0920, 0x0930, 0x0940].contains o
    || [0x0A00, 0x0A01, 0x0A02, 0x0B00, 0x0B01, 0x0B02, 0x0B10].contains o
    || [0x0C00, 0x0C01, 0x0C02, 0x0C10, 0x0C20, 0x0D00, 0x0D01, 0x0D10, 0x0D20].contains o
    || [0x0E00, 0x0E01, 0x0E02, 0x0E10, 0x0E11, 0x0F00, 0x0F01].contains o

/-- The answer to a request whose opcode is not allocated: a check of step 1 of R491, before the mode. -/
def refuseOpcode (p : Port) (sl : Fin 4) (s : State) : State :=
  let s := acceptSlot p sl s
  let q := s.req p sl
  reply q.waiter (if isMalformed q then stBadArg else stUnsupported) [] s

/-- UNALLOCATED_OPCODE (R7). -/
def execUnallocatedOpcode (p : Port) (sl : Fin 4) (s : State) : Out :=
  occurs (canTake s p sl && !allocated (s.req p sl).opcode) (refuseOpcode p sl) s

end Sys2Proof.Machine
end

