-- ==== Sys2Proof/Machine/Io.lean ====
section
/-! DEFINITION. Meanings of the commands and events of the GPIO banks, the host endpoint, the management port and JTAG
(chapter 20). -/

namespace Sys2Proof.Machine

/-! ### What an I/O does at its ball (R72, R73, R510) -/

/-- Are the outputs disabled by the start-up: in BOOT, LOAD and RECOVERY, and until the instant of Table 3.6 at which they
follow user logic? -/
def outputsHeld (s : State) : Bool :=
  match s.dev.base with
  | .boot | .load | .recovery => true
  | .running => decide (s.dev.release ≠ .done)
  | _ => false

/-- The weak pull on user I/O `n`, 0 none, 1 up, 2 down: while the start-up holds the outputs the one that `HOLD_PULL`
selects (Table 3.4, R73), from then on its own, while its output is disabled (R512). -/
def pullNow (s : State) (n : Nat) : Nat :=
  if outputsHeld s then bit s.dev.straps.holdPull else if (s.gpioOf n).oeReg then 0 else (s.gpioOf n).pull

/-- The level that user I/O `n` drives in the first or the second half of a fabric cycle; none while it is high-Z. -/
def ballDrive (s : State) (n : Nat) (second : Bool) : Option Bool :=
  let g := s.gpioOf n
  if s.awake && !outputsHeld s && g.oeReg then some (if second && g.ddr then g.outReg1 else g.outReg) else none

/-! ### GPIO (R507 to R512) -/

/-- Declared voltages, in 0.1 V, that a standard may be used at (Table 20.1). -/
def stdVolts : Nat → List Nat
  | 1 => [12] | 2 => [15] | 3 => [18] | 4 => [15, 18] | 5 => [12] | 6 => [18] | _ => []

/-- Is an I/O index the complement of an LVDS pair (R509)? -/
def isComplement (s : State) (n : Nat) : Bool := n % 2 == 1 && (s.gpioOf (n - 1)).std == 6

/-- The I/O of a bank. -/
def bankIo (c : Nat) : List Nat := (List.range 48).map (fun n => 48 * c + n)

def bankVolt (s : State) (c : Nat) : Nat := lget 0 s.io.vccio c

def gpioBankResults (c : Nat) (s : State) : Results :=
  (16, 1, bankVolt s c) :: (List.range 6).map (fun i =>
    (17 + i, 1, ((bankIo c).filter (fun n => (s.gpioOf n).std == i + 1)).length))

def gpioBankSpec : CmdSpec where
  opcode := 0x0D00
  query := true
  targetOk := below 8
  owners := ownRegion
  body := fun q s =>
    let c := q.target
    let v := q.argByte 8
    let inUse := (bankIo c).any (fun n => (s.gpioOf n).oeReg
      || ((s.gpioOf n).std != 0 && !(stdVolts (s.gpioOf n).std).contains v))
    if q.queryFlag then (s, .done stOk (gpioBankResults c s))
    else if !([12, 15, 18] : List Nat).contains v then (s, .done stBadArg [])
    else if inUse then (s, .done stBusy [])
    else
      let s := modIo (fun io => { io with vccio := lput 0 io.vccio c v }) s
      (s, .done stOk (gpioBankResults c s))

/-- GPIO_BANK (R508). -/
def execGpioBank (p : Port) (sl : Fin 4) (s : State) : Out := runCmd gpioBankSpec p sl s

/-- The layout of Table 20.6. -/
def gpioResults (g : Gpio) : Results :=
  [(16, 1, g.std), (17, 1, bit g.ddr + 2 * bit g.delayOut + 4 * bit g.term), (18, 1, g.pull), (19, 1, bit g.drive),
   (20, 2, g.taps), (24, 2, g.tapNow)]

/-- `GPIO_IO`'s arguments are in range, and the bank's voltage and the pair permit the standard. -/
def gpioArgsOk (q : Req) (s : State) : Bool :=
  let n := q.target
  let std := q.argByte 8
  (stdVolts std).contains (bankVolt s (n / 48)) && decide (q.argByte 9 < 8) && decide (q.argByte 10 ≤ 2)
    && decide (q.argByte 11 ≤ 1) && decide (q.arg 12 2 ≤ 511) && !isComplement s n && !(std == 6 && n % 2 == 1)

def gpioIoSpec : CmdSpec where
  opcode := 0x0D01
  query := true
  targetOk := below 384
  owners := fun q _ => [ownKey 0 (q.target / 48)]
  body := fun q s =>
    let n := q.target
    let g := s.gpioOf n
    let out := (q.argByte 9).testBit 1
    if q.queryFlag then (s, .done stOk (gpioResults g))
    else if !gpioArgsOk q s then (s, .done stBadArg [])
    else if g.delayOut != out && g.oeReg then (s, .done stBusy [])
    else
      let s := modGpio n (fun g => { g with
        std := q.argByte 8, ddr := (q.argByte 9).testBit 0, delayOut := out, term := (q.argByte 9).testBit 2
        pull := q.argByte 10, drive := q.argByte 11 == 1, taps := q.arg 12 2 }) s
      let s := onlyIf (q.argByte 8 == 6) (modGpio (n + 1) (fun g =>
        { outReg := g.outReg, outReg1 := g.outReg1, oeReg := g.oeReg, inReg := g.inReg, inReg1 := g.inReg1 })) s
      (s, .done stOk (gpioResults (s.gpioOf n)))

/-- GPIO_IO (R508, R509, R512). -/
def execGpioIo (p : Port) (sl : Fin 4) (s : State) : Out := runCmd gpioIoSpec p sl s

/-- One tap toward the value set. -/
def Gpio.stepTap (g : Gpio) : Gpio :=
  { g with tapNow := if g.tapNow < g.taps then g.tapNow + 1 else if g.taps < g.tapNow then g.tapNow - 1 else g.tapNow }

/-- DELAY_LINE_STEP (R512): every 8 ns. -/
def execDelayLineStep (io : Fin 384) (s : State) : Out :=
  occurs (s.awake && decide ((s.gpioOf io.val).tapNow ≠ (s.gpioOf io.val).taps)) (modGpio io.val Gpio.stepTap) s

/-! ### The host endpoint (R513 to R515) -/

def hostResults (s : State) : Results :=
  let e := s.io.pcie
  [(16, 1, bit e.up), (17, 1, if e.up then hostRate s else 0), (18, 1, if e.up then pcieWidth e.width else 0),
   (19, 1, bit e.d3hot)] ++ (List.range 5).map (fun i => (20 + 4 * i, 4, lget 0 e.counters i))

/-- `HOST_STATUS`. -/
def hostStatusSpec : CmdSpec where
  opcode := 0x0D20
  targetOk := devTarget
  body := fun q s =>
    let res := hostResults s
    let clear := (q.argByte 8).testBit 0
    let s := useFree s
    if clear && !mb01 q then (s, .done stDenied res)
    else (onlyIf clear (modPcie (fun e => { e with counters := [0, 0, 0, 0, 0] })) s, .done stOk res)

/-- HOST_STATUS (Table 20.8). -/
def execHostStatus (p : Port) (sl : Fin 4) (s : State) : Out := runCmd hostStatusSpec p sl s

/-- The endpoint's link is up. -/
def hostLinkUp (s : State) : Bool := s.awake && s.dev.straps.hostSel && s.io.pcie.up && !s.io.pcie.heldReset

/-- The byte ranges of a request, one for each 4 KiB page it touches: address and length. -/
def hostParts (a n : Nat) : List (Nat × Nat) :=
  let first := min n (4096 - a % 4096)
  if n ≤ first then [(a, n)] else [(a, first), (a + first, n - first)]

/-- The line at index `i` of a write of `bytes` from address `a` on. -/
def hostWriteLine (a : Nat) (bytes : List Byte) (i : Nat) : WLine :=
  let base := a / 64 * 64 + 64 * i
  let inside := fun k => decide (a ≤ base + k) && decide (base + k < a + bytes.length)
  (lineOf ((List.range 64).map (fun k => if inside k then bytes.getD (base + k - a) 0 else 0)),
   BitVec.ofNat 64 ((List.range 64).foldl (fun v k => v + (if inside k then 2 ^ k else 0)) 0))

/-- Lines that `n` bytes from `a` touch. -/
def hostLines (a n : Nat) : Nat := (a % 64 + n + 63) / 64

/-- The Runner request of one page. -/
def hostHdr (a n : Nat) (tag : Fin 64) : ReqHdr :=
  { src := .host, addr := BitVec.ofNat 49 a, len := Fin.ofNat 64 (hostLines a n - 1), tag := tag, qos := 0, win := 0 }

/-- The host's tags that are free, in rising order. -/
def hostTags (s : State) : List Nat := (List.range 64).filter (fun t => (s.outst .host (Fin.ofNat 64 t)).isNone)

/-- Runner address of a BAR offset (Table 20.2). -/
def barAddr (bar2 : Bool) (offset : BitVec 38) : Nat := if bar2 then offset.toNat else 0x3000000000 + offset.toNat

/-- A host request stands inside its BAR and within the sizes of Table 20.2. -/
def hostSized (bar2 : Bool) (offset : BitVec 38) (rd : Bool) (bytes : List Byte) (count : Nat) : Bool :=
  let n := if rd then count else bytes.length
  decide (1 ≤ n) && decide (n ≤ if rd then 4096 else 512) && decide (offset.toNat + n ≤ if bar2 then 2 ^ 38 else 2 ^ 24)

/-- Issues the Runner requests of a host request. -/
def issueHost (a n : Nat) (rd : Bool) (bytes : List Byte) (s : State) : State :=
  let parts := (hostParts a n).zip (hostTags s)
  let job : HostJob := { parts := parts.map (fun p => (p.2, false, [])), read := rd, skip := a % 64, count := n }
  let s := modPcie (fun e => { e with jobs := e.jobs ++ [job] }) s
  let s := onlyIf (rd && n == 4 && a == 0x3000000008) latchTick s
  forEach parts (fun p s =>
    let (b, m) := p.1
    let h := hostHdr b m (Fin.ofNat 64 p.2)
    if rd then spendLatch h (issueRequest h .read [] s)
    else issueRequest h .write ((List.range (hostLines b m)).map
      (hostWriteLine b ((bytes.drop (b - a)).take m))) s) s

/-- The host has tags and read lines enough for the requests. -/
def hostRoom (a n : Nat) (rd : Bool) (s : State) : Bool :=
  decide ((hostParts a n).length ≤ (hostTags s).length)
    && (!rd || decide (readsOutstanding .host s + ((hostParts a n).map (fun p => hostLines p.1 p.2)).sum ≤ 256))

/-- HOST_REQUEST (R514). -/
def execHostRequest (bar2 : Bool) (offset : BitVec 38) (rd : Bool) (bytes : List Byte) (count : Nat) (s : State) : Out :=
  let n := if rd then count else bytes.length
  occurs (hostLinkUp s && hostSized bar2 offset rd bytes count && hostRoom (barAddr bar2 offset) n rd s)
    (issueHost (barAddr bar2 offset) n rd bytes) s

/-- The event Function-level or hot reset. -/
def endpointResetEvent (n : Nat) : EvRec := { cls := 8, sev := 1, code := 0x1402, kind := 0, details := [(1, n)] }

/-- What every reset of the endpoint does (R515): the state, and the requests answered. -/
def resetEndpoint (s : State) : State × Nat := freeMb0 (endpointReset s)

/-- An endpoint reset of one kind. -/
def pcieReset (kind : PcieResetKind) (s : State) : State :=
  match kind with
  | .functionLevel =>
    let (s, n) := resetEndpoint (modPcie (fun e => { e with counters := bump e.counters 4 1 }) s)
    raise (endpointResetEvent n) s
  | .hot => let (s, n) := resetEndpoint s; raise (endpointResetEvent n) s
  | .linkDown => pcieDown (resetEndpoint s).1

/-- PCIE_RESET (R515). -/
def execPcieReset (kind : PcieResetKind) (s : State) : Out := occurs (hostLinkUp s) (pcieReset kind) s

/-- `PE_RST_N` is low: the endpoint is reset and its link held down. -/
def holdEndpoint (s : State) : State :=
  let s := onlyIf s.dev.straps.hostSel (fun s => pcieDown (resetEndpoint s).1) s
  modPcie (fun e => { e with heldReset := true }) s

/-- PE_RST_N_ASSERT (R515). -/
def execPeRstAssert (s : State) : Out := occurs (!s.io.pcie.heldReset) holdEndpoint s

/-- PE_RST_N_RELEASE (R515). -/
def execPeRstRelease (s : State) : Out := occurs s.io.pcie.heldReset (modPcie (fun e => { e with heldReset := false })) s

/-- The link comes up. -/
def endpointUp (rate width : Nat) (s : State) : State :=
  let s := modPcie (fun e =>
    let e := { e with up := true, rate := rate, width := width }
    if e.d3hot then e else deliverPending e) s
  useFree (raise (pcieLinkEvent 0 [(1, hostRate s), (1, pcieWidth width), (1, freshNat s)]) s)

/-- PCIE_LINK_UP (R513, R291). -/
def execPcieLinkUp (rate : Fin 5) (width : Fin 4) (s : State) : Out :=
  occurs (s.awake && s.dev.straps.hostSel && !s.io.pcie.heldReset && !s.io.pcie.up) (endpointUp rate.val width.val) s

/-- D3hot stops MSI-X delivery and changes nothing else. -/
def setD3hot (d3hot : Bool) (e : Pcie) : Pcie :=
  if d3hot then { e with d3hot := true } else deliverPending { e with d3hot := false }

/-- PCIE_POWER_STATE_CHANGE (R514). -/
def execPciePowerStateChange (d3hot : Bool) (s : State) : Out := occurs (hostLinkUp s) (modPcie (setD3hot d3hot)) s

/-! ### The management port (R516 to R518) -/

def mgmtResults (s : State) : Results :=
  [(16, 1, s.io.i2cAddr), (17, 1, bit s.io.pec), (18, 1, s.io.dynAddr), (20, 4, s.io.pecFails)]

/-- `MGMT_CONFIG`: the address takes effect once the response has been read. -/
def mgmtConfigSpec : CmdSpec where
  opcode := 0x0D10
  query := true
  portOk := fun q => q.queryFlag || mb01 q
  targetOk := devTarget
  body := fun q s =>
    let a := q.argByte 8
    if q.queryFlag then (s, .done stOk (mgmtResults s))
    else if a < 8 ∨ 0x77 < a ∨ 2 ≤ q.argByte 9 then (s, .done stBadArg [])
    else
      let s := modIo (fun io => { io with
        pec := (q.argByte 9).testBit 0, nextAddr := if a = io.i2cAddr then none else some (a, q.port, q.slot) }) s
      (s, .done stOk (lput (0, 0, 0) (mgmtResults s) 0 (16, 1, a)))

/-- MGMT_CONFIG (R516). -/
def execMgmtConfig (p : Port) (sl : Fin 4) (s : State) : Out := runCmd mgmtConfigSpec p sl s

/-- The port runs in every mode except OFF (R516). -/
def portPowered (s : State) : Bool := decide (s.dev.base ≠ .off)

/-- The address in use, as the byte that begins a write. -/
def mgmtAddrByte (s : State) : Byte := BitVec.ofNat 8 (2 * (if s.io.dynAddr = 0 then s.io.i2cAddr else s.io.dynAddr))

/-- SMBus packet error code over the address byte and the bytes written. -/
def mgmtPec (bytes : List Byte) (s : State) : Byte := (crcBytes 3 0 (mgmtAddrByte s :: bytes)).setWidth 8

/-- A write transaction: the offset, low byte first, then data. -/
def mgmtWrite (bytes : List Byte) (pec : Byte) (s : State) : State :=
  if s.io.pec && mgmtPec bytes s != pec then
    raiseLimited { cls := 0x0F, sev := 1, code := 0x1404, kind := 0, details := [(4, 1)] } [0]
      (modIo (fun io => { io with pecFails := satAdd 4294967295 io.pecFails 1 }) s)
  else match bytes with
    | lo :: hi :: data => spaceWrites .mb1 (lo.toNat + 256 * hi.toNat) data s
    | _ => s

/-- MGMT_WRITE (R517). -/
def execMgmtWrite (bytes : List Byte) (pec : Byte) (s : State) : Out := occurs (portPowered s) (mgmtWrite bytes pec) s

/-- A read transaction; the record is popped once all its 32 bytes have been read. -/
def mgmtRead (off count : Nat) (s : State) : State :=
  let s := modIo (fun io => { io with mgmtOut := spaceBytes .mb1 off count s }) s
  onlyIf (decide (off ≤ 0xC00) && decide (0xC20 ≤ off + count)) (fun s => (popRecord .mb1 s).1) s

/-- MGMT_READ (R517). -/
def execMgmtRead (offset : BitVec 16) (count : Nat) (s : State) : Out :=
  occurs (portPowered s) (mgmtRead offset.toNat count) s

/-- DYNAMIC_ADDRESS_ASSIGNMENT (R516). -/
def execDynamicAddressAssignment (a : BitVec 7) (s : State) : Out :=
  occurs (portPowered s) (modIo (fun io => { io with dynAddr := a.toNat })) s

/-- `MGMT_ALERT_N` is asserted (R518). -/
def mgmtAlert (s : State) : Bool :=
  (s.port .mb1).slots.any (fun x => decide (x.st = .done)) || !(s.port .mb1).path.isEmpty

/-- The data byte of the in-band interrupt (R518). -/
def inBandByte (s : State) : Nat :=
  [0, 1, 2, 3].foldl (fun n i => n + bit (decide ((s.slot .mb1 (Fin.ofNat 4 i)).st = .done)) * 2 ^ i) 0
    + 128 * bit (!(s.port .mb1).path.isEmpty)

/-! ### JTAG (R519 to R521) -/

/-- An access through MBACC: the data and the state after it. -/
def mbaccAccess (off : Nat) (wr : Bool) (data : BitVec 32) (s : State) : State × BitVec 32 :=
  if wr then (spaceWrites .mb3 off (bytesOf data 4) s, data)
  else
    let v := BitVec.ofNat 32 (leNat (spaceBytes .mb3 off 4 s))
    (if off = 0xC1C then (popRecord .mb3 s).1 else s, v)

/-- Update-DR with MBACC; an offset that is no multiple of 4 reaches nothing, and the data are open. -/
def updateMbacc (dr : BitVec 50) (s : State) : State :=
  let off := (dr.extractLsb' 32 16).toNat
  let (s, v) := if off % 4 = 0 then mbaccAccess off (dr.getLsbD 48) (dr.extractLsb' 0 32) s
    else (useFree s, freshBits 32 s)
  modIo (fun io => { io with
    jtagIr := 0x20, extest := false, mbacc := (1#1 : BitVec 1) ++ (dr.extractLsb' 32 17 ++ v : BitVec 49) }) s

/-- MBACC (R521). -/
def execMbacc (dr : BitVec 50) (s : State) : Out := occurs (portPowered s) (updateMbacc dr) s

/-- Modes in which the boundary register may drive the balls (R520). -/
def mayDriveBalls (s : State) : Bool :=
  decide (s.dev.mode = .standby) || decide (s.dev.mode = .recovery) || decide (s.dev.mode = .test)

/-- The balls are driven from the boundary register. -/
def ballsDriven (s : State) : Bool := s.io.extest && mayDriveBalls s

/-- A boundary instruction with the contents that the boundary register takes. -/
def boundaryInstr (ir : BitVec 8) (drives : Bool) (boundary : List Bool) (s : State) : State :=
  modIo (fun io => { io with jtagIr := ir, extest := drives, boundary := boundary }) s

/-- EXTEST (R520). -/
def execExtest (boundary : List Bool) (s : State) : Out :=
  occurs (portPowered s) (boundaryInstr 0x00 (mayDriveBalls s) boundary) s

/-- SAMPLE_PRELOAD (R519). -/
def execSamplePreload (boundary : List Bool) (s : State) : Out :=
  occurs (portPowered s) (boundaryInstr 0x01 false boundary) s

/-- EXTEST_PULSE (R520). -/
def execExtestPulse (boundary : List Bool) (s : State) : Out :=
  occurs (portPowered s) (boundaryInstr 0x03 (mayDriveBalls s) boundary) s

/-- EXTEST_TRAIN (R520). -/
def execExtestTrain (boundary : List Bool) (s : State) : Out :=
  occurs (portPowered s) (boundaryInstr 0x04 (mayDriveBalls s) boundary) s

/-- The identification register (Table 20.4). -/
def idcodeOf (f : Fuses) : BitVec 32 := f.version ++ (0x6496#16 ++ (f.maker ++ 1#1 : BitVec 12) : BitVec 28)

/-- An instruction that drives no ball, with the data register it selects. -/
def plainInstr (ir : BitVec 8) (dr : BitVec 32) (s : State) : State :=
  modIo (fun io => { io with jtagIr := ir, extest := false, jtagDr := dr }) s

/-- IDCODE (R519). -/
def execIdcode (s : State) : Out := occurs (portPowered s) (plainInstr 0x02 (idcodeOf s.env.fuses)) s

/-- BYPASS (R519). -/
def execBypass (s : State) : Out := occurs (portPowered s) (plainInstr 0xFF 0) s

/-- TRST_N_ASSERT (R519): the test access port resets, which selects IDCODE (IEEE 1149.1). -/
def execTrstAssert (s : State) : Out := occurs (portPowered s) (plainInstr 0x02 (idcodeOf s.env.fuses)) s

end Sys2Proof.Machine
end

