-- ==== Sys2Proof/Machine/Fabric.lean ====
section
/-! DEFINITION. One edge of a region's fabric clock (chapters 4, 5 and 20): the block clock gates (R96), and what captures (R80 to
R82, R85 to R87, R93, R117, R510, R511). The values at the pins are those that the routing brings (`Routing`). -/

namespace Sys2Proof.Machine

/-! ### One cell -/

/-- The data of a flip-flop (R80, R85), `out` giving the cell's outputs: flip-flop 1 when `one`. -/
def ffData (f : CellCfg) (p : CellPins) (out : CellOut → Bool) (one : Bool) : Bool :=
  if one then match f.src1 with
    | .lut => out .lb
    | .sum => out .s1
    | .bypass => p.by_
  else if f.mode = .ram then out .la
  else match f.src0 with
    | .lut => out .la
    | .sum => out .s0
    | .bypass => p.bx

/-- Clock enable, tied or from the crossbar (R80). -/
def cellCe (f : CellCfg) (p : CellPins) : Bool := f.ceTied || p.ce

/-- The next value of a flip-flop (R80, R81). -/
def ffNext (f : CellCfg) (p : CellPins) (out : CellOut → Bool) (edge one old : Bool) : Bool :=
  let set := if one then f.srVal1 else f.srVal0
  if p.sr && (f.srAsync || edge) then set
  else if edge && cellCe f p then ffData f p out one
  else old

/-! ### The block clock gate (R96) -/

/-- Cells of a block. -/
def blockCells (b : Nat) : List Nat := (List.range 32).map (fun c => 32 * b + c)

/-- Condition 1: a clock enable, a write enable, a tied enable, or a synchronous set or reset. -/
def wantsClock (s : State) (r : Nat) (u : PlaneUse) (b : Nat) : Bool :=
  (blockCells b).any (fun c =>
      cellCe (u.cell c) (pinsOf s r c) || ((pinsOf s r c).sr && !(u.cell c).srAsync))
    || (List.range 16).any (fun j => xout s r b (.bridgeEnable j))

/-- Condition 2: a port placed in the block, which is one of its carrying blocks (Table 5.2), has a request whose response has not
been fully transferred. -/
def awaitsResponse (s : State) (r : Nat) (u : PlaneUse) (b : Nat) : Bool :=
  u.runnerPorts.any (fun p =>
    decide (8 * p ≤ b % 64) && decide (b % 64 < 8 * p + 8) && (b / 64 == 15 || b / 64 == 16)
      && s.runner.outst.any (fun o => !o.gone && decide (o.hdr.src = .fabric (Fin.ofNat 64 r) (Fin.ofNat 8 p))))

/-- Condition 3: the block's crossbar connects a cell to a stream or the doorbell of an engine that runs; the other signals of the
interface are neither (Table 9.9). -/
def feedsEngine (s : State) (r : Nat) (u : PlaneUse) (b : Nat) : Bool :=
  u.xbar.any (fun e => e.1 == b && match e.2 with
    | (.port (.dsp j) k, _) => decide (k < 133) && decide ((s.engine (32 * r + j)).st = .running)
    | (_, .port (.dsp j) k) => decide (k < 132) && decide ((s.engine (32 * r + j)).st = .running)
    | _ => false)

/-- Condition 4: a slice that includes the block runs; the collars of excluded blocks run too (R463). -/
def blockInSlice (x : Region) (b : Nat) : Bool :=
  match x.slice with
  | some j => j.running && sliceOfBlock b == j.slice
  | none => false

/-- The gate delivers the edge to the block. While a slice runs, its blocks alone receive edges, those of the test clock
(R466). -/
def delivers (s : State) (r b : Nat) : Bool :=
  let x := s.region r
  if x.slicing then blockInSlice x b
  else wantsClock s r x.now.use b || awaitsResponse s r x.now.use b || feedsEngine s r x.now.use b

/-! ### What captures -/

/-- A LUT-RAM write (R85 to R87): the bit in the cell's truth table and in its frame, whose check bits follow it. -/
def lutWrite (c : Nat) (a : BitVec 6) (v : Bool) (p : Plane) : Plane :=
  let cell := p.use.cell c
  let mask : BitVec 64 := BitVec.ofNat 64 (2 ^ a.toNat)
  let lut := if v then cell.lut ||| mask else cell.lut &&& ~~~mask
  let (frame, bitNo) := Config.lutBit c a.toNat
  let fm : BitVec 4096 := BitVec.ofNat 4096 (2 ^ bitNo)
  { p with
    use := { p.use with cells := tset {} p.use.cells c { cell with lut := lut } }
    frames := tmod {} p.frames frame (fun f => { f with data := if v then f.data ||| fm else f.data &&& ~~~fm })
    changed := if p.changed.contains frame then p.changed else p.changed ++ [frame] }

/-- The flip-flops of one cell at the edge, from the state before it. -/
def captureFf (s : State) (r c : Nat) (ff : Table Bool) : Table Bool :=
  let x := s.region r
  let next := fun one => ffNext (x.now.use.cell c) (pinsOf s r c) (cellSignal s r c) (delivers s r (c / 32)) one
    (tget false x.now.ff (2 * c + bit one))
  tset false (tset false ff (2 * c) (next false)) (2 * c + 1) (next true)

/-- One bridge register write: bit c takes the output of cell c that the plane selects (R93). -/
def bridgeValue (s : State) (r b : Nat) : BitVec 32 :=
  BitVec.ofNat 32 ((List.range 32).foldl (fun v c =>
    v + bit (cellSignal s r (32 * b + c) (if ((s.region r).now.use.cell (32 * b + c)).bridgeQ0 then .q0 else .la)) * 2 ^ c) 0)

/-- Cells at which anything may change: those that the plane configures, and those whose pins it drives. -/
def liveCells (u : PlaneUse) : List Nat :=
  (u.cells.map (·.1) ++ u.xbar.filterMap (fun e => match e.2.1 with
    | .pin c _ => some (32 * e.1 + c)
    | _ => none)).eraseDups

/-- Bridge registers that are written: block and register. -/
def bridgeWrites (s : State) (r : Nat) : List (Nat × Nat) :=
  (s.region r).now.use.xbar.filterMap (fun e => match e.2.1 with
    | .bridgeEnable j => if xout s r e.1 (.bridgeEnable j) && delivers s r e.1 then some (e.1, j) else none
    | _ => none)

/-- The captures of the active plane and of the bridge registers. Every value captured is that before the edge. -/
def captureCells (s : State) (r : Nat) (x : Region) : Region :=
  let u := (s.region r).now.use
  let cells := liveCells u
  let newFf := cells.foldl (fun t c => captureFf s r c t) (s.region r).now.ff
  let brg := (bridgeWrites s r).foldl (fun t w => tset 0 t (16 * w.1 + w.2) (bridgeValue s r w.1)) x.brg
  let written := cells.filter (fun c => decide ((u.cell c).mode = .ram) && cellCe (u.cell c) (pinsOf s r c)
    && delivers s r (c / 32))
  let y := x.modPlane x.active (fun p => written.foldl (fun p c =>
    lutWrite c (pinsOf s r c).a (pinsOf s r c).bx p) { p with ff := newFf })
  { y with brg := brg }

/-- The registers of one I/O (R510, R511): the output side captures unless the border cells hold, and the output enable only
from the instant of Table 3.6 on. -/
def captureGpio (hold enabled rise fall : Bool) (o : Nat → Bool) (g : Gpio) : Gpio :=
  let g := { g with inReg := rise, inReg1 := if g.ddr then fall else g.inReg1 }
  if hold then g
  else { g with outReg := o 0, outReg1 := if g.ddr then o 1 else g.outReg1, oeReg := enabled && o 2 }

/-- The I/O of bank `r` at the edge; the complement of an LVDS pair is not connected (R509). `s` is the state before the edge. -/
def captureBank (r : Nat) (i : FabricInputs) (s t : State) : State :=
  let hold := (s.region r).isoHold
  let enabled := decide (s.dev.release = .done)
  onlyIf (classB r) (forBelow 48 (fun k t =>
    let n := 48 * r + k
    if isComplement t n then t
    else modGpio n (captureGpio hold enabled (i.rise.getLsbD k) (i.fall.getLsbD k) (portDown s r (.gpio k))) t)) t

/-- Does a bundle of an engine's port run in fold mode (R476)? -/
def foldEngine (s : State) (e : Nat) : Bool :=
  s.bonds.bonds.any (fun b => decide (b.1 = e / 32) && b.2.2.fold && match b.2.1 with
    | .dspPort j _ => decide (j.val = e % 32)
    | _ => false)

/-- An engine's port at an edge: `EVT` goes low again (R230), a `WAIT` ends, in fold mode `WAIT` is high on every second cycle (R199,
R476), and the levels of `DOORBELL` and `START` are noted (R238). -/
def engineEdge (s : State) (n : Nat) (e : Engine) : Engine :=
  { e with evt := false, portWait := foldEngine s n && !e.portWait,
           bellWas := portDown s (n / 32) (.dsp (n % 32)) 132, startWas := portDown s (n / 32) (.dsp (n % 32)) 133 }

/-- `CRC_PORT` at an edge (R418): a cycle of the region's own unit passes, and `CRC_IDLE` shows whether the unit named has done
with its operations; that of a pool channel is an input of the edge. -/
def crcEdge (unit : Nat) (i : FabricInputs) (x : Region) : Region :=
  { x with
    crcNamed := unit
    crcIdle := if unit = 0 then x.crcLeft == 0 else i.ports.contains (.crc, 1)
    crcLeft := x.crcLeft - 1 }

/-- The edge. -/
def fabricEdge (r : Nat) (i : FabricInputs) (s : State) : State :=
  let t := captureBank r i s (modRegion r (fun x =>
    crcEdge (portWord s r .crc 5 3) i
      { captureCells s r x.portEdge with slotPins := slotPinsOf s r, spineOff := 0, ups := i.ports }) s)
  let t := forBelow 32 (fun j => modEngine (32 * r + j) (engineEdge s (32 * r + j))) t
  forBelow 64 settleSr (useFree t)

/-- The region's fabric clock runs. -/
def fabricRuns (s : State) (r : Nat) : Bool :=
  let x := s.region r
  fabricClocked s r && !x.copeReset && !x.ffHeld

/-- FABRIC_CLOCK_EDGE (R80). -/
def execFabricClockEdge (r : Fin 64) (i : FabricInputs) (s : State) : Out :=
  occurs (fabricRuns s r.val) (fun s => takeDeferred r.val (fabricEdge r.val i s)) s

end Sys2Proof.Machine
end

