-- ==== Sys2Proof/Machine/Links.lean ====
section
/-! DEFINITION. Meanings of the link commands, the flits received and the link timers (chapter 11). -/

namespace Sys2Proof.Machine

/-! ### LINK_CONFIG (R293, R294, R310, R328; Table 11.9) -/

/-- The profile that a request gives. -/
def reqProfile (q : Req) : Profile :=
  let b := fun i => q.argByte i
  { width := b 9, lanes := (List.range (min (b 9) 8)).map (fun i => b (10 + i)), rate := b 18, coding := b 19
    training := b 20, preset := b 21, refclk := b 22, degrade := (b 23).testBit 0, precode := (b 23).testBit 1
    txInvert := BitVec.ofNat 8 (b 24), rxInvert := BitVec.ofNat 8 (b 25), timeoutMs := q.arg 26 2
    alloc := (List.range 8).map (fun v => q.arg (28 + 2 * v) 2), weights := (List.range 7).map (fun v => b (44 + v))
    linkTimeout := q.arg 52 2 }

/-- The arguments' rules. -/
def profileOk (q : Req) : Bool :=
  let p := reqProfile q
  [1, 2, 4, 8].contains p.width && p.lanes.all (fun l => decide (l < 96)) && decide (p.lanes.eraseDups.length = p.width)
    && (List.range 8).all (fun i => decide (i < p.width) || decide (q.argByte (10 + i) = 0xFF))
    && p.lanes.all (fun l => isPClass l == isPClass (p.lanes.headD 0))
    && rateOk p.rate p.coding (isPClass (p.lanes.headD 0)) && decide (p.coding ≠ 0) && decide (p.training ≤ 2)
    && (decide (p.training = 0) || isTrainable p.rate) && decide (1 ≤ p.preset) && decide (p.preset ≤ 5)
    && decide (p.refclk < 8) && decide (q.argByte 23 < 4) && decide (1 ≤ p.timeoutMs) && decide (p.timeoutMs ≤ 4000)
    && p.alloc.all (fun a => decide (a ≤ 2047)) && p.weights.all (fun w => decide (1 ≤ w) && decide (w ≤ 15))
    && decide (1 ≤ p.linkTimeout) && decide (p.linkTimeout ≤ 1000)

/-- The profile in effect, in the layout of the arguments, and the state. -/
def linkCfgResults (l : Nat) (s : State) : Results :=
  let x := s.link l
  let p := x.prof
  [(16, 1, bit (decide (x.st ≠ .off))), (17, 1, p.width)] ++
    (List.range 8).map (fun i => (18 + i, 1, lget 0xFF p.lanes i)) ++
    [(26, 1, p.rate), (27, 1, p.coding), (28, 1, p.training), (29, 1, p.preset), (30, 1, p.refclk),
     (31, 1, bit p.degrade + 2 * bit p.precode), (32, 1, p.txInvert.toNat), (33, 1, p.rxInvert.toNat), (34, 2, p.timeoutMs)] ++
    (List.range 8).map (fun v => (36 + 2 * v, 2, lget 0 p.alloc v)) ++
    (List.range 7).map (fun v => (52 + v, 1, lget 0 p.weights v)) ++ [(60, 2, p.linkTimeout), (64, 1, x.st.code)]

/-- Flit buffers that the other links hold. -/
def poolUsed (s : State) (l : Nat) : Nat :=
  s.links.foldl (fun n k => if k.1 = l ∨ k.2.st = .off then n else n + k.2.prof.alloc.foldl (· + ·) 0) 0

/-- The configuration that link lane `i` takes from a profile. -/
def profileCfg (p : Profile) (i : Nat) : LaneCfg :=
  { mode := .sprue, rate := p.rate, coding := p.coding, txInvert := p.txInvert.getLsbD i, rxInvert := p.rxInvert.getLsbD i
    precode := p.precode, training := p.training, preset := p.preset, refclk := p.refclk, timeoutMs := p.timeoutMs }

/-- Lanes of a link that is formed again with another pair of rate and reference clock use no PLL any more (R254). -/
def leavePlls (old p : Profile) (s : State) : State :=
  if old.rate = p.rate ∧ old.refclk = p.refclk then s
  else forEach (old.lanes.filter p.lanes.contains) (fun l => modLane l (fun x => { x with cfg := { x.cfg with mode := .off } })) s

/-- The lanes take a profile: none when a PLL is wanting. -/
def formLanes (old p : Profile) (s : State) : Option State :=
  let s := leavePlls old p s
  p.lanes.zipIdx.foldl (fun acc l => acc.bind (applyCfg l.1 (profileCfg p l.2))) (some s)

/-- Forms a link, or forms it again. -/
def formLink (l : Nat) (p : Profile) (s : State) : Option State :=
  let old := s.link l
  let s := if old.st = .off ∨ old.st = .down then s else linkDown l 6 s
  let s := forEach (old.prof.lanes.filter (fun k => !p.lanes.contains k)) laneOff s
  (formLanes old.prof p s).map (fun s => startLink l (modLink l (fun x => { x with prof := p, downCause := x.downCause }) s))

/-- Removes a link. -/
def removeLink (l : Nat) (s : State) : State :=
  let x := s.link l
  if x.st = .off then s
  else
    let s := if x.st = .down then s else linkDown l 6 s
    let s := forEach x.prof.lanes laneOff s
    modLink l (fun x => { x with st := .off, prof := {}, active := 0 }) s

/-- A profile that differs in the VC weights or the link timeout at most. -/
def sameLink (a b : Profile) : Bool := decide ({ a with weights := b.weights, linkTimeout := b.linkTimeout } = b)

def linkConfigSpec : CmdSpec :=
  { opcode := 0x0600, query := true, targetOk := below 48
    owners := fun q _ => ownKey 2 q.target ::
      (if q.argByte 8 = 1 then ((reqProfile q).lanes.filter (· < 96)).map (ownKey 1) else [])
    body := fun q s =>
      let l := q.target
      let p := reqProfile q
      let x := s.link l
      if q.queryFlag then (s, .done stOk (linkCfgResults l s))
      else if q.argByte 8 = 0 then
        let s := removeLink l s
        (s, .done stOk (linkCfgResults l s))
      else if q.argByte 8 ≠ 1 || !profileOk q then (s, .done stBadArg [])
      else if s.sys.node = noNode || p.lanes.any (fun k => isPcieLane s k ||
          (decide ((s.lane k).st ≠ .off) && !(decide (x.st ≠ .off) && x.prof.lanes.contains k))) then (s, .done stDenied [])
      else if 32768 < poolUsed s l + p.alloc.foldl (· + ·) 0 then (s, .done stNoRoom [])
      else if decide (x.st ≠ .off) && sameLink x.prof p then
        let s := modLink l (fun x => { x with prof := p }) s
        (s, .done stOk (linkCfgResults l s))
      else match formLink l p s with
        | some s => (s, .done stOk (linkCfgResults l s))
        | none => (s, .done stNoRoom []) }

/-- LINK_CONFIG (R293). -/
def execLinkConfig (p : Port) (sl : Fin 4) (s : State) : Out := runCmd linkConfigSpec p sl s

/-! ### LINK_STATUS, LINK_RESET, LINK_LOOPBACK, SPRUE_QUEUE -/

def linkStatusResults (l : Nat) (s : State) : Results :=
  let x := s.link l
  [(16, 1, x.st.code), (17, 1, x.active), (18, 1, x.downCause), (19, 1, x.loopback), (20, 4, x.partner),
   (24, 1, x.partnerLink), (28, 4, x.rtt), (32, 4, x.backoffMs)] ++
    (List.range 16).map (fun i => (36 + 4 * i, 4, lget 0 x.counters i)) ++
    (List.range 8).map (fun v => (120 + 4 * v, 4, (x.txOf v).stallNow s.env.now))

def linkStatusSpec : CmdSpec :=
  { opcode := 0x0601, targetOk := below 48
    body := fun q s =>
      let l := q.target
      let res := linkStatusResults l s
      if 2 ≤ q.argByte 8 then (s, .done stBadArg [])
      else if q.argByte 8 = 0 then (s, .done stOk res)
      else
        let (s, st) := claimOne q (ownKey 2 l) s
        (onlyIf (st == stOk) (modLink l (fun x => { x with
          counters := .replicate 16 0, tx := x.tx.map (fun t => { t with stallUs := 0, stallAt := t.stallAt.map (fun _ => s.env.now) }) })) s, .done st res) }

/-- LINK_STATUS (R295). -/
def execLinkStatus (p : Port) (sl : Fin 4) (s : State) : Out := runCmd linkStatusSpec p sl s

def ownLink (q : Req) (_ : State) : List Nat := [ownKey 2 q.target]

def linkResetSpec : CmdSpec :=
  { opcode := 0x0602, targetOk := below 48, owners := ownLink
    body := fun q s =>
      let l := q.target
      match (s.link l).st with
      | .off => (s, .done stBadArg [])
      | .down => (startLink l (forEach (s.link l).prof.lanes resetLane s), .done stOk [])
      | _ => (dropLink l 7 s, .done stOk []) }

/-- LINK_RESET (R324). -/
def execLinkReset (p : Port) (sl : Fin 4) (s : State) : Out := runCmd linkResetSpec p sl s

/-- A loopback depth replaces the one in effect, which stops first (R326 to R328). The seed of the test flits' pattern is not given: a free
value. -/
def setLinkDepth (l d : Nat) (s : State) : State :=
  let old := (s.link l).loopback
  if old = d then s
  else
    let seed := freshBits 31 s
    let s := useFree (modLink l (fun x => { x with
      loopback := d, loopDue := if d = 5 then some 1 else if old = 5 then some 2 else x.loopDue
      loopReg := if d = 5 then seed ||| 1 else x.loopReg
      loopOut := if old = 5 then [] else x.loopOut }) s)
    raise (linkEvent 8 1 0x0B06 l [(1, d)]) s

def linkLoopbackSpec : CmdSpec :=
  { opcode := 0x0603, query := true, targetOk := below 48, owners := ownLink
    body := fun q s =>
      let l := q.target
      let d := q.argByte 8
      if q.queryFlag then (s, .done stOk [(16, 1, (s.link l).loopback)])
      else if d ≠ 0 ∧ d ≠ 5 ∧ d ≠ 6 then (s, .done stBadArg [])
      else if (s.link l).st ≠ .up then (s, .done stDenied [])
      else (setLinkDepth l d s, .done stOk [(16, 1, d)]) }

/-- LINK_LOOPBACK (R326). -/
def execLinkLoopback (p : Port) (sl : Fin 4) (s : State) : Out := runCmd linkLoopbackSpec p sl s

/-- A message is in progress on a queue. -/
def queueBusy (s : State) (q : Nat) : Bool :=
  (s.queue q).sending.isSome || s.links.any (fun l => l.2.rx.any (fun r =>
    decide (r.arrive = .deliver q) || decide (r.arrive = .credit q)))

def sprueRoleResults (q : Nat) (s : State) : Results :=
  match (s.queue q).role with
  | .none => [(16, 1, 0), (18, 2, 0xFFFF), (20, 4, 0), (24, 4, 0)]
  | .send c => [(16, 1, 1), (18, 2, c.getD 0xFFFF), (20, 4, 0), (24, 4, 0)]
  | .receive a b => [(16, 1, 2), (18, 2, 0xFFFF), (20, 4, a), (24, 4, b)]

/-- The completion queue that a role names. -/
def SprueRole.completion : SprueRole → List Nat
  | .send (some c) => [c]
  | _ => []

def sprueQueueSpec : CmdSpec :=
  { opcode := 0x0604, query := true, targetOk := below 4096
    owners := fun q _ => ownKey 3 (q.target / 64) ::
      (if q.argByte 8 = 1 ∧ q.arg 10 2 < 4096 then [ownKey 3 (q.arg 10 2 / 64)] else [])
    body := fun q s =>
      let n := q.target
      let c := q.arg 10 2
      if q.queryFlag then (s, .done stOk (sprueRoleResults n s))
      else if 2 < q.argByte 8 || (decide (q.argByte 8 = 1) && decide (4096 ≤ c) && decide (c ≠ 0xFFFF)) ||
          (decide (q.argByte 8 = 2) && (decide (q.arg 16 4 < q.arg 12 4) || decide (noNode ≤ q.arg 16 4))) then
        (s, .done stBadArg [])
      else if queueBusy s n then (s, .done stBusy [])
      else
        let role : SprueRole := match q.argByte 8 with
          | 0 => .none
          | 1 => .send (if c = 0xFFFF then none else some c)
          | _ => .receive (q.arg 12 4) (q.arg 16 4)
        let old := (s.queue n).role.completion
        let s := bindQueues ([n] ++ old ++ role.completion) (modQueue n (fun x => { x with role := role }) s)
        (s, .done stOk (sprueRoleResults n s)) }

/-- SPRUE_QUEUE (R316). -/
def execSprueQueue (p : Port) (sl : Fin 4) (s : State) : Out := runCmd sprueQueueSpec p sl s

/-! ### Received flits (R300 to R306, R321 to R323, R326) -/

/-- A link carries flits on a lane. -/
def flitArrives (s : State) (l lane : Nat) (ty : Nat) (f : Line) : Bool :=
  s.awake && decide ((s.link l).st = .up) && (s.link l).active.testBit lane && goodFlit ty f

/-- A gap is declared (R303, R304). -/
def declareGap (l : Nat) (s : State) : State :=
  modLink l (fun x => { x with rxHeld := [], gapTo := none, nakDue := true, nakOut := true }) s

/-- Evidence of a gap up to number `n` (R302, R303). -/
def noteGap (l n : Nat) (s : State) : State :=
  let x := s.link l
  if x.nakOut then s
  else if x.prof.width = 1 then declareGap l s
  else modLink l (fun x => { x with gapTo := match x.gapTo with
    | some g => some (if aheadOf n g then n else g)
    | none => some n }) s

/-- What every flit that passes its CRC carries: `ACK`, `CVC` and `CCUM`, and for a flit other than DATA evidence of a
gap (R300, R302). -/
def takeHeader (l : Nat) (f : Line) (s : State) : State :=
  let s := takeAck l (flitAck f) (bumpLink l 1 1 s)
  let s := takeCredit l (flitCvc f) (flitCcum f) s
  if flitType f ≠ 1 && aheadOf (flitSeq f) (s.link l).expect then noteGap l (flitSeq f) s else s

/-- Accepts the flit whose number is E. -/
def acceptData (l : Nat) (f : Line) (s : State) : State :=
  let s := modLink l (fun x =>
    let e := (x.expect + 1) % 4096
    { x with expect := e, nakOut := false
             gapTo := match x.gapTo with
               | some g => if aheadOf g e then some g else none
               | none => none }) s
  takeSegment l (flitVc f) f (modRx l (flitVc f) (fun r => { r with held := r.held + 1 }) s)

/-- Held flits that follow in order are accepted (R303). -/
def acceptHeld (l : Nat) : Nat → State → State
  | 0, s => s
  | n + 1, s =>
    let x := s.link l
    match x.rxHeld.find? (fun h => h.1 == x.expect) with
    | none => s
    | some h =>
      acceptHeld l n (acceptData l h.2 (modLink l (fun x => { x with rxHeld := x.rxHeld.filter (fun k => k.1 != h.1) }) s))

/-- A DATA flit (R302, R303). -/
def takeData (l : Nat) (f : Line) (s : State) : State :=
  let s := takeHeader l f (modLink l (fun x => { x with helloing := false }) s)
  let x := s.link l
  let n := flitSeq f
  if n = x.expect then acceptHeld l 64 (acceptData l f s)
  else if aheadOf n x.expect then
    if x.nakOut then s
    else if decide (x.prof.width ≠ 1) && x.rxHeld.any (fun h => h.1 == n) then s
    else if x.prof.width = 1 ∨ 64 ≤ x.rxHeld.length then declareGap l s
    else noteGap l n (modLink l (fun x => { x with rxHeld := x.rxHeld ++ [(n, f)] }) s)
  else bumpLink l 5 1 s

/-- DATA (R302). -/
def execData (l : Fin 48) (lane : Fin 8) (f : Line) (s : State) : Out :=
  occurs (flitArrives s l.val lane.val 1 f) (takeData l.val f) s

/-- A LINKCTL flit: the credit counts of all eight VCs (R311). -/
def takeLinkctl (l : Nat) (f : Line) (s : State) : State :=
  let s := takeHeader l f (modLink l (fun x => { x with helloing := false }) s)
  forBelow 8 (fun v => takeCredit l v (fieldOf (flitPayload f) (2 * v) 2 % 4096)) s

/-- LINKCTL (R311). -/
def execLinkctl (l : Fin 48) (lane : Fin 8) (f : Line) (s : State) : Out :=
  occurs (flitArrives s l.val lane.val 2 f) (takeLinkctl l.val f) s

/-- The event Replays, framing errors or malformed flits. -/
def lineTroubles (l replays framing malformed : Nat) (s : State) : State :=
  raiseLimited (linkEvent 8 1 0x0B05 l [(4, replays), (4, framing), (4, malformed)]) [1, 2, 3] s

/-- A replay from `a` + 1 (R305, R306). -/
def startReplay (l a : Nat) (s : State) : State :=
  let x := s.link l
  let n := x.ackCount a
  if x.replay.length < n then s
  else if x.replayAt.isSome ∧ x.replayFrom = (a + 1) % 4096 then s
  else
    let s := releaseEntries l n s
    let s := modLink l (fun x => { x with replayCount := x.replayCount + 1 }) s
    if 16 ≤ (s.link l).replayCount then dropLink l 2 s
    else
      let s := modLink l (fun x => { x with
        replayFrom := (a + 1) % 4096, replayAt := if x.replay.isEmpty then none else some 0 }) s
      lineTroubles l 1 0 0 (bumpLink l 8 1 s)

/-- A NAK flit. -/
def takeNak (l : Nat) (f : Line) (s : State) : State :=
  startReplay l (flitAck f) (bumpLink l 7 1 (takeHeader l f s))

/-- NAK (R305). -/
def execNak (l : Fin 48) (lane : Fin 8) (f : Line) (s : State) : Out :=
  occurs (flitArrives s l.val lane.val 3 f) (takeNak l.val f) s

/-- The first check of R321 that a HELLO fails, and the partner's value there. -/
def helloFault (s : State) (l : Nat) (p : BitVec 416) : Option Nat :=
  let x := (s.link l).prof
  if fieldOf p 9 1 ≠ 1 then some (fieldOf p 9 1)
  else if fieldOf p 5 1 ≠ x.width then some (fieldOf p 5 1)
  else if fieldOf p 6 1 ≠ x.rate then some (fieldOf p 6 1)
  else if fieldOf p 7 1 ≠ x.coding then some (fieldOf p 7 1)
  else if fieldOf p 0 4 % 2 ^ 18 = s.sys.node then some (fieldOf p 0 4)
  else if 2 ^ 18 ≤ fieldOf p 0 4 then some (fieldOf p 0 4)
  else if 4 ≤ fieldOf p 8 1 then some (fieldOf p 8 1)
  else if fieldOf p 10 2 ≠ 0 then some (fieldOf p 10 2)
  else if 2 ^ 26 ≤ fieldOf p 48 4 then some (fieldOf p 48 4)
  else none

/-- Local time in ns. -/
def nowNs (s : State) : Nat := s.env.now / 256

/-- The RTT of a HELLO with `SEEN` on lane 0 of the active lanes (R323). -/
def measureRtt (l lane : Nat) (p : BitVec 416) (s : State) : State :=
  if fieldOf p 36 8 ≠ 0 ∧ (maskLanes (s.link l).active).head? = some lane then
    modLink l (fun x => { x with rtt := nowNs s - fieldOf p 36 8 - fieldOf p 44 4 }) s
  else s

/-- A HELLO in HELLO (R321, R322). -/
def takeHello (l lane : Nat) (p : BitVec 416) (s : State) : State :=
  match helloFault s l p with
  | some v =>
    if (s.link l).helloBad then s
    else useFree (raise (linkEvent 8 3 0x0B04 l [(1, freshNat s), (4, v)]) (modLink l (fun x => { x with helloBad := true }) s))
  | none =>
    let s := modLink l (fun x => { x with
      seen := true, helloTx := fieldOf p 28 8, helloRx := nowNs s
      partnerAlloc := (List.range 8).map (fun v => fieldOf p (12 + 2 * v) 2) }) s
    if (fieldOf p 8 1).testBit 0 then enterUp l (fieldOf p 0 4) (fieldOf p 4 1) (measureRtt l lane p s) else s

/-- HELLO flits count in HELLO and UP. -/
def helloArrives (s : State) (l lane : Nat) (f : Line) : Bool :=
  let x := s.link l
  s.awake && (decide (x.st = .hello) || decide (x.st = .up)) && x.active.testBit lane && goodFlit 4 f

/-- A HELLO flit (R321 to R324): an invalid one is discarded. -/
def takeHelloFlit (l lane : Nat) (f : Line) (s : State) : State :=
  let p := flitPayload f
  if (s.link l).st = .hello then takeHello l lane p (bumpLink l 1 1 s)
  else
    let s := takeHeader l f s
    if (helloFault s l p).isSome then s
    else if (fieldOf p 8 1).testBit 0 then measureRtt l lane p s else dropLink l 5 s

/-- HELLO (R321). -/
def execHello (l : Fin 48) (lane : Fin 8) (f : Line) (s : State) : Out :=
  occurs (helloArrives s l.val lane.val f) (takeHelloFlit l.val lane.val f) s

/-- A TIME flit. -/
def takeTimeFlit (l : Nat) (f : Line) (s : State) : State := takeTime l (flitPayload f) (takeHeader l f s)

/-- TIME (R353). -/
def execTime (l : Fin 48) (lane : Fin 8) (f : Line) (s : State) : Out :=
  occurs (flitArrives s l.val lane.val 5 f) (takeTimeFlit l.val f) s

/-- Count and data of a LOOP test flit: the count in bytes 1 to 3, byte 0 being the flit's kind. -/
def loopParts (p : BitVec 416) : Nat × BitVec 384 := (fieldOf p 1 3, p.extractLsb' 32 384)

/-- A returned test flit is counted (R326). -/
def countReturned (l : Nat) (p : BitVec 416) (s : State) : State :=
  let (n, d) := loopParts p
  match (s.link l).loopOut.find? (fun o => o.1 == n) with
  | none => s
  | some o =>
    let s := bumpLink l 13 1 (modLink l (fun x => { x with loopOut := x.loopOut.filter (fun k => k.1 != n) }) s)
    let s := onlyIf (o.2.1 != d) (bumpLink l 14 1) s
    let ns := (s.env.now - o.2.2) / 256
    modLink l (fun x => { x with counters := lmod 0 x.counters 15 (fun v => min 4294967295 (max v ns)) }) s

/-- A LOOP flit: start, stop or test. -/
def takeLoop (l lane : Nat) (f : Line) (s : State) : State :=
  let s := takeHeader l f s
  let p := flitPayload f
  match fieldOf p 0 1 with
  | 1 => modLink l (fun x => { x with loopPartner := true }) s
  | 2 => modLink l (fun x => { x with loopPartner := false, loopReturn := [] }) s
  | 3 =>
    if (s.link l).loopback = 5 then countReturned l p s
    else if (s.link l).loopPartner then modLink l (fun x => { x with loopReturn := x.loopReturn ++ [(lane, f)] }) s
    else s
  | _ => s

/-- LOOP_FLIT (R326). -/
def execLoopFlit (l : Fin 48) (lane : Fin 8) (f : Line) (s : State) : Out :=
  occurs (flitArrives s l.val lane.val 6 f) (takeLoop l.val lane.val f) s

/-- A DOWN flit: its `ACK` still counts (R300). -/
def takeDown (l : Nat) (f : Line) (s : State) : State := dropLink l 4 (takeHeader l f s)

/-- DOWN (R324). -/
def execDown (l : Fin 48) (lane : Fin 8) (f : Line) (s : State) : Out :=
  occurs (flitArrives s l.val lane.val 7 f) (takeDown l.val f) s

/-- May a flit be discarded on a lane: the link is in HELLO or UP there? -/
def lineLive (s : State) (l lane : Nat) : Bool :=
  let x := s.link l
  s.awake && (decide (x.st = .hello) || decide (x.st = .up)) && x.active.testBit lane

/-- A flit is discarded whole and counted. -/
def discardFlit (l : Nat) (why : FlitFault) (s : State) : State :=
  match why with
  | .crc => bumpLink l 2 1 s
  | .framing => lineTroubles l 0 1 0 (bumpLink l 3 1 s)
  | .malformed => lineTroubles l 0 0 1 (bumpLink l 4 1 s)

/-- FLIT_DISCARDED (R296, R297, R299, R300): no field of it is used. -/
def execFlitDiscarded (l : Fin 48) (lane : Fin 8) (why : FlitFault) (f : Line) (s : State) : Out :=
  let fits := match why with
    | .crc => !crcPasses f
    | .framing => true
    | .malformed => crcPasses f && isMalformedFlit f
  occurs (lineLive s l.val lane.val && fits) (discardFlit l.val why) s

/-- A flit that a lane's receiver has framed. -/
def takeFlit (l lane : Nat) (f : Line) (s : State) : State :=
  if !crcPasses f then onlyIf (lineLive s l lane) (discardFlit l .crc) s
  else if isMalformedFlit f then onlyIf (lineLive s l lane) (discardFlit l .malformed) s
  else
    let on := flitArrives s l lane (flitType f) f
    match flitType f with
    | 1 => onlyIf on (takeData l f) s
    | 2 => onlyIf on (takeLinkctl l f) s
    | 3 => onlyIf on (takeNak l f) s
    | 4 => onlyIf (helloArrives s l lane f) (takeHelloFlit l lane f) s
    | 5 => onlyIf on (takeTimeFlit l f) s
    | 6 => onlyIf on (takeLoop l lane f) s
    | _ => onlyIf on (takeDown l f) s

/-- The units of a lane in SPRUE mode are framed, and their flits reach its link (R296, R297). -/
def receiveFlits (lane : Nat) (us : List LaneUnit) (s : State) : State :=
  let (y, found) := (s.lane lane).flit.take (s.lane lane).cfg.coding us
  let s := modLane lane (fun x => { x with flit := y }) s
  match linkOfLane s lane with
  | none => s
  | some (l, k) => forEach found (fun g s => match g with
    | .flit f => takeFlit l k f s
    | .error => onlyIf (lineLive s l k) (discardFlit l .framing) s) s

/-- LANE_RECEIVE_UNIT (R257 to R262, R267, R296, R297): what the line brings is decoded; the units of a lane in QUEUE mode reach its item,
those of a lane in SPRUE mode its link. -/
def execLaneReceiveUnit (lane : Fin 96) (n upper lower : Nat) (s : State) : Out :=
  let l := lane.val
  occurs (receiving s l) (fun s =>
    let x := s.lane l
    let (y, o) := x.decode l (freshNat s) (lineLevels n upper lower)
    let s := onlyIf (x.loopback == 4) useFree (modLane l (fun _ => y) s)
    let s := forEach o.counts (fun n => bumpLane l n.1 n.2) s
    let s := onlyIf (o.counts.any (fun n => n.1 == 3)) (raiseLimited (laneEvent 8 1 0x0A07 l [(4, 1)]) [1]) s
    if !x.delivers then s
    else match x.cfg.mode with
      | .queue => forEach o.units (fun u => receiveUnit l u.1 u.2) s
      | .sprue => receiveFlits l (o.units.map (·.1)) s
      | _ => s) s

/-! ### Timers -/

/-- GAP_SKEW_TIMEOUT (R303). -/
def execGapSkewTimeout (l : Fin 48) (s : State) : Out :=
  let x := s.link l.val
  occurs (decide (x.st = .up) && x.gapTo.isSome && !x.nakOut) (declareGap l.val) s

/-- NAK_REPLAY_TIMEOUT (R304). -/
def execNakReplayTimeout (l : Fin 48) (s : State) : Out :=
  let x := s.link l.val
  occurs (decide (x.st = .up) && x.nakOut && !x.nakDue) (modLink l.val (fun x => { x with nakDue := true })) s

/-- REPLAY_TIMEOUT (R305). -/
def execReplayTimeout (l : Fin 48) (s : State) : Out :=
  let x := s.link l.val
  occurs (decide (x.st = .up) && !x.replay.isEmpty) (startReplay l.val ((x.oldest + 4095) % 4096)) s

/-- LINK_TIMEOUT (R324). -/
def execLinkTimeout (l : Fin 48) (s : State) : Out := occurs (s.awake && decide ((s.link l.val).st = .up)) (dropLink l.val 3) s

/-- LINK_BACKOFF_END (R325): the back-off is doubled unless the UP before had lasted 10 s. -/
def execLinkBackoffEnd (l : Fin 48) (s : State) : Out :=
  occurs (decide ((s.link l.val).st = .down) && s.awake) (fun s =>
    startLink l.val (modLink l.val (fun x => { x with
      backoffMs := if x.stable then x.backoffMs else min 1024 (2 * x.backoffMs) }) s)) s

/-- LINK_UP_STABLE (R325). -/
def execLinkUpStable (l : Fin 48) (s : State) : Out :=
  occurs (decide ((s.link l.val).st = .up) && !(s.link l.val).stable)
    (modLink l.val (fun x => { x with stable := true, backoffMs := 1 })) s

/-- LINK_FORMATION_TIMEOUT (R325). -/
def execLinkFormationTimeout (l : Fin 48) (s : State) : Out :=
  let x := s.link l.val
  occurs (decide (x.st = .starting) || decide (x.st = .hello)) (fun s =>
    dropLink l.val 3 (modLink l.val (fun x => { x with stable := false }) s)) s

/-- STARTING_DEGRADE_TIMEOUT (R319). -/
def execStartingDegradeTimeout (l : Fin 48) (s : State) : Out :=
  let x := s.link l.val
  occurs (decide (x.st = .starting) && x.prof.degrade && decide (upMask s l.val ≠ 0)) (enterHello l.val) s

/-- The HELLO payload (Table 11.7). -/
def helloPayload (l : Nat) (s : State) : BitVec 416 :=
  let x := s.link l
  let allocs := (List.range 8).foldl (fun n v => n + lget 0 x.prof.alloc v * 2 ^ (96 + 16 * v)) 0
  BitVec.ofNat 416 (s.sys.node + l * 2 ^ 32 + x.prof.width * 2 ^ 40 + x.prof.rate * 2 ^ 48 + x.prof.coding * 2 ^ 56
    + (bit x.seen + 2 * bit x.prof.degrade) * 2 ^ 64 + 2 ^ 72 + allocs + nowNs s % 2 ^ 64 * 2 ^ 224
    + x.helloTx % 2 ^ 64 * 2 ^ 288 + (if x.seen then (nowNs s - x.helloRx) % 2 ^ 32 else 0) * 2 ^ 352 + systemWord s * 2 ^ 384)

/-- HELLO_INTERVAL (R320, R322): on every UP lane. -/
def execHelloInterval (l : Fin 48) (s : State) : Out :=
  let x := s.link l.val
  occurs (s.awake && (decide (x.st = .hello) || (decide (x.st = .up) && x.helloing))) (fun s =>
    forEach (maskLanes (upMask s l.val)) (fun k s =>
      emit l.val k 4 (s.link l.val).nextSeq 0 { payload := helloPayload l.val s } s) s) s

/-! ### FLIT_OPPORTUNITY (R307, R312) -/

/-- New DATA may start: no loopback of depth 5 at either end (R326), room in the replay buffer (R301). -/
def Link.mayStart (x : Link) : Bool := decide (x.loopback ≠ 5) && !x.loopPartner

/-- The segment that a VC is ready to send (R312). -/
def Link.ready (x : Link) (v : Nat) : Option Segment :=
  let t := x.txOf v
  if !t.hasCredit || decide (2048 ≤ x.replay.length) || (!x.mayStart && t.cur.isNone) then none else t.next

/-- Sends a segment for the first time (R301, R311, R313). -/
def sendData (l v : Nat) (g : Segment) (s : State) : State :=
  let x := s.link l
  let s := emit l (nextLane x.active x.laneTurn) 1 x.nextSeq v g s
  let s := modLink l (fun x => { x with
    nextSeq := (x.nextSeq + 1) % 4096, replay := x.replay ++ [{ sequence := x.nextSeq, vc := v, seg := g }] }) s
  freeBuf g.src.1 g.src.2 1 (modTx l v (fun t => t.take g) s)

/-- VCs 0 to 6 in the order of the weighted round-robin: the VC whose turn it is while flits of its weight are left. -/
def wrrOrder (x : Link) : List Nat :=
  let after := (List.range 7).map (fun i => (x.wrrVc + 1 + i) % 7)
  if x.wrrLeft = 0 then after else x.wrrVc :: after

/-- Sends DATA of VC 7, or of VCs 0 to 6 by weight; none when no VC is ready. -/
def sendSomeData (l : Nat) (s : State) : Option State :=
  let x := s.link l
  match x.ready 7 with
  | some g => some (sendData l 7 g s)
  | none =>
    match (wrrOrder x).find? (fun v => (x.ready v).isSome) with
    | none => none
    | some v => (x.ready v).map (fun g =>
        let left := if v = x.wrrVc ∧ x.wrrLeft ≠ 0 then x.wrrLeft - 1 else lget 1 x.prof.weights v - 1
        modLink l (fun x => { x with wrrVc := v, wrrLeft := left }) (sendData l v g s))

/-- Resends the next entry of a replay with its original number. -/
def resend (l i : Nat) (s : State) : State :=
  let x := s.link l
  match x.replay[i]? with
  | none => modLink l (fun x => { x with replayAt := none }) s
  | some r =>
    let s := emit l (nextLane x.active x.laneTurn) 1 r.sequence r.vc r.seg s
    bumpLink l 9 1 (modLink l (fun x => { x with replayAt := if i + 1 < x.replay.length then some (i + 1) else none }) s)

/-- A LINKCTL flit is due: a count has changed since it was sent, or 10 µs have passed since the last flit. -/
def linkctlDue (l : Nat) (s : State) : Bool :=
  let x := s.link l
  decide ((x.expect + 4095) % 4096 ≠ x.ackSent) || x.rx.any (fun r => decide (r.freed ≠ r.freedSent))
    || decide (2560000 ≤ s.env.now - x.lastTx)

/-- The LINKCTL payload. -/
def linkctlPayload (x : Link) : BitVec 416 :=
  BitVec.ofNat 416 ((List.range 8).foldl (fun n v => n + (x.rxOf v).freed % 4096 * 2 ^ (16 * v)) 0)

/-- A LOOP test flit: PRBS31 data, which runs on from flit to flit. -/
def sendLoopTest (l : Nat) (s : State) : State :=
  let n := (s.link l).loopCount % 2 ^ 24
  let (bits, reg) := prbsBits 6 384 (s.link l).loopReg
  let d : BitVec 384 := BitVec.ofNat 384 (natOf bits)
  let s := emitCtl l 6 (BitVec.ofNat 416 (3 + n * 256 + d.toNat * 2 ^ 32)) s
  bumpLink l 12 1 (modLink l (fun x => { x with loopReg := reg, loopCount := x.loopCount + 1, loopOut := x.loopOut ++ [(n, d, s.env.now)] }) s)

/-- Credit-stall time of the VCs (Table 11.10), in whole µs. -/
def noteStalls (l : Nat) (s : State) : State :=
  modLink l (fun x => { x with tx := x.tx.map (fun t =>
    let stalled := t.next.isSome && !t.hasCredit
    match t.stallAt, stalled with
    | none, true => { t with stallAt := some s.env.now }
    | some _, false => { t with stallAt := none, stallUs := t.stallNow s.env.now }
    | _, _ => t) }) s

/-- The first of R312 that is ready. A TIME flit leaves on lane 0 of the active lanes (R350). LOOP start is sent, and test flits are
returned, once every message in progress has ended (R326). -/
def sendFirstReady (l : Nat) (s : State) : State :=
  let x := s.link l
  let quiet := x.tx.all (fun t => t.cur.isNone)
  if x.timeDue then
    let s := emit l ((maskLanes x.active).headD 0) 5 x.nextSeq 0 { payload := timePayload l s } s
    modLink l (fun x => { x with timeDue := false, timeSent := (s.env.now :: x.timeSent).take 8 }) s
  else if x.nakDue then bumpLink l 6 1 (modLink l (fun x => { x with nakDue := false }) (emitCtl l 3 0 s))
  else match x.loopDue, x.loopReturn with
    | some k, _ =>
      if k = 1 ∧ quiet = false then sendOther x s
      else modLink l (fun x => { x with loopDue := none }) (emitCtl l 6 (BitVec.ofNat 416 k) s)
    | none, r :: rest =>
      if quiet = false then sendOther x s
      else modLink l (fun x => { x with loopReturn := rest }) (emit l r.1 6 x.nextSeq 0 { payload := flitPayload r.2 } s)
    | none, [] => sendOther x s
where
  sendOther (x : Link) (s : State) : State :=
    match x.replayAt with
    | some i => resend l i s
    | none =>
      match sendSomeData l s with
      | some s => s
      | none =>
        if linkctlDue l s then
          modLink l (fun x => { x with rx := x.rx.map (fun r => { r with freedSent := r.freed }) })
            (emitCtl l 2 (linkctlPayload x) s)
        else if x.loopback = 5 ∧ x.loopDue = none then sendLoopTest l s
        else
          let on := lget 0 x.prof.lanes (nextLane x.active x.laneTurn)
          modLane on (Lane.sendIdle on) s

/-- FLIT_OPPORTUNITY (R312). -/
def execFlitOpportunity (l : Fin 48) (s : State) : Out :=
  occurs (s.awake && decide ((s.link l.val).st = .up)) (fun s =>
    let s := flushCompletions (retryWhole (forBelow 8 (retryCredit l.val) s))
    noteStalls l.val (sendFirstReady l.val s)) s

/-! ### Messages (R316, R317) -/

/-- The items of the oldest packet. -/
def firstPacket : List Item → List Item
  | [] => []
  | it :: rest => if it.eop then [it] else it :: firstPacket rest

/-- The engine takes an item wherever it stands, its read-back included (R359). -/
def Queue.takeItem (q : Queue) : Queue :=
  if q.headCount = 0 ∧ 0 < q.spilled then
    (match ({ q with headCount := 1, spilled := q.spilled - 1, reading := q.reading - 1 } : Queue).pop1 with
    | some (_, q) => q
    | none => q)
  else match q.pop1 with
    | some (_, q) => q
    | none => q

/-- Items that a send descriptor and its data make, with reserved bytes zero (Table 11.6, R316). -/
def descOk (d : Line) (n : Nat) : Bool :=
  let f := fun i k => fieldOf d i k
  decide (f 0 4 < 2 ^ 18) && decide (f 4 2 < 4096) && decide (f 6 1 < 8) && decide (f 7 1 < 2) && decide (f 8 2 < 16384)
    && decide (f 11 1 = 0) && decide (f 16 48 = 0) && decide (n = packetItems (f 8 2 + 1))

/-- The message of a packet is sent (R314, R316). -/
def sendPacket (q : Nat) (pkt : List Item) (s : State) : State :=
  let d := (pkt.headD {}).bytes
  let desc : BitVec 128 := d.extractLsb' 0 128
  if pkt.any (·.bad) || !descOk d pkt.length then sendOutcome q desc 0xFF sentBadDesc s
  else
    let len := fieldOf d 8 2 + 1
    let hop := if fieldOf d 10 1 = 0 then 16 else fieldOf d 10 1
    let body := ((pkt.drop 1).flatMap (fun i => bytesOf i.bytes 64)).take len
    let h := mkHeader (fieldOf d 0 4) s.sys.node 0x01 hop len (fieldOf d 4 2 + fieldOf d 12 4 * 2 ^ 16)
    match dispatch h (fieldOf d 6 1) body (some q) s with
    | (s, none) => sendOutcome q desc 0xFF sentNoRoute s
    | (s, some l) =>
      if l < 48 ∧ (s.link l).loopback ≠ 6 then modQueue q (fun x => { x with sending := some (desc, l) }) s
      else sendOutcome q desc (if l < 48 then l else 0xFF) sentOk s

/-- SEND_MESSAGE (R316): the oldest packet of a send queue, the one before it having its outcome. -/
def execSendMessage (q : Fin 4096) (s : State) : Out :=
  let x := s.queue q.val
  let isSend := match x.role with | .send _ => true | _ => false
  occurs (s.awake && isSend && x.enabled && decide (x.consumer = 69) && x.sending.isNone && !x.committed.isEmpty) (fun s =>
    let s := checkQueue q.val s
    let pkt := firstPacket (s.queue q.val).committed
    if pkt.isEmpty then s
    else sendPacket q.val pkt (modQueue q.val (fun x => iter Queue.takeItem pkt.length x) s)) s

/-- MESSAGE_CREDIT_TIMEOUT (R317): the message that waits at a VC of a link, or without a link (48) of the own node, is discarded unless
its credit has come. -/
def execMessageCreditTimeout (l : Fin 49) (vc : Fin 8) (s : State) : Out :=
  match ((s.link l.val).rxOf vc.val).arrive with
  | .credit q => occurs (decide ((s.link l.val).st = .up)) (fun s =>
      let r := (s.link l.val).rxOf vc.val
      if sprueCredit s q (packetItems (hdrLen r.header)) then resumeVc l.val vc.val false s
      else resumeVc l.val vc.val true (discardEvent q (hdrSource r.header) (bumpLink l.val 11 1 s))) s
  | _ => occurs s.awake (giveWhole vc.val (if l.val = 48 then 63 else l.val)) s

end Sys2Proof.Machine
end

