-- ==== Sys2Proof/Machine/Ports.lean ====
section
/-! DEFINITION. The edges of the block memory ports: what the fabric presents, and how the accesses of the Runner window and of
the Fettler share port B with it (R197 to R206). -/

namespace Sys2Proof.Machine

/-! ### Maintenance accesses (R202, R203, R206) -/

/-- What port A does in the cycle: the word of the operation it takes, and whether it writes. -/
abbrev Beside := Option (Nat × Bool)

/-- Port A meets an access to a word: with a write, with a read. -/
def Beside.writes (a : Beside) (w : Nat) : Bool := decide (a = some (w, true))
def Beside.reads (a : Beside) (w : Nat) : Bool := decide (a = some (w, false))

/-- The lines that a window access answers: a READ line of 8 words, one code for a WRITE (R39, R40). -/
def WindowJob.answer (read : Bool) (j : WindowJob) : List RLine :=
  let line := fun (l : List (BitVec 64 × Bool)) =>
    if l.all (·.2) then (⟨BitVec.ofNat 3 rcOk, BitVec.ofNat 512 (l.zipIdx.foldl (fun n x => n + x.1.1.toNat * 2 ^ (64 * x.2)) 0)⟩ : RLine)
    else ⟨BitVec.ofNat 3 rcIntegrity, 0⟩
  if read then (List.range (j.got.length / 8)).map (fun i => line ((j.got.drop (8 * i)).take 8))
  else [⟨BitVec.ofNat 3 (if j.got.all (·.2) then rcOk else rcIntegrity), 0⟩]

/-- The operation at the front of a window access is over: the next one, or the answer. Port B is kept for the rest of its line
when the access had it by R203. -/
def endWindowOp (m : Nat) (j : WindowJob) (got : BitVec 64 × Bool) (s : State) : State :=
  match j.ops with
  | [] => s
  | (line, _, wr) :: more =>
    let j := { j with ops := more, got := j.got ++ [got] }
    let same := match more with | (l, _, _) :: _ => l == line | [] => false
    let s := modBram m (fun b => { b with
      maint := if more.isEmpty then b.maint.drop 1 else j :: b.maint.drop 1, keepB := b.keepB && same }) s
    onlyIf more.isEmpty (answerOutst j.req (j.answer wr.isNone)) s

/-- One operation of the window access at the front: the state, and whether port A's read data are undefined. One that collides is
repeated. A partial write goes on in a second cycle. -/
def windowOp (m : Nat) (a : Beside) (j : WindowJob) (s : State) : State × Bool :=
  match j.ops with
  | [] => (s, false)
  | (_, w, wr) :: _ =>
    let part := match wr with | some (_, be) => !(s.bramCfg m).raw && be != BitVec.allOnes 8 | none => false
    if a.writes w || ((wr.isNone || part) && (s.bram m).rmwA == some w) then (s, false)
    else
      let met := a.reads w && wr.isSome
      let (s, d, ok) := match wr with
        | none => bramWindowRead m w j.mid s
        | some (d, be) => let (s, ok) := bramWindowWrite m w j.mid d be s; (s, 0, ok)
      if part then (modBram m (fun b => { b with half := some (ok, met) }) s, met)
      else if met then (s, true)
      else (endWindowOp m j (d, ok) s, false)

/-- The word that the Fettler waits to read. A write of port A leaves its data undefined, and a write-back that meets a read of
port A is dropped; the next pass reads the word again. -/
def scrubOp (m w : Nat) (a : Beside) (s : State) : State × Bool :=
  let r := m / 256
  let i := m % 256 * 512 + w
  let s := modBram m (fun b => { b with scrub := none, keepB := false }) s
  if !sweeping s r 1 || (s.sweep r 1).pos != i then (s, false)
  else if a.writes w || (s.bram m).rmwA == some w then (sweepOn r 1 i s, false)
  else
    let old := (s.bram m).word w
    let (s, out) := fettleBram m w s
    let met := a.reads w && out.fixable
    (sweepOn r 1 i (onlyIf met (modBram m (fun b => { b with words := tset 0 b.words w old })) s), met)

/-- A maintenance access waits. -/
def Bram.waits (b : Bram) : Bool := !b.maint.isEmpty || b.scrub.isSome

/-- A maintenance access at a port B edge, window accesses first (R202). -/
def maintOp (m : Nat) (a : Beside) (s : State) : State × Bool :=
  let b := s.bram m
  match b.maint, b.scrub with
  | j :: _, _ => windowOp m a j s
  | [], some w => scrubOp m w a s
  | [], none => (s, false)

/-- The second cycle of a partial window write ends: done, or repeated when port A met it. -/
def endHalf (m : Nat) (s : State) : State :=
  let b := s.bram m
  match b.half, b.maint with
  | some (ok, again), j :: _ =>
    let s := modBram m (fun b => { b with half := none }) s
    if again then s else endWindowOp m j (0, ok) s
  | _, _ => modBram m (fun b => { b with half := none }) s

/-- `WAIT` of port B as the maintenance accesses have it for the cycle that begins. -/
def settleWaitB (m : Nat) (s : State) : State :=
  modBram m (fun b => { b with waitB := b.waitB || b.half.isSome || (b.keepB && b.waits) }) s

/-- A port B edge that goes to the maintenance accesses. -/
def maintEdge (m : Nat) (a : Beside) (s : State) : State × Bool :=
  let s := modBram m (fun b => { b with waitB := false, starve := 0 }) s
  let (s, undef) := if (s.bram m).half.isSome then (endHalf m s, false) else maintOp m a s
  (settleWaitB m s, undef)

/-! ### One port edge (R198, R199) -/

/-- Marks the partial write in flight, the last operation taken, as `BUSY`. -/
def markBusy (m : Nat) (isA : Bool) (s : State) : State :=
  let f := fun (l : List (Nat × Bool × PortOut)) => match l.reverse with
    | e :: rest => (rest.reverse) ++ [(e.1, e.2.1, { e.2.2 with busy := true })]
    | [] => []
  modBram m (fun b => if isA then { b with pipeA := f b.pipeA } else { b with pipeB := f b.pipeB }) s

/-- One edge of one port: a wait ends, or the results advance and the operation is taken. In fold mode `WAIT` is high on
every second cycle, whatever is presented (R199). -/
def portEdge (m : Nat) (isA : Bool) (c : BramCfg) (o : PortOp) (x : Clash) (took : Bool) (s : State) : State :=
  let b := s.bram m
  if (if isA then b.waitA else b.waitB) then
    modBram m (fun b => if isA then { b with waitA := false, rmwA := none } else { b with waitB := false, rmwB := none })
      (stallPort m isA c o s)
  else
    let s := advancePort m isA c o s
    onlyIf (foldPort s m isA) (raiseWait m isA) (if took then takeOp m isA c o x s else s)

/-- Port B edges at which the fabric presents an operation while a maintenance access waits; the access has the port after 64 in a
row (R203). -/
def countStarve (m : Nat) (o : PortOp) (s : State) : State :=
  modBram m (fun b =>
    let n := if o.en && b.waits then b.starve + 1 else 0
    { b with presents := o.en, starve := n, keepB := decide (64 ≤ n), waitB := b.waitB || decide (64 ≤ n) }) s

/-- Is this port B edge one for the maintenance accesses: they have the port, or the fabric presents nothing? -/
def Bram.maintains (b : Bram) (o : PortOp) : Bool :=
  b.half.isSome || (b.waits && (b.keepB || (!b.waitB && !o.en)))

/-- A port B edge. -/
def portEdgeB (m : Nat) (c : BramCfg) (o : PortOp) (x : Clash) (took : Bool) (a : Beside) (s : State) : State × Bool :=
  if (s.bram m).maintains o then
    let wait := (s.bram m).waitB
    let s := if wait then stallPort m false c o s else advancePort m false c o s
    let (s, undef) := maintEdge m a (modBram m (fun b => { b with presents := o.en }) s)
    (s, undef)
  else (countStarve m o (portEdge m false c o x took s), false)

/-- The edges of one cycle of a block memory's ports: port A's alone, port B's alone, or both in the same cycle. A port that the
plane does not connect (width 0) takes nothing. -/
def portOperation (m : Nat) (c : BramCfg) (a b : Option PortOp) (bFirst : Bool) (s : State) : State :=
  let mem := s.bram m
  let opA := a.filter (fun o => mem.takes true o && decide (0 < c.widthA))
  let opB := b.filter (fun o => mem.takes false o && !mem.maintains o && decide (0 < c.widthB))
  let beside : Beside := opA.map (fun o => ((c.place true o.addr).1, o.we))
  let (xa, xb) := match opA, opB with
    | some p, some q => clashOf c p q bFirst
    | _, _ => ({}, {})
  let (ra, markB) := match opA with | some p => clashRmw c true p mem.rmwB | none => ({}, false)
  let (rb, markA) := match opB with | some q => clashRmw c false q mem.rmwA | none => ({}, false)
  -- A read of the word of a partial window write in its second cycle: the window access is the later port, and is repeated.
  let half := match opA, mem.half, mem.maint with
    | some o, some _, j :: _ => !o.we && (j.ops.head?.any (fun x => x.2.1 == (c.place true o.addr).1))
    | _, _, _ => false
  let s := onlyIf half (modBram m (fun b => { b with half := b.half.map (fun h => (h.1, true)) })) s
  let (s, maint) := match b with
    | some o => if mem.maintains o then portEdgeB m c o {} false beside s else (s, false)
    | none => (s, false)
  let meets := half || maint
  let xa : Clash := { xa with undef := xa.undef || ra.undef || meets, busy := xa.busy || ra.busy || meets }
  let xb : Clash := { xb with undef := xb.undef || rb.undef, busy := xb.busy || rb.busy }
  let s := onlyIf markB (markBusy m false) (onlyIf markA (markBusy m true) s)
  let doA := fun (s : State) => match a with | some o => portEdge m true c o xa opA.isSome s | none => s
  let doB := fun (s : State) => match b with
    | some o => if mem.maintains o then s else (portEdgeB m c o xb opB.isSome none s).1
    | none => s
  let readsA := match opA with | some o => !o.we | none => false
  if bFirst && c.pclk && !(xa.undef || xb.undef) then doA (doB s)
  else if readsA then doB (doA s)
  else if xb.undef then doA (doB s) else doB (doA s)

/-- Port A has no edge while its clock changes over (R430). -/
def clockedA (s : State) (m : Nat) (a : Option PortOp) : Option PortOp :=
  if (s.clockSwitch (.bramA (Fin.ofNat 16384 m))).phase = .stopping then none else a

/-- What an edge brings to a port is what the fabric presents there (R91, R110); the command names it. -/
def presented (s : State) (m : Nat) (isA : Bool) (o : Option PortOp) : Bool := o.all (fun p => p == bramPins s m isA)

/-- BRAM_PORT_OPERATION (R197 to R206). Where the fabric's ports do not run, an edge of port B goes to what waits there. -/
def execBramPortOperation (mem : Fin 16384) (a b : Option PortOp) (bFirst : Bool) (s : State) : Out :=
  match runningCfg s mem.val with
  | some c => occurs (presented s mem.val true a && presented s mem.val false b) (portOperation mem.val c (clockedA s mem.val a) b bFirst) s
  | none => occurs (s.awake && b.isSome && ((s.bram mem.val).half.isSome || (s.bram mem.val).waits))
      (fun s => (maintEdge mem.val none s).1) s

/-- MAINTENANCE_STEAL (R203): the 65th edge goes to the maintenance access. -/
def execMaintenanceSteal (mem : Fin 16384) (s : State) : Out :=
  occurs ((runningCfg s mem.val).isSome && (s.bram mem.val).keepB && (s.bram mem.val).waits && (s.bram mem.val).half.isNone)
    (fun s => (maintEdge mem.val none s).1) s

end Sys2Proof.Machine
end

