-- ==== Sys2Proof/Machine/Sprue.lean ====
section
/-! DEFINITION. Meanings of the Sprue system commands and events (chapter 12). -/

namespace Sys2Proof.Machine

/-- The port rule of chapter 12: changes only from MB0 and MB1, QUERY forms from every port. -/
def mb01OrQuery (q : Req) : Bool := q.queryFlag || mb01 q

/-! ### NODE_SET (Table 12.9) -/

def nodeResults (s : State) : Results :=
  let y := s.sys
  [(16, 4, y.node), (20, 1, y.hop), (24, 4, y.txTimeout), (28, 1, y.policy), (29, 1, y.highWater), (30, 2, y.minIdle)]

def nodeArgsOk (q : Req) : Bool :=
  decide (q.arg 8 4 < noNode) && decide (1 ≤ q.argByte 12) && decide (10 ≤ q.arg 16 4) && decide (q.arg 16 4 ≤ 1000000)
    && decide (q.argByte 20 ≤ 2) && decide (50 ≤ q.argByte 21) && decide (q.argByte 21 ≤ 100) && decide (1 ≤ q.arg 22 2)
    && decide (q.arg 22 2 ≤ 2047)

/-- Sets the node and its policies; a changed ID is an event (R329). -/
def setNode (q : Req) (s : State) : State :=
  let old := s.sys.node
  let s := modSys (fun y => { y with
    node := q.arg 8 4, hop := q.argByte 12, txTimeout := q.arg 16 4, policy := q.argByte 20, highWater := q.argByte 21
    minIdle := q.arg 22 2 }) s
  onlyIf (old != s.sys.node) (raise (sysEvent 1 0x0C01 [(4, old), (4, s.sys.node)])) s

def nodeSetSpec : CmdSpec :=
  { opcode := 0x0610, query := true, portOk := mb01OrQuery, targetOk := devTarget
    body := fun q s =>
      if q.queryFlag then (s, .done stOk (nodeResults s))
      else if !nodeArgsOk q then (s, .done stBadArg [])
      else if decide (q.arg 8 4 ≠ s.sys.node) && s.links.any (fun l => decide (l.2.st ≠ .off)) then (s, .done stBusy [])
      else
        let s := setNode q s
        (s, .done stOk (nodeResults s)) }

/-- NODE_SET (R329). -/
def execNodeSet (p : Port) (sl : Fin 4) (s : State) : Out := runCmd nodeSetSpec p sl s

/-! ### WINDOW_SET (R330 to R332, Table 12.10) -/

/-- The local ranges of Table 2.7 that are open to the Sprue engine. -/
def sprueRanges : List (Nat × Nat) :=
  [(0, 0x1200000000), (0x2000000000, 0x2010000000), (0x2010000000, 0x2020000000), (0x2100000000, 0x2104000000),
   (0x2200000000, 0x2208000000), (0x2300000000, 0x2301000000)]

/-- The window that a request sets. -/
def reqWindow (q : Req) : Window :=
  { base := q.arg 16 8, pages := q.arg 24 4
    ranges := (List.range (min (q.argByte 28) 8)).map (fun i =>
      (q.arg (32 + 12 * i) 4, q.arg (36 + 12 * i) 4, BitVec.ofNat 3 (q.argByte (40 + 12 * i)))) }

def windowArgsOk (q : Req) (s : State) : Bool :=
  let w := reqWindow q
  let n := 4096 * w.pages
  decide (w.base % 4096 = 0) && decide (1 ≤ w.pages) && decide (w.pages ≤ 262144) && decide (q.argByte 28 ≤ 8)
    && sprueRanges.any (fun r => decide (r.1 ≤ w.base) && decide (w.base + n ≤ r.2)) && !overlapsRange s w.base n
    && (List.range (min (q.argByte 28) 8)).all (fun i => decide (q.arg (32 + 12 * i) 4 ≤ q.arg (36 + 12 * i) 4)
      && decide (q.arg (36 + 12 * i) 4 < 2 ^ 18) && decide (q.argByte (40 + 12 * i) < 8) && decide (q.arg (41 + 12 * i) 3 = 0))

/-- A window in the layout of the arguments. -/
def windowResults (w : Nat) (s : State) : Results :=
  let x := tget {} s.sys.windows w
  [(16, 1, w), (17, 1, bit (decide (x.pages ≠ 0))), (24, 8, x.base), (32, 4, x.pages), (36, 1, x.ranges.length)] ++
    x.ranges.zipIdx.flatMap (fun r => [(40 + 12 * r.2, 4, r.1.1), (44 + 12 * r.2, 4, r.1.2.1), (48 + 12 * r.2, 1, r.1.2.2.toNat)])

def windowSetSpec : CmdSpec :=
  { opcode := 0x0611, query := true, portOk := mb01OrQuery, targetOk := devTarget
    body := fun q s =>
      let w := q.argByte 8
      if 16 ≤ w then (s, .done stBadArg [])
      else if q.queryFlag then (s, .done stOk (windowResults w s))
      else if 2 ≤ q.argByte 9 || (decide (q.argByte 9 = 1) && !windowArgsOk q s) then (s, .done stBadArg [])
      else (modSys (fun y => { y with
        windows := tset {} y.windows w (if q.argByte 9 = 1 then reqWindow q else {})
        recompute := y.recompute ++ [(q.waiter, w)] }) s, .wait) }

/-- WINDOW_SET (R332). -/
def execWindowSet (p : Port) (sl : Fin 4) (s : State) : Out := runCmd windowSetSpec p sl s

/-- WINDOW_RIGHTS_RECOMPUTED (R332): every entry's `RIGHTS`, then the responses. -/
def execWindowRightsRecomputed (s : State) : Out :=
  occurs (!s.sys.recompute.isEmpty) (fun s =>
    let todo := s.sys.recompute
    let s := checkLines (modSys (fun y => { y with recompute := [] }) s)
    let s := forEach (s.sys.partners.map (·.1)) (fun k s =>
      modPartner k (fun p => { p with rights := rightsField s p.node }) s) s
    forEach todo (fun t s => reply t.1 stOk (windowResults t.2 s) s) s) s

/-! ### PROFILE_SET (Tables 12.6, 12.11) -/

def profileResults (n : Nat) (s : State) : Results :=
  let p := s.profile n
  [(16, 1, p.limit), (17, 1, p.maxLines), (18, 1, p.opMask.toNat), (20, 2, p.keepalive), (22, 1, p.rank)] ++
    (List.range 15).map (fun i => (24 + i, 1, lget 0 s.sys.rateMap i))

def profileArgsOk (q : Req) : Bool :=
  decide (1 ≤ q.argByte 8) && decide (1 ≤ q.argByte 9) && decide (q.argByte 9 ≤ 64) && decide (q.argByte 10 < 64)
    && decide (1 ≤ q.arg 12 2) && decide (q.arg 12 2 ≤ 2047) && decide (q.argByte 14 ≤ 7)
    && (List.range 15).all (fun i => decide (q.argByte (16 + i) < 16) || decide (q.argByte (16 + i) = 0xFF))

def setProfile (q : Req) (s : State) : State :=
  let p : GenProfile := { limit := q.argByte 8, maxLines := q.argByte 9, opMask := BitVec.ofNat 6 (q.argByte 10),
                          keepalive := q.arg 12 2, rank := q.argByte 14 }
  modSys (fun y => { y with
    profiles := tset {} y.profiles q.target p
    rateMap := (List.range 15).map (fun i =>
      if q.argByte (16 + i) = 0xFF then lget 0 y.rateMap i else q.argByte (16 + i)) }) s

def profileSetSpec : CmdSpec :=
  { opcode := 0x0612, query := true, portOk := mb01OrQuery, targetOk := below 16
    body := fun q s =>
      if q.queryFlag then (s, .done stOk (profileResults q.target s))
      else if !profileArgsOk q then (s, .done stBadArg [])
      else
        let s := setProfile q s
        (s, .done stOk (profileResults q.target s)) }

/-- PROFILE_SET (R342). -/
def execProfileSet (p : Port) (sl : Fin 4) (s : State) : Out := runCmd profileSetSpec p sl s

/-! ### PARTNER_QUERY, PARTNER_SET (Tables 12.12, 12.13) -/

/-- The counters of `PARTNER_QUERY`. -/
def partnerCounts (s : State) : Results :=
  [(16, 4, s.sys.partners.length), (20, 4, s.sys.partners.countP (fun e => decide ((Partner.ofBits e.2).state = 2)))] ++
    (List.range 5).map (fun i => (24 + 4 * i, 4, lget 0 s.sys.counters i))

/-- A listing: 13 entries in use from a slot on, and the next slot. -/
def listPartners (s : State) (start : Nat) : Results :=
  let es := s.sys.partners.filter (fun e => decide (start ≤ e.1))
  let page := es.take 13
  let next := match es.drop 13 with
    | e :: _ => e.1
    | [] => 0xFFFFFFFF
  (44, 4, next) :: page.zipIdx.map (fun e => (48 + 16 * e.2, 16, e.1.2.toNat))

def partnerQuerySpec : CmdSpec :=
  { opcode := 0x0613, targetOk := devTarget
    body := fun q s =>
      let n := q.arg 12 4
      match q.argByte 8 with
      | 0 =>
        if noNode ≤ n then (s, .done stBadArg [])
        else
          let s := checkBuckets n s
          let e := match slotOf s n with
            | some k => (tget 0 s.sys.partners k).toNat
            | none => 0
          (s, .done stOk (partnerCounts s ++ [(44, 4, 0xFFFFFFFF), (48, 16, e)]))
      | 1 =>
        if 65536 ≤ n then (s, .done stBadArg [])
        else
          let s := checkLines s
          (s, .done stOk (partnerCounts s ++ listPartners s n))
      | _ => (s, .done stBadArg []) }

/-- PARTNER_QUERY (R339). -/
def execPartnerQuery (p : Port) (sl : Fin 4) (s : State) : Out := runCmd partnerQuerySpec p sl s

/-- The entry of a node as the response gives it. -/
def partnerResult (n : Nat) (s : State) : Results :=
  [(16, 16, match slotOf s n with | some k => (tget 0 s.sys.partners k).toNat | none => 0)]

/-- Adds a pinned entry; its `SRC` bit, which is for neither way of learning, is a free value. -/
def addPinned (n profile : Nat) (s : State) : State × Nat :=
  let p : Partner := { state := 2, node := n, rights := rightsField s n, profile := profile, seen := s.sys.ageCtr,
                       byContact := Config.freeBool s.env.freeCtr }
  match insertEntry p s.sys.partners with
  | some t => (useFree (putPartners t s), stOk)
  | none => (refusePartner n s, stNoRoom)

/-- The operations on an entry that exists. -/
def changePartner (op k : Nat) (q : Req) (s : State) : State × Nat :=
  match op with
  | 0 => (modPartner k (fun p => { p with state := 2 }) s, stOk)
  | 1 => (modPartner k (fun p => { p with state := 1 }) s, stOk)
  | 2 =>
    let p := s.partner k
    if p.outst ≠ 0 && !q.force then (s, stBusy)
    else (dropPartner k (resetTxns (fun t => decide (t.node = p.node)) s), stOk)
  | _ => (modPartner k (fun p => { p with profile := q.argByte 16 }) s, stOk)

def partnerSetSpec : CmdSpec :=
  { opcode := 0x0614, query := true, portOk := mb01OrQuery, targetOk := devTarget
    body := fun q s =>
      let op := q.argByte 8
      let n := q.arg 12 4
      if noNode ≤ n ∨ 3 < op ∨ ((op = 0 ∨ op = 3) ∧ 16 ≤ q.argByte 16) then (s, .done stBadArg [])
      else
        let s := checkBuckets n s
        if q.queryFlag then (s, .done stOk (partnerResult n s))
        else
          let (s, st) := match slotOf s n with
            | some k => changePartner op k q s
            | none => if op = 0 then addPinned n (q.argByte 16) s else (s, stBadArg)
          (s, .done st (if st = stOk then partnerResult n s else [])) }

/-- PARTNER_SET (R342). -/
def execPartnerSet (p : Port) (sl : Fin 4) (s : State) : Out := runCmd partnerSetSpec p sl s

/-! ### ROUTE_SET (R348, Table 12.14) -/

/-- The reserved bits and fields of an entry. -/
def routeEntryOk (e : BitVec 64) : Bool :=
  decide (e.extractLsb' 56 7 = 0) && decide (e.extractLsb' 18 21 = 0) && decide (routeLen e ≤ 18)
    && decide (routePrimary e < 48) && (decide (routeBackup e < 48) || decide (routeBackup e = 63))
    && decide (routePrefix e % 2 ^ (18 - routeLen e) = 0)

/-- No two valid entries have the same prefix and length. -/
def routesDistinct (t : Table (BitVec 64)) : Bool :=
  let keys := (t.filter (fun e => routeValid e.2)).map (fun e => (routePrefix e.2, routeLen e.2))
  decide (keys.eraseDups.length = keys.length)

/-- The table with the entries of a request written. -/
def writtenRoutes (q : Req) (t : Table (BitVec 64)) : Table (BitVec 64) :=
  (List.range (q.argByte 12)).foldl (fun t i => tset 0 t (q.arg 10 2 + i) (BitVec.ofNat 64 (q.arg (16 + 8 * i) 8))) t

def routeSetSpec : CmdSpec :=
  { opcode := 0x0615, query := true, portOk := fun q => q.argByte 8 == 1 || q.argByte 8 == 2 || mb01OrQuery q
    targetOk := devTarget
    body := fun q s =>
      let op := if q.queryFlag && decide (q.argByte 8 = 0) then 1 else q.argByte 8
      let i := q.arg 10 2
      let n := q.argByte 12
      if op = 2 then
        let d := q.arg 16 4
        if noNode ≤ d then (s, .done stBadArg [])
        else
          let (r, k) := routeTo s s.sys.node d
          (s, .done stOk [(16, 1, r.link?.getD 0xFF), (18, 2, k.getD 0xFFFF)])
      else if 2 < op ∨ n = 0 ∨ 28 < n ∨ 4096 < i + n then (s, .done stBadArg [])
      else if op = 1 then
        (s, .done stOk ((List.range n).map (fun k => (16 + 8 * k, 8, (tget 0 s.sys.routes (i + k)).toNat))))
      else
        let t := writtenRoutes q s.sys.routes
        if (List.range n).all (fun k => routeEntryOk (BitVec.ofNat 64 (q.arg (16 + 8 * k) 8))) && routesDistinct t then
          (modSys (fun y => { y with routes := t }) s, .done stOk [])
        else (s, .done stBadArg []) }

/-- ROUTE_SET (R348). -/
def execRouteSet (p : Port) (sl : Fin 4) (s : State) : Out := runCmd routeSetSpec p sl s

/-! ### TIME_CONFIG, TIME_STATUS (Tables 12.15, 12.16) -/

def TimeRole.code : TimeRole → Nat
  | .none => 0 | .member => 1 | .root => 2

def timeNodeResults (s : State) : Results := [(16, 1, s.sys.role.code), (20, 2, s.sys.interval)]
def timeLinkResults (l : Nat) (s : State) : Results :=
  [(16, 1, bit (s.link l).timeOn), (20, 4, ((s.link l).asym % 4294967296).toNat)]

def setTimeNode (q : Req) (s : State) : State :=
  modSys (fun y => { y with
    role := match q.argByte 8 with | 0 => .none | 1 => .member | _ => .root
    interval := q.arg 12 2
    parent := if q.argByte 8 = 1 then y.parent else none }) s

def timeConfigSpec : CmdSpec :=
  { opcode := 0x0616, query := true, portOk := mb01OrQuery, targetOk := belowOrDev 48
    owners := fun q _ => if q.target < 48 then [ownKey 2 q.target] else []
    body := fun q s =>
      let l := q.target
      if l = 0xFFFF then
        if q.queryFlag then (s, .done stOk (timeNodeResults s))
        else if 2 < q.argByte 8 ∨ q.arg 12 2 < 10 ∨ 10000 < q.arg 12 2 then (s, .done stBadArg [])
        else
          let s := setTimeNode q s
          (s, .done stOk (timeNodeResults s))
      else if q.queryFlag then (s, .done stOk (timeLinkResults l s))
      else if 1 < q.argByte 8 then (s, .done stBadArg [])
      else
        let s := modLink l (fun x => { x with timeOn := decide (q.argByte 8 = 1), asym := signed 32 (q.arg 12 4) }) s
        (s, .done stOk (timeLinkResults l s)) }

/-- TIME_CONFIG (R351). -/
def execTimeConfig (p : Port) (sl : Fin 4) (s : State) : Out := runCmd timeConfigSpec p sl s

def timeStatusSpec : CmdSpec :=
  { opcode := 0x0617, targetOk := devTarget
    body := fun _ s =>
      let y := s.sys
      (s, .done stOk [(16, 1, y.role.code), (17, 1, s.tick.align.toNat), (18, 1, y.parent.getD 0xFF), (19, 1, (advert s).2),
        (20, 4, (advert s).1), (24, 8, (y.lastE % 2 ^ 64).toNat), (32, 4, (y.trim % 2 ^ 32).toNat),
        (36, 4, (y.delay % 2 ^ 32).toNat), (40, 4, y.timeRx), (44, 4, s.tick.steps)]) }

/-- TIME_STATUS (R354). -/
def execTimeStatus (p : Port) (sl : Fin 4) (s : State) : Out := runCmd timeStatusSpec p sl s

/-- TIME_INTERVAL (R352). -/
def execTimeInterval (s : State) : Out :=
  occurs (s.awake && decide (s.sys.role ≠ .none)) (fun s =>
    forEach (s.links.map (·.1)) (fun l => modLink l (fun x =>
      { x with timeDue := x.timeDue || (decide (x.st = .up) && x.timeOn) })) s) s

/-! ### Transactions -/

/-- The write-data lines that an operation needs. -/
def linesOk (op : RunOp) (h : ReqHdr) (lines : List WLine) : Bool :=
  match op with
  | .read => lines.isEmpty
  | .write => decide (lines.length = lineCount h)
  | _ => decide (lines.length = 1)

/-- REMOTE_REQUEST (R334): accepted at once where R334 lets it be. -/
def execRemoteRequest (h : ReqHdr) (op : RemoteOp) (lines : List WLine) (s : State) : Out :=
  occurs (accepts s h (runOp op) && isRemote s h && linesOk (runOp op) h lines) (fun s =>
    let (s, ls) := withLines h (runOp op) lines s
    issueRemote h (runOp op) ls s) s

/-- A remote request that waits for acceptance. -/
def waitingRemote (s : State) (src : Source) (tag : Fin 64) : Option Outst :=
  (s.outst src tag).filter (fun o => decide (2 ^ 48 ≤ o.hdr.addr.toNat) && !o.accepted && o.resp.isNone)

/-- REMOTE_REQUEST_ACCEPTED (R334). -/
def execRemoteRequestAccepted (src : Source) (tag : Fin 64) (s : State) : Out :=
  match (waitingRemote s src tag).bind (fun o => tryAccept o s) with
  | some t => commit s t
  | none => .next s

/-- The oldest transaction message received is this one, from this link or from none. -/
def isOldest (l : Nat) (m : Message) (inbox : List (Nat × Message × Nat × Nat)) : Bool :=
  match inbox with
  | e :: _ => decide (e.2.1 = m) && (decide (e.1 = l) || decide (48 ≤ e.1))
  | [] => false

/-- TRANSACTION_REQUEST (R337): not while rights are recomputed (R332), and with a tag free at the Runner. -/
def execTransactionRequest (l : Fin 48) (m : Message) (s : State) : Out :=
  match freeTag s, s.sys.inReq with
  | some tag, e :: rest =>
    occurs (isOldest l.val m s.sys.inReq && s.sys.recompute.isEmpty) (fun s =>
      let s := freeBuf e.1 e.2.2.1 e.2.2.2 (modSys (fun y => { y with inReq := rest }) s)
      serveTxn e.1 m tag s) s
  | _, _ => .next s

/-- TRANSACTION_RESPONSE (R335). -/
def execTransactionResponse (l : Fin 48) (m : Message) (s : State) : Out :=
  match s.sys.inResp with
  | e :: rest =>
    occurs (isOldest l.val m s.sys.inResp) (fun s =>
      let s := freeBuf e.1 e.2.2.1 e.2.2.2 (modSys (fun y => { y with inResp := rest }) s)
      takeResponse m s) s
  | [] => .next s

/-- TRANSACTION_TIMEOUT (R335). -/
def execTransactionTimeout (node : Fin 262144) (sequence : BitVec 16) (s : State) : Out :=
  match s.sys.txns.find? (isTxn node.val sequence.toNat) with
  | some t => occurs true (fun s => failTxn t rcTimeout (bumpSys 3 1 s)) s
  | none => .next s

/-! ### Ageing and eviction -/

/-- One sweep of the table (R341, R343, R344): activity of the partners of UP links, and the idle entries that have aged out. -/
def sweepPartners (s : State) : State :=
  let ups := s.links.filterMap (fun l => if l.2.st = .up then some l.2.partner else none)
  let s := forEach ups touchPartner (checkLines s)
  forEach s.sys.partners (fun e s =>
    let p := s.partner e.1
    if idlePartner s p && decide ((s.profile p.profile).keepalive ≤ p.age s.sys.ageCtr) then bumpSys 2 1 (dropPartner e.1 s)
    else s) s

/-- AGEING_UNIT (R343, R344, R346). -/
def execAgeingUnit (s : State) : Out :=
  occurs s.awake (fun s =>
    let s := sweepPartners (modSys (fun y => { y with ageCtr := (y.ageCtr + 1) % 4096 }) s)
    onlyIf s.firmware (evictDown 65536) s) s

/-- PARTNER_EVICTION (R346): one idle entry from the refused node's buckets. -/
def execPartnerEviction (node : Fin 262144) (s : State) : Out :=
  occurs (s.firmware && s.sys.refused.contains node.val) (fun s =>
    let (h0, h1) := nodeBuckets node.val
    let s := modSys (fun y => { y with refused := y.refused.filter (· != node.val) }) s
    (evictOne ([0, 1, 2, 3].map (fun i => 4 * h0 + i) ++ [0, 1, 2, 3].map (fun i => 4 * h1 + i)) s).1) s

end Sys2Proof.Machine
end

