-- ==== Sys2Proof/Machine/Runner.lean ====
section
/-! DEFINITION. Meanings of the Runner's commands and events (chapter 2), of the region stop's power hand-shakes (R19 to
R21, R439 to R444), of accesses to queue windows (chapter 13) and to the device registers (R485, R419, R549). -/

namespace Sys2Proof.Machine

/-! ### Issue -/

/-- A request leaves for its target: another node, or a local one. -/
def issueAny (h : ReqHdr) (op : RunOp) (lines : List WLine) (s : State) : State :=
  if isRemote s h then issueRemote h op lines s else issueRequest h op lines s

/-- The request is accepted and well formed. -/
def mayTakeReq (s : State) (h : ReqHdr) (op : RunOp) (lines : List WLine) : Bool := accepts s h op && linesOk op h lines

/-- A WRITE leaves for its target. -/
def issueWrite (h : ReqHdr) (lines : List WLine) (s : State) : State :=
  let (s, ls) := withLines h .write lines s
  issueAny h .write ls s

/-- READ (R39). -/
def execRead (h : ReqHdr) (s : State) : Out :=
  occurs (mayTakeReq s h .read []) (fun s => spendLatch h (issueAny h .read [] s)) s

/-- WRITE (R39). -/
def execWrite (h : ReqHdr) (lines : List WLine) (s : State) : Out :=
  occurs (mayTakeReq s h .write lines) (issueWrite h lines) s

/-- ADD32 (R34). -/
def execAdd32 (h : ReqHdr) (operand : Line) (s : State) : Out :=
  occurs (accepts s h .add32) (issueAny h .add32 [(operand, BitVec.allOnes 64)]) s

/-- ADD64 (R34). -/
def execAdd64 (h : ReqHdr) (operand : Line) (s : State) : Out :=
  occurs (accepts s h .add64) (issueAny h .add64 [(operand, BitVec.allOnes 64)]) s

/-- SWAP32 (R34). -/
def execSwap32 (h : ReqHdr) (operand : Line) (s : State) : Out :=
  occurs (accepts s h .swap32) (issueAny h .swap32 [(operand, BitVec.allOnes 64)]) s

/-- SWAP64 (R34). -/
def execSwap64 (h : ReqHdr) (operand : Line) (s : State) : Out :=
  occurs (accepts s h .swap64) (issueAny h .swap64 [(operand, BitVec.allOnes 64)]) s

/-- RESERVED_RUNNER_OPERATION (R33): refused with `DECODE_ERR`, whatever its code. -/
def execReservedRunnerOperation (h : ReqHdr) (_op7 : Bool) (s : State) : Out :=
  occurs (accepts s h .write) (fun s => pushOutst (answerAll rcDecode (newOutst h .write [] s)) s) s

/-! ### Responses (R37, R41, R44) -/

/-- The response channel of a source. -/
def sourceKey : Source → Nat
  | .fabric r p => 8 * r.val + p.val
  | .dsp e => 1024 + e.val
  | .fillPort r => 4096 + r.val
  | .mb0 => 5000
  | src => 4200 + masterOf src

/-- The outstanding request whose response line comes next: the one that has the tag, or one that has timed out. The lines
of an engine's DMA are taken by DMA_DONE. -/
def answered (s : State) (src : Source) (tag : Fin 64) : Option Outst :=
  let late := s.runner.outst.find? (fun o => decide (o.hdr.src = src) && decide (o.hdr.tag = tag) && o.gone && o.resp.isSome)
  match src, s.outst src tag with
  | .dsp _, _ => late
  | _, some o => if o.resp.isSome then some o else late
  | _, none => late

/-- Removes an outstanding request, or leaves it the lines still to come. -/
def leaveLines (o : Outst) (rest : List RLine) (s : State) : State :=
  let keep := fun (l : List Outst) => if rest.isEmpty then l.filter (fun x => x.id != o.id)
    else l.map (fun x => if x.id = o.id then { o with resp := some rest, cls := classOf o.hdr } else x)
  modRunner (fun u => { u with outst := keep u.outst }) s

/-- Puts a line on the response channel of a requester, and counts it at its stop. -/
def putLine (h : ReqHdr) (l : RLine) (last : Bool) (s : State) : State :=
  let port : RsPort := { valid := true, tag := h.tag.val, code := l.code, data := l.data, last := last }
  let s := onlyIf (h.src == .host) (hostLine h.tag.val l.code l.data last) s
  countOutcome h l.code.toNat 1 (modRunner (fun u => { u with rs := tset {} u.rs (sourceKey h.src) port }) s)

/-- Hands a line to the requester. -/
def handLine (o : Outst) (l : RLine) (last : Bool) (s : State) : State :=
  match o.hdr.src with
  | .sprue =>
    match s.sys.serving.find? (fun v => decide (v.tag = o.hdr.tag)) with
    | none => s
    | some v =>
      let v := { v with got := v.got ++ [l] }
      let s := modSys (fun y => { y with serving := y.serving.map (fun w => if w.tag = v.tag then v else w) }) s
      if last then finishServing v s else s
  | _ => putLine o.hdr l last s

/-- One response line is transferred: delivered, or discarded at the stop of an isolated region, or discarded and counted
when its request has timed out. -/
def transferLine (o : Outst) (s : State) : State :=
  match o.resp with
  | some (l :: rest) =>
    let s := leaveLines o rest s
    if o.gone then
      match stopOf s o.hdr with
      | some r => bumpStop r 6 1 s
      | none => s
    else if o.discard then s
    else handLine o l rest.isEmpty s
  | _ => s

/-- May the next line of a request be transferred now? One that is discarded needs no port (R17, R41, R44). -/
def lineMoves (s : State) (o : Outst) : Bool := o.gone || o.discard || portTakes s o.hdr.src

/-- RUNNER_RESPONSE (R36, R37). -/
def execRunnerResponse (src : Source) (tag : Fin 64) (s : State) : Out :=
  let s := serveFirst src tag s
  match answered s src tag with
  | some o => occurs (lineMoves s o) (transferLine o) s
  | none => .next s

/-- The event Runner request timed out (Table 2.4). -/
def timeoutEvent (h : ReqHdr) : EvRec :=
  { cls := 4, sev := 3, code := 0x130F, kind := 8, src := masterOf h.src, details := [(1, masterOf h.src), (8, h.addr.toNat)] }

/-- What stays of a request that has timed out: the target may still perform it, and its response will be discarded. A
remote one has not been accepted, and is withdrawn. Whether a request that is held will still be performed is open. -/
def leaveGone (o : Outst) (s : State) : State :=
  let withdrawn := decide (2 ^ 48 ≤ o.hdr.addr.toNat) || (o.resp.isNone && Config.freeBool s.env.freeCtr)
  useFree (if withdrawn then leaveLines o [] s else mapOutst (fun x => if x.id = o.id then { x with gone := true } else x) s)

/-- `TIMEOUT` on every line still owed, handed over at once. -/
def handTimeouts (o : Outst) (s : State) : State :=
  (List.range (linesOwed o)).foldl (fun s i => handLine o ⟨BitVec.ofNat 3 rcTimeout, 0⟩ (decide (i + 1 = linesOwed o)) s) s

/-- `TIMEOUT` on every line still owed, as the port takes the lines: an engine's wait for DMA_DONE, a fabric port's for its
port (R38, R91). -/
def owedTimeout (o : Outst) (s : State) : State :=
  match o.hdr.src with
  | .dsp _ => pushOutst (endRest rcTimeout (newOutst o.hdr o.op o.wlines s)) s
  | .fabric _ _ =>
    if portTakes s o.hdr.src then handTimeouts o s else pushOutst { endRest rcTimeout o with id := s.runner.issued + 1 } s
  | _ => handTimeouts o s

/-- The attachment point completes a request with `TIMEOUT` (R41); the lines of one whose port is isolated or in reset are
discarded at the stop (R17, R44). -/
def timeOutRequest (o : Outst) (s : State) : State :=
  let s := leaveGone o (raise (timeoutEvent o.hdr) s)
  if o.discard then s else owedTimeout o s

/-- RUNNER_TIMEOUT (R41, R42): not of a remote request that the Sprue engine has accepted. -/
def execRunnerTimeout (src : Source) (tag : Fin 64) (s : State) : Out :=
  match s.outst src tag with
  | some o => occurs (!o.accepted) (timeOutRequest o) s
  | none => .next s

/-- ROUTER_WAIT_PROMOTION (R48). -/
def execRouterWaitPromotion (src : Source) (tag : Fin 64) (s : State) : Out :=
  occurs ((s.outst src tag).isSome) (mapOutst (fun o => if sameReq src tag o then { o with cls := 3 } else o)) s

/-- HBM_QUEUE_AGED (R50). -/
def execHbmQueueAged (src : Source) (tag : Fin 64) (s : State) : Out :=
  let inHbm := match s.outst src tag with
    | some o => (match decodeAddr o.hdr.addr.toNat with | .hbm _ => true | _ => false)
    | none => false
  occurs inHbm (mapOutst (fun o => if sameReq src tag o then { o with aged := true } else o)) s

/-! ### RUNNER_COUNTERS (Table 2.9) -/

def runnerCountersSpec : CmdSpec :=
  { opcode := 0x0080, targetOk := below 64
    body := fun q s =>
      let r := q.target
      let cs := tget [0, 0, 0, 0, 0, 0, 0, 0] s.runner.counters r
      let res := (List.range 8).map (fun i => (16 + 4 * i, 4, lget 0 cs i))
      if 2 ≤ q.argByte 8 then (s, .done stBadArg [])
      else if q.argByte 8 = 0 then (s, .done stOk res)
      else
        let (s, st) := claimOne q (ownKey 0 r) s
        (onlyIf (st == stOk) (modRunner (fun u =>
          { u with counters := tset [0, 0, 0, 0, 0, 0, 0, 0] u.counters r [0, 0, 0, 0, 0, 0, 0, 0] })) s, .done st res) }

/-- RUNNER_COUNTERS (R56). -/
def execRunnerCounters (p : Port) (sl : Fin 4) (s : State) : Out := runCmd runnerCountersSpec p sl s

/-! ### Power hand-shakes (R19 to R21, R439 to R444) -/

/-- A quiesce is in progress. -/
def isQuiescing (s : State) (r : Nat) : Bool :=
  match (s.region r).trans with
  | some (.quiescing _) => true
  | _ => false

/-- QUIESCE_ACK (R19): no transfer outstanding at the stop, and the Drag part acknowledges. -/
def execQuiesceAck (r : Fin 64) (s : State) : Out :=
  occurs (isQuiescing s r.val && decide (outstandingAt r.val s = 0)) (quiesceEnds r.val) s

/-- QUIESCE_TIMEOUT (R19): two ticks after the request. -/
def execQuiesceTimeout (r : Fin 64) (s : State) : Out :=
  occurs (isQuiescing s r.val) (fun s =>
    quiesceEnds r.val (raise (regEvent 0x0D 2 0x130E r.val [(2, outstandingAt r.val s)]) s)) s

/-- SHELF_SAVE_COMPLETE (R20, R441). -/
def execShelfSaveComplete (r : Fin 64) (s : State) : Out :=
  occurs (decide ((s.region r.val).trans = some .saving)) (fun s =>
    let s := saveShelf r.val s
    shieldRequests r.val (modRegion r.val (fun x => { x with trans := some (.entering .shelved), shieldClosed := true }) s)) s

/-- POWER_ENTRY_COMPLETE (R21, R439): the held arrivals meet the new state, and a waiting reset begins the exit (R68). -/
def execPowerEntryComplete (r : Fin 64) (s : State) : Out :=
  match (s.region r.val).trans with
  | some (.entering dest) =>
    occurs (dest.deep || drained r.val s) (fun s =>
      let s := retryHeld r.val (enterState r.val dest s)
      let s := onlyIf (resetWaits s r.val && (s.region r.val).trans.isNone) (startExit r.val none) s
      settleDeferred r.val s) s
  | _ => .next s

/-- POWER_EXIT_COMPLETE (R157, R158, R442): with the checker that failed its vectors, if one did (R414). A reset that waits
begins now, also in a region whose exit failed and which fell to COLD: the manual says only that the region is then ACTIVE
(R68; DESIGN CHOICE, notes/assumptions/35.md). -/
def execPowerExitComplete (r : Fin 64) (checker : Option (Fin 4)) (s : State) : Out :=
  match (s.region r.val).trans with
  | some (.exiting left) =>
    occurs true (fun s =>
      let s := retryHeld r.val (exitDone r.val left checker s)
      let s := onlyIf (resetWaits s r.val) (modRegion r.val (fun x => { x with
        after := x.after.map (fun d => { d with power := .active }) })) s
      let s := takeAfter r.val s
      let s := onlyIf (resetWaits s r.val && (s.region r.val).trans.isNone) (beginReset r.val) s
      settleDeferred r.val s) s
  | _ => .next s

/-! ### Queue windows (R361 to R372) -/

/-- A burst lies in one area of a queue window. -/
def inQueueArea (h : ReqHdr) (op : RunOp) (a : Area) : Bool :=
  match decodeAddr h.addr.toNat with
  | .riser _ off => decide (areaOf op (off / 64 * 64) (lineCount h) = some a)
  | _ => false

/-- PUSH (R364). -/
def execPush (h : ReqHdr) (lines : List WLine) (s : State) : Out :=
  occurs (mayTakeReq s h .write lines && inQueueArea h .write .push) (issueWrite h lines) s

/-- PUSH_EOP (R364). -/
def execPushEop (h : ReqHdr) (lines : List WLine) (s : State) : Out :=
  occurs (mayTakeReq s h .write lines && inQueueArea h .write .pushEop) (issueWrite h lines) s

/-- ABORT (R364). -/
def execAbort (h : ReqHdr) (lines : List WLine) (s : State) : Out :=
  occurs (mayTakeReq s h .write lines && inQueueArea h .write .abort) (issueWrite h lines) s

/-- POP (R370). -/
def execPop (h : ReqHdr) (s : State) : Out :=
  occurs (mayTakeReq s h .read [] && inQueueArea h .read .pop) (issueRequest h .read []) s

/-- POP_STATUS (R371). -/
def execPopStatus (h : ReqHdr) (s : State) : Out :=
  occurs (mayTakeReq s h .read [] && inQueueArea h .read .popStatus) (issueRequest h .read []) s

/-! ### Device registers (R485, R419, R549) -/

/-- Every line of a burst lies in register lines of a kind. -/
def inRegLines (h : ReqHdr) (p : RegLine → Bool) : Bool :=
  (List.range (lineCount h)).all (fun i => match decodeAddr (lineAddr h i) with
    | .regs off => p (regLine off)
    | _ => false)

/-- EV_POP (R485). -/
def execEvPop (h : ReqHdr) (s : State) : Out :=
  occurs (mayTakeReq s h .read [] && inRegLines h (fun l => decide (l = .pop))) (issueRequest h .read []) s

/-- A WRITE to the device registers. -/
def issueLocal (h : ReqHdr) (lines : List WLine) (s : State) : State :=
  let (s, ls) := withLines h .write lines s
  issueRequest h .write ls s

/-- CRC_DATA (R419). -/
def execCrcData (h : ReqHdr) (line : WLine) (s : State) : Out :=
  occurs (mayTakeReq s h .write [line] && inRegLines h (fun l => match l with | .crcData _ => true | _ => false))
    (issueLocal h [line]) s

/-- CRC_CTRL (R419). -/
def execCrcCtrl (h : ReqHdr) (line : WLine) (s : State) : Out :=
  occurs (mayTakeReq s h .write [line] && line.2.getLsbD 0
      && inRegLines h (fun l => match l with | .crcCtrl _ => true | _ => false)) (issueLocal h [line]) s

/-- CRC_VALUE (R419). -/
def execCrcValue (h : ReqHdr) (line : WLine) (s : State) : Out :=
  occurs (mayTakeReq s h .write [line] && decide (line.2.extractLsb' 8 4 ≠ 0)
      && inRegLines h (fun l => match l with | .crcCtrl _ => true | _ => false)) (issueLocal h [line]) s

/-- TICK_NUMBER_LOW_READ (R139): a READ of the register line for the low word alone. -/
def execTickNumberLowRead (h : ReqHdr) (s : State) : Out :=
  occurs (mayTakeReq s h .read [] && inRegLines h (fun l => decide (l = .state)) && decide (h.addr.toNat % 64 = 8))
    (fun s => onlyIf (decide (rightTo s h.src false h.addr.toNat = .granted)) latchTick (issueRequest h .read [] s)) s

/-- REGISTER_WRITE (R549). -/
def execRegisterWrite (h : ReqHdr) (lines : List WLine) (s : State) : Out :=
  occurs (mayTakeReq s h .write lines && inRegLines h (fun _ => true)) (issueLocal h lines) s

end Sys2Proof.Machine
end

