-- ==== Sys2Proof/Machine/SelfTest.lean ====
section
/-! DEFINITION. Meanings of bus transfers, sweeps, slices and the commands of self-test and bonds (R10, R11, chapter
18). -/

namespace Sys2Proof.Machine

/-- Even parity over a transfer's 32 signals and its parity bond (R10). -/
def evenParity (v : BitVec 33) : Bool := !parityOf v.toNat (List.range 33)

/-- Response lines that a fabric Runner port still waits for. -/
def portLines (r p : Nat) (s : State) : List Outst :=
  s.runner.outst.filter (fun o => (match o.hdr.src with | .fabric n q => n.val == r && q.val == p | _ => false)
    && o.resp.isSome && !o.gone && !o.discard)

/-- A response line of a Runner port ends with a bus error of integrity cause (R11, Table 2.4). Which of the port's
requests the transfer was of is open. -/
def spoilLine (r p : Nat) (s : State) : State :=
  let l := portLines r p s
  match l[freshNat s % l.length]? with
  | some o => useFree (mapOutst (fun x => if x.id = o.id then
      { x with resp := x.resp.map (fun ls => ⟨BitVec.ofNat 3 rcIntegrity, 0⟩ :: ls.drop 1) } else x) s)
  | none => s

/-- The operation of a block memory port ends with a bus error of integrity cause (R11): its `UERR` is high, and it delivers
no data (notes/assumptions/154.md). -/
def spoilPort (m : Nat) (isA : Bool) (s : State) : State :=
  let bad := fun (o : PortOut) => { o with dout := 0, uerr := true }
  modBram m (fun b => if isA then { b with outA := bad b.outA } else { b with outB := bad b.outB }) s

/-- A stream item of an engine ends with a bus error of integrity cause (R11): it is lost, the oldest one of an output stream
on an up bundle or the youngest one of an input stream on a down bundle; which stream the transfer was of is open
(notes/assumptions/154.md). -/
def spoilItem (id n : Nat) (s : State) : State :=
  let one := Config.freeBool s.env.freeCtr
  useFree (modEngine id (fun e => match decide (n < 5), one with
    | true, false => { e with in0 := e.in0.dropLast } | true, true => { e with in1 := e.in1.dropLast }
    | false, false => { e with out0 := e.out0.drop 1 } | false, true => { e with out1 := e.out1.drop 1 }) s)

/-- A repeat shows on the `WAIT` of the block memory or engine port for one cycle (R112, R199). -/
def waitPort (b : BusBundle) (s : State) : State :=
  let r := b.region.val
  match b.bundle with
  | .bramPort m n => raiseWait (256 * r + m.val) (bundleOfA n.val) s
  | .dspPort j _ => modEngine (32 * r + j.val) (fun e => { e with portWait := true }) s
  | _ => s

/-- A fill in progress meets a bus error of integrity cause on its path (R11); whether the transfer was one of the fill's is
open. -/
def spoilFill (r : Nat) (s : State) : State :=
  let mine := Config.freeBool s.env.freeCtr
  useFree (modRegion r (fun x => { x with fill := x.fill.map (fun f => { f with spoiled := f.spoiled || mine }) }) s)

/-- A transfer whose repeat failed too (R11). -/
def failTransfer (b : BusBundle) (s : State) : State :=
  let r := b.region.val
  match b.bundle with
  | .runnerPort p _ _ => spoilLine r p.val s
  | .bramPort m n => spoilPort (256 * r + m.val) (bundleOfA n.val) s
  | .dspPort j n => spoilItem (32 * r + j.val) n.val s
  | .feedThrough _ _ => spoilFill r s
  | .fabric _ _ _ | .pclk _ => s

/-- A transfer whose first cycle failed parity (R11): the repeat decides, and the bundle waits for a sweep. The bundle
has no code in the event: a free value. -/
def repeatTransfer (b : BusBundle) (second : BitVec 33) (s : State) : State :=
  let r := b.region.val
  let s := onlyIf (!evenParity second) (failTransfer b) (waitPort b s)
  let s := modBonds (fun x => { x with repeats := tmod 0 x.repeats r (fun n => satAdd 4294967295 n 1) }) s
  let s := forEach (bundleFaces b.bundle) (fun f => modBond r f (fun x => { x with queued := true })) s
  useFree (raise (bondEvent 0x130D (if evenParity second then 1 else 3) r [(1, r), (2, freshNat s)]) s)

/-- A region's bus bundles carry transfers while its Drag part is powered: the feed-through buffers from ACTIVE to DAMPED (R16),
and the ports that the fabric clocks while that clock runs. -/
def busPowered (s : State) (b : BusBundle) : Bool :=
  match b.bundle with
  | .feedThrough _ _ => !(s.region b.region.val).power.deep
  | _ => fabricClocked s b.region.val

/-- BUS_TRANSFER (R10, R11): a transfer with even parity changes nothing. -/
def execBusTransfer (b : BusBundle) (first second : BitVec 33) (s : State) : Out :=
  occurs (s.awake && isBus b.bundle && busPowered s b && !evenParity first) (repeatTransfer b second) s

/-! ### Sweeps -/

/-- May a bundle be swept now: a bus bundle in its idle cycles, a fabric bundle in the setup of a slice of its block
(Table 18.3)? -/
def maySweep (s : State) (b : BusBundle) : Bool :=
  decide (s.dev.base = .running) && match b.bundle with
    | .fabric lx ly _ =>
      match (s.region b.region.val).slice with
      | some j => j.running && inSlice j.slice (lx.val, ly.val)
      | none => false
    | _ => !(s.region b.region.val).power.deep

/-- A bundle's sweep in service. Which sweep is the last of its region's bundles depends on how many it has, which the
manual does not give: free. -/
def sweepBundle (b : BusBundle) (findings : List BondFinding) (s : State) : State :=
  let s := forEach (findings.filter (fun f => f.region == b.region && f.bundle == b.bundle)) (takeFinding 2) s
  let s := onlyIf (s.bond b.region.val b.bundle).queued (modBond b.region.val b.bundle (fun x => { x with queued := false })) s
  useFree (onlyIf (Config.freeBool s.env.freeCtr) (noteSweep b.region.val) s)

/-- BUS_SWEEP (R473). -/
def execBusSweep (b : BusBundle) (findings : List BondFinding) (s : State) : Out :=
  occurs (maySweep s b) (sweepBundle b findings) s

/-! ### Slices -/

/-- SLICE_END (R470). -/
def execSliceEnd (r : Fin 64) (failing : List (Nat × Nat)) (terminal : Bool) (s : State) : Out :=
  match (s.region r.val).slice with
  | some j => occurs (s.awake && j.running) (endSlice r.val j failing terminal) s
  | none => .next s

/-- SLICE_REPEAT (R471). -/
def execSliceRepeat (r : Fin 64) (failing : List (Nat × Nat)) (terminal : Bool) (s : State) : Out :=
  match (s.test r.val).repeatDue with
  | some (slice, pattern) =>
    occurs (s.firmware && decide ((s.region r.val).power = .active)) (repeatSlice r.val slice pattern failing terminal) s
  | none => .next s

/-- One slice of the full self-test is recorded and reported as in service (R478). -/
def takeOutcome (o : SliceOutcome) (s : State) : State :=
  let r := o.region.val
  let bad := o.failing.filter (inSlice o.slice.val)
  let result := if bad.isEmpty then 1 else 2
  let s := modTest r (fun t => { t with
    results := lput 0 t.results o.slice.val result
    passes := if result = 1 then satAdd 4294967295 t.passes 1 else t.passes
    fails := if result = 2 then satAdd 4294967295 t.fails 1 else t.fails }) s
  onlyIf (result == 2) (raise (selfTestEvent 2 3 r ([(1, o.slice.val), (1, o.pattern.val)] ++ blockDetails bad))) s

/-- The full self-test of TEST mode ends (R478). The event names the failing regions by a mask. -/
def completeTest (results : List SliceOutcome) (findings : List BondFinding) (s : State) : State :=
  let s := forEach results takeOutcome (forEach findings (takeFinding 1) s)
  let s := forBelow 64 noteSweep (modBonds (fun b => { b with fullTest := false }) s)
  let bad := ((results.filter (fun o => o.failing.any (inSlice o.slice.val))).map (fun o => o.region.val)).eraseDups
  raise { cls := 0x0E, sev := if bad.isEmpty then 1 else 3, code := 0x1204, kind := 0, details := [(8, planeMask bad)] } s

/-- TEST_COMPLETE (R478). -/
def execTestComplete (results : List SliceOutcome) (findings : List BondFinding) (s : State) : Out :=
  occurs (s.awake && decide (s.dev.base = .test) && s.bonds.fullTest) (completeTest results findings) s

/-! ### Commands -/

/-- The results of `SELFTEST_CONFIG` (Table 18.4). -/
def selftestResults (s : State) : Results :=
  let b := s.bonds
  [(16, 1, bit b.enabled), (18, 2, b.interval), (20, 2, b.sweepPeriod)]
    ++ (List.range 8).map (fun k => (24 + 2 * k, 2, tget 65535 b.patterns k))

/-- `SELFTEST_CONFIG` (Table 18.4): an enable loads the patterns that no entry holds; a disable frees their entries. -/
def selftestConfigSpec : CmdSpec where
  opcode := 0x0C00
  query := true
  portOk := fun q => q.queryFlag || mb01 q
  targetOk := devTarget
  body := fun q s =>
    let on := q.argByte 8
    let iv := q.arg 10 2
    let sw := q.arg 12 2
    if q.queryFlag then (s, .done stOk (selftestResults s))
    else if 2 ≤ on ∨ iv = 0 ∨ sw = 0 ∨ 3600 < sw then (s, .done stBadArg [])
    else if on = 1 ∧ (emptyEntries s).length < (missingPatterns s).length then (s, .done stNoRoom [])
    else
      let s := modBonds (fun b => { b with enabled := on == 1, interval := iv, sweepPeriod := sw }) s
      let s := if on = 1 then loadPatterns s else dropPatterns s
      (s, .done stOk (selftestResults s))
def execSelftestConfig (p : Port) (sl : Fin 4) (s : State) : Out := runCmd selftestConfigSpec p sl s

/-- `SELFTEST_RUN` (Table 18.5). -/
def selftestRunSpec : CmdSpec where
  opcode := 0x0C01
  targetOk := below 64
  owners := ownRegion
  body := fun q s =>
    let r := q.target
    let reg := s.region r
    let t := s.test r
    let slice := if q.argByte 8 = 0xFF then t.next else q.argByte 8
    let pat := if q.argByte 9 = 0xFF then t.pattern else q.argByte 9
    if 8 ≤ slice ∨ 4 ≤ pat then (s, .done stBadArg [])
    else if reg.slice.isSome ∨ reg.fill.isSome then (s, .done stBusy [])
    else if (testPlane s r pat).isNone = true ∧ (freeTestPlane s r).isNone = true then (s, .done stInvalidPlane [])
    else if reg.power ≠ .active then (s, .done stRegionAsleep [])
    else if reg.retired then (s, .done stDenied [])
    else
      let s := modRegion r (fun x => { x with slice := some { slice := slice, pattern := pat, waiter := some q.waiter } }) s
      (runIsolated r (fillForTest r s), .wait)
def execSelftestRun (p : Port) (sl : Fin 4) (s : State) : Out := runCmd selftestRunSpec p sl s

/-- The results of `SELFTEST_STATUS` (Table 18.6). -/
def selftestStatusResults (r : Nat) (s : State) : Results :=
  let t := s.test r
  [(16, 1, eligibility s r), (17, 1, t.pattern), (18, 1, t.next)]
    ++ (List.range 8).map (fun k => (19 + k, 1, lget 0 t.results k))
    ++ [(28, 8, t.rotationTick.toNat), (36, 4, t.passes), (40, 4, t.fails), (44, 4, t.incompletes), (48, 4, t.excluded)]

/-- `SELFTEST_STATUS` (Table 18.6). -/
def selftestStatusSpec : CmdSpec where
  opcode := 0x0C02
  targetOk := below 64
  body := fun q s =>
    let r := q.target
    let res := selftestStatusResults r s
    if 2 ≤ q.argByte 8 then (s, .done stBadArg [])
    else if q.argByte 8 = 0 then (s, .done stOk res)
    else
      let (s, st) := claimOne q (ownKey 0 r) s
      (onlyIf (st == stOk) (modTest r (fun t => { t with passes := 0, fails := 0, incompletes := 0, excluded := 0 })) s,
        .done st res)
def execSelftestStatus (p : Port) (sl : Fin 4) (s : State) : Out := runCmd selftestStatusSpec p sl s

/-- The results of `BOND_STATUS` (Table 18.7). -/
def bondResults (r : Nat) (s : State) : Results :=
  let l := s.bonds.bonds.filter (fun e => e.1 == r)
  let cnt := fun (p : BondBundle × BondSt → Bool) => (l.filter (fun e => p e.2)).map (fun e => bundleFaces e.2.1) |>.eraseDups.length
  [(16, 4, cnt (fun e => e.2.steered.length == 1)), (20, 4, cnt (fun e => e.2.steered.length == 2)),
   (24, 4, l.foldl (fun n e => n + e.2.2.weak.length) 0),
   (28, 4, l.foldl (fun n e => n + if isBus e.2.1 then 0 else e.2.2.dead.length) 0),
   (32, 4, cnt (fun e => e.2.fold)), (36, 4, cnt (fun e => e.2.failed)), (40, 4, tget 0 s.bonds.repeats r),
   (44, 8, (tget 0 s.bonds.sweepTick r).toNat)]

/-- `BOND_STATUS` (Table 18.7). -/
def bondStatusSpec : CmdSpec where
  opcode := 0x0C10
  targetOk := below 64
  body := fun q s => (s, .done stOk (bondResults q.target s))
def execBondStatus (p : Port) (sl : Fin 4) (s : State) : Out := runCmd bondStatusSpec p sl s

end Sys2Proof.Machine
end

