-- ==== Sys2Proof/Machine/Thermal.lean ====
section
/-! DEFINITION. Meanings of the thermal and ageing commands (chapter 17). -/

namespace Sys2Proof.Machine

/-- SENSOR_SAMPLE (R445): in every mode except OFF and STANDBY. -/
def execSensorSample (raw : List Int) (s : State) : Out :=
  occurs (decide (s.dev.base ≠ .off) && decide (s.dev.base ≠ .standby)) (sampleSensors raw) s

/-- GOVERNOR_ESTIMATE (R453): a region not listed had no activity. -/
def execGovernorEstimate (activity : List Activity) (s : State) : Out :=
  occurs s.awake (forBelow 64 (fun r s =>
    let p := activity.foldl (fun (n : Nat × Nat) a => if a.region.val = r then
      let e := energyOf s a; (n.1 + e.1, n.2 + e.2) else n) (0, 0)
    modGovern r (fun g => g.estimate p) s)) s

/-- GOVERNOR_EVALUATE (R454). -/
def execGovernorEvaluate (s : State) : Out := occurs s.awake (forBelow 64 evaluateRegion) s

/-- One measurement of every region (R455); at the 64th the guard band goes (R459). -/
def recordMeasurement (ratios : List (Fin 64 × List Nat)) (s : State) : State :=
  let slack := fun r => (List.range 8).map (fun k => tget none s.therm.minSlack (8 * r + k))
  let s := modTherm (fun t => { t with
    measures := ratios.foldl (fun u x => tset {} u x.1.val { ratios := x.2, slacks := slack x.1.val }) t.measures
    measureCount := satAdd 65535 t.measureCount 1, minSlack := [] }) s
  if s.therm.guardBand && decide (64 ≤ s.therm.measureCount) then
    let s := modTherm (fun t => { t with guardBand := false }) s
    rePlan (raise { cls := 7, sev := 1, code := 0x1108, kind := 0, details := [(2, s.therm.measureCount)] } s)
  else s

/-- AGEING_MEASUREMENT (R455): periodic work of Cupola. -/
def execAgeingMeasurement (ratios : List (Fin 64 × List Nat)) (s : State) : Out :=
  occurs s.firmware (recordMeasurement ratios) s

/-- PLAN_UPDATE (R457). -/
def execPlanUpdate (s : State) : Out := occurs s.firmware rePlan s

/-- The settings of the device in the layout of the arguments (Table 17.7). -/
def thermSettings (s : State) : Results :=
  let t := s.therm
  [(16, 1, t.warnAt), (17, 1, t.throttleAt), (18, 2, t.ec)] ++
    (List.range 4).map (fun i => (20 + 2 * i, 2, lget 0 t.ed i)) ++ [(28, 2, t.em)]

/-- A region's budget in that layout. -/
def budgetSetting (r : Nat) (s : State) : Results := [(16, 2, (s.govern r).budget.getD 0xFFFF)]

/-- A new energy; 0 keeps the present one. -/
def keepZero (old new : Nat) : Nat := if new = 0 then old else new

/-- Device settings (R449, R453). -/
def setDeviceTherm (q : Req) (s : State) : State × Answer :=
  let w := q.argByte 8
  let h := q.argByte 9
  if w < 60 ∨ 115 < w ∨ h < 70 ∨ 120 < h ∨ h < w + 10 then (s, .done stBadArg [])
  else
    let s := modTherm (fun t => { t with
      warnAt := w, throttleAt := h, ec := keepZero t.ec (q.arg 10 2)
      ed := (List.range 4).map (fun i => keepZero (lget 0 t.ed i) (q.arg (12 + 2 * i) 2))
      em := keepZero t.em (q.arg 20 2) }) s
    (s, .done stOk (thermSettings s))

/-- A region's budget (R454). -/
def setBudget (q : Req) (s : State) : State × Answer :=
  let b := q.arg 8 2
  if b ≠ 0xFFFF ∧ (b < 5 ∨ 100 < b) then (s, .done stBadArg [])
  else
    let s := modGovern q.target (fun g => { g with budget := if b = 0xFFFF then none else some b }) s
    (s, .done stOk (budgetSetting q.target s))

/-- `THERM_CONFIG` (Table 17.7). -/
def thermConfigSpec : CmdSpec where
  opcode := 0x0B00
  query := true
  portOk := fun q => q.queryFlag || q.target != 0xFFFF || mb01 q
  targetOk := belowOrDev 64
  owners := fun q _ => if q.target = 0xFFFF then [] else [ownKey 0 q.target]
  body := fun q s =>
    if q.queryFlag then (s, .done stOk (if q.target = 0xFFFF then thermSettings s else budgetSetting q.target s))
    else if q.target = 0xFFFF then setDeviceTherm q s else setBudget q s
def execThermConfig (p : Port) (sl : Fin 4) (s : State) : Out := runCmd thermConfigSpec p sl s

/-- Three bytes of one sensor (Table 17.8). -/
def sensorField (t : ThermSt) (i : Nat) : Nat :=
  (t.effective i % 4096).toNat + bit (t.sensor i).broken * 2 ^ 12
    + (if (t.sensor i).broken then (t.sensor i).cause else 0) * 2 ^ 14

/-- `THERM_READ` (Table 17.8). -/
def thermReadSpec : CmdSpec where
  opcode := 0x0B01
  targetOk := devTarget
  body := fun q s =>
    let a := q.argByte 8
    let n := q.argByte 9
    if 144 ≤ a ∨ n = 0 ∨ 72 < n ∨ 144 < a + n then (s, .done stBadArg [])
    else (s, .done stOk ((16, 4, thermState s) ::
      (List.range n).map (fun i => (20 + 3 * i, 3, sensorField s.therm (a + i)))))
def execThermRead (p : Port) (sl : Fin 4) (s : State) : Out := runCmd thermReadSpec p sl s

/-- `THERM_SENSOR` (Table 17.9): a re-admitted sensor is valid and is cross-checked afresh. -/
def thermSensorSpec : CmdSpec where
  opcode := 0x0B02
  portOk := mb01
  targetOk := below 144
  body := fun q s =>
    if q.argByte 8 ≠ 1 ∨ (s.therm.sensor q.target).broken = false then (s, .done stBadArg [])
    else
      let s := sensorEvent q.target 1 s
      (modTherm (fun t => { t with sensors := tmod {} t.sensors q.target (fun x => { raw := x.raw }) }) s,
        .done stOk [(16, 1, 0)])
def execThermSensor (p : Port) (sl : Fin 4) (s : State) : Out := runCmd thermSensorSpec p sl s

/-- The results of `AGEING_PLAN` (Table 17.10). -/
def planResults (s : State) : Results :=
  [(16, 2, s.clk.copePlan), (18, 2, s.therm.measureCount), (20, 1, bit s.guardDue + 2 * bit s.dev.firstBoot)]
    ++ (List.range 64).map (fun r => (24 + r, 1, s.kPlan r))
    ++ (List.range 16).map (fun i =>
        let x := s.domain (i / 4)
        (88 + 2 * i, 2, if lget false x.withdrawn (i % 4) then 0 else mvOf (lget 0 x.plan (i % 4)) s.env.freeCtr))
    ++ [(120, 8, s.therm.floorOut.foldl (fun n r => n + 2 ^ r) 0)]

/-- `AGEING_PLAN` (Table 17.10). RESET frees the regions of R458 from their cause of isolation at the next slot
boundary. -/
def ageingPlanSpec : CmdSpec where
  opcode := 0x0B10
  portOk := fun q => q.argByte 8 == 0 || mb01 q
  targetOk := devTarget
  body := fun q s => match q.argByte 8 with
    | 0 => (s, .done stOk (planResults s))
    | 1 => let s := rePlan s; (s, .done stOk (planResults s))
    | 2 =>
      let s := forEach s.therm.floorOut (fun r => modRegion r (fun x => { x with freeDue := x.freeDue ++ [.floor] })) s
      let s := rePlan (modTherm (fun t => { t with floorOut := [] }) s)
      (s, .done stOk (planResults s))
    | _ => (s, .done stBadArg [])
def execAgeingPlan (p : Port) (sl : Fin 4) (s : State) : Out := runCmd ageingPlanSpec p sl s

end Sys2Proof.Machine
end

