-- ==== Sys2Proof/Machine/Dispatch.lean ====
section
/-! DEFINITION. One arm per command: what `exec` answers is what the command's meaning answers. -/

namespace Sys2Proof.Machine

/-- The effect of a command on everything but the queue of waiting commands. -/
def exec (i : Instr) (s : State) : Host.Outcome State Fault Refusal :=
  match i with
  | .aonPowerUp => Sys2Proof.Machine.execAonPowerUp s
  | .powerOff => Sys2Proof.Machine.execPowerOff s
  | .porstAssert => Sys2Proof.Machine.execPorstAssert s
  | .porstRelease straps => Sys2Proof.Machine.execPorstRelease straps s
  | .wrstLowDetected => Sys2Proof.Machine.execWrstLowDetected s
  | .warmResetBegin => Sys2Proof.Machine.execWarmResetBegin s
  | .crystalWaitEnd => Sys2Proof.Machine.execCrystalWaitEnd s
  | .monitorWindow count => Sys2Proof.Machine.execMonitorWindow count s
  | .rootPllLock => Sys2Proof.Machine.execRootPllLock s
  | .clockSwitchAck sw => Sys2Proof.Machine.execClockSwitchAck sw s
  | .clockSwitchCheck sw dead => Sys2Proof.Machine.execClockSwitchCheck sw dead s
  | .firmwareAuthenticated => Sys2Proof.Machine.execFirmwareAuthenticated s
  | .hbmZeroFillComplete => Sys2Proof.Machine.execHbmZeroFillComplete s
  | .bootBondSweepComplete findings checkers => Sys2Proof.Machine.execBootBondSweepComplete findings checkers s
  | .bootLoadComplete => Sys2Proof.Machine.execBootLoadComplete s
  | .releaseIsolationOpen => Sys2Proof.Machine.execReleaseIsolationOpen s
  | .releaseOutputEnable => Sys2Proof.Machine.execReleaseOutputEnable s
  | .cooldownEnd => Sys2Proof.Machine.execCooldownEnd s
  | .busTransfer b first second => Sys2Proof.Machine.execBusTransfer b first second s
  | .quiesceAck r => Sys2Proof.Machine.execQuiesceAck r s
  | .quiesceTimeout r => Sys2Proof.Machine.execQuiesceTimeout r s
  | .shelfSaveComplete r => Sys2Proof.Machine.execShelfSaveComplete r s
  | .powerEntryComplete r => Sys2Proof.Machine.execPowerEntryComplete r s
  | .powerExitComplete r checker => Sys2Proof.Machine.execPowerExitComplete r checker s
  | .read h => Sys2Proof.Machine.execRead h s
  | .write h lines => Sys2Proof.Machine.execWrite h lines s
  | .add32 h operand => Sys2Proof.Machine.execAdd32 h operand s
  | .add64 h operand => Sys2Proof.Machine.execAdd64 h operand s
  | .swap32 h operand => Sys2Proof.Machine.execSwap32 h operand s
  | .swap64 h operand => Sys2Proof.Machine.execSwap64 h operand s
  | .runnerResponse src tag => Sys2Proof.Machine.execRunnerResponse src tag s
  | .runnerTimeout src tag => Sys2Proof.Machine.execRunnerTimeout src tag s
  | .routerWaitPromotion src tag => Sys2Proof.Machine.execRouterWaitPromotion src tag s
  | .hbmQueueAged src tag => Sys2Proof.Machine.execHbmQueueAged src tag s
  | .runnerCounters p sl => Sys2Proof.Machine.execRunnerCounters p sl s
  | .deviceMode p sl => Sys2Proof.Machine.execDeviceMode p sl s
  | .warmReset p sl => Sys2Proof.Machine.execWarmReset p sl s
  | .regionReset p sl => Sys2Proof.Machine.execRegionReset p sl s
  | .regionResetEnd r => Sys2Proof.Machine.execRegionResetEnd r s
  | .tickBoundary => Sys2Proof.Machine.execTickBoundary s
  | .slotBoundary k => Sys2Proof.Machine.execSlotBoundary k s
  | .delayedSwitch r => Sys2Proof.Machine.execDelayedSwitch r s
  | .graceExpiry r => Sys2Proof.Machine.execGraceExpiry r s
  | .tickInEdge pos => Sys2Proof.Machine.execTickInEdge pos s
  | .tickHoldover => Sys2Proof.Machine.execTickHoldover s
  | .tickConfig p sl => Sys2Proof.Machine.execTickConfig p sl s
  | .scheduleSet p sl => Sys2Proof.Machine.execScheduleSet p sl s
  | .planeFill p sl => Sys2Proof.Machine.execPlaneFill p sl s
  | .planeFillComplete r => Sys2Proof.Machine.execPlaneFillComplete r s
  | .planeOverride p sl => Sys2Proof.Machine.execPlaneOverride p sl s
  | .planeStatus p sl => Sys2Proof.Machine.execPlaneStatus p sl s
  | .spineContention r spine => Sys2Proof.Machine.execSpineContention r spine s
  | .regionIsolate p sl => Sys2Proof.Machine.execRegionIsolate p sl s
  | .spineEnable p sl => Sys2Proof.Machine.execSpineEnable p sl s
  | .defectMapRead p sl => Sys2Proof.Machine.execDefectMapRead p sl s
  | .libLoad p sl => Sys2Proof.Machine.execLibLoad p sl s
  | .imageProcessingEnd => Sys2Proof.Machine.execImageProcessingEnd s
  | .libRemove p sl => Sys2Proof.Machine.execLibRemove p sl s
  | .libQuery p sl => Sys2Proof.Machine.execLibQuery p sl s
  | .loadActive p sl => Sys2Proof.Machine.execLoadActive p sl s
  | .loadActiveComplete r => Sys2Proof.Machine.execLoadActiveComplete r s
  | .flashDirRead p sl => Sys2Proof.Machine.execFlashDirRead p sl s
  | .bramPortOperation mem a b bFirst => Sys2Proof.Machine.execBramPortOperation mem a b bFirst s
  | .maintenanceSteal mem => Sys2Proof.Machine.execMaintenanceSteal mem s
  | .ingotConflicts p sl => Sys2Proof.Machine.execIngotConflicts p sl s
  | .ingotBanks p sl => Sys2Proof.Machine.execIngotBanks p sl s
  | .bramClear p sl => Sys2Proof.Machine.execBramClear p sl s
  | .bramClearComplete r => Sys2Proof.Machine.execBramClearComplete r s
  | .bundle e => Sys2Proof.Machine.execBundle e s
  | .b e => Sys2Proof.Machine.execB e s
  | .call e => Sys2Proof.Machine.execCall e s
  | .ret e => Sys2Proof.Machine.execRet e s
  | .beqz e => Sys2Proof.Machine.execBeqz e s
  | .bnez e => Sys2Proof.Machine.execBnez e s
  | .bltz e => Sys2Proof.Machine.execBltz e s
  | .bgez e => Sys2Proof.Machine.execBgez e s
  | .bdec e => Sys2Proof.Machine.execBdec e s
  | .limm e => Sys2Proof.Machine.execLimm e s
  | .loop e => Sys2Proof.Machine.execLoop e s
  | .nop e => Sys2Proof.Machine.execNop e s
  | .halt e => Sys2Proof.Machine.execHalt e s
  | .waiti e => Sys2Proof.Machine.execWaiti e s
  | .reti e => Sys2Proof.Machine.execReti e s
  | .ei e => Sys2Proof.Machine.execEi e s
  | .di e => Sys2Proof.Machine.execDi e s
  | .sig e => Sys2Proof.Machine.execSig e s
  | .interruptEntry e => Sys2Proof.Machine.execInterruptEntry e s
  | .waitiResume e => Sys2Proof.Machine.execWaitiResume e s
  | .timerExpiry e => Sys2Proof.Machine.execTimerExpiry e s
  | .dmaDone e => Sys2Proof.Machine.execDmaDone e s
  | .doorbell e => Sys2Proof.Machine.execDoorbell e s
  | .start e => Sys2Proof.Machine.execStart e s
  | .streamInputItem e k item => Sys2Proof.Machine.execStreamInputItem e k item s
  | .streamOutputItem e k => Sys2Proof.Machine.execStreamOutputItem e k s
  | .dspStart p sl => Sys2Proof.Machine.execDspStart p sl s
  | .dspHalt p sl => Sys2Proof.Machine.execDspHalt p sl s
  | .dspStatus p sl => Sys2Proof.Machine.execDspStatus p sl s
  | .dspDomain p sl => Sys2Proof.Machine.execDspDomain p sl s
  | .avsAck rail => Sys2Proof.Machine.execAvsAck rail s
  | .avsNoAck rail => Sys2Proof.Machine.execAvsNoAck rail s
  | .avsSettleEnd d => Sys2Proof.Machine.execAvsSettleEnd d s
  | .domainPllRelock d => Sys2Proof.Machine.execDomainPllRelock d s
  | .laneConfig p sl => Sys2Proof.Machine.execLaneConfig p sl s
  | .laneStatus p sl => Sys2Proof.Machine.execLaneStatus p sl s
  | .laneReset p sl => Sys2Proof.Machine.execLaneReset p sl s
  | .laneSlip p sl => Sys2Proof.Machine.execLaneSlip p sl s
  | .laneEyescan p sl => Sys2Proof.Machine.execLaneEyescan p sl s
  | .eyescanComplete lane counts => Sys2Proof.Machine.execEyescanComplete lane counts s
  | .lanePrbs p sl => Sys2Proof.Machine.execLanePrbs p sl s
  | .laneInject p sl => Sys2Proof.Machine.execLaneInject p sl s
  | .injectError lane => Sys2Proof.Machine.execInjectError lane s
  | .laneLoopback p sl => Sys2Proof.Machine.execLaneLoopback p sl s
  | .lanePllLocked g pll => Sys2Proof.Machine.execLanePllLocked g pll s
  | .lanePllLockLost g pll => Sys2Proof.Machine.execLanePllLockLost g pll s
  | .cdrLocked lane => Sys2Proof.Machine.execCdrLocked lane s
  | .trainingFrame lane control status => Sys2Proof.Machine.execTrainingFrame lane control status s
  | .trainingDone lane => Sys2Proof.Machine.execTrainingDone lane s
  | .trainingTimeout lane => Sys2Proof.Machine.execTrainingTimeout lane s
  | .laneLockAcquired lane => Sys2Proof.Machine.execLaneLockAcquired lane s
  | .laneLockLost lane => Sys2Proof.Machine.execLaneLockLost lane s
  | .laneSignalLost lane => Sys2Proof.Machine.execLaneSignalLost lane s
  | .laneReceiveUnit lane n upper lower => Sys2Proof.Machine.execLaneReceiveUnit lane n upper lower s
  | .laneFlushTimeout lane => Sys2Proof.Machine.execLaneFlushTimeout lane s
  | .laneTransmitItem lane => Sys2Proof.Machine.execLaneTransmitItem lane s
  | .ageingEyescan lane width height plan => Sys2Proof.Machine.execAgeingEyescan lane width height plan s
  | .linkConfig p sl => Sys2Proof.Machine.execLinkConfig p sl s
  | .linkStatus p sl => Sys2Proof.Machine.execLinkStatus p sl s
  | .linkReset p sl => Sys2Proof.Machine.execLinkReset p sl s
  | .linkLoopback p sl => Sys2Proof.Machine.execLinkLoopback p sl s
  | .sprueQueue p sl => Sys2Proof.Machine.execSprueQueue p sl s
  | .flitOpportunity l => Sys2Proof.Machine.execFlitOpportunity l s
  | .data l lane f => Sys2Proof.Machine.execData l lane f s
  | .linkctl l lane f => Sys2Proof.Machine.execLinkctl l lane f s
  | .nak l lane f => Sys2Proof.Machine.execNak l lane f s
  | .hello l lane f => Sys2Proof.Machine.execHello l lane f s
  | .time l lane f => Sys2Proof.Machine.execTime l lane f s
  | .loopFlit l lane f => Sys2Proof.Machine.execLoopFlit l lane f s
  | .down l lane f => Sys2Proof.Machine.execDown l lane f s
  | .gapSkewTimeout l => Sys2Proof.Machine.execGapSkewTimeout l s
  | .nakReplayTimeout l => Sys2Proof.Machine.execNakReplayTimeout l s
  | .replayTimeout l => Sys2Proof.Machine.execReplayTimeout l s
  | .linkTimeout l => Sys2Proof.Machine.execLinkTimeout l s
  | .linkBackoffEnd l => Sys2Proof.Machine.execLinkBackoffEnd l s
  | .linkUpStable l => Sys2Proof.Machine.execLinkUpStable l s
  | .linkFormationTimeout l => Sys2Proof.Machine.execLinkFormationTimeout l s
  | .startingDegradeTimeout l => Sys2Proof.Machine.execStartingDegradeTimeout l s
  | .helloInterval l => Sys2Proof.Machine.execHelloInterval l s
  | .sendMessage q => Sys2Proof.Machine.execSendMessage q s
  | .messageCreditTimeout l vc => Sys2Proof.Machine.execMessageCreditTimeout l vc s
  | .nodeSet p sl => Sys2Proof.Machine.execNodeSet p sl s
  | .windowSet p sl => Sys2Proof.Machine.execWindowSet p sl s
  | .windowRightsRecomputed => Sys2Proof.Machine.execWindowRightsRecomputed s
  | .profileSet p sl => Sys2Proof.Machine.execProfileSet p sl s
  | .partnerQuery p sl => Sys2Proof.Machine.execPartnerQuery p sl s
  | .partnerSet p sl => Sys2Proof.Machine.execPartnerSet p sl s
  | .routeSet p sl => Sys2Proof.Machine.execRouteSet p sl s
  | .timeConfig p sl => Sys2Proof.Machine.execTimeConfig p sl s
  | .timeStatus p sl => Sys2Proof.Machine.execTimeStatus p sl s
  | .remoteRequest h op lines => Sys2Proof.Machine.execRemoteRequest h op lines s
  | .remoteRequestAccepted src tag => Sys2Proof.Machine.execRemoteRequestAccepted src tag s
  | .transactionRequest l m => Sys2Proof.Machine.execTransactionRequest l m s
  | .transactionResponse l m => Sys2Proof.Machine.execTransactionResponse l m s
  | .transactionTimeout node sequence => Sys2Proof.Machine.execTransactionTimeout node sequence s
  | .ageingUnit => Sys2Proof.Machine.execAgeingUnit s
  | .partnerEviction node => Sys2Proof.Machine.execPartnerEviction node s
  | .timeInterval => Sys2Proof.Machine.execTimeInterval s
  | .push h lines => Sys2Proof.Machine.execPush h lines s
  | .pushEop h lines => Sys2Proof.Machine.execPushEop h lines s
  | .abort h lines => Sys2Proof.Machine.execAbort h lines s
  | .pop h => Sys2Proof.Machine.execPop h s
  | .popStatus h => Sys2Proof.Machine.execPopStatus h s
  | .spillReadbackComplete q bad => Sys2Proof.Machine.execSpillReadbackComplete q bad s
  | .riserSpill p sl => Sys2Proof.Machine.execRiserSpill p sl s
  | .riserConfig p sl => Sys2Proof.Machine.execRiserConfig p sl s
  | .riserStatus p sl => Sys2Proof.Machine.execRiserStatus p sl s
  | .riserReset p sl => Sys2Proof.Machine.execRiserReset p sl s
  | .protRange p sl => Sys2Proof.Machine.execProtRange p sl s
  | .protZeroFillComplete range => Sys2Proof.Machine.execProtZeroFillComplete range s
  | .protStatus p sl => Sys2Proof.Machine.execProtStatus p sl s
  | .protRekey p sl => Sys2Proof.Machine.execProtRekey p sl s
  | .rekeyInterval => Sys2Proof.Machine.execRekeyInterval s
  | .rekeyComplete => Sys2Proof.Machine.execRekeyComplete s
  | .protReinit p sl => Sys2Proof.Machine.execProtReinit p sl s
  | .protReinitComplete range => Sys2Proof.Machine.execProtReinitComplete range s
  | .fettlerWordRead t => Sys2Proof.Machine.execFettlerWordRead t s
  | .fettlerHeartbeat => Sys2Proof.Machine.execFettlerHeartbeat s
  | .fettlerWatch => Sys2Proof.Machine.execFettlerWatch s
  | .trackerInterval t => Sys2Proof.Machine.execTrackerInterval t s
  | .fettlerConfig p sl => Sys2Proof.Machine.execFettlerConfig p sl s
  | .fettlerPass p sl => Sys2Proof.Machine.execFettlerPass p sl s
  | .fettlerPassComplete r => Sys2Proof.Machine.execFettlerPassComplete r s
  | .integrityCounters p sl => Sys2Proof.Machine.execIntegrityCounters p sl s
  | .hardFaultLog p sl => Sys2Proof.Machine.execHardFaultLog p sl s
  | .faultRetire p sl => Sys2Proof.Machine.execFaultRetire p sl s
  | .hbmRepairComplete => Sys2Proof.Machine.execHbmRepairComplete s
  | .splitWrite p sl => Sys2Proof.Machine.execSplitWrite p sl s
  | .crcBind p sl => Sys2Proof.Machine.execCrcBind p sl s
  | .crcFeed r unit size value => Sys2Proof.Machine.execCrcFeed r unit size value s
  | .crcLoad r unit value => Sys2Proof.Machine.execCrcLoad r unit value s
  | .crcSelect r unit value => Sys2Proof.Machine.execCrcSelect r unit value s
  | .crcData h line => Sys2Proof.Machine.execCrcData h line s
  | .crcCtrl h line => Sys2Proof.Machine.execCrcCtrl h line s
  | .crcValue h line => Sys2Proof.Machine.execCrcValue h line s
  | .replicaRead slacks => Sys2Proof.Machine.execReplicaRead slacks s
  | .fabricClockChange r => Sys2Proof.Machine.execFabricClockChange r s
  | .clockStatus p sl => Sys2Proof.Machine.execClockStatus p sl s
  | .regionClock p sl => Sys2Proof.Machine.execRegionClock p sl s
  | .regionPower p sl => Sys2Proof.Machine.execRegionPower p sl s
  | .sensorSample raw => Sys2Proof.Machine.execSensorSample raw s
  | .governorEstimate activity => Sys2Proof.Machine.execGovernorEstimate activity s
  | .governorEvaluate => Sys2Proof.Machine.execGovernorEvaluate s
  | .ageingMeasurement ratios => Sys2Proof.Machine.execAgeingMeasurement ratios s
  | .planUpdate => Sys2Proof.Machine.execPlanUpdate s
  | .thermConfig p sl => Sys2Proof.Machine.execThermConfig p sl s
  | .thermRead p sl => Sys2Proof.Machine.execThermRead p sl s
  | .thermSensor p sl => Sys2Proof.Machine.execThermSensor p sl s
  | .ageingPlan p sl => Sys2Proof.Machine.execAgeingPlan p sl s
  | .sliceEnd r failing terminal => Sys2Proof.Machine.execSliceEnd r failing terminal s
  | .sliceRepeat r failing terminal => Sys2Proof.Machine.execSliceRepeat r failing terminal s
  | .busSweep b findings => Sys2Proof.Machine.execBusSweep b findings s
  | .testComplete results findings => Sys2Proof.Machine.execTestComplete results findings s
  | .selftestConfig p sl => Sys2Proof.Machine.execSelftestConfig p sl s
  | .selftestRun p sl => Sys2Proof.Machine.execSelftestRun p sl s
  | .selftestStatus p sl => Sys2Proof.Machine.execSelftestStatus p sl s
  | .bondStatus p sl => Sys2Proof.Machine.execBondStatus p sl s
  | .machineCheck cause pc => Sys2Proof.Machine.execMachineCheck cause pc s
  | .watchdogExpiry => Sys2Proof.Machine.execWatchdogExpiry s
  | .cupolaRestartComplete => Sys2Proof.Machine.execCupolaRestartComplete s
  | .cupolaRestartLimit => Sys2Proof.Machine.execCupolaRestartLimit s
  | .ring p sl => Sys2Proof.Machine.execRing p sl s
  | .ack p sl => Sys2Proof.Machine.execAck p sl s
  | .mailboxRequestLine r sl n line wring => Sys2Proof.Machine.execMailboxRequestLine r sl n line wring s
  | .mailboxResponseLine r => Sys2Proof.Machine.execMailboxResponseLine r s
  | .mailboxEventRecord r => Sys2Proof.Machine.execMailboxEventRecord r s
  | .evPop h => Sys2Proof.Machine.execEvPop h s
  | .eventWindowClose code kind source => Sys2Proof.Machine.execEventWindowClose code kind source s
  | .leaseExpiry kind index => Sys2Proof.Machine.execLeaseExpiry kind index s
  | .debugLeaseExpiry => Sys2Proof.Machine.execDebugLeaseExpiry s
  | .nonceExpiry => Sys2Proof.Machine.execNonceExpiry s
  | .unlockLockoutEnd => Sys2Proof.Machine.execUnlockLockoutEnd s
  | .resClaim p sl => Sys2Proof.Machine.execResClaim p sl s
  | .mb2Bind p sl => Sys2Proof.Machine.execMb2Bind p sl s
  | .cupolaRestart p sl => Sys2Proof.Machine.execCupolaRestart p sl s
  | .fwStage p sl => Sys2Proof.Machine.execFwStage p sl s
  | .flashAccess p sl => Sys2Proof.Machine.execFlashAccess p sl s
  | .debugUnlock p sl => Sys2Proof.Machine.execDebugUnlock p sl s
  | .debugStateRead p sl => Sys2Proof.Machine.execDebugStateRead p sl s
  | .eventConfig p sl => Sys2Proof.Machine.execEventConfig p sl s
  | .eventLogRead p sl => Sys2Proof.Machine.execEventLogRead p sl s
  | .tickNumberLowRead h => Sys2Proof.Machine.execTickNumberLowRead h s
  | .registerWrite h lines => Sys2Proof.Machine.execRegisterWrite h lines s
  | .gpioBank p sl => Sys2Proof.Machine.execGpioBank p sl s
  | .gpioIo p sl => Sys2Proof.Machine.execGpioIo p sl s
  | .delayLineStep io => Sys2Proof.Machine.execDelayLineStep io s
  | .mgmtConfig p sl => Sys2Proof.Machine.execMgmtConfig p sl s
  | .hostStatus p sl => Sys2Proof.Machine.execHostStatus p sl s
  | .hostRequest bar2 offset rd bytes count => Sys2Proof.Machine.execHostRequest bar2 offset rd bytes count s
  | .pcieReset kind => Sys2Proof.Machine.execPcieReset kind s
  | .peRstAssert => Sys2Proof.Machine.execPeRstAssert s
  | .mgmtWrite bytes pec => Sys2Proof.Machine.execMgmtWrite bytes pec s
  | .mgmtRead offset count => Sys2Proof.Machine.execMgmtRead offset count s
  | .mbacc dr => Sys2Proof.Machine.execMbacc dr s
  | .extest boundary => Sys2Proof.Machine.execExtest boundary s
  | .samplePreload boundary => Sys2Proof.Machine.execSamplePreload boundary s
  | .idcode => Sys2Proof.Machine.execIdcode s
  | .extestPulse boundary => Sys2Proof.Machine.execExtestPulse boundary s
  | .extestTrain boundary => Sys2Proof.Machine.execExtestTrain boundary s
  | .bypass => Sys2Proof.Machine.execBypass s
  | .fabricClockEdge r x => Sys2Proof.Machine.execFabricClockEdge r x s
  | .flitDiscarded l lane why f => Sys2Proof.Machine.execFlitDiscarded l lane why f s
  | .prbsCheckerLock lane => Sys2Proof.Machine.execPrbsCheckerLock lane s
  | .prbsCheckerLockLost lane => Sys2Proof.Machine.execPrbsCheckerLockLost lane s
  | .pcieLinkUp rate width => Sys2Proof.Machine.execPcieLinkUp rate width s
  | .peRstRelease => Sys2Proof.Machine.execPeRstRelease s
  | .trstAssert => Sys2Proof.Machine.execTrstAssert s
  | .programOrEraseEnd failed => Sys2Proof.Machine.execProgramOrEraseEnd failed s
  | .dynamicAddressAssignment a => Sys2Proof.Machine.execDynamicAddressAssignment a s
  | .pciePowerStateChange d3hot => Sys2Proof.Machine.execPciePowerStateChange d3hot s
  | .unallocatedOpcode p sl => Sys2Proof.Machine.execUnallocatedOpcode p sl s
  | .reservedRunnerOperation h op7 => Sys2Proof.Machine.execReservedRunnerOperation h op7 s
  | .reservedBranchOrSystemOp e => Sys2Proof.Machine.execReservedBranchOrSystemOp e s

end Sys2Proof.Machine
end

