-- ==== Sys2Proof/Safety.lean ====
section
/-! DEFINITION. The words that claims use: that a command completes, that a request is granted and answered, and the
invariant that every step keeps. -/

namespace Sys2Proof.Machine

/-- The command answers a next state, and the state is one of which `P` holds. -/
def Gives (i : Instr) (s : State) (P : State → Prop) : Prop := ∃ t, exec i s = .next t ∧ P t

/-- Whatever state the command answers, what `π` shows of it is as it was. -/
def Leaves {β : Type} (i : Instr) (s : State) (π : State → β) : Prop := ∀ t, exec i s = .next t → π t = π s

/-- The request in slot `sl` of port `p` is POSTED and next to be taken (R484, R493), and asks for the command. -/
def Asks (s : State) (p : Port) (sl : Fin 4) (opcode : Nat) : Prop :=
  canTake s p sl = true ∧ (s.req p sl).opcode = opcode

/-- The request as it is served: the one in the slot, under the serial number of its acceptance. -/
def takenReq (s : State) (p : Port) (sl : Fin 4) : Req := (acceptSlot p sl s).req p sl

/-- The request asks for the command and, once taken, passes steps 1 to 5 of R491: its flags and length, the mode, the
port, the target and, unless it is a QUERY, the ownership, where what has no owner is claimed (R495). -/
def Granted (c : CmdSpec) (s : State) (p : Port) (sl : Fin 4) : Prop :=
  Asks s p sl c.opcode ∧ earlyRefusal c (takenReq s p sl) (acceptSlot p sl s) = none ∧
    (isQuery c (takenReq s p sl) = true ∨
      (c.owners (takenReq s p sl) (acceptSlot p sl s)).all (fun k =>
        decide (ownView (s.req p sl) k s = .free) || decide (ownView (s.req p sl) k s = .mine)) = true)

/-- The state in which a granted request's own part runs: what has no owner claimed (R495). -/
def takenState (c : CmdSpec) (s : State) (p : Port) (sl : Fin 4) : State :=
  if isQuery c (takenReq s p sl) then acceptSlot p sl s
  else (claimAll (takenReq s p sl) (c.owners (takenReq s p sl) (acceptSlot p sl s)) (acceptSlot p sl s)).2

/-- The slot is DONE and holds the response with a status and results, at the tick of `s` (R489, Table 19.7). -/
def Answered (s t : State) (p : Port) (sl : Fin 4) (status : Nat) (res : Results) : Prop :=
  (t.slot p sl).st = .done ∧
    (t.slot p sl).resp = mkResponse (s.req p sl).tag (s.req p sl).flags status s.tick.number.toNat res

/-- The request has been taken and waits for its answer (R484). -/
def Waits (t : State) (p : Port) (sl : Fin 4) : Prop := (t.slot p sl).st = .accepted

/-- The acceptance that a waiting work item names still stands in its slot (R484). -/
def Stands (s : State) (w : Waiter) : Prop :=
  (s.slot w.1 w.2.1).st = .accepted ∧ (s.slot w.1 w.2.1).serial = w.2.2

/-- What a power-on reset leaves (R66, Table 3.3): everything but the fuses, the flash and what the ledger keeps is at its
reset value; a flash operation in progress is cut short (R175), and a ledger whose partition is gone keeps nothing (R77). -/
def PowerOnDone (s t : State) : Prop :=
  t.tick = {} ∧ t.runner = {} ∧ t.dsp = [] ∧ t.domains = [] ∧ t.links = [] ∧ t.sys = {} ∧ t.riser = {} ∧ t.clk = {} ∧
    t.hbm.mem = [] ∧ t.hbm.ranges = State.reset.hbm.ranges ∧ t.cudex.owners = [] ∧ t.dev.straps = State.reset.dev.straps ∧
    t.env.fuses = s.env.fuses ∧ t.lib.flash = (cutFlash s).lib.flash ∧ t.therm.ledger = ledgerGood (cutFlash s) ∧
    t.integ.log = (if ledgerGood (cutFlash s) then s.integ.log else [])

/-- What a warm reset leaves (R66, R69, Table 3.3): BOOT with the cause recorded, the straps, the log's threshold and the
root PLL as they were, no request left without its answer, and everything that is not kept at its reset value. -/
def WarmDone (s t : State) (cause : BitVec 4) : Prop :=
  t.dev.base = .boot ∧ t.dev.mode = .boot ∧ t.dev.resetCause = cause ∧ t.dev.straps = s.dev.straps ∧
    t.dev.warmDue = none ∧ t.tick = {} ∧ t.runner = {} ∧ t.dsp = [] ∧ t.domains = [] ∧ t.links = [] ∧ t.sys = {} ∧
    t.riser = {} ∧ t.hbm.mem = [] ∧ t.cudex.owners = [] ∧ t.cudex.mb2Region = none ∧
    t.cudex.logThreshold = s.cudex.logThreshold ∧ t.clk.locked = s.clk.locked ∧ t.clk.refOsc = s.clk.refOsc ∧
    t.env.fuses = s.env.fuses ∧ t.lib.flash = (cutFlash (pcieDown s)).lib.flash ∧
    t.therm.ledger = ledgerGood (cutFlash (pcieDown s)) ∧ t.integ.log = s.integ.log ∧ t.dev.resetSilent = true ∧
    ∀ p sl, (t.slot p sl).st ≠ .posted ∧ (t.slot p sl).st ≠ .accepted

/-- The mode that the device reports is the one that its conditions give (R57, R58). -/
def ModeKept (s : State) : Prop := s.dev.mode = modeOf s

/-- The engine as its next bundle finds it: the edges of its interrupt sources taken in, and the results whose time has come
landed (R231, Table 9.10). -/
def State.finds (s : State) (id : Nat) : Engine := (s.engineNow id).advance

/-- The engine's next bundle is `b`, of kind `k`, fetched without an error, and nothing else is due: no register failure, no
delay slot, no hardware loop, no stop and no return from an interrupt (R226, R231, R234, R243). -/
def Calm (s : State) (id : Nat) (k : BundleKind) (b : BitVec 64) : Prop :=
  issues k id s = true ∧ fetched s id = (b, .clean) ∧ (s.engine id).parityBad = [] ∧ (s.engine id).delay = 0 ∧
    (s.engine id).lctl = 0 ∧ (s.engine id).haltDue = false ∧ (s.engine id).faultDue = false ∧ (s.engine id).retiDue = false

/-- And the bundle is a legal one that no stream stalls (R226, R237). -/
def CalmLegal (s : State) (id : Nat) (k : BundleKind) (b : BitVec 64) : Prop :=
  Calm s id k b ∧ (s.engine id).illegal b = false ∧ (k = .slots → (s.engine id).stallsOn b = false)

/-! ### What a command may change -/

/-- The parts of State beyond the device's mode, the mailboxes and events, and the board ports. -/
inductive Part where
  | tick | regions | runner | lib | brams | ingot | dsp | domains | lanes | links | sys | riser | hbm | integ | clk
  | therm | bonds
deriving DecidableEq, Repr

/-- The part is the same in two states. -/
def Part.same (s t : State) : Part → Prop
  | .tick => t.tick = s.tick
  | .regions => t.regions = s.regions
  | .runner => t.runner = s.runner
  | .lib => t.lib = s.lib
  | .brams => t.brams = s.brams
  | .ingot => t.ingot = s.ingot
  | .dsp => t.dsp = s.dsp
  | .domains => t.domains = s.domains
  | .lanes => t.lanes = s.lanes
  | .links => t.links = s.links
  | .sys => t.sys = s.sys
  | .riser => t.riser = s.riser
  | .hbm => t.hbm = s.hbm
  | .integ => t.integ = s.integ
  | .clk => t.clk = s.clk
  | .therm => t.therm = s.therm
  | .bonds => t.bonds = s.bonds

/-- Every part. -/
def allParts : List Part :=
  [.tick, .regions, .runner, .lib, .brams, .ingot, .dsp, .domains, .lanes, .links, .sys, .riser, .hbm, .integ, .clk,
    .therm, .bonds]

end Sys2Proof.Machine

namespace Sys2Proof

open Sys2Proof.Machine

/-- The parts that a command may change, each command as the rules of its chapter give its effect. -/
def Instr.mayChange : Instr → List Part
  | .porstRelease .. | .crystalWaitEnd | .releaseOutputEnable | .warmReset .. | .defectMapRead .. | .libQuery ..
  | .dspStatus .. | .timeStatus .. | .protStatus .. | .thermRead .. | .bondStatus .. | .ring .. | .ack ..
  | .mailboxRequestLine .. | .mailboxResponseLine .. | .mailboxEventRecord .. | .eventWindowClose ..
  | .debugLeaseExpiry | .nonceExpiry | .unlockLockoutEnd | .mb2Bind .. | .debugUnlock .. | .debugStateRead ..
  | .eventConfig .. | .eventLogRead .. | .gpioBank .. | .gpioIo .. | .delayLineStep .. | .mgmtConfig ..
  | .hostStatus .. | .mgmtWrite .. | .mgmtRead .. | .mbacc .. | .extest .. | .samplePreload .. | .idcode
  | .extestPulse .. | .extestTrain .. | .bypass | .pcieLinkUp .. | .peRstRelease | .trstAssert
  | .dynamicAddressAssignment .. | .pciePowerStateChange .. | .unallocatedOpcode .. => []
  | .monitorWindow .. | .clockSwitchAck .. | .clockSwitchCheck .. | .clockStatus .. => [.clk]
  | .releaseIsolationOpen | .scheduleSet .. | .planeFill .. | .planeOverride .. | .planeStatus .. | .spineEnable ..
  | .bramClear .. | .fabricClockChange .. | .regionClock .. | .regionPower .. | .leaseExpiry .. | .resClaim .. =>
    [.regions]
  | .routerWaitPromotion .. | .hbmQueueAged .. | .runnerCounters .. | .reservedRunnerOperation .. => [.runner]
  | .tickInEdge .. | .tickHoldover | .tickConfig .. => [.tick]
  | .ingotConflicts .. | .ingotBanks .. => [.ingot]
  | .interruptEntry .. | .waitiResume .. | .timerExpiry .. | .doorbell .. | .start .. | .streamInputItem ..
  | .streamOutputItem .. | .dspStart .. => [.dsp]
  | .laneStatus .. | .laneReset .. | .laneSlip .. | .laneEyescan .. | .laneInject .. | .injectError ..
  | .lanePllLocked .. | .trainingFrame .. | .ageingEyescan .. | .prbsCheckerLock .. | .prbsCheckerLockLost .. =>
    [.lanes]
  | .linkStatus .. | .linkLoopback .. | .gapSkewTimeout .. | .nakReplayTimeout .. | .linkBackoffEnd ..
  | .linkUpStable .. | .startingDegradeTimeout .. | .timeInterval | .flitDiscarded .. => [.links]
  | .sprueQueue .. | .riserSpill .. | .riserStatus .. => [.riser]
  | .nodeSet .. | .windowSet .. | .profileSet .. | .routeSet .. | .partnerEviction .. => [.sys]
  | .protRange .. | .protZeroFillComplete .. | .protRekey .. | .rekeyInterval | .protReinit .. => [.hbm]
  | .fettlerHeartbeat | .fettlerWatch | .trackerInterval .. | .fettlerConfig .. | .fettlerPass ..
  | .integrityCounters .. | .hardFaultLog .. | .crcBind .. => [.integ]
  | .replicaRead .. | .governorEstimate .. | .governorEvaluate | .thermConfig .. | .thermSensor .. => [.therm]
  | .selftestStatus .. => [.bonds]
  | .cupolaRestartComplete | .cupolaRestart .. => [.lib]
  | .regionResetEnd .. | .spineContention .. | .crcFeed .. | .crcLoad .. | .crcSelect .. => [.regions, .integ]
  | .regionIsolate .. => [.regions, .runner]
  | .libRemove .. => [.regions, .lib]
  | .dspHalt .. => [.regions, .dsp]
  | .dspDomain .. | .avsAck .. | .avsNoAck .. | .avsSettleEnd .. => [.domains, .clk]
  | .cdrLocked .. | .trainingDone .. | .trainingTimeout .. | .laneLockAcquired .. | .helloInterval .. =>
    [.lanes, .links]
  | .windowRightsRecomputed | .partnerQuery .. | .partnerSet .. | .transactionTimeout .. | .ageingUnit =>
    [.runner, .sys]
  | .timeConfig .. => [.links, .sys]
  | .rekeyComplete | .protReinitComplete .. => [.lib, .hbm]
  | .pcieReset .. | .peRstAssert => [.runner, .lanes]
  | .rootPllLock => [.lib, .hbm, .clk]
  | .flashDirRead .. | .fwStage .. | .flashAccess .. => [.lib, .hbm, .integ]
  | .bramPortOperation .. | .maintenanceSteal .. => [.runner, .brams, .integ]
  | .bramClearComplete .. => [.regions, .brams, .integ]
  | .bundle .. | .b .. | .call .. | .ret .. | .beqz .. | .bnez .. | .bltz .. | .bgez .. | .bdec .. | .limm ..
  | .loop .. | .nop .. | .halt .. | .waiti .. | .reti .. | .ei .. | .di .. | .sig .. | .reservedBranchOrSystemOp .. =>
    [.regions, .dsp, .integ]
  | .domainPllRelock .. => [.dsp, .domains, .clk]
  | .transactionResponse .. => [.runner, .links, .sys]
  | .sensorSample .. => [.lanes, .links, .therm]
  | .ageingMeasurement .. | .planUpdate => [.domains, .clk, .therm]
  | .selftestRun .. => [.regions, .integ, .clk]
  | .quiesceAck .. | .quiesceTimeout .. | .shelfSaveComplete .. => [.regions, .runner, .brams, .ingot]
  | .libLoad .. | .imageProcessingEnd => [.regions, .lib, .hbm, .integ]
  | .dmaDone .. => [.runner, .ingot, .dsp, .integ]
  | .splitWrite .. => [.regions, .brams, .ingot, .dsp]
  | .ageingPlan .. => [.regions, .domains, .clk, .therm]
  | .selftestConfig .. => [.lib, .hbm, .integ, .bonds]
  | .programOrEraseEnd .. => [.lib, .hbm, .integ, .therm]
  | .firmwareAuthenticated => [.lib, .domains, .hbm, .clk, .therm]
  | .busTransfer .. => [.regions, .runner, .brams, .dsp, .bonds]
  | .delayedSwitch .. | .graceExpiry .. | .fabricClockEdge .. => [.regions, .dsp, .riser, .integ, .clk]
  | .planeFillComplete .. => [.regions, .lib, .hbm, .integ, .clk]
  | .loadActive .. => [.regions, .runner, .dsp, .riser, .integ]
  | .sliceEnd .. => [.regions, .runner, .integ, .clk, .bonds]
  | .sliceRepeat .. => [.regions, .lib, .hbm, .integ, .bonds]
  | .bootLoadComplete => [.tick, .regions, .lib, .hbm, .integ, .bonds]
  | .loadActiveComplete .. => [.regions, .lib, .dsp, .riser, .hbm, .integ]
  | .fettlerPassComplete .. => [.regions, .runner, .brams, .ingot, .dsp, .integ]
  | .bootBondSweepComplete .. | .busSweep .. | .testComplete .. =>
    [.regions, .runner, .brams, .dsp, .riser, .integ, .bonds]
  | .eyescanComplete .. => [.lib, .brams, .dsp, .lanes, .hbm, .integ, .clk]
  | .fettlerWordRead .. => [.regions, .runner, .brams, .ingot, .dsp, .hbm, .integ]
  | .faultRetire .. => [.regions, .runner, .brams, .dsp, .riser, .hbm, .integ]
  | .regionReset .. => [.regions, .runner, .brams, .ingot, .dsp, .riser, .integ, .clk, .bonds]
  | .slotBoundary .. => [.tick, .regions, .runner, .dsp, .riser, .integ, .clk, .therm, .bonds]
  | .spillReadbackComplete .. | .riserConfig .. | .riserReset .. =>
    [.runner, .lib, .brams, .ingot, .dsp, .riser, .hbm, .integ, .clk]
  | .hbmZeroFillComplete | .powerEntryComplete .. | .pop .. | .popStatus .. | .hbmRepairComplete | .crcData ..
  | .crcCtrl .. | .crcValue .. | .evPop .. | .registerWrite .. =>
    [.regions, .runner, .lib, .brams, .ingot, .dsp, .riser, .hbm, .integ, .clk]
  | .deviceMode .. => [.regions, .runner, .brams, .ingot, .dsp, .lanes, .links, .riser, .integ, .bonds]
  | .laneConfig .. | .laneFlushTimeout .. | .laneTransmitItem .. =>
    [.runner, .lib, .brams, .ingot, .dsp, .lanes, .riser, .hbm, .integ, .clk]
  | .powerExitComplete .. => [.regions, .runner, .lib, .brams, .ingot, .dsp, .riser, .hbm, .integ, .clk, .bonds]
  | .runnerResponse .. | .runnerTimeout .. | .data .. | .linkctl .. | .time .. | .loopFlit .. | .sendMessage ..
  | .messageCreditTimeout .. | .remoteRequest .. | .remoteRequestAccepted .. =>
    [.runner, .lib, .brams, .ingot, .dsp, .links, .sys, .riser, .hbm, .integ, .clk]
  | .tickNumberLowRead .. | .hostRequest .. =>
    [.tick, .regions, .runner, .lib, .brams, .ingot, .dsp, .riser, .hbm, .integ, .clk]
  | .write .. | .add32 .. | .add64 .. | .swap32 .. | .swap64 .. | .transactionRequest .. | .push .. | .pushEop ..
  | .abort .. => [.regions, .runner, .lib, .brams, .ingot, .dsp, .links, .sys, .riser, .hbm, .integ, .clk]
  | .lanePrbs .. | .laneLoopback .. | .lanePllLockLost .. | .laneLockLost .. | .laneSignalLost ..
  | .laneReceiveUnit .. | .linkConfig .. | .linkReset .. | .flitOpportunity .. | .nak .. | .hello .. | .down ..
  | .replayTimeout .. | .linkTimeout .. | .linkFormationTimeout .. =>
    [.runner, .lib, .brams, .ingot, .dsp, .lanes, .links, .sys, .riser, .hbm, .integ, .clk]
  | .read .. => [.tick, .regions, .runner, .lib, .brams, .ingot, .dsp, .links, .sys, .riser, .hbm, .integ, .clk]
  | .aonPowerUp | .powerOff | .porstAssert | .wrstLowDetected | .warmResetBegin | .cooldownEnd | .tickBoundary
  | .machineCheck .. | .watchdogExpiry | .cupolaRestartLimit => allParts

/-- The Cudex request that a command takes: its port, its slot and what its table says of it. -/
def Instr.request : Instr → Option (Port × Fin 4 × CmdSpec)
  | .runnerCounters p sl => some (p, sl, runnerCountersSpec)
  | .deviceMode p sl => some (p, sl, deviceModeSpec)
  | .warmReset p sl => some (p, sl, warmResetSpec)
  | .regionReset p sl => some (p, sl, regionResetSpec)
  | .tickConfig p sl => some (p, sl, tickConfigSpec)
  | .scheduleSet p sl => some (p, sl, scheduleSetSpec)
  | .planeFill p sl => some (p, sl, planeFillSpec)
  | .planeOverride p sl => some (p, sl, planeOverrideSpec)
  | .planeStatus p sl => some (p, sl, planeStatusSpec)
  | .regionIsolate p sl => some (p, sl, regionIsolateSpec)
  | .spineEnable p sl => some (p, sl, spineEnableSpec)
  | .defectMapRead p sl => some (p, sl, defectMapReadSpec)
  | .libLoad p sl => some (p, sl, libLoadSpec)
  | .libRemove p sl => some (p, sl, libRemoveSpec)
  | .libQuery p sl => some (p, sl, libQuerySpec)
  | .loadActive p sl => some (p, sl, loadActiveSpec)
  | .flashDirRead p sl => some (p, sl, flashDirReadSpec)
  | .ingotConflicts p sl => some (p, sl, ingotConflictsSpec)
  | .ingotBanks p sl => some (p, sl, ingotBanksSpec)
  | .bramClear p sl => some (p, sl, bramClearSpec)
  | .dspStart p sl => some (p, sl, dspStartSpec)
  | .dspHalt p sl => some (p, sl, dspHaltSpec)
  | .dspStatus p sl => some (p, sl, dspStatusSpec)
  | .dspDomain p sl => some (p, sl, dspDomainSpec)
  | .laneConfig p sl => some (p, sl, laneConfigSpec)
  | .laneStatus p sl => some (p, sl, laneStatusSpec)
  | .laneReset p sl => some (p, sl, laneResetSpec)
  | .laneSlip p sl => some (p, sl, laneSlipSpec)
  | .laneEyescan p sl => some (p, sl, laneEyescanSpec)
  | .lanePrbs p sl => some (p, sl, lanePrbsSpec)
  | .laneInject p sl => some (p, sl, laneInjectSpec)
  | .laneLoopback p sl => some (p, sl, laneLoopbackSpec)
  | .linkConfig p sl => some (p, sl, linkConfigSpec)
  | .linkStatus p sl => some (p, sl, linkStatusSpec)
  | .linkReset p sl => some (p, sl, linkResetSpec)
  | .linkLoopback p sl => some (p, sl, linkLoopbackSpec)
  | .sprueQueue p sl => some (p, sl, sprueQueueSpec)
  | .nodeSet p sl => some (p, sl, nodeSetSpec)
  | .windowSet p sl => some (p, sl, windowSetSpec)
  | .profileSet p sl => some (p, sl, profileSetSpec)
  | .partnerQuery p sl => some (p, sl, partnerQuerySpec)
  | .partnerSet p sl => some (p, sl, partnerSetSpec)
  | .routeSet p sl => some (p, sl, routeSetSpec)
  | .timeConfig p sl => some (p, sl, timeConfigSpec)
  | .timeStatus p sl => some (p, sl, timeStatusSpec)
  | .riserSpill p sl => some (p, sl, riserSpillSpec)
  | .riserConfig p sl => some (p, sl, riserConfigSpec)
  | .riserStatus p sl => some (p, sl, riserStatusSpec)
  | .riserReset p sl => some (p, sl, riserResetSpec)
  | .protRange p sl => some (p, sl, protRangeSpec)
  | .protStatus p sl => some (p, sl, protStatusSpec)
  | .protRekey p sl => some (p, sl, protRekeySpec)
  | .protReinit p sl => some (p, sl, protReinitSpec)
  | .fettlerConfig p sl => some (p, sl, fettlerConfigSpec)
  | .fettlerPass p sl => some (p, sl, fettlerPassSpec)
  | .integrityCounters p sl => some (p, sl, integrityCountersSpec)
  | .hardFaultLog p sl => some (p, sl, hardFaultLogSpec)
  | .faultRetire p sl => some (p, sl, faultRetireSpec)
  | .splitWrite p sl => some (p, sl, splitWriteSpec)
  | .crcBind p sl => some (p, sl, crcBindSpec)
  | .clockStatus p sl => some (p, sl, clockStatusSpec)
  | .regionClock p sl => some (p, sl, regionClockSpec)
  | .regionPower p sl => some (p, sl, regionPowerSpec)
  | .thermConfig p sl => some (p, sl, thermConfigSpec)
  | .thermRead p sl => some (p, sl, thermReadSpec)
  | .thermSensor p sl => some (p, sl, thermSensorSpec)
  | .ageingPlan p sl => some (p, sl, ageingPlanSpec)
  | .selftestConfig p sl => some (p, sl, selftestConfigSpec)
  | .selftestRun p sl => some (p, sl, selftestRunSpec)
  | .selftestStatus p sl => some (p, sl, selftestStatusSpec)
  | .bondStatus p sl => some (p, sl, bondStatusSpec)
  | .resClaim p sl => some (p, sl, resClaimSpec)
  | .mb2Bind p sl => some (p, sl, mb2BindSpec)
  | .cupolaRestart p sl => some (p, sl, cupolaRestartSpec)
  | .fwStage p sl => some (p, sl, fwStageSpec)
  | .flashAccess p sl => some (p, sl, flashAccessSpec)
  | .debugUnlock p sl => some (p, sl, debugUnlockSpec)
  | .debugStateRead p sl => some (p, sl, debugStateReadSpec)
  | .eventConfig p sl => some (p, sl, eventConfigSpec)
  | .eventLogRead p sl => some (p, sl, eventLogReadSpec)
  | .gpioBank p sl => some (p, sl, gpioBankSpec)
  | .gpioIo p sl => some (p, sl, gpioIoSpec)
  | .mgmtConfig p sl => some (p, sl, mgmtConfigSpec)
  | .hostStatus p sl => some (p, sl, hostStatusSpec)
  | .aonPowerUp | .powerOff | .porstAssert | .porstRelease .. | .wrstLowDetected | .warmResetBegin | .crystalWaitEnd
  | .monitorWindow .. | .rootPllLock | .clockSwitchAck .. | .clockSwitchCheck .. | .firmwareAuthenticated
  | .hbmZeroFillComplete | .bootBondSweepComplete .. | .bootLoadComplete | .releaseIsolationOpen
  | .releaseOutputEnable | .cooldownEnd | .busTransfer .. | .quiesceAck .. | .quiesceTimeout ..
  | .shelfSaveComplete .. | .powerEntryComplete .. | .powerExitComplete .. | .read .. | .write .. | .add32 ..
  | .add64 .. | .swap32 .. | .swap64 .. | .runnerResponse .. | .runnerTimeout .. | .routerWaitPromotion ..
  | .hbmQueueAged .. | .regionResetEnd .. | .tickBoundary | .slotBoundary .. | .delayedSwitch .. | .graceExpiry ..
  | .tickInEdge .. | .tickHoldover | .planeFillComplete .. | .spineContention .. | .imageProcessingEnd
  | .loadActiveComplete .. | .bramPortOperation .. | .maintenanceSteal .. | .bramClearComplete .. | .bundle .. | .b ..
  | .call .. | .ret .. | .beqz .. | .bnez .. | .bltz .. | .bgez .. | .bdec .. | .limm .. | .loop .. | .nop ..
  | .halt .. | .waiti .. | .reti .. | .ei .. | .di .. | .sig .. | .interruptEntry .. | .waitiResume ..
  | .timerExpiry .. | .dmaDone .. | .doorbell .. | .start .. | .streamInputItem .. | .streamOutputItem .. | .avsAck ..
  | .avsNoAck .. | .avsSettleEnd .. | .domainPllRelock .. | .eyescanComplete .. | .injectError .. | .lanePllLocked ..
  | .lanePllLockLost .. | .cdrLocked .. | .trainingFrame .. | .trainingDone .. | .trainingTimeout ..
  | .laneLockAcquired .. | .laneLockLost .. | .laneSignalLost .. | .laneReceiveUnit .. | .laneFlushTimeout ..
  | .laneTransmitItem .. | .ageingEyescan .. | .flitOpportunity .. | .data .. | .linkctl .. | .nak .. | .hello ..
  | .time .. | .loopFlit .. | .down .. | .gapSkewTimeout .. | .nakReplayTimeout .. | .replayTimeout ..
  | .linkTimeout .. | .linkBackoffEnd .. | .linkUpStable .. | .linkFormationTimeout .. | .startingDegradeTimeout ..
  | .helloInterval .. | .sendMessage .. | .messageCreditTimeout .. | .windowRightsRecomputed | .remoteRequest ..
  | .remoteRequestAccepted .. | .transactionRequest .. | .transactionResponse .. | .transactionTimeout ..
  | .ageingUnit | .partnerEviction .. | .timeInterval | .push .. | .pushEop .. | .abort .. | .pop .. | .popStatus ..
  | .spillReadbackComplete .. | .protZeroFillComplete .. | .rekeyInterval | .rekeyComplete | .protReinitComplete ..
  | .fettlerWordRead .. | .fettlerHeartbeat | .fettlerWatch | .trackerInterval .. | .fettlerPassComplete ..
  | .hbmRepairComplete | .crcFeed .. | .crcLoad .. | .crcSelect .. | .crcData .. | .crcCtrl .. | .crcValue ..
  | .replicaRead .. | .fabricClockChange .. | .sensorSample .. | .governorEstimate .. | .governorEvaluate
  | .ageingMeasurement .. | .planUpdate | .sliceEnd .. | .sliceRepeat .. | .busSweep .. | .testComplete ..
  | .machineCheck .. | .watchdogExpiry | .cupolaRestartComplete | .cupolaRestartLimit | .ring .. | .ack ..
  | .mailboxRequestLine .. | .mailboxResponseLine .. | .mailboxEventRecord .. | .evPop .. | .eventWindowClose ..
  | .leaseExpiry .. | .debugLeaseExpiry | .nonceExpiry | .unlockLockoutEnd | .tickNumberLowRead .. | .registerWrite ..
  | .delayLineStep .. | .hostRequest .. | .pcieReset .. | .peRstAssert | .mgmtWrite .. | .mgmtRead .. | .mbacc ..
  | .extest .. | .samplePreload .. | .idcode | .extestPulse .. | .extestTrain .. | .bypass | .fabricClockEdge ..
  | .flitDiscarded .. | .prbsCheckerLock .. | .prbsCheckerLockLost .. | .pcieLinkUp .. | .peRstRelease | .trstAssert
  | .programOrEraseEnd .. | .dynamicAddressAssignment .. | .pciePowerStateChange .. | .unallocatedOpcode ..
  | .reservedRunnerOperation .. | .reservedBranchOrSystemOp .. => none

end Sys2Proof

namespace Sys2Proof.Machine

/-- What the command answers differs from `s` in no part but those of the list. -/
def Confined (i : Instr) (s : State) (ps : List Part) : Prop := ∀ t, exec i s = .next t → ∀ p : Part, p ∉ ps → p.same s t

end Sys2Proof.Machine
end

