-- ==== Sys2Proof/Certificates/Slice0/Obligations.lean ====
section
/-! DEFINITION. The statements for the provers. -/

open Sys2Proof Sys2Proof.Machine

/-! ### The queue and the step -/

/-- A step runs the command at the front of the queue, with the queue's rest (the model's queue: notes/assumptions/6.md). -/
def Obligations.StepRunsFrontCommand : Prop :=
  ∀ (c : Instr) (rest : List Instr) (s : State), s.pending = c :: rest → step s = exec c (s.withPending rest)

/-- A step on an empty queue is one cycle of the Cupola clock: local time goes on by 256 units of 1/256 ns (R350) and
nothing else changes (the model's choice: notes/assumptions/6.md). -/
def Obligations.EmptyQueueIdles : Prop :=
  ∀ s : State, s.pending = [] →
    ∃ t, step s = .next t ∧ t.env.now = s.env.now + 256 ∧ { t with env := s.env } = s ∧
      t.env.freeCtr = s.env.freeCtr ∧ t.env.fuses = s.env.fuses

/-! ### Power, resets and start-up (chapters 3 and 21) -/

/-- Power, power-on reset and warm reset (R66, R69, R70, R535, Tables 3.2 and 3.3). -/
def Obligations.ResetsComplete : Prop :=
  (∀ s : State,
     (s.dev.base = .off → Gives .aonPowerUp s (fun t => PowerOnDone s t ∧ t.dev.base = .standby ∧ t.dev.mode = .standby)) ∧
     (s.dev.base ≠ .off → Gives .powerOff s (fun t => PowerOnDone s t ∧ t.dev.base = .off ∧ t.dev.mode = .off)) ∧
     (s.dev.base ≠ .off → s.dev.porstLow = false →
       Gives .porstAssert s (fun t => PowerOnDone s t ∧ t.dev.base = .standby ∧ t.dev.mode = .standby ∧
         t.dev.porstLow = true)) ∧
     (∀ st, s.dev.base = .standby → s.dev.porstLow = true →
       Gives (.porstRelease st) s (fun t => t.dev.straps = st ∧ t.dev.porstLow = false ∧ t.dev.crystal = .waiting ∧
         t.tick = s.tick ∧ t.clk = s.clk))) ∧
  (∀ s : State, mayReset s = true →
     Gives .wrstLowDetected s (WarmDone s · 2) ∧
     (∀ c, s.dev.warmDue = some c → Gives .warmResetBegin s (WarmDone s · c)) ∧
     (s.dev.cooldown = true → 10000 ≤ s.therm.coolRun → Gives .cooldownEnd s (WarmDone s · 5)))

/-- Start-up from the crystal wait to the release (R72, R74, R172, R189, R378, R421, R422, R473, Table 3.5). -/
def Obligations.StartUpCompletes : Prop :=
  ∀ s : State,
    (s.dev.base = .standby → s.dev.porstLow = false → s.dev.crystal = .waiting →
      Gives .crystalWaitEnd s (fun t => t.dev.crystal = .checking ∧ t.dev.checkSeen = 0 ∧ t.dev.checkBad = false)) ∧
    (s.dev.base = .standby → s.dev.crystal = .locking →
      Gives .rootPllLock s (fun t => t.clk.locked = true ∧ t.dev.crystal = .locked ∧ t.dev.base = .boot ∧
        t.dev.xtalOk = !s.clk.refOsc ∧ t.cudex.cup = .rom ∧ t.clk.hearthSw.phase = .stopping)) ∧
    (s.awake = true → s.dev.base = .boot → s.cudex.cup = .rom → bootFirmware s = none →
      Gives .firmwareAuthenticated s (fun t => t.dev.base = .recovery ∧ t.dev.romService = true ∧ t.cudex.cup = .rom)) ∧
    (∀ k, s.awake = true → s.dev.base = .boot → s.cudex.cup = .rom → bootFirmware s = some k →
      Gives .firmwareAuthenticated s (fun t => (if k = 3 then t.dev.base = .recovery
          else (t.dev.base = .boot ∨ t.dev.base = .load) ∧ t.dev.fwRunning = true) ∧
        t.dev.fwImage = BitVec.ofNat 2 k ∧ t.cudex.cup = .running)) ∧
    (bootWork s = true → s.dev.hbmReady = false → Gives .hbmZeroFillComplete s (fun t => t.dev.hbmReady = true)) ∧
    (∀ f c, bootWork s = true → s.dev.sweepDone = false →
      Gives (.bootBondSweepComplete f c) s (fun t => t.dev.sweepDone = true)) ∧
    (s.awake = true → s.dev.base = .load → s.dev.loadDone = false → s.dev.hold = false → bootLoadWaits s = false →
      bootImages s = [] → Gives .bootLoadComplete s (fun t => t.dev.base = .recovery ∧ t.dev.mode = .recovery)) ∧
    (∀ code bs rest, s.awake = true → s.dev.base = .load → s.dev.loadDone = false → s.dev.hold = false →
      bootLoadWaits s = false → bootImages s = (code, bs) :: rest → Gives .bootLoadComplete s (fun t => code ∈ t.lib.bootTried)) ∧
    (s.awake = true → s.dev.release = .t0 →
      Gives .releaseIsolationOpen s (fun t => t.dev.release = .isolationOpen ∧
        ∀ r < 64, IsoCause.boot ∉ (t.region r).iso)) ∧
    (s.awake = true → s.dev.release = .isolationOpen →
      Gives .releaseOutputEnable s (fun t => t.dev.release = .done ∧ t.regions = s.regions))

/-- `DEVICE_MODE` and `WARM_RESET` (Tables 3.8 and 3.9, R59, R69). -/
def Obligations.DeviceCommandsComplete : Prop :=
  ∀ (s : State) (p : Port) (sl : Fin 4),
    (Granted deviceModeSpec s p sl →
      ((s.req p sl).queryFlag = true →
        Gives (.deviceMode p sl) s (fun t => Answered s t p sl stOk (modeResults s) ∧ t.dev.modeDue = s.dev.modeDue)) ∧
      (∀ c, (s.req p sl).queryFlag = false → (s.req p sl).argByte 8 = c → 1 ≤ c → c ≤ 3 → mayChange s c = true →
        Gives (.deviceMode p sl) s (fun t => Waits t p sl ∧ ∃ w, t.dev.modeDue = s.dev.modeDue ++ [(c, w)])) ∧
      ((s.req p sl).queryFlag = false → (s.req p sl).argByte 8 = 6 → mayChange s 6 = true → s.dev.warmDue = none →
        Gives (.deviceMode p sl) s (fun t => t.dev.warmDue = some 7 ∧ t.dev.warmTick = tickIn10us s ∧
          (t.slot p sl).st = .done))) ∧
    (Granted warmResetSpec s p sl → s.dev.warmDue = none →
      Gives (.warmReset p sl) s (fun t => t.dev.warmDue = some 3 ∧ t.dev.warmTick = tickIn10us s ∧
        (t.slot p sl).st = .done ∧ (t.slot p sl).resp =
          mkResponse (s.req p sl).tag (s.req p sl).flags stOk (tickIn10us s) [])) ∧
    (∀ c, Granted warmResetSpec s p sl → s.dev.warmDue = some c →
      Gives (.warmReset p sl) s (fun t => t.dev.warmDue = some c ∧ t.dev.warmTick = s.dev.warmTick ∧
        (t.slot p sl).st = .done))

/-! ### Clocks, voltages and region power (chapters 9 and 16) -/

/-- The clock monitor and the clock switches (R425, R427, R430, Table 16.3).
The sequencers of the DSP domains and of `VCC_COPE` (R431 to R434). -/
def Obligations.ClocksAndSequencersComplete : Prop :=
  (∀ s : State,
     (∀ n, s.dev.base ≠ .off →
       Gives (.monitorWindow n) s (fun t => t.clk.lastCounts = (n :: s.clk.lastCounts).take 3 ∧
         t.clk.badRun = (if 235 ≤ n ∧ n ≤ 265 then 0 else s.clk.badRun + 1) ∧
         t.clk.goodRun = (if 235 ≤ n ∧ n ≤ 265 then min 100 (s.clk.goodRun + 1) else 0))) ∧
     (∀ n, s.dev.base ≠ .off → (n < 235 ∨ 265 < n) → s.clk.badRun = 2 → s.clk.locked = true → s.clk.refOsc = false →
       s.clk.holdover = false → s.dev.crystal ≠ .checking →
       Gives (.monitorWindow n) s (fun t => t.clk.holdover = true ∧ t.clk.lost = true ∧ t.clk.rootSw.phase = .stopping ∧
         t.clk.rootSw.toNew = true)) ∧
     (∀ sw, (s.clockSwitch sw).phase = .stopping →
       Gives (.clockSwitchAck sw) s (fun t =>
         (t.clockSwitch sw).phase = (if sw = .rootRef then SwitchPhase.released else .idle))) ∧
     (∀ sw dead, (s.clockSwitch sw).phase = .stopping → oldDead sw dead s = true →
       Gives (.clockSwitchCheck sw dead) s (fun t =>
         (t.clockSwitch sw).phase = (if sw = .rootRef then SwitchPhase.released else .idle) ∧ t.clk.forced = true)) ∧
     (∀ sw dead, (s.clockSwitch sw).phase = .stopping → oldDead sw dead s = false →
       Gives (.clockSwitchCheck sw dead) s (fun t => (t.clockSwitch sw).phase = .stopping ∧ t.clk.forced = s.clk.forced)) ∧
     (s.clk.locked = true → s.clk.rootSw.phase = .released → s.dev.base ≠ .standby →
       Gives .rootPllLock s (fun t => t.clk.rootSw.phase = .idle ∧ t.clk.holdover = false ∧
         t.clk.refOsc = s.clk.rootSw.toNew ∧ t.dev.xtalOk = !s.clk.rootSw.toNew)) ∧
     (∀ r : Fin 64, s.awake = true → s.kNow r.val ≠ s.kDue r.val →
       Gives (.fabricClockChange r) s (fun t => t.kNow r.val = s.kDue r.val ∧
         (t.region r.val).kHalved = s.therm.throttled)) ∧
     (∀ l, s.awake = true →
       Gives (.replicaRead l) s (fun t => ∀ x ∈ l, ∃ v, tget none t.therm.minSlack (8 * x.1.val + x.2.1.val) = some v ∧
         v ≤ x.2.2))) ∧
  (∀ s : State, s.awake = true →
     (∀ d : Fin 4, (s.domain d.val).step = .upWrite →
       Gives (.avsAck ⟨d.val, by omega⟩) s (fun t => (t.domain d.val).step = .upSettle ∧
         (t.domain d.val).volt = lget 0 (s.domain d.val).plan (s.domain d.val).target ∧
         (t.domain d.val).point = (s.domain d.val).point)) ∧
     (s.clk.copeWrite = true →
       Gives (.avsAck 4) s (fun t => t.clk.copeNow = s.clk.copeTarget ∧ t.clk.copeWrite = false)) ∧
     (∀ d : Fin 4, domainWriting (s.domain d.val) = true →
       Gives (.avsNoAck ⟨d.val, by omega⟩) s (fun t => (t.domain d.val).point = (s.domain d.val).point ∧
         (t.domain d.val).volt = (s.domain d.val).volt ∧
         if (s.domain d.val).resent then (t.domain d.val).step = .idle
         else (t.domain d.val).resent = true ∧ (t.domain d.val).step = (s.domain d.val).step)) ∧
     (s.clk.copeWrite = true →
       Gives (.avsNoAck 4) s (fun t => t.clk.copeNow = s.clk.copeNow ∧ t.clk.copeWrite = !s.clk.copeResent)) ∧
     (∀ d : Fin 4, (s.domain d.val).step = .upSettle →
       Gives (.avsSettleEnd d) s (fun t => (t.domain d.val).step = .upRelock ∧
         (t.clockSwitch (.dspDomain d)).phase = .stopping)) ∧
     (∀ d : Fin 4, domainPaused (s.domain d.val) = true →
       Gives (.domainPllRelock d) s (fun t => (t.domain d.val).point = (s.domain d.val).target ∧
         ∀ k, k ≠ d.val → t.domain k = s.domain k)))

/-- The clock and power commands (Tables 9.19, 16.8 to 16.10). -/
def Obligations.ClockCommandsComplete : Prop :=
  ∀ (s : State) (p : Port) (sl : Fin 4),
    (Granted clockStatusSpec s p sl → (s.req p sl).argByte 8 = 0 →
      Gives (.clockStatus p sl) s (fun t => Answered s t p sl stOk (clockResults s) ∧ t.clk = s.clk)) ∧
    (Granted clockStatusSpec s p sl → (s.req p sl).argByte 8 = 1 → s.clk.goodRun = 100 → s.clk.rootSw.phase = .idle →
      s.clk.holdover = false → s.clk.refOsc = true →
      Gives (.clockStatus p sl) s (fun t => t.clk.rootSw.phase = .stopping ∧ t.clk.rootSw.toNew = false)) ∧
    (Granted dspDomainSpec s p sl → (s.req p sl).queryFlag = false → ∀ k, (s.req p sl).argByte 8 = k → k ≤ 3 →
      (s.domain (s.req p sl).target).step = .idle → lget false (s.domain (s.req p sl).target).withdrawn k = false →
      (s.domain (s.req p sl).target).point < k → s.therm.throttled = false →
      Gives (.dspDomain p sl) s (fun t => Waits t p sl ∧ (t.domain (s.req p sl).target).step = .upWrite ∧
        (t.domain (s.req p sl).target).target = k)) ∧
    (Granted regionClockSpec s p sl → (s.req p sl).queryFlag = false → ∀ k, (s.req p sl).argByte 8 = k → 8 ≤ k →
      k ≤ s.kMax → (s.region (s.req p sl).target).kShadow = none →
      Gives (.regionClock p sl) s (fun t => Waits t p sl ∧
        ∃ w, (t.region (s.req p sl).target).kShadow = some (k, w))) ∧
    (Granted regionPowerSpec s p sl → (s.req p sl).queryFlag = false → (s.req p sl).argByte 8 ≤ 1 →
      Gives (.regionPower p sl) s (fun t =>
        Answered s t p sl stOk (regionPowerResults (s.req p sl).target t) ∧
        (t.region (s.req p sl).target).wake = ((s.req p sl).argByte 8 == 1)))

/-! ### The tick and the slots (chapter 6) -/

/-- The events of the tick generator (R137, R139). An edge that falls `e` tick units after the nearer boundary of the tick in
progress is no error, slews the next tick by one unit, or counts toward a step.
A region whose change `HOLD_SWITCH` holds switches at the falling edge, and at the end of its grace skips or forces
the change (R153, R154, Table 6.6). -/
def Obligations.TicksAndSwitchesComplete : Prop :=
  (∀ s : State, s.ticking = true →
     (∀ (pos : Nat) (e : Int), s.tick.cfg.source = 1#2 → s.tick.stepping = false → pos ≤ s.tick.length →
       e = (if 2 * pos ≤ s.tick.length then (pos : Int) else pos - s.tick.length) →
       Gives (.tickInEdge pos) s (fun t => t.tick.missCount = 0 ∧ t.tick.edgesSeen = true ∧
         t.tick.number = s.tick.number ∧
         if e.natAbs ≤ 1 then t.tick.align = 1 ∧ t.tick.nextAdjust = 0 ∧ t.tick.stepCount = 0 ∧ t.tick.holdover = false
         else if e.natAbs ≤ 64 then t.tick.align = 2 ∧ t.tick.nextAdjust = (if 0 < e then 1 else -1) ∧ t.tick.stepCount = 0
         else t.tick.stepCount = s.tick.stepCount + 1 ∧ t.tick.nextAdjust = 0 ∧
           t.tick.stepping = decide (s.tick.stepCount + 1 = 8))) ∧
     (∀ pos, s.tick.cfg.source = 1#2 → s.tick.stepping = true → s.tick.length ≤ pos →
       pos ≤ s.tick.length + s.tick.cfg.period →
       Gives (.tickInEdge pos) s (fun t => t.tick.align = 1 ∧ t.tick.stepping = false ∧ t.tick.holdover = false ∧
         t.tick.steps = min 4294967295 (s.tick.steps + 1))) ∧
     (s.tick.cfg.source ≠ 0#2 → s.tick.edgesSeen = true → s.tick.align ≠ 3#2 → 4 ≤ s.tick.missCount →
       Gives .tickHoldover s (fun t => t.tick.align = 3 ∧ t.tick.holdover = true ∧ t.tick.nextAdjust = 0)) ∧
     (s.tick.cfg.source ≠ 2#2 → s.tick.shadow = none →
       Gives .tickBoundary s (fun t => t.tick.number = s.tick.number + 1 ∧ t.tick.startAt = s.env.now ∧
         t.tick.slot0Due = true ∧ t.tick.adjust = s.tick.nextAdjust ∧ t.tick.cfg = s.tick.cfg)) ∧
     (∀ c w, s.tick.shadow = some (c, w) → c.source ≠ 2#2 →
       Gives .tickBoundary s (fun t => t.tick.number = s.tick.number + 1 ∧ t.tick.cfg = c ∧ t.tick.shadow = none)) ∧
     (∀ k : Fin 16, slotFollows s k.val = true →
       Gives (.slotBoundary k) s (fun t => t.tick.slot = k.val ∧ t.tick.slot0Due = false ∧
         t.tick.number = s.tick.number))) ∧
  (∀ (s : State) (r : Fin 64) (d : Decision), graceOf s r.val = some d → d.power = .active →
     (d.plane = (s.region r.val).active ∨ (s.region r.val).usable d.plane = true) →
     ((s.region r.val).pins.holdSwitch = false →
       Gives (.delayedSwitch r) s (fun t => (t.region r.val).active = d.plane ∧ (t.region r.val).ovr = 3 ∧
         (t.region r.val).swResult = d.sw ∧ (t.region r.val).grace = none)) ∧
     ((s.region r.val).pins.holdSwitch = true → (s.region r.val).sched.force = true →
       Gives (.graceExpiry r) s (fun t => (t.region r.val).active = d.plane ∧ (t.region r.val).ovr = 2 ∧
         (t.region r.val).forced = min 4294967295 ((s.region r.val).forced + 1) ∧ (t.region r.val).grace = none)) ∧
     ((s.region r.val).pins.holdSwitch = true → (s.region r.val).sched.force = false → d.gated = false →
       Gives (.graceExpiry r) s (fun t => (t.region r.val).active = (s.region r.val).active ∧
         (t.region r.val).ovr = 1 ∧ (t.region r.val).skips = min 4294967295 ((s.region r.val).skips + 1) ∧
         (t.region r.val).grace = none)))

/-- `TICK_CONFIG` and `SCHEDULE_SET` hold what they set in a shadow until the tick boundary, and answer a QUERY at once
(R141, R144, Tables 6.10 and 6.11). -/
def Obligations.TickCommandsComplete : Prop :=
  ∀ (s : State) (p : Port) (sl : Fin 4),
    (Granted tickConfigSpec s p sl → (s.req p sl).queryFlag = true →
      Gives (.tickConfig p sl) s (fun t => Answered s t p sl stOk (tickCfgResults s.tick.cfg) ∧ t.tick = s.tick)) ∧
    (Granted tickConfigSpec s p sl → (s.req p sl).queryFlag = false →
      tickCfgValid ((s.req p sl).argBytes 8 68) = true → s.tick.shadow = none →
      Gives (.tickConfig p sl) s (fun t => Waits t p sl ∧ t.tick.cfg = s.tick.cfg ∧
        ∃ w, t.tick.shadow = some (tickCfgOf ((s.req p sl).argBytes 8 68), some w))) ∧
    (Granted scheduleSetSpec s p sl → (s.req p sl).queryFlag = true →
      Gives (.scheduleSet p sl) s (fun t =>
        Answered s t p sl stOk (schedResults (s.region (s.req p sl).target).sched) ∧ t.regions = s.regions)) ∧
    (Granted scheduleSetSpec s p sl → (s.req p sl).queryFlag = false →
      schedValid ((s.req p sl).argBytes 8 39) = true → (s.region (s.req p sl).target).shadow = none →
      Gives (.scheduleSet p sl) s (fun t => Waits t p sl ∧
        (t.region (s.req p sl).target).sched = (s.region (s.req p sl).target).sched ∧
        ∃ w, (t.region (s.req p sl).target).shadow = some (schedOf ((s.req p sl).argBytes 8 39), some w)))

/-- The plane commands (Tables 6.12 to 6.14, R130, R131, R149).
The end of a fill (R130, R131): the plane is INVALID where the copy fails, and otherwise VALID, BARRED or, for a test
fill, TEST. -/
def Obligations.PlanesComplete : Prop :=
  (∀ (s : State) (p : Port) (sl : Fin 4) (r : Nat), (s.req p sl).target = r →
     (∀ pl i, Granted planeFillSpec s p sl → (s.req p sl).argByte 8 = pl → (s.req p sl).arg 10 2 = i → pl < 4 →
       i < s.lib.capacity → (s.entry i).st = entryReady → pl ≠ (s.region r).active → (s.entry i).fits r = true →
       (s.region r).fill = none → (s.region r).planeTaken pl = false → (s.region r).fillable = true →
       Gives (.planeFill p sl) s (fun t => Waits t p sl ∧ ((t.region r).plane pl).st = .filling ∧
         ∃ w, (t.region r).fill = some { plane := pl, index := i, waiter := some w })) ∧
     (∀ pl, Granted planeOverrideSpec s p sl → (s.req p sl).argByte 10 ≤ 1 → (s.req p sl).argByte 8 = pl → pl < 4 →
       ((s.req p sl).argByte 9 < 6 ∨ (s.req p sl).argByte 9 = 0xFF) → (s.region r).pendingOv = none →
       (s.region r).mayTake pl = true →
       Gives (.planeOverride p sl) s (fun t => Waits t p sl ∧ ∃ o, (t.region r).pendingOv = some o ∧ o.plane = pl ∧
         o.power = Power.ofCode ((s.req p sl).argByte 9) ∧ o.persistent = ((s.req p sl).argByte 10 == 1) ∧
         o.owner = p)) ∧
     (Granted planeOverrideSpec s p sl → (s.req p sl).argByte 10 = 2 → (s.region r).pendingOv = none →
       Gives (.planeOverride p sl) s (fun t => (t.region r).persistOv = none ∧
         Answered s t p sl stOk [(16, 1, if (s.region r).persistOv.isSome then 0 else 3), (17, 1, (s.region r).active)])) ∧
     (Granted planeStatusSpec s p sl → (s.req p sl).argByte 8 = 0 →
       Gives (.planeStatus p sl) s (fun t => Answered s t p sl stOk (planeStatusResults r s) ∧ t.regions = s.regions)) ∧
     (Granted planeStatusSpec s p sl → (s.req p sl).argByte 8 = 1 → ownView (s.req p sl) (ownKey 0 r) s = .mine →
       Gives (.planeStatus p sl) s (fun t => Answered s t p sl stOk (planeStatusResults r s) ∧
         (t.region r).skips = 0 ∧ (t.region r).forced = 0 ∧ (t.region r).granted = 0 ∧ (t.region r).lost = 0))) ∧
  (∀ (s : State) (r : Fin 64) (f : FillJob), s.awake = true → (s.region r.val).fill = some f → f.active = false →
     f.plane < 4 → (s.region r.val).fillWait = [] → (s.region r.val).slice = none →
     (∀ a c, (copyFor r.val f (modRegion r.val (fun x => { x with fill := none }) s)).2 = .failed a c →
       Gives (.planeFillComplete r) s (fun t => (t.region r.val).fill = none ∧
         ((t.region r.val).plane f.plane).st = .invalid)) ∧
     (∀ frames n, (copyFor r.val f (modRegion r.val (fun x => { x with fill := none }) s)).2 = .ok frames n →
       aboutToReplace s r.val f.plane = false →
       Gives (.planeFillComplete r) s (fun t => (t.region r.val).fill = none ∧
         ((t.region r.val).plane f.plane).st =
           if f.test then PlaneSt.test else if s.barredBy r.val (useOf r.val frames) then .barred else .valid)))

/-! ### Regions, spines and resets (chapters 3 and 5) -/

/-- The spine detector, and the region commands and resets (R67, R116, R117, R121, Tables 3.10 and 5.5 to 5.7). -/
def Obligations.RegionCommandsComplete : Prop :=
  ∀ (s : State) (p : Port) (sl : Fin 4) (r : Nat), (s.req p sl).target = r →
    (Granted regionIsolateSpec s p sl → (s.req p sl).queryFlag = true →
      Gives (.regionIsolate p sl) s (fun t => Answered s t p sl stOk (isolateResults r s) ∧ t.regions = s.regions)) ∧
    (Granted regionIsolateSpec s p sl → (s.req p sl).queryFlag = false → (s.req p sl).argByte 8 = 0 →
      (s.req p sl).atTick = false →
      Gives (.regionIsolate p sl) s (fun t => IsoCause.command ∈ (t.region r).iso ∧ (t.region r).isoHold = true ∧
        (t.slot p sl).st = .done)) ∧
    (Granted spineEnableSpec s p sl → (s.req p sl).queryFlag = false →
      (∀ k < 64, contended ((s.region r).now.use.enables k) = false) →
      Gives (.spineEnable p sl) s (fun t =>
        (t.region r).spineDisable = (s.region r).spineDisable &&& ~~~(BitVec.ofNat 64 ((s.req p sl).arg 8 8)) ∧
        Answered s t p sl stOk [(16, 8, (t.region r).spineDisable.toNat)])) ∧
    (Granted defectMapReadSpec s p sl → (s.req p sl).arg 8 2 ≤ (s.defectMap r).length →
      Gives (.defectMapRead p sl) s (fun t => t.regions = s.regions ∧ Answered s t p sl stOk
        ([(16, 2, (s.defectMap r).length), (18, 2, min 58 ((s.defectMap r).length - (s.req p sl).arg 8 2))]
          ++ (((s.defectMap r).drop ((s.req p sl).arg 8 2)).take 58).zipIdx.map (fun e => (20 + 4 * e.2, 4, e.1.toNat))))) ∧
    (∀ sc, Granted regionResetSpec s p sl → scopeOf ((s.req p sl).argByte 8) = some sc → (s.req p sl).atTick = false →
      (s.region r).power = .active → (s.region r).trans = none → (s.region r).resets = [] → (s.region r).slice = none →
      (s.region r).grace = none → (s.region r).after = none →
      Gives (.regionReset p sl) s (fun t => Answered s t p sl stOk [] ∧ IsoCause.reset ∈ (t.region r).iso ∧
        (t.region r).resets = [{ scope := sc, begun := true }])) ∧
    (∀ q : Fin 64, (s.region q.val).resets = [{ scope := .region, begun := true }] →
      Gives (.regionResetEnd q) s (fun t => (t.region q.val).resets = [] ∧
        IsoCause.reset ∈ (t.region q.val).freeDue)) ∧
    (∀ q k : Fin 64, s.awake = true → contended ((s.region q.val).now.use.enables k.val) = true →
      (s.region q.val).spineDisable.getLsbD k.val = false →
      Gives (.spineContention q k) s (fun t => (t.region q.val).spineDisable =
        (s.region q.val).spineDisable ||| BitVec.ofNat 64 (2 ^ k.val)))

/-! ### Library and loading (chapter 7) -/

/-- The library commands, and a load into the active plane (R184 to R192, Tables 7.8 to 7.12). -/
def Obligations.LibraryCommandsComplete : Prop :=
  ∀ (s : State) (p : Port) (sl : Fin 4) (r : Nat), (s.req p sl).target = r →
    (Granted libLoadSpec s p sl → r = 0xFFFF → (s.req p sl).argByte 8 ≤ 1 → (s.req p sl).argByte 26 = 0xFF →
      1 ≤ s.lib.queue.length → s.lib.queue.length < 8 →
      Gives (.libLoad p sl) s (fun t => Waits t p sl ∧ ∃ x, t.lib.queue = s.lib.queue ++ [x] ∧
        x.flash = ((s.req p sl).argByte 8 == 1) ∧ x.index = (s.req p sl).arg 24 2 ∧ x.target = none)) ∧
    (∀ i, Granted libRemoveSpec s p sl → (s.req p sl).arg 8 2 = i → i < s.lib.capacity → (s.entry i).st = entryReady →
      fillReads i s = false → (pinning i s = [] ∨ (s.req p sl).force = true) →
      Gives (.libRemove p sl) s (fun t => t.entry i = {} ∧ Answered s t p sl stOk [(16, 2, (pinning i s).length)] ∧
        pinning i t = [])) ∧
    (∀ i, Granted libQuerySpec s p sl → (s.req p sl).arg 8 2 = i → i < s.lib.capacity →
      Gives (.libQuery p sl) s (fun t => t.lib = s.lib ∧ Answered s t p sl stOk
        (descriptor i s ++ [(80, 2, s.lib.capacity),
          (82, 2, s.lib.entries.countP (fun e => decide (e.2.st = entryReady))), (84, 8, s.lib.base)]))) ∧
    (Granted flashDirReadSpec s p sl → (s.req p sl).argByte 8 = 1 → (s.req p sl).argByte 9 < 63 →
      s.lib.jobs = [] → s.lib.dirCopy 0 = none →
      Gives (.flashDirRead p sl) s (fun t => t.lib = s.lib ∧ Answered s t p sl stFault [])) ∧
    (∀ bs, Granted flashDirReadSpec s p sl → (s.req p sl).argByte 8 = 1 → (s.req p sl).argByte 9 < 63 →
      s.lib.jobs = [] → s.lib.dirCopy 0 = some bs →
      Gives (.flashDirRead p sl) s (fun t => t.lib = s.lib ∧
        Answered s t p sl stOk (dirResults bs ((s.req p sl).argByte 9)))) ∧
    (∀ k, Granted flashDirReadSpec s p sl → (s.req p sl).argByte 8 = 1 → (s.req p sl).argByte 9 = k → k < 63 →
      flashBusy s 0 = true →
      Gives (.flashDirRead p sl) s (fun t => ∃ w, { use := FlashUse.dirRead 1 k, waiter := some w } ∈ t.lib.jobs)) ∧
    (∀ pl i, Granted loadActiveSpec s p sl → (s.req p sl).argByte 8 = pl → (s.req p sl).arg 10 2 = i → pl < 4 →
      pl = (s.region r).active → (s.region r).power = .active → i < s.lib.capacity → (s.entry i).st = entryReady →
      (s.entry i).fits r = true → (s.region r).retired = false → (s.region r).fill = none → (s.region r).slice = none →
      (s.region r).trans = none →
      Gives (.loadActive p sl) s (fun t => Waits t p sl ∧ IsoCause.load ∈ (t.region r).iso ∧
        (t.region r).clockOn = false ∧ (t.region r).loadingActive = true)) ∧
    (∀ (q : Fin 64) f, s.awake = true → (s.region q.val).fill = some f → f.active = true →
      (s.region q.val).power = .active → (s.region q.val).trans = none → (s.region q.val).fillWait = [] →
      (∀ a c, (copyFor q.val f s).2 = .failed a c → Gives (.loadActiveComplete q) s (fun t =>
        (t.region q.val).fill = none ∧ (t.region q.val).record = none ∧ (t.region q.val).trans ≠ none)) ∧
      (∀ frames n, (copyFor q.val f s).2 = .ok frames n → Gives (.loadActiveComplete q) s (fun t =>
        (t.region q.val).fill = none ∧
          if s.barredBy q.val (useOf q.val frames) then (t.region q.val).record = none
          else (t.region q.val).record = some f.index ∧ IsoCause.load ∈ (t.region q.val).freeDue))) ∧
    (∀ x rest, s.awake = true → s.lib.queue = x :: rest → x.flash = false → s.dev.mode = .hold →
      Gives .imageProcessingEnd s (fun t => t.lib.queue = [])) ∧
    (∀ x, s.awake = true → s.lib.queue = [x] → (x.flash && flashBusy s x.src) = false →
      Gives .imageProcessingEnd s (fun t => t.lib.queue = []))

/-! ### Block memories and Ingot banks (chapter 8) -/

/-- One edge of one block memory port in protected mode: a whole write stores its word with fresh check bits, a read of a
consistent word puts the data into flight (R198, R200, R201); port B is the maintenance access's once the fabric has taken 64
edges in a row from it, the 65th edge performs its operation and the port stays with the same line's next one (R203); and a
clear leaves zero words (R213).
The commands of the Ingot banks (R210, R212, Tables 8.8 and 8.9). -/
def Obligations.MemoriesComplete : Prop :=
  (∀ (s : State) (m : Fin 16384),
     (∀ c o f, runningCfg s m.val = some c → c.raw = false → c.widthA = 64 → (s.bram m.val).waitA = false → o.en = true →
       o.we = true → o.be = BitVec.allOnes 8 → presented s m.val true (some o) = true → clockedA s m.val (some o) = some o →
       Gives (.bramPortOperation m (some o) none f) s (fun t =>
         (t.bram m.val).word (o.addr.toNat % 512) = wordEncode (o.di.extractLsb' 0 64) ∧
         (∀ w, w ≠ o.addr.toNat % 512 → (t.bram m.val).word w = (s.bram m.val).word w) ∧
         ∀ k, k ≠ m.val → t.bram k = s.bram k)) ∧
     (∀ c o f, runningCfg s m.val = some c → c.raw = false → c.widthB = 64 → (s.bram m.val).waitB = false → o.en = true →
       o.we = false → (s.bram m.val).rmwA = none → presented s m.val false (some o) = true →
       (s.bram m.val).maintains o = false →
       wordOut ((s.bram m.val).word (o.addr.toNat % 512)) = .clean →
       Gives (.bramPortOperation m none (some o) f) s (fun t => (t.bram m.val).words = (s.bram m.val).words ∧
         ∃ l, (t.bram m.val).pipeB = l ++ [(2, true,
           { dout := BitVec.ofNat 80 (wordData ((s.bram m.val).word (o.addr.toNat % 512))).toNat })])) ∧
     (∀ o f, (runningCfg s m.val).isSome = true → (s.bram m.val).waits = true → o.en = true →
       presented s m.val false (some o) = true → (s.bram m.val).maintains o = false → 63 ≤ (s.bram m.val).starve →
       Gives (.bramPortOperation m none (some o) f) s (fun t => (t.bram m.val).keepB = true ∧
         (t.bram m.val).waitB = true)) ∧
     (∀ j rest line w more, (runningCfg s m.val).isSome = true → (s.bram m.val).keepB = true → (s.bram m.val).half = none →
       (s.bram m.val).maint = j :: rest → j.ops = (line, w, none) :: more → (s.bram m.val).rmwA = none →
       Gives (.maintenanceSteal m) s (fun t => (t.bram m.val).starve = 0 ∧
         (t.bram m.val).maint = (if more.isEmpty then rest
           else { j with ops := more, got := j.got ++ [(bramWindowRead m.val w j.mid s).2] } :: rest) ∧
         (∀ x y, more = x :: y → x.1 = line → (t.bram m.val).waitB = true ∧ (t.bram m.val).keepB = true))) ∧
     (∀ (p : Port) (sl : Fin 4), Granted bramClearSpec s p sl → (s.req p sl).arg 8 2 < 256 →
       (s.region (s.req p sl).target).quiescing = false → (s.region (s.req p sl).target).dragReset = false →
       (s.region (s.req p sl).target).power.low = false →
       Gives (.bramClear p sl) s (fun t => Waits t p sl ∧ ∃ w, (t.region (s.req p sl).target).clearing =
         (s.region (s.req p sl).target).clearing ++ [([(s.req p sl).arg 8 2], w)])) ∧
     (∀ (r : Fin 64) ms w rest, s.awake = true → (s.region r.val).clearing = (ms, w) :: rest →
       (s.region r.val).power.low = false →
       Gives (.bramClearComplete r) s (fun t => (t.region r.val).clearing = rest ∧
         ∀ k ∈ ms, (t.bram (256 * r.val + k)).words = [] ∧ (t.bram (256 * r.val + k)).injected = []))) ∧
  (∀ (s : State) (p : Port) (sl : Fin 4),
     (∀ first n, Granted ingotConflictsSpec s p sl → (s.req p sl).argByte 8 = first → (s.req p sl).argByte 9 = n →
       1 ≤ n → n ≤ 56 → first + n ≤ 96 → (s.req p sl).argByte 10 = 0 →
       Gives (.ingotConflicts p sl) s (fun t => t.ingot = s.ingot ∧ Answered s t p sl stOk
         ((List.range n).map (fun i => (16 + 4 * i, 4, tget 0 s.ingot.conflicts (first + i)))))) ∧
     (∀ first n, Granted ingotConflictsSpec s p sl → (s.req p sl).argByte 8 = first → (s.req p sl).argByte 9 = n →
       1 ≤ n → n ≤ 56 → first + n ≤ 96 → (s.req p sl).argByte 10 = 1 → (p = .mb0 ∨ p = .mb1) →
       Gives (.ingotConflicts p sl) s (fun t => (∀ i < n, tget 0 t.ingot.conflicts (first + i) = 0) ∧
         ∀ k, (k < first ∨ first + n ≤ k) → tget 0 t.ingot.conflicts k = tget 0 s.ingot.conflicts k)) ∧
     (Granted ingotBanksSpec s p sl → (s.req p sl).queryFlag = true →
       Gives (.ingotBanks p sl) s (fun t => Answered s t p sl stOk (ingotResults s) ∧ t.ingot = s.ingot)) ∧
     (∀ b, Granted ingotBanksSpec s p sl → (s.req p sl).queryFlag = false → (s.req p sl).argByte 8 = 1 →
       (s.req p sl).argByte 9 = b → b < 64 → s.activeBanks.length ≠ 1 → s.ingot.retired.contains b = false →
       s.ingot.change = none →
       Gives (.ingotBanks p sl) s (fun t => Waits t p sl ∧ t.ingot.retired = s.ingot.retired ∧
         ∃ w, t.ingot.change = some (true, b, w))))

/-! ### DSP engines (chapter 9) -/

/-- Branches, calls and returns: the target issues after the two delay slots (R229, R231). -/
def Obligations.BranchesComplete : Prop :=
  ∀ (s : State) (e : Fin 2048) (b : BitVec 64) (t : BitVec 11) (r : BitVec 32),
    t = BitVec.ofNat 11 (bf b 43 11) → r = (s.finds e.val).dreg (bf b 54 4) →
    (CalmLegal s e.val .b b → Gives (.b e) s (fun u => (u.engine e.val).pc = (s.engine e.val).pc + 1 ∧
      (u.engine e.val).delay = 2 ∧ (u.engine e.val).target = t)) ∧
    (CalmLegal s e.val .call b → Gives (.call e) s (fun u => (u.engine e.val).lr = (s.engine e.val).pc + 3 ∧
      (u.engine e.val).delay = 2 ∧ (u.engine e.val).target = t)) ∧
    (CalmLegal s e.val .ret b → Gives (.ret e) s (fun u => (u.engine e.val).delay = 2 ∧
      (u.engine e.val).target = (s.engine e.val).lr)) ∧
    (CalmLegal s e.val .beqz b → Gives (.beqz e) s (fun u => (u.engine e.val).pc = (s.engine e.val).pc + 1 ∧
      (u.engine e.val).delay = (if r = 0 then 2 else 0) ∧ (r = 0 → (u.engine e.val).target = t))) ∧
    (CalmLegal s e.val .bnez b → Gives (.bnez e) s (fun u => (u.engine e.val).pc = (s.engine e.val).pc + 1 ∧
      (u.engine e.val).delay = (if r = 0 then 0 else 2) ∧ (r ≠ 0 → (u.engine e.val).target = t))) ∧
    (CalmLegal s e.val .bltz b → Gives (.bltz e) s (fun u => (u.engine e.val).pc = (s.engine e.val).pc + 1 ∧
      (u.engine e.val).delay = (if r.toInt < 0 then 2 else 0) ∧ (r.toInt < 0 → (u.engine e.val).target = t))) ∧
    (CalmLegal s e.val .bgez b → Gives (.bgez e) s (fun u => (u.engine e.val).pc = (s.engine e.val).pc + 1 ∧
      (u.engine e.val).delay = (if 0 ≤ r.toInt then 2 else 0) ∧ (0 ≤ r.toInt → (u.engine e.val).target = t))) ∧
    (CalmLegal s e.val .bdec b → Gives (.bdec e) s (fun u =>
      (u.engine e.val).landing = (s.finds e.val).landing ++ [(1, .dreg (bf b 54 4) (r - 1))] ∧
      (u.engine e.val).delay = (if r - 1 = 0 then 0 else 2) ∧ (r - 1 ≠ 0 → (u.engine e.val).target = t))) ∧
    (CalmLegal s e.val .reti b → Gives (.reti e) s (fun u => (u.engine e.val).delay = 2 ∧
      (u.engine e.val).target = (s.engine e.val).intret ∧ (u.engine e.val).retiDue = true))

/-- The other operations of formats 01, 10 and 11 (R229, R230, R233, R243 to R245). -/
def Obligations.SystemOperationsComplete : Prop :=
  ∀ (s : State) (e : Fin 2048) (b : BitVec 64),
    (CalmLegal s e.val .limm b → Gives (.limm e) s (fun u => (u.engine e.val).pc = (s.engine e.val).pc + 1 ∧
      (u.engine e.val).landing =
        (s.finds e.val).landing ++ [(1, .dreg (bf b 54 4) (BitVec.ofNat 32 (bf b 0 32)))])) ∧
    (∀ n : BitVec 16, CalmLegal s e.val .loop b →
      n = (if b.getLsbD 59 then ((s.finds e.val).dreg (bf b 21 4)).extractLsb' 0 16 else BitVec.ofNat 16 (bf b 21 16)) →
      n ≠ 0 →
      Gives (.loop e) s (fun u => lget 0 (u.engine e.val).ls (bf b 60 2) = BitVec.ofNat 11 (bf b 48 11) ∧
        lget 0 (u.engine e.val).le (bf b 60 2) = BitVec.ofNat 11 (bf b 37 11) ∧
        lget 0 (u.engine e.val).lc (bf b 60 2) = n ∧ (u.engine e.val).lctl = BitVec.ofNat 3 (2 ^ bf b 60 2))) ∧
    (CalmLegal s e.val .nop b → Gives (.nop e) s (fun u => (u.engine e.val).pc = (s.engine e.val).pc + 1 ∧
      (u.engine e.val).d = (s.finds e.val).d ∧ (u.engine e.val).cycle = (s.engine e.val).cycle + 1)) ∧
    (CalmLegal s e.val .halt b → Gives (.halt e) s (fun u => (u.engine e.val).st = .halted ∧
      (u.engine e.val).landing = [] ∧ (u.engine e.val).d = ((s.engine e.val).advance.landAll).d)) ∧
    (CalmLegal s e.val .waiti b → Gives (.waiti e) s (fun u => (u.engine e.val).pc = (s.engine e.val).pc + 1 ∧
      (u.engine e.val).waiting = ((s.finds e.val).pendNow &&& (s.engine e.val).imask == 0#8))) ∧
    (CalmLegal s e.val .ei b → Gives (.ei e) s (fun u => (u.engine e.val).ie = true ∧
      (u.engine e.val).pc = (s.engine e.val).pc + 1)) ∧
    (CalmLegal s e.val .di b → Gives (.di e) s (fun u => (u.engine e.val).ie = false ∧
      (u.engine e.val).pc = (s.engine e.val).pc + 1)) ∧
    (CalmLegal s e.val .sig b → Gives (.sig e) s (fun u => (u.engine e.val).evt = true ∧
      (u.engine e.val).pc = (s.engine e.val).pc + 1)) ∧
    (Calm s e.val .reserved b → Gives (.reservedBranchOrSystemOp e) s (fun u =>
      (u.engine e.val).istat.extractLsb' 4 4 = 1#4 ∧
      (u.engine e.val).st =
        (if (s.finds e.val).ie && (s.engine e.val).imask.getLsbD 0 then EngSt.running else .fault)))

/-- A bundle of format 00 (R222, R224, R227, R228): the MAC slot's accumulators, and the move slot's results. -/
def Obligations.BundlesComplete : Prop :=
  ∀ (s : State) (e : Fin 2048) (b : BitVec 64), CalmLegal s e.val .slots b →
    ∀ x : Engine, x = s.finds e.val →
    (bf b 26 6 = 0 → Gives (.bundle e) s (fun u => (u.engine e.val).pc = x.pc + 1 ∧
      (u.engine e.val).accNow = (x.macSlot b).accNow ∧ (u.engine e.val).landing = (x.macSlot b).landing ∧
      (u.engine e.val).cycle = x.cycle + 1)) ∧
    (bf b 58 4 = 0 → bf b 26 6 = 0x11 → Gives (.bundle e) s (fun u => (u.engine e.val).landing = x.landing ++
      [(1, .dreg (bf b 22 4) (x.dreg (bf b 18 4) + x.dreg (bf b 14 4)))])) ∧
    (bf b 58 4 = 0 → bf b 26 6 = 0x17 → Gives (.bundle e) s (fun u => (u.engine e.val).landing = x.landing ++
      [(1, .dreg (bf b 22 4) ((BitVec.ofNat 16 (bf b 0 16)).signExtend 32))])) ∧
    (∀ a : BitVec 15, bf b 58 4 = 0 → bf b 26 6 = 0x01 → a = lget 0 x.a (bf b 20 3) →
      (x.readWord false (a.toNat / 8)).2 = .clean → Gives (.bundle e) s (fun u => (u.engine e.val).landing = x.landing ++
        [(2, .dreg (2 * bf b 23 3) ((x.readWord false (a.toNat / 8)).1.extractLsb' 0 32)),
         (2, .dreg (2 * bf b 23 3 + 1) ((x.readWord false (a.toNat / 8)).1.extractLsb' 32 32))])) ∧
    (∀ a : BitVec 15, bf b 58 4 = 0 → bf b 26 6 = 0x03 → a = lget 0 x.a (bf b 20 3) →
      Gives (.bundle e) s (fun u => tget 0 (u.engine e.val).data (a.toNat / 8) = x.pair (bf b 23 3) ∧
        ∀ k, k ≠ a.toNat / 8 → tget 0 (u.engine e.val).data k = tget 0 (s.engine e.val).data k)) ∧
    (bf b 58 4 = 0 → bf b 26 6 = 0x25 → bf b 16 6 = 0x2B → Gives (.bundle e) s (fun u =>
      (u.engine e.val).treload = x.dreg (bf b 22 4))) ∧
    (bf b 58 4 = 0 → bf b 26 6 = 0x29 → bf b 22 1 = 0 → Gives (.bundle e) s (fun u =>
      (u.engine e.val).out0 = x.out0 ++ [x.pair (bf b 23 3)]))

/-- Interrupts, waits, the timer, DMA and the fabric interface (R236, R238, R240, R245, Table 9.10). -/
def Obligations.EngineEventsComplete : Prop :=
  ∀ (s : State) (e : Fin 2048),
    (interrupts s e.val = true → Gives (.interruptEntry e) s (fun t =>
      (t.engine e.val).intret = (s.engine e.val).pc ∧ (t.engine e.val).ie = false ∧ (t.engine e.val).waiting = false ∧
      (t.engine e.val).pc = (s.engine e.val).vbase + BitVec.ofNat 11 (8 * (s.engineNow e.val).lowestSource))) ∧
    (engineClocked s e.val = true → (s.engine e.val).st = .running → (s.engine e.val).waiting = true →
      (s.engineNow e.val).canInterrupt = false → ((s.engineNow e.val).pendNow &&& (s.engine e.val).imask) ≠ 0#8 →
      Gives (.waitiResume e) s (fun t => (t.engine e.val).waiting = false ∧
        (t.engine e.val).pc = (s.engine e.val).pc)) ∧
    (engineClocked s e.val = true → (s.engine e.val).ctl.getLsbD 1 = true →
      (s.engine e.val).timer = 0 →
      Gives (.timerExpiry e) s (fun t => (t.engine e.val).ipend.getLsbD 3 = true ∧
        (t.engine e.val).timer = (s.engine e.val).treload)) ∧
    (∀ o ls d, s.awake = true → s.outst (.dsp e) 0 = some o → o.resp = some ls → (s.engine e.val).dmaActive = some d →
      d.toRunner = true → domainPaused (s.domain (domainOfRegion (e.val / 32))) = false →
      Gives (.dmaDone e) s (fun t => (t.engine e.val).dmaActive = (s.engine e.val).dmaQueued ∧
        (t.engine e.val).dmaQueued = none ∧ (t.engine e.val).ipend.getLsbD 4 = true ∧
        (t.engine e.val).dmaCode = dmaCodeOf ls ∧ ∀ x ∈ t.runner.outst, x.id ≠ o.id)) ∧
    (engineConnected s e.val = true → enginePin s e.val 132 = true → (s.engine e.val).bellWas = false →
      Gives (.doorbell e) s (fun t => (t.engine e.val).ipend.getLsbD 5 = true)) ∧
    (engineConnected s e.val = true → enginePin s e.val 133 = true → (s.engine e.val).startWas = false →
      (s.engine e.val).ctl.getLsbD 0 = true → (s.engine e.val).st = .halted →
      Gives (.start e) s (fun t => if s.dspPermitted (e.val / 32) = true
        then (t.engine e.val).st = .running ∧ (t.engine e.val).pc = (s.engine e.val).spc
        else (t.engine e.val).st = .pending ∧ (t.engine e.val).startAddr = (s.engine e.val).spc)) ∧
    (∀ k item, engineConnected s e.val = true → offers s e.val k item = true → (s.engine e.val).portWait = false →
      ((s.engine e.val).input k).length < 8 →
      Gives (.streamInputItem e k item) s (fun t => (t.engine e.val).input k = (s.engine e.val).input k ++ [item])) ∧
    (∀ k item rest, engineConnected s e.val = true → takesItem s e.val k = true → (s.engine e.val).portWait = false →
      (s.engine e.val).output k = item :: rest →
      Gives (.streamOutputItem e k) s (fun t => (t.engine e.val).output k = rest))

/-- The DSP commands (R242, R243, Tables 9.16 to 9.18). -/
def Obligations.DspCommandsComplete : Prop :=
  ∀ (s : State) (p : Port) (sl : Fin 4) (r : Nat) (mask : BitVec 32), (s.req p sl).target = r →
    mask = BitVec.ofNat 32 ((s.req p sl).arg 8 4) →
    (Granted dspStartSpec s p sl → (s.req p sl).arg 12 2 < 2048 → (s.req p sl).argByte 14 = 0 →
      (s.region r).quiescing = false → (s.region r).dragReset = false → (s.region r).power.low = false →
      domainPaused (s.domain (domainOfRegion r)) = false →
      Gives (.dspStart p sl) s (fun t => (t.slot p sl).st = .done ∧ ∀ j < 32, mask.getLsbD j = true →
        ((s.engine (32 * r + j)).st = .halted ∨ (s.engine (32 * r + j)).st = .fault) →
        if s.dspPermitted r = true then (t.engine (32 * r + j)).st = .running ∧
          (t.engine (32 * r + j)).pc = BitVec.ofNat 11 ((s.req p sl).arg 12 2)
        else (t.engine (32 * r + j)).st = .pending)) ∧
    (Granted dspHaltSpec s p sl → domainPaused (s.domain (domainOfRegion r)) = false → (s.region r).power.low = false →
      (s.region r).haltJobs = [] →
      (∀ j < 32, mask.getLsbD j = true → (s.engine (32 * r + j)).delay = 0 ∧ (s.engine (32 * r + j)).faultDue = false) →
      Gives (.dspHalt p sl) s (fun t => (t.slot p sl).st = .done ∧ ∀ j < 32, mask.getLsbD j = true →
        (t.engine (32 * r + j)).st = .halted ∨ (t.engine (32 * r + j)).st = .fault)) ∧
    (domainPaused (s.domain (domainOfRegion r)) = true → exec (.dspStart p sl) s = .next s ∧ exec (.dspHalt p sl) s = .next s) ∧
    (∀ j, Granted dspStatusSpec s p sl → (s.req p sl).argByte 8 = j → j < 32 → (s.region r).power.deep = false →
      Gives (.dspStatus p sl) s (fun t => t.dsp = s.dsp ∧ ∀ e : Engine, e = s.engineNow (32 * r + j) →
        Answered s t p sl stOk [(16, 1, e.st.code), (17, 1, e.istat.toNat), (18, 2, e.pc.toNat), (20, 1, e.stat.toNat),
          (21, 1, e.pendNow.toNat), (22, 1, e.imask.toNat), (23, 1, e.lctl.toNat), (24, 8, e.cycle.toNat),
          (32, 4, e.stalls), (36, 4, e.corrected),
          (40, 4, engineMask r (BitVec.allOnes 32) (fun x => decide (x = .running)) s),
          (44, 1, (s.domain (domainOfRegion r)).point)]))

/-! ### Thermal and ageing (chapter 17) -/

/-- The periodic events of chapter 17 (R250, R445, R452 to R455, R457).
The thermal and ageing commands (Tables 17.7 to 17.10). -/
def Obligations.ThermalComplete : Prop :=
  (∀ s : State,
     (∀ raw, s.dev.base ≠ .off → s.dev.base ≠ .standby →
       Gives (.sensorSample raw) s (fun t => (∀ i < 144, (t.therm.sensor i).raw = raw.getD i 0) ∧
         (s.dev.cooldown = true → (∀ i < 144, raw.getD i 0 ≤ 380) → t.therm.coolRun = s.therm.coolRun + 1) ∧
         (∀ i < 144, s.dev.cooldown = false → 1 ≤ (s.therm.sensor i).hot → 500 ≤ raw.getD i 0 →
           (t.therm.sensor i).broken = false → t.dev.cooldown = true ∧ t.dev.thermN = true))) ∧
     (∀ activity : List Activity, s.awake = true → Gives (.governorEstimate activity) s (fun t => ∀ r < 64,
       t.govern r = (s.govern r).estimate (activity.foldl (fun (n : Nat × Nat) a =>
         if a.region.val = r then (n.1 + (energyOf s a).1, n.2 + (energyOf s a).2) else n) (0, 0)))) ∧
     (s.awake = true → Gives .governorEvaluate s (fun t => ∀ r < 64,
       ((s.govern r).budget = none → t.govern r = s.govern r) ∧
       ∀ b, (s.govern r).budget = some b → budgetEnergy b < (s.govern r).power →
         (t.govern r).divided = true ∧ (t.govern r).withheld = true ∧
         (t.govern r).actions = min 4294967295 ((s.govern r).actions + 1))) ∧
     (∀ ratios, s.firmware = true → Gives (.ageingMeasurement ratios) s (fun t =>
       t.therm.measureCount = min 65535 (s.therm.measureCount + 1) ∧ t.therm.minSlack = [] ∧
       ∀ r l, ratios = [(r, l)] → (tget {} t.therm.measures r.val).ratios = l)) ∧
     (s.firmware = true → Gives .planUpdate s (fun t => t.clk.copePlan ≤ 60 ∧ t.clk.copePlan % 5 = 0 ∧
       ∀ d < 4, ∀ k < 4, lget 0 (t.domain d).plan k ≤ 9000 ∧
         (lget false (t.domain d).withdrawn k = true → lget 0 (t.domain d).plan k = 9000)))) ∧
  (∀ (s : State) (p : Port) (sl : Fin 4) (r : Nat), (s.req p sl).target = r →
     (∀ w h, Granted thermConfigSpec s p sl → (s.req p sl).queryFlag = false → r = 0xFFFF →
       (s.req p sl).argByte 8 = w → (s.req p sl).argByte 9 = h → 60 ≤ w → w ≤ 115 → 70 ≤ h → h ≤ 120 → w + 10 ≤ h →
       Gives (.thermConfig p sl) s (fun t => t.therm.warnAt = w ∧ t.therm.throttleAt = h ∧
         t.therm.ec = (if (s.req p sl).arg 10 2 = 0 then s.therm.ec else (s.req p sl).arg 10 2) ∧
         Answered s t p sl stOk (thermSettings t))) ∧
     (∀ b, Granted thermConfigSpec s p sl → (s.req p sl).queryFlag = false → r < 64 → (s.req p sl).arg 8 2 = b →
       (b = 0xFFFF ∨ (5 ≤ b ∧ b ≤ 100)) →
       Gives (.thermConfig p sl) s (fun t => (t.govern r).budget = (if b = 0xFFFF then none else some b) ∧
         Answered s t p sl stOk (budgetSetting r t))) ∧
     (∀ a n, Granted thermReadSpec s p sl → (s.req p sl).argByte 8 = a → (s.req p sl).argByte 9 = n → 1 ≤ n → n ≤ 72 →
       a + n ≤ 144 →
       Gives (.thermRead p sl) s (fun t => t.therm = s.therm ∧ Answered s t p sl stOk ((16, 4, thermState s) ::
         (List.range n).map (fun i => (20 + 3 * i, 3, sensorField s.therm (a + i)))))) ∧
     (Granted thermSensorSpec s p sl → (s.req p sl).argByte 8 = 1 → (s.therm.sensor r).broken = true →
       Gives (.thermSensor p sl) s (fun t => (t.therm.sensor r).broken = false ∧
         (t.therm.sensor r).raw = (s.therm.sensor r).raw ∧ Answered s t p sl stOk [(16, 1, 0)])) ∧
     (Granted ageingPlanSpec s p sl → (s.req p sl).argByte 8 = 0 →
       Gives (.ageingPlan p sl) s (fun t => Answered s t p sl stOk (planResults s) ∧ t.therm = s.therm)) ∧
     (Granted ageingPlanSpec s p sl → (s.req p sl).argByte 8 = 2 →
       Gives (.ageingPlan p sl) s (fun t => t.therm.floorOut = [] ∧ (t.slot p sl).st = .done ∧
         ∀ k ∈ s.therm.floorOut, IsoCause.floor ∈ (t.region k).freeDue)))

/-! ### Self-test and bonds (chapters 1 and 18) -/

/-- Transfers, sweeps, slices and the full self-test (R11, R470, R471, R474, R478). -/
def Obligations.SelfTestEventsComplete : Prop :=
  ∀ s : State,
    (∀ b first second, s.awake = true → isBus b.bundle = true → busPowered s b = true → evenParity first = false →
      Gives (.busTransfer b first second) s (fun t => (t.bond b.region.val b.bundle).queued = true ∧
        tget 0 t.bonds.repeats b.region.val = min 4294967295 (tget 0 s.bonds.repeats b.region.val + 1))) ∧
    (∀ b f, maySweep s b = true → bundleExists b.bundle = true → f.region = b.region → f.bundle = b.bundle → f.wrong = true →
      f.position.val < bondsCarried b.bundle → (s.bond b.region.val b.bundle).failing.contains f.position.val = false →
      (s.bond b.region.val b.bundle).weak.contains f.position.val = false →
      (s.bond b.region.val b.bundle).steered.length < bondSpares b.bundle →
      Gives (.busSweep b [f]) s (fun t => (t.bond b.region.val b.bundle).queued = false ∧
        (t.bond b.region.val b.bundle).steered = (s.bond b.region.val b.bundle).steered ++ [f.position.val])) ∧
    (∀ (r : Fin 64) j failing, s.awake = true → (s.region r.val).slice = some j → j.running = true →
      Gives (.sliceEnd r failing false) s (fun t => (t.region r.val).slice = none ∧
        lget 0 (t.test r.val).results j.slice = 3 ∧
        (t.test r.val).incompletes = min 4294967295 ((s.test r.val).incompletes + 1))) ∧
    (∀ (r : Fin 64) j, s.awake = true → (s.region r.val).slice = some j → j.running = true →
      Gives (.sliceEnd r [] true) s (fun t => (t.region r.val).slice = none ∧
        lget 0 (t.test r.val).results j.slice = 1 ∧
        (t.test r.val).passes = min 4294967295 ((s.test r.val).passes + 1))) ∧
    (∀ (r : Fin 64) j failing, s.awake = true → (s.region r.val).slice = some j → j.running = true →
      comparedFailing (s.region r.val).tested j.slice failing ≠ [] →
      Gives (.sliceEnd r failing true) s (fun t => (t.region r.val).slice = none ∧
        lget 0 (t.test r.val).results j.slice = 2 ∧ IsoCause.slice ∈ (t.region r.val).iso ∧
        (t.test r.val).repeatDue = some (j.slice, j.pattern))) ∧
    (∀ (r : Fin 64) failing terminal k pat, s.firmware = true → (s.test r.val).repeatDue = some (k, pat) →
      (s.region r.val).power = .active →
      Gives (.sliceRepeat r failing terminal) s (fun t => (t.test r.val).repeatDue = none ∧
        (terminal = false → lget 0 (t.test r.val).results k = 3))) ∧
    (∀ results findings, s.awake = true → s.dev.base = .test → s.bonds.fullTest = true →
      Gives (.testComplete results findings) s (fun t => t.bonds.fullTest = false ∧
        ∀ r < 64, tget 0 t.bonds.sweepTick r = s.tick.number))

/-- The commands of self-test and bonds (Tables 18.4 to 18.7). -/
def Obligations.SelfTestCommandsComplete : Prop :=
  ∀ (s : State) (p : Port) (sl : Fin 4) (r : Nat), (s.req p sl).target = r →
    (Granted selftestConfigSpec s p sl → (s.req p sl).queryFlag = true →
      Gives (.selftestConfig p sl) s (fun t => Answered s t p sl stOk (selftestResults s) ∧ t.bonds = s.bonds)) ∧
    (∀ iv sw, Granted selftestConfigSpec s p sl → (s.req p sl).queryFlag = false → (s.req p sl).argByte 8 = 0 →
      (s.req p sl).arg 10 2 = iv → (s.req p sl).arg 12 2 = sw → 1 ≤ iv → 1 ≤ sw → sw ≤ 3600 →
      Gives (.selftestConfig p sl) s (fun t => t.bonds.enabled = false ∧ t.bonds.interval = iv ∧
        t.bonds.sweepPeriod = sw ∧ t.bonds.patterns = [] ∧ Answered s t p sl stOk (selftestResults t))) ∧
    (∀ k pat, Granted selftestRunSpec s p sl → (s.req p sl).argByte 8 = k → (s.req p sl).argByte 9 = pat → k < 8 →
      pat < 4 → (s.region r).slice = none → (s.region r).fill = none → (testPlane s r pat).isSome = true →
      (s.region r).power = .active → (s.region r).retired = false → (s.region r).iso = [] →
      Gives (.selftestRun p sl) s (fun t => Waits t p sl ∧
        ∃ w, (t.region r).slice = some { slice := k, pattern := pat, waiter := some w })) ∧
    (Granted selftestStatusSpec s p sl → (s.req p sl).argByte 8 = 0 →
      Gives (.selftestStatus p sl) s (fun t => Answered s t p sl stOk (selftestStatusResults r s) ∧ t.bonds = s.bonds)) ∧
    (Granted selftestStatusSpec s p sl → (s.req p sl).argByte 8 = 1 → ownView (s.req p sl) (ownKey 0 r) s = .mine →
      Gives (.selftestStatus p sl) s (fun t => Answered s t p sl stOk (selftestStatusResults r s) ∧
        (t.test r).passes = 0 ∧ (t.test r).fails = 0 ∧ (t.test r).incompletes = 0 ∧ (t.test r).excluded = 0)) ∧
    (Granted bondStatusSpec s p sl →
      Gives (.bondStatus p sl) s (fun t => Answered s t p sl stOk (bondResults r s) ∧ t.bonds = s.bonds))

/-! ### Serial lanes (chapter 10) -/

/-- A lane's way from STARTING to UP and back, and its training (R264, R269, R271, R275, R276, Table 10.5). -/
def Obligations.LaneStatesComplete : Prop :=
  ∀ (s : State) (lane : Fin 96) (l : Nat), l = lane.val →
    (∀ (g : Fin 12) (pll : Fin 2), s.awake = true → Gives (.lanePllLocked g pll) s (fun t => ∀ i < 8,
      laneRuns s (8 * g.val + i) = true → (s.lane (8 * g.val + i)).pll = pll.val →
      (t.lane (8 * g.val + i)).pllLocked = true)) ∧
    (∀ (g : Fin 12) (pll : Fin 2) (k : Fin 8), laneRuns s (8 * g.val + k.val) = true →
      (s.lane (8 * g.val + k.val)).pll = pll.val → (s.lane (8 * g.val + k.val)).pllLocked = true →
      Gives (.lanePllLockLost g pll) s (fun t => (t.lane (8 * g.val + k.val)).pllLocked = false ∧
        (t.lane (8 * g.val + k.val)).st = .starting)) ∧
    (laneRuns s l = true → (s.lane l).pllLocked = true → (s.lane l).cdrLocked = false → (s.lane l).st = .starting →
      Gives (.cdrLocked lane) s (fun t => (t.lane l).cdrLocked = true ∧ (t.lane l).st =
        if (s.lane l).cfg.training ≠ 0 then LaneSt.training else if (s.lane l).cfg.coding = 0 then .up else .locking)) ∧
    (laneRuns s l = true → (s.lane l).st = .locking → (s.lane l).rx.synced = true →
      Gives (.laneLockAcquired lane) s (fun t => (t.lane l).st = .up)) ∧
    (laneRuns s l = true → (s.lane l).st = .up → (s.lane l).cfg.coding ≠ 0 → (s.lane l).rx.synced = false →
      Gives (.laneLockLost lane) s (fun t =>
      ((t.lane l).st = .locking ∨ (inLink s l = true ∧ (t.lane l).st = .starting)) ∧
      lget 0 (t.lane l).counters 4 = min 4294967295 (lget 0 (s.lane l).counters 4 + 1))) ∧
    (laneRuns s l = true → (s.lane l).st = .up → Gives (.laneSignalLost lane) s (fun t => (t.lane l).st = .starting)) ∧
    (∀ control status, laneRuns s l = true → (s.lane l).st = .training → ctlValid control = true →
      Gives (.trainingFrame lane control status) s (fun t =>
        (t.lane l).partnerReady = (if status.getLsbD 4 then (s.lane l).partnerReady + 1 else 0) ∧
        (ctlPreset control ≠ 0 → (s.lane l).status.extractLsb' 5 2 = 0 →
          (t.lane l).taps = presetTaps (ctlPreset control)))) ∧
    (laneRuns s l = true → (s.lane l).st = .training → (s.lane l).framesLeft.isSome = true →
      Gives (.trainingDone lane) s (fun t => (t.lane l).trainResult = 1 ∧
        (t.lane l).st = if (s.lane l).cfg.coding = 0 then LaneSt.up else .locking)) ∧
    (laneRuns s l = true → (s.lane l).st = .training → Gives (.trainingTimeout lane) s (fun t =>
      if (s.lane l).cfg.training = 2 then (t.lane l).trainResult = 2 ∧ (t.lane l).taps = (s.lane l).cfg.taps ∧
        (t.lane l).st = if (s.lane l).cfg.coding = 0 then LaneSt.up else .locking
      else (t.lane l).st = .starting))

/-- What a lane counts, scans, receives and sends (R266 to R268, R277, R283, R285, R287). -/
def Obligations.LaneTrafficCompletes : Prop :=
  ∀ (s : State) (lane : Fin 96) (l : Nat), l = lane.val →
    (∀ counts, s.awake = true → (s.lane l).scan.isSome = true →
      Gives (.eyescanComplete lane counts) s (fun t => (t.lane l).scan = none)) ∧
    (s.awake = true → (s.lane l).injectLeft ≠ 0 → Gives (.injectError lane) s (fun t =>
      (t.lane l).injectLeft = (s.lane l).injectLeft - 1 ∧ (t.lane l).flipped = (s.lane l).flipped + 1)) ∧
    (s.awake = true → (s.lane l).chk ≠ 0 → (s.lane l).chkLocked = false → 64 ≤ (s.lane l).chkRun →
      Gives (.prbsCheckerLock lane) s (fun t => (t.lane l).chkLocked = true)) ∧
    (s.awake = true → (s.lane l).chk ≠ 0 → (s.lane l).chkLocked = true →
      256 < (s.lane l).chkHist.countP id →
      Gives (.prbsCheckerLockLost lane) s (fun t => (t.lane l).chkLocked = false ∧ (t.lane l).chkRun = 0)) ∧
    (∀ n upper lower line, line = lineLevels n upper lower → receiving s l = true → (s.lane l).st = .locking →
      Gives (.laneReceiveUnit lane n upper lower) s (fun t =>
      (t.lane l).rx = ((s.lane l).decode l (freshNat s) line).1.rx ∧ (t.lane l).units = (s.lane l).units)) ∧
    (∀ n upper lower line, line = lineLevels n upper lower → receiving s l = true → (s.lane l).st = .up →
      (s.lane l).cfg.mode = .queue → sprueCredit s (s.lane l).cfg.rxQueue 1 = true →
      (s.lane l).units.length + ((s.lane l).decode l (freshNat s) line).2.units.length < 7 →
      Gives (.laneReceiveUnit lane n upper lower) s (fun t => (t.lane l).rx = ((s.lane l).decode l (freshNat s) line).1.rx ∧
        (t.lane l).units = (s.lane l).units ++ ((s.lane l).decode l (freshNat s) line).2.units.map (·.1))) ∧
    (∀ n upper lower line, line = lineLevels n upper lower → receiving s l = true → (s.lane l).st = .up →
      (s.lane l).cfg.mode = .queue → (s.lane l).loopback = 0 → (s.lane l).cfg.coding = 0 →
      isPam4 (s.lane l).cfg.rate = false → (s.lane l).cfg.rxInvert = false → (s.lane l).rx.buf = [] →
      (s.lane l).rx.skip = 0 → line.length = 64 → sprueCredit s (s.lane l).cfg.rxQueue 1 = true → (s.lane l).units.length < 6 →
      Gives (.laneReceiveUnit lane n upper lower) s (fun t => (t.lane l).rx.buf = [] ∧ (t.lane l).units = (s.lane l).units ++
        [(BitVec.ofNat 64 (natOf (line.map (fun v => decide (2 ≤ v.val)))), 0)])) ∧
    (∀ n upper lower line, line = lineLevels n upper lower → receiving s l = true → (s.lane l).st = .up →
      (s.lane l).cfg.mode = .sprue → linkOfLane s l = none →
      Gives (.laneReceiveUnit lane n upper lower) s (fun t => (t.lane l).rx = ((s.lane l).decode l (freshNat s) line).1.rx ∧
        (t.lane l).flit = ((s.lane l).flit.take (s.lane l).cfg.coding
          (((s.lane l).decode l (freshNat s) line).2.units.map (·.1))).1)) ∧
    (laneRuns s l = true → (s.lane l).cfg.mode = .queue → (s.lane l).delivers = true → (s.lane l).units ≠ [] →
      sprueCredit s (s.lane l).cfg.rxQueue 1 = true → (s.queue (s.lane l).cfg.rxQueue).opened = [] →
      ptrFault (s.queue (s.lane l).cfg.rxQueue) = none →
      (∀ o ∈ s.runner.outst, o.heldPop ≠ some (s.lane l).cfg.rxQueue) →
      Gives (.laneFlushTimeout lane) s (fun t => (t.lane l).units = [] ∧ (t.lane l).gap = false ∧
        (t.queue (s.lane l).cfg.rxQueue).pushed = (s.queue (s.lane l).cfg.rxQueue).pushed + 1 ∧
        (t.queue (s.lane l).cfg.rxQueue).committedCnt = (s.queue (s.lane l).cfg.rxQueue).committedCnt + 1)) ∧
    (laneRuns s l = true → (s.lane l).st = .up → (s.lane l).cfg.mode = .queue →
      (s.queue (s.lane l).cfg.txQueue).committed = [] → ptrFault (s.queue (s.lane l).cfg.txQueue) = none →
      Gives (.laneTransmitItem lane) s (fun t => (t.lane l).txIdle = true ∧
        (t.lane l).sent = ((s.lane l).sendUnits l (freshNat s) [idleUnit (s.lane l).cfg]).sent ∧
        lget 0 (t.lane l).counters 6 = min 4294967295 (lget 0 (s.lane l).counters 6 + 1))) ∧
    (∀ it rest, laneRuns s l = true → (s.lane l).st = .up → (s.lane l).cfg.mode = .queue →
      (s.queue (s.lane l).cfg.txQueue).committed = it :: rest → it.bad = false →
      (s.queue (s.lane l).cfg.txQueue).enabled = true → (s.queue (s.lane l).cfg.txQueue).consumer = 69 →
      1 ≤ (s.queue (s.lane l).cfg.txQueue).headCount → ptrFault (s.queue (s.lane l).cfg.txQueue) = none →
      Gives (.laneTransmitItem lane) s (fun t => (t.lane l).txIdle = false ∧
        (t.lane l).sent = ((s.lane l).sendUnits l (freshNat s) (itemUnits (s.lane l).cfg it.bytes).1).sent ∧
        (t.queue (s.lane l).cfg.txQueue).committed = rest ∧
        (t.queue (s.lane l).cfg.txQueue).popped = (s.queue (s.lane l).cfg.txQueue).popped + 1)) ∧
    (laneRuns s l = true → (s.lane l).st = .test → (s.lane l).gen ≠ 0 →
      Gives (.laneTransmitItem lane) s (fun t => t.lane l = (s.lane l).sendPattern 64 ∧ t.riser = s.riser)) ∧
    (∀ w h (k : Fin 6), s.firmware = true → laneRuns s l = true → (s.lane l).st = .up → (s.lane l).scan = none →
      Gives (.ageingEyescan lane w h k) s (fun t => (t.lane l).margin = some (w, h) ∧ (t.lane l).planned = k.val))

/-- The lane commands (Tables 10.13 to 10.20). -/
def Obligations.LaneCommandsComplete : Prop :=
  ∀ (s : State) (p : Port) (sl : Fin 4) (l : Nat), (s.req p sl).target = l → isPcieLane s l = false →
    (Granted laneConfigSpec s p sl → (s.req p sl).queryFlag = true →
      Gives (.laneConfig p sl) s (fun t => Answered s t p sl stOk (laneCfgResults l s) ∧ t.lanes = s.lanes)) ∧
    (Granted laneConfigSpec s p sl → (s.req p sl).queryFlag = false → (s.req p sl).argByte 8 = 0 →
      inLink s l = false → (s.lane l).st ≠ .test → (s.req p sl).atTick = false → (s.lane l).scan = none →
      Gives (.laneConfig p sl) s (fun t => (t.lane l).st = .off ∧ (t.lane l).cfg = {} ∧
        Answered s t p sl stOk (laneCfgResults l t))) ∧
    (Granted laneConfigSpec s p sl → (s.req p sl).queryFlag = false → laneArgsOk (s.req p sl) = true →
      (reqLaneCfg (s.req p sl)).mode ≠ .off → inLink s l = false → (s.lane l).st = .off → (s.lane l).scan = none →
      queueOnly (s.lane l).cfg (reqLaneCfg (s.req p sl)) = false → (s.req p sl).atTick = false →
      pllUsers s l = [] → (s.lane l).cfg.mode = .off →
      Gives (.laneConfig p sl) s (fun t => (t.lane l).st = .starting ∧ (t.lane l).cfg = reqLaneCfg (s.req p sl) ∧
        ((t.lane l).cfg.mode = .queue → (t.queue (t.lane l).cfg.rxQueue).producer = 69 ∧
          (t.queue (t.lane l).cfg.txQueue).consumer = 69) ∧
        Answered s t p sl stOk (laneCfgResults l t))) ∧
    (Granted laneStatusSpec s p sl → (s.req p sl).argByte 8 = 0 →
      Gives (.laneStatus p sl) s (fun t => Answered s t p sl stOk (laneStatusResults l s) ∧ t.lanes = s.lanes)) ∧
    (Granted laneStatusSpec s p sl → (s.req p sl).argByte 8 = 1 → ownView (s.req p sl) (ownKey 1 l) s = .mine →
      Gives (.laneStatus p sl) s (fun t => Answered s t p sl stOk (laneStatusResults l s) ∧
        (t.lane l).counters = .replicate 8 0)) ∧
    (Granted laneResetSpec s p sl → inLink s l = false → (s.lane l).cfg.mode ≠ .off → (s.lane l).scan = none →
      Gives (.laneReset p sl) s (fun t => Answered s t p sl stOk [] ∧ (t.lane l).st = .starting ∧
        (t.lane l).slips = 0 ∧ (t.lane l).units = [] ∧ (t.lane l).gap = true)) ∧
    (Granted laneSlipSpec s p sl → (s.req p sl).argByte 8 ≠ 0 → (s.lane l).cfg.isManual = true →
      Gives (.laneSlip p sl) s (fun t => (t.lane l).slips = ((s.lane l).slips + (s.req p sl).argByte 8) % 65536 ∧
        (t.lane l).gap = true ∧ (t.lane l).rx = (s.lane l).rx.slip
          ((s.req p sl).argByte 8 * (if isPam4 (s.lane l).cfg.rate then 2 else 1)) ∧
        Answered s t p sl stOk [(16, 2, (t.lane l).slips)])) ∧
    (Granted laneEyescanSpec s p sl → scanArgsOk s l (reqScan (s.req p sl)) = true → (s.lane l).scan = none →
      scanAllowed s l = true →
      Gives (.laneEyescan p sl) s (fun t => Waits t p sl ∧
        ∃ w, (t.lane l).scan = some { reqScan (s.req p sl) with waiter := some w })) ∧
    (Granted lanePrbsSpec s p sl → (s.req p sl).queryFlag = false → inLink s l = false →
      patternSuits (s.lane l).cfg.rate ((s.req p sl).argByte 8) = true →
      patternSuits (s.lane l).cfg.rate ((s.req p sl).argByte 9) = true → (s.req p sl).argByte 10 < 8 →
      testCombines ((s.req p sl).argByte 8) ((s.req p sl).argByte 9) (s.lane l).loopback = true →
      (s.req p sl).argByte 8 ≠ 0 → (s.lane l).scan = none →
      Gives (.lanePrbs p sl) s (fun t => (t.lane l).st = .test ∧ (t.lane l).gen = (s.req p sl).argByte 8 ∧
        (t.lane l).chk = (s.req p sl).argByte 9 ∧ Answered s t p sl stOk (prbsResults l t))) ∧
    (∀ n k, Granted laneInjectSpec s p sl → (s.req p sl).arg 10 2 = n → (s.req p sl).argByte 12 = k →
      (s.req p sl).argByte 8 ≤ 1 → 1 ≤ n → 10 ≤ k → k ≤ 40 → (s.lane l).st ≠ .off → (s.lane l).injectLeft = 0 →
      Gives (.laneInject p sl) s (fun t => Answered s t p sl stOk [] ∧ (t.lane l).injectLeft = n ∧
        (t.lane l).injectK = k ∧ (t.lane l).flipped = 0)) ∧
    (∀ d, Granted laneLoopbackSpec s p sl → (s.req p sl).queryFlag = false → (s.req p sl).argByte 8 = d → d ≠ 0 →
      depthFits (s.lane l) d = true → inLink s l = false → testCombines (s.lane l).gen (s.lane l).chk d = true →
      (s.lane l).scan = none →
      Gives (.laneLoopback p sl) s (fun t => (t.lane l).st = .test ∧ (t.lane l).loopback = d ∧
        Answered s t p sl stOk [(16, 1, d)]))

/-! ### Sprue links (chapter 11) -/

/-- The link commands (Tables 11.9 to 11.13). -/
def Obligations.LinkCommandsComplete : Prop :=
  ∀ (s : State) (p : Port) (sl : Fin 4) (l : Nat), (s.req p sl).target = l →
    (Granted linkConfigSpec s p sl → (s.req p sl).queryFlag = true →
      Gives (.linkConfig p sl) s (fun t => Answered s t p sl stOk (linkCfgResults l s) ∧ t.links = s.links)) ∧
    (Granted linkConfigSpec s p sl → (s.req p sl).queryFlag = false → (s.req p sl).argByte 8 = 0 →
      (∀ k ∈ (s.link l).prof.lanes, (s.lane k).scan = none) →
      Gives (.linkConfig p sl) s (fun t => (t.link l).st = .off ∧ Answered s t p sl stOk (linkCfgResults l t))) ∧
    (∀ pr, Granted linkConfigSpec s p sl → (s.req p sl).queryFlag = false → (s.req p sl).argByte 8 = 1 →
      profileOk (s.req p sl) = true → reqProfile (s.req p sl) = pr → s.sys.node ≠ noNode →
      (∀ k ∈ pr.lanes, isPcieLane s k = false ∧ (s.lane k).st = .off ∧ (s.lane k).cfg.mode = .off ∧
        (s.lane k).scan = none) →
      poolUsed s l + pr.alloc.foldl (· + ·) 0 ≤ 32768 → (s.link l).st = .off → (s.link l).prof.lanes = [] →
      (formLanes (s.link l).prof pr (takenState linkConfigSpec s p sl)).isSome = true →
      Gives (.linkConfig p sl) s (fun t => (t.link l).st = .starting ∧ (t.link l).prof = pr ∧
        (∀ k ∈ pr.lanes, (t.lane k).st = .starting ∧ (t.lane k).cfg.mode = .sprue) ∧
        Answered s t p sl stOk (linkCfgResults l t))) ∧
    (Granted linkStatusSpec s p sl → (s.req p sl).argByte 8 = 0 →
      Gives (.linkStatus p sl) s (fun t => Answered s t p sl stOk (linkStatusResults l s) ∧ t.links = s.links)) ∧
    (Granted linkStatusSpec s p sl → (s.req p sl).argByte 8 = 1 → ownView (s.req p sl) (ownKey 2 l) s = .mine →
      Gives (.linkStatus p sl) s (fun t => Answered s t p sl stOk (linkStatusResults l s) ∧
        (t.link l).counters = .replicate 16 0 ∧ (t.link l).st = (s.link l).st)) ∧
    (Granted linkResetSpec s p sl → (s.link l).prof.lanes ≠ [] →
      (∀ k ∈ (s.link l).prof.lanes, (s.lane k).cfg.mode = .sprue ∧ (s.lane k).scan = none) →
      ((s.link l).st = .down → Gives (.linkReset p sl) s (fun t => Answered s t p sl stOk [] ∧
        (t.link l).st = .starting ∧ ∀ k ∈ (s.link l).prof.lanes, (t.lane k).st = .starting ∧ (t.lane k).gen = 0)) ∧
      ((s.link l).st = .up → Gives (.linkReset p sl) s (fun t => Answered s t p sl stOk [] ∧ (t.link l).st = .starting ∧
        (t.link l).downCause = 7 ∧ (t.link l).replay = []))) ∧
    (∀ d, Granted linkLoopbackSpec s p sl → (s.req p sl).queryFlag = false → (s.req p sl).argByte 8 = d →
      d = 0 ∨ d = 5 ∨ d = 6 → (s.link l).st = .up →
      Gives (.linkLoopback p sl) s (fun t => Answered s t p sl stOk [(16, 1, d)] ∧ (t.link l).loopback = d ∧
        (t.link l).st = .up)) ∧
    (∀ c, Granted sprueQueueSpec s p sl → (s.req p sl).queryFlag = false → (s.req p sl).argByte 8 = 1 →
      (s.req p sl).arg 10 2 = c → c < 4096 → queueBusy s l = false →
      Gives (.sprueQueue p sl) s (fun t => (t.queue l).role = .send (some c) ∧ (t.queue l).consumer = 69 ∧
        (t.queue l).consHard = true ∧ (t.queue c).producer = 69 ∧ (t.queue c).prodHard = true ∧
        Answered s t p sl stOk (sprueRoleResults l t))) ∧
    (∀ a b, Granted sprueQueueSpec s p sl → (s.req p sl).queryFlag = false → (s.req p sl).argByte 8 = 2 →
      (s.req p sl).arg 12 4 = a → (s.req p sl).arg 16 4 = b → a ≤ b → b < noNode → queueBusy s l = false →
      Gives (.sprueQueue p sl) s (fun t => (t.queue l).role = .receive a b ∧ (t.queue l).producer = 69 ∧
        (t.queue l).prodHard = true ∧
        Answered s t p sl stOk (sprueRoleResults l t)))

/-- What an arriving flit of each type does (R300 to R306, R311, R321, R322, R324, R326). -/
def Obligations.FlitsComplete : Prop :=
  ∀ (s : State) (k : Fin 48) (lane : Fin 8) (f : Line) (l : Nat), l = k.val →
    (flitArrives s l lane.val 1 f = true → flitSeq f = (s.link l).expect → (s.link l).rxHeld = [] →
      Gives (.data k lane f) s (fun t => (t.link l).expect = ((s.link l).expect + 1) % 4096 ∧ (t.link l).nakOut = false)) ∧
    (flitArrives s l lane.val 1 f = true → flitSeq f ≠ (s.link l).expect →
      aheadOf (flitSeq f) (s.link l).expect = false →
      Gives (.data k lane f) s (fun t => (t.link l).expect = (s.link l).expect ∧
        lget 0 (t.link l).counters 5 = min 4294967295 (lget 0 (s.link l).counters 5 + 1))) ∧
    (flitArrives s l lane.val 1 f = true → flitSeq f ≠ (s.link l).expect →
      aheadOf (flitSeq f) (s.link l).expect = true → (s.link l).nakOut = false → (s.link l).prof.width = 1 →
      Gives (.data k lane f) s (fun t => (t.link l).expect = (s.link l).expect ∧ (t.link l).nakDue = true)) ∧
    (flitArrives s l lane.val 2 f = true → Gives (.linkctl k lane f) s (fun t => (t.link l).helloing = false ∧
      ∀ v < 8, v ≠ flitCvc f → ((t.link l).txOf v).limit =
        if aheadOf (fieldOf (flitPayload f) (2 * v) 2 % 4096) ((s.link l).txOf v).limit then
          fieldOf (flitPayload f) (2 * v) 2 % 4096 else ((s.link l).txOf v).limit)) ∧
    (flitArrives s l lane.val 3 f = true → (s.link l).ackCount (flitAck f) = 0 → (s.link l).replay ≠ [] →
      (s.link l).replayAt = none → (s.link l).replayCount < 15 →
      Gives (.nak k lane f) s (fun t => (t.link l).replayAt = some 0 ∧
        (t.link l).replayFrom = (flitAck f + 1) % 4096 ∧ (t.link l).replay = (s.link l).replay ∧
        (t.link l).replayCount = (s.link l).replayCount + 1)) ∧
    (s.awake = true → (s.link l).st = .hello → (s.link l).active.testBit lane.val = true →
      goodFlit 4 f = true → helloFault s l (flitPayload f) = none →
      Gives (.hello k lane f) s (fun t => if (fieldOf (flitPayload f) 8 1).testBit 0 then
          (t.link l).st = .up ∧ (t.link l).partner = fieldOf (flitPayload f) 0 4 ∧ (t.link l).nextSeq = 0 ∧
            (t.link l).expect = 0 ∧ (∀ v < 8, ((t.link l).txOf v).limit = fieldOf (flitPayload f) (12 + 2 * v) 2)
        else (t.link l).st = .hello ∧ (t.link l).seen = true)) ∧
    (flitArrives s l lane.val 5 f = true → s.sys.role ≠ .none → timeValid (flitPayload f) = true →
      Gives (.time k lane f) s (fun t => (t.link l).timeRx = some (flitPayload f, s.env.now) ∧
        (t.link l).timeInTick = true ∧ t.sys.timeRx = min 4294967295 (s.sys.timeRx + 1))) ∧
    (flitArrives s l lane.val 6 f = true → fieldOf (flitPayload f) 0 1 = 1 →
      Gives (.loopFlit k lane f) s (fun t => (t.link l).loopPartner = true)) ∧
    (flitArrives s l lane.val 6 f = true → fieldOf (flitPayload f) 0 1 = 3 → (s.link l).loopback ≠ 5 →
      (s.link l).loopPartner = true → Gives (.loopFlit k lane f) s (fun t =>
        (t.link l).loopReturn = (s.link l).loopReturn ++ [(lane.val, f)])) ∧
    (flitArrives s l lane.val 7 f = true → Gives (.down k lane f) s (fun t => (t.link l).st = .down ∧
      (t.link l).downCause = 4 ∧ (t.link l).active = 0 ∧ (t.link l).replay = [])) ∧
    (∀ why i, s.awake = true → (s.link l).st = .up → (s.link l).active.testBit lane.val = true →
      ((why = .crc ∧ i = 2 ∧ crcPasses f = false) ∨ (why = .framing ∧ i = 3) ∨
        (why = .malformed ∧ i = 4 ∧ crcPasses f = true ∧ isMalformedFlit f = true)) →
      Gives (.flitDiscarded k lane why f) s (fun t =>
        lget 0 (t.link l).counters i = min 4294967295 (lget 0 (s.link l).counters i + 1) ∧
        (t.link l).expect = (s.link l).expect ∧ (t.link l).replay = (s.link l).replay))

/-- What the link timers do (R303 to R305, R308, R319, R320, R324, R325). -/
def Obligations.LinkTimersComplete : Prop :=
  ∀ (s : State) (k : Fin 48) (l : Nat), l = k.val →
    ((s.link l).st = .up → (s.link l).gapTo.isSome = true → (s.link l).nakOut = false →
      Gives (.gapSkewTimeout k) s (fun t => (t.link l).nakDue = true ∧ (t.link l).nakOut = true ∧ (t.link l).rxHeld = [])) ∧
    ((s.link l).st = .up → (s.link l).nakOut = true → (s.link l).nakDue = false →
      Gives (.nakReplayTimeout k) s (fun t => (t.link l).nakDue = true)) ∧
    ((s.link l).st = .up → (s.link l).replay ≠ [] → (s.link l).replayAt = none → (s.link l).replayCount < 15 →
      Gives (.replayTimeout k) s (fun t => (t.link l).replayAt = some 0 ∧
        (t.link l).replayFrom = (s.link l).oldest % 4096 ∧ (t.link l).st = .up)) ∧
    ((s.link l).st = .up → (s.link l).replay ≠ [] → (s.link l).replayAt = none → 15 ≤ (s.link l).replayCount →
      Gives (.replayTimeout k) s (fun t => (t.link l).st = .down ∧ (t.link l).downCause = 2)) ∧
    (s.awake = true → (s.link l).st = .up → Gives (.linkTimeout k) s (fun t => (t.link l).st = .down ∧ (t.link l).downCause = 3 ∧
      (t.link l).replay = [] ∧
      lget 0 (t.link l).counters 10 = min 4294967295 (lget 0 (s.link l).counters 10 + 1))) ∧
    ((s.link l).st = .down → s.awake = true → Gives (.linkBackoffEnd k) s (fun t =>
      ((t.link l).st = if allLanesUp s l then LinkSt.hello else .starting) ∧
      (t.link l).backoffMs = if (s.link l).stable then (s.link l).backoffMs else min 1024 (2 * (s.link l).backoffMs))) ∧
    ((s.link l).st = .up → (s.link l).stable = false →
      Gives (.linkUpStable k) s (fun t => (t.link l).backoffMs = 1 ∧ (t.link l).stable = true)) ∧
    ((s.link l).st = .starting ∨ (s.link l).st = .hello →
      Gives (.linkFormationTimeout k) s (fun t => (t.link l).st = .down ∧ (t.link l).downCause = 3)) ∧
    ((s.link l).st = .starting → (s.link l).prof.degrade = true → upMask s l ≠ 0 →
      Gives (.startingDegradeTimeout k) s (fun t => (t.link l).st = .hello ∧ (t.link l).active = upMask s l)) ∧
    (s.awake = true → (s.link l).st = .hello → maskLanes (upMask s l) ≠ [] →
      Gives (.helloInterval k) s (fun t => (t.link l).st = .hello ∧ (t.link l).lastTx = s.env.now)) ∧
    (∀ (j : Fin 49) (vc : Fin 8) q, j.val = l → (s.link l).st = .up → ((s.link l).rxOf vc.val).arrive = .credit q →
      ((s.link l).rxOf vc.val).wait = [] →
      sprueCredit s q (packetItems (hdrLen ((s.link l).rxOf vc.val).header)) = false →
      Gives (.messageCreditTimeout j vc) s (fun t => ((t.link l).rxOf vc.val).arrive = .sink ∧
        lget 0 (t.link l).counters 11 = min 4294967295 (lget 0 (s.link l).counters 11 + 1))) ∧
    (∀ (vc : Fin 8) h body, s.awake = true → (∀ q, ((s.link 48).rxOf vc.val).arrive ≠ .credit q) →
      s.sys.whole = [(h, vc.val, 63, body)] → sprueCredit s (hdrQueue h) (packetItems (hdrLen h)) = false →
      Gives (.messageCreditTimeout 48 vc) s (fun t => t.sys.whole = [] ∧ t.riser = s.riser))

/-- What a link sends, and the sending of a message (R312, R314, R316, R352). -/
def Obligations.SendingCompletes : Prop :=
  ∀ s : State, s.awake = true →
    (∀ (k : Fin 48) (l : Nat), l = k.val → (s.link l).st = .up →
      (∀ v < 8, ∀ q, ((s.link l).rxOf v).arrive ≠ .credit q) → s.sys.completions = [] → s.sys.whole = [] →
      ((s.link l).timeDue = true → Gives (.flitOpportunity k) s (fun t => (t.link l).timeDue = false ∧
        (t.link l).timeSent = (s.env.now :: (s.link l).timeSent).take 8 ∧ (t.link l).nextSeq = (s.link l).nextSeq)) ∧
      ((s.link l).timeDue = false → (s.link l).nakDue = true →
        Gives (.flitOpportunity k) s (fun t => (t.link l).nakDue = false ∧
          lget 0 (t.link l).counters 6 = min 4294967295 (lget 0 (s.link l).counters 6 + 1))) ∧
      (∀ i r, (s.link l).timeDue = false → (s.link l).nakDue = false → (s.link l).loopDue = none →
        (s.link l).loopReturn = [] → (s.link l).replayAt = some i → (s.link l).replay[i]? = some r →
        Gives (.flitOpportunity k) s (fun t => (t.link l).replay = (s.link l).replay ∧
          (t.link l).nextSeq = (s.link l).nextSeq ∧
          (t.link l).replayAt = if i + 1 < (s.link l).replay.length then some (i + 1) else none)) ∧
      (∀ g, (s.link l).timeDue = false → (s.link l).nakDue = false → (s.link l).loopDue = none →
        (s.link l).loopReturn = [] → (s.link l).replayAt = none → (s.link l).ready 7 = some g →
        Gives (.flitOpportunity k) s (fun t => (t.link l).nextSeq = ((s.link l).nextSeq + 1) % 4096 ∧
          (t.link l).replay = (s.link l).replay ++ [{ sequence := (s.link l).nextSeq, vc := 7, seg := g }]))) ∧
    (∀ (q : Fin 4096) c pkt, (s.queue q.val).role = .send c → (s.queue q.val).enabled = true →
      (s.queue q.val).consumer = 69 → (s.queue q.val).sending = none → ptrFault (s.queue q.val) = none →
      firstPacket (s.queue q.val).committed = pkt → pkt ≠ [] →
      ((pkt.any (·.bad) = true ∨ descOk (pkt.headD {}).bytes pkt.length = false) → c = none →
        Gives (.sendMessage q) s (fun t => (t.queue q.val).sending = none ∧
          (t.queue q.val).committed = (s.queue q.val).committed.drop pkt.length ∧ t.links = s.links)) ∧
      (∀ d l, pkt.any (·.bad) = false → (pkt.headD {}).bytes = d → descOk d pkt.length = true → l < 48 →
        (routeTo s s.sys.node (fieldOf d 0 4)).1 = .link l → (s.link l).loopback ≠ 6 →
        Gives (.sendMessage q) s (fun t => (t.queue q.val).sending = some (d.extractLsb' 0 128, l) ∧
          (t.queue q.val).committed = (s.queue q.val).committed.drop pkt.length ∧
          ((t.link l).txOf (fieldOf d 6 1)).waiting.length = ((s.link l).txOf (fieldOf d 6 1)).waiting.length +
            (segmentsOf 0 (((pkt.drop 1).flatMap (fun i => bytesOf i.bytes 64)).take (fieldOf d 8 2 + 1)) none).length)))

/-! ### The Sprue system (chapter 12) -/

/-- The commands of the node: identity, windows, generation profiles, partners, routes and time (Tables 12.9 to 12.16). -/
def Obligations.SystemCommandsComplete : Prop :=
  ∀ (s : State) (p : Port) (sl : Fin 4) (q : Req), s.req p sl = q →
    (Granted nodeSetSpec s p sl → q.queryFlag = true →
      Gives (.nodeSet p sl) s (fun t => Answered s t p sl stOk (nodeResults s) ∧ t.sys = s.sys)) ∧
    (Granted nodeSetSpec s p sl → q.queryFlag = false → nodeArgsOk q = true →
      (q.arg 8 4 = s.sys.node ∨ ∀ l ∈ s.links, l.2.st = .off) →
      Gives (.nodeSet p sl) s (fun t => t.sys = { s.sys with
          node := q.arg 8 4, hop := q.argByte 12, txTimeout := q.arg 16 4, policy := q.argByte 20,
          highWater := q.argByte 21, minIdle := q.arg 22 2 } ∧
        Answered s t p sl stOk (nodeResults t))) ∧
    (∀ w, Granted windowSetSpec s p sl → q.queryFlag = false → q.argByte 8 = w → w < 16 → q.argByte 9 = 1 →
      windowArgsOk q s = true →
      Gives (.windowSet p sl) s (fun t => Waits t p sl ∧ tget {} t.sys.windows w = reqWindow q ∧
        (∃ x ∈ t.sys.recompute, x.2 = w ∧ x.1.1 = p ∧ x.1.2.1 = sl) ∧ t.sys.partners = s.sys.partners)) ∧
    (∀ w, Granted windowSetSpec s p sl → q.queryFlag = false → q.argByte 8 = w → w < 16 → q.argByte 9 = 0 →
      Gives (.windowSet p sl) s (fun t => Waits t p sl ∧ t.window w = none ∧ t.sys.partners = s.sys.partners)) ∧
    (Granted profileSetSpec s p sl → q.queryFlag = false → profileArgsOk q = true →
      Gives (.profileSet p sl) s (fun t => t.profile q.target = {
          limit := q.argByte 8, maxLines := q.argByte 9,
          opMask := BitVec.ofNat 6 (q.argByte 10), keepalive := q.arg 12 2, rank := q.argByte 14 } ∧
        (∀ k, k ≠ q.target → t.profile k = s.profile k) ∧ Answered s t p sl stOk (profileResults q.target t))) ∧
    (Granted partnerQuerySpec s p sl → s.sys.partnerSyn = [] → q.argByte 8 = 1 → q.arg 12 4 < 65536 →
      Gives (.partnerQuery p sl) s (fun t => t.sys = s.sys ∧
        Answered s t p sl stOk (partnerCounts s ++ listPartners s (q.arg 12 4)))) ∧
    (∀ k, Granted partnerSetSpec s p sl → q.queryFlag = false → q.argByte 8 ≤ 1 → q.arg 12 4 < noNode →
      q.argByte 16 < 16 → s.sys.partnerSyn = [] → slotOf s (q.arg 12 4) = some k →
      Gives (.partnerSet p sl) s (fun t => (t.partner k).state = 2 - q.argByte 8 ∧
        (t.partner k).node = (s.partner k).node ∧ ∀ j, j ≠ k → t.partner j = s.partner j)) ∧
    (∀ k, Granted partnerSetSpec s p sl → q.queryFlag = false → q.argByte 8 = 2 → q.arg 12 4 < noNode →
      q.argByte 16 < 16 → s.sys.partnerSyn = [] → slotOf s (q.arg 12 4) = some k →
      ((s.partner k).outst = 0 ∨ q.force = true) →
      Gives (.partnerSet p sl) s (fun t => (t.partner k).state = 0 ∧
        ∀ x ∈ t.sys.txns, x.node ≠ (s.partner k).node)) ∧
    (∀ k, Granted partnerSetSpec s p sl → q.queryFlag = false → q.argByte 8 = 0 → q.arg 12 4 < noNode →
      q.argByte 16 < 16 → s.sys.partnerSyn = [] → slotOf s (q.arg 12 4) = none →
      freeSlot s.sys.partners (nodeBuckets (q.arg 12 4)).1 = some k →
      Gives (.partnerSet p sl) s (fun t => (t.partner k).state = 2 ∧ (t.partner k).node = q.arg 12 4 ∧
        (t.partner k).rights = rightsField s (q.arg 12 4))) ∧
    (∀ n, Granted routeSetSpec s p sl → q.queryFlag = false → q.argByte 8 = 0 → q.argByte 12 = n → 1 ≤ n → n ≤ 28 →
      q.arg 10 2 + n ≤ 4096 → (∀ k < n, routeEntryOk (BitVec.ofNat 64 (q.arg (16 + 8 * k) 8)) = true) →
      routesDistinct (writtenRoutes q s.sys.routes) = true →
      Gives (.routeSet p sl) s (fun t => t.sys.routes = writtenRoutes q s.sys.routes ∧ Answered s t p sl stOk [])) ∧
    (∀ d, Granted routeSetSpec s p sl → q.queryFlag = false → q.argByte 8 = 2 → q.arg 16 4 = d → d < noNode →
      Gives (.routeSet p sl) s (fun t => t.sys = s.sys ∧ Answered s t p sl stOk
        [(16, 1, (routeTo s s.sys.node d).1.link?.getD 0xFF), (18, 2, (routeTo s s.sys.node d).2.getD 0xFFFF)])) ∧
    (Granted timeConfigSpec s p sl → q.target = 0xFFFF → q.queryFlag = false → q.argByte 8 ≤ 2 → 10 ≤ q.arg 12 2 →
      q.arg 12 2 ≤ 10000 →
      Gives (.timeConfig p sl) s (fun t => t.sys.role.code = q.argByte 8 ∧ t.sys.interval = q.arg 12 2 ∧
        Answered s t p sl stOk (timeNodeResults t))) ∧
    (∀ l, Granted timeConfigSpec s p sl → q.target = l → l < 48 → q.queryFlag = false → q.argByte 8 ≤ 1 →
      Gives (.timeConfig p sl) s (fun t => (t.link l).timeOn = decide (q.argByte 8 = 1) ∧
        (t.link l).asym = signed 32 (q.arg 12 4) ∧ Answered s t p sl stOk (timeLinkResults l t))) ∧
    (Granted timeStatusSpec s p sl →
      Gives (.timeStatus p sl) s (fun t => (t.slot p sl).st = .done ∧ t.sys = s.sys ∧ t.tick = s.tick))

/-- Remote requests, and the transaction requests and responses of other nodes (R329, R334, R335, R337). -/
def Obligations.TransactionsComplete : Prop :=
  ∀ s : State, s.sys.partnerSyn = [] →
    (∀ h op lines, accepts s h (runOp op) = true → isRemote s h = true → linesOk (runOp op) h lines = true →
      (crosses h = true ∨ s.sys.node = noNode →
        Gives (.remoteRequest h op lines) s (fun t => ∃ o, t.outst h.src h.tag = some o ∧
          o.resp = some (flatResp o rcDecode) ∧ t.sys = s.sys)) ∧
      (∀ k l, crosses h = false → s.sys.node ≠ noNode → slotOf s (remoteNode h) = some k →
        (s.partner k).outst < (s.profile (s.partner k).profile).limit → (s.partner k).outst < 255 →
        s.sys.txns.length < 4096 →
        (s.profile (s.partner k).profile).opMask.getLsbD (remoteCode op) = true →
        lineCount h ≤ (s.profile (s.partner k).profile).maxLines →
        (∀ x ∈ s.runner.outst, x.hdr.src = h.src → x.hdr.addr.toNat / 4096 = h.addr.toNat / 4096 →
          x.accepted = true ∨ x.resp.isSome = true ∨ x.gone = true) →
        (routeTo s s.sys.node (remoteNode h)).1 = .link l → (s.link l).loopback ≠ 6 →
        Gives (.remoteRequest h op lines) s (fun t => (t.partner k).outst = (s.partner k).outst + 1 ∧
          (∃ o, t.outst h.src h.tag = some o ∧ o.accepted = true ∧ o.resp = none) ∧
          ∃ x, t.sys.txns = s.sys.txns ++ [x] ∧ x.node = remoteNode h ∧ x.op = op ∧ x.src = h.src ∧ x.tag = h.tag ∧
            x.link = l))) ∧
    (∀ src tag o k l, waitingRemote s src tag = some o → remoteAhead s o = false → slotOf s (remoteNode o.hdr) = some k →
      (s.partner k).outst < (s.profile (s.partner k).profile).limit → (s.partner k).outst < 255 →
      s.sys.txns.length < 4096 →
      (s.profile (s.partner k).profile).opMask.getLsbD (remoteCode (remoteOp o.op)) = true →
      lineCount o.hdr ≤ (s.profile (s.partner k).profile).maxLines →
      (routeTo s s.sys.node (remoteNode o.hdr)).1 = .link l → (s.link l).loopback ≠ 6 →
      Gives (.remoteRequestAccepted src tag) s (fun t => (t.partner k).outst = (s.partner k).outst + 1 ∧
        (∃ u, t.outst src tag = some u ∧ u.accepted = true ∧ u.resp = none) ∧
        ∃ x, t.sys.txns = s.sys.txns ++ [x] ∧ x.node = remoteNode o.hdr ∧ x.src = src ∧ x.tag = tag ∧ x.link = l)) ∧
    (∀ (l : Fin 48) m vc n rest tag, freeTag s = some tag → s.sys.inReq = (l.val, m, vc, n) :: rest →
      s.sys.recompute = [] →
      Gives (.transactionRequest l m) s (fun t => t.sys.inReq = rest) ∧
      (∀ v op x k, servingOf m.header (leNat (m.body.take 4)) = v → s.dev.mode ≠ .hold → opOfCode v.op = some op →
        m.body.length = bodyLength op v.lines ((fieldOf m.header 15 1).testBit 0) →
        ((fieldOf m.header 15 1).testBit 0 = true → op = .write) → v.node ≠ s.sys.node → slotOf s v.node = some k →
        s.window (fieldOf m.header 13 1 % 16) = some x →
        ∀ h : ReqHdr, h = ⟨.sprue, BitVec.ofNat 49 (x.base + v.offset), Fin.ofNat 64 (v.lines - 1), tag, 0, 0⟩ →
        crosses h = false → ((runOp op).atomic = true → atomicOk (runOp op) h = true) →
        (if (runOp op).atomic then v.offset + atomicWidth (runOp op) else v.offset / 64 * 64 + 64 * v.lines)
          ≤ 4096 * x.pages →
        (s.partner k).rights.testBit (3 * (fieldOf m.header 13 1 % 16) + remoteRight op) = true →
        Gives (.transactionRequest l m) s (fun t => (t.outst .sprue tag).isSome = true ∧
          ∃ w ∈ t.sys.serving, w.tag = tag ∧ w.node = v.node ∧ w.sequence = v.sequence))) ∧
    (∀ (l : Fin 48) m vc n rest, s.sys.inResp = (l.val, m, vc, n) :: rest →
      (∀ x code o, s.sys.txns.find? (fun t => isTxn (hdrSource m.header) (fieldOf m.header 10 2) t &&
          decide (remoteCode t.op = fieldOf m.header 12 1) && decide (t.offset = leNat (m.body.take 4) % 2 ^ 30)) = some x →
        codeOfStatus (fieldOf m.header 13 1) = some code → s.outst x.src x.tag = some o → o.id = x.id → o.resp = none →
        Gives (.transactionResponse l m) s (fun t => t.sys.inResp = rest ∧
          (∀ y ∈ t.sys.txns, isTxn x.node x.sequence y = false) ∧
          ∃ u, t.outst x.src x.tag = some u ∧
            u.resp = some (txnLines x code (leNat ((m.body.drop 8).take 8)) (m.body.drop 16)))) ∧
      (s.sys.txns.find? (fun t => isTxn (hdrSource m.header) (fieldOf m.header 10 2) t &&
          decide (remoteCode t.op = fieldOf m.header 12 1) && decide (t.offset = leNat (m.body.take 4) % 2 ^ 30)) = none →
        Gives (.transactionResponse l m) s (fun t => t.sys.inResp = rest ∧ t.sys.txns = s.sys.txns ∧
          lget 0 t.sys.counters 4 = min 4294967295 (lget 0 s.sys.counters 4 + 1)))) ∧
    (∀ node sequence x o, s.sys.txns.find? (isTxn node.val sequence.toNat) = some x → s.outst x.src x.tag = some o →
      o.id = x.id → o.resp = none → Gives (.transactionTimeout node sequence) s (fun t =>
        (∀ y ∈ t.sys.txns, isTxn node.val sequence.toNat y = false) ∧
        lget 0 t.sys.counters 3 = min 4294967295 (lget 0 s.sys.counters 3 + 1) ∧
        ∃ u, t.outst x.src x.tag = some u ∧ u.resp = some (flatResp u rcTimeout)))

/-- The recomputation of rights, the interval of TIME flits, and ageing and eviction (R332, R343, R346, R352). -/
def Obligations.SystemEventsComplete : Prop :=
  ∀ s : State,
    (s.sys.recompute ≠ [] → s.sys.partnerSyn = [] → Gives .windowRightsRecomputed s (fun t => t.sys.recompute = [] ∧
      ∀ e ∈ s.sys.partners, (t.partner e.1).rights = rightsField s (s.partner e.1).node)) ∧
    (s.awake = true → s.sys.role ≠ .none → Gives .timeInterval s (fun t => ∀ l,
      (t.link l).timeDue = ((s.link l).timeDue || (decide ((s.link l).st = .up) && (s.link l).timeOn)))) ∧
    (s.awake = true → Gives .ageingUnit s (fun t => t.sys.ageCtr = (s.sys.ageCtr + 1) % 4096)) ∧
    (∀ node : Fin 262144, s.firmware = true → s.sys.refused.contains node.val = true →
      Gives (.partnerEviction node) s (fun t => t.sys.refused = s.sys.refused.filter (· != node.val)))

/-! ### The Runner (chapter 2) -/

/-- Every request that is accepted stands with its tag until it is answered, and what its answer is (R33, R34, R37, R39,
R53, R208, R377). -/
def Obligations.RunnerRequestsComplete : Prop :=
  ∀ (s : State) (h : ReqHdr),
    (mayTakeReq s h .read [] = true →
      Gives (.read h) s (fun t => ∃ o, t.outst h.src h.tag = some o ∧ o.hdr = h ∧ o.op = .read)) ∧
    (∀ lines, mayTakeReq s h .write lines = true →
      Gives (.write h lines) s (fun t => ∃ o, t.outst h.src h.tag = some o ∧ o.hdr = h ∧ o.op = .write)) ∧
    (mayTakeReq s h .read [] = true → isRemote s h = false → crosses h = true →
      (∀ o ∈ s.runner.outst, o.heldPop = none) →
      Gives (.read h) s (fun t => ∃ o, t.outst h.src h.tag = some o ∧ o.resp = some (flatResp o rcDecode) ∧
        t.hbm = s.hbm ∧ t.ingot = s.ingot ∧ t.brams = s.brams ∧ t.dsp = s.dsp)) ∧
    (∀ a, mayTakeReq s h .read [] = true → h.addr.toNat / 64 * 64 = a → a < 0x1200000000 → h.len = 0 →
      rightTo s h.src false h.addr.toNat = .granted → s.rangeOf a = none → s.dev.hbmReady = true →
      s.hbm.repair = none → s.hbm.eccAt a ≠ .uncorrectable →
      Gives (.read h) s (fun t => (∃ o, t.outst h.src h.tag = some o ∧
          o.resp = some [⟨0, lineOf (s.hbm.lineBytes a)⟩]) ∧ t.hbm.mem = s.hbm.mem)) ∧
    (∀ a w u data be, mayTakeReq s h .write [w] = true → withLines h .write [w] s = (u, [(data, be)]) →
      h.addr.toNat / 64 * 64 = a → a < 0x1200000000 → rightTo s h.src true h.addr.toNat = .granted → s.rangeOf a = none →
      s.dev.hbmReady = true → s.hbm.repair = none → s.hbm.eccAt a ≠ .uncorrectable →
      Gives (.write h [w]) s (fun t => (∃ o, t.outst h.src h.tag = some o ∧ o.resp = some [⟨0, 0⟩]) ∧
        lineOf (t.hbm.lineBytes a) = mergeBytes (lineOf (s.hbm.lineBytes a)) data be ∧
        ∀ x, (x < a ∨ a + 64 ≤ x) → rdByte t.hbm.mem x = rdByte s.hbm.mem x)) ∧
    (∀ i op d b off, (i, op) ∈ [(Instr.add32 h d, RunOp.add32), (.add64 h d, .add64), (.swap32 h d, .swap32),
        (.swap64 h d, .swap64)] → accepts s h op = true → crosses h = false →
      rightTo s h.src true h.addr.toNat = .granted → atomicOk op h = true →
      ingotPlace s (decodeAddr h.addr.toNat) = some (b, off) → tget [] s.ingot.waiting b = [] →
      (s.region b).gate true (entryStopped b s) = (.serve, false) →
      decodeSyn 16 (tget 0 s.ingot.syn (ingotKey b (off / 32 * 32) / 32)).toNat = .clean →
      Gives i s (fun t =>
        (∃ o, (runBank b t).outst h.src h.tag = some o ∧ o.resp = some [⟨0, BitVec.ofNat 512
          (leNat (rdBytes s.ingot.mem (ingotKey b off) (atomicWidth op)) * 2 ^ (8 * (off % 64)))⟩]) ∧
        leNat (rdBytes (runBank b t).ingot.mem (ingotKey b off) (atomicWidth op)) = atomicNew op
          (leNat (rdBytes s.ingot.mem (ingotKey b off) (atomicWidth op))) (fieldOf d (off % 64) (atomicWidth op)) ∧
        ∀ x, (x < ingotKey b off ∨ ingotKey b off + atomicWidth op ≤ x) →
          rdByte (runBank b t).ingot.mem x = rdByte s.ingot.mem x)) ∧
    (∀ op7, accepts s h .write = true → Gives (.reservedRunnerOperation h op7) s (fun t =>
      ∃ o, t.outst h.src h.tag = some o ∧ o.resp = some [⟨BitVec.ofNat 3 rcDecode, 0⟩]))

/-- Responses, time-outs, promotions and counters (R37, R41, R48, R50, R56). -/
def Obligations.RunnerEventsComplete : Prop :=
  ∀ s : State,
    (∀ src tag o l, answered s src tag = some o → (∀ e, src ≠ .dsp e) → src ≠ .sprue → o.hdr.src = src →
      o.hdr.tag = tag → o.resp = some [l] → o.gone = false → o.discard = false → portTakes s src = true →
      Gives (.runnerResponse src tag) s (fun t => tget {} t.runner.rs (sourceKey src) =
          { valid := true, tag := tag.val, code := l.code, data := l.data, last := true } ∧
        ∀ x ∈ t.runner.outst, x.id ≠ o.id)) ∧
    (∀ src tag o, s.outst src tag = some o → o.accepted = false → (∀ e, src ≠ .dsp e) → src ≠ .sprue →
      o.discard = false → linesOwed o ≠ 0 → portTakes s src = true →
      Gives (.runnerTimeout src tag) s (fun t => tget {} t.runner.rs (sourceKey src) =
          { valid := true, tag := tag.val, code := BitVec.ofNat 3 rcTimeout, last := true } ∧
        t.hbm.mem = s.hbm.mem ∧ t.ingot = s.ingot)) ∧
    (∀ r p tag o, s.outst (.fabric r p) tag = some o → o.accepted = false →
      (o.discard = false → portTakes s (.fabric r p) = false →
        Gives (.runnerTimeout (.fabric r p) tag) s (fun t => t.runner.rs = s.runner.rs ∧ ∃ u ∈ t.runner.outst,
          u.hdr = o.hdr ∧ u.gone = o.gone ∧ u.resp = some (.replicate (linesOwed o) ⟨BitVec.ofNat 3 rcTimeout, 0⟩))) ∧
      (o.discard = true → Gives (.runnerTimeout (.fabric r p) tag) s (fun t => t.runner.rs = s.runner.rs ∧
        t.runner.counters = s.runner.counters))) ∧
    (∀ src tag o, s.outst src tag = some o → Gives (.routerWaitPromotion src tag) s (fun t =>
      t.outst src tag = some { o with cls := 3 })) ∧
    (∀ src tag o a, s.outst src tag = some o → decodeAddr o.hdr.addr.toNat = .hbm a →
      Gives (.hbmQueueAged src tag) s (fun t => t.outst src tag = some { o with aged := true })) ∧
    (∀ (p : Port) (sl : Fin 4) r, Granted runnerCountersSpec s p sl → (s.req p sl).target = r →
      (s.req p sl).argByte 8 = 1 → ownView (s.req p sl) (ownKey 0 r) s = .mine →
      Gives (.runnerCounters p sl) s (fun t =>
        tget [0, 0, 0, 0, 0, 0, 0, 0] t.runner.counters r = [0, 0, 0, 0, 0, 0, 0, 0] ∧
        Answered s t p sl stOk ((List.range 8).map (fun i =>
          (16 + 4 * i, 4, lget 0 (tget [0, 0, 0, 0, 0, 0, 0, 0] s.runner.counters r) i)))))

/-- The hand-shakes of a region's entry into and exit from its power states (R19, R20, R439, R441, R442). -/
def Obligations.RegionPowerEventsComplete : Prop :=
  ∀ (s : State) (k : Fin 64) (r : Nat), r = k.val →
    ((s.region r).trans = some (.quiescing .shelved) → outstandingAt r s = 0 →
      Gives (.quiesceAck k) s (fun t => (t.region r).trans = some .saving)) ∧
    ((s.region r).trans = some (.quiescing .cold) →
      Gives (.quiesceTimeout k) s (fun t => (t.region r).trans = some (.entering .cold) ∧
        (t.region r).shieldClosed = true)) ∧
    ((s.region r).trans = some .saving → Gives (.shelfSaveComplete k) s (fun t =>
      (t.region r).trans = some (.entering .shelved) ∧ (t.region r).shieldClosed = true ∧
      (t.region r).shelf = some ((s.region r).now.shelf (s.region r).brg))) ∧
    (∀ dest, (s.region r).trans = some (.entering dest) → (dest.deep = true ∨ drained r s = true) →
      (∀ o ∈ s.runner.outst, o.heldFor ≠ some r) → (s.region r).resets = [] → (s.region r).deferred = none →
      Gives (.powerEntryComplete k) s (fun t => (t.region r).power = dest ∧ (t.region r).trans = none ∧
        (dest.deep = true → ∀ p < 4, (dest = .cold ∨ p ≠ (s.region r).active) →
          ((t.region r).plane p).st = if (s.region r).retired then PlaneSt.barred else .invalid))) ∧
    (∀ left, (s.region r).trans = some (.exiting left) → left.deep = false →
      (∀ o ∈ s.runner.outst, o.heldFor ≠ some r) → (s.region r).resets = [] → (s.region r).deferred = none →
      (s.region r).after = none →
      Gives (.powerExitComplete k none) s (fun t => (t.region r).power = .active ∧ (t.region r).trans = none ∧
        (t.region r).clockOn = !(s.region r).loadingActive)) ∧
    ((s.region r).trans = some (.exiting .cold) → (s.region r).record = none → (s.region r).loadingActive = false →
      (∀ o ∈ s.runner.outst, o.heldFor ≠ some r) → (s.region r).resets = [] → (s.region r).deferred = none →
      (s.region r).after = none →
      Gives (.powerExitComplete k none) s (fun t => (t.region r).power = .cold ∧ (t.region r).trans = none))

/-! ### Riser queues (chapter 13) -/

/-- Pushes, commits, aborts and pops at a queue's window (R364, R366, R367, R369, R370, R371), and a read-back (R359). -/
def Obligations.QueueWindowsComplete : Prop :=
  ∀ (s : State) (h : ReqHdr) (q off : Nat) (x : Queue), decodeAddr h.addr.toNat = .riser q off → s.queue q = x →
    x.enabled = true → ptrFault x = none → (∀ o ∈ s.runner.outst, o.heldPop ≠ some q) → crosses h = false →
    (∀ w u d be, mayTakeReq s h .write [w] = true → withLines h .write [w] s = (u, [(d, be)]) → inQueueArea h .write .push = true →
      rightTo s h.src true h.addr.toNat = .granted → x.producer = masterOf h.src → be ≠ 0 →
      x.prod ≠ .discard → x.hasCredit = true →
      Gives (.push h [w]) s (fun t => (t.queue q).committed = x.committed ∧
        (t.queue q).opened = x.opened ++ [⟨itemBytes (d, be), x.opened.isEmpty, false, false, false⟩] ∧
        (t.queue q).pushed = x.pushed + 1 ∧ (t.queue q).prod = .open_ ∧
        ∃ o, t.outst h.src h.tag = some o ∧ o.resp = some [⟨0, 0⟩])) ∧
    (∀ w u d be, mayTakeReq s h .write [w] = true → withLines h .write [w] s = (u, [(d, be)]) → inQueueArea h .write .pushEop = true →
      rightTo s h.src true h.addr.toNat = .granted → x.producer = masterOf h.src → be ≠ 0 →
      x.prod ≠ .discard → x.hasCredit = true →
      Gives (.pushEop h [w]) s (fun t => (t.queue q).opened = [] ∧ (t.queue q).prod = .closed ∧
        (t.queue q).committed = x.committed ++ x.opened ++ [⟨itemBytes (d, be), x.opened.isEmpty, true, false, false⟩] ∧
        (t.queue q).pushed = x.pushed + 1 ∧ ∃ o, t.outst h.src h.tag = some o ∧ o.resp = some [⟨0, 0⟩])) ∧
    (∀ w u d be, mayTakeReq s h .write [w] = true → withLines h .write [w] s = (u, [(d, be)]) → inQueueArea h .write .push = true →
      rightTo s h.src true h.addr.toNat = .granted → x.producer = masterOf h.src → be ≠ 0 →
      x.prod ≠ .discard → x.hasCredit = false →
      Gives (.push h [w]) s (fun t => (t.queue q).committed = x.committed ∧ (t.queue q).opened = [] ∧
        (t.queue q).prod = .discard ∧ (t.queue q).pushed = x.pushed ∧
        ∃ o, t.outst h.src h.tag = some o ∧ o.resp = some [⟨BitVec.ofNat 3 rcAccess, 0⟩])) ∧
    (∀ w u d be, mayTakeReq s h .write [w] = true → withLines h .write [w] s = (u, [(d, be)]) → inQueueArea h .write .abort = true →
      rightTo s h.src true h.addr.toNat = .granted → x.producer = masterOf h.src → be ≠ 0 → x.prod = .open_ →
      Gives (.abort h [w]) s (fun t => (t.queue q).opened = [] ∧ (t.queue q).committed = x.committed ∧
        (t.queue q).prod = .closed ∧ (t.queue q).limit = x.limit + BitVec.ofNat 32 x.opened.length)) ∧
    (∀ it rest, mayTakeReq s h .read [] = true → inQueueArea h .read .pop = true → h.len = 0 →
      rightTo s h.src false h.addr.toNat = .granted → x.consumer = masterOf h.src → x.committed = it :: rest →
      1 ≤ x.headCount →
      Gives (.pop h) s (fun t => (t.queue q).committed = rest ∧ (t.queue q).popped = x.popped + 1 ∧
        (t.queue q).limit = x.limit + 1 ∧ ∃ o, t.outst h.src h.tag = some o ∧ o.resp = some [popLine (some it)])) ∧
    (mayTakeReq s h .read [] = true → inQueueArea h .read .pop = true → h.len = 0 →
      rightTo s h.src false h.addr.toNat = .granted → x.consumer = masterOf h.src → x.committed = [] →
      Gives (.pop h) s (fun t => t.queue q = x ∧ ∃ o, t.outst h.src h.tag = some o ∧ o.resp = some [⟨0, 0⟩])) ∧
    (∀ it rest, mayTakeReq s h .read [] = true → inQueueArea h .read .popStatus = true →
      rightTo s h.src false h.addr.toNat = .granted → x.consumer = masterOf h.src → x.committed = it :: rest →
      1 ≤ x.headCount →
      Gives (.popStatus h) s (fun t => (t.queue q).committed = rest ∧ ∃ o, t.outst h.src h.tag = some o ∧
        o.resp = some [popLine (some it), ⟨0, popStatusLine (some it) (t.queue q)⟩])) ∧
    (∀ (n : Fin 4096) bad, n.val = q → s.awake = true → 0 < x.reading → 0 < x.spilled →
      x.headCount < x.committed.length →
      Gives (.spillReadbackComplete n bad) s (fun t => (t.queue q).opened = x.opened ∧
        (t.queue q).committed.length = x.committed.length ∧
        (bad = false → (t.queue q).committed = x.committed) ∧
        (bad = true → (lget {} (t.queue q).committed x.headCount).bad = true)))

/-- The Riser commands (Tables 13.4 to 13.7). -/
def Obligations.RiserCommandsComplete : Prop :=
  ∀ (s : State) (p : Port) (sl : Fin 4) (n : Nat), (s.req p sl).target = n →
    (Granted riserSpillSpec s p sl → (s.req p sl).queryFlag = true →
      Gives (.riserSpill p sl) s (fun t => Answered s t p sl stOk (spillResults s) ∧ t.riser = s.riser)) ∧
    (∀ base pages, Granted riserSpillSpec s p sl → (s.req p sl).queryFlag = false → (s.req p sl).arg 8 8 = base →
      (s.req p sl).arg 16 4 = pages → spillOk s base pages = true → pagesReserved s = 0 →
      Gives (.riserSpill p sl) s (fun t => t.riser.spillPages = pages ∧
        t.riser.spillBase = (if pages = 0 then 0 else base) ∧ t.riser.queues = s.riser.queues ∧
        Answered s t p sl stOk (spillResults t))) ∧
    (∀ cap prod cons, Granted riserConfigSpec s p sl → (s.req p sl).queryFlag = false → (s.req p sl).argByte 8 = 1 →
      (s.req p sl).arg 12 4 = cap → 1 ≤ cap → cap ≤ 16 + 2 ^ 24 → (s.queue n).enabled = false →
      sideOf ((s.req p sl).argByte 16) (s.queue n).producer = prod →
      sideOf ((s.req p sl).argByte 17) (s.queue n).consumer = cons → prod ≤ 71 → cons ≤ 71 →
      ((s.queue n).prodHard = true → prod = (s.queue n).producer) →
      ((s.queue n).consHard = true → cons = (s.queue n).consumer) →
      pagesReserved s + spillPagesFor cap ≤ s.riser.spillPages →
      Gives (.riserConfig p sl) s (fun t => (t.queue n).enabled = true ∧ (t.queue n).cap = cap ∧
        (t.queue n).producer = prod ∧ (t.queue n).consumer = cons ∧ (t.queue n).committed = [] ∧
        (t.queue n).opened = [] ∧ (t.queue n).limit = BitVec.ofNat 32 cap ∧ (t.queue n).pushed = 0 ∧
        Answered s t p sl stOk (riserConfigResults (t.queue n)))) ∧
    (Granted riserConfigSpec s p sl → (s.req p sl).queryFlag = false → (s.req p sl).argByte 8 = 0 →
      (s.queue n).size = 0 →
      Gives (.riserConfig p sl) s (fun t => (t.queue n).enabled = false ∧ (t.queue n).pages = 0 ∧
        Answered s t p sl stOk (riserConfigResults (t.queue n)))) ∧
    (Granted riserStatusSpec s p sl → (s.req p sl).argByte 8 = 0 →
      Gives (.riserStatus p sl) s (fun t => t.riser = s.riser ∧ Answered s t p sl stOk
        ((16, 48, (stateLine (s.queue n)).toNat) ::
          (List.range 7).map (fun i => (64 + 4 * i, 4, lget 0 (s.queue n).counters i))))) ∧
    (Granted riserStatusSpec s p sl → (s.req p sl).argByte 8 = 1 →
      ownView (s.req p sl) (ownKey 3 (n / 64)) s = .mine →
      Gives (.riserStatus p sl) s (fun t => (t.queue n).counters = [0, 0, 0, 0, 0, 0, 0] ∧
        (t.queue n).committed = (s.queue n).committed ∧ (t.slot p sl).st = .done)) ∧
    (Granted riserResetSpec s p sl → (s.queue n).enabled = true →
      (∀ o ∈ s.runner.outst, o.heldPop = some n → o.op = .read ∧ ∃ off, decodeAddr o.hdr.addr.toNat = .riser n off) →
      Gives (.riserReset p sl) s (fun t => (t.queue n).committed = [] ∧ (t.queue n).opened = [] ∧
        (t.queue n).epoch = (s.queue n).epoch + 1 ∧
        (t.queue n).limit = (s.queue n).pushed + BitVec.ofNat 32 (s.queue n).cap ∧
        (t.queue n).prod = (if (s.queue n).opened.isEmpty then .closed else .discard) ∧
        Answered s t p sl stOk [(16, 1, (t.queue n).epoch.toNat), (20, 4, (t.queue n).limit.toNat)]))

/-! ### HBM and its protection (chapter 14) -/

/-- The commands of protected ranges, rekeying and re-initialisation (Tables 14.6 to 14.9).
The ends of zero-fills, rekeys and re-initialisations (R379, R387, R392, R395, R398). -/
def Obligations.ProtectionComplete : Prop :=
  (∀ (s : State) (p : Port) (sl : Fin 4) (q : Req) (r : Range), s.req p sl = q → s.range q.target = r →
     (Granted protRangeSpec s p sl → q.queryFlag = true →
       Gives (.protRange p sl) s (fun t => Answered s t p sl stOk (rangeResults r) ∧ t.hbm = s.hbm)) ∧
     (∀ base gib, Granted protRangeSpec s p sl → q.queryFlag = false → q.argByte 8 = 1 → q.arg 16 8 = base →
       q.argByte 24 = gib → createOk base gib = true → q.target ≠ 0 → r.defined = false →
       spanProtected s base (gib * gibBytes) = false → overSpill s base (gib * gibBytes) = false →
       s.hbm.rekey = none → r.filling = none →
       Gives (.protRange p sl) s (fun t => Waits t p sl ∧ (t.range q.target).base = base ∧
         (t.range q.target).gib = gib ∧ (t.range q.target).mask = BitVec.ofNat 64 (q.arg 32 8) ∧
         (t.range q.target).defined = false ∧ (∃ w, (t.range q.target).filling = some (false, w)) ∧
         t.hbm.mem = s.hbm.mem)) ∧
     (Granted protRangeSpec s p sl → q.queryFlag = false → q.argByte 8 = 2 → q.target ≠ 0 → r.defined = true →
       Gives (.protRange p sl) s (fun t => (t.range q.target).mask = BitVec.ofNat 64 (q.arg 32 8) ∧
         Answered s t p sl stOk (rangeResults (t.range q.target)))) ∧
     (Granted protRangeSpec s p sl → q.queryFlag = false → q.argByte 8 = 0 → q.target ≠ 0 → r.defined = true →
       s.hbm.rekey = none → r.filling = none →
       Gives (.protRange p sl) s (fun t => Waits t p sl ∧ (t.range q.target).removing = true)) ∧
     (Granted protStatusSpec s p sl → q.argByte 8 < 64 →
       Gives (.protStatus p sl) s (fun t => (t.slot p sl).st = .done ∧ t.hbm = s.hbm)) ∧
     (Granted protRekeySpec s p sl → q.argByte 8 = 0 → s.hbm.rekey = none →
       Gives (.protRekey p sl) s (fun t => t.hbm = { s.hbm with rekeyDays := q.arg 12 2 } ∧
         Answered s t p sl stOk (rekeyResults t))) ∧
     (Granted protRekeySpec s p sl → q.argByte 8 = 1 → s.hbm.rekey = none →
       Gives (.protRekey p sl) s (fun t => Waits t p sl ∧ t.hbm.rekey.isSome = true ∧ t.hbm.key = s.hbm.key ∧
         t.hbm.mem = s.hbm.mem)) ∧
     (∀ level index, Granted protReinitSpec s p sl → q.argByte 8 = level →
       (if level = 255 then 0 else q.arg 12 4) = index → r.defined = true → subtreeOk r level index = true →
       underPoison s q.target level index = false →
       Gives (.protReinit p sl) s (fun t => Waits t p sl ∧
         ∃ w, (t.range q.target).reinit = r.reinit ++ [(level, index, w)]))) ∧
  (∀ (s : State) (k : Fin 8) (ri : Nat) (r : Range), ri = k.val → s.range ri = r → s.awake = true →
     (∀ w, r.filling = some (false, w) → Gives (.protZeroFillComplete k) s (fun t =>
       (t.range ri).defined = true ∧ (t.range ri).filling = none ∧ (t.range ri).base = r.base ∧
       (t.range ri).gib = r.gib ∧ (t.range ri).mask = r.mask ∧
       (∀ a, r.base + r.dc ≤ a → a < r.base + r.span → rdByte t.hbm.mem a = 0) ∧
       (Stands s w → (t.slot w.1 w.2.1).st = .done))) ∧
     (∀ w, r.filling = some (true, w) → rangeInUse s ri = false → Gives (.protZeroFillComplete k) s (fun t =>
       t.range ri = {} ∧ (∀ a, r.base ≤ a → a < r.base + r.span → rdByte t.hbm.mem a = 0) ∧
       (∀ x ∈ t.hbm.poison, x.1 ≠ ri) ∧ (Stands s w → (t.slot w.1 w.2.1).st = .done))) ∧
     (s.hbm.rekeyDays ≠ 0 → s.hbm.rekey = none →
       Gives .rekeyInterval s (fun t => t.hbm.rekey.isSome = true ∧ t.hbm.key = s.hbm.key)) ∧
     (∀ x, s.hbm.rekey = some x → Gives .rekeyComplete s (fun t => t.hbm.rekey = none ∧ t.hbm.key = x.newKey ∧
       t.hbm.epoch = s.hbm.epoch + 1 ∧ ∀ w, x.waiter = some w → Stands s w → (t.slot w.1 w.2.1).st = .done)) ∧
     (∀ index w rest, r.reinit = (255, index, w) :: rest → Gives (.protReinitComplete k) s (fun t =>
       (t.range ri).reinit = rest ∧ (t.range ri).rootBad = false ∧
       (∀ a, r.base ≤ a → a < r.base + 4096 * r.pages → rdByte t.hbm.mem a = 0) ∧
       (∀ x ∈ t.hbm.poison, x.1 ≠ ri) ∧ (Stands s w → (t.slot w.1 w.2.1).st = .done))))


/-! ### Stored data (chapter 15) -/

/-- The Fettler and the trackers (R404, R407, R408, R409). -/
def Obligations.FettlerEventsComplete : Prop :=
  ∀ s : State,
    (∀ (r : Fin 64) i, sweeping s r.val 3 = true → (s.sweep r.val 3).pos = i → i < 131072 →
      decodeSyn 16 (tget 0 s.ingot.syn (ingotKey r.val (32 * i) / 32)).toNat = .clean → tget [] s.ingot.waiting r.val = [] →
      Gives (.fettlerWordRead (.ingot r)) s (fun t => t.ingot.mem = s.ingot.mem ∧
        (t.sweep r.val 3).pos = if i + 1 < 131072 then i + 1 else 0)) ∧
    (∀ (r : Fin 64) i, sweeping s r.val 1 = true → wordAt s r.val 1 (s.sweep r.val 1).pos = some i →
      portTaken s (256 * r.val + i / 512) = true →
      Gives (.fettlerWordRead (.brams r)) s (fun t => (t.bram (256 * r.val + i / 512)).scrub = some (i % 512) ∧
        (t.bram (256 * r.val + i / 512)).words = (s.bram (256 * r.val + i / 512)).words ∧ (t.sweep r.val 1).pos = i)) ∧
    (∀ (pc : Fin 64) i, fettling s = true → s.dev.hbmReady = true → (s.sweep 64 0).pos = i → pcOf (64 * i) = pc.val →
      64 * (i + 1) < hbmBytes → s.hbm.eccAt (64 * i) = .corrected →
      Gives (.fettlerWordRead (.hbm pc)) s (fun t => t.hbm.eccAt (64 * i) = .clean ∧ t.hbm.mem = s.hbm.mem ∧
        (t.sweep 64 0).pos = i + 1)) ∧
    (fettling s = true → Gives .fettlerHeartbeat s (fun t =>
      t.integ.heartbeat = (s.integ.heartbeat + 1) % 2 ^ 32 ∧ t.integ.status = s.integ.status)) ∧
    (s.firmware = true → fettling s = true → Gives .fettlerWatch s (fun t =>
      if s.integ.heartbeat ≠ s.integ.lastBeat then
        t.integ.lastBeat = s.integ.heartbeat ∧ t.integ.restartTried = false ∧ t.integ.status = s.integ.status
      else if s.integ.restartTried then t.integ.status = 2 else t.integ.status = 1 ∧ t.integ.restartTried = true)) ∧
    (∀ target pl kinds, s.awake = true → (∃ r : Fin 64,
        (target = .frames r ∧ pl = .region r.val ∧ kinds = [1]) ∨ (target = .brams r ∧ pl = .region r.val ∧ kinds = [2]) ∨
        (target = .dsp r ∧ pl = .region r.val ∧ kinds = [3, 4]) ∨ (target = .ingot r ∧ pl = .region r.val ∧ kinds = [5]) ∨
        (target = .hbm r ∧ pl = .pc r.val ∧ kinds = [6])) →
      Gives (.trackerInterval target) s (fun t => t.tracker pl = ageTracker kinds (s.tracker pl))) ∧
    (∀ (r : Fin 64) e, s.integ.passes.find? (fun e => e.1 == r.val) = some e → fettling s = true →
      passPaused (s.region r.val) e.2.targets = false →
      Gives (.fettlerPassComplete r) s (fun t => (∀ x ∈ t.integ.passes, x.1 ≠ r.val) ∧
        ∀ w, e.2.waiter = some w → Stands s w → (t.slot w.1 w.2.1).st = .done)) ∧
    (∀ page w, s.hbm.repair = some (page, w) → s.awake = true → (∀ o ∈ s.runner.outst, o.heldPage = none) →
      Gives .hbmRepairComplete s (fun t => t.hbm.repair = none ∧ page ∈ t.hbm.repaired ∧ t.hbm.mem = s.hbm.mem ∧
        (Stands s w → (t.slot w.1 w.2.1).st = .done)))

/-- The commands on stored data (Tables 15.5 to 15.11, 15.17). -/
def Obligations.IntegrityCommandsComplete : Prop :=
  ∀ (s : State) (p : Port) (sl : Fin 4) (q : Req), s.req p sl = q →
    (Granted fettlerConfigSpec s p sl → q.queryFlag = true →
      Gives (.fettlerConfig p sl) s (fun t => t.integ.periods = s.integ.periods ∧
        t.integ.status = (if s.integ.status = 1 then 0 else s.integ.status) ∧
        Answered s t p sl stOk (fettlerResults s))) ∧
    (Granted fettlerConfigSpec s p sl → q.queryFlag = false → (∀ i < 5, periodOk i (q.arg (8 + 4 * i) 4) = true) →
      Gives (.fettlerConfig p sl) s (fun t => (∀ i < 5, lget 0 t.integ.periods i =
          if q.arg (8 + 4 * i) 4 = 0 then lget 0 s.integ.periods i else q.arg (8 + 4 * i) 4) ∧
        Answered s t p sl stOk (fettlerResults t))) ∧
    (∀ targets, Granted fettlerPassSpec s p sl → q.argByte 8 = targets → targets < 32 →
      (∀ e ∈ s.integ.passes, e.1 ≠ q.target) → asleep s q.target = false →
      Gives (.fettlerPass p sl) s (fun t => Waits t p sl ∧ ∃ w, tget { targets := 0 } t.integ.passes q.target =
        { targets := BitVec.ofNat 5 targets, waiter := some w })) ∧
    (Granted integrityCountersSpec s p sl → q.argByte 8 = 0 →
      Gives (.integrityCounters p sl) s (fun t => t.integ = s.integ ∧ Answered s t p sl stOk ((List.range 8).map (fun i =>
        (16 + 4 * i, 4, lget 0 (tget [0, 0, 0, 0, 0, 0, 0, 0] s.integ.counters (min q.target 64)) i))))) ∧
    (Granted integrityCountersSpec s p sl → q.argByte 8 = 1 → q.target < 64 →
      ownView q (ownKey 0 q.target) s = .mine →
      Gives (.integrityCounters p sl) s (fun t =>
        tget [0, 0, 0, 0, 0, 0, 0, 0] t.integ.counters q.target = [0, 0, 0, 0, 0, 0, 0, 0] ∧ (t.slot p sl).st = .done)) ∧
    (∀ i, Granted hardFaultLogSpec s p sl → q.argByte 8 = 0 → q.arg 10 2 = i → i < 256 →
      Gives (.hardFaultLog p sl) s (fun t => t.integ = s.integ ∧ Answered s t p sl stOk
        ([(16, 2, s.integ.log.length), (18, 2, s.integ.logOverflow)] ++
          (List.range (min 7 (256 - i))).map (fun k => (24 + 32 * k, 32, (tget {} s.integ.log (i + k)).word))))) ∧
    (∀ i, Granted hardFaultLogSpec s p sl → q.argByte 8 = 1 → q.arg 10 2 = i → i < 256 →
      Gives (.hardFaultLog p sl) s (fun t => tget {} t.integ.log i = {} ∧
        (∀ k, k ≠ i → tget {} t.integ.log k = tget {} s.integ.log k) ∧ (t.slot p sl).st = .done)) ∧
    (∀ a, Granted faultRetireSpec s p sl → q.argByte 8 = 2 → q.target = 0xFFFF → q.arg 16 8 = a → a < hbmBytes →
      s.hbm.repair = none → Config.spareRows s.hbm.repaired (a / 4096) ≠ 0 →
      Gives (.faultRetire p sl) s (fun t => Waits t p sl ∧ ∃ w, t.hbm.repair = some (a / 4096, w))) ∧
    (∀ m, Granted faultRetireSpec s p sl → q.argByte 8 = 1 → q.target < 64 → q.arg 10 2 = m → m < 256 →
      (s.bram (256 * q.target + m)).retired = false → asleep s q.target = false → q.force = true →
      s.listed q.target (memEntry 3 m) = false → (s.defectMap q.target).length < 1024 →
      Gives (.faultRetire p sl) s (fun t => (t.bram (256 * q.target + m)).retired = true ∧
        memEntry 3 m ∈ (t.region q.target).defects ∧ (t.slot p sl).st = .done)) ∧
    (∀ kind plane loc ps u, Granted splitWriteSpec s p sl → q.argByte 8 = kind → q.argByte 9 = plane →
      q.arg 12 4 = loc → ps = (List.range (q.argByte 16)).map (fun i => q.arg (18 + 2 * i) 2) → 1 ≤ kind → kind ≤ 5 →
      plane < 4 → locationOk kind q.target loc = true → 1 ≤ q.argByte 16 → q.argByte 16 ≤ 16 →
      ps.all (positionOk (codeSide kind)) = true →
      (kind = 1 → ((s.region q.target).plane plane).st ≠ .active) →
      (kind = 2 → (s.bramCfg (256 * q.target + loc / 256 % 256)).raw = false) → asleep s q.target = false →
      splitWord kind q.target plane loc ps s = u →
      Gives (.splitWrite p sl) s (fun t => t.regions = u.1.regions ∧ t.brams = u.1.brams ∧ t.dsp = u.1.dsp ∧
        t.ingot = u.1.ingot ∧ Answered s t p sl stOk [(16, 2, u.2.code)])) ∧
    (Granted crcBindSpec s p sl → q.queryFlag = true →
      Gives (.crcBind p sl) s (fun t => t.integ = s.integ ∧ Answered s t p sl stOk (crcBindResults s q.target))) ∧
    (∀ slot c, Granted crcBindSpec s p sl → q.queryFlag = false → q.argByte 8 = slot → slot < 4 → q.argByte 9 = c →
      c < 16 → (s.crcChan c).bound = none →
      Gives (.crcBind p sl) s (fun t => (t.crcChan c).bound = some (q.target, slot) ∧
        Answered s t p sl stOk (crcBindResults t q.target)))

/-- The CRC units, by the fabric and by the device registers (R416 to R419). -/
def Obligations.CrcOperationsComplete : Prop :=
  ∀ s : State,
    (∀ (r : Fin 64) (size : Fin 4) value,
      (crcTaken s r.val 0 0 (some size.val) value = true →
        Gives (.crcFeed r 0 size value) s (fun t => (t.region r.val).crcLeft = (feedBytes size.val value).length ∧
          t.crcUnit r.val = (s.crcUnit r.val).feed (feedBytes size.val value))) ∧
      (crcTaken s r.val 1 0 none value = true →
        Gives (.crcLoad r 0 value) s (fun t => (t.region r.val).crcLeft = 1 ∧
          t.crcUnit r.val = (s.crcUnit r.val).load value)) ∧
      (crcTaken s r.val 2 0 none value = true →
        Gives (.crcSelect r 0 value) s (fun t => (t.region r.val).crcLeft = 1 ∧
          t.crcUnit r.val = (s.crcUnit r.val).select value)) ∧
      (∀ (unit : Fin 8) c, 1 ≤ unit.val → unit.val ≤ 4 → boundChannel s r.val (unit.val - 1) = some c →
        (crcTaken s r.val 0 unit.val (some size.val) value = true →
          Gives (.crcFeed r unit size value) s (fun t => t.regions = s.regions ∧
            t.crcChan c = (s.crcChan c).feed (feedBytes size.val value))) ∧
        (crcTaken s r.val 1 unit.val none value = true →
          Gives (.crcLoad r unit value) s (fun t => t.regions = s.regions ∧ t.crcChan c = (s.crcChan c).load value)) ∧
        (crcTaken s r.val 2 unit.val none value = true →
          Gives (.crcSelect r unit value) s (fun t => t.regions = s.regions ∧
            t.crcChan c = (s.crcChan c).select value)))) ∧
    (∀ (h : ReqHdr) w u data be off c, mayTakeReq s h .write [w] = true → withLines h .write [w] s = (u, [(data, be)]) →
      rightTo s h.src true h.addr.toNat = .granted →
      decodeAddr (lineAddr h 0) = .regs off → (s.crcChan c).bound = none →
      (regLine off = .crcData c → be ≠ 0 →
        Gives (.crcData h w) s (fun t => t.crcChan c = (s.crcChan c).feed (enabledBytes data be) ∧
          ∃ o, t.outst h.src h.tag = some o ∧ o.resp = some [⟨0, 0⟩])) ∧
      (regLine off = .crcCtrl c → w.2 = be → be.getLsbD 0 = true → be.extractLsb' 8 4 = 0 →
        Gives (.crcCtrl h w) s (fun t => (t.crcChan c).poly = data.extractLsb' 0 2 ∧
          (t.crcChan c).value = (s.crcChan c).value ∧ ∃ o, t.outst h.src h.tag = some o ∧ o.resp = some [⟨0, 0⟩])) ∧
      (regLine off = .crcCtrl c → w.2 = be → be.extractLsb' 8 4 = 0xF#4 →
        Gives (.crcValue h w) s (fun t =>
          (t.crcChan c).poly = (if be.getLsbD 0 then data.extractLsb' 0 2 else (s.crcChan c).poly) ∧
          (t.crcChan c).value = data.extractLsb' 64 32 &&& crcMask (t.crcChan c).poly.toNat ∧
          ∃ o, t.outst h.src h.tag = some o ∧ o.resp = some [⟨0, 0⟩])))

/-! ### Cupola and the command interface (chapter 19) -/

/-- Cupola's own events: machine-checks, the watchdog, restarts, leases, windows and the times of the debug unlock (R481,
R482, R483, R496, R505, R506, R547). -/
def Obligations.CupolaEventsComplete : Prop :=
  ∀ s : State,
    (∀ cause pc, s.awake = true → s.cudex.cup ≠ .stopped → Gives (.machineCheck cause pc) s (WarmDone s · 4)) ∧
    (s.firmware = true → wdAgain s = false → Gives .watchdogExpiry s (fun t => t.cudex.cup = .restarting ∧
      t.cudex.restarts = min 255 (s.cudex.restarts + 1) ∧ t.cudex.wdAt = some s.env.now ∧
      (∀ (p : Port) (sl : Fin 4), (s.slot p sl).st = .accepted → (t.slot p sl).st = .done) ∧
      t.regions = s.regions ∧ t.links = s.links ∧ t.hbm = s.hbm ∧ t.cudex.owners = s.cudex.owners)) ∧
    (s.firmware = true → wdAgain s = true → Gives .watchdogExpiry s (WarmDone (retireStaged s) · 6)) ∧
    (∀ image, s.awake = true → s.cudex.cup = .restarting → bootFirmware s = some image →
      Gives .cupolaRestartComplete s (fun t => t.cudex.cup = .running ∧ t.dev.fwImage = BitVec.ofNat 2 image ∧
        t.cudex.restartWaiter = none ∧
        ∀ w, s.cudex.restartWaiter = some w → Stands s w → (t.slot w.1 w.2.1).st = .done)) ∧
    (s.awake = true → s.cudex.cup = .restarting → Gives .cupolaRestartLimit s (WarmDone s · 6)) ∧
    (∀ (kind : Fin 6) (index : Fin 96) o, s.firmware = true → s.owner (ownKey kind.val index.val) = some o →
      Gives (.leaseExpiry kind index) s (fun t => t.owner (ownKey kind.val index.val) = none ∧
        (∀ k, k ≠ ownKey kind.val index.val → t.owner k = s.owner k) ∧
        (kind = 0 → index.val < 64 → (t.region index.val).persistOv = none))) ∧
    (∀ code kind source w, s.cudex.windows.find? (fun w =>
        w.ev.code == code.toNat && w.ev.kind == kind.toNat && w.ev.src == source.toNat) = some w →
      s.dev.base ≠ .off →
      Gives (.eventWindowClose code kind source) s (fun t =>
        t.cudex.windows = s.cudex.windows.filter (fun x => !sameWindow x.ev w.ev) ∧
        t.cudex.log = if w.counted = 0 then s.cudex.log
          else (logRecord (mkRecord { w.ev with summary := true } s.tick.number.toNat) s.cudex).log)) ∧
    (s.firmware = true → s.dev.debug = true →
      Gives .debugLeaseExpiry s (fun t => t.dev.debug = false ∧ t.cudex.dbg.level = 0 ∧ t.dev.mode ≠ .debug)) ∧
    (s.awake = true → s.cudex.dbg.nonce.isSome = true →
      Gives .nonceExpiry s (fun t => t.cudex.dbg = { s.cudex.dbg with nonce := none })) ∧
    (s.awake = true → s.cudex.dbg.lockout = true →
      Gives .unlockLockoutEnd s (fun t => t.cudex.dbg = { s.cudex.dbg with lockout := false, failures := 0 }))

/-- Doorbells, acknowledgements, MB2's lines and the event paths (R484, R485, R486, R499). -/
def Obligations.MailboxEventsComplete : Prop :=
  ∀ s : State,
    (∀ p sl, portLive p s = true → (s.slot p sl).st = .free →
      Gives (.ring p sl) s (fun t => (t.slot p sl).st = .posted ∧ (t.slot p sl).rangAt = s.env.now ∧
        (t.slot p sl).req = (s.slot p sl).req)) ∧
    (∀ p sl, portLive p s = true → (s.slot p sl).st ≠ .free →
      Gives (.ring p sl) s (fun t => t.slot p sl = s.slot p sl ∧
        (t.port p).ignored = min 4294967295 ((s.port p).ignored + 1))) ∧
    (∀ p sl, portLive p s = true → Gives (.ack p sl) s (fun t => (t.slot p sl).req = (s.slot p sl).req ∧
      (t.slot p sl).st = if (s.slot p sl).st = .done then .free else (s.slot p sl).st)) ∧
    (∀ (r : Fin 64) sl n line wring, mb2Reaches s r.val = true →
      presentsLine s r.val sl.val n.val line wring = true →
      Gives (.mailboxRequestLine r sl n line wring) s (fun t =>
        if (s.slot .mb2 sl).st = .free then
          (t.slot .mb2 sl).st = (if wring then .posted else .free) ∧
          (t.slot .mb2 sl).req.extractLsb' (512 * n.val) 512 = line
        else t.slot .mb2 sl = s.slot .mb2 sl)) ∧
    (∀ (r : Fin 64), mb2Reaches s r.val = true → mailboxReady s r.val false = true → doneSlots s ≠ [] →
      (s.port .mb2).delivered = 0 →
      Gives (.mailboxResponseLine r) s (fun t => ∃ i : Fin 4, (s.slot .mb2 i).st = .done ∧ (t.port .mb2).delivered = 1 ∧
        (t.port .mb2).deliverSlot = i.val ∧ t.cudex.mb2Line = (i.val, 0, (s.slot .mb2 i).resp.extractLsb' 0 512))) ∧
    (∀ (r : Fin 64) (i : Fin 4), mb2Reaches s r.val = true → mailboxReady s r.val false = true →
      (s.port .mb2).deliverSlot = i.val →
      (s.slot .mb2 i).st = .done → (s.port .mb2).delivered = 3 →
      Gives (.mailboxResponseLine r) s (fun t => (t.slot .mb2 i).st = .free ∧ (t.port .mb2).delivered = 0 ∧
        t.cudex.mb2Line = (i.val, 3, (s.slot .mb2 i).resp.extractLsb' 1536 512))) ∧
    (∀ (r : Fin 64) (i : Fin 4) n, mb2Reaches s r.val = true → mailboxReady s r.val false = true → (s.port .mb2).deliverSlot = i.val →
      (s.slot .mb2 i).st = .done → (s.port .mb2).delivered = n → 1 ≤ n → n < 3 →
      Gives (.mailboxResponseLine r) s (fun t => (t.slot .mb2 i).st = .done ∧ (t.port .mb2).delivered = n + 1 ∧
        t.cudex.mb2Line = (i.val, n, (s.slot .mb2 i).resp.extractLsb' (512 * n) 512))) ∧
    (∀ (r : Fin 64) e rest, mb2Reaches s r.val = true → mailboxReady s r.val true = true →
      (s.port .mb2).path = e :: rest → (s.port .mb2).lost = 0 →
      Gives (.mailboxEventRecord r) s (fun t => t.cudex.mb2Event = e ∧ (t.port .mb2).path = rest)) ∧
    (∀ (h : ReqHdr) off e rest, mayTakeReq s h .read [] = true → h.len = 0 → rightTo s h.src false h.addr.toNat = .granted →
      decodeAddr (lineAddr h 0) = .regs off → regLine off = .pop → (s.port .mb0).path = e :: rest →
      (s.port .mb0).lost = 0 →
      Gives (.evPop h) s (fun t => (t.port .mb0).path = rest ∧
        ∃ o, t.outst h.src h.tag = some o ∧ o.resp = some [⟨0, e.setWidth 512⟩]))

/-- The commands of the command interface (Tables 19.16 and R7, R487, R495, R499, R500). -/
def Obligations.InterfaceCommandsComplete : Prop :=
  ∀ (s : State) (p : Port) (sl : Fin 4) (q : Req), s.req p sl = q →
    (∀ b, Granted mb2BindSpec s p sl → q.argByte 8 = b → (b < 64 ∨ b = 0xFF) →
      Gives (.mb2Bind p sl) s (fun t => t.cudex.mb2Region = (if b = 0xFF then none else some b) ∧
        Answered s t p sl stOk (mb2Results t))) ∧
    (∀ k, Granted resClaimSpec s p sl → q.queryFlag = true → ownKey (q.argByte 8) q.target = k →
      Gives (.resClaim p sl) s (fun t => Answered s t p sl stOk (claimResults s k) ∧ t.cudex.owners = s.cudex.owners)) ∧
    (∀ k, Granted resClaimSpec s p sl → q.queryFlag = false → ownKey (q.argByte 8) q.target = k → q.argByte 9 = 0 →
      s.owner k = none → leaseOk (q.arg 12 4) = true →
      Gives (.resClaim p sl) s (fun t => t.owner k = some ⟨p, q.arg 12 4, some q.rangAt, s.env.now⟩ ∧
        (∀ j, j ≠ k → t.owner j = s.owner j) ∧ Answered s t p sl stOk (claimResults t k))) ∧
    (∀ k o, Granted resClaimSpec s p sl → q.queryFlag = false → ownKey (q.argByte 8) q.target = k → q.argByte 9 = 0 →
      s.owner k = some o → ownView q k s = .other → q.force = true → portRank p < portRank o.port →
      leaseOk (q.arg 12 4) = true →
      Gives (.resClaim p sl) s (fun t => t.owner k = some ⟨p, q.arg 12 4, none, s.env.now⟩ ∧
        Answered s t p sl stOk (claimResults t k))) ∧
    (∀ k, Granted resClaimSpec s p sl → q.queryFlag = false → ownKey (q.argByte 8) q.target = k → q.argByte 9 = 1 →
      ownView q k s = .mine →
      Gives (.resClaim p sl) s (fun t => t.owner k = none ∧ Answered s t p sl stOk [(16, 1, 0xFF), (20, 4, 0)])) ∧
    (Granted eventConfigSpec s p sl → q.target = 0xFFFF → q.argByte 10 ≤ 2 →
      Gives (.eventConfig p sl) s (fun t => t.cudex.logThreshold = q.argByte 10 ∧
        Answered s t p sl stOk [(16, 2, 0xFFFF), (18, 1, q.argByte 10)])) ∧
    (Granted eventConfigSpec s p sl → q.target < 4 → q.argByte 10 ≤ 4 →
      Gives (.eventConfig p sl) s (fun t => (t.port (portOf q.target)).classMask = BitVec.ofNat 16 (q.arg 8 2) ∧
        (t.port (portOf q.target)).minSev = q.argByte 10 ∧
        Answered s t p sl stOk [(16, 2, q.arg 8 2), (18, 1, q.argByte 10)])) ∧
    (Granted eventLogReadSpec s p sl →
      Gives (.eventLogRead p sl) s (fun t => t.cudex.log = s.cudex.log ∧ Answered s t p sl stOk
        ([(16, 4, (logFrom s.cudex (q.arg 8 4)).1), (20, 4, s.cudex.overwritten)] ++
          (List.range (logFrom s.cudex (q.arg 8 4)).2.length).map (fun i =>
            (24 + 32 * i, 32, (lget 0 (logFrom s.cudex (q.arg 8 4)).2 i).toNat))))) ∧
    (Granted cupolaRestartSpec s p sl →
      Gives (.cupolaRestart p sl) s (fun t => Waits t p sl ∧ t.cudex.cup = .restarting ∧
        t.cudex.restarts = min 255 (s.cudex.restarts + 1) ∧
        ∀ (p' : Port) (sl' : Fin 4), ¬(p' = p ∧ sl' = sl) → (s.slot p' sl').st = .accepted → (t.slot p' sl').st = .done)) ∧
    (canTake s p sl = true → allocated q.opcode = false →
      Gives (.unallocatedOpcode p sl) s (fun t => Answered s t p sl (if isMalformed q then stBadArg else stUnsupported) []))

/-- The flash and debug commands, and the end of a flash operation (R169, R502, R504, R505, R506). -/
def Obligations.FlashAndDebugComplete : Prop :=
  ∀ (s : State) (p : Port) (sl : Fin 4) (q : Req), s.req p sl = q →
    (∀ kind a len u copy d i e, Granted fwStageSpec s p sl → q.argByte 8 = kind → q.arg 16 8 = a → q.arg 24 4 = len →
      (kind = 1 ∨ kind = 2) → a % 64 = 0 → len ≠ 0 → a + len ≤ hbmBytes → spanProtected s a len = false →
      s.lib.jobs = [] → readBuffer 64 a len (takenState fwStageSpec s p sl) = u →
      verifyStaged kind u.2 len u.1 = none → s.lib.dirInUse = some (copy, d) →
      entryOf d ((if kind = 1 then 1 else 0x11) + (stageSlot d (if kind = 1 then 1 else 0x11)).1 - 1) = some (i, e) →
      u.2.length ≤ entrySpace s.lib d i e →
      Gives (.fwStage p sl) s (fun t => Waits t p sl ∧ t.lib.flash = s.lib.flash ∧ ∃ j, t.lib.jobs = [j] ∧
        j.ops = stageOps s.lib copy d i e (stageSlot d (if kind = 1 then 1 else 0x11)).2 u.2)) ∧
    (∀ addr len, Granted flashAccessSpec s p sl → devTarget q = true → p ≠ .mb3 → q.argByte 8 = 1 → q.argByte 9 ≤ 1 →
      q.arg 12 4 = addr → q.arg 16 4 = len → addr % 4096 = 0 → len % 4096 = 0 → mayWriteFlash s addr len = true →
      s.lib.jobs = [] → len ≤ s.lib.flashRoom addr →
      Gives (.flashAccess p sl) s (fun t => Waits t p sl ∧ t.lib.flash = s.lib.flash ∧ ∃ w,
        t.lib.jobs = [{ ops := [.erase addr len], waiter := some w }])) ∧
    (∀ addr len, Granted flashAccessSpec s p sl → devTarget q = true → p ≠ .mb3 → q.argByte 8 = 0 → q.argByte 9 = 0 →
      q.arg 12 4 = addr → q.arg 16 4 = len → len ≤ 224 → s.lib.jobs = [] → len ≤ s.lib.flashRoom addr →
      Gives (.flashAccess p sl) s (fun t => t.lib = s.lib ∧ Answered s t p sl stOk
        ((List.range len).map (fun i => (16 + i, 1, (lget 0 (s.lib.flashBytes addr len) i).toNat))))) ∧
    (∀ o w, s.awake = true → s.lib.jobs = [{ ops := [o], waiter := some w }] →
      Gives (.programOrEraseEnd false) s (fun t => t.lib.jobs = [] ∧ t.lib.flash = o.apply s.lib.flash ∧
        (Stands s w → (t.slot w.1 w.2.1).st = .done))) ∧
    (Granted debugUnlockSpec s p sl → q.argByte 8 = 0 → (s.dev.mode = .run ∨ s.dev.mode = .degraded) →
      s.cudex.dbg.lockout = false →
      Gives (.debugUnlock p sl) s (fun t => ∃ nonce, t.cudex.dbg = { s.cudex.dbg with nonce := some nonce } ∧
        Answered s t p sl stOk [(16, 32, nonce.toNat), (48, 16, s.env.fuses.deviceId.toNat)])) ∧
    (∀ nonce, Granted debugUnlockSpec s p sl → q.argByte 8 = 1 → 1 ≤ q.argByte 9 → q.argByte 9 ≤ 2 →
      60 ≤ q.arg 12 4 → q.arg 12 4 ≤ 86400 → (s.dev.mode = .run ∨ s.dev.mode = .degraded) →
      s.cudex.dbg.nonce = some nonce →
      Gives (.debugUnlock p sl) s (fun t => t.cudex.dbg.nonce = none ∧
        if checkUnlock q nonce s.env.fuses = .refused then
          Answered s t p sl stDenied [] ∧ t.cudex.dbg.failures = s.cudex.dbg.failures + 1 ∧ t.dev.debug = s.dev.debug
        else Answered s t p sl stOk [] ∧ t.dev.debug = true ∧ t.cudex.dbg.failures = 0 ∧
          t.cudex.dbg.level = q.argByte 9 ∧ t.cudex.dbg.lease = q.arg 12 4)) ∧
    (∀ plane x y, Granted debugStateReadSpec s p sl → s.dev.debug = true → q.argByte 8 = plane → q.arg 10 2 = x →
      q.arg 12 2 = y → plane < 4 → x < 512 → y < 256 → x / 64 + 8 * (y / 32) = q.target →
      (((s.region q.target).plane plane).st = .active → s.dev.mode = .frozen) →
      ((s.region q.target).plane plane).st ≠ .invalid → asleep s q.target = false →
      Gives (.debugStateRead p sl) s (fun t => t.regions = s.regions ∧ Answered s t p sl stOk
        (blockState (s.region q.target) plane (64 * (y % 32) + x % 64))))

/-! ### Ports to the board, device registers and the fabric (chapters 4, 5 and 20) -/

/-- GPIO banks and I/O, the delay line and the host endpoint's commands (R508, R509, R512 to R515). -/
def Obligations.HostAndGpioComplete : Prop :=
  ∀ s : State,
    (∀ (p : Port) (sl : Fin 4) (c v : Nat), Granted gpioBankSpec s p sl → (s.req p sl).queryFlag = false →
      (s.req p sl).target = c → (s.req p sl).argByte 8 = v → (v = 12 ∨ v = 15 ∨ v = 18) →
      (∀ n, n < 48 → (s.gpioOf (48 * c + n)).oeReg = false ∧ ((s.gpioOf (48 * c + n)).std = 0 ∨
        v ∈ stdVolts (s.gpioOf (48 * c + n)).std)) →
      Gives (.gpioBank p sl) s (fun t => bankVolt t c = v ∧ Answered s t p sl stOk (gpioBankResults c t))) ∧
    (∀ (p : Port) (sl : Fin 4) (q : Req) n, Granted gpioIoSpec s p sl → s.req p sl = q → q.queryFlag = false →
      q.target = n → gpioArgsOk q s = true →
      ((s.gpioOf n).delayOut = (q.argByte 9).testBit 1 ∨ (s.gpioOf n).oeReg = false) →
      Gives (.gpioIo p sl) s (fun t => (t.gpioOf n).std = q.argByte 8 ∧ (t.gpioOf n).pull = q.argByte 10 ∧
        (t.gpioOf n).taps = q.arg 12 2 ∧ (t.gpioOf n).tapNow = (s.gpioOf n).tapNow ∧
        Answered s t p sl stOk (gpioResults (t.gpioOf n)))) ∧
    (∀ (n : Fin 384), s.awake = true → (s.gpioOf n.val).tapNow ≠ (s.gpioOf n.val).taps →
      Gives (.delayLineStep n) s (fun t => (t.gpioOf n.val).tapNow =
          (if (s.gpioOf n.val).tapNow < (s.gpioOf n.val).taps then (s.gpioOf n.val).tapNow + 1
            else (s.gpioOf n.val).tapNow - 1) ∧
        (t.gpioOf n.val).taps = (s.gpioOf n.val).taps)) ∧
    (∀ (p : Port) (sl : Fin 4), Granted hostStatusSpec s p sl → ((s.req p sl).argByte 8).testBit 0 = true →
      (p = .mb0 ∨ p = .mb1) →
      Gives (.hostStatus p sl) s (fun t => t.io.pcie.counters = [0, 0, 0, 0, 0] ∧
        Answered s t p sl stOk (hostResults s))) ∧
    (∀ (p : Port) (sl : Fin 4), Granted hostStatusSpec s p sl → ((s.req p sl).argByte 8).testBit 0 = false →
      Gives (.hostStatus p sl) s (fun t => t.io.pcie.counters = s.io.pcie.counters ∧
        Answered s t p sl stOk (hostResults s))) ∧
    (∀ bar2 off rd bytes n, hostLinkUp s = true → hostSized bar2 off rd bytes n = true →
      hostRoom (barAddr bar2 off) (if rd then n else bytes.length) rd s = true →
      Gives (.hostRequest bar2 off rd bytes n) s (fun t =>
        ∀ x ∈ (hostParts (barAddr bar2 off) (if rd then n else bytes.length)).zip (hostTags s),
          ∃ o, t.outst .host (Fin.ofNat 64 x.2) = some o ∧ o.hdr = hostHdr x.1.1 x.1.2 (Fin.ofNat 64 x.2) ∧
            o.op = if rd then .read else .write)) ∧
    (∀ kind, hostLinkUp s = true → Gives (.pcieReset kind) s (fun t =>
      (∀ sl, (t.slot .mb0 sl).st = .free) ∧ t.io.pcie.jobs = [] ∧ t.io.pcie.d3hot = false ∧
      t.io.pcie.up = (decide (kind ≠ .linkDown)) ∧ t.cudex.owners = s.cudex.owners)) ∧
    (s.io.pcie.heldReset = false → Gives .peRstAssert s (fun t => t.io.pcie.heldReset = true ∧
      (s.dev.straps.hostSel = true → t.io.pcie.up = false ∧ ∀ sl, (t.slot .mb0 sl).st = .free))) ∧
    (s.io.pcie.heldReset = true → Gives .peRstRelease s (fun t => t.io.pcie.heldReset = false ∧
      t.io.pcie.up = s.io.pcie.up)) ∧
    (∀ rate width, s.awake = true → s.dev.straps.hostSel = true → s.io.pcie.heldReset = false → s.io.pcie.up = false →
      Gives (.pcieLinkUp rate width) s (fun t => t.io.pcie.up = true ∧ t.io.pcie.rate = rate.val ∧
        t.io.pcie.width = width.val)) ∧
    (∀ d3hot, hostLinkUp s = true → Gives (.pciePowerStateChange d3hot) s (fun t => t.io.pcie.d3hot = d3hot ∧
      t.io.pcie.up = true ∧ t.io.pcie.counters = s.io.pcie.counters))

/-- The management port and JTAG (R516, R517, R519, R520, R521). -/
def Obligations.BoardPortsComplete : Prop :=
  ∀ s : State,
    (∀ (p : Port) (sl : Fin 4) (q : Req) a, Granted mgmtConfigSpec s p sl → s.req p sl = q → q.queryFlag = false →
      q.argByte 8 = a → 8 ≤ a → a ≤ 0x77 → q.argByte 9 ≤ 1 →
      Gives (.mgmtConfig p sl) s (fun t => t.io.pec = (q.argByte 9 == 1) ∧ t.io.i2cAddr = s.io.i2cAddr ∧
        t.io.nextAddr = (if a = s.io.i2cAddr then none else some (a, p, sl)) ∧
        Answered s t p sl stOk [(16, 1, a), (17, 1, q.argByte 9), (18, 1, s.io.dynAddr), (20, 4, s.io.pecFails)])) ∧
    (∀ (lo hi : Byte) data pec (k : Fin 4) off, s.dev.base ≠ .off →
      (s.io.pec = true → mgmtPec (lo :: hi :: data) s = pec) → lo.toNat + 256 * hi.toNat = 256 * k.val + off →
      off + data.length ≤ 256 → (s.slot .mb1 k).st = .free →
      Gives (.mgmtWrite (lo :: hi :: data) pec) s (fun t => ∀ i, i < 256 →
        byteOf (t.slot .mb1 k).req i = if off ≤ i ∧ i < off + data.length then data.getD (i - off) 0
          else byteOf (s.slot .mb1 k).req i)) ∧
    (∀ pec (k : Fin 4), s.dev.base ≠ .off → s.io.pec = false → (s.slot .mb1 k).st = .free →
      Gives (.mgmtWrite [0x01, 0x08, BitVec.ofNat 8 (2 ^ k.val)] pec) s (fun t => (t.slot .mb1 k).st = .posted)) ∧
    (∀ bytes pec, s.dev.base ≠ .off → s.io.pec = true → mgmtPec bytes s ≠ pec →
      Gives (.mgmtWrite bytes pec) s (fun t => t.io.pecFails = min 4294967295 (s.io.pecFails + 1) ∧
        ∀ p sl, t.slot p sl = s.slot p sl)) ∧
    (∀ off n, s.dev.base ≠ .off → (0xC00 < off.toNat ∨ off.toNat + n < 0xC20) →
      Gives (.mgmtRead off n) s (fun t => t.io.mgmtOut = spaceBytes .mb1 off.toNat n s ∧
        (t.port .mb1).path = (s.port .mb1).path)) ∧
    (∀ off n e rest, s.dev.base ≠ .off → off.toNat ≤ 0xC00 → 0xC20 ≤ off.toNat + n →
      (s.port .mb1).path = e :: rest → (s.port .mb1).lost = 0 →
      Gives (.mgmtRead off n) s (fun t => t.io.mgmtOut = spaceBytes .mb1 off.toNat n s ∧
        (t.port .mb1).path = rest)) ∧
    (∀ a, s.dev.base ≠ .off → Gives (.dynamicAddressAssignment a) s (fun t => t.io.dynAddr = a.toNat ∧
      t.io.i2cAddr = s.io.i2cAddr)) ∧
    (∀ dr off, s.dev.base ≠ .off → (dr.extractLsb' 32 16).toNat = off → off % 4 = 0 → dr.getLsbD 48 = false →
      Gives (.mbacc dr) s (fun t => t.io.mbacc.getLsbD 49 = true ∧
        t.io.mbacc.extractLsb' 0 32 = BitVec.ofNat 32 (leNat (spaceBytes .mb3 off 4 s)))) ∧
    (∀ dr (k : Fin 4) off, s.dev.base ≠ .off → (dr.extractLsb' 32 16).toNat = 256 * k.val + off → off + 4 ≤ 256 →
      off % 4 = 0 → dr.getLsbD 48 = true → (s.slot .mb3 k).st = .free →
      Gives (.mbacc dr) s (fun t => t.io.mbacc.getLsbD 49 = true ∧
        ∀ i, i < 4 → byteOf (t.slot .mb3 k).req (off + i) = byteOf (dr.extractLsb' 0 32) i)) ∧
    (∀ i ir b, (i, ir) ∈ [(Instr.extest b, (0x00 : BitVec 8)), (.extestPulse b, 0x03), (.extestTrain b, 0x04)] →
      s.dev.base ≠ .off → Gives i s (fun t => t.io.jtagIr = ir ∧ t.io.boundary = b ∧
        t.io.extest = decide (s.dev.mode = .standby ∨ s.dev.mode = .recovery ∨ s.dev.mode = .test))) ∧
    (∀ b, s.dev.base ≠ .off → Gives (.samplePreload b) s (fun t =>
      t.io.jtagIr = 0x01 ∧ t.io.boundary = b ∧ t.io.extest = false)) ∧
    (∀ i ∈ [Instr.idcode, .trstAssert], s.dev.base ≠ .off → Gives i s (fun t => t.io.jtagIr = 0x02 ∧
      t.io.extest = false ∧ t.io.jtagDr.extractLsb' 28 4 = s.env.fuses.version ∧
      t.io.jtagDr.extractLsb' 12 16 = 0x6496 ∧ t.io.jtagDr.extractLsb' 1 11 = s.env.fuses.maker ∧
      t.io.jtagDr.getLsbD 0 = true)) ∧
    (s.dev.base ≠ .off → Gives .bypass s (fun t => t.io.jtagIr = 0xFF ∧ t.io.extest = false ∧
      t.io.jtagDr = 0))

/-- Accesses to the device registers, and an edge of a fabric clock (R80, R81, R85, R93, R139, R146, R510, R511, R549). -/
def Obligations.RegistersAndFabricComplete : Prop :=
  ∀ s : State,
    (∀ h : ReqHdr, mayTakeReq s h .read [] = true → inRegLines h (fun l => decide (l = .state)) = true →
      h.addr.toNat % 64 = 8 → rightTo s h.src false h.addr.toNat = .granted → h.len = 0 →
      Gives (.tickNumberLowRead h) s (fun t => t.tick.latched = some (s.tick.number.extractLsb' 32 32) ∧
        ∃ o, t.outst h.src h.tag = some o ∧ o.resp = some [⟨0, stateRegsLine s⟩])) ∧
    (∀ (h : ReqHdr) w u data be off, mayTakeReq s h .write [w] = true → withLines h .write [w] s = (u, [(data, be)]) →
      rightTo s h.src true h.addr.toNat = .granted → decodeAddr (lineAddr h 0) = .regs off → regLine off = .state →
      Gives (.registerWrite h [w]) s (fun t =>
        t.clk.forced = (s.clk.forced && !(be.getLsbD 0x18 && data.getLsbD 0xC3)) ∧
        t.clk.lost = (if be.getLsbD 0x18 then data.getLsbD 0xC2 else s.clk.lost) ∧
        t.cudex.restarts = (if be.getLsbD 0x2A then (byteOf data 0x2A).toNat else s.cudex.restarts) ∧
        ∃ o, t.outst h.src h.tag = some o ∧ o.resp = some [⟨0, 0⟩])) ∧
    (∀ (r : Fin 64) (i : FabricInputs) (x : Region), fabricRuns s r.val = true → s.region r.val = x → x.deferred = none →
      Gives (.fabricClockEdge r i) s (fun t =>
        (t.region r.val).active = x.active ∧ (t.region r.val).slotPins = slotPinsOf s r.val ∧
        (t.region r.val).ups = i.ports ∧ (∀ j, j < 32 → (t.engine (32 * r.val + j)).evt = false) ∧
        (∀ c one v, c < 65536 → v = tget false (t.region r.val).now.ff (2 * c + bit one) →
          v = ffNext (x.now.use.cell c) (pinsOf s r.val c) (cellSignal s r.val c) (delivers s r.val (c / 32)) one
              (tget false x.now.ff (2 * c + bit one)) ∨
          ∃ e ∈ x.now.use.cells, e.1 = c ∧ e.2.srAsync = true ∧ v = if one then e.2.srVal1 else e.2.srVal0) ∧
        (∀ c, c < 65536 → (x.now.use.cell c).mode = .ram → cellCe (x.now.use.cell c) (pinsOf s r.val c) = true →
          delivers s r.val (c / 32) = true →
          ((t.region r.val).now.use.cell c).lut.getLsbD (pinsOf s r.val c).a.toNat = (pinsOf s r.val c).bx) ∧
        (∀ b j, (b, j) ∈ bridgeWrites s r.val →
          (∀ w ∈ bridgeWrites s r.val, 16 * w.1 + w.2 = 16 * b + j → w = (b, j)) →
          tget 0 (t.region r.val).brg (16 * b + j) = bridgeValue s r.val b) ∧
        (∀ n, (∀ w ∈ bridgeWrites s r.val, 16 * w.1 + w.2 ≠ n) → tget 0 (t.region r.val).brg n = tget 0 x.brg n) ∧
        (classB r.val = true → ∀ k n, k < 48 → 48 * r.val + k = n → t.gpioOf n =
          if isComplement s n then s.gpioOf n
          else captureGpio x.isoHold (decide (s.dev.release = .done)) (i.rise.getLsbD k) (i.fall.getLsbD k)
            (portDown s r.val (.gpio k)) (s.gpioOf n))))

/-! ### The whole machine -/

/-- What power-on reset leaves, where the manual states it (R66, R70, R135, R220, R270, R329, R454, R500, R516, Tables 3.7,
6.1 and 9.2): STANDBY with cause power-on, the tick at its defaults, engines halted with every register zero, lanes OFF,
the node ID unassigned, queues DISABLED without a spill area, no owner, and the defaults of budgets, log and management
port. -/
def Obligations.ResetLeavesTheStatedValues : Prop :=
  State.reset.dev.mode = .standby ∧ State.reset.dev.resetCause = 1 ∧ State.reset.dev.alarm = false ∧
  State.reset.tick.number = 0 ∧ State.reset.tick.cfg.period = 46875 ∧ State.reset.sys.node = 0x3FFFF ∧
  State.reset.riser.spillPages = 0 ∧ State.reset.cudex.owners = [] ∧ State.reset.cudex.logThreshold = 1 ∧
  State.reset.io.i2cAddr = 0x5A ∧ State.reset.hbm.mem = [] ∧ State.reset.ingot.mem = [] ∧
  (∀ r, (State.reset.govern r).budget = some 30 ∧ (State.reset.region r).spineDisable = 0 ∧
    (State.reset.region r).brg = []) ∧
  (∀ e, (State.reset.engine e).st = .halted ∧ (State.reset.engine e).pc = 0 ∧ (State.reset.engine e).stat = 0 ∧
    (∀ n, (State.reset.engine e).dreg n = 0 ∧ lget 0 (State.reset.engine e).accNow n = 0 ∧
      lget 0 (State.reset.engine e).a n = 0)) ∧
  (∀ l, (State.reset.lane l).st = .off ∧ (State.reset.lane l).cfg.mode = .off) ∧
  (∀ q, (State.reset.queue q).enabled = false) ∧
  (∀ p sl, (State.reset.slot p sl).st = .free)

/-- At reset the reported mode is the one that the conditions give (R57). -/
def Obligations.ModeKeptAtReset : Prop := ModeKept State.reset

/-- Every step keeps the reported mode the one that the conditions give, in the order of R58 (R57, R58). -/
def Obligations.EveryStepKeepsTheMode : Prop := ∀ s t : State, ModeKept s → step s = .next t → ModeKept t

/-- Every command answers a next state, with the queue's rest and the fuses as they were (R66). -/
def Obligations.EveryCommandAnswers : Prop :=
  ∀ (i : Instr) (s : State), ∃ t, exec i s = .next t ∧ t.pending = s.pending ∧ t.env.fuses = s.env.fuses

/-- The checks of a request in their order (R491, R492, R495): each refusal has the first failing check's status, carries no
results, and changes no part of the device and no owner. -/
def Obligations.RequestsAreCheckedInOrder : Prop :=
  ∀ (i : Instr) (s : State) (p : Port) (sl : Fin 4) (c : CmdSpec) (q : Req) (refused : Nat → State → Prop),
    i.request = some (p, sl, c) → Asks s p sl c.opcode → takenReq s p sl = q →
    (∀ st t, refused st t ↔ Answered s t p sl st [] ∧ (∀ x : Part, x.same s t) ∧ t.cudex.owners = s.cudex.owners) →
    ((8 ≤ q.flags ∨ 248 < q.argLen) → Gives i s (refused stBadArg)) ∧
    (q.flags < 8 → q.argLen ≤ 248 →
      (∀ st, modeRefusal (serverOf s) s.dev.mode q (isQuery c q) = some st → Gives i s (refused st)) ∧
      (modeRefusal (serverOf s) s.dev.mode q (isQuery c q) = none →
        (∀ st, mb3Refusal s (serverOf s) q (isQuery c q) = some st → Gives i s (refused st)) ∧
        (mb3Refusal s (serverOf s) q (isQuery c q) = none →
          (c.portOk q = false → Gives i s (refused stDenied)) ∧
          (c.portOk q = true → c.targetOk q = false → Gives i s (refused stBadArg)) ∧
          (c.portOk q = true → c.targetOk q = true → isQuery c q = false →
            (∀ k ∈ c.owners q (acceptSlot p sl s), ownView q k s ≠ .conflict) →
            (∃ k ∈ c.owners q (acceptSlot p sl s), ownView q k s = .other) → Gives i s (refused stNotOwner)) ∧
          (c.portOk q = true → c.targetOk q = true → isQuery c q = false →
            (∀ k ∈ c.owners q (acceptSlot p sl s), ownView q k s ≠ .other) →
            (∃ k ∈ c.owners q (acceptSlot p sl s), ownView q k s = .conflict) → Gives i s (refused stConflict)))))

/-- A command that needs the owner of a resource that has none claims it for the requesting port, with a lease of 60 s
(R495): said of the commands that change at most one part of the device. -/
def Obligations.MissingOwnersAreClaimed : Prop :=
  ∀ (i : Instr) (s : State) (p : Port) (sl : Fin 4) (c : CmdSpec) (k : Nat),
    i.request = some (p, sl, c) → i.mayChange.length ≤ 1 → Granted c s p sl → isQuery c (takenReq s p sl) = false →
    k ∈ c.owners (takenReq s p sl) (acceptSlot p sl s) → s.owner k = none →
    Gives i s (fun t => t.owner k = some ⟨p, 60, some (s.req p sl).rangAt, s.env.now⟩)

/-! ### What commands leave unchanged -/

/-- Commands and events of the ports, the mailboxes and the board pins, and pure queries, change no other part of the device
(chapters 19 and 20, R486, R516, R519). -/
def Obligations.PortCommandsLeaveTheDevice : Prop := ∀ (i : Instr) (s : State), i.mayChange = [] → Confined i s []

/-- A command of one part of the device changes no other: clocks, regions, bonds, the Runner's records, the tick, block
memories, Ingot banks, engines, lanes, links, queues, the system layer, protection, integrity, sensors, the library. -/
def Obligations.OnePartCommandsLeaveTheOthers : Prop :=
  ∀ (i : Instr) (s : State) (x : Part), i.mayChange = [x] → Confined i s [x]

/-- A command of a few parts changes no other: bundles of an engine, fills, loads, self-test, transitions of a region. -/
def Obligations.FewPartCommandsLeaveTheOthers : Prop :=
  ∀ (i : Instr) (s : State), 2 ≤ i.mayChange.length → i.mayChange.length ≤ 6 → Confined i s i.mayChange

/-- Runner requests, queue accesses, link traffic and the like change no part but those that a target of theirs lies in. -/
def Obligations.TrafficLeavesTheOtherParts : Prop :=
  ∀ (i : Instr) (s : State), 7 ≤ i.mayChange.length → Confined i s i.mayChange

/-- A command of one region, engine, lane, link, queue or block memory leaves every other as it was. -/
def Obligations.OtherInstancesAreLeft : Prop :=
  ∀ s : State,
    (∀ (p : Port) (sl : Fin 4) (r : Nat), r ≠ (s.req p sl).target → ∀ i ∈ [Instr.regionClock p sl, .regionPower p sl,
      .scheduleSet p sl, .planeFill p sl, .planeOverride p sl, .planeStatus p sl, .spineEnable p sl, .bramClear p sl,
      .dspHalt p sl], Leaves i s (·.region r)) ∧
    (∀ (k : Fin 64) (r : Nat), r ≠ k.val → ∀ i ∈ [Instr.fabricClockChange k, .quiesceAck k, .quiesceTimeout k,
      .shelfSaveComplete k], Leaves i s (·.region r)) ∧
    (∀ (k : Fin 64) (i : FabricInputs) (r : Nat), r ≠ k.val →
      Leaves (.fabricClockEdge k i) s (fun s =>
        { (s.region r).modPlane (s.region r).active (fun p => { p with ff := [] }) with isoVals := [] }) ∧
      ((s.region k.val).deferred = none → (∀ e ∈ (s.region r).now.use.cells, e.2.srAsync = false) →
        Leaves (.fabricClockEdge k i) s (·.region r))) ∧
    (∀ (e : Fin 2048) (k : Nat), k ≠ e.val → ∀ i ∈ [Instr.bundle e, .b e, .call e, .ret e, .beqz e, .bnez e, .bltz e,
      .bgez e, .bdec e, .limm e, .loop e, .nop e, .halt e, .waiti e, .reti e, .ei e, .di e, .sig e,
      .reservedBranchOrSystemOp e, .interruptEntry e, .waitiResume e, .timerExpiry e, .doorbell e, .start e],
      Leaves i s (·.engine k)) ∧
    (∀ e : Fin 2048, ∀ i ∈ [Instr.b e, .call e, .ret e, .beqz e, .bnez e, .bltz e, .bgez e, .bdec e, .limm e, .loop e,
      .nop e, .halt e, .waiti e, .reti e, .ei e, .di e, .sig e, .reservedBranchOrSystemOp e],
      Leaves i s (fun s => (s.engine e.val).data)) ∧
    (∀ (p : Port) (sl : Fin 4) (l : Nat), l ≠ (s.req p sl).target → ∀ i ∈ [Instr.laneStatus p sl, .laneReset p sl,
      .laneSlip p sl, .laneEyescan p sl, .laneInject p sl], Leaves i s (·.lane l)) ∧
    (∀ (k : Fin 96) (l : Nat), l ≠ k.val → ∀ i ∈ [Instr.injectError k, .cdrLocked k, .trainingDone k, .trainingTimeout k,
      .laneLockAcquired k, .laneTransmitItem k, .prbsCheckerLock k, .prbsCheckerLockLost k], Leaves i s (·.lane l)) ∧
    (∀ (p : Port) (sl : Fin 4) (l : Nat), l ≠ (s.req p sl).target → ∀ i ∈ [Instr.linkStatus p sl, .linkLoopback p sl],
      Leaves i s (·.link l)) ∧
    (∀ (k : Fin 48) (l : Nat), l ≠ k.val → ∀ i ∈ [Instr.gapSkewTimeout k, .nakReplayTimeout k, .linkBackoffEnd k,
      .linkUpStable k, .startingDegradeTimeout k, .helloInterval k], Leaves i s (·.link l)) ∧
    (∀ (p : Port) (sl : Fin 4) (q : Nat), q ≠ (s.req p sl).target → Leaves (.riserStatus p sl) s (·.queue q)) ∧
    (∀ (p : Port) (sl : Fin 4) (q : Nat), q ≠ (s.req p sl).target → q ≠ (s.req p sl).arg 10 2 →
      (s.queue (s.req p sl).target).role ≠ .send (some q) → Leaves (.sprueQueue p sl) s (·.queue q)) ∧
    (∀ (k : Fin 16384) (m : Nat), m ≠ k.val → (∀ a b f, Leaves (.bramPortOperation k a b f) s (·.bram m)) ∧
      Leaves (.maintenanceSteal k) s (·.bram m))

/-! ### Rules stated whole -/

/-- The look-up table in its two modes (R79): bit i for the input value i, with `LB` zero, or two functions of `A1` to `A5`
that ignore `A6`; and carry mode (R83): propagate terms from the two halves, generate terms from `BX` and `BY`. Further, of
every signal of the routing: a multiplexer that selects no source drives 0, one that selects a source drives that (R104, R107,
R109); a wire that stays in its region has its driver's value (R105), and one that enters a region what the isolation cell gives
(R106, R121); a dead spine is 0 (R115, R116); a high asynchronous `SR` holds a flip-flop (R81). -/
def Obligations.LookUpTableAndCarry : Prop :=
  (∀ (s : State) (f : CellCfg) (n : CellOut → Node) (a : BitVec 6) (bx by_ cin : Bool) (i j : Nat),
    a.toNat = i → i % 32 = j →
    (f.mode = .whole → lutOut f a = (f.lut.getLsbD i, false)) ∧
    (f.mode = .split → lutOut f a = (f.lut.getLsbD (32 + j), f.lut.getLsbD j)) ∧
    (f.mode = .carry → lutOut f a = (f.lut.getLsbD (32 + j), f.lut.getLsbD j) ∧
      ∀ p0 p1 c1, (p1, p0) = lutOut f a → c1 = (if p0 then cin else bx) →
        cellCarry s f n a bx by_ cin = (p0 ^^ cin, p1 ^^ c1, if p1 then c1 else by_))) ∧
  (∀ (s : State) (rec : Node → Bool) (x y r b : Nat) (u : PlaneUse), regionAt x y = r → blockAt x y = b →
    (s.region r).now.use = u →
    (∀ o, u.xsel r b o = none → nodeValue s rec (.xout x y o) = false) ∧
    (∀ o i, u.xsel r b o = some i → nodeValue s rec (.xout x y o) = rec (.xin x y i)) ∧
    (∀ o, u.bsel b o = none → nodeValue s rec (.box x y o) = false) ∧
    (∀ w d x0 y0, d ≤ w.dir.inside x y → w.dir.behind x y d = some (x0, y0) →
      nodeValue s rec (.wire x y w d) = rec (if w.span.onDrag then .box x0 y0 (.wire w) else .xout x0 y0 (.wire w))) ∧
    (∀ w d x1 y1, w.dir.inside x y < d → w.dir.behind x y (w.dir.inside x y) = some (x1, y1) →
      nodeValue s rec (.wire x y w d) = rec (.crossing x1 y1 w (d - w.dir.inside x y))) ∧
    (∀ w back c, Border.wire w back (w.dir.place x y) = c → w.dir.behind x y 1 ≠ none → borderHeld s r c = true →
      nodeValue s rec (.crossing x y w back) = (s.region r).isoVals.contains c) ∧
    (∀ w back x0 y0, w.dir.behind x y 1 = some (x0, y0) →
      borderHeld s r (.wire w back (w.dir.place x y)) = false →
      nodeValue s rec (.crossing x y w back) = rec (.wire x0 y0 w (back - 1))) ∧
    (∀ k, (s.region r).spineDead k = true → nodeValue s rec (.spine r k) = false) ∧
    (∀ c, (u.cell (32 * b + c)).srAsync = true → rec (.xout x y (.pin c .sr)) = true →
      nodeValue s rec (.cell x y c .q0) = (u.cell (32 * b + c)).srVal0 ∧
      nodeValue s rec (.cell x y c .q1) = (u.cell (32 * b + c)).srVal1))

/-- The order of modes whose conditions hold at once (R58), the other conditions standing as they are, and the two fields of
`DEV_STATE` that show DEGRADED and the alarm whatever the mode. -/
def Obligations.FirstModeWhoseConditionHolds : Prop :=
  ∀ s : State,
    (ModeKept s → s.dev.base = .running →
      (s.dev.cooldown = true → s.dev.mode = .cooldown) ∧
      (s.dev.cooldown = false → s.dev.hold = true → s.dev.mode = .hold) ∧
      (s.dev.cooldown = false → s.dev.hold = false → s.dev.frozenCmd = true → s.dev.mode = .frozen) ∧
      (s.dev.cooldown = false → s.dev.hold = false → s.dev.frozenCmd = false → s.dev.debug = true → s.dev.mode = .debug) ∧
      (s.dev.cooldown = false → s.dev.hold = false → s.dev.frozenCmd = false → s.dev.debug = false →
        s.dev.mode = if isDegraded s then .degraded else .run)) ∧
    (∀ cause, (settleMode cause s).dev.mode = modeOf s ∧
      (settleMode cause s).dev.cooldown = s.dev.cooldown ∧ (settleMode cause s).dev.hold = s.dev.hold ∧
      (settleMode cause s).dev.frozenCmd = s.dev.frozenCmd ∧ (settleMode cause s).dev.debug = s.dev.debug ∧
      isDegraded (settleMode cause s) = isDegraded s) ∧
    devState s / 2 ^ 17 % 2 = (if isDegraded s then 1 else 0) ∧ devState s / 2 ^ 16 % 2 = (if s.dev.alarm then 1 else 0)
end

