-- ==== Sys2Proof/Laws/Store.lean ====
section
/-! SUPPORT. What reading gives after writing in tables, lists and memories, and that every operation of a table or a
memory keeps the canonical form. -/

namespace Sys2Proof.Machine

variable {α : Type}

/-! ### Lists -/

theorem getD_append_replicate (d : α) (l : List α) (n j : Nat) : (l ++ List.replicate n d).getD j d = l.getD j d := by
  simp only [List.getD_eq_getElem?_getD, List.getElem?_append]
  split
  · rfl
  · rename_i h
    rw [List.getElem?_replicate, List.getElem?_eq_none (by omega)]
    split <;> rfl

/-- An entry reads back as it was put. -/
@[simp] theorem lget_lput_same (d : α) (l : List α) (i : Nat) (v : α) : lget d (lput d l i v) i = v := by
  unfold lget lput
  rw [List.getD_eq_getElem?_getD, List.getElem?_set_self]
  · rfl
  · simp; omega

/-- Putting an entry leaves every other one. -/
theorem lget_lput_ne (d : α) (l : List α) (i j : Nat) (v : α) (h : j ≠ i) : lget d (lput d l i v) j = lget d l j := by
  unfold lget lput
  rw [List.getD_eq_getElem?_getD, List.getElem?_set_ne (fun e => h e.symm), ← List.getD_eq_getElem?_getD]
  exact getD_append_replicate d l _ j

@[simp] theorem lget_lmod_same (d : α) (l : List α) (i : Nat) (f : α → α) : lget d (lmod d l i f) i = f (lget d l i) :=
  lget_lput_same d l i _

theorem lget_lmod_ne (d : α) (l : List α) (i j : Nat) (f : α → α) (h : j ≠ i) : lget d (lmod d l i f) j = lget d l j :=
  lget_lput_ne d l i j _ h

/-! ### Tables: read after write -/

theorem tget_tins_same (d : α) (t : Table α) (k : Nat) (v : α) : tget d (tins t k v) k = v := by
  induction t with
  | nil => simp [tins, tget]
  | cons e t ih =>
    obtain ⟨j, w⟩ := e
    unfold tins
    split
    · simp [tget]
    · split
      · simp [tget]
      · rename_i h1 h2
        simp only [tget, if_neg (fun e : j = k => h2 e.symm)]
        exact ih

theorem tget_tins_ne (d : α) (t : Table α) (k j : Nat) (v : α) (h : j ≠ k) : tget d (tins t k v) j = tget d t j := by
  induction t with
  | nil => simp [tins, tget, Ne.symm h]
  | cons e t ih =>
    obtain ⟨i, w⟩ := e
    unfold tins
    split
    · simp [tget, Ne.symm h]
    · split
      · rename_i h1 h2
        subst h2
        simp [tget, Ne.symm h]
      · simp only [tget]
        split
        · rfl
        · exact ih

theorem tget_filter_same (d : α) (t : Table α) (k : Nat) : tget d (t.filter (fun e => e.1 != k)) k = d := by
  induction t with
  | nil => rfl
  | cons e t ih =>
    obtain ⟨j, w⟩ := e
    by_cases h : j = k
    · simpa [h] using ih
    · simp [h, tget]
      simpa using ih

theorem tget_filter_ne (d : α) (t : Table α) (k j : Nat) (h : j ≠ k) :
    tget d (t.filter (fun e => e.1 != k)) j = tget d t j := by
  induction t with
  | nil => rfl
  | cons e t ih =>
    obtain ⟨i, w⟩ := e
    by_cases hi : i = k
    · subst hi
      simpa [tget, Ne.symm h] using ih
    · simp only [List.filter_cons, bne_iff_ne, ne_eq, hi, not_false_eq_true, if_true, tget]
      split
      · rfl
      · exact ih

variable [DecidableEq α]

/-- An entry reads back as it was set. -/
@[simp] theorem tget_tset_same (d : α) (t : Table α) (k : Nat) (v : α) : tget d (tset d t k v) k = v := by
  unfold tset
  split
  · rename_i h
    rw [h]
    exact tget_filter_same d t k
  · exact tget_tins_same d t k v

/-- Setting an entry leaves every other one. -/
@[simp] theorem tget_tset_ne (d : α) (t : Table α) (k j : Nat) (v : α) (h : j ≠ k) :
    tget d (tset d t k v) j = tget d t j := by
  unfold tset
  split
  · exact tget_filter_ne d t k j h
  · exact tget_tins_ne d t k j v h

@[simp] theorem tget_tmod_same (d : α) (t : Table α) (k : Nat) (f : α → α) : tget d (tmod d t k f) k = f (tget d t k) :=
  tget_tset_same d t k _

@[simp] theorem tget_tmod_ne (d : α) (t : Table α) (k j : Nat) (f : α → α) (h : j ≠ k) :
    tget d (tmod d t k f) j = tget d t j := tget_tset_ne d t k j _ h

/-! ### The canonical form -/

/-- The canonical form, said of all pairs of entries. -/
theorem twf_iff (d : α) (t : Table α) :
    twf d t = true ↔ t.Pairwise (fun a b => a.1 < b.1) ∧ ∀ e ∈ t, e.2 ≠ d := by
  induction t with
  | nil => simp [twf]
  | cons e t ih =>
    obtain ⟨j, v⟩ := e
    cases t with
    | nil => simp [twf]
    | cons e' t =>
      obtain ⟨k, w⟩ := e'
      simp only [twf, Bool.and_eq_true, decide_eq_true_eq, ih]
      constructor
      · rintro ⟨⟨hv, hjk⟩, hp, hd⟩
        refine ⟨?_, ?_⟩
        · rw [List.pairwise_cons]
          refine ⟨?_, hp⟩
          intro e he
          rcases List.mem_cons.mp he with rfl | he
          · exact hjk
          · exact Nat.lt_trans hjk ((List.pairwise_cons.mp hp).1 e he)
        · intro e he
          rcases List.mem_cons.mp he with rfl | he
          · exact hv
          · exact hd e he
      · rintro ⟨hp, hd⟩
        have hp' := List.pairwise_cons.mp hp
        exact ⟨⟨hd (j, v) (by simp), hp'.1 (k, w) (by simp)⟩, hp'.2, fun e he => hd e (List.mem_cons_of_mem _ he)⟩

theorem twf_filter (d : α) (t : Table α) (p : Nat × α → Bool) (h : twf d t = true) : twf d (t.filter p) = true := by
  rw [twf_iff] at h ⊢
  exact ⟨h.1.filter p, fun e he => h.2 e (List.mem_filter.mp he).1⟩

omit [DecidableEq α] in
theorem mem_tins {t : Table α} {k : Nat} {v : α} {e : Nat × α} (h : e ∈ tins t k v) : e = (k, v) ∨ e ∈ t := by
  induction t with
  | nil => simpa [tins] using h
  | cons a t ih =>
    obtain ⟨j, w⟩ := a
    unfold tins at h
    split at h
    · simpa using h
    · split at h
      · rcases List.mem_cons.mp h with rfl | h
        · exact Or.inl rfl
        · exact Or.inr (List.mem_cons_of_mem _ h)
      · rcases List.mem_cons.mp h with rfl | h
        · exact Or.inr (by simp)
        · rcases ih h with h | h
          · exact Or.inl h
          · exact Or.inr (List.mem_cons_of_mem _ h)

omit [DecidableEq α] in
theorem pairwise_tins (t : Table α) (k : Nat) (v : α) (h : t.Pairwise (fun a b => a.1 < b.1)) :
    (tins t k v).Pairwise (fun a b => a.1 < b.1) := by
  induction t with
  | nil => simp [tins]
  | cons a t ih =>
    obtain ⟨j, w⟩ := a
    obtain ⟨h1, h2⟩ := List.pairwise_cons.mp h
    unfold tins
    split
    · rename_i hk
      refine List.pairwise_cons.mpr ⟨?_, h⟩
      intro e he
      rcases List.mem_cons.mp he with rfl | he
      · exact hk
      · exact Nat.lt_trans hk (h1 e he)
    · split
      · rename_i _ hk
        subst hk
        exact List.pairwise_cons.mpr ⟨fun e he => h1 e he, h2⟩
      · rename_i hk hne
        refine List.pairwise_cons.mpr ⟨?_, ih h2⟩
        intro e he
        rcases mem_tins he with rfl | he
        · show j < k
          omega
        · exact h1 e he

/-- Setting an entry keeps the canonical form. -/
theorem twf_tset (d : α) (t : Table α) (k : Nat) (v : α) (h : twf d t = true) : twf d (tset d t k v) = true := by
  unfold tset
  split
  · exact twf_filter d t _ h
  · rename_i hv
    rw [twf_iff] at h ⊢
    refine ⟨pairwise_tins t k v h.1, ?_⟩
    intro e he
    rcases mem_tins he with rfl | he
    · exact hv
    · exact h.2 e he

theorem twf_tmod (d : α) (t : Table α) (k : Nat) (f : α → α) (h : twf d t = true) : twf d (tmod d t k f) = true :=
  twf_tset d t k _ h

theorem twf_tclear (d : α) (t : Table α) (lo hi : Nat) (h : twf d t = true) : twf d (tclear t lo hi) = true :=
  twf_filter d t _ h

/-! ### Memories -/

/-- A byte reads back as it was written. -/
@[simp] theorem rdByte_wrByte_same (m : Memory) (a : Nat) (v : Byte) : rdByte (wrByte m a v) a = v := tget_tset_same 0 m a v

/-- Writing a byte leaves every other one. -/
theorem rdByte_wrByte_ne (m : Memory) (a b : Nat) (v : Byte) (h : b ≠ a) : rdByte (wrByte m a v) b = rdByte m b :=
  tget_tset_ne 0 m a b v h

/-- Writing bytes leaves every byte outside them. -/
theorem rdByte_wrBytes_out (bs : List Byte) (m : Memory) (a b : Nat) (h : b < a ∨ a + bs.length ≤ b) :
    rdByte (wrBytes m a bs) b = rdByte m b := by
  induction bs generalizing m a with
  | nil => rfl
  | cons x bs ih =>
    simp only [List.length_cons] at h
    rw [wrBytes, ih _ _ (by omega), rdByte_wrByte_ne _ _ _ _ (by omega)]

theorem Memory.wf_wrByte (m : Memory) (a : Nat) (v : Byte) (h : m.wf) : (wrByte m a v).wf := twf_tset 0 m a v h

theorem Memory.wf_wrBytes (bs : List Byte) (m : Memory) (a : Nat) (h : m.wf) : (wrBytes m a bs).wf := by
  induction bs generalizing m a with
  | nil => exact h
  | cons x bs ih => exact ih _ _ (Memory.wf_wrByte m a x h)

theorem Memory.wf_zeroBytes (m : Memory) (a n : Nat) (h : m.wf) : (zeroBytes m a n).wf := twf_filter 0 m _ h

theorem Memory.wf_window (m : Memory) (a n : Nat) (h : m.wf) : (window m a n).wf := twf_filter 0 m _ h

end Sys2Proof.Machine
end

