-- ==== Sys2Proof/Laws/State.lean ====
section
/-! SUPPORT. One lemma for each field of State and each named update of it: an update changes its own component and no
other, so that no later proof unfolds a record update. -/

namespace Sys2Proof.Machine

section
variable (f : Env → Env) (s : State)
@[simp] theorem modEnv_env : (modEnv f s).env = f s.env := rfl
@[simp] theorem modEnv_dev : (modEnv f s).dev = s.dev := rfl
@[simp] theorem modEnv_tick : (modEnv f s).tick = s.tick := rfl
@[simp] theorem modEnv_regions : (modEnv f s).regions = s.regions := rfl
@[simp] theorem modEnv_runner : (modEnv f s).runner = s.runner := rfl
@[simp] theorem modEnv_lib : (modEnv f s).lib = s.lib := rfl
@[simp] theorem modEnv_brams : (modEnv f s).brams = s.brams := rfl
@[simp] theorem modEnv_ingot : (modEnv f s).ingot = s.ingot := rfl
@[simp] theorem modEnv_dsp : (modEnv f s).dsp = s.dsp := rfl
@[simp] theorem modEnv_domains : (modEnv f s).domains = s.domains := rfl
@[simp] theorem modEnv_lanes : (modEnv f s).lanes = s.lanes := rfl
@[simp] theorem modEnv_links : (modEnv f s).links = s.links := rfl
@[simp] theorem modEnv_sys : (modEnv f s).sys = s.sys := rfl
@[simp] theorem modEnv_riser : (modEnv f s).riser = s.riser := rfl
@[simp] theorem modEnv_hbm : (modEnv f s).hbm = s.hbm := rfl
@[simp] theorem modEnv_integ : (modEnv f s).integ = s.integ := rfl
@[simp] theorem modEnv_clk : (modEnv f s).clk = s.clk := rfl
@[simp] theorem modEnv_therm : (modEnv f s).therm = s.therm := rfl
@[simp] theorem modEnv_bonds : (modEnv f s).bonds = s.bonds := rfl
@[simp] theorem modEnv_cudex : (modEnv f s).cudex = s.cudex := rfl
@[simp] theorem modEnv_io : (modEnv f s).io = s.io := rfl
@[simp] theorem modEnv_pending : (modEnv f s).pending = s.pending := rfl
end

section
variable (f : Device → Device) (s : State)
@[simp] theorem modDev_env : (modDev f s).env = s.env := rfl
@[simp] theorem modDev_dev : (modDev f s).dev = f s.dev := rfl
@[simp] theorem modDev_tick : (modDev f s).tick = s.tick := rfl
@[simp] theorem modDev_regions : (modDev f s).regions = s.regions := rfl
@[simp] theorem modDev_runner : (modDev f s).runner = s.runner := rfl
@[simp] theorem modDev_lib : (modDev f s).lib = s.lib := rfl
@[simp] theorem modDev_brams : (modDev f s).brams = s.brams := rfl
@[simp] theorem modDev_ingot : (modDev f s).ingot = s.ingot := rfl
@[simp] theorem modDev_dsp : (modDev f s).dsp = s.dsp := rfl
@[simp] theorem modDev_domains : (modDev f s).domains = s.domains := rfl
@[simp] theorem modDev_lanes : (modDev f s).lanes = s.lanes := rfl
@[simp] theorem modDev_links : (modDev f s).links = s.links := rfl
@[simp] theorem modDev_sys : (modDev f s).sys = s.sys := rfl
@[simp] theorem modDev_riser : (modDev f s).riser = s.riser := rfl
@[simp] theorem modDev_hbm : (modDev f s).hbm = s.hbm := rfl
@[simp] theorem modDev_integ : (modDev f s).integ = s.integ := rfl
@[simp] theorem modDev_clk : (modDev f s).clk = s.clk := rfl
@[simp] theorem modDev_therm : (modDev f s).therm = s.therm := rfl
@[simp] theorem modDev_bonds : (modDev f s).bonds = s.bonds := rfl
@[simp] theorem modDev_cudex : (modDev f s).cudex = s.cudex := rfl
@[simp] theorem modDev_io : (modDev f s).io = s.io := rfl
@[simp] theorem modDev_pending : (modDev f s).pending = s.pending := rfl
end

section
variable (f : TickGen → TickGen) (s : State)
@[simp] theorem modTick_env : (modTick f s).env = s.env := rfl
@[simp] theorem modTick_dev : (modTick f s).dev = s.dev := rfl
@[simp] theorem modTick_tick : (modTick f s).tick = f s.tick := rfl
@[simp] theorem modTick_regions : (modTick f s).regions = s.regions := rfl
@[simp] theorem modTick_runner : (modTick f s).runner = s.runner := rfl
@[simp] theorem modTick_lib : (modTick f s).lib = s.lib := rfl
@[simp] theorem modTick_brams : (modTick f s).brams = s.brams := rfl
@[simp] theorem modTick_ingot : (modTick f s).ingot = s.ingot := rfl
@[simp] theorem modTick_dsp : (modTick f s).dsp = s.dsp := rfl
@[simp] theorem modTick_domains : (modTick f s).domains = s.domains := rfl
@[simp] theorem modTick_lanes : (modTick f s).lanes = s.lanes := rfl
@[simp] theorem modTick_links : (modTick f s).links = s.links := rfl
@[simp] theorem modTick_sys : (modTick f s).sys = s.sys := rfl
@[simp] theorem modTick_riser : (modTick f s).riser = s.riser := rfl
@[simp] theorem modTick_hbm : (modTick f s).hbm = s.hbm := rfl
@[simp] theorem modTick_integ : (modTick f s).integ = s.integ := rfl
@[simp] theorem modTick_clk : (modTick f s).clk = s.clk := rfl
@[simp] theorem modTick_therm : (modTick f s).therm = s.therm := rfl
@[simp] theorem modTick_bonds : (modTick f s).bonds = s.bonds := rfl
@[simp] theorem modTick_cudex : (modTick f s).cudex = s.cudex := rfl
@[simp] theorem modTick_io : (modTick f s).io = s.io := rfl
@[simp] theorem modTick_pending : (modTick f s).pending = s.pending := rfl
end

section
variable (f : RunnerSt → RunnerSt) (s : State)
@[simp] theorem modRunner_env : (modRunner f s).env = s.env := rfl
@[simp] theorem modRunner_dev : (modRunner f s).dev = s.dev := rfl
@[simp] theorem modRunner_tick : (modRunner f s).tick = s.tick := rfl
@[simp] theorem modRunner_regions : (modRunner f s).regions = s.regions := rfl
@[simp] theorem modRunner_runner : (modRunner f s).runner = f s.runner := rfl
@[simp] theorem modRunner_lib : (modRunner f s).lib = s.lib := rfl
@[simp] theorem modRunner_brams : (modRunner f s).brams = s.brams := rfl
@[simp] theorem modRunner_ingot : (modRunner f s).ingot = s.ingot := rfl
@[simp] theorem modRunner_dsp : (modRunner f s).dsp = s.dsp := rfl
@[simp] theorem modRunner_domains : (modRunner f s).domains = s.domains := rfl
@[simp] theorem modRunner_lanes : (modRunner f s).lanes = s.lanes := rfl
@[simp] theorem modRunner_links : (modRunner f s).links = s.links := rfl
@[simp] theorem modRunner_sys : (modRunner f s).sys = s.sys := rfl
@[simp] theorem modRunner_riser : (modRunner f s).riser = s.riser := rfl
@[simp] theorem modRunner_hbm : (modRunner f s).hbm = s.hbm := rfl
@[simp] theorem modRunner_integ : (modRunner f s).integ = s.integ := rfl
@[simp] theorem modRunner_clk : (modRunner f s).clk = s.clk := rfl
@[simp] theorem modRunner_therm : (modRunner f s).therm = s.therm := rfl
@[simp] theorem modRunner_bonds : (modRunner f s).bonds = s.bonds := rfl
@[simp] theorem modRunner_cudex : (modRunner f s).cudex = s.cudex := rfl
@[simp] theorem modRunner_io : (modRunner f s).io = s.io := rfl
@[simp] theorem modRunner_pending : (modRunner f s).pending = s.pending := rfl
end

section
variable (f : LibSt → LibSt) (s : State)
@[simp] theorem modLib_env : (modLib f s).env = s.env := rfl
@[simp] theorem modLib_dev : (modLib f s).dev = s.dev := rfl
@[simp] theorem modLib_tick : (modLib f s).tick = s.tick := rfl
@[simp] theorem modLib_regions : (modLib f s).regions = s.regions := rfl
@[simp] theorem modLib_runner : (modLib f s).runner = s.runner := rfl
@[simp] theorem modLib_lib : (modLib f s).lib = f s.lib := rfl
@[simp] theorem modLib_brams : (modLib f s).brams = s.brams := rfl
@[simp] theorem modLib_ingot : (modLib f s).ingot = s.ingot := rfl
@[simp] theorem modLib_dsp : (modLib f s).dsp = s.dsp := rfl
@[simp] theorem modLib_domains : (modLib f s).domains = s.domains := rfl
@[simp] theorem modLib_lanes : (modLib f s).lanes = s.lanes := rfl
@[simp] theorem modLib_links : (modLib f s).links = s.links := rfl
@[simp] theorem modLib_sys : (modLib f s).sys = s.sys := rfl
@[simp] theorem modLib_riser : (modLib f s).riser = s.riser := rfl
@[simp] theorem modLib_hbm : (modLib f s).hbm = s.hbm := rfl
@[simp] theorem modLib_integ : (modLib f s).integ = s.integ := rfl
@[simp] theorem modLib_clk : (modLib f s).clk = s.clk := rfl
@[simp] theorem modLib_therm : (modLib f s).therm = s.therm := rfl
@[simp] theorem modLib_bonds : (modLib f s).bonds = s.bonds := rfl
@[simp] theorem modLib_cudex : (modLib f s).cudex = s.cudex := rfl
@[simp] theorem modLib_io : (modLib f s).io = s.io := rfl
@[simp] theorem modLib_pending : (modLib f s).pending = s.pending := rfl
end

section
variable (f : IngotSt → IngotSt) (s : State)
@[simp] theorem modIngot_env : (modIngot f s).env = s.env := rfl
@[simp] theorem modIngot_dev : (modIngot f s).dev = s.dev := rfl
@[simp] theorem modIngot_tick : (modIngot f s).tick = s.tick := rfl
@[simp] theorem modIngot_regions : (modIngot f s).regions = s.regions := rfl
@[simp] theorem modIngot_runner : (modIngot f s).runner = s.runner := rfl
@[simp] theorem modIngot_lib : (modIngot f s).lib = s.lib := rfl
@[simp] theorem modIngot_brams : (modIngot f s).brams = s.brams := rfl
@[simp] theorem modIngot_ingot : (modIngot f s).ingot = f s.ingot := rfl
@[simp] theorem modIngot_dsp : (modIngot f s).dsp = s.dsp := rfl
@[simp] theorem modIngot_domains : (modIngot f s).domains = s.domains := rfl
@[simp] theorem modIngot_lanes : (modIngot f s).lanes = s.lanes := rfl
@[simp] theorem modIngot_links : (modIngot f s).links = s.links := rfl
@[simp] theorem modIngot_sys : (modIngot f s).sys = s.sys := rfl
@[simp] theorem modIngot_riser : (modIngot f s).riser = s.riser := rfl
@[simp] theorem modIngot_hbm : (modIngot f s).hbm = s.hbm := rfl
@[simp] theorem modIngot_integ : (modIngot f s).integ = s.integ := rfl
@[simp] theorem modIngot_clk : (modIngot f s).clk = s.clk := rfl
@[simp] theorem modIngot_therm : (modIngot f s).therm = s.therm := rfl
@[simp] theorem modIngot_bonds : (modIngot f s).bonds = s.bonds := rfl
@[simp] theorem modIngot_cudex : (modIngot f s).cudex = s.cudex := rfl
@[simp] theorem modIngot_io : (modIngot f s).io = s.io := rfl
@[simp] theorem modIngot_pending : (modIngot f s).pending = s.pending := rfl
end

section
variable (f : SysSt → SysSt) (s : State)
@[simp] theorem modSys_env : (modSys f s).env = s.env := rfl
@[simp] theorem modSys_dev : (modSys f s).dev = s.dev := rfl
@[simp] theorem modSys_tick : (modSys f s).tick = s.tick := rfl
@[simp] theorem modSys_regions : (modSys f s).regions = s.regions := rfl
@[simp] theorem modSys_runner : (modSys f s).runner = s.runner := rfl
@[simp] theorem modSys_lib : (modSys f s).lib = s.lib := rfl
@[simp] theorem modSys_brams : (modSys f s).brams = s.brams := rfl
@[simp] theorem modSys_ingot : (modSys f s).ingot = s.ingot := rfl
@[simp] theorem modSys_dsp : (modSys f s).dsp = s.dsp := rfl
@[simp] theorem modSys_domains : (modSys f s).domains = s.domains := rfl
@[simp] theorem modSys_lanes : (modSys f s).lanes = s.lanes := rfl
@[simp] theorem modSys_links : (modSys f s).links = s.links := rfl
@[simp] theorem modSys_sys : (modSys f s).sys = f s.sys := rfl
@[simp] theorem modSys_riser : (modSys f s).riser = s.riser := rfl
@[simp] theorem modSys_hbm : (modSys f s).hbm = s.hbm := rfl
@[simp] theorem modSys_integ : (modSys f s).integ = s.integ := rfl
@[simp] theorem modSys_clk : (modSys f s).clk = s.clk := rfl
@[simp] theorem modSys_therm : (modSys f s).therm = s.therm := rfl
@[simp] theorem modSys_bonds : (modSys f s).bonds = s.bonds := rfl
@[simp] theorem modSys_cudex : (modSys f s).cudex = s.cudex := rfl
@[simp] theorem modSys_io : (modSys f s).io = s.io := rfl
@[simp] theorem modSys_pending : (modSys f s).pending = s.pending := rfl
end

section
variable (f : RiserSt → RiserSt) (s : State)
@[simp] theorem modRiser_env : (modRiser f s).env = s.env := rfl
@[simp] theorem modRiser_dev : (modRiser f s).dev = s.dev := rfl
@[simp] theorem modRiser_tick : (modRiser f s).tick = s.tick := rfl
@[simp] theorem modRiser_regions : (modRiser f s).regions = s.regions := rfl
@[simp] theorem modRiser_runner : (modRiser f s).runner = s.runner := rfl
@[simp] theorem modRiser_lib : (modRiser f s).lib = s.lib := rfl
@[simp] theorem modRiser_brams : (modRiser f s).brams = s.brams := rfl
@[simp] theorem modRiser_ingot : (modRiser f s).ingot = s.ingot := rfl
@[simp] theorem modRiser_dsp : (modRiser f s).dsp = s.dsp := rfl
@[simp] theorem modRiser_domains : (modRiser f s).domains = s.domains := rfl
@[simp] theorem modRiser_lanes : (modRiser f s).lanes = s.lanes := rfl
@[simp] theorem modRiser_links : (modRiser f s).links = s.links := rfl
@[simp] theorem modRiser_sys : (modRiser f s).sys = s.sys := rfl
@[simp] theorem modRiser_riser : (modRiser f s).riser = f s.riser := rfl
@[simp] theorem modRiser_hbm : (modRiser f s).hbm = s.hbm := rfl
@[simp] theorem modRiser_integ : (modRiser f s).integ = s.integ := rfl
@[simp] theorem modRiser_clk : (modRiser f s).clk = s.clk := rfl
@[simp] theorem modRiser_therm : (modRiser f s).therm = s.therm := rfl
@[simp] theorem modRiser_bonds : (modRiser f s).bonds = s.bonds := rfl
@[simp] theorem modRiser_cudex : (modRiser f s).cudex = s.cudex := rfl
@[simp] theorem modRiser_io : (modRiser f s).io = s.io := rfl
@[simp] theorem modRiser_pending : (modRiser f s).pending = s.pending := rfl
end

section
variable (f : HbmSt → HbmSt) (s : State)
@[simp] theorem modHbm_env : (modHbm f s).env = s.env := rfl
@[simp] theorem modHbm_dev : (modHbm f s).dev = s.dev := rfl
@[simp] theorem modHbm_tick : (modHbm f s).tick = s.tick := rfl
@[simp] theorem modHbm_regions : (modHbm f s).regions = s.regions := rfl
@[simp] theorem modHbm_runner : (modHbm f s).runner = s.runner := rfl
@[simp] theorem modHbm_lib : (modHbm f s).lib = s.lib := rfl
@[simp] theorem modHbm_brams : (modHbm f s).brams = s.brams := rfl
@[simp] theorem modHbm_ingot : (modHbm f s).ingot = s.ingot := rfl
@[simp] theorem modHbm_dsp : (modHbm f s).dsp = s.dsp := rfl
@[simp] theorem modHbm_domains : (modHbm f s).domains = s.domains := rfl
@[simp] theorem modHbm_lanes : (modHbm f s).lanes = s.lanes := rfl
@[simp] theorem modHbm_links : (modHbm f s).links = s.links := rfl
@[simp] theorem modHbm_sys : (modHbm f s).sys = s.sys := rfl
@[simp] theorem modHbm_riser : (modHbm f s).riser = s.riser := rfl
@[simp] theorem modHbm_hbm : (modHbm f s).hbm = f s.hbm := rfl
@[simp] theorem modHbm_integ : (modHbm f s).integ = s.integ := rfl
@[simp] theorem modHbm_clk : (modHbm f s).clk = s.clk := rfl
@[simp] theorem modHbm_therm : (modHbm f s).therm = s.therm := rfl
@[simp] theorem modHbm_bonds : (modHbm f s).bonds = s.bonds := rfl
@[simp] theorem modHbm_cudex : (modHbm f s).cudex = s.cudex := rfl
@[simp] theorem modHbm_io : (modHbm f s).io = s.io := rfl
@[simp] theorem modHbm_pending : (modHbm f s).pending = s.pending := rfl
end

section
variable (f : IntegSt → IntegSt) (s : State)
@[simp] theorem modInteg_env : (modInteg f s).env = s.env := rfl
@[simp] theorem modInteg_dev : (modInteg f s).dev = s.dev := rfl
@[simp] theorem modInteg_tick : (modInteg f s).tick = s.tick := rfl
@[simp] theorem modInteg_regions : (modInteg f s).regions = s.regions := rfl
@[simp] theorem modInteg_runner : (modInteg f s).runner = s.runner := rfl
@[simp] theorem modInteg_lib : (modInteg f s).lib = s.lib := rfl
@[simp] theorem modInteg_brams : (modInteg f s).brams = s.brams := rfl
@[simp] theorem modInteg_ingot : (modInteg f s).ingot = s.ingot := rfl
@[simp] theorem modInteg_dsp : (modInteg f s).dsp = s.dsp := rfl
@[simp] theorem modInteg_domains : (modInteg f s).domains = s.domains := rfl
@[simp] theorem modInteg_lanes : (modInteg f s).lanes = s.lanes := rfl
@[simp] theorem modInteg_links : (modInteg f s).links = s.links := rfl
@[simp] theorem modInteg_sys : (modInteg f s).sys = s.sys := rfl
@[simp] theorem modInteg_riser : (modInteg f s).riser = s.riser := rfl
@[simp] theorem modInteg_hbm : (modInteg f s).hbm = s.hbm := rfl
@[simp] theorem modInteg_integ : (modInteg f s).integ = f s.integ := rfl
@[simp] theorem modInteg_clk : (modInteg f s).clk = s.clk := rfl
@[simp] theorem modInteg_therm : (modInteg f s).therm = s.therm := rfl
@[simp] theorem modInteg_bonds : (modInteg f s).bonds = s.bonds := rfl
@[simp] theorem modInteg_cudex : (modInteg f s).cudex = s.cudex := rfl
@[simp] theorem modInteg_io : (modInteg f s).io = s.io := rfl
@[simp] theorem modInteg_pending : (modInteg f s).pending = s.pending := rfl
end

section
variable (f : ClkSt → ClkSt) (s : State)
@[simp] theorem modClk_env : (modClk f s).env = s.env := rfl
@[simp] theorem modClk_dev : (modClk f s).dev = s.dev := rfl
@[simp] theorem modClk_tick : (modClk f s).tick = s.tick := rfl
@[simp] theorem modClk_regions : (modClk f s).regions = s.regions := rfl
@[simp] theorem modClk_runner : (modClk f s).runner = s.runner := rfl
@[simp] theorem modClk_lib : (modClk f s).lib = s.lib := rfl
@[simp] theorem modClk_brams : (modClk f s).brams = s.brams := rfl
@[simp] theorem modClk_ingot : (modClk f s).ingot = s.ingot := rfl
@[simp] theorem modClk_dsp : (modClk f s).dsp = s.dsp := rfl
@[simp] theorem modClk_domains : (modClk f s).domains = s.domains := rfl
@[simp] theorem modClk_lanes : (modClk f s).lanes = s.lanes := rfl
@[simp] theorem modClk_links : (modClk f s).links = s.links := rfl
@[simp] theorem modClk_sys : (modClk f s).sys = s.sys := rfl
@[simp] theorem modClk_riser : (modClk f s).riser = s.riser := rfl
@[simp] theorem modClk_hbm : (modClk f s).hbm = s.hbm := rfl
@[simp] theorem modClk_integ : (modClk f s).integ = s.integ := rfl
@[simp] theorem modClk_clk : (modClk f s).clk = f s.clk := rfl
@[simp] theorem modClk_therm : (modClk f s).therm = s.therm := rfl
@[simp] theorem modClk_bonds : (modClk f s).bonds = s.bonds := rfl
@[simp] theorem modClk_cudex : (modClk f s).cudex = s.cudex := rfl
@[simp] theorem modClk_io : (modClk f s).io = s.io := rfl
@[simp] theorem modClk_pending : (modClk f s).pending = s.pending := rfl
end

section
variable (f : ThermSt → ThermSt) (s : State)
@[simp] theorem modTherm_env : (modTherm f s).env = s.env := rfl
@[simp] theorem modTherm_dev : (modTherm f s).dev = s.dev := rfl
@[simp] theorem modTherm_tick : (modTherm f s).tick = s.tick := rfl
@[simp] theorem modTherm_regions : (modTherm f s).regions = s.regions := rfl
@[simp] theorem modTherm_runner : (modTherm f s).runner = s.runner := rfl
@[simp] theorem modTherm_lib : (modTherm f s).lib = s.lib := rfl
@[simp] theorem modTherm_brams : (modTherm f s).brams = s.brams := rfl
@[simp] theorem modTherm_ingot : (modTherm f s).ingot = s.ingot := rfl
@[simp] theorem modTherm_dsp : (modTherm f s).dsp = s.dsp := rfl
@[simp] theorem modTherm_domains : (modTherm f s).domains = s.domains := rfl
@[simp] theorem modTherm_lanes : (modTherm f s).lanes = s.lanes := rfl
@[simp] theorem modTherm_links : (modTherm f s).links = s.links := rfl
@[simp] theorem modTherm_sys : (modTherm f s).sys = s.sys := rfl
@[simp] theorem modTherm_riser : (modTherm f s).riser = s.riser := rfl
@[simp] theorem modTherm_hbm : (modTherm f s).hbm = s.hbm := rfl
@[simp] theorem modTherm_integ : (modTherm f s).integ = s.integ := rfl
@[simp] theorem modTherm_clk : (modTherm f s).clk = s.clk := rfl
@[simp] theorem modTherm_therm : (modTherm f s).therm = f s.therm := rfl
@[simp] theorem modTherm_bonds : (modTherm f s).bonds = s.bonds := rfl
@[simp] theorem modTherm_cudex : (modTherm f s).cudex = s.cudex := rfl
@[simp] theorem modTherm_io : (modTherm f s).io = s.io := rfl
@[simp] theorem modTherm_pending : (modTherm f s).pending = s.pending := rfl
end

section
variable (f : BondsSt → BondsSt) (s : State)
@[simp] theorem modBonds_env : (modBonds f s).env = s.env := rfl
@[simp] theorem modBonds_dev : (modBonds f s).dev = s.dev := rfl
@[simp] theorem modBonds_tick : (modBonds f s).tick = s.tick := rfl
@[simp] theorem modBonds_regions : (modBonds f s).regions = s.regions := rfl
@[simp] theorem modBonds_runner : (modBonds f s).runner = s.runner := rfl
@[simp] theorem modBonds_lib : (modBonds f s).lib = s.lib := rfl
@[simp] theorem modBonds_brams : (modBonds f s).brams = s.brams := rfl
@[simp] theorem modBonds_ingot : (modBonds f s).ingot = s.ingot := rfl
@[simp] theorem modBonds_dsp : (modBonds f s).dsp = s.dsp := rfl
@[simp] theorem modBonds_domains : (modBonds f s).domains = s.domains := rfl
@[simp] theorem modBonds_lanes : (modBonds f s).lanes = s.lanes := rfl
@[simp] theorem modBonds_links : (modBonds f s).links = s.links := rfl
@[simp] theorem modBonds_sys : (modBonds f s).sys = s.sys := rfl
@[simp] theorem modBonds_riser : (modBonds f s).riser = s.riser := rfl
@[simp] theorem modBonds_hbm : (modBonds f s).hbm = s.hbm := rfl
@[simp] theorem modBonds_integ : (modBonds f s).integ = s.integ := rfl
@[simp] theorem modBonds_clk : (modBonds f s).clk = s.clk := rfl
@[simp] theorem modBonds_therm : (modBonds f s).therm = s.therm := rfl
@[simp] theorem modBonds_bonds : (modBonds f s).bonds = f s.bonds := rfl
@[simp] theorem modBonds_cudex : (modBonds f s).cudex = s.cudex := rfl
@[simp] theorem modBonds_io : (modBonds f s).io = s.io := rfl
@[simp] theorem modBonds_pending : (modBonds f s).pending = s.pending := rfl
end

section
variable (f : CudexSt → CudexSt) (s : State)
@[simp] theorem modCudex_env : (modCudex f s).env = s.env := rfl
@[simp] theorem modCudex_dev : (modCudex f s).dev = s.dev := rfl
@[simp] theorem modCudex_tick : (modCudex f s).tick = s.tick := rfl
@[simp] theorem modCudex_regions : (modCudex f s).regions = s.regions := rfl
@[simp] theorem modCudex_runner : (modCudex f s).runner = s.runner := rfl
@[simp] theorem modCudex_lib : (modCudex f s).lib = s.lib := rfl
@[simp] theorem modCudex_brams : (modCudex f s).brams = s.brams := rfl
@[simp] theorem modCudex_ingot : (modCudex f s).ingot = s.ingot := rfl
@[simp] theorem modCudex_dsp : (modCudex f s).dsp = s.dsp := rfl
@[simp] theorem modCudex_domains : (modCudex f s).domains = s.domains := rfl
@[simp] theorem modCudex_lanes : (modCudex f s).lanes = s.lanes := rfl
@[simp] theorem modCudex_links : (modCudex f s).links = s.links := rfl
@[simp] theorem modCudex_sys : (modCudex f s).sys = s.sys := rfl
@[simp] theorem modCudex_riser : (modCudex f s).riser = s.riser := rfl
@[simp] theorem modCudex_hbm : (modCudex f s).hbm = s.hbm := rfl
@[simp] theorem modCudex_integ : (modCudex f s).integ = s.integ := rfl
@[simp] theorem modCudex_clk : (modCudex f s).clk = s.clk := rfl
@[simp] theorem modCudex_therm : (modCudex f s).therm = s.therm := rfl
@[simp] theorem modCudex_bonds : (modCudex f s).bonds = s.bonds := rfl
@[simp] theorem modCudex_cudex : (modCudex f s).cudex = f s.cudex := rfl
@[simp] theorem modCudex_io : (modCudex f s).io = s.io := rfl
@[simp] theorem modCudex_pending : (modCudex f s).pending = s.pending := rfl
end

section
variable (f : IoSt → IoSt) (s : State)
@[simp] theorem modIo_env : (modIo f s).env = s.env := rfl
@[simp] theorem modIo_dev : (modIo f s).dev = s.dev := rfl
@[simp] theorem modIo_tick : (modIo f s).tick = s.tick := rfl
@[simp] theorem modIo_regions : (modIo f s).regions = s.regions := rfl
@[simp] theorem modIo_runner : (modIo f s).runner = s.runner := rfl
@[simp] theorem modIo_lib : (modIo f s).lib = s.lib := rfl
@[simp] theorem modIo_brams : (modIo f s).brams = s.brams := rfl
@[simp] theorem modIo_ingot : (modIo f s).ingot = s.ingot := rfl
@[simp] theorem modIo_dsp : (modIo f s).dsp = s.dsp := rfl
@[simp] theorem modIo_domains : (modIo f s).domains = s.domains := rfl
@[simp] theorem modIo_lanes : (modIo f s).lanes = s.lanes := rfl
@[simp] theorem modIo_links : (modIo f s).links = s.links := rfl
@[simp] theorem modIo_sys : (modIo f s).sys = s.sys := rfl
@[simp] theorem modIo_riser : (modIo f s).riser = s.riser := rfl
@[simp] theorem modIo_hbm : (modIo f s).hbm = s.hbm := rfl
@[simp] theorem modIo_integ : (modIo f s).integ = s.integ := rfl
@[simp] theorem modIo_clk : (modIo f s).clk = s.clk := rfl
@[simp] theorem modIo_therm : (modIo f s).therm = s.therm := rfl
@[simp] theorem modIo_bonds : (modIo f s).bonds = s.bonds := rfl
@[simp] theorem modIo_cudex : (modIo f s).cudex = s.cudex := rfl
@[simp] theorem modIo_io : (modIo f s).io = f s.io := rfl
@[simp] theorem modIo_pending : (modIo f s).pending = s.pending := rfl
end

section
variable (k : Nat) (f : Region → Region) (s : State)
@[simp] theorem modRegion_env : (modRegion k f s).env = s.env := rfl
@[simp] theorem modRegion_dev : (modRegion k f s).dev = s.dev := rfl
@[simp] theorem modRegion_tick : (modRegion k f s).tick = s.tick := rfl
@[simp] theorem modRegion_regions : (modRegion k f s).regions = tmod {} s.regions k f := rfl
@[simp] theorem modRegion_runner : (modRegion k f s).runner = s.runner := rfl
@[simp] theorem modRegion_lib : (modRegion k f s).lib = s.lib := rfl
@[simp] theorem modRegion_brams : (modRegion k f s).brams = s.brams := rfl
@[simp] theorem modRegion_ingot : (modRegion k f s).ingot = s.ingot := rfl
@[simp] theorem modRegion_dsp : (modRegion k f s).dsp = s.dsp := rfl
@[simp] theorem modRegion_domains : (modRegion k f s).domains = s.domains := rfl
@[simp] theorem modRegion_lanes : (modRegion k f s).lanes = s.lanes := rfl
@[simp] theorem modRegion_links : (modRegion k f s).links = s.links := rfl
@[simp] theorem modRegion_sys : (modRegion k f s).sys = s.sys := rfl
@[simp] theorem modRegion_riser : (modRegion k f s).riser = s.riser := rfl
@[simp] theorem modRegion_hbm : (modRegion k f s).hbm = s.hbm := rfl
@[simp] theorem modRegion_integ : (modRegion k f s).integ = s.integ := rfl
@[simp] theorem modRegion_clk : (modRegion k f s).clk = s.clk := rfl
@[simp] theorem modRegion_therm : (modRegion k f s).therm = s.therm := rfl
@[simp] theorem modRegion_bonds : (modRegion k f s).bonds = s.bonds := rfl
@[simp] theorem modRegion_cudex : (modRegion k f s).cudex = s.cudex := rfl
@[simp] theorem modRegion_io : (modRegion k f s).io = s.io := rfl
@[simp] theorem modRegion_pending : (modRegion k f s).pending = s.pending := rfl
@[simp] theorem modRegion_region : (modRegion k f s).region k = f (s.region k) := by simp [modRegion, State.region]
theorem modRegion_region_ne (j : Nat) (h : j ≠ k) : (modRegion k f s).region j = s.region j := by simp [modRegion, State.region, h]
end

section
variable (k : Nat) (f : Bram → Bram) (s : State)
@[simp] theorem modBram_env : (modBram k f s).env = s.env := rfl
@[simp] theorem modBram_dev : (modBram k f s).dev = s.dev := rfl
@[simp] theorem modBram_tick : (modBram k f s).tick = s.tick := rfl
@[simp] theorem modBram_regions : (modBram k f s).regions = s.regions := rfl
@[simp] theorem modBram_runner : (modBram k f s).runner = s.runner := rfl
@[simp] theorem modBram_lib : (modBram k f s).lib = s.lib := rfl
@[simp] theorem modBram_brams : (modBram k f s).brams = tmod {} s.brams k f := rfl
@[simp] theorem modBram_ingot : (modBram k f s).ingot = s.ingot := rfl
@[simp] theorem modBram_dsp : (modBram k f s).dsp = s.dsp := rfl
@[simp] theorem modBram_domains : (modBram k f s).domains = s.domains := rfl
@[simp] theorem modBram_lanes : (modBram k f s).lanes = s.lanes := rfl
@[simp] theorem modBram_links : (modBram k f s).links = s.links := rfl
@[simp] theorem modBram_sys : (modBram k f s).sys = s.sys := rfl
@[simp] theorem modBram_riser : (modBram k f s).riser = s.riser := rfl
@[simp] theorem modBram_hbm : (modBram k f s).hbm = s.hbm := rfl
@[simp] theorem modBram_integ : (modBram k f s).integ = s.integ := rfl
@[simp] theorem modBram_clk : (modBram k f s).clk = s.clk := rfl
@[simp] theorem modBram_therm : (modBram k f s).therm = s.therm := rfl
@[simp] theorem modBram_bonds : (modBram k f s).bonds = s.bonds := rfl
@[simp] theorem modBram_cudex : (modBram k f s).cudex = s.cudex := rfl
@[simp] theorem modBram_io : (modBram k f s).io = s.io := rfl
@[simp] theorem modBram_pending : (modBram k f s).pending = s.pending := rfl
@[simp] theorem modBram_bram : (modBram k f s).bram k = f (s.bram k) := by simp [modBram, State.bram]
theorem modBram_bram_ne (j : Nat) (h : j ≠ k) : (modBram k f s).bram j = s.bram j := by simp [modBram, State.bram, h]
end

section
variable (k : Nat) (f : Engine → Engine) (s : State)
@[simp] theorem modEngine_env : (modEngine k f s).env = s.env := rfl
@[simp] theorem modEngine_dev : (modEngine k f s).dev = s.dev := rfl
@[simp] theorem modEngine_tick : (modEngine k f s).tick = s.tick := rfl
@[simp] theorem modEngine_regions : (modEngine k f s).regions = s.regions := rfl
@[simp] theorem modEngine_runner : (modEngine k f s).runner = s.runner := rfl
@[simp] theorem modEngine_lib : (modEngine k f s).lib = s.lib := rfl
@[simp] theorem modEngine_brams : (modEngine k f s).brams = s.brams := rfl
@[simp] theorem modEngine_ingot : (modEngine k f s).ingot = s.ingot := rfl
@[simp] theorem modEngine_dsp : (modEngine k f s).dsp = tmod {} s.dsp k f := rfl
@[simp] theorem modEngine_domains : (modEngine k f s).domains = s.domains := rfl
@[simp] theorem modEngine_lanes : (modEngine k f s).lanes = s.lanes := rfl
@[simp] theorem modEngine_links : (modEngine k f s).links = s.links := rfl
@[simp] theorem modEngine_sys : (modEngine k f s).sys = s.sys := rfl
@[simp] theorem modEngine_riser : (modEngine k f s).riser = s.riser := rfl
@[simp] theorem modEngine_hbm : (modEngine k f s).hbm = s.hbm := rfl
@[simp] theorem modEngine_integ : (modEngine k f s).integ = s.integ := rfl
@[simp] theorem modEngine_clk : (modEngine k f s).clk = s.clk := rfl
@[simp] theorem modEngine_therm : (modEngine k f s).therm = s.therm := rfl
@[simp] theorem modEngine_bonds : (modEngine k f s).bonds = s.bonds := rfl
@[simp] theorem modEngine_cudex : (modEngine k f s).cudex = s.cudex := rfl
@[simp] theorem modEngine_io : (modEngine k f s).io = s.io := rfl
@[simp] theorem modEngine_pending : (modEngine k f s).pending = s.pending := rfl
@[simp] theorem modEngine_engine : (modEngine k f s).engine k = f (s.engine k) := by simp [modEngine, State.engine]
theorem modEngine_engine_ne (j : Nat) (h : j ≠ k) : (modEngine k f s).engine j = s.engine j := by simp [modEngine, State.engine, h]
end

section
variable (k : Nat) (f : Domain → Domain) (s : State)
@[simp] theorem modDomain_env : (modDomain k f s).env = s.env := rfl
@[simp] theorem modDomain_dev : (modDomain k f s).dev = s.dev := rfl
@[simp] theorem modDomain_tick : (modDomain k f s).tick = s.tick := rfl
@[simp] theorem modDomain_regions : (modDomain k f s).regions = s.regions := rfl
@[simp] theorem modDomain_runner : (modDomain k f s).runner = s.runner := rfl
@[simp] theorem modDomain_lib : (modDomain k f s).lib = s.lib := rfl
@[simp] theorem modDomain_brams : (modDomain k f s).brams = s.brams := rfl
@[simp] theorem modDomain_ingot : (modDomain k f s).ingot = s.ingot := rfl
@[simp] theorem modDomain_dsp : (modDomain k f s).dsp = s.dsp := rfl
@[simp] theorem modDomain_domains : (modDomain k f s).domains = tmod {} s.domains k f := rfl
@[simp] theorem modDomain_lanes : (modDomain k f s).lanes = s.lanes := rfl
@[simp] theorem modDomain_links : (modDomain k f s).links = s.links := rfl
@[simp] theorem modDomain_sys : (modDomain k f s).sys = s.sys := rfl
@[simp] theorem modDomain_riser : (modDomain k f s).riser = s.riser := rfl
@[simp] theorem modDomain_hbm : (modDomain k f s).hbm = s.hbm := rfl
@[simp] theorem modDomain_integ : (modDomain k f s).integ = s.integ := rfl
@[simp] theorem modDomain_clk : (modDomain k f s).clk = s.clk := rfl
@[simp] theorem modDomain_therm : (modDomain k f s).therm = s.therm := rfl
@[simp] theorem modDomain_bonds : (modDomain k f s).bonds = s.bonds := rfl
@[simp] theorem modDomain_cudex : (modDomain k f s).cudex = s.cudex := rfl
@[simp] theorem modDomain_io : (modDomain k f s).io = s.io := rfl
@[simp] theorem modDomain_pending : (modDomain k f s).pending = s.pending := rfl
@[simp] theorem modDomain_domain : (modDomain k f s).domain k = f (s.domain k) := by simp [modDomain, State.domain]
theorem modDomain_domain_ne (j : Nat) (h : j ≠ k) : (modDomain k f s).domain j = s.domain j := by simp [modDomain, State.domain, h]
end

section
variable (k : Nat) (f : Lane → Lane) (s : State)
@[simp] theorem modLane_env : (modLane k f s).env = s.env := rfl
@[simp] theorem modLane_dev : (modLane k f s).dev = s.dev := rfl
@[simp] theorem modLane_tick : (modLane k f s).tick = s.tick := rfl
@[simp] theorem modLane_regions : (modLane k f s).regions = s.regions := rfl
@[simp] theorem modLane_runner : (modLane k f s).runner = s.runner := rfl
@[simp] theorem modLane_lib : (modLane k f s).lib = s.lib := rfl
@[simp] theorem modLane_brams : (modLane k f s).brams = s.brams := rfl
@[simp] theorem modLane_ingot : (modLane k f s).ingot = s.ingot := rfl
@[simp] theorem modLane_dsp : (modLane k f s).dsp = s.dsp := rfl
@[simp] theorem modLane_domains : (modLane k f s).domains = s.domains := rfl
@[simp] theorem modLane_lanes : (modLane k f s).lanes = tmod {} s.lanes k f := rfl
@[simp] theorem modLane_links : (modLane k f s).links = s.links := rfl
@[simp] theorem modLane_sys : (modLane k f s).sys = s.sys := rfl
@[simp] theorem modLane_riser : (modLane k f s).riser = s.riser := rfl
@[simp] theorem modLane_hbm : (modLane k f s).hbm = s.hbm := rfl
@[simp] theorem modLane_integ : (modLane k f s).integ = s.integ := rfl
@[simp] theorem modLane_clk : (modLane k f s).clk = s.clk := rfl
@[simp] theorem modLane_therm : (modLane k f s).therm = s.therm := rfl
@[simp] theorem modLane_bonds : (modLane k f s).bonds = s.bonds := rfl
@[simp] theorem modLane_cudex : (modLane k f s).cudex = s.cudex := rfl
@[simp] theorem modLane_io : (modLane k f s).io = s.io := rfl
@[simp] theorem modLane_pending : (modLane k f s).pending = s.pending := rfl
@[simp] theorem modLane_lane : (modLane k f s).lane k = f (s.lane k) := by simp [modLane, State.lane]
theorem modLane_lane_ne (j : Nat) (h : j ≠ k) : (modLane k f s).lane j = s.lane j := by simp [modLane, State.lane, h]
end

section
variable (k : Nat) (f : Link → Link) (s : State)
@[simp] theorem modLink_env : (modLink k f s).env = s.env := rfl
@[simp] theorem modLink_dev : (modLink k f s).dev = s.dev := rfl
@[simp] theorem modLink_tick : (modLink k f s).tick = s.tick := rfl
@[simp] theorem modLink_regions : (modLink k f s).regions = s.regions := rfl
@[simp] theorem modLink_runner : (modLink k f s).runner = s.runner := rfl
@[simp] theorem modLink_lib : (modLink k f s).lib = s.lib := rfl
@[simp] theorem modLink_brams : (modLink k f s).brams = s.brams := rfl
@[simp] theorem modLink_ingot : (modLink k f s).ingot = s.ingot := rfl
@[simp] theorem modLink_dsp : (modLink k f s).dsp = s.dsp := rfl
@[simp] theorem modLink_domains : (modLink k f s).domains = s.domains := rfl
@[simp] theorem modLink_lanes : (modLink k f s).lanes = s.lanes := rfl
@[simp] theorem modLink_links : (modLink k f s).links = tmod {} s.links k f := rfl
@[simp] theorem modLink_sys : (modLink k f s).sys = s.sys := rfl
@[simp] theorem modLink_riser : (modLink k f s).riser = s.riser := rfl
@[simp] theorem modLink_hbm : (modLink k f s).hbm = s.hbm := rfl
@[simp] theorem modLink_integ : (modLink k f s).integ = s.integ := rfl
@[simp] theorem modLink_clk : (modLink k f s).clk = s.clk := rfl
@[simp] theorem modLink_therm : (modLink k f s).therm = s.therm := rfl
@[simp] theorem modLink_bonds : (modLink k f s).bonds = s.bonds := rfl
@[simp] theorem modLink_cudex : (modLink k f s).cudex = s.cudex := rfl
@[simp] theorem modLink_io : (modLink k f s).io = s.io := rfl
@[simp] theorem modLink_pending : (modLink k f s).pending = s.pending := rfl
@[simp] theorem modLink_link : (modLink k f s).link k = f (s.link k) := by simp [modLink, State.link]
theorem modLink_link_ne (j : Nat) (h : j ≠ k) : (modLink k f s).link j = s.link j := by simp [modLink, State.link, h]
end

section
variable (k : Nat) (f : Queue → Queue) (s : State)
@[simp] theorem modQueue_env : (modQueue k f s).env = s.env := rfl
@[simp] theorem modQueue_dev : (modQueue k f s).dev = s.dev := rfl
@[simp] theorem modQueue_tick : (modQueue k f s).tick = s.tick := rfl
@[simp] theorem modQueue_regions : (modQueue k f s).regions = s.regions := rfl
@[simp] theorem modQueue_runner : (modQueue k f s).runner = s.runner := rfl
@[simp] theorem modQueue_lib : (modQueue k f s).lib = s.lib := rfl
@[simp] theorem modQueue_brams : (modQueue k f s).brams = s.brams := rfl
@[simp] theorem modQueue_ingot : (modQueue k f s).ingot = s.ingot := rfl
@[simp] theorem modQueue_dsp : (modQueue k f s).dsp = s.dsp := rfl
@[simp] theorem modQueue_domains : (modQueue k f s).domains = s.domains := rfl
@[simp] theorem modQueue_lanes : (modQueue k f s).lanes = s.lanes := rfl
@[simp] theorem modQueue_links : (modQueue k f s).links = s.links := rfl
@[simp] theorem modQueue_sys : (modQueue k f s).sys = s.sys := rfl
@[simp] theorem modQueue_hbm : (modQueue k f s).hbm = s.hbm := rfl
@[simp] theorem modQueue_integ : (modQueue k f s).integ = s.integ := rfl
@[simp] theorem modQueue_clk : (modQueue k f s).clk = s.clk := rfl
@[simp] theorem modQueue_therm : (modQueue k f s).therm = s.therm := rfl
@[simp] theorem modQueue_bonds : (modQueue k f s).bonds = s.bonds := rfl
@[simp] theorem modQueue_cudex : (modQueue k f s).cudex = s.cudex := rfl
@[simp] theorem modQueue_io : (modQueue k f s).io = s.io := rfl
@[simp] theorem modQueue_pending : (modQueue k f s).pending = s.pending := rfl
@[simp] theorem modQueue_queue : (modQueue k f s).queue k = f (s.queue k) := by simp [modQueue, State.queue]
theorem modQueue_queue_ne (j : Nat) (h : j ≠ k) : (modQueue k f s).queue j = s.queue j := by simp [modQueue, State.queue, h]
end

section
variable (k : Nat) (f : Gpio → Gpio) (s : State)
@[simp] theorem modGpio_env : (modGpio k f s).env = s.env := rfl
@[simp] theorem modGpio_dev : (modGpio k f s).dev = s.dev := rfl
@[simp] theorem modGpio_tick : (modGpio k f s).tick = s.tick := rfl
@[simp] theorem modGpio_regions : (modGpio k f s).regions = s.regions := rfl
@[simp] theorem modGpio_runner : (modGpio k f s).runner = s.runner := rfl
@[simp] theorem modGpio_lib : (modGpio k f s).lib = s.lib := rfl
@[simp] theorem modGpio_brams : (modGpio k f s).brams = s.brams := rfl
@[simp] theorem modGpio_ingot : (modGpio k f s).ingot = s.ingot := rfl
@[simp] theorem modGpio_dsp : (modGpio k f s).dsp = s.dsp := rfl
@[simp] theorem modGpio_domains : (modGpio k f s).domains = s.domains := rfl
@[simp] theorem modGpio_lanes : (modGpio k f s).lanes = s.lanes := rfl
@[simp] theorem modGpio_links : (modGpio k f s).links = s.links := rfl
@[simp] theorem modGpio_sys : (modGpio k f s).sys = s.sys := rfl
@[simp] theorem modGpio_riser : (modGpio k f s).riser = s.riser := rfl
@[simp] theorem modGpio_hbm : (modGpio k f s).hbm = s.hbm := rfl
@[simp] theorem modGpio_integ : (modGpio k f s).integ = s.integ := rfl
@[simp] theorem modGpio_clk : (modGpio k f s).clk = s.clk := rfl
@[simp] theorem modGpio_therm : (modGpio k f s).therm = s.therm := rfl
@[simp] theorem modGpio_bonds : (modGpio k f s).bonds = s.bonds := rfl
@[simp] theorem modGpio_cudex : (modGpio k f s).cudex = s.cudex := rfl
@[simp] theorem modGpio_pending : (modGpio k f s).pending = s.pending := rfl
@[simp] theorem modGpio_gpioOf : (modGpio k f s).gpioOf k = f (s.gpioOf k) := by simp [modGpio, modIo, State.gpioOf]
theorem modGpio_gpioOf_ne (j : Nat) (h : j ≠ k) : (modGpio k f s).gpioOf j = s.gpioOf j := by simp [modGpio, modIo, State.gpioOf, h]
end

@[simp] theorem modEnv_region (f : Env → Env) (s : State) (k : Nat) : (modEnv f s).region k = s.region k := rfl
@[simp] theorem modEnv_bram (f : Env → Env) (s : State) (k : Nat) : (modEnv f s).bram k = s.bram k := rfl
@[simp] theorem modEnv_engine (f : Env → Env) (s : State) (k : Nat) : (modEnv f s).engine k = s.engine k := rfl
@[simp] theorem modEnv_domain (f : Env → Env) (s : State) (k : Nat) : (modEnv f s).domain k = s.domain k := rfl
@[simp] theorem modEnv_lane (f : Env → Env) (s : State) (k : Nat) : (modEnv f s).lane k = s.lane k := rfl
@[simp] theorem modEnv_link (f : Env → Env) (s : State) (k : Nat) : (modEnv f s).link k = s.link k := rfl
@[simp] theorem modDev_region (f : Device → Device) (s : State) (k : Nat) : (modDev f s).region k = s.region k := rfl
@[simp] theorem modDev_bram (f : Device → Device) (s : State) (k : Nat) : (modDev f s).bram k = s.bram k := rfl
@[simp] theorem modDev_engine (f : Device → Device) (s : State) (k : Nat) : (modDev f s).engine k = s.engine k := rfl
@[simp] theorem modDev_domain (f : Device → Device) (s : State) (k : Nat) : (modDev f s).domain k = s.domain k := rfl
@[simp] theorem modDev_lane (f : Device → Device) (s : State) (k : Nat) : (modDev f s).lane k = s.lane k := rfl
@[simp] theorem modDev_link (f : Device → Device) (s : State) (k : Nat) : (modDev f s).link k = s.link k := rfl
@[simp] theorem modTick_region (f : TickGen → TickGen) (s : State) (k : Nat) : (modTick f s).region k = s.region k := rfl
@[simp] theorem modTick_bram (f : TickGen → TickGen) (s : State) (k : Nat) : (modTick f s).bram k = s.bram k := rfl
@[simp] theorem modTick_engine (f : TickGen → TickGen) (s : State) (k : Nat) : (modTick f s).engine k = s.engine k := rfl
@[simp] theorem modTick_domain (f : TickGen → TickGen) (s : State) (k : Nat) : (modTick f s).domain k = s.domain k := rfl
@[simp] theorem modTick_lane (f : TickGen → TickGen) (s : State) (k : Nat) : (modTick f s).lane k = s.lane k := rfl
@[simp] theorem modTick_link (f : TickGen → TickGen) (s : State) (k : Nat) : (modTick f s).link k = s.link k := rfl
@[simp] theorem modRunner_region (f : RunnerSt → RunnerSt) (s : State) (k : Nat) : (modRunner f s).region k = s.region k := rfl
@[simp] theorem modRunner_bram (f : RunnerSt → RunnerSt) (s : State) (k : Nat) : (modRunner f s).bram k = s.bram k := rfl
@[simp] theorem modRunner_engine (f : RunnerSt → RunnerSt) (s : State) (k : Nat) : (modRunner f s).engine k = s.engine k := rfl
@[simp] theorem modRunner_domain (f : RunnerSt → RunnerSt) (s : State) (k : Nat) : (modRunner f s).domain k = s.domain k := rfl
@[simp] theorem modRunner_lane (f : RunnerSt → RunnerSt) (s : State) (k : Nat) : (modRunner f s).lane k = s.lane k := rfl
@[simp] theorem modRunner_link (f : RunnerSt → RunnerSt) (s : State) (k : Nat) : (modRunner f s).link k = s.link k := rfl
@[simp] theorem modLib_region (f : LibSt → LibSt) (s : State) (k : Nat) : (modLib f s).region k = s.region k := rfl
@[simp] theorem modLib_bram (f : LibSt → LibSt) (s : State) (k : Nat) : (modLib f s).bram k = s.bram k := rfl
@[simp] theorem modLib_engine (f : LibSt → LibSt) (s : State) (k : Nat) : (modLib f s).engine k = s.engine k := rfl
@[simp] theorem modLib_domain (f : LibSt → LibSt) (s : State) (k : Nat) : (modLib f s).domain k = s.domain k := rfl
@[simp] theorem modLib_lane (f : LibSt → LibSt) (s : State) (k : Nat) : (modLib f s).lane k = s.lane k := rfl
@[simp] theorem modLib_link (f : LibSt → LibSt) (s : State) (k : Nat) : (modLib f s).link k = s.link k := rfl
@[simp] theorem modIngot_region (f : IngotSt → IngotSt) (s : State) (k : Nat) : (modIngot f s).region k = s.region k := rfl
@[simp] theorem modIngot_bram (f : IngotSt → IngotSt) (s : State) (k : Nat) : (modIngot f s).bram k = s.bram k := rfl
@[simp] theorem modIngot_engine (f : IngotSt → IngotSt) (s : State) (k : Nat) : (modIngot f s).engine k = s.engine k := rfl
@[simp] theorem modIngot_domain (f : IngotSt → IngotSt) (s : State) (k : Nat) : (modIngot f s).domain k = s.domain k := rfl
@[simp] theorem modIngot_lane (f : IngotSt → IngotSt) (s : State) (k : Nat) : (modIngot f s).lane k = s.lane k := rfl
@[simp] theorem modIngot_link (f : IngotSt → IngotSt) (s : State) (k : Nat) : (modIngot f s).link k = s.link k := rfl
@[simp] theorem modSys_region (f : SysSt → SysSt) (s : State) (k : Nat) : (modSys f s).region k = s.region k := rfl
@[simp] theorem modSys_bram (f : SysSt → SysSt) (s : State) (k : Nat) : (modSys f s).bram k = s.bram k := rfl
@[simp] theorem modSys_engine (f : SysSt → SysSt) (s : State) (k : Nat) : (modSys f s).engine k = s.engine k := rfl
@[simp] theorem modSys_domain (f : SysSt → SysSt) (s : State) (k : Nat) : (modSys f s).domain k = s.domain k := rfl
@[simp] theorem modSys_lane (f : SysSt → SysSt) (s : State) (k : Nat) : (modSys f s).lane k = s.lane k := rfl
@[simp] theorem modSys_link (f : SysSt → SysSt) (s : State) (k : Nat) : (modSys f s).link k = s.link k := rfl
@[simp] theorem modRiser_region (f : RiserSt → RiserSt) (s : State) (k : Nat) : (modRiser f s).region k = s.region k := rfl
@[simp] theorem modRiser_bram (f : RiserSt → RiserSt) (s : State) (k : Nat) : (modRiser f s).bram k = s.bram k := rfl
@[simp] theorem modRiser_engine (f : RiserSt → RiserSt) (s : State) (k : Nat) : (modRiser f s).engine k = s.engine k := rfl
@[simp] theorem modRiser_domain (f : RiserSt → RiserSt) (s : State) (k : Nat) : (modRiser f s).domain k = s.domain k := rfl
@[simp] theorem modRiser_lane (f : RiserSt → RiserSt) (s : State) (k : Nat) : (modRiser f s).lane k = s.lane k := rfl
@[simp] theorem modRiser_link (f : RiserSt → RiserSt) (s : State) (k : Nat) : (modRiser f s).link k = s.link k := rfl
@[simp] theorem modHbm_region (f : HbmSt → HbmSt) (s : State) (k : Nat) : (modHbm f s).region k = s.region k := rfl
@[simp] theorem modHbm_bram (f : HbmSt → HbmSt) (s : State) (k : Nat) : (modHbm f s).bram k = s.bram k := rfl
@[simp] theorem modHbm_engine (f : HbmSt → HbmSt) (s : State) (k : Nat) : (modHbm f s).engine k = s.engine k := rfl
@[simp] theorem modHbm_domain (f : HbmSt → HbmSt) (s : State) (k : Nat) : (modHbm f s).domain k = s.domain k := rfl
@[simp] theorem modHbm_lane (f : HbmSt → HbmSt) (s : State) (k : Nat) : (modHbm f s).lane k = s.lane k := rfl
@[simp] theorem modHbm_link (f : HbmSt → HbmSt) (s : State) (k : Nat) : (modHbm f s).link k = s.link k := rfl
@[simp] theorem modInteg_region (f : IntegSt → IntegSt) (s : State) (k : Nat) : (modInteg f s).region k = s.region k := rfl
@[simp] theorem modInteg_bram (f : IntegSt → IntegSt) (s : State) (k : Nat) : (modInteg f s).bram k = s.bram k := rfl
@[simp] theorem modInteg_engine (f : IntegSt → IntegSt) (s : State) (k : Nat) : (modInteg f s).engine k = s.engine k := rfl
@[simp] theorem modInteg_domain (f : IntegSt → IntegSt) (s : State) (k : Nat) : (modInteg f s).domain k = s.domain k := rfl
@[simp] theorem modInteg_lane (f : IntegSt → IntegSt) (s : State) (k : Nat) : (modInteg f s).lane k = s.lane k := rfl
@[simp] theorem modInteg_link (f : IntegSt → IntegSt) (s : State) (k : Nat) : (modInteg f s).link k = s.link k := rfl
@[simp] theorem modClk_region (f : ClkSt → ClkSt) (s : State) (k : Nat) : (modClk f s).region k = s.region k := rfl
@[simp] theorem modClk_bram (f : ClkSt → ClkSt) (s : State) (k : Nat) : (modClk f s).bram k = s.bram k := rfl
@[simp] theorem modClk_engine (f : ClkSt → ClkSt) (s : State) (k : Nat) : (modClk f s).engine k = s.engine k := rfl
@[simp] theorem modClk_domain (f : ClkSt → ClkSt) (s : State) (k : Nat) : (modClk f s).domain k = s.domain k := rfl
@[simp] theorem modClk_lane (f : ClkSt → ClkSt) (s : State) (k : Nat) : (modClk f s).lane k = s.lane k := rfl
@[simp] theorem modClk_link (f : ClkSt → ClkSt) (s : State) (k : Nat) : (modClk f s).link k = s.link k := rfl
@[simp] theorem modTherm_region (f : ThermSt → ThermSt) (s : State) (k : Nat) : (modTherm f s).region k = s.region k := rfl
@[simp] theorem modTherm_bram (f : ThermSt → ThermSt) (s : State) (k : Nat) : (modTherm f s).bram k = s.bram k := rfl
@[simp] theorem modTherm_engine (f : ThermSt → ThermSt) (s : State) (k : Nat) : (modTherm f s).engine k = s.engine k := rfl
@[simp] theorem modTherm_domain (f : ThermSt → ThermSt) (s : State) (k : Nat) : (modTherm f s).domain k = s.domain k := rfl
@[simp] theorem modTherm_lane (f : ThermSt → ThermSt) (s : State) (k : Nat) : (modTherm f s).lane k = s.lane k := rfl
@[simp] theorem modTherm_link (f : ThermSt → ThermSt) (s : State) (k : Nat) : (modTherm f s).link k = s.link k := rfl
@[simp] theorem modBonds_region (f : BondsSt → BondsSt) (s : State) (k : Nat) : (modBonds f s).region k = s.region k := rfl
@[simp] theorem modBonds_bram (f : BondsSt → BondsSt) (s : State) (k : Nat) : (modBonds f s).bram k = s.bram k := rfl
@[simp] theorem modBonds_engine (f : BondsSt → BondsSt) (s : State) (k : Nat) : (modBonds f s).engine k = s.engine k := rfl
@[simp] theorem modBonds_domain (f : BondsSt → BondsSt) (s : State) (k : Nat) : (modBonds f s).domain k = s.domain k := rfl
@[simp] theorem modBonds_lane (f : BondsSt → BondsSt) (s : State) (k : Nat) : (modBonds f s).lane k = s.lane k := rfl
@[simp] theorem modBonds_link (f : BondsSt → BondsSt) (s : State) (k : Nat) : (modBonds f s).link k = s.link k := rfl
@[simp] theorem modCudex_region (f : CudexSt → CudexSt) (s : State) (k : Nat) : (modCudex f s).region k = s.region k := rfl
@[simp] theorem modCudex_bram (f : CudexSt → CudexSt) (s : State) (k : Nat) : (modCudex f s).bram k = s.bram k := rfl
@[simp] theorem modCudex_engine (f : CudexSt → CudexSt) (s : State) (k : Nat) : (modCudex f s).engine k = s.engine k := rfl
@[simp] theorem modCudex_domain (f : CudexSt → CudexSt) (s : State) (k : Nat) : (modCudex f s).domain k = s.domain k := rfl
@[simp] theorem modCudex_lane (f : CudexSt → CudexSt) (s : State) (k : Nat) : (modCudex f s).lane k = s.lane k := rfl
@[simp] theorem modCudex_link (f : CudexSt → CudexSt) (s : State) (k : Nat) : (modCudex f s).link k = s.link k := rfl
@[simp] theorem modIo_region (f : IoSt → IoSt) (s : State) (k : Nat) : (modIo f s).region k = s.region k := rfl
@[simp] theorem modIo_bram (f : IoSt → IoSt) (s : State) (k : Nat) : (modIo f s).bram k = s.bram k := rfl
@[simp] theorem modIo_engine (f : IoSt → IoSt) (s : State) (k : Nat) : (modIo f s).engine k = s.engine k := rfl
@[simp] theorem modIo_domain (f : IoSt → IoSt) (s : State) (k : Nat) : (modIo f s).domain k = s.domain k := rfl
@[simp] theorem modIo_lane (f : IoSt → IoSt) (s : State) (k : Nat) : (modIo f s).lane k = s.lane k := rfl
@[simp] theorem modIo_link (f : IoSt → IoSt) (s : State) (k : Nat) : (modIo f s).link k = s.link k := rfl

end Sys2Proof.Machine
end

