-- ==== Sys2Proof/Laws/Ops.lean ====
section
/-! SUPPORT. What the shared operations of Machine/Ops.lean change, said once: each leaves every component of State but the
ones its lemmas leave out, and a command that ends in `commit` answers a next state with the fuses and the queue as they
were and the mode that the conditions give. -/

namespace Sys2Proof.Machine

/-! ### Combinators -/

@[simp] theorem onlyIf_env (c : Bool) (f : State → State) (s : State) :
    (onlyIf c f s).env = if c then (f s).env else s.env := by
  cases c <;> rfl
@[simp] theorem onlyIf_dev (c : Bool) (f : State → State) (s : State) :
    (onlyIf c f s).dev = if c then (f s).dev else s.dev := by
  cases c <;> rfl
@[simp] theorem onlyIf_tick (c : Bool) (f : State → State) (s : State) :
    (onlyIf c f s).tick = if c then (f s).tick else s.tick := by
  cases c <;> rfl
@[simp] theorem onlyIf_regions (c : Bool) (f : State → State) (s : State) :
    (onlyIf c f s).regions = if c then (f s).regions else s.regions := by
  cases c <;> rfl
@[simp] theorem onlyIf_runner (c : Bool) (f : State → State) (s : State) :
    (onlyIf c f s).runner = if c then (f s).runner else s.runner := by
  cases c <;> rfl
@[simp] theorem onlyIf_lib (c : Bool) (f : State → State) (s : State) :
    (onlyIf c f s).lib = if c then (f s).lib else s.lib := by
  cases c <;> rfl
@[simp] theorem onlyIf_brams (c : Bool) (f : State → State) (s : State) :
    (onlyIf c f s).brams = if c then (f s).brams else s.brams := by
  cases c <;> rfl
@[simp] theorem onlyIf_ingot (c : Bool) (f : State → State) (s : State) :
    (onlyIf c f s).ingot = if c then (f s).ingot else s.ingot := by
  cases c <;> rfl
@[simp] theorem onlyIf_dsp (c : Bool) (f : State → State) (s : State) :
    (onlyIf c f s).dsp = if c then (f s).dsp else s.dsp := by
  cases c <;> rfl
@[simp] theorem onlyIf_domains (c : Bool) (f : State → State) (s : State) :
    (onlyIf c f s).domains = if c then (f s).domains else s.domains := by
  cases c <;> rfl
@[simp] theorem onlyIf_lanes (c : Bool) (f : State → State) (s : State) :
    (onlyIf c f s).lanes = if c then (f s).lanes else s.lanes := by
  cases c <;> rfl
@[simp] theorem onlyIf_links (c : Bool) (f : State → State) (s : State) :
    (onlyIf c f s).links = if c then (f s).links else s.links := by
  cases c <;> rfl
@[simp] theorem onlyIf_sys (c : Bool) (f : State → State) (s : State) :
    (onlyIf c f s).sys = if c then (f s).sys else s.sys := by
  cases c <;> rfl
@[simp] theorem onlyIf_riser (c : Bool) (f : State → State) (s : State) :
    (onlyIf c f s).riser = if c then (f s).riser else s.riser := by
  cases c <;> rfl
@[simp] theorem onlyIf_hbm (c : Bool) (f : State → State) (s : State) :
    (onlyIf c f s).hbm = if c then (f s).hbm else s.hbm := by
  cases c <;> rfl
@[simp] theorem onlyIf_integ (c : Bool) (f : State → State) (s : State) :
    (onlyIf c f s).integ = if c then (f s).integ else s.integ := by
  cases c <;> rfl
@[simp] theorem onlyIf_clk (c : Bool) (f : State → State) (s : State) :
    (onlyIf c f s).clk = if c then (f s).clk else s.clk := by
  cases c <;> rfl
@[simp] theorem onlyIf_therm (c : Bool) (f : State → State) (s : State) :
    (onlyIf c f s).therm = if c then (f s).therm else s.therm := by
  cases c <;> rfl
@[simp] theorem onlyIf_bonds (c : Bool) (f : State → State) (s : State) :
    (onlyIf c f s).bonds = if c then (f s).bonds else s.bonds := by
  cases c <;> rfl
@[simp] theorem onlyIf_cudex (c : Bool) (f : State → State) (s : State) :
    (onlyIf c f s).cudex = if c then (f s).cudex else s.cudex := by
  cases c <;> rfl
@[simp] theorem onlyIf_io (c : Bool) (f : State → State) (s : State) :
    (onlyIf c f s).io = if c then (f s).io else s.io := by
  cases c <;> rfl
@[simp] theorem onlyIf_pending (c : Bool) (f : State → State) (s : State) :
    (onlyIf c f s).pending = if c then (f s).pending else s.pending := by
  cases c <;> rfl

/-- What every step of a loop keeps, the loop keeps. -/
theorem forEach_keeps {α β : Type} (π : State → β) (l : List α) (f : α → State → State) (s : State)
    (h : ∀ x s, π (f x s) = π s) : π (forEach l f s) = π s := by
  induction l generalizing s with
  | nil => rfl
  | cons x l ih => exact (ih (f x s)).trans (h x s)

theorem forBelow_keeps {β : Type} (π : State → β) (n : Nat) (f : Nat → State → State) (s : State)
    (h : ∀ x s, π (f x s) = π s) : π (forBelow n f s) = π s := forEach_keeps π (List.range n) f s h

@[simp] theorem forEach_env {α : Type} (l : List α) (f : α → State → State) (s : State)
    (h : ∀ x s, (f x s).env = s.env) : (forEach l f s).env = s.env := forEach_keeps (·.env) l f s h
@[simp] theorem forBelow_env (n : Nat) (f : Nat → State → State) (s : State)
    (h : ∀ x s, (f x s).env = s.env) : (forBelow n f s).env = s.env := forBelow_keeps (·.env) n f s h
@[simp] theorem forEach_dev {α : Type} (l : List α) (f : α → State → State) (s : State)
    (h : ∀ x s, (f x s).dev = s.dev) : (forEach l f s).dev = s.dev := forEach_keeps (·.dev) l f s h
@[simp] theorem forBelow_dev (n : Nat) (f : Nat → State → State) (s : State)
    (h : ∀ x s, (f x s).dev = s.dev) : (forBelow n f s).dev = s.dev := forBelow_keeps (·.dev) n f s h
@[simp] theorem forEach_tick {α : Type} (l : List α) (f : α → State → State) (s : State)
    (h : ∀ x s, (f x s).tick = s.tick) : (forEach l f s).tick = s.tick := forEach_keeps (·.tick) l f s h
@[simp] theorem forBelow_tick (n : Nat) (f : Nat → State → State) (s : State)
    (h : ∀ x s, (f x s).tick = s.tick) : (forBelow n f s).tick = s.tick := forBelow_keeps (·.tick) n f s h
@[simp] theorem forEach_regions {α : Type} (l : List α) (f : α → State → State) (s : State)
    (h : ∀ x s, (f x s).regions = s.regions) : (forEach l f s).regions = s.regions := forEach_keeps (·.regions) l f s h
@[simp] theorem forBelow_regions (n : Nat) (f : Nat → State → State) (s : State)
    (h : ∀ x s, (f x s).regions = s.regions) : (forBelow n f s).regions = s.regions := forBelow_keeps (·.regions) n f s h
@[simp] theorem forEach_runner {α : Type} (l : List α) (f : α → State → State) (s : State)
    (h : ∀ x s, (f x s).runner = s.runner) : (forEach l f s).runner = s.runner := forEach_keeps (·.runner) l f s h
@[simp] theorem forBelow_runner (n : Nat) (f : Nat → State → State) (s : State)
    (h : ∀ x s, (f x s).runner = s.runner) : (forBelow n f s).runner = s.runner := forBelow_keeps (·.runner) n f s h
@[simp] theorem forEach_lib {α : Type} (l : List α) (f : α → State → State) (s : State)
    (h : ∀ x s, (f x s).lib = s.lib) : (forEach l f s).lib = s.lib := forEach_keeps (·.lib) l f s h
@[simp] theorem forBelow_lib (n : Nat) (f : Nat → State → State) (s : State)
    (h : ∀ x s, (f x s).lib = s.lib) : (forBelow n f s).lib = s.lib := forBelow_keeps (·.lib) n f s h
@[simp] theorem forEach_brams {α : Type} (l : List α) (f : α → State → State) (s : State)
    (h : ∀ x s, (f x s).brams = s.brams) : (forEach l f s).brams = s.brams := forEach_keeps (·.brams) l f s h
@[simp] theorem forBelow_brams (n : Nat) (f : Nat → State → State) (s : State)
    (h : ∀ x s, (f x s).brams = s.brams) : (forBelow n f s).brams = s.brams := forBelow_keeps (·.brams) n f s h
@[simp] theorem forEach_ingot {α : Type} (l : List α) (f : α → State → State) (s : State)
    (h : ∀ x s, (f x s).ingot = s.ingot) : (forEach l f s).ingot = s.ingot := forEach_keeps (·.ingot) l f s h
@[simp] theorem forBelow_ingot (n : Nat) (f : Nat → State → State) (s : State)
    (h : ∀ x s, (f x s).ingot = s.ingot) : (forBelow n f s).ingot = s.ingot := forBelow_keeps (·.ingot) n f s h
@[simp] theorem forEach_dsp {α : Type} (l : List α) (f : α → State → State) (s : State)
    (h : ∀ x s, (f x s).dsp = s.dsp) : (forEach l f s).dsp = s.dsp := forEach_keeps (·.dsp) l f s h
@[simp] theorem forBelow_dsp (n : Nat) (f : Nat → State → State) (s : State)
    (h : ∀ x s, (f x s).dsp = s.dsp) : (forBelow n f s).dsp = s.dsp := forBelow_keeps (·.dsp) n f s h
@[simp] theorem forEach_domains {α : Type} (l : List α) (f : α → State → State) (s : State)
    (h : ∀ x s, (f x s).domains = s.domains) : (forEach l f s).domains = s.domains := forEach_keeps (·.domains) l f s h
@[simp] theorem forBelow_domains (n : Nat) (f : Nat → State → State) (s : State)
    (h : ∀ x s, (f x s).domains = s.domains) : (forBelow n f s).domains = s.domains := forBelow_keeps (·.domains) n f s h
@[simp] theorem forEach_lanes {α : Type} (l : List α) (f : α → State → State) (s : State)
    (h : ∀ x s, (f x s).lanes = s.lanes) : (forEach l f s).lanes = s.lanes := forEach_keeps (·.lanes) l f s h
@[simp] theorem forBelow_lanes (n : Nat) (f : Nat → State → State) (s : State)
    (h : ∀ x s, (f x s).lanes = s.lanes) : (forBelow n f s).lanes = s.lanes := forBelow_keeps (·.lanes) n f s h
@[simp] theorem forEach_links {α : Type} (l : List α) (f : α → State → State) (s : State)
    (h : ∀ x s, (f x s).links = s.links) : (forEach l f s).links = s.links := forEach_keeps (·.links) l f s h
@[simp] theorem forBelow_links (n : Nat) (f : Nat → State → State) (s : State)
    (h : ∀ x s, (f x s).links = s.links) : (forBelow n f s).links = s.links := forBelow_keeps (·.links) n f s h
@[simp] theorem forEach_sys {α : Type} (l : List α) (f : α → State → State) (s : State)
    (h : ∀ x s, (f x s).sys = s.sys) : (forEach l f s).sys = s.sys := forEach_keeps (·.sys) l f s h
@[simp] theorem forBelow_sys (n : Nat) (f : Nat → State → State) (s : State)
    (h : ∀ x s, (f x s).sys = s.sys) : (forBelow n f s).sys = s.sys := forBelow_keeps (·.sys) n f s h
@[simp] theorem forEach_riser {α : Type} (l : List α) (f : α → State → State) (s : State)
    (h : ∀ x s, (f x s).riser = s.riser) : (forEach l f s).riser = s.riser := forEach_keeps (·.riser) l f s h
@[simp] theorem forBelow_riser (n : Nat) (f : Nat → State → State) (s : State)
    (h : ∀ x s, (f x s).riser = s.riser) : (forBelow n f s).riser = s.riser := forBelow_keeps (·.riser) n f s h
@[simp] theorem forEach_hbm {α : Type} (l : List α) (f : α → State → State) (s : State)
    (h : ∀ x s, (f x s).hbm = s.hbm) : (forEach l f s).hbm = s.hbm := forEach_keeps (·.hbm) l f s h
@[simp] theorem forBelow_hbm (n : Nat) (f : Nat → State → State) (s : State)
    (h : ∀ x s, (f x s).hbm = s.hbm) : (forBelow n f s).hbm = s.hbm := forBelow_keeps (·.hbm) n f s h
@[simp] theorem forEach_integ {α : Type} (l : List α) (f : α → State → State) (s : State)
    (h : ∀ x s, (f x s).integ = s.integ) : (forEach l f s).integ = s.integ := forEach_keeps (·.integ) l f s h
@[simp] theorem forBelow_integ (n : Nat) (f : Nat → State → State) (s : State)
    (h : ∀ x s, (f x s).integ = s.integ) : (forBelow n f s).integ = s.integ := forBelow_keeps (·.integ) n f s h
@[simp] theorem forEach_clk {α : Type} (l : List α) (f : α → State → State) (s : State)
    (h : ∀ x s, (f x s).clk = s.clk) : (forEach l f s).clk = s.clk := forEach_keeps (·.clk) l f s h
@[simp] theorem forBelow_clk (n : Nat) (f : Nat → State → State) (s : State)
    (h : ∀ x s, (f x s).clk = s.clk) : (forBelow n f s).clk = s.clk := forBelow_keeps (·.clk) n f s h
@[simp] theorem forEach_therm {α : Type} (l : List α) (f : α → State → State) (s : State)
    (h : ∀ x s, (f x s).therm = s.therm) : (forEach l f s).therm = s.therm := forEach_keeps (·.therm) l f s h
@[simp] theorem forBelow_therm (n : Nat) (f : Nat → State → State) (s : State)
    (h : ∀ x s, (f x s).therm = s.therm) : (forBelow n f s).therm = s.therm := forBelow_keeps (·.therm) n f s h
@[simp] theorem forEach_bonds {α : Type} (l : List α) (f : α → State → State) (s : State)
    (h : ∀ x s, (f x s).bonds = s.bonds) : (forEach l f s).bonds = s.bonds := forEach_keeps (·.bonds) l f s h
@[simp] theorem forBelow_bonds (n : Nat) (f : Nat → State → State) (s : State)
    (h : ∀ x s, (f x s).bonds = s.bonds) : (forBelow n f s).bonds = s.bonds := forBelow_keeps (·.bonds) n f s h
@[simp] theorem forEach_cudex {α : Type} (l : List α) (f : α → State → State) (s : State)
    (h : ∀ x s, (f x s).cudex = s.cudex) : (forEach l f s).cudex = s.cudex := forEach_keeps (·.cudex) l f s h
@[simp] theorem forBelow_cudex (n : Nat) (f : Nat → State → State) (s : State)
    (h : ∀ x s, (f x s).cudex = s.cudex) : (forBelow n f s).cudex = s.cudex := forBelow_keeps (·.cudex) n f s h
@[simp] theorem forEach_io {α : Type} (l : List α) (f : α → State → State) (s : State)
    (h : ∀ x s, (f x s).io = s.io) : (forEach l f s).io = s.io := forEach_keeps (·.io) l f s h
@[simp] theorem forBelow_io (n : Nat) (f : Nat → State → State) (s : State)
    (h : ∀ x s, (f x s).io = s.io) : (forBelow n f s).io = s.io := forBelow_keeps (·.io) n f s h
@[simp] theorem forEach_pending {α : Type} (l : List α) (f : α → State → State) (s : State)
    (h : ∀ x s, (f x s).pending = s.pending) : (forEach l f s).pending = s.pending := forEach_keeps (·.pending) l f s h
@[simp] theorem forBelow_pending (n : Nat) (f : Nat → State → State) (s : State)
    (h : ∀ x s, (f x s).pending = s.pending) : (forBelow n f s).pending = s.pending := forBelow_keeps (·.pending) n f s h

/-! ### Free values and events -/

@[simp] theorem useFree_dev (s : State) : (useFree s).dev = s.dev := by rfl
@[simp] theorem useFree_tick (s : State) : (useFree s).tick = s.tick := by rfl
@[simp] theorem useFree_regions (s : State) : (useFree s).regions = s.regions := by rfl
@[simp] theorem useFree_runner (s : State) : (useFree s).runner = s.runner := by rfl
@[simp] theorem useFree_lib (s : State) : (useFree s).lib = s.lib := by rfl
@[simp] theorem useFree_brams (s : State) : (useFree s).brams = s.brams := by rfl
@[simp] theorem useFree_ingot (s : State) : (useFree s).ingot = s.ingot := by rfl
@[simp] theorem useFree_dsp (s : State) : (useFree s).dsp = s.dsp := by rfl
@[simp] theorem useFree_domains (s : State) : (useFree s).domains = s.domains := by rfl
@[simp] theorem useFree_lanes (s : State) : (useFree s).lanes = s.lanes := by rfl
@[simp] theorem useFree_links (s : State) : (useFree s).links = s.links := by rfl
@[simp] theorem useFree_sys (s : State) : (useFree s).sys = s.sys := by rfl
@[simp] theorem useFree_riser (s : State) : (useFree s).riser = s.riser := by rfl
@[simp] theorem useFree_hbm (s : State) : (useFree s).hbm = s.hbm := by rfl
@[simp] theorem useFree_integ (s : State) : (useFree s).integ = s.integ := by rfl
@[simp] theorem useFree_clk (s : State) : (useFree s).clk = s.clk := by rfl
@[simp] theorem useFree_therm (s : State) : (useFree s).therm = s.therm := by rfl
@[simp] theorem useFree_bonds (s : State) : (useFree s).bonds = s.bonds := by rfl
@[simp] theorem useFree_cudex (s : State) : (useFree s).cudex = s.cudex := by rfl
@[simp] theorem useFree_io (s : State) : (useFree s).io = s.io := by rfl
@[simp] theorem useFree_pending (s : State) : (useFree s).pending = s.pending := by rfl

@[simp] theorem signalMsix_env (v : Nat) (s : State) : (signalMsix v s).env = s.env := by rfl
@[simp] theorem signalMsix_dev (v : Nat) (s : State) : (signalMsix v s).dev = s.dev := by rfl
@[simp] theorem signalMsix_tick (v : Nat) (s : State) : (signalMsix v s).tick = s.tick := by rfl
@[simp] theorem signalMsix_regions (v : Nat) (s : State) : (signalMsix v s).regions = s.regions := by rfl
@[simp] theorem signalMsix_runner (v : Nat) (s : State) : (signalMsix v s).runner = s.runner := by rfl
@[simp] theorem signalMsix_lib (v : Nat) (s : State) : (signalMsix v s).lib = s.lib := by rfl
@[simp] theorem signalMsix_brams (v : Nat) (s : State) : (signalMsix v s).brams = s.brams := by rfl
@[simp] theorem signalMsix_ingot (v : Nat) (s : State) : (signalMsix v s).ingot = s.ingot := by rfl
@[simp] theorem signalMsix_dsp (v : Nat) (s : State) : (signalMsix v s).dsp = s.dsp := by rfl
@[simp] theorem signalMsix_domains (v : Nat) (s : State) : (signalMsix v s).domains = s.domains := by rfl
@[simp] theorem signalMsix_lanes (v : Nat) (s : State) : (signalMsix v s).lanes = s.lanes := by rfl
@[simp] theorem signalMsix_links (v : Nat) (s : State) : (signalMsix v s).links = s.links := by rfl
@[simp] theorem signalMsix_sys (v : Nat) (s : State) : (signalMsix v s).sys = s.sys := by rfl
@[simp] theorem signalMsix_riser (v : Nat) (s : State) : (signalMsix v s).riser = s.riser := by rfl
@[simp] theorem signalMsix_hbm (v : Nat) (s : State) : (signalMsix v s).hbm = s.hbm := by rfl
@[simp] theorem signalMsix_integ (v : Nat) (s : State) : (signalMsix v s).integ = s.integ := by rfl
@[simp] theorem signalMsix_clk (v : Nat) (s : State) : (signalMsix v s).clk = s.clk := by rfl
@[simp] theorem signalMsix_therm (v : Nat) (s : State) : (signalMsix v s).therm = s.therm := by rfl
@[simp] theorem signalMsix_bonds (v : Nat) (s : State) : (signalMsix v s).bonds = s.bonds := by rfl
@[simp] theorem signalMsix_cudex (v : Nat) (s : State) : (signalMsix v s).cudex = s.cudex := by rfl
@[simp] theorem signalMsix_pending (v : Nat) (s : State) : (signalMsix v s).pending = s.pending := by rfl

@[simp] theorem deliver_env (r : Record) (s : State) : (deliver r s).env = s.env := by unfold deliver; split <;> simp
@[simp] theorem deliver_dev (r : Record) (s : State) : (deliver r s).dev = s.dev := by unfold deliver; split <;> simp
@[simp] theorem deliver_tick (r : Record) (s : State) : (deliver r s).tick = s.tick := by unfold deliver; split <;> simp
@[simp] theorem deliver_regions (r : Record) (s : State) : (deliver r s).regions = s.regions := by unfold deliver; split <;> simp
@[simp] theorem deliver_runner (r : Record) (s : State) : (deliver r s).runner = s.runner := by unfold deliver; split <;> simp
@[simp] theorem deliver_lib (r : Record) (s : State) : (deliver r s).lib = s.lib := by unfold deliver; split <;> simp
@[simp] theorem deliver_brams (r : Record) (s : State) : (deliver r s).brams = s.brams := by unfold deliver; split <;> simp
@[simp] theorem deliver_ingot (r : Record) (s : State) : (deliver r s).ingot = s.ingot := by unfold deliver; split <;> simp
@[simp] theorem deliver_dsp (r : Record) (s : State) : (deliver r s).dsp = s.dsp := by unfold deliver; split <;> simp
@[simp] theorem deliver_domains (r : Record) (s : State) : (deliver r s).domains = s.domains := by unfold deliver; split <;> simp
@[simp] theorem deliver_lanes (r : Record) (s : State) : (deliver r s).lanes = s.lanes := by unfold deliver; split <;> simp
@[simp] theorem deliver_links (r : Record) (s : State) : (deliver r s).links = s.links := by unfold deliver; split <;> simp
@[simp] theorem deliver_sys (r : Record) (s : State) : (deliver r s).sys = s.sys := by unfold deliver; split <;> simp
@[simp] theorem deliver_riser (r : Record) (s : State) : (deliver r s).riser = s.riser := by unfold deliver; split <;> simp
@[simp] theorem deliver_hbm (r : Record) (s : State) : (deliver r s).hbm = s.hbm := by unfold deliver; split <;> simp
@[simp] theorem deliver_integ (r : Record) (s : State) : (deliver r s).integ = s.integ := by unfold deliver; split <;> simp
@[simp] theorem deliver_clk (r : Record) (s : State) : (deliver r s).clk = s.clk := by unfold deliver; split <;> simp
@[simp] theorem deliver_therm (r : Record) (s : State) : (deliver r s).therm = s.therm := by unfold deliver; split <;> simp
@[simp] theorem deliver_bonds (r : Record) (s : State) : (deliver r s).bonds = s.bonds := by unfold deliver; split <;> simp
@[simp] theorem deliver_pending (r : Record) (s : State) : (deliver r s).pending = s.pending := by unfold deliver; split <;> simp

@[simp] theorem raise_env (e : EvRec) (s : State) : (raise e s).env = s.env := by simp [raise]
@[simp] theorem raise_dev (e : EvRec) (s : State) : (raise e s).dev = s.dev := by simp [raise]
@[simp] theorem raise_tick (e : EvRec) (s : State) : (raise e s).tick = s.tick := by simp [raise]
@[simp] theorem raise_regions (e : EvRec) (s : State) : (raise e s).regions = s.regions := by simp [raise]
@[simp] theorem raise_runner (e : EvRec) (s : State) : (raise e s).runner = s.runner := by simp [raise]
@[simp] theorem raise_lib (e : EvRec) (s : State) : (raise e s).lib = s.lib := by simp [raise]
@[simp] theorem raise_brams (e : EvRec) (s : State) : (raise e s).brams = s.brams := by simp [raise]
@[simp] theorem raise_ingot (e : EvRec) (s : State) : (raise e s).ingot = s.ingot := by simp [raise]
@[simp] theorem raise_dsp (e : EvRec) (s : State) : (raise e s).dsp = s.dsp := by simp [raise]
@[simp] theorem raise_domains (e : EvRec) (s : State) : (raise e s).domains = s.domains := by simp [raise]
@[simp] theorem raise_lanes (e : EvRec) (s : State) : (raise e s).lanes = s.lanes := by simp [raise]
@[simp] theorem raise_links (e : EvRec) (s : State) : (raise e s).links = s.links := by simp [raise]
@[simp] theorem raise_sys (e : EvRec) (s : State) : (raise e s).sys = s.sys := by simp [raise]
@[simp] theorem raise_riser (e : EvRec) (s : State) : (raise e s).riser = s.riser := by simp [raise]
@[simp] theorem raise_hbm (e : EvRec) (s : State) : (raise e s).hbm = s.hbm := by simp [raise]
@[simp] theorem raise_integ (e : EvRec) (s : State) : (raise e s).integ = s.integ := by simp [raise]
@[simp] theorem raise_clk (e : EvRec) (s : State) : (raise e s).clk = s.clk := by simp [raise]
@[simp] theorem raise_therm (e : EvRec) (s : State) : (raise e s).therm = s.therm := by simp [raise]
@[simp] theorem raise_bonds (e : EvRec) (s : State) : (raise e s).bonds = s.bonds := by simp [raise]
@[simp] theorem raise_pending (e : EvRec) (s : State) : (raise e s).pending = s.pending := by simp [raise]

@[simp] theorem raiseLimited_env (e : EvRec) (c : List Nat) (s : State) : (raiseLimited e c s).env = s.env := by unfold raiseLimited; split <;> simp
@[simp] theorem raiseLimited_dev (e : EvRec) (c : List Nat) (s : State) : (raiseLimited e c s).dev = s.dev := by unfold raiseLimited; split <;> simp
@[simp] theorem raiseLimited_tick (e : EvRec) (c : List Nat) (s : State) : (raiseLimited e c s).tick = s.tick := by unfold raiseLimited; split <;> simp
@[simp] theorem raiseLimited_regions (e : EvRec) (c : List Nat) (s : State) : (raiseLimited e c s).regions = s.regions := by unfold raiseLimited; split <;> simp
@[simp] theorem raiseLimited_runner (e : EvRec) (c : List Nat) (s : State) : (raiseLimited e c s).runner = s.runner := by unfold raiseLimited; split <;> simp
@[simp] theorem raiseLimited_lib (e : EvRec) (c : List Nat) (s : State) : (raiseLimited e c s).lib = s.lib := by unfold raiseLimited; split <;> simp
@[simp] theorem raiseLimited_brams (e : EvRec) (c : List Nat) (s : State) : (raiseLimited e c s).brams = s.brams := by unfold raiseLimited; split <;> simp
@[simp] theorem raiseLimited_ingot (e : EvRec) (c : List Nat) (s : State) : (raiseLimited e c s).ingot = s.ingot := by unfold raiseLimited; split <;> simp
@[simp] theorem raiseLimited_dsp (e : EvRec) (c : List Nat) (s : State) : (raiseLimited e c s).dsp = s.dsp := by unfold raiseLimited; split <;> simp
@[simp] theorem raiseLimited_domains (e : EvRec) (c : List Nat) (s : State) : (raiseLimited e c s).domains = s.domains := by unfold raiseLimited; split <;> simp
@[simp] theorem raiseLimited_lanes (e : EvRec) (c : List Nat) (s : State) : (raiseLimited e c s).lanes = s.lanes := by unfold raiseLimited; split <;> simp
@[simp] theorem raiseLimited_links (e : EvRec) (c : List Nat) (s : State) : (raiseLimited e c s).links = s.links := by unfold raiseLimited; split <;> simp
@[simp] theorem raiseLimited_sys (e : EvRec) (c : List Nat) (s : State) : (raiseLimited e c s).sys = s.sys := by unfold raiseLimited; split <;> simp
@[simp] theorem raiseLimited_riser (e : EvRec) (c : List Nat) (s : State) : (raiseLimited e c s).riser = s.riser := by unfold raiseLimited; split <;> simp
@[simp] theorem raiseLimited_hbm (e : EvRec) (c : List Nat) (s : State) : (raiseLimited e c s).hbm = s.hbm := by unfold raiseLimited; split <;> simp
@[simp] theorem raiseLimited_integ (e : EvRec) (c : List Nat) (s : State) : (raiseLimited e c s).integ = s.integ := by unfold raiseLimited; split <;> simp
@[simp] theorem raiseLimited_clk (e : EvRec) (c : List Nat) (s : State) : (raiseLimited e c s).clk = s.clk := by unfold raiseLimited; split <;> simp
@[simp] theorem raiseLimited_therm (e : EvRec) (c : List Nat) (s : State) : (raiseLimited e c s).therm = s.therm := by unfold raiseLimited; split <;> simp
@[simp] theorem raiseLimited_bonds (e : EvRec) (c : List Nat) (s : State) : (raiseLimited e c s).bonds = s.bonds := by unfold raiseLimited; split <;> simp
@[simp] theorem raiseLimited_pending (e : EvRec) (c : List Nat) (s : State) : (raiseLimited e c s).pending = s.pending := by unfold raiseLimited; split <;> simp

/-! ### The mode -/

@[simp] theorem settleMode_env (c : Nat) (s : State) : (settleMode c s).env = s.env := by unfold settleMode; dsimp only; split <;> simp
@[simp] theorem settleMode_tick (c : Nat) (s : State) : (settleMode c s).tick = s.tick := by unfold settleMode; dsimp only; split <;> simp
@[simp] theorem settleMode_regions (c : Nat) (s : State) : (settleMode c s).regions = s.regions := by unfold settleMode; dsimp only; split <;> simp
@[simp] theorem settleMode_runner (c : Nat) (s : State) : (settleMode c s).runner = s.runner := by unfold settleMode; dsimp only; split <;> simp
@[simp] theorem settleMode_lib (c : Nat) (s : State) : (settleMode c s).lib = s.lib := by unfold settleMode; dsimp only; split <;> simp
@[simp] theorem settleMode_brams (c : Nat) (s : State) : (settleMode c s).brams = s.brams := by unfold settleMode; dsimp only; split <;> simp
@[simp] theorem settleMode_ingot (c : Nat) (s : State) : (settleMode c s).ingot = s.ingot := by unfold settleMode; dsimp only; split <;> simp
@[simp] theorem settleMode_dsp (c : Nat) (s : State) : (settleMode c s).dsp = s.dsp := by unfold settleMode; dsimp only; split <;> simp
@[simp] theorem settleMode_domains (c : Nat) (s : State) : (settleMode c s).domains = s.domains := by unfold settleMode; dsimp only; split <;> simp
@[simp] theorem settleMode_lanes (c : Nat) (s : State) : (settleMode c s).lanes = s.lanes := by unfold settleMode; dsimp only; split <;> simp
@[simp] theorem settleMode_links (c : Nat) (s : State) : (settleMode c s).links = s.links := by unfold settleMode; dsimp only; split <;> simp
@[simp] theorem settleMode_sys (c : Nat) (s : State) : (settleMode c s).sys = s.sys := by unfold settleMode; dsimp only; split <;> simp
@[simp] theorem settleMode_riser (c : Nat) (s : State) : (settleMode c s).riser = s.riser := by unfold settleMode; dsimp only; split <;> simp
@[simp] theorem settleMode_hbm (c : Nat) (s : State) : (settleMode c s).hbm = s.hbm := by unfold settleMode; dsimp only; split <;> simp
@[simp] theorem settleMode_integ (c : Nat) (s : State) : (settleMode c s).integ = s.integ := by unfold settleMode; dsimp only; split <;> simp
@[simp] theorem settleMode_clk (c : Nat) (s : State) : (settleMode c s).clk = s.clk := by unfold settleMode; dsimp only; split <;> simp
@[simp] theorem settleMode_therm (c : Nat) (s : State) : (settleMode c s).therm = s.therm := by unfold settleMode; dsimp only; split <;> simp
@[simp] theorem settleMode_bonds (c : Nat) (s : State) : (settleMode c s).bonds = s.bonds := by unfold settleMode; dsimp only; split <;> simp
@[simp] theorem settleMode_pending (c : Nat) (s : State) : (settleMode c s).pending = s.pending := by unfold settleMode; dsimp only; split <;> simp

/-! ### Requests -/

@[simp] theorem modSlot_env (p : Port) (sl : Fin 4) (f : Slot → Slot) (s : State) : (modSlot p sl f s).env = s.env := by rfl
@[simp] theorem modSlot_dev (p : Port) (sl : Fin 4) (f : Slot → Slot) (s : State) : (modSlot p sl f s).dev = s.dev := by rfl
@[simp] theorem modSlot_tick (p : Port) (sl : Fin 4) (f : Slot → Slot) (s : State) : (modSlot p sl f s).tick = s.tick := by rfl
@[simp] theorem modSlot_regions (p : Port) (sl : Fin 4) (f : Slot → Slot) (s : State) : (modSlot p sl f s).regions = s.regions := by rfl
@[simp] theorem modSlot_runner (p : Port) (sl : Fin 4) (f : Slot → Slot) (s : State) : (modSlot p sl f s).runner = s.runner := by rfl
@[simp] theorem modSlot_lib (p : Port) (sl : Fin 4) (f : Slot → Slot) (s : State) : (modSlot p sl f s).lib = s.lib := by rfl
@[simp] theorem modSlot_brams (p : Port) (sl : Fin 4) (f : Slot → Slot) (s : State) : (modSlot p sl f s).brams = s.brams := by rfl
@[simp] theorem modSlot_ingot (p : Port) (sl : Fin 4) (f : Slot → Slot) (s : State) : (modSlot p sl f s).ingot = s.ingot := by rfl
@[simp] theorem modSlot_dsp (p : Port) (sl : Fin 4) (f : Slot → Slot) (s : State) : (modSlot p sl f s).dsp = s.dsp := by rfl
@[simp] theorem modSlot_domains (p : Port) (sl : Fin 4) (f : Slot → Slot) (s : State) : (modSlot p sl f s).domains = s.domains := by rfl
@[simp] theorem modSlot_lanes (p : Port) (sl : Fin 4) (f : Slot → Slot) (s : State) : (modSlot p sl f s).lanes = s.lanes := by rfl
@[simp] theorem modSlot_links (p : Port) (sl : Fin 4) (f : Slot → Slot) (s : State) : (modSlot p sl f s).links = s.links := by rfl
@[simp] theorem modSlot_sys (p : Port) (sl : Fin 4) (f : Slot → Slot) (s : State) : (modSlot p sl f s).sys = s.sys := by rfl
@[simp] theorem modSlot_riser (p : Port) (sl : Fin 4) (f : Slot → Slot) (s : State) : (modSlot p sl f s).riser = s.riser := by rfl
@[simp] theorem modSlot_hbm (p : Port) (sl : Fin 4) (f : Slot → Slot) (s : State) : (modSlot p sl f s).hbm = s.hbm := by rfl
@[simp] theorem modSlot_integ (p : Port) (sl : Fin 4) (f : Slot → Slot) (s : State) : (modSlot p sl f s).integ = s.integ := by rfl
@[simp] theorem modSlot_clk (p : Port) (sl : Fin 4) (f : Slot → Slot) (s : State) : (modSlot p sl f s).clk = s.clk := by rfl
@[simp] theorem modSlot_therm (p : Port) (sl : Fin 4) (f : Slot → Slot) (s : State) : (modSlot p sl f s).therm = s.therm := by rfl
@[simp] theorem modSlot_bonds (p : Port) (sl : Fin 4) (f : Slot → Slot) (s : State) : (modSlot p sl f s).bonds = s.bonds := by rfl
@[simp] theorem modSlot_io (p : Port) (sl : Fin 4) (f : Slot → Slot) (s : State) : (modSlot p sl f s).io = s.io := by rfl
@[simp] theorem modSlot_pending (p : Port) (sl : Fin 4) (f : Slot → Slot) (s : State) : (modSlot p sl f s).pending = s.pending := by rfl

@[simp] theorem modPort_env (p : Port) (f : PortSt → PortSt) (s : State) : (modPort p f s).env = s.env := by rfl
@[simp] theorem modPort_dev (p : Port) (f : PortSt → PortSt) (s : State) : (modPort p f s).dev = s.dev := by rfl
@[simp] theorem modPort_tick (p : Port) (f : PortSt → PortSt) (s : State) : (modPort p f s).tick = s.tick := by rfl
@[simp] theorem modPort_regions (p : Port) (f : PortSt → PortSt) (s : State) : (modPort p f s).regions = s.regions := by rfl
@[simp] theorem modPort_runner (p : Port) (f : PortSt → PortSt) (s : State) : (modPort p f s).runner = s.runner := by rfl
@[simp] theorem modPort_lib (p : Port) (f : PortSt → PortSt) (s : State) : (modPort p f s).lib = s.lib := by rfl
@[simp] theorem modPort_brams (p : Port) (f : PortSt → PortSt) (s : State) : (modPort p f s).brams = s.brams := by rfl
@[simp] theorem modPort_ingot (p : Port) (f : PortSt → PortSt) (s : State) : (modPort p f s).ingot = s.ingot := by rfl
@[simp] theorem modPort_dsp (p : Port) (f : PortSt → PortSt) (s : State) : (modPort p f s).dsp = s.dsp := by rfl
@[simp] theorem modPort_domains (p : Port) (f : PortSt → PortSt) (s : State) : (modPort p f s).domains = s.domains := by rfl
@[simp] theorem modPort_lanes (p : Port) (f : PortSt → PortSt) (s : State) : (modPort p f s).lanes = s.lanes := by rfl
@[simp] theorem modPort_links (p : Port) (f : PortSt → PortSt) (s : State) : (modPort p f s).links = s.links := by rfl
@[simp] theorem modPort_sys (p : Port) (f : PortSt → PortSt) (s : State) : (modPort p f s).sys = s.sys := by rfl
@[simp] theorem modPort_riser (p : Port) (f : PortSt → PortSt) (s : State) : (modPort p f s).riser = s.riser := by rfl
@[simp] theorem modPort_hbm (p : Port) (f : PortSt → PortSt) (s : State) : (modPort p f s).hbm = s.hbm := by rfl
@[simp] theorem modPort_integ (p : Port) (f : PortSt → PortSt) (s : State) : (modPort p f s).integ = s.integ := by rfl
@[simp] theorem modPort_clk (p : Port) (f : PortSt → PortSt) (s : State) : (modPort p f s).clk = s.clk := by rfl
@[simp] theorem modPort_therm (p : Port) (f : PortSt → PortSt) (s : State) : (modPort p f s).therm = s.therm := by rfl
@[simp] theorem modPort_bonds (p : Port) (f : PortSt → PortSt) (s : State) : (modPort p f s).bonds = s.bonds := by rfl
@[simp] theorem modPort_io (p : Port) (f : PortSt → PortSt) (s : State) : (modPort p f s).io = s.io := by rfl
@[simp] theorem modPort_pending (p : Port) (f : PortSt → PortSt) (s : State) : (modPort p f s).pending = s.pending := by rfl

@[simp] theorem postResponse_env (p : Port) (sl : Fin 4) (st tick : Nat) (res : Results) (s : State) : (postResponse p sl st tick res s).env = s.env := by simp [postResponse]
@[simp] theorem postResponse_dev (p : Port) (sl : Fin 4) (st tick : Nat) (res : Results) (s : State) : (postResponse p sl st tick res s).dev = s.dev := by simp [postResponse]
@[simp] theorem postResponse_tick (p : Port) (sl : Fin 4) (st tick : Nat) (res : Results) (s : State) : (postResponse p sl st tick res s).tick = s.tick := by simp [postResponse]
@[simp] theorem postResponse_regions (p : Port) (sl : Fin 4) (st tick : Nat) (res : Results) (s : State) : (postResponse p sl st tick res s).regions = s.regions := by simp [postResponse]
@[simp] theorem postResponse_runner (p : Port) (sl : Fin 4) (st tick : Nat) (res : Results) (s : State) : (postResponse p sl st tick res s).runner = s.runner := by simp [postResponse]
@[simp] theorem postResponse_lib (p : Port) (sl : Fin 4) (st tick : Nat) (res : Results) (s : State) : (postResponse p sl st tick res s).lib = s.lib := by simp [postResponse]
@[simp] theorem postResponse_brams (p : Port) (sl : Fin 4) (st tick : Nat) (res : Results) (s : State) : (postResponse p sl st tick res s).brams = s.brams := by simp [postResponse]
@[simp] theorem postResponse_ingot (p : Port) (sl : Fin 4) (st tick : Nat) (res : Results) (s : State) : (postResponse p sl st tick res s).ingot = s.ingot := by simp [postResponse]
@[simp] theorem postResponse_dsp (p : Port) (sl : Fin 4) (st tick : Nat) (res : Results) (s : State) : (postResponse p sl st tick res s).dsp = s.dsp := by simp [postResponse]
@[simp] theorem postResponse_domains (p : Port) (sl : Fin 4) (st tick : Nat) (res : Results) (s : State) : (postResponse p sl st tick res s).domains = s.domains := by simp [postResponse]
@[simp] theorem postResponse_lanes (p : Port) (sl : Fin 4) (st tick : Nat) (res : Results) (s : State) : (postResponse p sl st tick res s).lanes = s.lanes := by simp [postResponse]
@[simp] theorem postResponse_links (p : Port) (sl : Fin 4) (st tick : Nat) (res : Results) (s : State) : (postResponse p sl st tick res s).links = s.links := by simp [postResponse]
@[simp] theorem postResponse_sys (p : Port) (sl : Fin 4) (st tick : Nat) (res : Results) (s : State) : (postResponse p sl st tick res s).sys = s.sys := by simp [postResponse]
@[simp] theorem postResponse_riser (p : Port) (sl : Fin 4) (st tick : Nat) (res : Results) (s : State) : (postResponse p sl st tick res s).riser = s.riser := by simp [postResponse]
@[simp] theorem postResponse_hbm (p : Port) (sl : Fin 4) (st tick : Nat) (res : Results) (s : State) : (postResponse p sl st tick res s).hbm = s.hbm := by simp [postResponse]
@[simp] theorem postResponse_integ (p : Port) (sl : Fin 4) (st tick : Nat) (res : Results) (s : State) : (postResponse p sl st tick res s).integ = s.integ := by simp [postResponse]
@[simp] theorem postResponse_clk (p : Port) (sl : Fin 4) (st tick : Nat) (res : Results) (s : State) : (postResponse p sl st tick res s).clk = s.clk := by simp [postResponse]
@[simp] theorem postResponse_therm (p : Port) (sl : Fin 4) (st tick : Nat) (res : Results) (s : State) : (postResponse p sl st tick res s).therm = s.therm := by simp [postResponse]
@[simp] theorem postResponse_bonds (p : Port) (sl : Fin 4) (st tick : Nat) (res : Results) (s : State) : (postResponse p sl st tick res s).bonds = s.bonds := by simp [postResponse]
@[simp] theorem postResponse_pending (p : Port) (sl : Fin 4) (st tick : Nat) (res : Results) (s : State) : (postResponse p sl st tick res s).pending = s.pending := by simp [postResponse]

@[simp] theorem replyAt_env (w : Waiter) (st tick : Nat) (res : Results) (s : State) : (replyAt w st tick res s).env = s.env := by unfold replyAt; dsimp only; split <;> simp
@[simp] theorem replyAt_dev (w : Waiter) (st tick : Nat) (res : Results) (s : State) : (replyAt w st tick res s).dev = s.dev := by unfold replyAt; dsimp only; split <;> simp
@[simp] theorem replyAt_tick (w : Waiter) (st tick : Nat) (res : Results) (s : State) : (replyAt w st tick res s).tick = s.tick := by unfold replyAt; dsimp only; split <;> simp
@[simp] theorem replyAt_regions (w : Waiter) (st tick : Nat) (res : Results) (s : State) : (replyAt w st tick res s).regions = s.regions := by unfold replyAt; dsimp only; split <;> simp
@[simp] theorem replyAt_runner (w : Waiter) (st tick : Nat) (res : Results) (s : State) : (replyAt w st tick res s).runner = s.runner := by unfold replyAt; dsimp only; split <;> simp
@[simp] theorem replyAt_lib (w : Waiter) (st tick : Nat) (res : Results) (s : State) : (replyAt w st tick res s).lib = s.lib := by unfold replyAt; dsimp only; split <;> simp
@[simp] theorem replyAt_brams (w : Waiter) (st tick : Nat) (res : Results) (s : State) : (replyAt w st tick res s).brams = s.brams := by unfold replyAt; dsimp only; split <;> simp
@[simp] theorem replyAt_ingot (w : Waiter) (st tick : Nat) (res : Results) (s : State) : (replyAt w st tick res s).ingot = s.ingot := by unfold replyAt; dsimp only; split <;> simp
@[simp] theorem replyAt_dsp (w : Waiter) (st tick : Nat) (res : Results) (s : State) : (replyAt w st tick res s).dsp = s.dsp := by unfold replyAt; dsimp only; split <;> simp
@[simp] theorem replyAt_domains (w : Waiter) (st tick : Nat) (res : Results) (s : State) : (replyAt w st tick res s).domains = s.domains := by unfold replyAt; dsimp only; split <;> simp
@[simp] theorem replyAt_lanes (w : Waiter) (st tick : Nat) (res : Results) (s : State) : (replyAt w st tick res s).lanes = s.lanes := by unfold replyAt; dsimp only; split <;> simp
@[simp] theorem replyAt_links (w : Waiter) (st tick : Nat) (res : Results) (s : State) : (replyAt w st tick res s).links = s.links := by unfold replyAt; dsimp only; split <;> simp
@[simp] theorem replyAt_sys (w : Waiter) (st tick : Nat) (res : Results) (s : State) : (replyAt w st tick res s).sys = s.sys := by unfold replyAt; dsimp only; split <;> simp
@[simp] theorem replyAt_riser (w : Waiter) (st tick : Nat) (res : Results) (s : State) : (replyAt w st tick res s).riser = s.riser := by unfold replyAt; dsimp only; split <;> simp
@[simp] theorem replyAt_hbm (w : Waiter) (st tick : Nat) (res : Results) (s : State) : (replyAt w st tick res s).hbm = s.hbm := by unfold replyAt; dsimp only; split <;> simp
@[simp] theorem replyAt_integ (w : Waiter) (st tick : Nat) (res : Results) (s : State) : (replyAt w st tick res s).integ = s.integ := by unfold replyAt; dsimp only; split <;> simp
@[simp] theorem replyAt_clk (w : Waiter) (st tick : Nat) (res : Results) (s : State) : (replyAt w st tick res s).clk = s.clk := by unfold replyAt; dsimp only; split <;> simp
@[simp] theorem replyAt_therm (w : Waiter) (st tick : Nat) (res : Results) (s : State) : (replyAt w st tick res s).therm = s.therm := by unfold replyAt; dsimp only; split <;> simp
@[simp] theorem replyAt_bonds (w : Waiter) (st tick : Nat) (res : Results) (s : State) : (replyAt w st tick res s).bonds = s.bonds := by unfold replyAt; dsimp only; split <;> simp
@[simp] theorem replyAt_pending (w : Waiter) (st tick : Nat) (res : Results) (s : State) : (replyAt w st tick res s).pending = s.pending := by unfold replyAt; dsimp only; split <;> simp

@[simp] theorem reply_env (w : Waiter) (st : Nat) (res : Results) (s : State) : (reply w st res s).env = s.env := by simp [reply]
@[simp] theorem reply_dev (w : Waiter) (st : Nat) (res : Results) (s : State) : (reply w st res s).dev = s.dev := by simp [reply]
@[simp] theorem reply_tick (w : Waiter) (st : Nat) (res : Results) (s : State) : (reply w st res s).tick = s.tick := by simp [reply]
@[simp] theorem reply_regions (w : Waiter) (st : Nat) (res : Results) (s : State) : (reply w st res s).regions = s.regions := by simp [reply]
@[simp] theorem reply_runner (w : Waiter) (st : Nat) (res : Results) (s : State) : (reply w st res s).runner = s.runner := by simp [reply]
@[simp] theorem reply_lib (w : Waiter) (st : Nat) (res : Results) (s : State) : (reply w st res s).lib = s.lib := by simp [reply]
@[simp] theorem reply_brams (w : Waiter) (st : Nat) (res : Results) (s : State) : (reply w st res s).brams = s.brams := by simp [reply]
@[simp] theorem reply_ingot (w : Waiter) (st : Nat) (res : Results) (s : State) : (reply w st res s).ingot = s.ingot := by simp [reply]
@[simp] theorem reply_dsp (w : Waiter) (st : Nat) (res : Results) (s : State) : (reply w st res s).dsp = s.dsp := by simp [reply]
@[simp] theorem reply_domains (w : Waiter) (st : Nat) (res : Results) (s : State) : (reply w st res s).domains = s.domains := by simp [reply]
@[simp] theorem reply_lanes (w : Waiter) (st : Nat) (res : Results) (s : State) : (reply w st res s).lanes = s.lanes := by simp [reply]
@[simp] theorem reply_links (w : Waiter) (st : Nat) (res : Results) (s : State) : (reply w st res s).links = s.links := by simp [reply]
@[simp] theorem reply_sys (w : Waiter) (st : Nat) (res : Results) (s : State) : (reply w st res s).sys = s.sys := by simp [reply]
@[simp] theorem reply_riser (w : Waiter) (st : Nat) (res : Results) (s : State) : (reply w st res s).riser = s.riser := by simp [reply]
@[simp] theorem reply_hbm (w : Waiter) (st : Nat) (res : Results) (s : State) : (reply w st res s).hbm = s.hbm := by simp [reply]
@[simp] theorem reply_integ (w : Waiter) (st : Nat) (res : Results) (s : State) : (reply w st res s).integ = s.integ := by simp [reply]
@[simp] theorem reply_clk (w : Waiter) (st : Nat) (res : Results) (s : State) : (reply w st res s).clk = s.clk := by simp [reply]
@[simp] theorem reply_therm (w : Waiter) (st : Nat) (res : Results) (s : State) : (reply w st res s).therm = s.therm := by simp [reply]
@[simp] theorem reply_bonds (w : Waiter) (st : Nat) (res : Results) (s : State) : (reply w st res s).bonds = s.bonds := by simp [reply]
@[simp] theorem reply_pending (w : Waiter) (st : Nat) (res : Results) (s : State) : (reply w st res s).pending = s.pending := by simp [reply]

@[simp] theorem replyOpt_env (w : Option Waiter) (st : Nat) (res : Results) (s : State) : (replyOpt w st res s).env = s.env := by unfold replyOpt; split <;> simp
@[simp] theorem replyOpt_dev (w : Option Waiter) (st : Nat) (res : Results) (s : State) : (replyOpt w st res s).dev = s.dev := by unfold replyOpt; split <;> simp
@[simp] theorem replyOpt_tick (w : Option Waiter) (st : Nat) (res : Results) (s : State) : (replyOpt w st res s).tick = s.tick := by unfold replyOpt; split <;> simp
@[simp] theorem replyOpt_regions (w : Option Waiter) (st : Nat) (res : Results) (s : State) : (replyOpt w st res s).regions = s.regions := by unfold replyOpt; split <;> simp
@[simp] theorem replyOpt_runner (w : Option Waiter) (st : Nat) (res : Results) (s : State) : (replyOpt w st res s).runner = s.runner := by unfold replyOpt; split <;> simp
@[simp] theorem replyOpt_lib (w : Option Waiter) (st : Nat) (res : Results) (s : State) : (replyOpt w st res s).lib = s.lib := by unfold replyOpt; split <;> simp
@[simp] theorem replyOpt_brams (w : Option Waiter) (st : Nat) (res : Results) (s : State) : (replyOpt w st res s).brams = s.brams := by unfold replyOpt; split <;> simp
@[simp] theorem replyOpt_ingot (w : Option Waiter) (st : Nat) (res : Results) (s : State) : (replyOpt w st res s).ingot = s.ingot := by unfold replyOpt; split <;> simp
@[simp] theorem replyOpt_dsp (w : Option Waiter) (st : Nat) (res : Results) (s : State) : (replyOpt w st res s).dsp = s.dsp := by unfold replyOpt; split <;> simp
@[simp] theorem replyOpt_domains (w : Option Waiter) (st : Nat) (res : Results) (s : State) : (replyOpt w st res s).domains = s.domains := by unfold replyOpt; split <;> simp
@[simp] theorem replyOpt_lanes (w : Option Waiter) (st : Nat) (res : Results) (s : State) : (replyOpt w st res s).lanes = s.lanes := by unfold replyOpt; split <;> simp
@[simp] theorem replyOpt_links (w : Option Waiter) (st : Nat) (res : Results) (s : State) : (replyOpt w st res s).links = s.links := by unfold replyOpt; split <;> simp
@[simp] theorem replyOpt_sys (w : Option Waiter) (st : Nat) (res : Results) (s : State) : (replyOpt w st res s).sys = s.sys := by unfold replyOpt; split <;> simp
@[simp] theorem replyOpt_riser (w : Option Waiter) (st : Nat) (res : Results) (s : State) : (replyOpt w st res s).riser = s.riser := by unfold replyOpt; split <;> simp
@[simp] theorem replyOpt_hbm (w : Option Waiter) (st : Nat) (res : Results) (s : State) : (replyOpt w st res s).hbm = s.hbm := by unfold replyOpt; split <;> simp
@[simp] theorem replyOpt_integ (w : Option Waiter) (st : Nat) (res : Results) (s : State) : (replyOpt w st res s).integ = s.integ := by unfold replyOpt; split <;> simp
@[simp] theorem replyOpt_clk (w : Option Waiter) (st : Nat) (res : Results) (s : State) : (replyOpt w st res s).clk = s.clk := by unfold replyOpt; split <;> simp
@[simp] theorem replyOpt_therm (w : Option Waiter) (st : Nat) (res : Results) (s : State) : (replyOpt w st res s).therm = s.therm := by unfold replyOpt; split <;> simp
@[simp] theorem replyOpt_bonds (w : Option Waiter) (st : Nat) (res : Results) (s : State) : (replyOpt w st res s).bonds = s.bonds := by unfold replyOpt; split <;> simp
@[simp] theorem replyOpt_pending (w : Option Waiter) (st : Nat) (res : Results) (s : State) : (replyOpt w st res s).pending = s.pending := by unfold replyOpt; split <;> simp

@[simp] theorem answer_env (w : Waiter) (a : Answer) (s : State) : (answer w a s).env = s.env := by unfold answer; split <;> simp
@[simp] theorem answer_dev (w : Waiter) (a : Answer) (s : State) : (answer w a s).dev = s.dev := by unfold answer; split <;> simp
@[simp] theorem answer_tick (w : Waiter) (a : Answer) (s : State) : (answer w a s).tick = s.tick := by unfold answer; split <;> simp
@[simp] theorem answer_regions (w : Waiter) (a : Answer) (s : State) : (answer w a s).regions = s.regions := by unfold answer; split <;> simp
@[simp] theorem answer_runner (w : Waiter) (a : Answer) (s : State) : (answer w a s).runner = s.runner := by unfold answer; split <;> simp
@[simp] theorem answer_lib (w : Waiter) (a : Answer) (s : State) : (answer w a s).lib = s.lib := by unfold answer; split <;> simp
@[simp] theorem answer_brams (w : Waiter) (a : Answer) (s : State) : (answer w a s).brams = s.brams := by unfold answer; split <;> simp
@[simp] theorem answer_ingot (w : Waiter) (a : Answer) (s : State) : (answer w a s).ingot = s.ingot := by unfold answer; split <;> simp
@[simp] theorem answer_dsp (w : Waiter) (a : Answer) (s : State) : (answer w a s).dsp = s.dsp := by unfold answer; split <;> simp
@[simp] theorem answer_domains (w : Waiter) (a : Answer) (s : State) : (answer w a s).domains = s.domains := by unfold answer; split <;> simp
@[simp] theorem answer_lanes (w : Waiter) (a : Answer) (s : State) : (answer w a s).lanes = s.lanes := by unfold answer; split <;> simp
@[simp] theorem answer_links (w : Waiter) (a : Answer) (s : State) : (answer w a s).links = s.links := by unfold answer; split <;> simp
@[simp] theorem answer_sys (w : Waiter) (a : Answer) (s : State) : (answer w a s).sys = s.sys := by unfold answer; split <;> simp
@[simp] theorem answer_riser (w : Waiter) (a : Answer) (s : State) : (answer w a s).riser = s.riser := by unfold answer; split <;> simp
@[simp] theorem answer_hbm (w : Waiter) (a : Answer) (s : State) : (answer w a s).hbm = s.hbm := by unfold answer; split <;> simp
@[simp] theorem answer_integ (w : Waiter) (a : Answer) (s : State) : (answer w a s).integ = s.integ := by unfold answer; split <;> simp
@[simp] theorem answer_clk (w : Waiter) (a : Answer) (s : State) : (answer w a s).clk = s.clk := by unfold answer; split <;> simp
@[simp] theorem answer_therm (w : Waiter) (a : Answer) (s : State) : (answer w a s).therm = s.therm := by unfold answer; split <;> simp
@[simp] theorem answer_bonds (w : Waiter) (a : Answer) (s : State) : (answer w a s).bonds = s.bonds := by unfold answer; split <;> simp
@[simp] theorem answer_pending (w : Waiter) (a : Answer) (s : State) : (answer w a s).pending = s.pending := by unfold answer; split <;> simp

@[simp] theorem acceptSlot_env (p : Port) (sl : Fin 4) (s : State) : (acceptSlot p sl s).env = s.env := by rfl
@[simp] theorem acceptSlot_dev (p : Port) (sl : Fin 4) (s : State) : (acceptSlot p sl s).dev = s.dev := by rfl
@[simp] theorem acceptSlot_tick (p : Port) (sl : Fin 4) (s : State) : (acceptSlot p sl s).tick = s.tick := by rfl
@[simp] theorem acceptSlot_regions (p : Port) (sl : Fin 4) (s : State) : (acceptSlot p sl s).regions = s.regions := by rfl
@[simp] theorem acceptSlot_runner (p : Port) (sl : Fin 4) (s : State) : (acceptSlot p sl s).runner = s.runner := by rfl
@[simp] theorem acceptSlot_lib (p : Port) (sl : Fin 4) (s : State) : (acceptSlot p sl s).lib = s.lib := by rfl
@[simp] theorem acceptSlot_brams (p : Port) (sl : Fin 4) (s : State) : (acceptSlot p sl s).brams = s.brams := by rfl
@[simp] theorem acceptSlot_ingot (p : Port) (sl : Fin 4) (s : State) : (acceptSlot p sl s).ingot = s.ingot := by rfl
@[simp] theorem acceptSlot_dsp (p : Port) (sl : Fin 4) (s : State) : (acceptSlot p sl s).dsp = s.dsp := by rfl
@[simp] theorem acceptSlot_domains (p : Port) (sl : Fin 4) (s : State) : (acceptSlot p sl s).domains = s.domains := by rfl
@[simp] theorem acceptSlot_lanes (p : Port) (sl : Fin 4) (s : State) : (acceptSlot p sl s).lanes = s.lanes := by rfl
@[simp] theorem acceptSlot_links (p : Port) (sl : Fin 4) (s : State) : (acceptSlot p sl s).links = s.links := by rfl
@[simp] theorem acceptSlot_sys (p : Port) (sl : Fin 4) (s : State) : (acceptSlot p sl s).sys = s.sys := by rfl
@[simp] theorem acceptSlot_riser (p : Port) (sl : Fin 4) (s : State) : (acceptSlot p sl s).riser = s.riser := by rfl
@[simp] theorem acceptSlot_hbm (p : Port) (sl : Fin 4) (s : State) : (acceptSlot p sl s).hbm = s.hbm := by rfl
@[simp] theorem acceptSlot_integ (p : Port) (sl : Fin 4) (s : State) : (acceptSlot p sl s).integ = s.integ := by rfl
@[simp] theorem acceptSlot_clk (p : Port) (sl : Fin 4) (s : State) : (acceptSlot p sl s).clk = s.clk := by rfl
@[simp] theorem acceptSlot_therm (p : Port) (sl : Fin 4) (s : State) : (acceptSlot p sl s).therm = s.therm := by rfl
@[simp] theorem acceptSlot_bonds (p : Port) (sl : Fin 4) (s : State) : (acceptSlot p sl s).bonds = s.bonds := by rfl
@[simp] theorem acceptSlot_io (p : Port) (sl : Fin 4) (s : State) : (acceptSlot p sl s).io = s.io := by rfl
@[simp] theorem acceptSlot_pending (p : Port) (sl : Fin 4) (s : State) : (acceptSlot p sl s).pending = s.pending := by rfl

@[simp] theorem abortSlots_env (ps : List Port) (sts : List SlotSt) (s : State) : (abortSlots ps sts s).env = s.env := by exact forEach_env _ _ _ (fun p t => forBelow_env _ _ _ (fun i u => by dsimp only; split <;> simp))
@[simp] theorem abortSlots_dev (ps : List Port) (sts : List SlotSt) (s : State) : (abortSlots ps sts s).dev = s.dev := by exact forEach_dev _ _ _ (fun p t => forBelow_dev _ _ _ (fun i u => by dsimp only; split <;> simp))
@[simp] theorem abortSlots_tick (ps : List Port) (sts : List SlotSt) (s : State) : (abortSlots ps sts s).tick = s.tick := by exact forEach_tick _ _ _ (fun p t => forBelow_tick _ _ _ (fun i u => by dsimp only; split <;> simp))
@[simp] theorem abortSlots_regions (ps : List Port) (sts : List SlotSt) (s : State) : (abortSlots ps sts s).regions = s.regions := by exact forEach_regions _ _ _ (fun p t => forBelow_regions _ _ _ (fun i u => by dsimp only; split <;> simp))
@[simp] theorem abortSlots_runner (ps : List Port) (sts : List SlotSt) (s : State) : (abortSlots ps sts s).runner = s.runner := by exact forEach_runner _ _ _ (fun p t => forBelow_runner _ _ _ (fun i u => by dsimp only; split <;> simp))
@[simp] theorem abortSlots_lib (ps : List Port) (sts : List SlotSt) (s : State) : (abortSlots ps sts s).lib = s.lib := by exact forEach_lib _ _ _ (fun p t => forBelow_lib _ _ _ (fun i u => by dsimp only; split <;> simp))
@[simp] theorem abortSlots_brams (ps : List Port) (sts : List SlotSt) (s : State) : (abortSlots ps sts s).brams = s.brams := by exact forEach_brams _ _ _ (fun p t => forBelow_brams _ _ _ (fun i u => by dsimp only; split <;> simp))
@[simp] theorem abortSlots_ingot (ps : List Port) (sts : List SlotSt) (s : State) : (abortSlots ps sts s).ingot = s.ingot := by exact forEach_ingot _ _ _ (fun p t => forBelow_ingot _ _ _ (fun i u => by dsimp only; split <;> simp))
@[simp] theorem abortSlots_dsp (ps : List Port) (sts : List SlotSt) (s : State) : (abortSlots ps sts s).dsp = s.dsp := by exact forEach_dsp _ _ _ (fun p t => forBelow_dsp _ _ _ (fun i u => by dsimp only; split <;> simp))
@[simp] theorem abortSlots_domains (ps : List Port) (sts : List SlotSt) (s : State) : (abortSlots ps sts s).domains = s.domains := by exact forEach_domains _ _ _ (fun p t => forBelow_domains _ _ _ (fun i u => by dsimp only; split <;> simp))
@[simp] theorem abortSlots_lanes (ps : List Port) (sts : List SlotSt) (s : State) : (abortSlots ps sts s).lanes = s.lanes := by exact forEach_lanes _ _ _ (fun p t => forBelow_lanes _ _ _ (fun i u => by dsimp only; split <;> simp))
@[simp] theorem abortSlots_links (ps : List Port) (sts : List SlotSt) (s : State) : (abortSlots ps sts s).links = s.links := by exact forEach_links _ _ _ (fun p t => forBelow_links _ _ _ (fun i u => by dsimp only; split <;> simp))
@[simp] theorem abortSlots_sys (ps : List Port) (sts : List SlotSt) (s : State) : (abortSlots ps sts s).sys = s.sys := by exact forEach_sys _ _ _ (fun p t => forBelow_sys _ _ _ (fun i u => by dsimp only; split <;> simp))
@[simp] theorem abortSlots_riser (ps : List Port) (sts : List SlotSt) (s : State) : (abortSlots ps sts s).riser = s.riser := by exact forEach_riser _ _ _ (fun p t => forBelow_riser _ _ _ (fun i u => by dsimp only; split <;> simp))
@[simp] theorem abortSlots_hbm (ps : List Port) (sts : List SlotSt) (s : State) : (abortSlots ps sts s).hbm = s.hbm := by exact forEach_hbm _ _ _ (fun p t => forBelow_hbm _ _ _ (fun i u => by dsimp only; split <;> simp))
@[simp] theorem abortSlots_integ (ps : List Port) (sts : List SlotSt) (s : State) : (abortSlots ps sts s).integ = s.integ := by exact forEach_integ _ _ _ (fun p t => forBelow_integ _ _ _ (fun i u => by dsimp only; split <;> simp))
@[simp] theorem abortSlots_clk (ps : List Port) (sts : List SlotSt) (s : State) : (abortSlots ps sts s).clk = s.clk := by exact forEach_clk _ _ _ (fun p t => forBelow_clk _ _ _ (fun i u => by dsimp only; split <;> simp))
@[simp] theorem abortSlots_therm (ps : List Port) (sts : List SlotSt) (s : State) : (abortSlots ps sts s).therm = s.therm := by exact forEach_therm _ _ _ (fun p t => forBelow_therm _ _ _ (fun i u => by dsimp only; split <;> simp))
@[simp] theorem abortSlots_bonds (ps : List Port) (sts : List SlotSt) (s : State) : (abortSlots ps sts s).bonds = s.bonds := by exact forEach_bonds _ _ _ (fun p t => forBelow_bonds _ _ _ (fun i u => by dsimp only; split <;> simp))
@[simp] theorem abortSlots_pending (ps : List Port) (sts : List SlotSt) (s : State) : (abortSlots ps sts s).pending = s.pending := by exact forEach_pending _ _ _ (fun p t => forBelow_pending _ _ _ (fun i u => by dsimp only; split <;> simp))

@[simp] theorem setOwner_env (k : Nat) (w : Owner) (s : State) : (setOwner k w s).env = s.env := by rfl
@[simp] theorem setOwner_dev (k : Nat) (w : Owner) (s : State) : (setOwner k w s).dev = s.dev := by rfl
@[simp] theorem setOwner_tick (k : Nat) (w : Owner) (s : State) : (setOwner k w s).tick = s.tick := by rfl
@[simp] theorem setOwner_regions (k : Nat) (w : Owner) (s : State) : (setOwner k w s).regions = s.regions := by rfl
@[simp] theorem setOwner_runner (k : Nat) (w : Owner) (s : State) : (setOwner k w s).runner = s.runner := by rfl
@[simp] theorem setOwner_lib (k : Nat) (w : Owner) (s : State) : (setOwner k w s).lib = s.lib := by rfl
@[simp] theorem setOwner_brams (k : Nat) (w : Owner) (s : State) : (setOwner k w s).brams = s.brams := by rfl
@[simp] theorem setOwner_ingot (k : Nat) (w : Owner) (s : State) : (setOwner k w s).ingot = s.ingot := by rfl
@[simp] theorem setOwner_dsp (k : Nat) (w : Owner) (s : State) : (setOwner k w s).dsp = s.dsp := by rfl
@[simp] theorem setOwner_domains (k : Nat) (w : Owner) (s : State) : (setOwner k w s).domains = s.domains := by rfl
@[simp] theorem setOwner_lanes (k : Nat) (w : Owner) (s : State) : (setOwner k w s).lanes = s.lanes := by rfl
@[simp] theorem setOwner_links (k : Nat) (w : Owner) (s : State) : (setOwner k w s).links = s.links := by rfl
@[simp] theorem setOwner_sys (k : Nat) (w : Owner) (s : State) : (setOwner k w s).sys = s.sys := by rfl
@[simp] theorem setOwner_riser (k : Nat) (w : Owner) (s : State) : (setOwner k w s).riser = s.riser := by rfl
@[simp] theorem setOwner_hbm (k : Nat) (w : Owner) (s : State) : (setOwner k w s).hbm = s.hbm := by rfl
@[simp] theorem setOwner_integ (k : Nat) (w : Owner) (s : State) : (setOwner k w s).integ = s.integ := by rfl
@[simp] theorem setOwner_clk (k : Nat) (w : Owner) (s : State) : (setOwner k w s).clk = s.clk := by rfl
@[simp] theorem setOwner_therm (k : Nat) (w : Owner) (s : State) : (setOwner k w s).therm = s.therm := by rfl
@[simp] theorem setOwner_bonds (k : Nat) (w : Owner) (s : State) : (setOwner k w s).bonds = s.bonds := by rfl
@[simp] theorem setOwner_io (k : Nat) (w : Owner) (s : State) : (setOwner k w s).io = s.io := by rfl
@[simp] theorem setOwner_pending (k : Nat) (w : Owner) (s : State) : (setOwner k w s).pending = s.pending := by rfl

@[simp] theorem claimImplicit_env (q : Req) (k : Nat) (s : State) : (claimImplicit q k s).env = s.env := by unfold claimImplicit; split <;> simp
@[simp] theorem claimImplicit_dev (q : Req) (k : Nat) (s : State) : (claimImplicit q k s).dev = s.dev := by unfold claimImplicit; split <;> simp
@[simp] theorem claimImplicit_tick (q : Req) (k : Nat) (s : State) : (claimImplicit q k s).tick = s.tick := by unfold claimImplicit; split <;> simp
@[simp] theorem claimImplicit_regions (q : Req) (k : Nat) (s : State) : (claimImplicit q k s).regions = s.regions := by unfold claimImplicit; split <;> simp
@[simp] theorem claimImplicit_runner (q : Req) (k : Nat) (s : State) : (claimImplicit q k s).runner = s.runner := by unfold claimImplicit; split <;> simp
@[simp] theorem claimImplicit_lib (q : Req) (k : Nat) (s : State) : (claimImplicit q k s).lib = s.lib := by unfold claimImplicit; split <;> simp
@[simp] theorem claimImplicit_brams (q : Req) (k : Nat) (s : State) : (claimImplicit q k s).brams = s.brams := by unfold claimImplicit; split <;> simp
@[simp] theorem claimImplicit_ingot (q : Req) (k : Nat) (s : State) : (claimImplicit q k s).ingot = s.ingot := by unfold claimImplicit; split <;> simp
@[simp] theorem claimImplicit_dsp (q : Req) (k : Nat) (s : State) : (claimImplicit q k s).dsp = s.dsp := by unfold claimImplicit; split <;> simp
@[simp] theorem claimImplicit_domains (q : Req) (k : Nat) (s : State) : (claimImplicit q k s).domains = s.domains := by unfold claimImplicit; split <;> simp
@[simp] theorem claimImplicit_lanes (q : Req) (k : Nat) (s : State) : (claimImplicit q k s).lanes = s.lanes := by unfold claimImplicit; split <;> simp
@[simp] theorem claimImplicit_links (q : Req) (k : Nat) (s : State) : (claimImplicit q k s).links = s.links := by unfold claimImplicit; split <;> simp
@[simp] theorem claimImplicit_sys (q : Req) (k : Nat) (s : State) : (claimImplicit q k s).sys = s.sys := by unfold claimImplicit; split <;> simp
@[simp] theorem claimImplicit_riser (q : Req) (k : Nat) (s : State) : (claimImplicit q k s).riser = s.riser := by unfold claimImplicit; split <;> simp
@[simp] theorem claimImplicit_hbm (q : Req) (k : Nat) (s : State) : (claimImplicit q k s).hbm = s.hbm := by unfold claimImplicit; split <;> simp
@[simp] theorem claimImplicit_integ (q : Req) (k : Nat) (s : State) : (claimImplicit q k s).integ = s.integ := by unfold claimImplicit; split <;> simp
@[simp] theorem claimImplicit_clk (q : Req) (k : Nat) (s : State) : (claimImplicit q k s).clk = s.clk := by unfold claimImplicit; split <;> simp
@[simp] theorem claimImplicit_therm (q : Req) (k : Nat) (s : State) : (claimImplicit q k s).therm = s.therm := by unfold claimImplicit; split <;> simp
@[simp] theorem claimImplicit_bonds (q : Req) (k : Nat) (s : State) : (claimImplicit q k s).bonds = s.bonds := by unfold claimImplicit; split <;> simp
@[simp] theorem claimImplicit_io (q : Req) (k : Nat) (s : State) : (claimImplicit q k s).io = s.io := by unfold claimImplicit; split <;> simp
@[simp] theorem claimImplicit_pending (q : Req) (k : Nat) (s : State) : (claimImplicit q k s).pending = s.pending := by unfold claimImplicit; split <;> simp

@[simp] theorem claimAll_env (q : Req) (ks : List Nat) (s : State) : (claimAll q ks s).2.env = s.env := by
  unfold claimAll; split <;> simp
@[simp] theorem claimAll_dev (q : Req) (ks : List Nat) (s : State) : (claimAll q ks s).2.dev = s.dev := by
  unfold claimAll; split <;> simp
@[simp] theorem claimAll_tick (q : Req) (ks : List Nat) (s : State) : (claimAll q ks s).2.tick = s.tick := by
  unfold claimAll; split <;> simp
@[simp] theorem claimAll_regions (q : Req) (ks : List Nat) (s : State) : (claimAll q ks s).2.regions = s.regions := by
  unfold claimAll; split <;> simp
@[simp] theorem claimAll_runner (q : Req) (ks : List Nat) (s : State) : (claimAll q ks s).2.runner = s.runner := by
  unfold claimAll; split <;> simp
@[simp] theorem claimAll_lib (q : Req) (ks : List Nat) (s : State) : (claimAll q ks s).2.lib = s.lib := by
  unfold claimAll; split <;> simp
@[simp] theorem claimAll_brams (q : Req) (ks : List Nat) (s : State) : (claimAll q ks s).2.brams = s.brams := by
  unfold claimAll; split <;> simp
@[simp] theorem claimAll_ingot (q : Req) (ks : List Nat) (s : State) : (claimAll q ks s).2.ingot = s.ingot := by
  unfold claimAll; split <;> simp
@[simp] theorem claimAll_dsp (q : Req) (ks : List Nat) (s : State) : (claimAll q ks s).2.dsp = s.dsp := by
  unfold claimAll; split <;> simp
@[simp] theorem claimAll_domains (q : Req) (ks : List Nat) (s : State) : (claimAll q ks s).2.domains = s.domains := by
  unfold claimAll; split <;> simp
@[simp] theorem claimAll_lanes (q : Req) (ks : List Nat) (s : State) : (claimAll q ks s).2.lanes = s.lanes := by
  unfold claimAll; split <;> simp
@[simp] theorem claimAll_links (q : Req) (ks : List Nat) (s : State) : (claimAll q ks s).2.links = s.links := by
  unfold claimAll; split <;> simp
@[simp] theorem claimAll_sys (q : Req) (ks : List Nat) (s : State) : (claimAll q ks s).2.sys = s.sys := by
  unfold claimAll; split <;> simp
@[simp] theorem claimAll_riser (q : Req) (ks : List Nat) (s : State) : (claimAll q ks s).2.riser = s.riser := by
  unfold claimAll; split <;> simp
@[simp] theorem claimAll_hbm (q : Req) (ks : List Nat) (s : State) : (claimAll q ks s).2.hbm = s.hbm := by
  unfold claimAll; split <;> simp
@[simp] theorem claimAll_integ (q : Req) (ks : List Nat) (s : State) : (claimAll q ks s).2.integ = s.integ := by
  unfold claimAll; split <;> simp
@[simp] theorem claimAll_clk (q : Req) (ks : List Nat) (s : State) : (claimAll q ks s).2.clk = s.clk := by
  unfold claimAll; split <;> simp
@[simp] theorem claimAll_therm (q : Req) (ks : List Nat) (s : State) : (claimAll q ks s).2.therm = s.therm := by
  unfold claimAll; split <;> simp
@[simp] theorem claimAll_bonds (q : Req) (ks : List Nat) (s : State) : (claimAll q ks s).2.bonds = s.bonds := by
  unfold claimAll; split <;> simp
@[simp] theorem claimAll_io (q : Req) (ks : List Nat) (s : State) : (claimAll q ks s).2.io = s.io := by
  unfold claimAll; split <;> simp
@[simp] theorem claimAll_pending (q : Req) (ks : List Nat) (s : State) : (claimAll q ks s).2.pending = s.pending := by
  unfold claimAll; split <;> simp

@[simp] theorem endOwner_env (k c n : Nat) (s : State) : (endOwner k c n s).env = s.env := by unfold endOwner; split <;> simp
@[simp] theorem endOwner_dev (k c n : Nat) (s : State) : (endOwner k c n s).dev = s.dev := by unfold endOwner; split <;> simp
@[simp] theorem endOwner_tick (k c n : Nat) (s : State) : (endOwner k c n s).tick = s.tick := by unfold endOwner; split <;> simp
@[simp] theorem endOwner_runner (k c n : Nat) (s : State) : (endOwner k c n s).runner = s.runner := by unfold endOwner; split <;> simp
@[simp] theorem endOwner_lib (k c n : Nat) (s : State) : (endOwner k c n s).lib = s.lib := by unfold endOwner; split <;> simp
@[simp] theorem endOwner_brams (k c n : Nat) (s : State) : (endOwner k c n s).brams = s.brams := by unfold endOwner; split <;> simp
@[simp] theorem endOwner_ingot (k c n : Nat) (s : State) : (endOwner k c n s).ingot = s.ingot := by unfold endOwner; split <;> simp
@[simp] theorem endOwner_dsp (k c n : Nat) (s : State) : (endOwner k c n s).dsp = s.dsp := by unfold endOwner; split <;> simp
@[simp] theorem endOwner_domains (k c n : Nat) (s : State) : (endOwner k c n s).domains = s.domains := by unfold endOwner; split <;> simp
@[simp] theorem endOwner_lanes (k c n : Nat) (s : State) : (endOwner k c n s).lanes = s.lanes := by unfold endOwner; split <;> simp
@[simp] theorem endOwner_links (k c n : Nat) (s : State) : (endOwner k c n s).links = s.links := by unfold endOwner; split <;> simp
@[simp] theorem endOwner_sys (k c n : Nat) (s : State) : (endOwner k c n s).sys = s.sys := by unfold endOwner; split <;> simp
@[simp] theorem endOwner_riser (k c n : Nat) (s : State) : (endOwner k c n s).riser = s.riser := by unfold endOwner; split <;> simp
@[simp] theorem endOwner_hbm (k c n : Nat) (s : State) : (endOwner k c n s).hbm = s.hbm := by unfold endOwner; split <;> simp
@[simp] theorem endOwner_integ (k c n : Nat) (s : State) : (endOwner k c n s).integ = s.integ := by unfold endOwner; split <;> simp
@[simp] theorem endOwner_clk (k c n : Nat) (s : State) : (endOwner k c n s).clk = s.clk := by unfold endOwner; split <;> simp
@[simp] theorem endOwner_therm (k c n : Nat) (s : State) : (endOwner k c n s).therm = s.therm := by unfold endOwner; split <;> simp
@[simp] theorem endOwner_bonds (k c n : Nat) (s : State) : (endOwner k c n s).bonds = s.bonds := by unfold endOwner; split <;> simp
@[simp] theorem endOwner_pending (k c n : Nat) (s : State) : (endOwner k c n s).pending = s.pending := by unfold endOwner; split <;> simp

/-- Stopping the Ladle keeps whatever its answers and the library's fields do not touch (R194). -/
theorem stopLoads_keeps {β : Type} (π : State → β) (hr : ∀ w st res u, π (reply w st res u) = π u)
    (hl : ∀ f u, π (modLib f u) = π u) (s : State) : π (stopLoads s) = π s := by
  unfold stopLoads
  rw [forEach_keeps π, hl]
  intro q u
  show π (loadReply _ _ _ _ _ (freeReserved q u)) = π u
  unfold loadReply freeReserved modEntry
  split <;> split <;> simp only [hr, hl]

/-- A security alarm touches the device's mode, the alarm count, the Ladle's work and its answers only (R393). -/
theorem securityAlarm_keeps {β : Type} (π : State → β) (hr : ∀ w st res u, π (reply w st res u) = π u)
    (hl : ∀ f u, π (modLib f u) = π u) (hh : ∀ f u, π (modHbm f u) = π u) (hd : ∀ f u, π (modDev f u) = π u)
    (hm : ∀ c u, π (settleMode c u) = π u) (s : State) : π (securityAlarm s) = π s := by
  unfold securityAlarm
  dsimp only
  split
  · exact hh _ _
  · split <;> simp only [stopLoads_keeps π hr hl, hm, hd, hh]

@[simp] theorem securityAlarm_env (s : State) : (securityAlarm s).env = s.env :=
  securityAlarm_keeps State.env (by simp) (by simp) (by simp) (by simp) (by simp) s
@[simp] theorem securityAlarm_tick (s : State) : (securityAlarm s).tick = s.tick :=
  securityAlarm_keeps State.tick (by simp) (by simp) (by simp) (by simp) (by simp) s
@[simp] theorem securityAlarm_regions (s : State) : (securityAlarm s).regions = s.regions :=
  securityAlarm_keeps State.regions (by simp) (by simp) (by simp) (by simp) (by simp) s
@[simp] theorem securityAlarm_runner (s : State) : (securityAlarm s).runner = s.runner :=
  securityAlarm_keeps State.runner (by simp) (by simp) (by simp) (by simp) (by simp) s
@[simp] theorem securityAlarm_brams (s : State) : (securityAlarm s).brams = s.brams :=
  securityAlarm_keeps State.brams (by simp) (by simp) (by simp) (by simp) (by simp) s
@[simp] theorem securityAlarm_ingot (s : State) : (securityAlarm s).ingot = s.ingot :=
  securityAlarm_keeps State.ingot (by simp) (by simp) (by simp) (by simp) (by simp) s
@[simp] theorem securityAlarm_dsp (s : State) : (securityAlarm s).dsp = s.dsp :=
  securityAlarm_keeps State.dsp (by simp) (by simp) (by simp) (by simp) (by simp) s
@[simp] theorem securityAlarm_domains (s : State) : (securityAlarm s).domains = s.domains :=
  securityAlarm_keeps State.domains (by simp) (by simp) (by simp) (by simp) (by simp) s
@[simp] theorem securityAlarm_lanes (s : State) : (securityAlarm s).lanes = s.lanes :=
  securityAlarm_keeps State.lanes (by simp) (by simp) (by simp) (by simp) (by simp) s
@[simp] theorem securityAlarm_links (s : State) : (securityAlarm s).links = s.links :=
  securityAlarm_keeps State.links (by simp) (by simp) (by simp) (by simp) (by simp) s
@[simp] theorem securityAlarm_sys (s : State) : (securityAlarm s).sys = s.sys :=
  securityAlarm_keeps State.sys (by simp) (by simp) (by simp) (by simp) (by simp) s
@[simp] theorem securityAlarm_riser (s : State) : (securityAlarm s).riser = s.riser :=
  securityAlarm_keeps State.riser (by simp) (by simp) (by simp) (by simp) (by simp) s
@[simp] theorem securityAlarm_integ (s : State) : (securityAlarm s).integ = s.integ :=
  securityAlarm_keeps State.integ (by simp) (by simp) (by simp) (by simp) (by simp) s
@[simp] theorem securityAlarm_clk (s : State) : (securityAlarm s).clk = s.clk :=
  securityAlarm_keeps State.clk (by simp) (by simp) (by simp) (by simp) (by simp) s
@[simp] theorem securityAlarm_therm (s : State) : (securityAlarm s).therm = s.therm :=
  securityAlarm_keeps State.therm (by simp) (by simp) (by simp) (by simp) (by simp) s
@[simp] theorem securityAlarm_bonds (s : State) : (securityAlarm s).bonds = s.bonds :=
  securityAlarm_keeps State.bonds (by simp) (by simp) (by simp) (by simp) (by simp) s
@[simp] theorem securityAlarm_pending (s : State) : (securityAlarm s).pending = s.pending :=
  securityAlarm_keeps State.pending (by simp) (by simp) (by simp) (by simp) (by simp) s


/-! ### The end of a command -/

/-- An event leaves the mode that the conditions give. -/
theorem modeOf_raise (e : EvRec) (s : State) : modeOf (raise e s) = modeOf s := by
  unfold modeOf isDegraded
  simp only [raise_dev, raise_regions, raise_ingot]

/-- The end of an outage (R64) writes the outage and its start only. -/
theorem closeOutage_keeps {β : Type} (π : Device → β)
    (h : ∀ d r o, π { d with resumeRefused := r, outages := o } = π d) (s : State) (d : Device) :
    π (closeOutage s d) = π d := by
  unfold closeOutage
  split
  · split
    · exact h _ _ _
    · rfl
  · rfl

theorem closeOutage_base (s : State) (d : Device) : (closeOutage s d).base = d.base :=
  closeOutage_keeps Device.base (fun _ _ _ => rfl) s d
theorem closeOutage_cooldown (s : State) (d : Device) : (closeOutage s d).cooldown = d.cooldown :=
  closeOutage_keeps Device.cooldown (fun _ _ _ => rfl) s d
theorem closeOutage_hold (s : State) (d : Device) : (closeOutage s d).hold = d.hold :=
  closeOutage_keeps Device.hold (fun _ _ _ => rfl) s d
theorem closeOutage_frozenCmd (s : State) (d : Device) : (closeOutage s d).frozenCmd = d.frozenCmd :=
  closeOutage_keeps Device.frozenCmd (fun _ _ _ => rfl) s d
theorem closeOutage_debug (s : State) (d : Device) : (closeOutage s d).debug = d.debug :=
  closeOutage_keeps Device.debug (fun _ _ _ => rfl) s d

/-- Settling leaves the mode that the conditions give, and they are as they were (R58). -/
theorem settleMode_mode (c : Nat) (s : State) : (settleMode c s).dev.mode = modeOf (settleMode c s) := by
  unfold settleMode
  dsimp only
  split
  · assumption
  · simp only [raise_dev]
    rw [modeOf_raise]
    simp only [modeOf, isDegraded, modDev_dev, modDev_regions, modDev_ingot, closeOutage_base, closeOutage_cooldown,
      closeOutage_hold, closeOutage_frozenCmd, closeOutage_debug]
    rfl

/-- What a command answers when it has run. -/
theorem commit_eq (s t : State) : ∃ u, commit s t = .next u ∧ u.dev.mode = modeOf u ∧ u.pending = s.pending
    ∧ u.env.fuses = s.env.fuses ∧ u.dev.base = t.dev.base := by
  refine ⟨_, rfl, ?_, rfl, rfl, ?_⟩
  · exact settleMode_mode _ _
  · show (settleMode _ t).dev.base = _
    unfold settleMode
    dsimp only
    split <;> simp [closeOutage_base]

/-- An event answers a next state. -/
theorem occurs_eq (c : Bool) (f : State → State) (s : State) :
    occurs c f s = if c then commit s (f s) else .next s := rfl


end Sys2Proof.Machine
end

