-- ==== Sys2Proof/Laws/Cudex.lean ====
section
/-! SUPPORT. The slots of the mailbox ports under the shared operations, and what the taking of a granted request comes to
(R484, R491). -/

namespace Sys2Proof.Machine

theorem portIdx_inj {p q : Port} (h : portIdx p = portIdx q) : p = q := by cases p <;> cases q <;> simp_all [portIdx]

/-! ### Slots -/

@[simp] theorem modSlot_slot (p : Port) (sl : Fin 4) (f : Slot → Slot) (s : State) :
    (modSlot p sl f s).slot p sl = f (s.slot p sl) := by
  simp [modSlot, State.slot]

theorem modSlot_slot_ne (p q : Port) (sl k : Fin 4) (f : Slot → Slot) (s : State) (h : q ≠ p ∨ k ≠ sl) :
    (modSlot p sl f s).slot q k = s.slot q k := by
  simp only [modSlot, State.slot, modCudex_cudex]
  by_cases hp : q = p
  · subst hp
    have hk : k.val ≠ sl.val := fun e => (h.resolve_left (fun hn => hn rfl)) (Fin.ext e)
    rw [lget_lmod_same]
    exact lget_lmod_ne _ _ _ _ _ hk
  · rw [lget_lmod_ne _ _ _ _ _ (fun e => hp (portIdx_inj e))]

/-- Slots are seen through `ports` alone. -/
theorem slot_of_ports {s t : State} (h : t.cudex.ports = s.cudex.ports) (p : Port) (sl : Fin 4) :
    t.slot p sl = s.slot p sl := by
  unfold State.slot
  rw [h]

/-- A change of every port that leaves its slots leaves every slot. -/
theorem slot_map (l : List PortSt) (f : PortSt → PortSt) (hf : ∀ x, (f x).slots = x.slots) (i : Nat) :
    (lget {} (l.map f) i).slots = (lget ({} : PortSt) l i).slots := by
  unfold lget
  rw [List.getD_eq_getElem?_getD, List.getD_eq_getElem?_getD, List.getElem?_map]
  cases l[i]? with
  | none => rfl
  | some x => exact hf x

theorem offerPath_slots (r : Record) (x : PortSt) : (offerPath r x).slots = x.slots := by
  unfold offerPath
  dsimp only
  repeat' split
  all_goals rfl

theorem logRecord_ports (r : Record) (c : CudexSt) : (logRecord r c).ports = c.ports := by
  unfold logRecord
  repeat' split
  all_goals rfl

@[simp] theorem deliver_slot (r : Record) (s : State) (p : Port) (sl : Fin 4) : (deliver r s).slot p sl = s.slot p sl := by
  unfold deliver
  split
  · rfl
  · dsimp only
    have h : ∀ (c : Bool) (f : State → State) (u : State), (∀ u, (f u).cudex = u.cudex) →
        (onlyIf c f u).cudex = u.cudex := by
      intro c f u hf
      cases c
      · rfl
      · exact hf u
    unfold State.slot
    rw [h _ _ _ (fun u => signalMsix_cudex _ u), modCudex_cudex, logRecord_ports]
    show lget {} (lget {} (s.cudex.ports.map (offerPath r)) (portIdx p)).slots sl.val = _
    rw [slot_map _ _ (offerPath_slots r)]

@[simp] theorem raise_slot (e : EvRec) (s : State) (p : Port) (sl : Fin 4) : (raise e s).slot p sl = s.slot p sl :=
  deliver_slot _ s p sl

@[simp] theorem raiseLimited_slot (e : EvRec) (c : List Nat) (s : State) (p : Port) (sl : Fin 4) :
    (raiseLimited e c s).slot p sl = s.slot p sl := by
  unfold raiseLimited
  split
  · exact (slot_of_ports rfl p sl).trans (raise_slot e s p sl)
  · rfl

@[simp] theorem settleMode_slot (c : Nat) (s : State) (p : Port) (sl : Fin 4) :
    (settleMode c s).slot p sl = s.slot p sl := by
  unfold settleMode
  dsimp only
  split
  · rfl
  · exact raise_slot _ _ p sl

@[simp] theorem useFree_slot (s : State) (p : Port) (sl : Fin 4) : (useFree s).slot p sl = s.slot p sl := rfl

@[simp] theorem setOwner_slot (k : Nat) (o : Owner) (s : State) (p : Port) (sl : Fin 4) :
    (setOwner k o s).slot p sl = s.slot p sl := rfl

@[simp] theorem claimImplicit_slot (q : Req) (k : Nat) (s : State) (p : Port) (sl : Fin 4) :
    (claimImplicit q k s).slot p sl = s.slot p sl := by
  unfold claimImplicit
  split <;> rfl

@[simp] theorem claimAll_slot (q : Req) (ks : List Nat) (s : State) (p : Port) (sl : Fin 4) :
    (claimAll q ks s).2.slot p sl = s.slot p sl := by
  unfold claimAll
  split
  · rfl
  · exact forEach_keeps (·.slot p sl) _ _ _ (fun k t => claimImplicit_slot q k t p sl)

@[simp] theorem acceptSlot_slot (p : Port) (sl : Fin 4) (s : State) :
    (acceptSlot p sl s).slot p sl = { s.slot p sl with st := .accepted, serial := s.cudex.serial + 1 } := by
  have h : (acceptSlot p sl s).slot p sl
      = (modSlot p sl (fun x => { x with st := .accepted, serial := s.cudex.serial + 1 }) s).slot p sl := rfl
  rw [h, modSlot_slot]

/-- A posted response stands in its slot. -/
theorem postResponse_slot (p : Port) (sl : Fin 4) (st tick : Nat) (res : Results) (s : State) :
    (postResponse p sl st tick res s).slot p sl =
      { s.slot p sl with
        st := .done
        resp := mkResponse (fieldOf (s.slot p sl).req 2 1) (fieldOf (s.slot p sl).req 3 1) st tick res } := by
  unfold postResponse
  dsimp only
  cases hp : (p == .mb0)
  · exact modSlot_slot p sl _ s
  · exact (slot_of_ports rfl p sl).trans (modSlot_slot p sl _ s)

/-! ### The taking of a granted request -/

theorem takenReq_eq (s : State) (p : Port) (sl : Fin 4) :
    takenReq s p sl = { s.req p sl with serial := s.cudex.serial + 1 } := by
  simp [takenReq, State.req]

theorem ownView_taken (s : State) (p : Port) (sl : Fin 4) (k : Nat) :
    ownView (takenReq s p sl) k (acceptSlot p sl s) = ownView (s.req p sl) k s := by
  rw [takenReq_eq]
  rfl

/-- A granted request runs the command's own part, and its answer is put into the slot. -/
theorem runCmd_granted {c : CmdSpec} {s : State} {p : Port} {sl : Fin 4} (h : Granted c s p sl) :
    runCmd c p sl s = commit s (answer (takenReq s p sl).waiter (c.body (takenReq s p sl) (takenState c s p sl)).2
      (c.body (takenReq s p sl) (takenState c s p sl)).1) := by
  obtain ⟨⟨h1, h2⟩, h3, h4⟩ := h
  have hs : serveReq c p sl s = answer (takenReq s p sl).waiter
      (c.body (takenReq s p sl) (takenState c s p sl)).2 (c.body (takenReq s p sl) (takenState c s p sl)).1 := by
    unfold serveReq
    simp only [show (acceptSlot p sl s).req p sl = takenReq s p sl from rfl, h3]
    unfold takenState
    cases hq : isQuery c (takenReq s p sl)
    · simp only [hq, Bool.false_eq_true, false_or] at h4
      have hf : (c.owners (takenReq s p sl) (acceptSlot p sl s)).find? (fun k =>
          decide (ownView (takenReq s p sl) k (acceptSlot p sl s) = .conflict)
            || decide (ownView (takenReq s p sl) k (acceptSlot p sl s) = .other)) = none := by
        rw [List.find?_eq_none]
        intro k hk
        have := (List.all_eq_true.mp h4) k hk
        rw [ownView_taken]
        revert this
        cases ownView (s.req p sl) k s <;> simp
      simp only [claimAll, hf]
      rfl
    · rfl
  unfold runCmd
  rw [h1, show (s.req p sl).opcode = c.opcode from h2, ← hs]
  simp [occurs]

@[simp] theorem takenState_slot (c : CmdSpec) (s : State) (p : Port) (sl : Fin 4) :
    (takenState c s p sl).slot p sl = { s.slot p sl with st := .accepted, serial := s.cudex.serial + 1 } := by
  unfold takenState
  split <;> simp

theorem commit_slot (s t u : State) (p : Port) (sl : Fin 4) (h : commit s t = .next u) : u.slot p sl = t.slot p sl := by
  unfold commit at h
  cases h
  exact settleMode_slot _ t p sl

/-- The parts of State that neither an answer nor a change of mode touches are the same. -/
structure SameParts (s t : State) : Prop where
  tick : t.tick = s.tick
  regions : t.regions = s.regions
  runner : t.runner = s.runner
  lib : t.lib = s.lib
  brams : t.brams = s.brams
  ingot : t.ingot = s.ingot
  dsp : t.dsp = s.dsp
  domains : t.domains = s.domains
  lanes : t.lanes = s.lanes
  links : t.links = s.links
  sys : t.sys = s.sys
  riser : t.riser = s.riser
  hbm : t.hbm = s.hbm
  integ : t.integ = s.integ
  clk : t.clk = s.clk
  therm : t.therm = s.therm
  bonds : t.bonds = s.bonds

@[simp] theorem takenState_tick (c : CmdSpec) (s : State) (p : Port) (sl : Fin 4) :
    (takenState c s p sl).tick = s.tick := by
  unfold takenState
  split <;> simp

@[simp] theorem takenState_regions (c : CmdSpec) (s : State) (p : Port) (sl : Fin 4) :
    (takenState c s p sl).regions = s.regions := by
  unfold takenState
  split <;> simp

@[simp] theorem takenState_runner (c : CmdSpec) (s : State) (p : Port) (sl : Fin 4) :
    (takenState c s p sl).runner = s.runner := by
  unfold takenState
  split <;> simp

@[simp] theorem takenState_lib (c : CmdSpec) (s : State) (p : Port) (sl : Fin 4) :
    (takenState c s p sl).lib = s.lib := by
  unfold takenState
  split <;> simp

@[simp] theorem takenState_brams (c : CmdSpec) (s : State) (p : Port) (sl : Fin 4) :
    (takenState c s p sl).brams = s.brams := by
  unfold takenState
  split <;> simp

@[simp] theorem takenState_ingot (c : CmdSpec) (s : State) (p : Port) (sl : Fin 4) :
    (takenState c s p sl).ingot = s.ingot := by
  unfold takenState
  split <;> simp

@[simp] theorem takenState_dsp (c : CmdSpec) (s : State) (p : Port) (sl : Fin 4) :
    (takenState c s p sl).dsp = s.dsp := by
  unfold takenState
  split <;> simp

@[simp] theorem takenState_domains (c : CmdSpec) (s : State) (p : Port) (sl : Fin 4) :
    (takenState c s p sl).domains = s.domains := by
  unfold takenState
  split <;> simp

@[simp] theorem takenState_lanes (c : CmdSpec) (s : State) (p : Port) (sl : Fin 4) :
    (takenState c s p sl).lanes = s.lanes := by
  unfold takenState
  split <;> simp

@[simp] theorem takenState_links (c : CmdSpec) (s : State) (p : Port) (sl : Fin 4) :
    (takenState c s p sl).links = s.links := by
  unfold takenState
  split <;> simp

@[simp] theorem takenState_sys (c : CmdSpec) (s : State) (p : Port) (sl : Fin 4) :
    (takenState c s p sl).sys = s.sys := by
  unfold takenState
  split <;> simp

@[simp] theorem takenState_riser (c : CmdSpec) (s : State) (p : Port) (sl : Fin 4) :
    (takenState c s p sl).riser = s.riser := by
  unfold takenState
  split <;> simp

@[simp] theorem takenState_hbm (c : CmdSpec) (s : State) (p : Port) (sl : Fin 4) :
    (takenState c s p sl).hbm = s.hbm := by
  unfold takenState
  split <;> simp

@[simp] theorem takenState_integ (c : CmdSpec) (s : State) (p : Port) (sl : Fin 4) :
    (takenState c s p sl).integ = s.integ := by
  unfold takenState
  split <;> simp

@[simp] theorem takenState_clk (c : CmdSpec) (s : State) (p : Port) (sl : Fin 4) :
    (takenState c s p sl).clk = s.clk := by
  unfold takenState
  split <;> simp

@[simp] theorem takenState_therm (c : CmdSpec) (s : State) (p : Port) (sl : Fin 4) :
    (takenState c s p sl).therm = s.therm := by
  unfold takenState
  split <;> simp

@[simp] theorem takenState_bonds (c : CmdSpec) (s : State) (p : Port) (sl : Fin 4) :
    (takenState c s p sl).bonds = s.bonds := by
  unfold takenState
  split <;> simp

@[simp] theorem takenState_io (c : CmdSpec) (s : State) (p : Port) (sl : Fin 4) :
    (takenState c s p sl).io = s.io := by
  unfold takenState
  split <;> simp

@[simp] theorem takenState_dev (c : CmdSpec) (s : State) (p : Port) (sl : Fin 4) :
    (takenState c s p sl).dev = s.dev := by
  unfold takenState
  split <;> simp

@[simp] theorem takenState_env (c : CmdSpec) (s : State) (p : Port) (sl : Fin 4) :
    (takenState c s p sl).env = s.env := by
  unfold takenState
  split <;> simp

namespace SameParts
variable {s t : State} (h : SameParts s t)
include h

theorem region_eq (k : Nat) : t.region k = s.region k := by
  unfold State.region
  rw [h.regions]

theorem bram_eq (k : Nat) : t.bram k = s.bram k := by
  unfold State.bram
  rw [h.brams]

theorem engine_eq (k : Nat) : t.engine k = s.engine k := by
  unfold State.engine
  rw [h.dsp]

theorem domain_eq (k : Nat) : t.domain k = s.domain k := by
  unfold State.domain
  rw [h.domains]

theorem lane_eq (k : Nat) : t.lane k = s.lane k := by
  unfold State.lane
  rw [h.lanes]

theorem link_eq (k : Nat) : t.link k = s.link k := by
  unfold State.link
  rw [h.links]

theorem queue_eq (k : Nat) : t.queue k = s.queue k := by
  unfold State.queue
  rw [h.riser]

end SameParts

/-- What an event record changes outside the log and the event paths: nothing but the pending vectors of MB0. -/
structure EventParts (s t : State) : Prop where
  parts : SameParts s t
  dev : t.dev = s.dev
  env : t.env = s.env
  pending : t.pending = s.pending
  io : ∃ a b, t.io = { s.io with pcie := { s.io.pcie with msixLast := a, msixPend := b } }
  cudex : ∃ ps l n o, t.cudex = { s.cudex with ports := ps, log := l, logSeq := n, overwritten := o }
  slots : ∀ p sl, t.slot p sl = s.slot p sl

theorem signalMsix_io (v : Nat) (s : State) :
    ∃ a b, (signalMsix v s).io = { s.io with pcie := { s.io.pcie with msixLast := a, msixPend := b } } := by
  unfold signalMsix modIo
  dsimp only
  split
  · exact ⟨_, _, rfl⟩
  · exact ⟨_, _, rfl⟩

theorem raise_parts (e : EvRec) (s : State) : EventParts s (raise e s) where
  parts := by constructor <;> simp
  dev := by simp
  env := by simp
  pending := by simp
  slots := by simp
  io := by
    unfold raise deliver
    split
    · exact ⟨_, _, rfl⟩
    · dsimp only
      generalize hc : (decide (List.length _ < List.length _) : Bool) = c
      cases c
      · exact ⟨_, _, rfl⟩
      · exact signalMsix_io _ _
  cudex := by
    unfold raise deliver
    split
    · exact ⟨_, _, _, _, rfl⟩
    · dsimp only
      generalize hc : (decide (List.length _ < List.length _) : Bool) = c
      have h : ∀ x : CudexSt, ∃ ps l n o,
          logRecord (mkRecord e s.tick.number.toNat) { s.cudex with ports := x.ports }
            = { s.cudex with ports := ps, log := l, logSeq := n, overwritten := o } := by
        intro x
        unfold logRecord
        repeat' split
        all_goals exact ⟨_, _, _, _, rfl⟩
      cases c
      · exact h { s.cudex with ports := s.cudex.ports.map (offerPath (mkRecord e s.tick.number.toNat)) }
      · exact h { s.cudex with ports := s.cudex.ports.map (offerPath (mkRecord e s.tick.number.toNat)) }

/-- What a command answers, `u` being the state in which it has run: the mode that the conditions give, and otherwise `u`
with the event of a change of mode. -/
structure Committed (s u t : State) : Prop where
  parts : SameParts u t
  mode : t.dev.mode = modeOf u
  dev : ∃ k r o, t.dev = { u.dev with mode := modeOf u, modeTick := k, resumeRefused := r, outages := o }
  env : t.env = { u.env with fuses := s.env.fuses }
  pending : t.pending = s.pending
  io : ∃ a b, t.io = { u.io with pcie := { u.io.pcie with msixLast := a, msixPend := b } }
  cudex : ∃ ps l n o, t.cudex = { u.cudex with ports := ps, log := l, logSeq := n, overwritten := o }
  slots : ∀ p sl, t.slot p sl = u.slot p sl

/-- The end of an outage writes the outage and its start only (R64). -/
theorem closeOutage_eq (u : State) (d : Device) (n : BitVec 64)
    (h : d = { closeOutage u u.dev with mode := modeOf u, modeTick := n }) :
    ∃ k r o, d = { u.dev with mode := modeOf u, modeTick := k, resumeRefused := r, outages := o } := by
  subst h
  unfold closeOutage
  split
  · split <;> exact ⟨_, _, _, rfl⟩
  · exact ⟨_, _, _, rfl⟩

theorem commit_committed (s u : State) : ∃ t, commit s u = .next t ∧ Committed s u t := by
  refine ⟨_, rfl, ?_⟩
  by_cases h : u.dev.mode = modeOf u
  · have he : settleMode (isoChangeCause u) u = u := by simp [settleMode, h]
    rw [he]
    exact ⟨⟨rfl, rfl, rfl, rfl, rfl, rfl, rfl, rfl, rfl, rfl, rfl, rfl, rfl, rfl, rfl, rfl, rfl⟩, h,
      ⟨u.dev.modeTick, _, _, by rw [← h]⟩, rfl, rfl, ⟨_, _, rfl⟩, ⟨_, _, _, _, rfl⟩, fun _ _ => rfl⟩
  · have he : settleMode (isoChangeCause u) u = raise (modeEvent u.dev.mode (modeOf u) (isoChangeCause u))
        (modDev (fun d => { closeOutage u d with mode := modeOf u, modeTick := u.tick.number }) u) := by
      simp only [settleMode, h, if_false]
    rw [he]
    have hr := raise_parts (modeEvent u.dev.mode (modeOf u) (isoChangeCause u))
      (modDev (fun d => { closeOutage u d with mode := modeOf u, modeTick := u.tick.number }) u)
    have hd := hr.dev
    have hp := hr.parts
    exact ⟨⟨hp.tick, hp.regions, hp.runner, hp.lib, hp.brams, hp.ingot, hp.dsp, hp.domains, hp.lanes, hp.links, hp.sys,
      hp.riser, hp.hbm, hp.integ, hp.clk, hp.therm, hp.bonds⟩, congrArg Device.mode hd,
      closeOutage_eq u _ _ hd,
      congrArg (fun e : Env => { e with fuses := s.env.fuses }) hr.env, rfl, hr.io, hr.cudex, hr.slots⟩

/-- An event whose condition holds answers a next state. -/
theorem occurs_committed {c : Bool} (h : c = true) (f : State → State) (s : State) :
    ∃ t, occurs c f s = .next t ∧ Committed s (f s) t := by
  subst h
  exact commit_committed s (f s)

theorem commit_same {s t u : State} (h : commit s t = .next u) : SameParts t u := by
  unfold commit at h
  cases h
  constructor <;> simp

/-- A granted request that is answered at once: what the answer says, and what the own part has left. -/
theorem granted_done {c : CmdSpec} {s u : State} {p : Port} {sl : Fin 4} {st : Nat} {res : Results}
    (h : Granted c s p sl) (hb : c.body (takenReq s p sl) (takenState c s p sl) = (u, .done st res))
    (hu : u.slot p sl = (takenState c s p sl).slot p sl) (ht : u.tick = s.tick) :
    ∃ t, runCmd c p sl s = .next t ∧ Answered s t p sl st res ∧ SameParts u t := by
  have hsl := hu.trans (takenState_slot c s p sl)
  have hr : answer (takenReq s p sl).waiter (.done st res) u = postResponse p sl st u.tick.number.toNat res u := by
    have hw : (takenReq s p sl).waiter = (p, sl, s.cudex.serial + 1) := by rw [takenReq_eq]; rfl
    rw [hw]
    simp only [answer, reply, replyAt, hsl, and_self, if_true]
  have hrun := runCmd_granted h
  rw [hb, hr] at hrun
  obtain ⟨t, hc, _⟩ := commit_eq s (postResponse p sl st u.tick.number.toNat res u)
  refine ⟨t, hrun.trans hc, ?_, ?_⟩
  · unfold Answered
    rw [commit_slot _ _ _ _ _ hc, postResponse_slot, hsl, ht]
    exact ⟨rfl, rfl⟩
  · have := commit_same hc
    constructor
    · exact this.tick.trans (by simp)
    · exact this.regions.trans (by simp)
    · exact this.runner.trans (by simp)
    · exact this.lib.trans (by simp)
    · exact this.brams.trans (by simp)
    · exact this.ingot.trans (by simp)
    · exact this.dsp.trans (by simp)
    · exact this.domains.trans (by simp)
    · exact this.lanes.trans (by simp)
    · exact this.links.trans (by simp)
    · exact this.sys.trans (by simp)
    · exact this.riser.trans (by simp)
    · exact this.hbm.trans (by simp)
    · exact this.integ.trans (by simp)
    · exact this.clk.trans (by simp)
    · exact this.therm.trans (by simp)
    · exact this.bonds.trans (by simp)

/-- A granted request that waits. -/
theorem granted_wait {c : CmdSpec} {s u : State} {p : Port} {sl : Fin 4}
    (h : Granted c s p sl) (hb : c.body (takenReq s p sl) (takenState c s p sl) = (u, .wait))
    (hu : u.slot p sl = (takenState c s p sl).slot p sl) :
    ∃ t, runCmd c p sl s = .next t ∧ Waits t p sl ∧ SameParts u t := by
  have hrun := runCmd_granted h
  rw [hb] at hrun
  obtain ⟨t, hc, _⟩ := commit_eq s u
  refine ⟨t, hrun.trans hc, ?_, commit_same hc⟩
  unfold Waits
  rw [commit_slot _ _ _ _ _ hc, hu, takenState_slot]

end Sys2Proof.Machine
end

