-- ==== Sys2Proof/Laws/Answer.lean ====
section
/-! SUPPORT. The state that a command answers, field by field: what `commit`, an event record, a response and the taking of
a request leave as it was. -/

namespace Sys2Proof.Machine

/-- The state that a command answers, `u` being the state in which it has run. -/
def committed (s u : State) : State :=
  { settleMode (isoChangeCause u) u with pending := s.pending, env := { (settleMode (isoChangeCause u) u).env with fuses := s.env.fuses } }

theorem commit_def (s u : State) : commit s u = .next (committed s u) := rfl

theorem exists_commit {s u : State} {P : State → Prop} : (∃ t, commit s u = .next t ∧ P t) ↔ P (committed s u) := by
  constructor
  · rintro ⟨t, h, hp⟩
    cases h
    exact hp
  · exact fun h => ⟨_, rfl, h⟩

theorem gives_occurs {c : Bool} {f : State → State} {s : State} {P : State → Prop} (h : c = true)
    (hp : P (committed s (f s))) : ∃ t, occurs c f s = .next t ∧ P t := by
  subst h
  exact ⟨_, rfl, hp⟩

@[simp] theorem committed_tick (s u : State) : (committed s u).tick = u.tick := by simp [committed]
@[simp] theorem committed_regions (s u : State) : (committed s u).regions = u.regions := by simp [committed]
@[simp] theorem committed_runner (s u : State) : (committed s u).runner = u.runner := by simp [committed]
@[simp] theorem committed_lib (s u : State) : (committed s u).lib = u.lib := by simp [committed]
@[simp] theorem committed_brams (s u : State) : (committed s u).brams = u.brams := by simp [committed]
@[simp] theorem committed_ingot (s u : State) : (committed s u).ingot = u.ingot := by simp [committed]
@[simp] theorem committed_dsp (s u : State) : (committed s u).dsp = u.dsp := by simp [committed]
@[simp] theorem committed_domains (s u : State) : (committed s u).domains = u.domains := by simp [committed]
@[simp] theorem committed_lanes (s u : State) : (committed s u).lanes = u.lanes := by simp [committed]
@[simp] theorem committed_links (s u : State) : (committed s u).links = u.links := by simp [committed]
@[simp] theorem committed_sys (s u : State) : (committed s u).sys = u.sys := by simp [committed]
@[simp] theorem committed_riser (s u : State) : (committed s u).riser = u.riser := by simp [committed]
@[simp] theorem committed_hbm (s u : State) : (committed s u).hbm = u.hbm := by simp [committed]
@[simp] theorem committed_integ (s u : State) : (committed s u).integ = u.integ := by simp [committed]
@[simp] theorem committed_clk (s u : State) : (committed s u).clk = u.clk := by simp [committed]
@[simp] theorem committed_therm (s u : State) : (committed s u).therm = u.therm := by simp [committed]
@[simp] theorem committed_bonds (s u : State) : (committed s u).bonds = u.bonds := by simp [committed]
@[simp] theorem committed_pending (s u : State) : (committed s u).pending = s.pending := rfl
@[simp] theorem committed_env (s u : State) : (committed s u).env = { u.env with fuses := s.env.fuses } := by simp [committed]

@[simp] theorem signalMsix_io_vccio (v : Nat) (s : State) : (signalMsix v s).io.vccio = s.io.vccio := rfl
@[simp] theorem signalMsix_io_gpio (v : Nat) (s : State) : (signalMsix v s).io.gpio = s.io.gpio := rfl
@[simp] theorem signalMsix_io_i2cAddr (v : Nat) (s : State) : (signalMsix v s).io.i2cAddr = s.io.i2cAddr := rfl
@[simp] theorem signalMsix_io_nextAddr (v : Nat) (s : State) : (signalMsix v s).io.nextAddr = s.io.nextAddr := rfl
@[simp] theorem signalMsix_io_pec (v : Nat) (s : State) : (signalMsix v s).io.pec = s.io.pec := rfl
@[simp] theorem signalMsix_io_dynAddr (v : Nat) (s : State) : (signalMsix v s).io.dynAddr = s.io.dynAddr := rfl
@[simp] theorem signalMsix_io_pecFails (v : Nat) (s : State) : (signalMsix v s).io.pecFails = s.io.pecFails := rfl
@[simp] theorem signalMsix_io_mgmtOut (v : Nat) (s : State) : (signalMsix v s).io.mgmtOut = s.io.mgmtOut := rfl
@[simp] theorem signalMsix_io_jtagIr (v : Nat) (s : State) : (signalMsix v s).io.jtagIr = s.io.jtagIr := rfl
@[simp] theorem signalMsix_io_mbacc (v : Nat) (s : State) : (signalMsix v s).io.mbacc = s.io.mbacc := rfl
@[simp] theorem signalMsix_io_boundary (v : Nat) (s : State) : (signalMsix v s).io.boundary = s.io.boundary := rfl
@[simp] theorem signalMsix_io_extest (v : Nat) (s : State) : (signalMsix v s).io.extest = s.io.extest := rfl
@[simp] theorem signalMsix_io_jtagDr (v : Nat) (s : State) : (signalMsix v s).io.jtagDr = s.io.jtagDr := rfl
@[simp] theorem signalMsix_pcie_up (v : Nat) (s : State) : (signalMsix v s).io.pcie.up = s.io.pcie.up := by
  unfold signalMsix modIo
  dsimp only
  split <;> rfl
@[simp] theorem signalMsix_pcie_rate (v : Nat) (s : State) : (signalMsix v s).io.pcie.rate = s.io.pcie.rate := by
  unfold signalMsix modIo
  dsimp only
  split <;> rfl
@[simp] theorem signalMsix_pcie_width (v : Nat) (s : State) : (signalMsix v s).io.pcie.width = s.io.pcie.width := by
  unfold signalMsix modIo
  dsimp only
  split <;> rfl
@[simp] theorem signalMsix_pcie_d3hot (v : Nat) (s : State) : (signalMsix v s).io.pcie.d3hot = s.io.pcie.d3hot := by
  unfold signalMsix modIo
  dsimp only
  split <;> rfl
@[simp] theorem signalMsix_pcie_heldReset (v : Nat) (s : State) : (signalMsix v s).io.pcie.heldReset = s.io.pcie.heldReset := by
  unfold signalMsix modIo
  dsimp only
  split <;> rfl
@[simp] theorem signalMsix_pcie_counters (v : Nat) (s : State) : (signalMsix v s).io.pcie.counters = s.io.pcie.counters := by
  unfold signalMsix modIo
  dsimp only
  split <;> rfl
@[simp] theorem signalMsix_pcie_jobs (v : Nat) (s : State) : (signalMsix v s).io.pcie.jobs = s.io.pcie.jobs := by
  unfold signalMsix modIo
  dsimp only
  split <;> rfl
@[simp] theorem signalMsix_pcie_aer (v : Nat) (s : State) : (signalMsix v s).io.pcie.aer = s.io.pcie.aer := by
  unfold signalMsix modIo
  dsimp only
  split <;> rfl
@[simp] theorem signalMsix_pcie_lastCode (v : Nat) (s : State) : (signalMsix v s).io.pcie.lastCode = s.io.pcie.lastCode := by
  unfold signalMsix modIo
  dsimp only
  split <;> rfl
@[simp] theorem signalMsix_pcie_lastData (v : Nat) (s : State) : (signalMsix v s).io.pcie.lastData = s.io.pcie.lastData := by
  unfold signalMsix modIo
  dsimp only
  split <;> rfl
@[simp] theorem raise_io_vccio (e : EvRec) (s : State) : (raise e s).io.vccio = s.io.vccio := by obtain ⟨_, _, h⟩ := (raise_parts e s).io; rw [h]
@[simp] theorem raise_io_gpio (e : EvRec) (s : State) : (raise e s).io.gpio = s.io.gpio := by obtain ⟨_, _, h⟩ := (raise_parts e s).io; rw [h]
@[simp] theorem raise_io_i2cAddr (e : EvRec) (s : State) : (raise e s).io.i2cAddr = s.io.i2cAddr := by obtain ⟨_, _, h⟩ := (raise_parts e s).io; rw [h]
@[simp] theorem raise_io_nextAddr (e : EvRec) (s : State) : (raise e s).io.nextAddr = s.io.nextAddr := by obtain ⟨_, _, h⟩ := (raise_parts e s).io; rw [h]
@[simp] theorem raise_io_pec (e : EvRec) (s : State) : (raise e s).io.pec = s.io.pec := by obtain ⟨_, _, h⟩ := (raise_parts e s).io; rw [h]
@[simp] theorem raise_io_dynAddr (e : EvRec) (s : State) : (raise e s).io.dynAddr = s.io.dynAddr := by obtain ⟨_, _, h⟩ := (raise_parts e s).io; rw [h]
@[simp] theorem raise_io_pecFails (e : EvRec) (s : State) : (raise e s).io.pecFails = s.io.pecFails := by obtain ⟨_, _, h⟩ := (raise_parts e s).io; rw [h]
@[simp] theorem raise_io_mgmtOut (e : EvRec) (s : State) : (raise e s).io.mgmtOut = s.io.mgmtOut := by obtain ⟨_, _, h⟩ := (raise_parts e s).io; rw [h]
@[simp] theorem raise_io_jtagIr (e : EvRec) (s : State) : (raise e s).io.jtagIr = s.io.jtagIr := by obtain ⟨_, _, h⟩ := (raise_parts e s).io; rw [h]
@[simp] theorem raise_io_mbacc (e : EvRec) (s : State) : (raise e s).io.mbacc = s.io.mbacc := by obtain ⟨_, _, h⟩ := (raise_parts e s).io; rw [h]
@[simp] theorem raise_io_boundary (e : EvRec) (s : State) : (raise e s).io.boundary = s.io.boundary := by obtain ⟨_, _, h⟩ := (raise_parts e s).io; rw [h]
@[simp] theorem raise_io_extest (e : EvRec) (s : State) : (raise e s).io.extest = s.io.extest := by obtain ⟨_, _, h⟩ := (raise_parts e s).io; rw [h]
@[simp] theorem raise_io_jtagDr (e : EvRec) (s : State) : (raise e s).io.jtagDr = s.io.jtagDr := by obtain ⟨_, _, h⟩ := (raise_parts e s).io; rw [h]
@[simp] theorem raise_pcie_up (e : EvRec) (s : State) : (raise e s).io.pcie.up = s.io.pcie.up := by obtain ⟨_, _, h⟩ := (raise_parts e s).io; rw [h]
@[simp] theorem raise_pcie_rate (e : EvRec) (s : State) : (raise e s).io.pcie.rate = s.io.pcie.rate := by obtain ⟨_, _, h⟩ := (raise_parts e s).io; rw [h]
@[simp] theorem raise_pcie_width (e : EvRec) (s : State) : (raise e s).io.pcie.width = s.io.pcie.width := by obtain ⟨_, _, h⟩ := (raise_parts e s).io; rw [h]
@[simp] theorem raise_pcie_d3hot (e : EvRec) (s : State) : (raise e s).io.pcie.d3hot = s.io.pcie.d3hot := by obtain ⟨_, _, h⟩ := (raise_parts e s).io; rw [h]
@[simp] theorem raise_pcie_heldReset (e : EvRec) (s : State) : (raise e s).io.pcie.heldReset = s.io.pcie.heldReset := by obtain ⟨_, _, h⟩ := (raise_parts e s).io; rw [h]
@[simp] theorem raise_pcie_counters (e : EvRec) (s : State) : (raise e s).io.pcie.counters = s.io.pcie.counters := by obtain ⟨_, _, h⟩ := (raise_parts e s).io; rw [h]
@[simp] theorem raise_pcie_jobs (e : EvRec) (s : State) : (raise e s).io.pcie.jobs = s.io.pcie.jobs := by obtain ⟨_, _, h⟩ := (raise_parts e s).io; rw [h]
@[simp] theorem raise_pcie_aer (e : EvRec) (s : State) : (raise e s).io.pcie.aer = s.io.pcie.aer := by obtain ⟨_, _, h⟩ := (raise_parts e s).io; rw [h]
@[simp] theorem raise_pcie_lastCode (e : EvRec) (s : State) : (raise e s).io.pcie.lastCode = s.io.pcie.lastCode := by obtain ⟨_, _, h⟩ := (raise_parts e s).io; rw [h]
@[simp] theorem raise_pcie_lastData (e : EvRec) (s : State) : (raise e s).io.pcie.lastData = s.io.pcie.lastData := by obtain ⟨_, _, h⟩ := (raise_parts e s).io; rw [h]
@[simp] theorem raise_cudex_owners (e : EvRec) (s : State) : (raise e s).cudex.owners = s.cudex.owners := by obtain ⟨_, _, _, _, h⟩ := (raise_parts e s).cudex; rw [h]
@[simp] theorem raise_cudex_serial (e : EvRec) (s : State) : (raise e s).cudex.serial = s.cudex.serial := by obtain ⟨_, _, _, _, h⟩ := (raise_parts e s).cudex; rw [h]
@[simp] theorem raise_cudex_mb2Region (e : EvRec) (s : State) : (raise e s).cudex.mb2Region = s.cudex.mb2Region := by obtain ⟨_, _, _, _, h⟩ := (raise_parts e s).cudex; rw [h]
@[simp] theorem raise_cudex_mb2Line (e : EvRec) (s : State) : (raise e s).cudex.mb2Line = s.cudex.mb2Line := by obtain ⟨_, _, _, _, h⟩ := (raise_parts e s).cudex; rw [h]
@[simp] theorem raise_cudex_mb2Event (e : EvRec) (s : State) : (raise e s).cudex.mb2Event = s.cudex.mb2Event := by obtain ⟨_, _, _, _, h⟩ := (raise_parts e s).cudex; rw [h]
@[simp] theorem raise_cudex_cup (e : EvRec) (s : State) : (raise e s).cudex.cup = s.cudex.cup := by obtain ⟨_, _, _, _, h⟩ := (raise_parts e s).cudex; rw [h]
@[simp] theorem raise_cudex_restarts (e : EvRec) (s : State) : (raise e s).cudex.restarts = s.cudex.restarts := by obtain ⟨_, _, _, _, h⟩ := (raise_parts e s).cudex; rw [h]
@[simp] theorem raise_cudex_heartbeat (e : EvRec) (s : State) : (raise e s).cudex.heartbeat = s.cudex.heartbeat := by obtain ⟨_, _, _, _, h⟩ := (raise_parts e s).cudex; rw [h]
@[simp] theorem raise_cudex_wdAt (e : EvRec) (s : State) : (raise e s).cudex.wdAt = s.cudex.wdAt := by obtain ⟨_, _, _, _, h⟩ := (raise_parts e s).cudex; rw [h]
@[simp] theorem raise_cudex_wdRestart (e : EvRec) (s : State) : (raise e s).cudex.wdRestart = s.cudex.wdRestart := by obtain ⟨_, _, _, _, h⟩ := (raise_parts e s).cudex; rw [h]
@[simp] theorem raise_cudex_restartWaiter (e : EvRec) (s : State) : (raise e s).cudex.restartWaiter = s.cudex.restartWaiter := by obtain ⟨_, _, _, _, h⟩ := (raise_parts e s).cudex; rw [h]
@[simp] theorem raise_cudex_logThreshold (e : EvRec) (s : State) : (raise e s).cudex.logThreshold = s.cudex.logThreshold := by obtain ⟨_, _, _, _, h⟩ := (raise_parts e s).cudex; rw [h]
@[simp] theorem raise_cudex_windows (e : EvRec) (s : State) : (raise e s).cudex.windows = s.cudex.windows := by obtain ⟨_, _, _, _, h⟩ := (raise_parts e s).cudex; rw [h]
@[simp] theorem raise_cudex_dbg (e : EvRec) (s : State) : (raise e s).cudex.dbg = s.cudex.dbg := by obtain ⟨_, _, _, _, h⟩ := (raise_parts e s).cudex; rw [h]

@[simp] theorem raiseLimited_io_vccio (e : EvRec) (c : List Nat) (s : State) : (raiseLimited e c s).io.vccio = s.io.vccio := by unfold raiseLimited; split <;> simp
@[simp] theorem raiseLimited_io_gpio (e : EvRec) (c : List Nat) (s : State) : (raiseLimited e c s).io.gpio = s.io.gpio := by unfold raiseLimited; split <;> simp
@[simp] theorem raiseLimited_io_i2cAddr (e : EvRec) (c : List Nat) (s : State) : (raiseLimited e c s).io.i2cAddr = s.io.i2cAddr := by unfold raiseLimited; split <;> simp
@[simp] theorem raiseLimited_io_nextAddr (e : EvRec) (c : List Nat) (s : State) : (raiseLimited e c s).io.nextAddr = s.io.nextAddr := by unfold raiseLimited; split <;> simp
@[simp] theorem raiseLimited_io_pec (e : EvRec) (c : List Nat) (s : State) : (raiseLimited e c s).io.pec = s.io.pec := by unfold raiseLimited; split <;> simp
@[simp] theorem raiseLimited_io_dynAddr (e : EvRec) (c : List Nat) (s : State) : (raiseLimited e c s).io.dynAddr = s.io.dynAddr := by unfold raiseLimited; split <;> simp
@[simp] theorem raiseLimited_io_pecFails (e : EvRec) (c : List Nat) (s : State) : (raiseLimited e c s).io.pecFails = s.io.pecFails := by unfold raiseLimited; split <;> simp
@[simp] theorem raiseLimited_io_mgmtOut (e : EvRec) (c : List Nat) (s : State) : (raiseLimited e c s).io.mgmtOut = s.io.mgmtOut := by unfold raiseLimited; split <;> simp
@[simp] theorem raiseLimited_io_jtagIr (e : EvRec) (c : List Nat) (s : State) : (raiseLimited e c s).io.jtagIr = s.io.jtagIr := by unfold raiseLimited; split <;> simp
@[simp] theorem raiseLimited_io_mbacc (e : EvRec) (c : List Nat) (s : State) : (raiseLimited e c s).io.mbacc = s.io.mbacc := by unfold raiseLimited; split <;> simp
@[simp] theorem raiseLimited_io_boundary (e : EvRec) (c : List Nat) (s : State) : (raiseLimited e c s).io.boundary = s.io.boundary := by unfold raiseLimited; split <;> simp
@[simp] theorem raiseLimited_io_extest (e : EvRec) (c : List Nat) (s : State) : (raiseLimited e c s).io.extest = s.io.extest := by unfold raiseLimited; split <;> simp
@[simp] theorem raiseLimited_io_jtagDr (e : EvRec) (c : List Nat) (s : State) : (raiseLimited e c s).io.jtagDr = s.io.jtagDr := by unfold raiseLimited; split <;> simp
@[simp] theorem raiseLimited_pcie_up (e : EvRec) (c : List Nat) (s : State) : (raiseLimited e c s).io.pcie.up = s.io.pcie.up := by unfold raiseLimited; split <;> simp
@[simp] theorem raiseLimited_pcie_rate (e : EvRec) (c : List Nat) (s : State) : (raiseLimited e c s).io.pcie.rate = s.io.pcie.rate := by unfold raiseLimited; split <;> simp
@[simp] theorem raiseLimited_pcie_width (e : EvRec) (c : List Nat) (s : State) : (raiseLimited e c s).io.pcie.width = s.io.pcie.width := by unfold raiseLimited; split <;> simp
@[simp] theorem raiseLimited_pcie_d3hot (e : EvRec) (c : List Nat) (s : State) : (raiseLimited e c s).io.pcie.d3hot = s.io.pcie.d3hot := by unfold raiseLimited; split <;> simp
@[simp] theorem raiseLimited_pcie_heldReset (e : EvRec) (c : List Nat) (s : State) : (raiseLimited e c s).io.pcie.heldReset = s.io.pcie.heldReset := by unfold raiseLimited; split <;> simp
@[simp] theorem raiseLimited_pcie_counters (e : EvRec) (c : List Nat) (s : State) : (raiseLimited e c s).io.pcie.counters = s.io.pcie.counters := by unfold raiseLimited; split <;> simp
@[simp] theorem raiseLimited_pcie_jobs (e : EvRec) (c : List Nat) (s : State) : (raiseLimited e c s).io.pcie.jobs = s.io.pcie.jobs := by unfold raiseLimited; split <;> simp
@[simp] theorem raiseLimited_pcie_aer (e : EvRec) (c : List Nat) (s : State) : (raiseLimited e c s).io.pcie.aer = s.io.pcie.aer := by unfold raiseLimited; split <;> simp
@[simp] theorem raiseLimited_pcie_lastCode (e : EvRec) (c : List Nat) (s : State) : (raiseLimited e c s).io.pcie.lastCode = s.io.pcie.lastCode := by unfold raiseLimited; split <;> simp
@[simp] theorem raiseLimited_pcie_lastData (e : EvRec) (c : List Nat) (s : State) : (raiseLimited e c s).io.pcie.lastData = s.io.pcie.lastData := by unfold raiseLimited; split <;> simp
@[simp] theorem raiseLimited_cudex_owners (e : EvRec) (c : List Nat) (s : State) : (raiseLimited e c s).cudex.owners = s.cudex.owners := by unfold raiseLimited; split <;> simp
@[simp] theorem raiseLimited_cudex_serial (e : EvRec) (c : List Nat) (s : State) : (raiseLimited e c s).cudex.serial = s.cudex.serial := by unfold raiseLimited; split <;> simp
@[simp] theorem raiseLimited_cudex_mb2Region (e : EvRec) (c : List Nat) (s : State) : (raiseLimited e c s).cudex.mb2Region = s.cudex.mb2Region := by unfold raiseLimited; split <;> simp
@[simp] theorem raiseLimited_cudex_mb2Line (e : EvRec) (c : List Nat) (s : State) : (raiseLimited e c s).cudex.mb2Line = s.cudex.mb2Line := by unfold raiseLimited; split <;> simp
@[simp] theorem raiseLimited_cudex_mb2Event (e : EvRec) (c : List Nat) (s : State) : (raiseLimited e c s).cudex.mb2Event = s.cudex.mb2Event := by unfold raiseLimited; split <;> simp
@[simp] theorem raiseLimited_cudex_cup (e : EvRec) (c : List Nat) (s : State) : (raiseLimited e c s).cudex.cup = s.cudex.cup := by unfold raiseLimited; split <;> simp
@[simp] theorem raiseLimited_cudex_restarts (e : EvRec) (c : List Nat) (s : State) : (raiseLimited e c s).cudex.restarts = s.cudex.restarts := by unfold raiseLimited; split <;> simp
@[simp] theorem raiseLimited_cudex_heartbeat (e : EvRec) (c : List Nat) (s : State) : (raiseLimited e c s).cudex.heartbeat = s.cudex.heartbeat := by unfold raiseLimited; split <;> simp
@[simp] theorem raiseLimited_cudex_wdAt (e : EvRec) (c : List Nat) (s : State) : (raiseLimited e c s).cudex.wdAt = s.cudex.wdAt := by unfold raiseLimited; split <;> simp
@[simp] theorem raiseLimited_cudex_wdRestart (e : EvRec) (c : List Nat) (s : State) : (raiseLimited e c s).cudex.wdRestart = s.cudex.wdRestart := by unfold raiseLimited; split <;> simp
@[simp] theorem raiseLimited_cudex_restartWaiter (e : EvRec) (c : List Nat) (s : State) : (raiseLimited e c s).cudex.restartWaiter = s.cudex.restartWaiter := by unfold raiseLimited; split <;> simp
@[simp] theorem raiseLimited_cudex_logThreshold (e : EvRec) (c : List Nat) (s : State) : (raiseLimited e c s).cudex.logThreshold = s.cudex.logThreshold := by unfold raiseLimited; split <;> simp
@[simp] theorem raiseLimited_cudex_dbg (e : EvRec) (c : List Nat) (s : State) : (raiseLimited e c s).cudex.dbg = s.cudex.dbg := by unfold raiseLimited; split <;> simp

@[simp] theorem postResponse_io_vccio (p : Port) (sl : Fin 4) (st tick : Nat) (res : Results) (s : State) : (postResponse p sl st tick res s).io.vccio = s.io.vccio := by unfold postResponse; dsimp only; cases (p == .mb0) <;> simp [onlyIf]
@[simp] theorem postResponse_io_gpio (p : Port) (sl : Fin 4) (st tick : Nat) (res : Results) (s : State) : (postResponse p sl st tick res s).io.gpio = s.io.gpio := by unfold postResponse; dsimp only; cases (p == .mb0) <;> simp [onlyIf]
@[simp] theorem postResponse_io_i2cAddr (p : Port) (sl : Fin 4) (st tick : Nat) (res : Results) (s : State) : (postResponse p sl st tick res s).io.i2cAddr = s.io.i2cAddr := by unfold postResponse; dsimp only; cases (p == .mb0) <;> simp [onlyIf]
@[simp] theorem postResponse_io_nextAddr (p : Port) (sl : Fin 4) (st tick : Nat) (res : Results) (s : State) : (postResponse p sl st tick res s).io.nextAddr = s.io.nextAddr := by unfold postResponse; dsimp only; cases (p == .mb0) <;> simp [onlyIf]
@[simp] theorem postResponse_io_pec (p : Port) (sl : Fin 4) (st tick : Nat) (res : Results) (s : State) : (postResponse p sl st tick res s).io.pec = s.io.pec := by unfold postResponse; dsimp only; cases (p == .mb0) <;> simp [onlyIf]
@[simp] theorem postResponse_io_dynAddr (p : Port) (sl : Fin 4) (st tick : Nat) (res : Results) (s : State) : (postResponse p sl st tick res s).io.dynAddr = s.io.dynAddr := by unfold postResponse; dsimp only; cases (p == .mb0) <;> simp [onlyIf]
@[simp] theorem postResponse_io_pecFails (p : Port) (sl : Fin 4) (st tick : Nat) (res : Results) (s : State) : (postResponse p sl st tick res s).io.pecFails = s.io.pecFails := by unfold postResponse; dsimp only; cases (p == .mb0) <;> simp [onlyIf]
@[simp] theorem postResponse_io_mgmtOut (p : Port) (sl : Fin 4) (st tick : Nat) (res : Results) (s : State) : (postResponse p sl st tick res s).io.mgmtOut = s.io.mgmtOut := by unfold postResponse; dsimp only; cases (p == .mb0) <;> simp [onlyIf]
@[simp] theorem postResponse_io_jtagIr (p : Port) (sl : Fin 4) (st tick : Nat) (res : Results) (s : State) : (postResponse p sl st tick res s).io.jtagIr = s.io.jtagIr := by unfold postResponse; dsimp only; cases (p == .mb0) <;> simp [onlyIf]
@[simp] theorem postResponse_io_mbacc (p : Port) (sl : Fin 4) (st tick : Nat) (res : Results) (s : State) : (postResponse p sl st tick res s).io.mbacc = s.io.mbacc := by unfold postResponse; dsimp only; cases (p == .mb0) <;> simp [onlyIf]
@[simp] theorem postResponse_io_boundary (p : Port) (sl : Fin 4) (st tick : Nat) (res : Results) (s : State) : (postResponse p sl st tick res s).io.boundary = s.io.boundary := by unfold postResponse; dsimp only; cases (p == .mb0) <;> simp [onlyIf]
@[simp] theorem postResponse_io_extest (p : Port) (sl : Fin 4) (st tick : Nat) (res : Results) (s : State) : (postResponse p sl st tick res s).io.extest = s.io.extest := by unfold postResponse; dsimp only; cases (p == .mb0) <;> simp [onlyIf]
@[simp] theorem postResponse_io_jtagDr (p : Port) (sl : Fin 4) (st tick : Nat) (res : Results) (s : State) : (postResponse p sl st tick res s).io.jtagDr = s.io.jtagDr := by unfold postResponse; dsimp only; cases (p == .mb0) <;> simp [onlyIf]
@[simp] theorem postResponse_pcie_up (p : Port) (sl : Fin 4) (st tick : Nat) (res : Results) (s : State) : (postResponse p sl st tick res s).io.pcie.up = s.io.pcie.up := by unfold postResponse; dsimp only; cases (p == .mb0) <;> simp [onlyIf]
@[simp] theorem postResponse_pcie_rate (p : Port) (sl : Fin 4) (st tick : Nat) (res : Results) (s : State) : (postResponse p sl st tick res s).io.pcie.rate = s.io.pcie.rate := by unfold postResponse; dsimp only; cases (p == .mb0) <;> simp [onlyIf]
@[simp] theorem postResponse_pcie_width (p : Port) (sl : Fin 4) (st tick : Nat) (res : Results) (s : State) : (postResponse p sl st tick res s).io.pcie.width = s.io.pcie.width := by unfold postResponse; dsimp only; cases (p == .mb0) <;> simp [onlyIf]
@[simp] theorem postResponse_pcie_d3hot (p : Port) (sl : Fin 4) (st tick : Nat) (res : Results) (s : State) : (postResponse p sl st tick res s).io.pcie.d3hot = s.io.pcie.d3hot := by unfold postResponse; dsimp only; cases (p == .mb0) <;> simp [onlyIf]
@[simp] theorem postResponse_pcie_heldReset (p : Port) (sl : Fin 4) (st tick : Nat) (res : Results) (s : State) : (postResponse p sl st tick res s).io.pcie.heldReset = s.io.pcie.heldReset := by unfold postResponse; dsimp only; cases (p == .mb0) <;> simp [onlyIf]
@[simp] theorem postResponse_pcie_counters (p : Port) (sl : Fin 4) (st tick : Nat) (res : Results) (s : State) : (postResponse p sl st tick res s).io.pcie.counters = s.io.pcie.counters := by unfold postResponse; dsimp only; cases (p == .mb0) <;> simp [onlyIf]
@[simp] theorem postResponse_pcie_jobs (p : Port) (sl : Fin 4) (st tick : Nat) (res : Results) (s : State) : (postResponse p sl st tick res s).io.pcie.jobs = s.io.pcie.jobs := by unfold postResponse; dsimp only; cases (p == .mb0) <;> simp [onlyIf]
@[simp] theorem postResponse_pcie_aer (p : Port) (sl : Fin 4) (st tick : Nat) (res : Results) (s : State) : (postResponse p sl st tick res s).io.pcie.aer = s.io.pcie.aer := by unfold postResponse; dsimp only; cases (p == .mb0) <;> simp [onlyIf]
@[simp] theorem postResponse_pcie_lastCode (p : Port) (sl : Fin 4) (st tick : Nat) (res : Results) (s : State) : (postResponse p sl st tick res s).io.pcie.lastCode = s.io.pcie.lastCode := by unfold postResponse; dsimp only; cases (p == .mb0) <;> simp [onlyIf]
@[simp] theorem postResponse_pcie_lastData (p : Port) (sl : Fin 4) (st tick : Nat) (res : Results) (s : State) : (postResponse p sl st tick res s).io.pcie.lastData = s.io.pcie.lastData := by unfold postResponse; dsimp only; cases (p == .mb0) <;> simp [onlyIf]
@[simp] theorem postResponse_cudex_owners (p : Port) (sl : Fin 4) (st tick : Nat) (res : Results) (s : State) : (postResponse p sl st tick res s).cudex.owners = s.cudex.owners := by unfold postResponse; dsimp only; cases (p == .mb0) <;> simp [onlyIf, modSlot]
@[simp] theorem postResponse_cudex_serial (p : Port) (sl : Fin 4) (st tick : Nat) (res : Results) (s : State) : (postResponse p sl st tick res s).cudex.serial = s.cudex.serial := by unfold postResponse; dsimp only; cases (p == .mb0) <;> simp [onlyIf, modSlot]
@[simp] theorem postResponse_cudex_mb2Region (p : Port) (sl : Fin 4) (st tick : Nat) (res : Results) (s : State) : (postResponse p sl st tick res s).cudex.mb2Region = s.cudex.mb2Region := by unfold postResponse; dsimp only; cases (p == .mb0) <;> simp [onlyIf, modSlot]
@[simp] theorem postResponse_cudex_mb2Line (p : Port) (sl : Fin 4) (st tick : Nat) (res : Results) (s : State) : (postResponse p sl st tick res s).cudex.mb2Line = s.cudex.mb2Line := by unfold postResponse; dsimp only; cases (p == .mb0) <;> simp [onlyIf, modSlot]
@[simp] theorem postResponse_cudex_mb2Event (p : Port) (sl : Fin 4) (st tick : Nat) (res : Results) (s : State) : (postResponse p sl st tick res s).cudex.mb2Event = s.cudex.mb2Event := by unfold postResponse; dsimp only; cases (p == .mb0) <;> simp [onlyIf, modSlot]
@[simp] theorem postResponse_cudex_cup (p : Port) (sl : Fin 4) (st tick : Nat) (res : Results) (s : State) : (postResponse p sl st tick res s).cudex.cup = s.cudex.cup := by unfold postResponse; dsimp only; cases (p == .mb0) <;> simp [onlyIf, modSlot]
@[simp] theorem postResponse_cudex_restarts (p : Port) (sl : Fin 4) (st tick : Nat) (res : Results) (s : State) : (postResponse p sl st tick res s).cudex.restarts = s.cudex.restarts := by unfold postResponse; dsimp only; cases (p == .mb0) <;> simp [onlyIf, modSlot]
@[simp] theorem postResponse_cudex_heartbeat (p : Port) (sl : Fin 4) (st tick : Nat) (res : Results) (s : State) : (postResponse p sl st tick res s).cudex.heartbeat = s.cudex.heartbeat := by unfold postResponse; dsimp only; cases (p == .mb0) <;> simp [onlyIf, modSlot]
@[simp] theorem postResponse_cudex_wdAt (p : Port) (sl : Fin 4) (st tick : Nat) (res : Results) (s : State) : (postResponse p sl st tick res s).cudex.wdAt = s.cudex.wdAt := by unfold postResponse; dsimp only; cases (p == .mb0) <;> simp [onlyIf, modSlot]
@[simp] theorem postResponse_cudex_wdRestart (p : Port) (sl : Fin 4) (st tick : Nat) (res : Results) (s : State) : (postResponse p sl st tick res s).cudex.wdRestart = s.cudex.wdRestart := by unfold postResponse; dsimp only; cases (p == .mb0) <;> simp [onlyIf, modSlot]
@[simp] theorem postResponse_cudex_restartWaiter (p : Port) (sl : Fin 4) (st tick : Nat) (res : Results) (s : State) : (postResponse p sl st tick res s).cudex.restartWaiter = s.cudex.restartWaiter := by unfold postResponse; dsimp only; cases (p == .mb0) <;> simp [onlyIf, modSlot]
@[simp] theorem postResponse_cudex_logThreshold (p : Port) (sl : Fin 4) (st tick : Nat) (res : Results) (s : State) : (postResponse p sl st tick res s).cudex.logThreshold = s.cudex.logThreshold := by unfold postResponse; dsimp only; cases (p == .mb0) <;> simp [onlyIf, modSlot]
@[simp] theorem postResponse_cudex_windows (p : Port) (sl : Fin 4) (st tick : Nat) (res : Results) (s : State) : (postResponse p sl st tick res s).cudex.windows = s.cudex.windows := by unfold postResponse; dsimp only; cases (p == .mb0) <;> simp [onlyIf, modSlot]
@[simp] theorem postResponse_cudex_dbg (p : Port) (sl : Fin 4) (st tick : Nat) (res : Results) (s : State) : (postResponse p sl st tick res s).cudex.dbg = s.cudex.dbg := by unfold postResponse; dsimp only; cases (p == .mb0) <;> simp [onlyIf, modSlot]

@[simp] theorem replyAt_io_vccio (w : Waiter) (st tick : Nat) (res : Results) (s : State) : (replyAt w st tick res s).io.vccio = s.io.vccio := by unfold replyAt; dsimp only; split <;> simp
@[simp] theorem replyAt_io_gpio (w : Waiter) (st tick : Nat) (res : Results) (s : State) : (replyAt w st tick res s).io.gpio = s.io.gpio := by unfold replyAt; dsimp only; split <;> simp
@[simp] theorem replyAt_io_i2cAddr (w : Waiter) (st tick : Nat) (res : Results) (s : State) : (replyAt w st tick res s).io.i2cAddr = s.io.i2cAddr := by unfold replyAt; dsimp only; split <;> simp
@[simp] theorem replyAt_io_nextAddr (w : Waiter) (st tick : Nat) (res : Results) (s : State) : (replyAt w st tick res s).io.nextAddr = s.io.nextAddr := by unfold replyAt; dsimp only; split <;> simp
@[simp] theorem replyAt_io_pec (w : Waiter) (st tick : Nat) (res : Results) (s : State) : (replyAt w st tick res s).io.pec = s.io.pec := by unfold replyAt; dsimp only; split <;> simp
@[simp] theorem replyAt_io_dynAddr (w : Waiter) (st tick : Nat) (res : Results) (s : State) : (replyAt w st tick res s).io.dynAddr = s.io.dynAddr := by unfold replyAt; dsimp only; split <;> simp
@[simp] theorem replyAt_io_pecFails (w : Waiter) (st tick : Nat) (res : Results) (s : State) : (replyAt w st tick res s).io.pecFails = s.io.pecFails := by unfold replyAt; dsimp only; split <;> simp
@[simp] theorem replyAt_io_mgmtOut (w : Waiter) (st tick : Nat) (res : Results) (s : State) : (replyAt w st tick res s).io.mgmtOut = s.io.mgmtOut := by unfold replyAt; dsimp only; split <;> simp
@[simp] theorem replyAt_io_jtagIr (w : Waiter) (st tick : Nat) (res : Results) (s : State) : (replyAt w st tick res s).io.jtagIr = s.io.jtagIr := by unfold replyAt; dsimp only; split <;> simp
@[simp] theorem replyAt_io_mbacc (w : Waiter) (st tick : Nat) (res : Results) (s : State) : (replyAt w st tick res s).io.mbacc = s.io.mbacc := by unfold replyAt; dsimp only; split <;> simp
@[simp] theorem replyAt_io_boundary (w : Waiter) (st tick : Nat) (res : Results) (s : State) : (replyAt w st tick res s).io.boundary = s.io.boundary := by unfold replyAt; dsimp only; split <;> simp
@[simp] theorem replyAt_io_extest (w : Waiter) (st tick : Nat) (res : Results) (s : State) : (replyAt w st tick res s).io.extest = s.io.extest := by unfold replyAt; dsimp only; split <;> simp
@[simp] theorem replyAt_io_jtagDr (w : Waiter) (st tick : Nat) (res : Results) (s : State) : (replyAt w st tick res s).io.jtagDr = s.io.jtagDr := by unfold replyAt; dsimp only; split <;> simp
@[simp] theorem replyAt_pcie_up (w : Waiter) (st tick : Nat) (res : Results) (s : State) : (replyAt w st tick res s).io.pcie.up = s.io.pcie.up := by unfold replyAt; dsimp only; split <;> simp
@[simp] theorem replyAt_pcie_rate (w : Waiter) (st tick : Nat) (res : Results) (s : State) : (replyAt w st tick res s).io.pcie.rate = s.io.pcie.rate := by unfold replyAt; dsimp only; split <;> simp
@[simp] theorem replyAt_pcie_width (w : Waiter) (st tick : Nat) (res : Results) (s : State) : (replyAt w st tick res s).io.pcie.width = s.io.pcie.width := by unfold replyAt; dsimp only; split <;> simp
@[simp] theorem replyAt_pcie_d3hot (w : Waiter) (st tick : Nat) (res : Results) (s : State) : (replyAt w st tick res s).io.pcie.d3hot = s.io.pcie.d3hot := by unfold replyAt; dsimp only; split <;> simp
@[simp] theorem replyAt_pcie_heldReset (w : Waiter) (st tick : Nat) (res : Results) (s : State) : (replyAt w st tick res s).io.pcie.heldReset = s.io.pcie.heldReset := by unfold replyAt; dsimp only; split <;> simp
@[simp] theorem replyAt_pcie_counters (w : Waiter) (st tick : Nat) (res : Results) (s : State) : (replyAt w st tick res s).io.pcie.counters = s.io.pcie.counters := by unfold replyAt; dsimp only; split <;> simp
@[simp] theorem replyAt_pcie_jobs (w : Waiter) (st tick : Nat) (res : Results) (s : State) : (replyAt w st tick res s).io.pcie.jobs = s.io.pcie.jobs := by unfold replyAt; dsimp only; split <;> simp
@[simp] theorem replyAt_pcie_aer (w : Waiter) (st tick : Nat) (res : Results) (s : State) : (replyAt w st tick res s).io.pcie.aer = s.io.pcie.aer := by unfold replyAt; dsimp only; split <;> simp
@[simp] theorem replyAt_pcie_lastCode (w : Waiter) (st tick : Nat) (res : Results) (s : State) : (replyAt w st tick res s).io.pcie.lastCode = s.io.pcie.lastCode := by unfold replyAt; dsimp only; split <;> simp
@[simp] theorem replyAt_pcie_lastData (w : Waiter) (st tick : Nat) (res : Results) (s : State) : (replyAt w st tick res s).io.pcie.lastData = s.io.pcie.lastData := by unfold replyAt; dsimp only; split <;> simp
@[simp] theorem replyAt_cudex_owners (w : Waiter) (st tick : Nat) (res : Results) (s : State) : (replyAt w st tick res s).cudex.owners = s.cudex.owners := by unfold replyAt; dsimp only; split <;> simp
@[simp] theorem replyAt_cudex_serial (w : Waiter) (st tick : Nat) (res : Results) (s : State) : (replyAt w st tick res s).cudex.serial = s.cudex.serial := by unfold replyAt; dsimp only; split <;> simp
@[simp] theorem replyAt_cudex_mb2Region (w : Waiter) (st tick : Nat) (res : Results) (s : State) : (replyAt w st tick res s).cudex.mb2Region = s.cudex.mb2Region := by unfold replyAt; dsimp only; split <;> simp
@[simp] theorem replyAt_cudex_mb2Line (w : Waiter) (st tick : Nat) (res : Results) (s : State) : (replyAt w st tick res s).cudex.mb2Line = s.cudex.mb2Line := by unfold replyAt; dsimp only; split <;> simp
@[simp] theorem replyAt_cudex_mb2Event (w : Waiter) (st tick : Nat) (res : Results) (s : State) : (replyAt w st tick res s).cudex.mb2Event = s.cudex.mb2Event := by unfold replyAt; dsimp only; split <;> simp
@[simp] theorem replyAt_cudex_cup (w : Waiter) (st tick : Nat) (res : Results) (s : State) : (replyAt w st tick res s).cudex.cup = s.cudex.cup := by unfold replyAt; dsimp only; split <;> simp
@[simp] theorem replyAt_cudex_restarts (w : Waiter) (st tick : Nat) (res : Results) (s : State) : (replyAt w st tick res s).cudex.restarts = s.cudex.restarts := by unfold replyAt; dsimp only; split <;> simp
@[simp] theorem replyAt_cudex_heartbeat (w : Waiter) (st tick : Nat) (res : Results) (s : State) : (replyAt w st tick res s).cudex.heartbeat = s.cudex.heartbeat := by unfold replyAt; dsimp only; split <;> simp
@[simp] theorem replyAt_cudex_wdAt (w : Waiter) (st tick : Nat) (res : Results) (s : State) : (replyAt w st tick res s).cudex.wdAt = s.cudex.wdAt := by unfold replyAt; dsimp only; split <;> simp
@[simp] theorem replyAt_cudex_wdRestart (w : Waiter) (st tick : Nat) (res : Results) (s : State) : (replyAt w st tick res s).cudex.wdRestart = s.cudex.wdRestart := by unfold replyAt; dsimp only; split <;> simp
@[simp] theorem replyAt_cudex_restartWaiter (w : Waiter) (st tick : Nat) (res : Results) (s : State) : (replyAt w st tick res s).cudex.restartWaiter = s.cudex.restartWaiter := by unfold replyAt; dsimp only; split <;> simp
@[simp] theorem replyAt_cudex_logThreshold (w : Waiter) (st tick : Nat) (res : Results) (s : State) : (replyAt w st tick res s).cudex.logThreshold = s.cudex.logThreshold := by unfold replyAt; dsimp only; split <;> simp
@[simp] theorem replyAt_cudex_windows (w : Waiter) (st tick : Nat) (res : Results) (s : State) : (replyAt w st tick res s).cudex.windows = s.cudex.windows := by unfold replyAt; dsimp only; split <;> simp
@[simp] theorem replyAt_cudex_dbg (w : Waiter) (st tick : Nat) (res : Results) (s : State) : (replyAt w st tick res s).cudex.dbg = s.cudex.dbg := by unfold replyAt; dsimp only; split <;> simp

@[simp] theorem reply_io_vccio (w : Waiter) (st : Nat) (res : Results) (s : State) : (reply w st res s).io.vccio = s.io.vccio := by simp [reply]
@[simp] theorem reply_io_gpio (w : Waiter) (st : Nat) (res : Results) (s : State) : (reply w st res s).io.gpio = s.io.gpio := by simp [reply]
@[simp] theorem reply_io_i2cAddr (w : Waiter) (st : Nat) (res : Results) (s : State) : (reply w st res s).io.i2cAddr = s.io.i2cAddr := by simp [reply]
@[simp] theorem reply_io_nextAddr (w : Waiter) (st : Nat) (res : Results) (s : State) : (reply w st res s).io.nextAddr = s.io.nextAddr := by simp [reply]
@[simp] theorem reply_io_pec (w : Waiter) (st : Nat) (res : Results) (s : State) : (reply w st res s).io.pec = s.io.pec := by simp [reply]
@[simp] theorem reply_io_dynAddr (w : Waiter) (st : Nat) (res : Results) (s : State) : (reply w st res s).io.dynAddr = s.io.dynAddr := by simp [reply]
@[simp] theorem reply_io_pecFails (w : Waiter) (st : Nat) (res : Results) (s : State) : (reply w st res s).io.pecFails = s.io.pecFails := by simp [reply]
@[simp] theorem reply_io_mgmtOut (w : Waiter) (st : Nat) (res : Results) (s : State) : (reply w st res s).io.mgmtOut = s.io.mgmtOut := by simp [reply]
@[simp] theorem reply_io_jtagIr (w : Waiter) (st : Nat) (res : Results) (s : State) : (reply w st res s).io.jtagIr = s.io.jtagIr := by simp [reply]
@[simp] theorem reply_io_mbacc (w : Waiter) (st : Nat) (res : Results) (s : State) : (reply w st res s).io.mbacc = s.io.mbacc := by simp [reply]
@[simp] theorem reply_io_boundary (w : Waiter) (st : Nat) (res : Results) (s : State) : (reply w st res s).io.boundary = s.io.boundary := by simp [reply]
@[simp] theorem reply_io_extest (w : Waiter) (st : Nat) (res : Results) (s : State) : (reply w st res s).io.extest = s.io.extest := by simp [reply]
@[simp] theorem reply_io_jtagDr (w : Waiter) (st : Nat) (res : Results) (s : State) : (reply w st res s).io.jtagDr = s.io.jtagDr := by simp [reply]
@[simp] theorem reply_pcie_up (w : Waiter) (st : Nat) (res : Results) (s : State) : (reply w st res s).io.pcie.up = s.io.pcie.up := by simp [reply]
@[simp] theorem reply_pcie_rate (w : Waiter) (st : Nat) (res : Results) (s : State) : (reply w st res s).io.pcie.rate = s.io.pcie.rate := by simp [reply]
@[simp] theorem reply_pcie_width (w : Waiter) (st : Nat) (res : Results) (s : State) : (reply w st res s).io.pcie.width = s.io.pcie.width := by simp [reply]
@[simp] theorem reply_pcie_d3hot (w : Waiter) (st : Nat) (res : Results) (s : State) : (reply w st res s).io.pcie.d3hot = s.io.pcie.d3hot := by simp [reply]
@[simp] theorem reply_pcie_heldReset (w : Waiter) (st : Nat) (res : Results) (s : State) : (reply w st res s).io.pcie.heldReset = s.io.pcie.heldReset := by simp [reply]
@[simp] theorem reply_pcie_counters (w : Waiter) (st : Nat) (res : Results) (s : State) : (reply w st res s).io.pcie.counters = s.io.pcie.counters := by simp [reply]
@[simp] theorem reply_pcie_jobs (w : Waiter) (st : Nat) (res : Results) (s : State) : (reply w st res s).io.pcie.jobs = s.io.pcie.jobs := by simp [reply]
@[simp] theorem reply_pcie_aer (w : Waiter) (st : Nat) (res : Results) (s : State) : (reply w st res s).io.pcie.aer = s.io.pcie.aer := by simp [reply]
@[simp] theorem reply_pcie_lastCode (w : Waiter) (st : Nat) (res : Results) (s : State) : (reply w st res s).io.pcie.lastCode = s.io.pcie.lastCode := by simp [reply]
@[simp] theorem reply_pcie_lastData (w : Waiter) (st : Nat) (res : Results) (s : State) : (reply w st res s).io.pcie.lastData = s.io.pcie.lastData := by simp [reply]
@[simp] theorem reply_cudex_owners (w : Waiter) (st : Nat) (res : Results) (s : State) : (reply w st res s).cudex.owners = s.cudex.owners := by simp [reply]
@[simp] theorem reply_cudex_serial (w : Waiter) (st : Nat) (res : Results) (s : State) : (reply w st res s).cudex.serial = s.cudex.serial := by simp [reply]
@[simp] theorem reply_cudex_mb2Region (w : Waiter) (st : Nat) (res : Results) (s : State) : (reply w st res s).cudex.mb2Region = s.cudex.mb2Region := by simp [reply]
@[simp] theorem reply_cudex_mb2Line (w : Waiter) (st : Nat) (res : Results) (s : State) : (reply w st res s).cudex.mb2Line = s.cudex.mb2Line := by simp [reply]
@[simp] theorem reply_cudex_mb2Event (w : Waiter) (st : Nat) (res : Results) (s : State) : (reply w st res s).cudex.mb2Event = s.cudex.mb2Event := by simp [reply]
@[simp] theorem reply_cudex_cup (w : Waiter) (st : Nat) (res : Results) (s : State) : (reply w st res s).cudex.cup = s.cudex.cup := by simp [reply]
@[simp] theorem reply_cudex_restarts (w : Waiter) (st : Nat) (res : Results) (s : State) : (reply w st res s).cudex.restarts = s.cudex.restarts := by simp [reply]
@[simp] theorem reply_cudex_heartbeat (w : Waiter) (st : Nat) (res : Results) (s : State) : (reply w st res s).cudex.heartbeat = s.cudex.heartbeat := by simp [reply]
@[simp] theorem reply_cudex_wdAt (w : Waiter) (st : Nat) (res : Results) (s : State) : (reply w st res s).cudex.wdAt = s.cudex.wdAt := by simp [reply]
@[simp] theorem reply_cudex_wdRestart (w : Waiter) (st : Nat) (res : Results) (s : State) : (reply w st res s).cudex.wdRestart = s.cudex.wdRestart := by simp [reply]
@[simp] theorem reply_cudex_restartWaiter (w : Waiter) (st : Nat) (res : Results) (s : State) : (reply w st res s).cudex.restartWaiter = s.cudex.restartWaiter := by simp [reply]
@[simp] theorem reply_cudex_logThreshold (w : Waiter) (st : Nat) (res : Results) (s : State) : (reply w st res s).cudex.logThreshold = s.cudex.logThreshold := by simp [reply]
@[simp] theorem reply_cudex_windows (w : Waiter) (st : Nat) (res : Results) (s : State) : (reply w st res s).cudex.windows = s.cudex.windows := by simp [reply]
@[simp] theorem reply_cudex_dbg (w : Waiter) (st : Nat) (res : Results) (s : State) : (reply w st res s).cudex.dbg = s.cudex.dbg := by simp [reply]

@[simp] theorem replyOpt_io_vccio (w : Option Waiter) (st : Nat) (res : Results) (s : State) : (replyOpt w st res s).io.vccio = s.io.vccio := by unfold replyOpt; split <;> simp
@[simp] theorem replyOpt_io_gpio (w : Option Waiter) (st : Nat) (res : Results) (s : State) : (replyOpt w st res s).io.gpio = s.io.gpio := by unfold replyOpt; split <;> simp
@[simp] theorem replyOpt_io_i2cAddr (w : Option Waiter) (st : Nat) (res : Results) (s : State) : (replyOpt w st res s).io.i2cAddr = s.io.i2cAddr := by unfold replyOpt; split <;> simp
@[simp] theorem replyOpt_io_nextAddr (w : Option Waiter) (st : Nat) (res : Results) (s : State) : (replyOpt w st res s).io.nextAddr = s.io.nextAddr := by unfold replyOpt; split <;> simp
@[simp] theorem replyOpt_io_pec (w : Option Waiter) (st : Nat) (res : Results) (s : State) : (replyOpt w st res s).io.pec = s.io.pec := by unfold replyOpt; split <;> simp
@[simp] theorem replyOpt_io_dynAddr (w : Option Waiter) (st : Nat) (res : Results) (s : State) : (replyOpt w st res s).io.dynAddr = s.io.dynAddr := by unfold replyOpt; split <;> simp
@[simp] theorem replyOpt_io_pecFails (w : Option Waiter) (st : Nat) (res : Results) (s : State) : (replyOpt w st res s).io.pecFails = s.io.pecFails := by unfold replyOpt; split <;> simp
@[simp] theorem replyOpt_io_mgmtOut (w : Option Waiter) (st : Nat) (res : Results) (s : State) : (replyOpt w st res s).io.mgmtOut = s.io.mgmtOut := by unfold replyOpt; split <;> simp
@[simp] theorem replyOpt_io_jtagIr (w : Option Waiter) (st : Nat) (res : Results) (s : State) : (replyOpt w st res s).io.jtagIr = s.io.jtagIr := by unfold replyOpt; split <;> simp
@[simp] theorem replyOpt_io_mbacc (w : Option Waiter) (st : Nat) (res : Results) (s : State) : (replyOpt w st res s).io.mbacc = s.io.mbacc := by unfold replyOpt; split <;> simp
@[simp] theorem replyOpt_io_boundary (w : Option Waiter) (st : Nat) (res : Results) (s : State) : (replyOpt w st res s).io.boundary = s.io.boundary := by unfold replyOpt; split <;> simp
@[simp] theorem replyOpt_io_extest (w : Option Waiter) (st : Nat) (res : Results) (s : State) : (replyOpt w st res s).io.extest = s.io.extest := by unfold replyOpt; split <;> simp
@[simp] theorem replyOpt_io_jtagDr (w : Option Waiter) (st : Nat) (res : Results) (s : State) : (replyOpt w st res s).io.jtagDr = s.io.jtagDr := by unfold replyOpt; split <;> simp
@[simp] theorem replyOpt_pcie_up (w : Option Waiter) (st : Nat) (res : Results) (s : State) : (replyOpt w st res s).io.pcie.up = s.io.pcie.up := by unfold replyOpt; split <;> simp
@[simp] theorem replyOpt_pcie_rate (w : Option Waiter) (st : Nat) (res : Results) (s : State) : (replyOpt w st res s).io.pcie.rate = s.io.pcie.rate := by unfold replyOpt; split <;> simp
@[simp] theorem replyOpt_pcie_width (w : Option Waiter) (st : Nat) (res : Results) (s : State) : (replyOpt w st res s).io.pcie.width = s.io.pcie.width := by unfold replyOpt; split <;> simp
@[simp] theorem replyOpt_pcie_d3hot (w : Option Waiter) (st : Nat) (res : Results) (s : State) : (replyOpt w st res s).io.pcie.d3hot = s.io.pcie.d3hot := by unfold replyOpt; split <;> simp
@[simp] theorem replyOpt_pcie_heldReset (w : Option Waiter) (st : Nat) (res : Results) (s : State) : (replyOpt w st res s).io.pcie.heldReset = s.io.pcie.heldReset := by unfold replyOpt; split <;> simp
@[simp] theorem replyOpt_pcie_counters (w : Option Waiter) (st : Nat) (res : Results) (s : State) : (replyOpt w st res s).io.pcie.counters = s.io.pcie.counters := by unfold replyOpt; split <;> simp
@[simp] theorem replyOpt_pcie_jobs (w : Option Waiter) (st : Nat) (res : Results) (s : State) : (replyOpt w st res s).io.pcie.jobs = s.io.pcie.jobs := by unfold replyOpt; split <;> simp
@[simp] theorem replyOpt_pcie_aer (w : Option Waiter) (st : Nat) (res : Results) (s : State) : (replyOpt w st res s).io.pcie.aer = s.io.pcie.aer := by unfold replyOpt; split <;> simp
@[simp] theorem replyOpt_pcie_lastCode (w : Option Waiter) (st : Nat) (res : Results) (s : State) : (replyOpt w st res s).io.pcie.lastCode = s.io.pcie.lastCode := by unfold replyOpt; split <;> simp
@[simp] theorem replyOpt_pcie_lastData (w : Option Waiter) (st : Nat) (res : Results) (s : State) : (replyOpt w st res s).io.pcie.lastData = s.io.pcie.lastData := by unfold replyOpt; split <;> simp
@[simp] theorem replyOpt_cudex_owners (w : Option Waiter) (st : Nat) (res : Results) (s : State) : (replyOpt w st res s).cudex.owners = s.cudex.owners := by unfold replyOpt; split <;> simp
@[simp] theorem replyOpt_cudex_serial (w : Option Waiter) (st : Nat) (res : Results) (s : State) : (replyOpt w st res s).cudex.serial = s.cudex.serial := by unfold replyOpt; split <;> simp
@[simp] theorem replyOpt_cudex_mb2Region (w : Option Waiter) (st : Nat) (res : Results) (s : State) : (replyOpt w st res s).cudex.mb2Region = s.cudex.mb2Region := by unfold replyOpt; split <;> simp
@[simp] theorem replyOpt_cudex_mb2Line (w : Option Waiter) (st : Nat) (res : Results) (s : State) : (replyOpt w st res s).cudex.mb2Line = s.cudex.mb2Line := by unfold replyOpt; split <;> simp
@[simp] theorem replyOpt_cudex_mb2Event (w : Option Waiter) (st : Nat) (res : Results) (s : State) : (replyOpt w st res s).cudex.mb2Event = s.cudex.mb2Event := by unfold replyOpt; split <;> simp
@[simp] theorem replyOpt_cudex_cup (w : Option Waiter) (st : Nat) (res : Results) (s : State) : (replyOpt w st res s).cudex.cup = s.cudex.cup := by unfold replyOpt; split <;> simp
@[simp] theorem replyOpt_cudex_restarts (w : Option Waiter) (st : Nat) (res : Results) (s : State) : (replyOpt w st res s).cudex.restarts = s.cudex.restarts := by unfold replyOpt; split <;> simp
@[simp] theorem replyOpt_cudex_heartbeat (w : Option Waiter) (st : Nat) (res : Results) (s : State) : (replyOpt w st res s).cudex.heartbeat = s.cudex.heartbeat := by unfold replyOpt; split <;> simp
@[simp] theorem replyOpt_cudex_wdAt (w : Option Waiter) (st : Nat) (res : Results) (s : State) : (replyOpt w st res s).cudex.wdAt = s.cudex.wdAt := by unfold replyOpt; split <;> simp
@[simp] theorem replyOpt_cudex_wdRestart (w : Option Waiter) (st : Nat) (res : Results) (s : State) : (replyOpt w st res s).cudex.wdRestart = s.cudex.wdRestart := by unfold replyOpt; split <;> simp
@[simp] theorem replyOpt_cudex_restartWaiter (w : Option Waiter) (st : Nat) (res : Results) (s : State) : (replyOpt w st res s).cudex.restartWaiter = s.cudex.restartWaiter := by unfold replyOpt; split <;> simp
@[simp] theorem replyOpt_cudex_logThreshold (w : Option Waiter) (st : Nat) (res : Results) (s : State) : (replyOpt w st res s).cudex.logThreshold = s.cudex.logThreshold := by unfold replyOpt; split <;> simp
@[simp] theorem replyOpt_cudex_windows (w : Option Waiter) (st : Nat) (res : Results) (s : State) : (replyOpt w st res s).cudex.windows = s.cudex.windows := by unfold replyOpt; split <;> simp
@[simp] theorem replyOpt_cudex_dbg (w : Option Waiter) (st : Nat) (res : Results) (s : State) : (replyOpt w st res s).cudex.dbg = s.cudex.dbg := by unfold replyOpt; split <;> simp

@[simp] theorem settleMode_io_vccio (c : Nat) (s : State) : (settleMode c s).io.vccio = s.io.vccio := by unfold settleMode; dsimp only; split <;> simp
@[simp] theorem settleMode_io_gpio (c : Nat) (s : State) : (settleMode c s).io.gpio = s.io.gpio := by unfold settleMode; dsimp only; split <;> simp
@[simp] theorem settleMode_io_i2cAddr (c : Nat) (s : State) : (settleMode c s).io.i2cAddr = s.io.i2cAddr := by unfold settleMode; dsimp only; split <;> simp
@[simp] theorem settleMode_io_nextAddr (c : Nat) (s : State) : (settleMode c s).io.nextAddr = s.io.nextAddr := by unfold settleMode; dsimp only; split <;> simp
@[simp] theorem settleMode_io_pec (c : Nat) (s : State) : (settleMode c s).io.pec = s.io.pec := by unfold settleMode; dsimp only; split <;> simp
@[simp] theorem settleMode_io_dynAddr (c : Nat) (s : State) : (settleMode c s).io.dynAddr = s.io.dynAddr := by unfold settleMode; dsimp only; split <;> simp
@[simp] theorem settleMode_io_pecFails (c : Nat) (s : State) : (settleMode c s).io.pecFails = s.io.pecFails := by unfold settleMode; dsimp only; split <;> simp
@[simp] theorem settleMode_io_mgmtOut (c : Nat) (s : State) : (settleMode c s).io.mgmtOut = s.io.mgmtOut := by unfold settleMode; dsimp only; split <;> simp
@[simp] theorem settleMode_io_jtagIr (c : Nat) (s : State) : (settleMode c s).io.jtagIr = s.io.jtagIr := by unfold settleMode; dsimp only; split <;> simp
@[simp] theorem settleMode_io_mbacc (c : Nat) (s : State) : (settleMode c s).io.mbacc = s.io.mbacc := by unfold settleMode; dsimp only; split <;> simp
@[simp] theorem settleMode_io_boundary (c : Nat) (s : State) : (settleMode c s).io.boundary = s.io.boundary := by unfold settleMode; dsimp only; split <;> simp
@[simp] theorem settleMode_io_extest (c : Nat) (s : State) : (settleMode c s).io.extest = s.io.extest := by unfold settleMode; dsimp only; split <;> simp
@[simp] theorem settleMode_io_jtagDr (c : Nat) (s : State) : (settleMode c s).io.jtagDr = s.io.jtagDr := by unfold settleMode; dsimp only; split <;> simp
@[simp] theorem settleMode_pcie_up (c : Nat) (s : State) : (settleMode c s).io.pcie.up = s.io.pcie.up := by unfold settleMode; dsimp only; split <;> simp
@[simp] theorem settleMode_pcie_rate (c : Nat) (s : State) : (settleMode c s).io.pcie.rate = s.io.pcie.rate := by unfold settleMode; dsimp only; split <;> simp
@[simp] theorem settleMode_pcie_width (c : Nat) (s : State) : (settleMode c s).io.pcie.width = s.io.pcie.width := by unfold settleMode; dsimp only; split <;> simp
@[simp] theorem settleMode_pcie_d3hot (c : Nat) (s : State) : (settleMode c s).io.pcie.d3hot = s.io.pcie.d3hot := by unfold settleMode; dsimp only; split <;> simp
@[simp] theorem settleMode_pcie_heldReset (c : Nat) (s : State) : (settleMode c s).io.pcie.heldReset = s.io.pcie.heldReset := by unfold settleMode; dsimp only; split <;> simp
@[simp] theorem settleMode_pcie_counters (c : Nat) (s : State) : (settleMode c s).io.pcie.counters = s.io.pcie.counters := by unfold settleMode; dsimp only; split <;> simp
@[simp] theorem settleMode_pcie_jobs (c : Nat) (s : State) : (settleMode c s).io.pcie.jobs = s.io.pcie.jobs := by unfold settleMode; dsimp only; split <;> simp
@[simp] theorem settleMode_pcie_aer (c : Nat) (s : State) : (settleMode c s).io.pcie.aer = s.io.pcie.aer := by unfold settleMode; dsimp only; split <;> simp
@[simp] theorem settleMode_pcie_lastCode (c : Nat) (s : State) : (settleMode c s).io.pcie.lastCode = s.io.pcie.lastCode := by unfold settleMode; dsimp only; split <;> simp
@[simp] theorem settleMode_pcie_lastData (c : Nat) (s : State) : (settleMode c s).io.pcie.lastData = s.io.pcie.lastData := by unfold settleMode; dsimp only; split <;> simp
@[simp] theorem settleMode_cudex_owners (c : Nat) (s : State) : (settleMode c s).cudex.owners = s.cudex.owners := by unfold settleMode; dsimp only; split <;> simp
@[simp] theorem settleMode_cudex_serial (c : Nat) (s : State) : (settleMode c s).cudex.serial = s.cudex.serial := by unfold settleMode; dsimp only; split <;> simp
@[simp] theorem settleMode_cudex_mb2Region (c : Nat) (s : State) : (settleMode c s).cudex.mb2Region = s.cudex.mb2Region := by unfold settleMode; dsimp only; split <;> simp
@[simp] theorem settleMode_cudex_mb2Line (c : Nat) (s : State) : (settleMode c s).cudex.mb2Line = s.cudex.mb2Line := by unfold settleMode; dsimp only; split <;> simp
@[simp] theorem settleMode_cudex_mb2Event (c : Nat) (s : State) : (settleMode c s).cudex.mb2Event = s.cudex.mb2Event := by unfold settleMode; dsimp only; split <;> simp
@[simp] theorem settleMode_cudex_cup (c : Nat) (s : State) : (settleMode c s).cudex.cup = s.cudex.cup := by unfold settleMode; dsimp only; split <;> simp
@[simp] theorem settleMode_cudex_restarts (c : Nat) (s : State) : (settleMode c s).cudex.restarts = s.cudex.restarts := by unfold settleMode; dsimp only; split <;> simp
@[simp] theorem settleMode_cudex_heartbeat (c : Nat) (s : State) : (settleMode c s).cudex.heartbeat = s.cudex.heartbeat := by unfold settleMode; dsimp only; split <;> simp
@[simp] theorem settleMode_cudex_wdAt (c : Nat) (s : State) : (settleMode c s).cudex.wdAt = s.cudex.wdAt := by unfold settleMode; dsimp only; split <;> simp
@[simp] theorem settleMode_cudex_wdRestart (c : Nat) (s : State) : (settleMode c s).cudex.wdRestart = s.cudex.wdRestart := by unfold settleMode; dsimp only; split <;> simp
@[simp] theorem settleMode_cudex_restartWaiter (c : Nat) (s : State) : (settleMode c s).cudex.restartWaiter = s.cudex.restartWaiter := by unfold settleMode; dsimp only; split <;> simp
@[simp] theorem settleMode_cudex_logThreshold (c : Nat) (s : State) : (settleMode c s).cudex.logThreshold = s.cudex.logThreshold := by unfold settleMode; dsimp only; split <;> simp
@[simp] theorem settleMode_cudex_windows (c : Nat) (s : State) : (settleMode c s).cudex.windows = s.cudex.windows := by unfold settleMode; dsimp only; split <;> simp
@[simp] theorem settleMode_cudex_dbg (c : Nat) (s : State) : (settleMode c s).cudex.dbg = s.cudex.dbg := by unfold settleMode; dsimp only; split <;> simp

@[simp] theorem settleMode_dev_base (c : Nat) (s : State) : (settleMode c s).dev.base = s.dev.base := by
  unfold settleMode; dsimp only; split <;> simp [closeOutage_keeps Device.base (fun _ _ _ => rfl)]
@[simp] theorem settleMode_dev_cooldown (c : Nat) (s : State) : (settleMode c s).dev.cooldown = s.dev.cooldown := by
  unfold settleMode; dsimp only; split <;> simp [closeOutage_keeps Device.cooldown (fun _ _ _ => rfl)]
@[simp] theorem settleMode_dev_hold (c : Nat) (s : State) : (settleMode c s).dev.hold = s.dev.hold := by
  unfold settleMode; dsimp only; split <;> simp [closeOutage_keeps Device.hold (fun _ _ _ => rfl)]
@[simp] theorem settleMode_dev_frozenCmd (c : Nat) (s : State) : (settleMode c s).dev.frozenCmd = s.dev.frozenCmd := by
  unfold settleMode; dsimp only; split <;> simp [closeOutage_keeps Device.frozenCmd (fun _ _ _ => rfl)]
@[simp] theorem settleMode_dev_debug (c : Nat) (s : State) : (settleMode c s).dev.debug = s.dev.debug := by
  unfold settleMode; dsimp only; split <;> simp [closeOutage_keeps Device.debug (fun _ _ _ => rfl)]
@[simp] theorem settleMode_dev_straps (c : Nat) (s : State) : (settleMode c s).dev.straps = s.dev.straps := by
  unfold settleMode; dsimp only; split <;> simp [closeOutage_keeps Device.straps (fun _ _ _ => rfl)]
@[simp] theorem settleMode_dev_resetCause (c : Nat) (s : State) : (settleMode c s).dev.resetCause = s.dev.resetCause := by
  unfold settleMode; dsimp only; split <;> simp [closeOutage_keeps Device.resetCause (fun _ _ _ => rfl)]
@[simp] theorem settleMode_dev_fwImage (c : Nat) (s : State) : (settleMode c s).dev.fwImage = s.dev.fwImage := by
  unfold settleMode; dsimp only; split <;> simp [closeOutage_keeps Device.fwImage (fun _ _ _ => rfl)]
@[simp] theorem settleMode_dev_patImage (c : Nat) (s : State) : (settleMode c s).dev.patImage = s.dev.patImage := by
  unfold settleMode; dsimp only; split <;> simp [closeOutage_keeps Device.patImage (fun _ _ _ => rfl)]
@[simp] theorem settleMode_dev_firstBoot (c : Nat) (s : State) : (settleMode c s).dev.firstBoot = s.dev.firstBoot := by
  unfold settleMode; dsimp only; split <;> simp [closeOutage_keeps Device.firstBoot (fun _ _ _ => rfl)]
@[simp] theorem settleMode_dev_xtalOk (c : Nat) (s : State) : (settleMode c s).dev.xtalOk = s.dev.xtalOk := by
  unfold settleMode; dsimp only; split <;> simp [closeOutage_keeps Device.xtalOk (fun _ _ _ => rfl)]
@[simp] theorem settleMode_dev_alarm (c : Nat) (s : State) : (settleMode c s).dev.alarm = s.dev.alarm := by
  unfold settleMode; dsimp only; split <;> simp [closeOutage_keeps Device.alarm (fun _ _ _ => rfl)]
@[simp] theorem settleMode_dev_thermN (c : Nat) (s : State) : (settleMode c s).dev.thermN = s.dev.thermN := by
  unfold settleMode; dsimp only; split <;> simp [closeOutage_keeps Device.thermN (fun _ _ _ => rfl)]
@[simp] theorem settleMode_dev_modeDue (c : Nat) (s : State) : (settleMode c s).dev.modeDue = s.dev.modeDue := by
  unfold settleMode; dsimp only; split <;> simp [closeOutage_keeps Device.modeDue (fun _ _ _ => rfl)]
@[simp] theorem settleMode_dev_holdInStartup (c : Nat) (s : State) : (settleMode c s).dev.holdInStartup = s.dev.holdInStartup := by
  unfold settleMode; dsimp only; split <;> simp [closeOutage_keeps Device.holdInStartup (fun _ _ _ => rfl)]
@[simp] theorem settleMode_dev_stopped (c : Nat) (s : State) : (settleMode c s).dev.stopped = s.dev.stopped := by
  unfold settleMode; dsimp only; split <;> simp [closeOutage_keeps Device.stopped (fun _ _ _ => rfl)]
@[simp] theorem settleMode_dev_rangesClosed (c : Nat) (s : State) : (settleMode c s).dev.rangesClosed = s.dev.rangesClosed := by
  unfold settleMode; dsimp only; split <;> simp [closeOutage_keeps Device.rangesClosed (fun _ _ _ => rfl)]
@[simp] theorem settleMode_dev_porstLow (c : Nat) (s : State) : (settleMode c s).dev.porstLow = s.dev.porstLow := by
  unfold settleMode; dsimp only; split <;> simp [closeOutage_keeps Device.porstLow (fun _ _ _ => rfl)]
@[simp] theorem settleMode_dev_standbyCmd (c : Nat) (s : State) : (settleMode c s).dev.standbyCmd = s.dev.standbyCmd := by
  unfold settleMode; dsimp only; split <;> simp [closeOutage_keeps Device.standbyCmd (fun _ _ _ => rfl)]
@[simp] theorem settleMode_dev_crystal (c : Nat) (s : State) : (settleMode c s).dev.crystal = s.dev.crystal := by
  unfold settleMode; dsimp only; split <;> simp [closeOutage_keeps Device.crystal (fun _ _ _ => rfl)]
@[simp] theorem settleMode_dev_checkSeen (c : Nat) (s : State) : (settleMode c s).dev.checkSeen = s.dev.checkSeen := by
  unfold settleMode; dsimp only; split <;> simp [closeOutage_keeps Device.checkSeen (fun _ _ _ => rfl)]
@[simp] theorem settleMode_dev_checkBad (c : Nat) (s : State) : (settleMode c s).dev.checkBad = s.dev.checkBad := by
  unfold settleMode; dsimp only; split <;> simp [closeOutage_keeps Device.checkBad (fun _ _ _ => rfl)]
@[simp] theorem settleMode_dev_fwRunning (c : Nat) (s : State) : (settleMode c s).dev.fwRunning = s.dev.fwRunning := by
  unfold settleMode; dsimp only; split <;> simp [closeOutage_keeps Device.fwRunning (fun _ _ _ => rfl)]
@[simp] theorem settleMode_dev_hbmReady (c : Nat) (s : State) : (settleMode c s).dev.hbmReady = s.dev.hbmReady := by
  unfold settleMode; dsimp only; split <;> simp [closeOutage_keeps Device.hbmReady (fun _ _ _ => rfl)]
@[simp] theorem settleMode_dev_sweepDone (c : Nat) (s : State) : (settleMode c s).dev.sweepDone = s.dev.sweepDone := by
  unfold settleMode; dsimp only; split <;> simp [closeOutage_keeps Device.sweepDone (fun _ _ _ => rfl)]
@[simp] theorem settleMode_dev_loadDone (c : Nat) (s : State) : (settleMode c s).dev.loadDone = s.dev.loadDone := by
  unfold settleMode; dsimp only; split <;> simp [closeOutage_keeps Device.loadDone (fun _ _ _ => rfl)]
@[simp] theorem settleMode_dev_release (c : Nat) (s : State) : (settleMode c s).dev.release = s.dev.release := by
  unfold settleMode; dsimp only; split <;> simp [closeOutage_keeps Device.release (fun _ _ _ => rfl)]
@[simp] theorem settleMode_dev_warmDue (c : Nat) (s : State) : (settleMode c s).dev.warmDue = s.dev.warmDue := by
  unfold settleMode; dsimp only; split <;> simp [closeOutage_keeps Device.warmDue (fun _ _ _ => rfl)]
@[simp] theorem settleMode_dev_resetSilent (c : Nat) (s : State) : (settleMode c s).dev.resetSilent = s.dev.resetSilent := by
  unfold settleMode; dsimp only; split <;> simp [closeOutage_keeps Device.resetSilent (fun _ _ _ => rfl)]
@[simp] theorem settleMode_dev_romService (c : Nat) (s : State) : (settleMode c s).dev.romService = s.dev.romService := by
  unfold settleMode; dsimp only; split <;> simp [closeOutage_keeps Device.romService (fun _ _ _ => rfl)]
@[simp] theorem committed_dev_base (s u : State) : (committed s u).dev.base = u.dev.base := by simp [committed]
@[simp] theorem committed_dev_cooldown (s u : State) : (committed s u).dev.cooldown = u.dev.cooldown := by simp [committed]
@[simp] theorem committed_dev_hold (s u : State) : (committed s u).dev.hold = u.dev.hold := by simp [committed]
@[simp] theorem committed_dev_frozenCmd (s u : State) : (committed s u).dev.frozenCmd = u.dev.frozenCmd := by simp [committed]
@[simp] theorem committed_dev_debug (s u : State) : (committed s u).dev.debug = u.dev.debug := by simp [committed]
@[simp] theorem committed_dev_straps (s u : State) : (committed s u).dev.straps = u.dev.straps := by simp [committed]
@[simp] theorem committed_dev_resetCause (s u : State) : (committed s u).dev.resetCause = u.dev.resetCause := by simp [committed]
@[simp] theorem committed_dev_fwImage (s u : State) : (committed s u).dev.fwImage = u.dev.fwImage := by simp [committed]
@[simp] theorem committed_dev_patImage (s u : State) : (committed s u).dev.patImage = u.dev.patImage := by simp [committed]
@[simp] theorem committed_dev_firstBoot (s u : State) : (committed s u).dev.firstBoot = u.dev.firstBoot := by simp [committed]
@[simp] theorem committed_dev_xtalOk (s u : State) : (committed s u).dev.xtalOk = u.dev.xtalOk := by simp [committed]
@[simp] theorem committed_dev_alarm (s u : State) : (committed s u).dev.alarm = u.dev.alarm := by simp [committed]
@[simp] theorem committed_dev_thermN (s u : State) : (committed s u).dev.thermN = u.dev.thermN := by simp [committed]
@[simp] theorem committed_dev_modeDue (s u : State) : (committed s u).dev.modeDue = u.dev.modeDue := by simp [committed]
@[simp] theorem committed_dev_holdInStartup (s u : State) : (committed s u).dev.holdInStartup = u.dev.holdInStartup := by simp [committed]
@[simp] theorem committed_dev_stopped (s u : State) : (committed s u).dev.stopped = u.dev.stopped := by simp [committed]
@[simp] theorem committed_dev_rangesClosed (s u : State) : (committed s u).dev.rangesClosed = u.dev.rangesClosed := by simp [committed]
@[simp] theorem committed_dev_porstLow (s u : State) : (committed s u).dev.porstLow = u.dev.porstLow := by simp [committed]
@[simp] theorem committed_dev_standbyCmd (s u : State) : (committed s u).dev.standbyCmd = u.dev.standbyCmd := by simp [committed]
@[simp] theorem committed_dev_crystal (s u : State) : (committed s u).dev.crystal = u.dev.crystal := by simp [committed]
@[simp] theorem committed_dev_checkSeen (s u : State) : (committed s u).dev.checkSeen = u.dev.checkSeen := by simp [committed]
@[simp] theorem committed_dev_checkBad (s u : State) : (committed s u).dev.checkBad = u.dev.checkBad := by simp [committed]
@[simp] theorem committed_dev_fwRunning (s u : State) : (committed s u).dev.fwRunning = u.dev.fwRunning := by simp [committed]
@[simp] theorem committed_dev_hbmReady (s u : State) : (committed s u).dev.hbmReady = u.dev.hbmReady := by simp [committed]
@[simp] theorem committed_dev_sweepDone (s u : State) : (committed s u).dev.sweepDone = u.dev.sweepDone := by simp [committed]
@[simp] theorem committed_dev_loadDone (s u : State) : (committed s u).dev.loadDone = u.dev.loadDone := by simp [committed]
@[simp] theorem committed_dev_release (s u : State) : (committed s u).dev.release = u.dev.release := by simp [committed]
@[simp] theorem committed_dev_warmDue (s u : State) : (committed s u).dev.warmDue = u.dev.warmDue := by simp [committed]
@[simp] theorem committed_dev_resetSilent (s u : State) : (committed s u).dev.resetSilent = u.dev.resetSilent := by simp [committed]
@[simp] theorem committed_dev_romService (s u : State) : (committed s u).dev.romService = u.dev.romService := by simp [committed]
@[simp] theorem committed_io_vccio (s u : State) : (committed s u).io.vccio = u.io.vccio := by simp [committed]
@[simp] theorem committed_io_gpio (s u : State) : (committed s u).io.gpio = u.io.gpio := by simp [committed]
@[simp] theorem committed_io_i2cAddr (s u : State) : (committed s u).io.i2cAddr = u.io.i2cAddr := by simp [committed]
@[simp] theorem committed_io_nextAddr (s u : State) : (committed s u).io.nextAddr = u.io.nextAddr := by simp [committed]
@[simp] theorem committed_io_pec (s u : State) : (committed s u).io.pec = u.io.pec := by simp [committed]
@[simp] theorem committed_io_dynAddr (s u : State) : (committed s u).io.dynAddr = u.io.dynAddr := by simp [committed]
@[simp] theorem committed_io_pecFails (s u : State) : (committed s u).io.pecFails = u.io.pecFails := by simp [committed]
@[simp] theorem committed_io_mgmtOut (s u : State) : (committed s u).io.mgmtOut = u.io.mgmtOut := by simp [committed]
@[simp] theorem committed_io_jtagIr (s u : State) : (committed s u).io.jtagIr = u.io.jtagIr := by simp [committed]
@[simp] theorem committed_io_mbacc (s u : State) : (committed s u).io.mbacc = u.io.mbacc := by simp [committed]
@[simp] theorem committed_io_boundary (s u : State) : (committed s u).io.boundary = u.io.boundary := by simp [committed]
@[simp] theorem committed_io_extest (s u : State) : (committed s u).io.extest = u.io.extest := by simp [committed]
@[simp] theorem committed_io_jtagDr (s u : State) : (committed s u).io.jtagDr = u.io.jtagDr := by simp [committed]
@[simp] theorem committed_pcie_up (s u : State) : (committed s u).io.pcie.up = u.io.pcie.up := by simp [committed]
@[simp] theorem committed_pcie_rate (s u : State) : (committed s u).io.pcie.rate = u.io.pcie.rate := by simp [committed]
@[simp] theorem committed_pcie_width (s u : State) : (committed s u).io.pcie.width = u.io.pcie.width := by simp [committed]
@[simp] theorem committed_pcie_d3hot (s u : State) : (committed s u).io.pcie.d3hot = u.io.pcie.d3hot := by simp [committed]
@[simp] theorem committed_pcie_heldReset (s u : State) : (committed s u).io.pcie.heldReset = u.io.pcie.heldReset := by simp [committed]
@[simp] theorem committed_pcie_counters (s u : State) : (committed s u).io.pcie.counters = u.io.pcie.counters := by simp [committed]
@[simp] theorem committed_pcie_jobs (s u : State) : (committed s u).io.pcie.jobs = u.io.pcie.jobs := by simp [committed]
@[simp] theorem committed_pcie_aer (s u : State) : (committed s u).io.pcie.aer = u.io.pcie.aer := by simp [committed]
@[simp] theorem committed_pcie_lastCode (s u : State) : (committed s u).io.pcie.lastCode = u.io.pcie.lastCode := by simp [committed]
@[simp] theorem committed_pcie_lastData (s u : State) : (committed s u).io.pcie.lastData = u.io.pcie.lastData := by simp [committed]
@[simp] theorem committed_cudex_owners (s u : State) : (committed s u).cudex.owners = u.cudex.owners := by simp [committed]
@[simp] theorem committed_cudex_serial (s u : State) : (committed s u).cudex.serial = u.cudex.serial := by simp [committed]
@[simp] theorem committed_cudex_mb2Region (s u : State) : (committed s u).cudex.mb2Region = u.cudex.mb2Region := by simp [committed]
@[simp] theorem committed_cudex_mb2Line (s u : State) : (committed s u).cudex.mb2Line = u.cudex.mb2Line := by simp [committed]
@[simp] theorem committed_cudex_mb2Event (s u : State) : (committed s u).cudex.mb2Event = u.cudex.mb2Event := by simp [committed]
@[simp] theorem committed_cudex_cup (s u : State) : (committed s u).cudex.cup = u.cudex.cup := by simp [committed]
@[simp] theorem committed_cudex_restarts (s u : State) : (committed s u).cudex.restarts = u.cudex.restarts := by simp [committed]
@[simp] theorem committed_cudex_heartbeat (s u : State) : (committed s u).cudex.heartbeat = u.cudex.heartbeat := by simp [committed]
@[simp] theorem committed_cudex_wdAt (s u : State) : (committed s u).cudex.wdAt = u.cudex.wdAt := by simp [committed]
@[simp] theorem committed_cudex_wdRestart (s u : State) : (committed s u).cudex.wdRestart = u.cudex.wdRestart := by simp [committed]
@[simp] theorem committed_cudex_restartWaiter (s u : State) : (committed s u).cudex.restartWaiter = u.cudex.restartWaiter := by simp [committed]
@[simp] theorem committed_cudex_logThreshold (s u : State) : (committed s u).cudex.logThreshold = u.cudex.logThreshold := by simp [committed]
@[simp] theorem committed_cudex_windows (s u : State) : (committed s u).cudex.windows = u.cudex.windows := by simp [committed]
@[simp] theorem committed_cudex_dbg (s u : State) : (committed s u).cudex.dbg = u.cudex.dbg := by simp [committed]

@[simp] theorem committed_slot (s u : State) (p : Port) (sl : Fin 4) : (committed s u).slot p sl = u.slot p sl :=
  commit_slot s u _ p sl rfl
@[simp] theorem committed_mode (s u : State) : (committed s u).dev.mode = modeOf u := by
  obtain ⟨t, h, hc⟩ := commit_committed s u
  cases h
  exact hc.mode
@[simp] theorem committed_region (s u : State) (k : Nat) : (committed s u).region k = u.region k := by simp [State.region]
@[simp] theorem raise_region (e : EvRec) (s : State) (k : Nat) : (raise e s).region k = s.region k := by simp [State.region]
@[simp] theorem raiseLimited_region (e : EvRec) (c : List Nat) (s : State) (k : Nat) : (raiseLimited e c s).region k = s.region k := by simp [State.region]
@[simp] theorem postResponse_region (p : Port) (sl : Fin 4) (st tick : Nat) (res : Results) (s : State) (k : Nat) : (postResponse p sl st tick res s).region k = s.region k := by simp [State.region]
@[simp] theorem replyAt_region (w : Waiter) (st tick : Nat) (res : Results) (s : State) (k : Nat) : (replyAt w st tick res s).region k = s.region k := by simp [State.region]
@[simp] theorem reply_region (w : Waiter) (st : Nat) (res : Results) (s : State) (k : Nat) : (reply w st res s).region k = s.region k := by simp [State.region]
@[simp] theorem replyOpt_region (w : Option Waiter) (st : Nat) (res : Results) (s : State) (k : Nat) : (replyOpt w st res s).region k = s.region k := by simp [State.region]
@[simp] theorem settleMode_region (c : Nat) (s : State) (k : Nat) : (settleMode c s).region k = s.region k := by simp [State.region]
@[simp] theorem useFree_region (s : State) (k : Nat) : (useFree s).region k = s.region k := by simp [State.region]
@[simp] theorem committed_bram (s u : State) (k : Nat) : (committed s u).bram k = u.bram k := by simp [State.bram]
@[simp] theorem raise_bram (e : EvRec) (s : State) (k : Nat) : (raise e s).bram k = s.bram k := by simp [State.bram]
@[simp] theorem raiseLimited_bram (e : EvRec) (c : List Nat) (s : State) (k : Nat) : (raiseLimited e c s).bram k = s.bram k := by simp [State.bram]
@[simp] theorem postResponse_bram (p : Port) (sl : Fin 4) (st tick : Nat) (res : Results) (s : State) (k : Nat) : (postResponse p sl st tick res s).bram k = s.bram k := by simp [State.bram]
@[simp] theorem replyAt_bram (w : Waiter) (st tick : Nat) (res : Results) (s : State) (k : Nat) : (replyAt w st tick res s).bram k = s.bram k := by simp [State.bram]
@[simp] theorem reply_bram (w : Waiter) (st : Nat) (res : Results) (s : State) (k : Nat) : (reply w st res s).bram k = s.bram k := by simp [State.bram]
@[simp] theorem replyOpt_bram (w : Option Waiter) (st : Nat) (res : Results) (s : State) (k : Nat) : (replyOpt w st res s).bram k = s.bram k := by simp [State.bram]
@[simp] theorem settleMode_bram (c : Nat) (s : State) (k : Nat) : (settleMode c s).bram k = s.bram k := by simp [State.bram]
@[simp] theorem useFree_bram (s : State) (k : Nat) : (useFree s).bram k = s.bram k := by simp [State.bram]
@[simp] theorem committed_engine (s u : State) (k : Nat) : (committed s u).engine k = u.engine k := by simp [State.engine]
@[simp] theorem raise_engine (e : EvRec) (s : State) (k : Nat) : (raise e s).engine k = s.engine k := by simp [State.engine]
@[simp] theorem raiseLimited_engine (e : EvRec) (c : List Nat) (s : State) (k : Nat) : (raiseLimited e c s).engine k = s.engine k := by simp [State.engine]
@[simp] theorem postResponse_engine (p : Port) (sl : Fin 4) (st tick : Nat) (res : Results) (s : State) (k : Nat) : (postResponse p sl st tick res s).engine k = s.engine k := by simp [State.engine]
@[simp] theorem replyAt_engine (w : Waiter) (st tick : Nat) (res : Results) (s : State) (k : Nat) : (replyAt w st tick res s).engine k = s.engine k := by simp [State.engine]
@[simp] theorem reply_engine (w : Waiter) (st : Nat) (res : Results) (s : State) (k : Nat) : (reply w st res s).engine k = s.engine k := by simp [State.engine]
@[simp] theorem replyOpt_engine (w : Option Waiter) (st : Nat) (res : Results) (s : State) (k : Nat) : (replyOpt w st res s).engine k = s.engine k := by simp [State.engine]
@[simp] theorem settleMode_engine (c : Nat) (s : State) (k : Nat) : (settleMode c s).engine k = s.engine k := by simp [State.engine]
@[simp] theorem useFree_engine (s : State) (k : Nat) : (useFree s).engine k = s.engine k := by simp [State.engine]
@[simp] theorem committed_domain (s u : State) (k : Nat) : (committed s u).domain k = u.domain k := by simp [State.domain]
@[simp] theorem raise_domain (e : EvRec) (s : State) (k : Nat) : (raise e s).domain k = s.domain k := by simp [State.domain]
@[simp] theorem raiseLimited_domain (e : EvRec) (c : List Nat) (s : State) (k : Nat) : (raiseLimited e c s).domain k = s.domain k := by simp [State.domain]
@[simp] theorem postResponse_domain (p : Port) (sl : Fin 4) (st tick : Nat) (res : Results) (s : State) (k : Nat) : (postResponse p sl st tick res s).domain k = s.domain k := by simp [State.domain]
@[simp] theorem replyAt_domain (w : Waiter) (st tick : Nat) (res : Results) (s : State) (k : Nat) : (replyAt w st tick res s).domain k = s.domain k := by simp [State.domain]
@[simp] theorem reply_domain (w : Waiter) (st : Nat) (res : Results) (s : State) (k : Nat) : (reply w st res s).domain k = s.domain k := by simp [State.domain]
@[simp] theorem replyOpt_domain (w : Option Waiter) (st : Nat) (res : Results) (s : State) (k : Nat) : (replyOpt w st res s).domain k = s.domain k := by simp [State.domain]
@[simp] theorem settleMode_domain (c : Nat) (s : State) (k : Nat) : (settleMode c s).domain k = s.domain k := by simp [State.domain]
@[simp] theorem useFree_domain (s : State) (k : Nat) : (useFree s).domain k = s.domain k := by simp [State.domain]
@[simp] theorem committed_lane (s u : State) (k : Nat) : (committed s u).lane k = u.lane k := by simp [State.lane]
@[simp] theorem raise_lane (e : EvRec) (s : State) (k : Nat) : (raise e s).lane k = s.lane k := by simp [State.lane]
@[simp] theorem raiseLimited_lane (e : EvRec) (c : List Nat) (s : State) (k : Nat) : (raiseLimited e c s).lane k = s.lane k := by simp [State.lane]
@[simp] theorem postResponse_lane (p : Port) (sl : Fin 4) (st tick : Nat) (res : Results) (s : State) (k : Nat) : (postResponse p sl st tick res s).lane k = s.lane k := by simp [State.lane]
@[simp] theorem replyAt_lane (w : Waiter) (st tick : Nat) (res : Results) (s : State) (k : Nat) : (replyAt w st tick res s).lane k = s.lane k := by simp [State.lane]
@[simp] theorem reply_lane (w : Waiter) (st : Nat) (res : Results) (s : State) (k : Nat) : (reply w st res s).lane k = s.lane k := by simp [State.lane]
@[simp] theorem replyOpt_lane (w : Option Waiter) (st : Nat) (res : Results) (s : State) (k : Nat) : (replyOpt w st res s).lane k = s.lane k := by simp [State.lane]
@[simp] theorem settleMode_lane (c : Nat) (s : State) (k : Nat) : (settleMode c s).lane k = s.lane k := by simp [State.lane]
@[simp] theorem useFree_lane (s : State) (k : Nat) : (useFree s).lane k = s.lane k := by simp [State.lane]
@[simp] theorem committed_link (s u : State) (k : Nat) : (committed s u).link k = u.link k := by simp [State.link]
@[simp] theorem raise_link (e : EvRec) (s : State) (k : Nat) : (raise e s).link k = s.link k := by simp [State.link]
@[simp] theorem raiseLimited_link (e : EvRec) (c : List Nat) (s : State) (k : Nat) : (raiseLimited e c s).link k = s.link k := by simp [State.link]
@[simp] theorem postResponse_link (p : Port) (sl : Fin 4) (st tick : Nat) (res : Results) (s : State) (k : Nat) : (postResponse p sl st tick res s).link k = s.link k := by simp [State.link]
@[simp] theorem replyAt_link (w : Waiter) (st tick : Nat) (res : Results) (s : State) (k : Nat) : (replyAt w st tick res s).link k = s.link k := by simp [State.link]
@[simp] theorem reply_link (w : Waiter) (st : Nat) (res : Results) (s : State) (k : Nat) : (reply w st res s).link k = s.link k := by simp [State.link]
@[simp] theorem replyOpt_link (w : Option Waiter) (st : Nat) (res : Results) (s : State) (k : Nat) : (replyOpt w st res s).link k = s.link k := by simp [State.link]
@[simp] theorem settleMode_link (c : Nat) (s : State) (k : Nat) : (settleMode c s).link k = s.link k := by simp [State.link]
@[simp] theorem useFree_link (s : State) (k : Nat) : (useFree s).link k = s.link k := by simp [State.link]
@[simp] theorem committed_queue (s u : State) (k : Nat) : (committed s u).queue k = u.queue k := by simp [State.queue]
@[simp] theorem raise_queue (e : EvRec) (s : State) (k : Nat) : (raise e s).queue k = s.queue k := by simp [State.queue]
@[simp] theorem raiseLimited_queue (e : EvRec) (c : List Nat) (s : State) (k : Nat) : (raiseLimited e c s).queue k = s.queue k := by simp [State.queue]
@[simp] theorem postResponse_queue (p : Port) (sl : Fin 4) (st tick : Nat) (res : Results) (s : State) (k : Nat) : (postResponse p sl st tick res s).queue k = s.queue k := by simp [State.queue]
@[simp] theorem replyAt_queue (w : Waiter) (st tick : Nat) (res : Results) (s : State) (k : Nat) : (replyAt w st tick res s).queue k = s.queue k := by simp [State.queue]
@[simp] theorem reply_queue (w : Waiter) (st : Nat) (res : Results) (s : State) (k : Nat) : (reply w st res s).queue k = s.queue k := by simp [State.queue]
@[simp] theorem replyOpt_queue (w : Option Waiter) (st : Nat) (res : Results) (s : State) (k : Nat) : (replyOpt w st res s).queue k = s.queue k := by simp [State.queue]
@[simp] theorem settleMode_queue (c : Nat) (s : State) (k : Nat) : (settleMode c s).queue k = s.queue k := by simp [State.queue]
@[simp] theorem useFree_queue (s : State) (k : Nat) : (useFree s).queue k = s.queue k := by simp [State.queue]
@[simp] theorem committed_gpioOf (s u : State) (k : Nat) : (committed s u).gpioOf k = u.gpioOf k := by simp [State.gpioOf]
@[simp] theorem committed_clockSwitch (s u : State) (w : ClockSwitch) : (committed s u).clockSwitch w = u.clockSwitch w := by
  cases w <;> simp [State.clockSwitch]
@[simp] theorem takenReq_opcode (s : State) (p : Port) (sl : Fin 4) : (takenReq s p sl).opcode = (s.req p sl).opcode := by
  rw [takenReq_eq]
  rfl
@[simp] theorem takenReq_tag (s : State) (p : Port) (sl : Fin 4) : (takenReq s p sl).tag = (s.req p sl).tag := by
  rw [takenReq_eq]
  rfl
@[simp] theorem takenReq_flags (s : State) (p : Port) (sl : Fin 4) : (takenReq s p sl).flags = (s.req p sl).flags := by
  rw [takenReq_eq]
  rfl
@[simp] theorem takenReq_argLen (s : State) (p : Port) (sl : Fin 4) : (takenReq s p sl).argLen = (s.req p sl).argLen := by
  rw [takenReq_eq]
  rfl
@[simp] theorem takenReq_target (s : State) (p : Port) (sl : Fin 4) : (takenReq s p sl).target = (s.req p sl).target := by
  rw [takenReq_eq]
  rfl
@[simp] theorem takenReq_atTick (s : State) (p : Port) (sl : Fin 4) : (takenReq s p sl).atTick = (s.req p sl).atTick := by
  rw [takenReq_eq]
  rfl
@[simp] theorem takenReq_force (s : State) (p : Port) (sl : Fin 4) : (takenReq s p sl).force = (s.req p sl).force := by
  rw [takenReq_eq]
  rfl
@[simp] theorem takenReq_queryFlag (s : State) (p : Port) (sl : Fin 4) : (takenReq s p sl).queryFlag = (s.req p sl).queryFlag := by
  rw [takenReq_eq]
  rfl
@[simp] theorem takenReq_port (s : State) (p : Port) (sl : Fin 4) : (takenReq s p sl).port = p := rfl
@[simp] theorem takenReq_slot (s : State) (p : Port) (sl : Fin 4) : (takenReq s p sl).slot = sl := rfl
@[simp] theorem takenReq_argByte (s : State) (p : Port) (sl : Fin 4) (i : Nat) :
    (takenReq s p sl).argByte i = (s.req p sl).argByte i := by
  rw [takenReq_eq]
  rfl
@[simp] theorem takenReq_arg (s : State) (p : Port) (sl : Fin 4) (i n : Nat) :
    (takenReq s p sl).arg i n = (s.req p sl).arg i n := by
  induction n generalizing i with
  | zero => rfl
  | succ n ih => simp [Req.arg, ih]
@[simp] theorem takenReq_argBytes (s : State) (p : Port) (sl : Fin 4) (i n : Nat) :
    (takenReq s p sl).argBytes i n = (s.req p sl).argBytes i n := by simp [Req.argBytes]
@[simp] theorem takenReq_waiter (s : State) (p : Port) (sl : Fin 4) :
    (takenReq s p sl).waiter = (p, sl, s.cudex.serial + 1) := by
  rw [takenReq_eq]
  rfl
@[simp] theorem takenState_region (c : CmdSpec) (s : State) (p : Port) (sl : Fin 4) (k : Nat) :
    (takenState c s p sl).region k = s.region k := by simp [State.region]
@[simp] theorem takenState_bram (c : CmdSpec) (s : State) (p : Port) (sl : Fin 4) (k : Nat) :
    (takenState c s p sl).bram k = s.bram k := by simp [State.bram]
@[simp] theorem takenState_engine (c : CmdSpec) (s : State) (p : Port) (sl : Fin 4) (k : Nat) :
    (takenState c s p sl).engine k = s.engine k := by simp [State.engine]
@[simp] theorem takenState_domain (c : CmdSpec) (s : State) (p : Port) (sl : Fin 4) (k : Nat) :
    (takenState c s p sl).domain k = s.domain k := by simp [State.domain]
@[simp] theorem takenState_lane (c : CmdSpec) (s : State) (p : Port) (sl : Fin 4) (k : Nat) :
    (takenState c s p sl).lane k = s.lane k := by simp [State.lane]
@[simp] theorem takenState_link (c : CmdSpec) (s : State) (p : Port) (sl : Fin 4) (k : Nat) :
    (takenState c s p sl).link k = s.link k := by simp [State.link]
@[simp] theorem takenState_queue (c : CmdSpec) (s : State) (p : Port) (sl : Fin 4) (k : Nat) :
    (takenState c s p sl).queue k = s.queue k := by simp [State.queue]
@[simp] theorem acceptSlot_cudex_mb2Region (p : Port) (sl : Fin 4) (s : State) : (acceptSlot p sl s).cudex.mb2Region = s.cudex.mb2Region := rfl
@[simp] theorem claimImplicit_cudex_mb2Region (q : Req) (k : Nat) (s : State) : (claimImplicit q k s).cudex.mb2Region = s.cudex.mb2Region := by unfold claimImplicit; split <;> rfl
@[simp] theorem claimAll_cudex_mb2Region (q : Req) (ks : List Nat) (s : State) : (claimAll q ks s).2.cudex.mb2Region = s.cudex.mb2Region := by
  unfold claimAll
  split
  · rfl
  · exact forEach_keeps (·.cudex.mb2Region) _ _ _ (fun k t => claimImplicit_cudex_mb2Region q k t)
@[simp] theorem takenState_cudex_mb2Region (c : CmdSpec) (s : State) (p : Port) (sl : Fin 4) : (takenState c s p sl).cudex.mb2Region = s.cudex.mb2Region := by
  unfold takenState
  split <;> simp
@[simp] theorem acceptSlot_cudex_mb2Line (p : Port) (sl : Fin 4) (s : State) : (acceptSlot p sl s).cudex.mb2Line = s.cudex.mb2Line := rfl
@[simp] theorem claimImplicit_cudex_mb2Line (q : Req) (k : Nat) (s : State) : (claimImplicit q k s).cudex.mb2Line = s.cudex.mb2Line := by unfold claimImplicit; split <;> rfl
@[simp] theorem claimAll_cudex_mb2Line (q : Req) (ks : List Nat) (s : State) : (claimAll q ks s).2.cudex.mb2Line = s.cudex.mb2Line := by
  unfold claimAll
  split
  · rfl
  · exact forEach_keeps (·.cudex.mb2Line) _ _ _ (fun k t => claimImplicit_cudex_mb2Line q k t)
@[simp] theorem takenState_cudex_mb2Line (c : CmdSpec) (s : State) (p : Port) (sl : Fin 4) : (takenState c s p sl).cudex.mb2Line = s.cudex.mb2Line := by
  unfold takenState
  split <;> simp
@[simp] theorem acceptSlot_cudex_mb2Event (p : Port) (sl : Fin 4) (s : State) : (acceptSlot p sl s).cudex.mb2Event = s.cudex.mb2Event := rfl
@[simp] theorem claimImplicit_cudex_mb2Event (q : Req) (k : Nat) (s : State) : (claimImplicit q k s).cudex.mb2Event = s.cudex.mb2Event := by unfold claimImplicit; split <;> rfl
@[simp] theorem claimAll_cudex_mb2Event (q : Req) (ks : List Nat) (s : State) : (claimAll q ks s).2.cudex.mb2Event = s.cudex.mb2Event := by
  unfold claimAll
  split
  · rfl
  · exact forEach_keeps (·.cudex.mb2Event) _ _ _ (fun k t => claimImplicit_cudex_mb2Event q k t)
@[simp] theorem takenState_cudex_mb2Event (c : CmdSpec) (s : State) (p : Port) (sl : Fin 4) : (takenState c s p sl).cudex.mb2Event = s.cudex.mb2Event := by
  unfold takenState
  split <;> simp
@[simp] theorem acceptSlot_cudex_cup (p : Port) (sl : Fin 4) (s : State) : (acceptSlot p sl s).cudex.cup = s.cudex.cup := rfl
@[simp] theorem claimImplicit_cudex_cup (q : Req) (k : Nat) (s : State) : (claimImplicit q k s).cudex.cup = s.cudex.cup := by unfold claimImplicit; split <;> rfl
@[simp] theorem claimAll_cudex_cup (q : Req) (ks : List Nat) (s : State) : (claimAll q ks s).2.cudex.cup = s.cudex.cup := by
  unfold claimAll
  split
  · rfl
  · exact forEach_keeps (·.cudex.cup) _ _ _ (fun k t => claimImplicit_cudex_cup q k t)
@[simp] theorem takenState_cudex_cup (c : CmdSpec) (s : State) (p : Port) (sl : Fin 4) : (takenState c s p sl).cudex.cup = s.cudex.cup := by
  unfold takenState
  split <;> simp
@[simp] theorem acceptSlot_cudex_restarts (p : Port) (sl : Fin 4) (s : State) : (acceptSlot p sl s).cudex.restarts = s.cudex.restarts := rfl
@[simp] theorem claimImplicit_cudex_restarts (q : Req) (k : Nat) (s : State) : (claimImplicit q k s).cudex.restarts = s.cudex.restarts := by unfold claimImplicit; split <;> rfl
@[simp] theorem claimAll_cudex_restarts (q : Req) (ks : List Nat) (s : State) : (claimAll q ks s).2.cudex.restarts = s.cudex.restarts := by
  unfold claimAll
  split
  · rfl
  · exact forEach_keeps (·.cudex.restarts) _ _ _ (fun k t => claimImplicit_cudex_restarts q k t)
@[simp] theorem takenState_cudex_restarts (c : CmdSpec) (s : State) (p : Port) (sl : Fin 4) : (takenState c s p sl).cudex.restarts = s.cudex.restarts := by
  unfold takenState
  split <;> simp
@[simp] theorem acceptSlot_cudex_heartbeat (p : Port) (sl : Fin 4) (s : State) : (acceptSlot p sl s).cudex.heartbeat = s.cudex.heartbeat := rfl
@[simp] theorem claimImplicit_cudex_heartbeat (q : Req) (k : Nat) (s : State) : (claimImplicit q k s).cudex.heartbeat = s.cudex.heartbeat := by unfold claimImplicit; split <;> rfl
@[simp] theorem claimAll_cudex_heartbeat (q : Req) (ks : List Nat) (s : State) : (claimAll q ks s).2.cudex.heartbeat = s.cudex.heartbeat := by
  unfold claimAll
  split
  · rfl
  · exact forEach_keeps (·.cudex.heartbeat) _ _ _ (fun k t => claimImplicit_cudex_heartbeat q k t)
@[simp] theorem takenState_cudex_heartbeat (c : CmdSpec) (s : State) (p : Port) (sl : Fin 4) : (takenState c s p sl).cudex.heartbeat = s.cudex.heartbeat := by
  unfold takenState
  split <;> simp
@[simp] theorem acceptSlot_cudex_wdAt (p : Port) (sl : Fin 4) (s : State) : (acceptSlot p sl s).cudex.wdAt = s.cudex.wdAt := rfl
@[simp] theorem claimImplicit_cudex_wdAt (q : Req) (k : Nat) (s : State) : (claimImplicit q k s).cudex.wdAt = s.cudex.wdAt := by unfold claimImplicit; split <;> rfl
@[simp] theorem claimAll_cudex_wdAt (q : Req) (ks : List Nat) (s : State) : (claimAll q ks s).2.cudex.wdAt = s.cudex.wdAt := by
  unfold claimAll
  split
  · rfl
  · exact forEach_keeps (·.cudex.wdAt) _ _ _ (fun k t => claimImplicit_cudex_wdAt q k t)
@[simp] theorem takenState_cudex_wdAt (c : CmdSpec) (s : State) (p : Port) (sl : Fin 4) : (takenState c s p sl).cudex.wdAt = s.cudex.wdAt := by
  unfold takenState
  split <;> simp
@[simp] theorem acceptSlot_cudex_wdRestart (p : Port) (sl : Fin 4) (s : State) : (acceptSlot p sl s).cudex.wdRestart = s.cudex.wdRestart := rfl
@[simp] theorem claimImplicit_cudex_wdRestart (q : Req) (k : Nat) (s : State) : (claimImplicit q k s).cudex.wdRestart = s.cudex.wdRestart := by unfold claimImplicit; split <;> rfl
@[simp] theorem claimAll_cudex_wdRestart (q : Req) (ks : List Nat) (s : State) : (claimAll q ks s).2.cudex.wdRestart = s.cudex.wdRestart := by
  unfold claimAll
  split
  · rfl
  · exact forEach_keeps (·.cudex.wdRestart) _ _ _ (fun k t => claimImplicit_cudex_wdRestart q k t)
@[simp] theorem takenState_cudex_wdRestart (c : CmdSpec) (s : State) (p : Port) (sl : Fin 4) : (takenState c s p sl).cudex.wdRestart = s.cudex.wdRestart := by
  unfold takenState
  split <;> simp
@[simp] theorem acceptSlot_cudex_restartWaiter (p : Port) (sl : Fin 4) (s : State) : (acceptSlot p sl s).cudex.restartWaiter = s.cudex.restartWaiter := rfl
@[simp] theorem claimImplicit_cudex_restartWaiter (q : Req) (k : Nat) (s : State) : (claimImplicit q k s).cudex.restartWaiter = s.cudex.restartWaiter := by unfold claimImplicit; split <;> rfl
@[simp] theorem claimAll_cudex_restartWaiter (q : Req) (ks : List Nat) (s : State) : (claimAll q ks s).2.cudex.restartWaiter = s.cudex.restartWaiter := by
  unfold claimAll
  split
  · rfl
  · exact forEach_keeps (·.cudex.restartWaiter) _ _ _ (fun k t => claimImplicit_cudex_restartWaiter q k t)
@[simp] theorem takenState_cudex_restartWaiter (c : CmdSpec) (s : State) (p : Port) (sl : Fin 4) : (takenState c s p sl).cudex.restartWaiter = s.cudex.restartWaiter := by
  unfold takenState
  split <;> simp
@[simp] theorem acceptSlot_cudex_logThreshold (p : Port) (sl : Fin 4) (s : State) : (acceptSlot p sl s).cudex.logThreshold = s.cudex.logThreshold := rfl
@[simp] theorem claimImplicit_cudex_logThreshold (q : Req) (k : Nat) (s : State) : (claimImplicit q k s).cudex.logThreshold = s.cudex.logThreshold := by unfold claimImplicit; split <;> rfl
@[simp] theorem claimAll_cudex_logThreshold (q : Req) (ks : List Nat) (s : State) : (claimAll q ks s).2.cudex.logThreshold = s.cudex.logThreshold := by
  unfold claimAll
  split
  · rfl
  · exact forEach_keeps (·.cudex.logThreshold) _ _ _ (fun k t => claimImplicit_cudex_logThreshold q k t)
@[simp] theorem takenState_cudex_logThreshold (c : CmdSpec) (s : State) (p : Port) (sl : Fin 4) : (takenState c s p sl).cudex.logThreshold = s.cudex.logThreshold := by
  unfold takenState
  split <;> simp
@[simp] theorem acceptSlot_cudex_windows (p : Port) (sl : Fin 4) (s : State) : (acceptSlot p sl s).cudex.windows = s.cudex.windows := rfl
@[simp] theorem claimImplicit_cudex_windows (q : Req) (k : Nat) (s : State) : (claimImplicit q k s).cudex.windows = s.cudex.windows := by unfold claimImplicit; split <;> rfl
@[simp] theorem claimAll_cudex_windows (q : Req) (ks : List Nat) (s : State) : (claimAll q ks s).2.cudex.windows = s.cudex.windows := by
  unfold claimAll
  split
  · rfl
  · exact forEach_keeps (·.cudex.windows) _ _ _ (fun k t => claimImplicit_cudex_windows q k t)
@[simp] theorem takenState_cudex_windows (c : CmdSpec) (s : State) (p : Port) (sl : Fin 4) : (takenState c s p sl).cudex.windows = s.cudex.windows := by
  unfold takenState
  split <;> simp
@[simp] theorem acceptSlot_cudex_dbg (p : Port) (sl : Fin 4) (s : State) : (acceptSlot p sl s).cudex.dbg = s.cudex.dbg := rfl
@[simp] theorem claimImplicit_cudex_dbg (q : Req) (k : Nat) (s : State) : (claimImplicit q k s).cudex.dbg = s.cudex.dbg := by unfold claimImplicit; split <;> rfl
@[simp] theorem claimAll_cudex_dbg (q : Req) (ks : List Nat) (s : State) : (claimAll q ks s).2.cudex.dbg = s.cudex.dbg := by
  unfold claimAll
  split
  · rfl
  · exact forEach_keeps (·.cudex.dbg) _ _ _ (fun k t => claimImplicit_cudex_dbg q k t)
@[simp] theorem takenState_cudex_dbg (c : CmdSpec) (s : State) (p : Port) (sl : Fin 4) : (takenState c s p sl).cudex.dbg = s.cudex.dbg := by
  unfold takenState
  split <;> simp

/-- A granted request that is answered at once. -/
theorem gives_done {c : CmdSpec} {s u : State} {p : Port} {sl : Fin 4} {st : Nat} {res : Results} {P : State → Prop}
    (h : Granted c s p sl) (hb : c.body (takenReq s p sl) (takenState c s p sl) = (u, .done st res))
    (hu : u.slot p sl = (takenState c s p sl).slot p sl)
    (hp : P (committed s (postResponse p sl st u.tick.number.toNat res u))) :
    ∃ t, runCmd c p sl s = .next t ∧ P t := by
  have hr : answer (takenReq s p sl).waiter (.done st res) u = postResponse p sl st u.tick.number.toNat res u := by
    rw [takenReq_waiter]
    simp only [answer, reply, replyAt, hu.trans (takenState_slot c s p sl), and_self, if_true]
  rw [runCmd_granted h, hb, hr]
  exact ⟨_, rfl, hp⟩

/-- What the slot then holds. -/
theorem answered_committed {c : CmdSpec} {s u : State} {p : Port} {sl : Fin 4} {st : Nat} {res : Results}
    (hu : u.slot p sl = (takenState c s p sl).slot p sl) (ht : u.tick.number = s.tick.number) :
    Answered s (committed s (postResponse p sl st u.tick.number.toNat res u)) p sl st res := by
  unfold Answered
  rw [committed_slot, postResponse_slot, hu.trans (takenState_slot c s p sl), ht]
  exact ⟨rfl, rfl⟩

/-- A granted request that waits. -/
theorem gives_wait {c : CmdSpec} {s u : State} {p : Port} {sl : Fin 4} {P : State → Prop}
    (h : Granted c s p sl) (hb : c.body (takenReq s p sl) (takenState c s p sl) = (u, .wait)) (hp : P (committed s u)) :
    ∃ t, runCmd c p sl s = .next t ∧ P t := by
  rw [runCmd_granted h, hb]
  exact ⟨_, rfl, hp⟩

theorem waits_committed {c : CmdSpec} {s u : State} {p : Port} {sl : Fin 4}
    (hu : u.slot p sl = (takenState c s p sl).slot p sl) : Waits (committed s u) p sl := by
  unfold Waits
  rw [committed_slot, hu, takenState_slot]


end Sys2Proof.Machine
end

