-- ==== Sys2Proof/Laws/Copy.lean ====
section
/-! SUPPORT. Copying a library entry out of a protected range that nobody has written (R130, R388): it verifies, and every
frame is zero. -/

namespace Sys2Proof.Machine

/-- Protected range 0 stands open and nothing has been written to HBM. -/
structure Untouched (s : State) : Prop where
  mem : s.hbm.mem = []
  ecc : s.hbm.ecc = []
  poison : s.hbm.poison = []
  isOpen : s.dev.rangesClosed = false
  defined : (s.range 0).defined = true
  root : ∀ i, lget 0 (s.range 0).root i = 0
  rootOk : (s.range 0).rootBad = false

/-- `n` zero bytes. -/
def zeros (n : Nat) : List Byte := List.replicate n 0#8

theorem rdBytes_nil (a n : Nat) : rdBytes [] a n = zeros n := by
  apply List.ext_getElem
  · simp [rdBytes, zeros]
  · intro i h₁ h₂
    simp only [rdBytes, zeros, List.getElem_map, List.getElem_replicate]
    rfl

theorem leNat_zeros (n : Nat) : leNat (zeros n) = 0 := by
  induction n with
  | zero => rfl
  | succ n ih =>
    have : zeros (n + 1) = 0#8 :: zeros n := List.replicate_succ
    rw [this, leNat, ih]
    rfl

theorem part_zeros (n a b : Nat) : ((zeros n).drop a).take b = zeros (min b (n - a)) := by
  simp [zeros]

theorem ctrAt_zeros (n c : Nat) : ctrAt (zeros n) c = 0 := by
  rw [ctrAt, part_zeros, leNat_zeros]

theorem minorAt_zeros (n k : Nat) : minorAt (zeros n) k = 0 := by
  rw [minorAt, part_zeros, leNat_zeros]

theorem all_zeros (n : Nat) : (zeros n).all (· == 0) = true := by
  simp [zeros]

theorem eccBad_nil {h : HbmSt} (e : h.ecc = []) (a n : Nat) : h.eccBad a n = false := by
  unfold HbmSt.eccBad HbmSt.eccAt
  rw [e]
  simp [tget]

theorem verifyItem_zeros {h : HbmSt} (m : h.mem = []) (e : h.ecc = []) (r : Range) (k j : Nat) :
    verifyItem h r k j 0 = some (zeros (itemLen k)) := by
  simp only [verifyItem, m, eccBad_nil e, rdBytes_nil, all_zeros]
  rfl

theorem itemLen_leaf : itemLen 0 = 256 := rfl

theorem walk_zeros {h : HbmSt} (m : h.mem = []) (e : h.ecc = []) (r : Range) (page : Nat) (k : Nat) :
    walk h r page k 0 = .ok (zeros 256) := by
  induction k with
  | zero => rw [walk, verifyItem_zeros m e, afterItem, itemLen_leaf]
  | succ k ih => rw [walk, verifyItem_zeros m e, afterItem, ctrAt_zeros, ih]

theorem pathOf_zeros {s : State} (u : Untouched s) (page : Nat) :
    pathOf s.hbm (s.range 0) page = .ok (zeros 256) := by
  have r : (lget 0 (s.range 0).root (page / 8 ^ (s.range 0).depth)).toNat = 0 := by rw [u.root]; rfl
  unfold pathOf
  rw [u.rootOk, r, if_neg Bool.false_ne_true, walk_zeros u.mem u.ecc]

theorem Untouched.bump {s : State} (u : Untouched s) (i n : Nat) : Untouched (bumpRange 0 i n s) := by
  constructor
  · exact u.mem
  · exact u.ecc
  · exact u.poison
  · exact u.isOpen
  · simpa [bumpRange, modRange, modHbm, State.range] using u.defined
  · simpa [bumpRange, modRange, modHbm, State.range] using u.root
  · simpa [bumpRange, modRange, modHbm, State.range] using u.rootOk

/-- A line without a stored error is read without a trace (R377). -/
theorem Untouched.touchLine {s : State} (u : Untouched s) (a : Nat) (fettler : Bool) : touchLine a fettler s = s := by
  have c : (s.hbm.eccAt a).out = .clean := by
    unfold HbmSt.eccAt
    rw [u.ecc]
    rfl
  unfold Machine.touchLine
  rw [c]
  rfl

theorem Untouched.touchPath {s : State} (u : Untouched s) (r : Range) (page : Nat) (res : PathRes) :
    touchPath r page res s = s := by
  have loop : ∀ {α : Type} (l : List α) (f : α → State → State), (∀ x, f x s = s) → forEach l f s = s := by
    intro α l f h
    induction l with
    | nil => rfl
    | cons x l ih => exact (congrArg (forEach l f) (h x)).trans ih
  exact loop _ _ (fun k => loop _ _ (fun i => u.touchLine _ _))

theorem readPageLines_zeros (ri mid a off : Nat) (lines : List Nat) (h0 : ri = 0) :
    ∀ s : State, Untouched s →
      ∃ t, readPageLines ri mid a off (zeros 256) lines (s, {}) = (t, {}) ∧ Untouched t := by
  subst h0
  induction lines with
  | nil => intro s u; exact ⟨s, rfl, u⟩
  | cons k ks ih =>
    intro s u
    obtain ⟨t, ht, v⟩ := ih (bumpRange 0 0 1 s) (u.bump 0 1)
    refine ⟨t, ?_, v⟩
    rw [← ht]
    simp only [readPageLines, List.foldl_cons, minorAt_zeros]
    rfl

theorem readPage_zeros {s : State} (u : Untouched s) (mid a off : Nat) :
    ∃ t, readPage mid a off (s, {}) = (t, {}) ∧ Untouched t := by
  have hp : s.poisoned 0 ((s.range 0).pageOf a) = false := by simp [State.poisoned, u.poison]
  obtain ⟨t, ht, v⟩ := readPageLines_zeros 0 mid a off (List.range 64) rfl s u
  refine ⟨t, ?_, v⟩
  rw [← ht]
  simp only [readPage, u.defined, u.isOpen, hp, pathOf_zeros u, u.touchPath]
  rfl

theorem readPages_zeros (f g : Nat → Nat) (mid : Nat) (ps : List Nat) :
    ∀ s : State, Untouched s →
      ∃ t, ps.foldl (fun acc p => readPage mid (f p) (g p) acc) (s, {}) = (t, {}) ∧ Untouched t := by
  induction ps with
  | nil => intro s u; exact ⟨s, rfl, u⟩
  | cons p ps ih =>
    intro s u
    obtain ⟨t, ht, v⟩ := readPage_zeros u mid (f p) (g p)
    obtain ⟨w, hw, x⟩ := ih t v
    exact ⟨w, by rw [List.foldl_cons, ht]; exact hw, x⟩

/-- A READY entry that may be placed in the region copies with every frame zero. -/
theorem copyFor_zeros {s : State} (u : Untouched s) {r : Nat} {f : FillJob} (fit : (s.entry f.index).fits r = true)
    (ready : (s.entry f.index).st = entryReady) (sound : f.spoiled = false) : (copyFor r f s).2 = .ok [] 0 := by
  obtain ⟨t, ht, -⟩ := readPages_zeros (fun p => entryAddr s f.index + 4096 * p) (fun p => 4096 * p) r (List.range 792) s u
  simp only [copyFor, fit, sound, copyEntry, ready, ne_eq, not_true_eq_false, if_false, readEntry, ht]
  rfl

end Sys2Proof.Machine
end

