-- ==== Sys2Proof/Laws/Directory.lean ====
section
/-! SUPPORT. Programming erased flash and reading it back (R168), and a flash whose directory is good (R170 to R172): a
directory sealed with its CRC reads good, and the images that its entries name read good. -/

namespace Sys2Proof.Machine

/-! ### Reading what was programmed -/

theorem tget_filter_kept {α : Type} (d : α) (t : Table α) (p : Nat × α → Bool) (k : Nat) (h : ∀ v, p (k, v) = true) :
    tget d (t.filter p) k = tget d t k := by
  induction t with
  | nil => rfl
  | cons e t ih =>
    obtain ⟨j, v⟩ := e
    by_cases e : j = k
    · subst e
      simp [h, tget]
    · by_cases q : p (j, v) = true
      · simp [q, tget, e, ih]
      · simp [q, tget, e, ih]

theorem rdBytes_eq (m : Memory) (a n : Nat) : rdBytes m a n = (List.range n).map (fun i => rdByte m (a + i)) := by
  unfold rdBytes
  apply List.map_congr_left
  intro i hi
  have : i < n := List.mem_range.mp hi
  exact tget_filter_kept 0 m _ _ (fun _ => by simp; omega)

/-- A byte after programming: the bits that either has cleared are clear. -/
theorem rdByte_programBytes (bs : List Byte) (m : Memory) (a b : Nat) :
    rdByte (programBytes m a bs) b =
      if a ≤ b ∧ b < a + bs.length then rdByte m b ||| ~~~(bs.getD (b - a) 0) else rdByte m b := by
  induction bs generalizing m a with
  | nil => simp only [programBytes, List.length_nil]; rw [if_neg (by omega)]
  | cons x xs ih =>
    rw [programBytes, ih]
    simp only [List.length_cons]
    by_cases h : b = a
    · subst h
      rw [if_neg (by omega), if_pos (by omega), rdByte_wrByte_same, Nat.sub_self]
      rfl
    · rw [rdByte_wrByte_ne m a b _ h]
      by_cases g : a + 1 ≤ b ∧ b < a + 1 + xs.length
      · rw [if_pos g, if_pos (by omega)]
        obtain ⟨k, rfl⟩ : ∃ k, b = a + 1 + k := ⟨b - (a + 1), by omega⟩
        rw [show a + 1 + k - (a + 1) = k by omega, show a + 1 + k - a = k + 1 by omega, List.getD_cons_succ]
      · rw [if_neg g, if_neg (by omega)]

/-- Bytes programmed into erased flash read back. -/
theorem flashBytes_programmed (l : LibSt) (m : Memory) (a : Nat) (bs : List Byte)
    (h : ∀ i < bs.length, rdByte l.flash (a + i) = rdByte (programBytes m a bs) (a + i))
    (e : ∀ i < bs.length, rdByte m (a + i) = 0) (nb : l.blankAt a = false) : l.flashBytes a bs.length = bs := by
  unfold LibSt.flashBytes
  rw [nb, if_neg Bool.false_ne_true, rdBytes_eq]
  apply List.ext_getElem
  · simp
  · intro i h₁ h₂
    simp only [List.getElem_map, List.getElem_range]
    rw [h i h₂, rdByte_programBytes, if_pos (by omega), e i h₂, Nat.add_sub_cancel_left, List.getD_eq_getElem _ _ h₂]
    simp

/-! ### The CRC of a directory -/

theorem leBytes_length (n v : Nat) : (leBytes n v).length = n := by
  induction n generalizing v with
  | zero => rfl
  | succ n ih => simp [leBytes, ih]

theorem leNat_leBytes (n v : Nat) (h : v < 256 ^ n) : leNat (leBytes n v) = v := by
  induction n generalizing v with
  | zero => simp only [leBytes, leNat]; omega
  | succ n ih =>
    rw [leBytes, leNat, ih _ (by rw [Nat.pow_succ] at h; omega)]
    simp only [BitVec.toNat_ofNat]
    omega

theorem setLe_setLe (d : List Byte) (i n v w : Nat) (h : i + n ≤ d.length) :
    setLe (setLe d i n v) i n w = setLe d i n w := by
  have a : (d.take i).length = i := by simp; omega
  have b : (d.take i ++ leBytes n v).length = i + n := by rw [List.length_append, a, leBytes_length]
  unfold setLe
  have e : (d.take i ++ leBytes n v ++ d.drop (i + n)).drop (i + n) = d.drop (i + n) := by
    rw [List.drop_append_of_le_length (Nat.le_of_eq b.symm), List.drop_of_length_le (Nat.le_of_eq b),
      List.nil_append]
  have f : (d.take i ++ leBytes n v ++ d.drop (i + n)).take i = d.take i := by
    rw [List.append_assoc, List.take_append_of_le_length (by omega), List.take_take, Nat.min_self]
  rw [e, f]

theorem leAt_setLe (d : List Byte) (i n v : Nat) (h : i + n ≤ d.length) (b : v < 256 ^ n) : leAt (setLe d i n v) i n = v := by
  have a : (d.take i).length = i := by simp; omega
  simp only [leAt, setLe, List.append_assoc]
  rw [List.drop_append_of_le_length (Nat.le_of_eq a.symm), List.drop_of_length_le (Nat.le_of_eq a),
    List.nil_append, List.take_append_of_le_length (Nat.le_of_eq (leBytes_length n v).symm),
    List.take_of_length_le (Nat.le_of_eq (leBytes_length n v)), leNat_leBytes n v b]

/-- A sealed directory carries its own CRC-32C (R170). -/
theorem sealDir_crc (d : List Byte) (h : 16 ≤ d.length) :
    leAt (sealDir d) 12 4 = (crc32c (setLe (sealDir d) 12 4 0)).toNat := by
  unfold sealDir
  rw [setLe_setLe d 12 4 _ 0 h, leAt_setLe d 12 4 _ h (Nat.lt_of_lt_of_eq (crc32c (setLe d 12 4 0)).isLt (by decide))]

/-! ### A directory with one image stored -/

/-- A directory entry of Table 7.2: type, state, no index, flash address 0x20000, length, image sequence 0 and digest. -/
def entryFor (ty st : Nat) (bs : List Byte) : List Byte :=
  leBytes 1 ty ++ leBytes 1 st ++ leBytes 2 0xFFFF ++ leBytes 4 0x20000 ++ leBytes 4 bs.length ++ leBytes 4 0
    ++ beBytes 48 (Config.sha384 bs).toNat

/-- Three entries, firmware image A and boot pattern A valid and firmware image B unused, before sealing; `z` are the bytes
after them. -/
def plainDir (bs z : List Byte) : List Byte :=
  leBytes 4 0x44544E47 ++ leBytes 2 1 ++ leBytes 2 3 ++ leBytes 56 0
    ++ (entryFor 1 0x3F bs ++ (entryFor 0x11 0x3F bs ++ (entryFor 2 0xFF bs ++ z)))

/-- The flash: that directory as copy 0, and the stored image. -/
def flashOf (bs z : List Byte) : Memory := programBytes (programBytes [] 0 (sealDir (plainDir bs z))) 0x20000 bs

theorem entryFor_length (ty st : Nat) (bs : List Byte) : (entryFor ty st bs).length = 64 := by
  simp [entryFor, leBytes_length, beBytes]

theorem plainDir_length {bs z : List Byte} (hz : z.length = 3840) : (plainDir bs z).length = 4096 := by
  simp [plainDir, leBytes_length, entryFor_length, hz]

theorem sealDir_length {bs z : List Byte} (hz : z.length = 3840) : (sealDir (plainDir bs z)).length = dirBytes := by
  simp [sealDir, setLe, leBytes_length, plainDir_length hz, dirBytes]

theorem flashOf_dir (l : LibSt) (bs z : List Byte) (hz : z.length = 3840) (h : l.flash = flashOf bs z)
    (nb : l.blank0 = false) :
    l.flashBytes 0 dirBytes = sealDir (plainDir bs z) := by
  rw [← sealDir_length (bs := bs) hz]
  apply flashBytes_programmed l []
  · intro i hi
    rw [sealDir_length hz] at hi
    rw [h, flashOf, rdByte_programBytes, if_neg (by simp only [dirBytes] at hi; omega)]
  · intro i _; rfl
  · exact nb

theorem flashOf_image (l : LibSt) (bs z : List Byte) (hz : z.length = 3840) (h : l.flash = flashOf bs z)
    (nb : l.blank0 = false) : l.flashBytes 0x20000 bs.length = bs := by
  apply flashBytes_programmed l (programBytes [] 0 (sealDir (plainDir bs z)))
  · intro i _; rw [h]; rfl
  · intro i _
    rw [rdByte_programBytes, sealDir_length hz, if_neg (by simp only [dirBytes]; omega)]
    rfl
  · exact nb

/-- Fields beside the CRC do not depend on it, and the CRC may be any number. -/
theorem sealed_fields (bs z : List Byte) (v : Nat) :
    leAt (setLe (plainDir bs z) 12 4 v) 0 4 = 0x44544E47 ∧ leAt (setLe (plainDir bs z) 12 4 v) 4 2 = 1 ∧
    leAt (setLe (plainDir bs z) 12 4 v) 6 2 = 3 := by
  have a : leAt (setLe (plainDir bs z) 12 4 v) 0 4 = leNat (leBytes 4 0x44544E47) := rfl
  have b : leAt (setLe (plainDir bs z) 12 4 v) 4 2 = leNat (leBytes 2 1) := rfl
  have c : leAt (setLe (plainDir bs z) 12 4 v) 6 2 = leNat (leBytes 2 3) := rfl
  rw [a, b, c, leNat_leBytes 4 _ (by decide), leNat_leBytes 2 1 (by decide), leNat_leBytes 2 3 (by decide)]
  exact ⟨rfl, rfl, rfl⟩

theorem sealed_entries (bs z : List Byte) (v : Nat) :
    dirEntries (setLe (plainDir bs z) 12 4 v) = [(0, entryFor 1 0x3F bs), (1, entryFor 0x11 0x3F bs), (2, entryFor 2 0xFF bs)] := by
  have part : (setLe (plainDir bs z) 12 4 v).drop 64 =
      entryFor 1 0x3F bs ++ (entryFor 0x11 0x3F bs ++ (entryFor 2 0xFF bs ++ z)) := rfl
  have one : ∀ x y : List Byte, x.length = 64 → (x ++ y).drop 64 = y ∧ (x ++ y).take 64 = x := by
    intro x y h
    exact ⟨by rw [← h]; exact List.drop_left, by rw [← h]; exact List.take_left⟩
  have l1 := one _ (entryFor 0x11 0x3F bs ++ (entryFor 2 0xFF bs ++ z)) (entryFor_length 1 0x3F bs)
  have l2 := one _ (entryFor 2 0xFF bs ++ z) (entryFor_length 0x11 0x3F bs)
  have l3 := one _ (z) (entryFor_length 2 0xFF bs)
  unfold dirEntries
  rw [(sealed_fields bs z v).2.2]
  simp only [show min 63 3 = 3 from rfl, show List.range 3 = [0, 1, 2] from rfl, List.map_cons, List.map_nil]
  rw [show 64 + 64 * 0 = 64 from rfl, show 64 + 64 * 1 = 64 + 64 from rfl, show 64 + 64 * 2 = 64 + 64 + 64 from rfl,
    ← List.drop_drop, ← List.drop_drop, ← List.drop_drop, part, l1.1, l1.2, l2.1, l2.2, l3.2]

theorem entryFor_fields (ty st : Nat) (bs : List Byte) (h : bs.length < 2 ^ 20) (ht : ty < 256) (hs : st < 256) :
    entType (entryFor ty st bs) = ty ∧ entState (entryFor ty st bs) = st ∧ entAddr (entryFor ty st bs) = 0x20000 ∧
    entLen (entryFor ty st bs) = bs.length ∧ entSeq (entryFor ty st bs) = 0 ∧
    entDigest (entryFor ty st bs) = beBytes 48 (Config.sha384 bs).toNat := by
  have t : entType (entryFor ty st bs) = leNat (leBytes 1 ty) := rfl
  have u : entState (entryFor ty st bs) = leNat (leBytes 1 st) := rfl
  have n : entLen (entryFor ty st bs) = leNat (leBytes 4 bs.length) := rfl
  have x : entAddr (entryFor ty st bs) = leNat (leBytes 4 0x20000) := rfl
  have y : entSeq (entryFor ty st bs) = leNat (leBytes 4 0) := rfl
  have d : entDigest (entryFor ty st bs) = (beBytes 48 (Config.sha384 bs).toNat).take 48 := rfl
  rw [t, u, n, d, x, y, leNat_leBytes 4 0x20000 (by decide), leNat_leBytes 4 0 (by decide), leNat_leBytes 1 ty (by omega), leNat_leBytes 1 st (by omega),
    leNat_leBytes 4 _ (by omega), List.take_of_length_le (by simp [beBytes, leBytes_length])]
  exact ⟨rfl, rfl, rfl, rfl, rfl, rfl⟩

/-- The library and its flash, of a size that holds what was programmed, on a device that Cupola does not treat as blank. -/
structure Stored (l : LibSt) (bs z : List Byte) : Prop where
  flash : l.flash = flashOf bs z
  size : l.flashSize0 = 2147483648
  blank : l.blank0 = false
  len : bs.length < 2 ^ 20
  pad : z.length = 3840

theorem Stored.dirCopy {l : LibSt} {bs z : List Byte} (h : Stored l bs z) : l.dirCopy 0 = some (sealDir (plainDir bs z)) := by
  have room : ¬ l.flashRoom (dirAt 0) < dirBytes := by
    simp [LibSt.flashRoom, dirAt, dirBytes, LibSt.flashSize, h.size]
  have c := sealDir_crc (plainDir bs z) (by rw [plainDir_length h.pad]; omega)
  unfold LibSt.dirCopy
  rw [if_neg room, show dirAt 0 = 0 from rfl, flashOf_dir l bs z h.pad h.flash h.blank]
  exact if_pos ⟨(sealed_fields bs z _).1, (sealed_fields bs z _).2.1, c⟩

theorem Stored.dirInUse {l : LibSt} {bs z : List Byte} (h : Stored l bs z) (other : l.dirCopy 1 = none) :
    l.dirInUse = some (0, sealDir (plainDir bs z)) := by
  unfold LibSt.dirInUse
  rw [h.dirCopy, other]

/-- Copy 1 of that flash is erased, so it is not good. -/
theorem Stored.copy1 {l : LibSt} {bs z : List Byte} (h : Stored l bs z) : l.dirCopy 1 = none := by
  have z : leAt (l.flashBytes (dirAt 1) dirBytes) 4 2 = 65535 := by
    have b : ∀ k, k < 4096 → rdByte l.flash (65536 + k) = 0 := by
      intro k hk
      rw [h.flash, flashOf, rdByte_programBytes, if_neg (by omega), rdByte_programBytes, sealDir_length h.pad,
        if_neg (by simp only [dirBytes]; omega)]
      rfl
    have : l.flashBytes (dirAt 1) dirBytes = List.replicate 4096 0xFF#8 := by
      unfold LibSt.flashBytes
      rw [show l.blankAt (dirAt 1) = false from h.blank, if_neg Bool.false_ne_true, rdBytes_eq]
      apply List.ext_getElem
      · rw [List.length_map, List.length_map, List.length_range, List.length_replicate]
        rfl
      · intro i h₁ h₂
        simp only [List.getElem_map, List.getElem_range, List.getElem_replicate]
        rw [show dirAt 1 = 65536 from rfl, b i (by rwa [List.length_replicate] at h₂)]
        decide
    rw [this, leAt, List.drop_replicate, List.take_replicate]
    decide
  unfold LibSt.dirCopy
  split
  · rfl
  · exact if_neg (by rw [z]; omega)

theorem imageOrder_stored (bs z : List Byte) (h : bs.length < 2 ^ 20) (v : Nat) :
    imageOrder (setLe (plainDir bs z) 12 4 v) 1 = [(1, entryFor 1 0x3F bs)] ∧
    imageOrder (setLe (plainDir bs z) 12 4 v) 0x11 = [(1, entryFor 0x11 0x3F bs)] := by
  have a := entryFor_fields 1 0x3F bs h (by omega) (by omega)
  have b := entryFor_fields 0x11 0x3F bs h (by omega) (by omega)
  have c := entryFor_fields 2 0xFF bs h (by omega) (by omega)
  constructor <;>
    simp [imageOrder, validEntry, sealed_entries, a.1, a.2.1, b.1, b.2.1, c.1, c.2.1]

theorem Stored.goodImage {l : LibSt} {bs z : List Byte} (h : Stored l bs z) (ty : Nat) (ht : ty < 256) :
    l.goodImage (entryFor ty 0x3F bs) = some bs := by
  have f := entryFor_fields ty 0x3F bs h.len ht (by omega)
  have room : ¬ l.flashRoom 0x20000 < bs.length := by
    have := h.len
    simp [LibSt.flashRoom, LibSt.flashSize, h.size]; omega
  unfold LibSt.goodImage
  simp only [f.2.2.1, f.2.2.2.1, f.2.2.2.2.2, room, if_false, flashOf_image l bs z h.pad h.flash h.blank, if_true]

theorem Stored.order {l : LibSt} {bs z : List Byte} (h : Stored l bs z) : ∃ d, l.dirInUse = some (0, d) ∧
    imageOrder d 1 = [(1, entryFor 1 0x3F bs)] ∧ imageOrder d 0x11 = [(1, entryFor 0x11 0x3F bs)] :=
  ⟨_, h.dirInUse h.copy1, imageOrder_stored bs z h.len (crc32c (setLe (plainDir bs z) 12 4 0)).toNat⟩

/-- Of one image in order, the one that reads good and is signed starts. -/
theorem bootFirmware_one {s : State} {d x bs : List Byte} (e : s.lib.dirInUse = some (0, d))
    (o : imageOrder d 1 = [(1, x)]) (g : s.lib.goodImage x = some bs) (sig : Config.firmwareSigned bs = true)
    (c : s.dev.resetCause ≠ 7) : bootFirmware s = some 1 := by
  have k : decide (s.dev.resetCause ≠ 7) = true := decide_eq_true c
  unfold bootFirmware
  rw [e]
  simp only [o, List.find?_cons, g, sig, k, Bool.true_or, Bool.and_self, Option.map_some]

/-- Firmware image A starts where its signature is good (R172). -/
theorem Stored.firmware {s : State} {bs z : List Byte} (h : Stored s.lib bs z) (sig : Config.firmwareSigned bs = true)
    (c : s.dev.resetCause ≠ 7) : bootFirmware s = some 1 := by
  obtain ⟨d, e, o, -⟩ := h.order
  exact bootFirmware_one e o (h.goodImage 1 (by omega)) sig c

/-- Boot pattern image A is the first to try (R172, R74). -/
theorem Stored.images {s : State} {bs z : List Byte} (h : Stored s.lib bs z) (t : s.lib.bootTried = []) :
    bootImages s = [(1, bs)] := by
  obtain ⟨d, e, -, o⟩ := h.order
  have g := h.goodImage 0x11 (by omega)
  generalize entryFor 0x11 0x3F bs = x at o g
  unfold bootImages
  rw [e]
  simp [o, g, t]

/-- Firmware image B is the slot to stage into, and its space is the rest of the device (R501, R502). -/
theorem Stored.stage {l : LibSt} {bs z : List Byte} (h : Stored l bs z) :
    entryOf (sealDir (plainDir bs z)) 2 = some (2, entryFor 2 0xFF bs) ∧
    stageSlot (sealDir (plainDir bs z)) 1 = (2, 1) ∧
    entrySpace l (sealDir (plainDir bs z)) 2 (entryFor 2 0xFF bs) = 2147483648 - 0x20000 := by
  have a := entryFor_fields 1 0x3F bs h.len (by omega) (by omega)
  have b := entryFor_fields 0x11 0x3F bs h.len (by omega) (by omega)
  have c := entryFor_fields 2 0xFF bs h.len (by omega) (by omega)
  have o := (imageOrder_stored bs z h.len (crc32c (setLe (plainDir bs z) 12 4 0)).toNat).1
  refine ⟨?_, ?_, ?_⟩
  · simp [entryOf, sealDir, sealed_entries, a.1, a.2.1, b.1, b.2.1, c.1, c.2.1]
  · simp [stageSlot, sealDir, o, a.2.2.2.2.1]
  · simp [entrySpace, sealDir, sealed_entries, a.2.2.1, b.2.2.1, c.2.2.1, LibSt.flashSize, h.size]

end Sys2Proof.Machine
end

