-- ==== Sys2Proof/Laws/Frame.lean ====
section
/-! SUPPORT. Frames: what a command does to the parts it does not touch, reduced to what its own part does. -/

namespace Sys2Proof.Machine

theorem Part.same_self (s : State) (x : Part) : x.same s s := by cases x <;> rfl

theorem Part.same_trans {s t u : State} {x : Part} (h : x.same s t) (k : x.same t u) : x.same s u := by
  cases x <;> simp_all [Part.same]

/-- Ending a command changes no part. -/
theorem Part.same_committed {s u : State} (v : State) {x : Part} (h : x.same s u) : x.same s (committed v u) := by
  cases x <;> simpa [Part.same] using h

/-- What an outcome's next state leaves of the parts outside a list. -/
def Keeps (s : State) (ps : List Part) (o : Out) : Prop := ∀ t, o = .next t → ∀ x : Part, x ∉ ps → x.same s t

theorem confined_iff (i : Instr) (s : State) (ps : List Part) : Confined i s ps ↔ Keeps s ps (exec i s) := Iff.rfl

theorem keeps_self (s : State) (ps : List Part) : Keeps s ps (.next s) := by
  intro t h x _
  cases h
  exact x.same_self s

/-- An event keeps what its effect keeps. -/
theorem keeps_occurs {c : Bool} {f : State → State} {s : State} {ps : List Part}
    (h : ∀ x : Part, x ∉ ps → x.same s (f s)) : Keeps s ps (occurs c f s) := by
  intro t ht x hx
  unfold occurs at ht
  split at ht
  · rw [commit_def] at ht
    cases ht
    exact Part.same_committed s (h x hx)
  · cases ht
    exact x.same_self s

theorem same_tail {c : CmdSpec} {q : Req} {u v : State} {ps : List Part} {w : OwnView} {x : Part} (hx : x ∉ ps)
    (h : ∀ q s, ∀ x : Part, x ∉ ps → x.same s (c.body q s).1) (hu : x.same v u) :
    x.same v (match w with
      | .other => reply q.waiter stNotOwner [] u
      | .conflict => reply q.waiter stConflict [] u
      | _ => answer q.waiter (c.body q u).2 (c.body q u).1) := by
  split
  · exact Part.same_trans hu (by cases x <;> simp [Part.same])
  · exact Part.same_trans hu (by cases x <;> simp [Part.same])
  · exact Part.same_trans (Part.same_trans hu (h q u x hx)) (by cases x <;> simp [Part.same])

/-- A Cudex command keeps what its own part keeps: taking a request and answering it changes no part. -/
theorem keeps_runCmd {c : CmdSpec} {p : Port} {sl : Fin 4} {s : State} {ps : List Part}
    (h : ∀ q s, ∀ x : Part, x ∉ ps → x.same s (c.body q s).1) : Keeps s ps (runCmd c p sl s) := by
  apply keeps_occurs
  intro x hx
  unfold serveReq
  dsimp only
  have ha : x.same s (acceptSlot p sl s) := by cases x <;> simp [Part.same]
  split
  · exact Part.same_trans ha (by cases x <;> simp [Part.same])
  · by_cases hq : isQuery c ((acceptSlot p sl s).req p sl) = true
    · rw [if_pos hq]
      have := same_tail (q := (acceptSlot p sl s).req p sl) (w := .mine) hx h ha
      exact this
    · rw [if_neg hq]
      exact same_tail (q := (acceptSlot p sl s).req p sl) hx h (Part.same_trans ha (by cases x <;> simp [Part.same]))

/-- A command that takes a request is `runCmd` of what its table says, or leaves the request POSTED while the region's
engines pause for a relock (R251). -/
theorem exec_request {i : Instr} {p : Port} {sl : Fin 4} {c : CmdSpec} (h : i.request = some (p, sl, c)) (s : State) :
    exec i s = runCmd c p sl s ∨ exec i s = .next s := by
  cases i <;> simp only [Instr.request, Option.some.injEq, Prod.mk.injEq, reduceCtorEq] at h <;>
    obtain ⟨rfl, rfl, rfl⟩ := h
  case dspStart p sl =>
    by_cases k : awaitsRelock p sl s = true
    · exact .inr (if_pos k)
    · exact .inl (if_neg k)
  case dspHalt p sl =>
    by_cases k : awaitsRelock p sl s = true
    · exact .inr (if_pos k)
    · exact .inl (if_neg k)
  all_goals exact .inl rfl

end Sys2Proof.Machine
end

