-- ==== Sys2Proof/WellFormed.lean ====
section
/-! DEFINITION. Which terms of the syntax are commands that the manual's tables allow: what the types alone do not say. The
meanings take any term; these checks say which ones stand for something that can be sent or can happen. -/

namespace Sys2Proof

/-- A list without repeats. -/
def noRepeats {α : Type} [DecidableEq α] : List α → Bool
  | [] => true
  | x :: xs => !xs.contains x && noRepeats xs

/-- As many write-data lines as the request has lines (R36, Table 2.3). -/
def linesFit (h : ReqHdr) (lines : List (BitVec 512 × BitVec 64)) : Bool := lines.length == h.len.val + 1

/-- The request is one line. -/
def oneLine (h : ReqHdr) : Bool := h.len.val == 0

/-- A failing block: its coordinates in the Cope (R101). -/
def blockFits (b : Nat × Nat) : Bool := decide (b.1 < 512) && decide (b.2 < 256)

/-- A signal is named at most once, and is one of a port whose handshake comes from outside the region (Tables 2.3, 15.13, 19.5). -/
def inputsFit (i : FabricInputs) : Bool :=
  noRepeats i.ports && i.ports.all (fun e => match e.1 with
    | .runner p => decide (p < 8) && decide (e.2 < 525)
    | .mailbox => decide (e.2 < 775)
    | .crc => decide (e.2 < 66)
    | _ => false)

/-- Is the term a command that the tables allow? -/
def WellFormed (i : Instr) : Bool :=
  match i with
  | .write h lines | .push h lines | .pushEop h lines | .abort h lines | .registerWrite h lines => linesFit h lines
  | .remoteRequest h op lines =>
    match op with
    | .read => lines.isEmpty
    | .write => linesFit h lines
    | _ => lines.length == 1
  | .crcData h _ | .crcCtrl h _ | .crcValue h _ | .tickNumberLowRead h => oneLine h
  | .bootBondSweepComplete fs cs => noRepeats fs && noRepeats cs
  | .busSweep b fs => noRepeats fs && fs.all (fun f => f.region == b.region && f.bundle == b.bundle)
  | .testComplete rs fs => rs.all (fun o => o.failing.all blockFits) && noRepeats fs
  | .bramPortOperation _ a b _ => a.isSome || b.isSome
  | .replicaRead l => noRepeats (l.map (fun x => (x.1, x.2.1)))
  | .sensorSample raw => raw.length == 144
  | .governorEstimate l => noRepeats (l.map (·.region))
  | .ageingMeasurement l => noRepeats (l.map (·.1))
  | .sliceEnd _ ps _ | .sliceRepeat _ ps _ => ps.all blockFits
  | .hostRequest _ _ rd bytes count =>
    if rd then bytes.isEmpty && decide (1 ≤ count) && decide (count ≤ 4096)
    else decide (1 ≤ bytes.length) && decide (bytes.length ≤ 512)
  | .mgmtRead _ count => decide (1 ≤ count)
  | .fabricClockEdge _ x => inputsFit x
  | _ => true

end Sys2Proof
end

