-- ==== Sys2Proof/Laws/PerInstr.lean ====
section
/-! SUPPORT. Families of facts said of each command: `Requests`, that a command which takes a Cudex request is well formed
whatever its port and slot, its operands being in the request and not in the term. -/

namespace Sys2Proof.Laws.Requests

/-- A command that takes a request is well formed. -/
def Statement (i : Instr) : Prop := ∀ r, i.request = some r → WellFormed i = true

theorem aonPowerUp : Statement .aonPowerUp := nofun
theorem powerOff : Statement .powerOff := nofun
theorem porstAssert : Statement .porstAssert := nofun
theorem porstRelease (straps : Straps) : Statement (.porstRelease straps) := nofun
theorem wrstLowDetected : Statement .wrstLowDetected := nofun
theorem warmResetBegin : Statement .warmResetBegin := nofun
theorem crystalWaitEnd : Statement .crystalWaitEnd := nofun
theorem monitorWindow (count : Nat) : Statement (.monitorWindow count) := nofun
theorem rootPllLock : Statement .rootPllLock := nofun
theorem clockSwitchAck (sw : ClockSwitch) : Statement (.clockSwitchAck sw) := nofun
theorem clockSwitchCheck (sw : ClockSwitch) (dead : Bool) : Statement (.clockSwitchCheck sw dead) := nofun
theorem firmwareAuthenticated : Statement .firmwareAuthenticated := nofun
theorem hbmZeroFillComplete : Statement .hbmZeroFillComplete := nofun
theorem bootBondSweepComplete (findings : List BondFinding) (checkers : List CheckerFailure) :
    Statement (.bootBondSweepComplete findings checkers) := nofun
theorem bootLoadComplete : Statement .bootLoadComplete := nofun
theorem releaseIsolationOpen : Statement .releaseIsolationOpen := nofun
theorem releaseOutputEnable : Statement .releaseOutputEnable := nofun
theorem cooldownEnd : Statement .cooldownEnd := nofun
theorem busTransfer (b : BusBundle) (first : BitVec 33) (second : BitVec 33) :
    Statement (.busTransfer b first second) := nofun
theorem quiesceAck (r : Fin 64) : Statement (.quiesceAck r) := nofun
theorem quiesceTimeout (r : Fin 64) : Statement (.quiesceTimeout r) := nofun
theorem shelfSaveComplete (r : Fin 64) : Statement (.shelfSaveComplete r) := nofun
theorem powerEntryComplete (r : Fin 64) : Statement (.powerEntryComplete r) := nofun
theorem powerExitComplete (r : Fin 64) (checker : Option (Fin 4)) : Statement (.powerExitComplete r checker) := nofun
theorem read (h : ReqHdr) : Statement (.read h) := nofun
theorem write (h : ReqHdr) (lines : List WLine) : Statement (.write h lines) := nofun
theorem add32 (h : ReqHdr) (operand : Line) : Statement (.add32 h operand) := nofun
theorem add64 (h : ReqHdr) (operand : Line) : Statement (.add64 h operand) := nofun
theorem swap32 (h : ReqHdr) (operand : Line) : Statement (.swap32 h operand) := nofun
theorem swap64 (h : ReqHdr) (operand : Line) : Statement (.swap64 h operand) := nofun
theorem runnerResponse (src : Source) (tag : Fin 64) : Statement (.runnerResponse src tag) := nofun
theorem runnerTimeout (src : Source) (tag : Fin 64) : Statement (.runnerTimeout src tag) := nofun
theorem routerWaitPromotion (src : Source) (tag : Fin 64) : Statement (.routerWaitPromotion src tag) := nofun
theorem hbmQueueAged (src : Source) (tag : Fin 64) : Statement (.hbmQueueAged src tag) := nofun
theorem runnerCounters (p : Port) (sl : Fin 4) : Statement (.runnerCounters p sl) := fun _ _ => rfl
theorem deviceMode (p : Port) (sl : Fin 4) : Statement (.deviceMode p sl) := fun _ _ => rfl
theorem warmReset (p : Port) (sl : Fin 4) : Statement (.warmReset p sl) := fun _ _ => rfl
theorem regionReset (p : Port) (sl : Fin 4) : Statement (.regionReset p sl) := fun _ _ => rfl
theorem regionResetEnd (r : Fin 64) : Statement (.regionResetEnd r) := nofun
theorem tickBoundary : Statement .tickBoundary := nofun
theorem slotBoundary (k : Fin 16) : Statement (.slotBoundary k) := nofun
theorem delayedSwitch (r : Fin 64) : Statement (.delayedSwitch r) := nofun
theorem graceExpiry (r : Fin 64) : Statement (.graceExpiry r) := nofun
theorem tickInEdge (pos : Nat) : Statement (.tickInEdge pos) := nofun
theorem tickHoldover : Statement .tickHoldover := nofun
theorem tickConfig (p : Port) (sl : Fin 4) : Statement (.tickConfig p sl) := fun _ _ => rfl
theorem scheduleSet (p : Port) (sl : Fin 4) : Statement (.scheduleSet p sl) := fun _ _ => rfl
theorem planeFill (p : Port) (sl : Fin 4) : Statement (.planeFill p sl) := fun _ _ => rfl
theorem planeFillComplete (r : Fin 64) : Statement (.planeFillComplete r) := nofun
theorem planeOverride (p : Port) (sl : Fin 4) : Statement (.planeOverride p sl) := fun _ _ => rfl
theorem planeStatus (p : Port) (sl : Fin 4) : Statement (.planeStatus p sl) := fun _ _ => rfl
theorem spineContention (r : Fin 64) (spine : Fin 64) : Statement (.spineContention r spine) := nofun
theorem regionIsolate (p : Port) (sl : Fin 4) : Statement (.regionIsolate p sl) := fun _ _ => rfl
theorem spineEnable (p : Port) (sl : Fin 4) : Statement (.spineEnable p sl) := fun _ _ => rfl
theorem defectMapRead (p : Port) (sl : Fin 4) : Statement (.defectMapRead p sl) := fun _ _ => rfl
theorem libLoad (p : Port) (sl : Fin 4) : Statement (.libLoad p sl) := fun _ _ => rfl
theorem imageProcessingEnd : Statement .imageProcessingEnd := nofun
theorem libRemove (p : Port) (sl : Fin 4) : Statement (.libRemove p sl) := fun _ _ => rfl
theorem libQuery (p : Port) (sl : Fin 4) : Statement (.libQuery p sl) := fun _ _ => rfl
theorem loadActive (p : Port) (sl : Fin 4) : Statement (.loadActive p sl) := fun _ _ => rfl
theorem loadActiveComplete (r : Fin 64) : Statement (.loadActiveComplete r) := nofun
theorem flashDirRead (p : Port) (sl : Fin 4) : Statement (.flashDirRead p sl) := fun _ _ => rfl
theorem bramPortOperation (mem : Fin 16384) (a : Option PortOp) (b : Option PortOp) (bFirst : Bool) :
    Statement (.bramPortOperation mem a b bFirst) := nofun
theorem maintenanceSteal (mem : Fin 16384) : Statement (.maintenanceSteal mem) := nofun
theorem ingotConflicts (p : Port) (sl : Fin 4) : Statement (.ingotConflicts p sl) := fun _ _ => rfl
theorem ingotBanks (p : Port) (sl : Fin 4) : Statement (.ingotBanks p sl) := fun _ _ => rfl
theorem bramClear (p : Port) (sl : Fin 4) : Statement (.bramClear p sl) := fun _ _ => rfl
theorem bramClearComplete (r : Fin 64) : Statement (.bramClearComplete r) := nofun
theorem bundle (e : Fin 2048) : Statement (.bundle e) := nofun
theorem b (e : Fin 2048) : Statement (.b e) := nofun
theorem call (e : Fin 2048) : Statement (.call e) := nofun
theorem ret (e : Fin 2048) : Statement (.ret e) := nofun
theorem beqz (e : Fin 2048) : Statement (.beqz e) := nofun
theorem bnez (e : Fin 2048) : Statement (.bnez e) := nofun
theorem bltz (e : Fin 2048) : Statement (.bltz e) := nofun
theorem bgez (e : Fin 2048) : Statement (.bgez e) := nofun
theorem bdec (e : Fin 2048) : Statement (.bdec e) := nofun
theorem limm (e : Fin 2048) : Statement (.limm e) := nofun
theorem loop (e : Fin 2048) : Statement (.loop e) := nofun
theorem nop (e : Fin 2048) : Statement (.nop e) := nofun
theorem halt (e : Fin 2048) : Statement (.halt e) := nofun
theorem waiti (e : Fin 2048) : Statement (.waiti e) := nofun
theorem reti (e : Fin 2048) : Statement (.reti e) := nofun
theorem ei (e : Fin 2048) : Statement (.ei e) := nofun
theorem di (e : Fin 2048) : Statement (.di e) := nofun
theorem sig (e : Fin 2048) : Statement (.sig e) := nofun
theorem interruptEntry (e : Fin 2048) : Statement (.interruptEntry e) := nofun
theorem waitiResume (e : Fin 2048) : Statement (.waitiResume e) := nofun
theorem timerExpiry (e : Fin 2048) : Statement (.timerExpiry e) := nofun
theorem dmaDone (e : Fin 2048) : Statement (.dmaDone e) := nofun
theorem doorbell (e : Fin 2048) : Statement (.doorbell e) := nofun
theorem start (e : Fin 2048) : Statement (.start e) := nofun
theorem streamInputItem (e : Fin 2048) (k : Fin 2) (item : BitVec 64) : Statement (.streamInputItem e k item) := nofun
theorem streamOutputItem (e : Fin 2048) (k : Fin 2) : Statement (.streamOutputItem e k) := nofun
theorem dspStart (p : Port) (sl : Fin 4) : Statement (.dspStart p sl) := fun _ _ => rfl
theorem dspHalt (p : Port) (sl : Fin 4) : Statement (.dspHalt p sl) := fun _ _ => rfl
theorem dspStatus (p : Port) (sl : Fin 4) : Statement (.dspStatus p sl) := fun _ _ => rfl
theorem dspDomain (p : Port) (sl : Fin 4) : Statement (.dspDomain p sl) := fun _ _ => rfl
theorem avsAck (rail : Fin 5) : Statement (.avsAck rail) := nofun
theorem avsNoAck (rail : Fin 5) : Statement (.avsNoAck rail) := nofun
theorem avsSettleEnd (d : Fin 4) : Statement (.avsSettleEnd d) := nofun
theorem domainPllRelock (d : Fin 4) : Statement (.domainPllRelock d) := nofun
theorem laneConfig (p : Port) (sl : Fin 4) : Statement (.laneConfig p sl) := fun _ _ => rfl
theorem laneStatus (p : Port) (sl : Fin 4) : Statement (.laneStatus p sl) := fun _ _ => rfl
theorem laneReset (p : Port) (sl : Fin 4) : Statement (.laneReset p sl) := fun _ _ => rfl
theorem laneSlip (p : Port) (sl : Fin 4) : Statement (.laneSlip p sl) := fun _ _ => rfl
theorem laneEyescan (p : Port) (sl : Fin 4) : Statement (.laneEyescan p sl) := fun _ _ => rfl
theorem eyescanComplete (lane : Fin 96) (counts : List Nat) : Statement (.eyescanComplete lane counts) := nofun
theorem lanePrbs (p : Port) (sl : Fin 4) : Statement (.lanePrbs p sl) := fun _ _ => rfl
theorem laneInject (p : Port) (sl : Fin 4) : Statement (.laneInject p sl) := fun _ _ => rfl
theorem injectError (lane : Fin 96) : Statement (.injectError lane) := nofun
theorem laneLoopback (p : Port) (sl : Fin 4) : Statement (.laneLoopback p sl) := fun _ _ => rfl
theorem lanePllLocked (g : Fin 12) (pll : Fin 2) : Statement (.lanePllLocked g pll) := nofun
theorem lanePllLockLost (g : Fin 12) (pll : Fin 2) : Statement (.lanePllLockLost g pll) := nofun
theorem cdrLocked (lane : Fin 96) : Statement (.cdrLocked lane) := nofun
theorem trainingFrame (lane : Fin 96) (control : BitVec 16) (status : BitVec 16) :
    Statement (.trainingFrame lane control status) := nofun
theorem trainingDone (lane : Fin 96) : Statement (.trainingDone lane) := nofun
theorem trainingTimeout (lane : Fin 96) : Statement (.trainingTimeout lane) := nofun
theorem laneLockAcquired (lane : Fin 96) : Statement (.laneLockAcquired lane) := nofun
theorem laneLockLost (lane : Fin 96) : Statement (.laneLockLost lane) := nofun
theorem laneSignalLost (lane : Fin 96) : Statement (.laneSignalLost lane) := nofun
theorem laneReceiveUnit (lane : Fin 96) (n upper lower : Nat) :
    Statement (.laneReceiveUnit lane n upper lower) := nofun
theorem laneFlushTimeout (lane : Fin 96) : Statement (.laneFlushTimeout lane) := nofun
theorem laneTransmitItem (lane : Fin 96) : Statement (.laneTransmitItem lane) := nofun
theorem ageingEyescan (lane : Fin 96) (width : Nat) (height : Nat) (plan : Fin 6) :
    Statement (.ageingEyescan lane width height plan) := nofun
theorem linkConfig (p : Port) (sl : Fin 4) : Statement (.linkConfig p sl) := fun _ _ => rfl
theorem linkStatus (p : Port) (sl : Fin 4) : Statement (.linkStatus p sl) := fun _ _ => rfl
theorem linkReset (p : Port) (sl : Fin 4) : Statement (.linkReset p sl) := fun _ _ => rfl
theorem linkLoopback (p : Port) (sl : Fin 4) : Statement (.linkLoopback p sl) := fun _ _ => rfl
theorem sprueQueue (p : Port) (sl : Fin 4) : Statement (.sprueQueue p sl) := fun _ _ => rfl
theorem flitOpportunity (l : Fin 48) : Statement (.flitOpportunity l) := nofun
theorem data (l : Fin 48) (lane : Fin 8) (f : Line) : Statement (.data l lane f) := nofun
theorem linkctl (l : Fin 48) (lane : Fin 8) (f : Line) : Statement (.linkctl l lane f) := nofun
theorem nak (l : Fin 48) (lane : Fin 8) (f : Line) : Statement (.nak l lane f) := nofun
theorem hello (l : Fin 48) (lane : Fin 8) (f : Line) : Statement (.hello l lane f) := nofun
theorem time (l : Fin 48) (lane : Fin 8) (f : Line) : Statement (.time l lane f) := nofun
theorem loopFlit (l : Fin 48) (lane : Fin 8) (f : Line) : Statement (.loopFlit l lane f) := nofun
theorem down (l : Fin 48) (lane : Fin 8) (f : Line) : Statement (.down l lane f) := nofun
theorem gapSkewTimeout (l : Fin 48) : Statement (.gapSkewTimeout l) := nofun
theorem nakReplayTimeout (l : Fin 48) : Statement (.nakReplayTimeout l) := nofun
theorem replayTimeout (l : Fin 48) : Statement (.replayTimeout l) := nofun
theorem linkTimeout (l : Fin 48) : Statement (.linkTimeout l) := nofun
theorem linkBackoffEnd (l : Fin 48) : Statement (.linkBackoffEnd l) := nofun
theorem linkUpStable (l : Fin 48) : Statement (.linkUpStable l) := nofun
theorem linkFormationTimeout (l : Fin 48) : Statement (.linkFormationTimeout l) := nofun
theorem startingDegradeTimeout (l : Fin 48) : Statement (.startingDegradeTimeout l) := nofun
theorem helloInterval (l : Fin 48) : Statement (.helloInterval l) := nofun
theorem sendMessage (q : Fin 4096) : Statement (.sendMessage q) := nofun
theorem messageCreditTimeout (l : Fin 49) (vc : Fin 8) : Statement (.messageCreditTimeout l vc) := nofun
theorem nodeSet (p : Port) (sl : Fin 4) : Statement (.nodeSet p sl) := fun _ _ => rfl
theorem windowSet (p : Port) (sl : Fin 4) : Statement (.windowSet p sl) := fun _ _ => rfl
theorem windowRightsRecomputed : Statement .windowRightsRecomputed := nofun
theorem profileSet (p : Port) (sl : Fin 4) : Statement (.profileSet p sl) := fun _ _ => rfl
theorem partnerQuery (p : Port) (sl : Fin 4) : Statement (.partnerQuery p sl) := fun _ _ => rfl
theorem partnerSet (p : Port) (sl : Fin 4) : Statement (.partnerSet p sl) := fun _ _ => rfl
theorem routeSet (p : Port) (sl : Fin 4) : Statement (.routeSet p sl) := fun _ _ => rfl
theorem timeConfig (p : Port) (sl : Fin 4) : Statement (.timeConfig p sl) := fun _ _ => rfl
theorem timeStatus (p : Port) (sl : Fin 4) : Statement (.timeStatus p sl) := fun _ _ => rfl
theorem remoteRequest (h : ReqHdr) (op : RemoteOp) (lines : List WLine) :
    Statement (.remoteRequest h op lines) := nofun
theorem remoteRequestAccepted (src : Source) (tag : Fin 64) : Statement (.remoteRequestAccepted src tag) := nofun
theorem transactionRequest (l : Fin 48) (m : Message) : Statement (.transactionRequest l m) := nofun
theorem transactionResponse (l : Fin 48) (m : Message) : Statement (.transactionResponse l m) := nofun
theorem transactionTimeout (node : Fin 262144) (sequence : BitVec 16) :
    Statement (.transactionTimeout node sequence) := nofun
theorem ageingUnit : Statement .ageingUnit := nofun
theorem partnerEviction (node : Fin 262144) : Statement (.partnerEviction node) := nofun
theorem timeInterval : Statement .timeInterval := nofun
theorem push (h : ReqHdr) (lines : List WLine) : Statement (.push h lines) := nofun
theorem pushEop (h : ReqHdr) (lines : List WLine) : Statement (.pushEop h lines) := nofun
theorem abort (h : ReqHdr) (lines : List WLine) : Statement (.abort h lines) := nofun
theorem pop (h : ReqHdr) : Statement (.pop h) := nofun
theorem popStatus (h : ReqHdr) : Statement (.popStatus h) := nofun
theorem spillReadbackComplete (q : Fin 4096) (bad : Bool) : Statement (.spillReadbackComplete q bad) := nofun
theorem riserSpill (p : Port) (sl : Fin 4) : Statement (.riserSpill p sl) := fun _ _ => rfl
theorem riserConfig (p : Port) (sl : Fin 4) : Statement (.riserConfig p sl) := fun _ _ => rfl
theorem riserStatus (p : Port) (sl : Fin 4) : Statement (.riserStatus p sl) := fun _ _ => rfl
theorem riserReset (p : Port) (sl : Fin 4) : Statement (.riserReset p sl) := fun _ _ => rfl
theorem protRange (p : Port) (sl : Fin 4) : Statement (.protRange p sl) := fun _ _ => rfl
theorem protZeroFillComplete (range : Fin 8) : Statement (.protZeroFillComplete range) := nofun
theorem protStatus (p : Port) (sl : Fin 4) : Statement (.protStatus p sl) := fun _ _ => rfl
theorem protRekey (p : Port) (sl : Fin 4) : Statement (.protRekey p sl) := fun _ _ => rfl
theorem rekeyInterval : Statement .rekeyInterval := nofun
theorem rekeyComplete : Statement .rekeyComplete := nofun
theorem protReinit (p : Port) (sl : Fin 4) : Statement (.protReinit p sl) := fun _ _ => rfl
theorem protReinitComplete (range : Fin 8) : Statement (.protReinitComplete range) := nofun
theorem fettlerWordRead (t : SweepTarget) : Statement (.fettlerWordRead t) := nofun
theorem fettlerHeartbeat : Statement .fettlerHeartbeat := nofun
theorem fettlerWatch : Statement .fettlerWatch := nofun
theorem trackerInterval (t : SweepTarget) : Statement (.trackerInterval t) := nofun
theorem fettlerConfig (p : Port) (sl : Fin 4) : Statement (.fettlerConfig p sl) := fun _ _ => rfl
theorem fettlerPass (p : Port) (sl : Fin 4) : Statement (.fettlerPass p sl) := fun _ _ => rfl
theorem fettlerPassComplete (r : Fin 64) : Statement (.fettlerPassComplete r) := nofun
theorem integrityCounters (p : Port) (sl : Fin 4) : Statement (.integrityCounters p sl) := fun _ _ => rfl
theorem hardFaultLog (p : Port) (sl : Fin 4) : Statement (.hardFaultLog p sl) := fun _ _ => rfl
theorem faultRetire (p : Port) (sl : Fin 4) : Statement (.faultRetire p sl) := fun _ _ => rfl
theorem hbmRepairComplete : Statement .hbmRepairComplete := nofun
theorem splitWrite (p : Port) (sl : Fin 4) : Statement (.splitWrite p sl) := fun _ _ => rfl
theorem crcBind (p : Port) (sl : Fin 4) : Statement (.crcBind p sl) := fun _ _ => rfl
theorem crcFeed (r : Fin 64) (unit : Fin 8) (size : Fin 4) (value : BitVec 32) :
    Statement (.crcFeed r unit size value) := nofun
theorem crcLoad (r : Fin 64) (unit : Fin 8) (value : BitVec 32) : Statement (.crcLoad r unit value) := nofun
theorem crcSelect (r : Fin 64) (unit : Fin 8) (value : BitVec 32) : Statement (.crcSelect r unit value) := nofun
theorem crcData (h : ReqHdr) (line : WLine) : Statement (.crcData h line) := nofun
theorem crcCtrl (h : ReqHdr) (line : WLine) : Statement (.crcCtrl h line) := nofun
theorem crcValue (h : ReqHdr) (line : WLine) : Statement (.crcValue h line) := nofun
theorem replicaRead (slacks : List (Fin 64 × Fin 8 × Int)) : Statement (.replicaRead slacks) := nofun
theorem fabricClockChange (r : Fin 64) : Statement (.fabricClockChange r) := nofun
theorem clockStatus (p : Port) (sl : Fin 4) : Statement (.clockStatus p sl) := fun _ _ => rfl
theorem regionClock (p : Port) (sl : Fin 4) : Statement (.regionClock p sl) := fun _ _ => rfl
theorem regionPower (p : Port) (sl : Fin 4) : Statement (.regionPower p sl) := fun _ _ => rfl
theorem sensorSample (raw : List Int) : Statement (.sensorSample raw) := nofun
theorem governorEstimate (activity : List Activity) : Statement (.governorEstimate activity) := nofun
theorem governorEvaluate : Statement .governorEvaluate := nofun
theorem ageingMeasurement (ratios : List (Fin 64 × List Nat)) : Statement (.ageingMeasurement ratios) := nofun
theorem planUpdate : Statement .planUpdate := nofun
theorem thermConfig (p : Port) (sl : Fin 4) : Statement (.thermConfig p sl) := fun _ _ => rfl
theorem thermRead (p : Port) (sl : Fin 4) : Statement (.thermRead p sl) := fun _ _ => rfl
theorem thermSensor (p : Port) (sl : Fin 4) : Statement (.thermSensor p sl) := fun _ _ => rfl
theorem ageingPlan (p : Port) (sl : Fin 4) : Statement (.ageingPlan p sl) := fun _ _ => rfl
theorem sliceEnd (r : Fin 64) (failing : List (Nat × Nat)) (terminal : Bool) :
    Statement (.sliceEnd r failing terminal) := nofun
theorem sliceRepeat (r : Fin 64) (failing : List (Nat × Nat)) (terminal : Bool) :
    Statement (.sliceRepeat r failing terminal) := nofun
theorem busSweep (b : BusBundle) (findings : List BondFinding) : Statement (.busSweep b findings) := nofun
theorem testComplete (results : List SliceOutcome) (findings : List BondFinding) :
    Statement (.testComplete results findings) := nofun
theorem selftestConfig (p : Port) (sl : Fin 4) : Statement (.selftestConfig p sl) := fun _ _ => rfl
theorem selftestRun (p : Port) (sl : Fin 4) : Statement (.selftestRun p sl) := fun _ _ => rfl
theorem selftestStatus (p : Port) (sl : Fin 4) : Statement (.selftestStatus p sl) := fun _ _ => rfl
theorem bondStatus (p : Port) (sl : Fin 4) : Statement (.bondStatus p sl) := fun _ _ => rfl
theorem machineCheck (cause : Fin 2) (pc : BitVec 64) : Statement (.machineCheck cause pc) := nofun
theorem watchdogExpiry : Statement .watchdogExpiry := nofun
theorem cupolaRestartComplete : Statement .cupolaRestartComplete := nofun
theorem cupolaRestartLimit : Statement .cupolaRestartLimit := nofun
theorem ring (p : Port) (sl : Fin 4) : Statement (.ring p sl) := nofun
theorem ack (p : Port) (sl : Fin 4) : Statement (.ack p sl) := nofun
theorem mailboxRequestLine (r : Fin 64) (sl : Fin 4) (n : Fin 4) (line : Line) (wring : Bool) :
    Statement (.mailboxRequestLine r sl n line wring) := nofun
theorem mailboxResponseLine (r : Fin 64) : Statement (.mailboxResponseLine r) := nofun
theorem mailboxEventRecord (r : Fin 64) : Statement (.mailboxEventRecord r) := nofun
theorem evPop (h : ReqHdr) : Statement (.evPop h) := nofun
theorem eventWindowClose (code : BitVec 16) (kind : BitVec 8) (source : BitVec 16) :
    Statement (.eventWindowClose code kind source) := nofun
theorem leaseExpiry (kind : Fin 6) (index : Fin 96) : Statement (.leaseExpiry kind index) := nofun
theorem debugLeaseExpiry : Statement .debugLeaseExpiry := nofun
theorem nonceExpiry : Statement .nonceExpiry := nofun
theorem unlockLockoutEnd : Statement .unlockLockoutEnd := nofun
theorem resClaim (p : Port) (sl : Fin 4) : Statement (.resClaim p sl) := fun _ _ => rfl
theorem mb2Bind (p : Port) (sl : Fin 4) : Statement (.mb2Bind p sl) := fun _ _ => rfl
theorem cupolaRestart (p : Port) (sl : Fin 4) : Statement (.cupolaRestart p sl) := fun _ _ => rfl
theorem fwStage (p : Port) (sl : Fin 4) : Statement (.fwStage p sl) := fun _ _ => rfl
theorem flashAccess (p : Port) (sl : Fin 4) : Statement (.flashAccess p sl) := fun _ _ => rfl
theorem debugUnlock (p : Port) (sl : Fin 4) : Statement (.debugUnlock p sl) := fun _ _ => rfl
theorem debugStateRead (p : Port) (sl : Fin 4) : Statement (.debugStateRead p sl) := fun _ _ => rfl
theorem eventConfig (p : Port) (sl : Fin 4) : Statement (.eventConfig p sl) := fun _ _ => rfl
theorem eventLogRead (p : Port) (sl : Fin 4) : Statement (.eventLogRead p sl) := fun _ _ => rfl
theorem tickNumberLowRead (h : ReqHdr) : Statement (.tickNumberLowRead h) := nofun
theorem registerWrite (h : ReqHdr) (lines : List WLine) : Statement (.registerWrite h lines) := nofun
theorem gpioBank (p : Port) (sl : Fin 4) : Statement (.gpioBank p sl) := fun _ _ => rfl
theorem gpioIo (p : Port) (sl : Fin 4) : Statement (.gpioIo p sl) := fun _ _ => rfl
theorem delayLineStep (io : Fin 384) : Statement (.delayLineStep io) := nofun
theorem mgmtConfig (p : Port) (sl : Fin 4) : Statement (.mgmtConfig p sl) := fun _ _ => rfl
theorem hostStatus (p : Port) (sl : Fin 4) : Statement (.hostStatus p sl) := fun _ _ => rfl
theorem hostRequest (bar2 : Bool) (offset : BitVec 38) (rd : Bool) (bytes : List Byte) (count : Nat) :
    Statement (.hostRequest bar2 offset rd bytes count) := nofun
theorem pcieReset (kind : PcieResetKind) : Statement (.pcieReset kind) := nofun
theorem peRstAssert : Statement .peRstAssert := nofun
theorem mgmtWrite (bytes : List Byte) (pec : Byte) : Statement (.mgmtWrite bytes pec) := nofun
theorem mgmtRead (offset : BitVec 16) (count : Nat) : Statement (.mgmtRead offset count) := nofun
theorem mbacc (dr : BitVec 50) : Statement (.mbacc dr) := nofun
theorem extest (boundary : List Bool) : Statement (.extest boundary) := nofun
theorem samplePreload (boundary : List Bool) : Statement (.samplePreload boundary) := nofun
theorem idcode : Statement .idcode := nofun
theorem extestPulse (boundary : List Bool) : Statement (.extestPulse boundary) := nofun
theorem extestTrain (boundary : List Bool) : Statement (.extestTrain boundary) := nofun
theorem bypass : Statement .bypass := nofun
theorem fabricClockEdge (r : Fin 64) (i : FabricInputs) : Statement (.fabricClockEdge r i) := nofun
theorem flitDiscarded (l : Fin 48) (lane : Fin 8) (why : FlitFault) (f : Line) :
    Statement (.flitDiscarded l lane why f) := nofun
theorem prbsCheckerLock (lane : Fin 96) : Statement (.prbsCheckerLock lane) := nofun
theorem prbsCheckerLockLost (lane : Fin 96) : Statement (.prbsCheckerLockLost lane) := nofun
theorem pcieLinkUp (rate : Fin 5) (width : Fin 4) : Statement (.pcieLinkUp rate width) := nofun
theorem peRstRelease : Statement .peRstRelease := nofun
theorem trstAssert : Statement .trstAssert := nofun
theorem programOrEraseEnd (failed : Bool) : Statement (.programOrEraseEnd failed) := nofun
theorem dynamicAddressAssignment (a : BitVec 7) : Statement (.dynamicAddressAssignment a) := nofun
theorem pciePowerStateChange (d3hot : Bool) : Statement (.pciePowerStateChange d3hot) := nofun
theorem unallocatedOpcode (p : Port) (sl : Fin 4) : Statement (.unallocatedOpcode p sl) := nofun
theorem reservedRunnerOperation (h : ReqHdr) (op7 : Bool) : Statement (.reservedRunnerOperation h op7) := nofun
theorem reservedBranchOrSystemOp (e : Fin 2048) : Statement (.reservedBranchOrSystemOp e) := nofun

end Sys2Proof.Laws.Requests
end

