-- ==== Sys2Proof/Tests/Slice0.lean ====
section
/-! SUPPORT. Tests: for each statement of Certificates/Slice0 with hypotheses, that they can be met together (one witness for
each clause); an ill-formed term for each check of WellFormed; and values that the manual works out. -/

namespace Sys2Proof.Tests
set_option maxRecDepth 100000
set_option Elab.async false
open Sys2Proof Sys2Proof.Machine

/-- A request as it stands in a slot (Table 19.6). -/
def reqBits (opcode flags target : Nat) (args : List Nat) : BitVec 2048 :=
  BitVec.ofNat 2048 ((args.foldr (fun b n => b + 256 * n) 0) * 2 ^ 64 + opcode + flags * 2 ^ 24 + args.length * 2 ^ 32
    + target * 2 ^ 48)

/-- The device in RUN with firmware. -/
def up : State :=
  { dev := { mode := .run, base := .running, porstLow := false, hbmReady := true, release := .done, xtalOk := true
             sweepDone := true, loadDone := true, fwRunning := true }
    cudex := { cup := .running } }

/-- A request stands POSTED in slot 0 of a port. -/
def asked (c : CmdSpec) (p : Port) (flags target : Nat) (args : List Nat) (s : State) : State :=
  modSlot p 0 (fun x => { x with st := .posted, req := reqBits c.opcode flags target args }) s

/-- A region of the running device. -/
def reg (r : Nat) (x : Region) : State := modRegion r (fun _ => x) up

/-- Engine 2047, running in an ACTIVE region, with a bundle at its PC. -/
def dspAt (b : BitVec 64) (x : Engine) : State :=
  modEngine 2047 (fun _ => { x with st := .running, pc := 0, prog := tset 0 [] 0 b }) (reg 63 { power := .active })

/-- One lane and one link of the running device. -/
def withLane (l : Nat) (x : Lane) (s : State) : State := modLane l (fun _ => x) s
def withLink (l : Nat) (x : Link) (s : State) : State := modLink l (fun _ => x) s
def withQueue (q : Nat) (x : Queue) (s : State) : State := modQueue q (fun _ => x) s

/-- A good flit: type, sequence number, acknowledgement, and payload. -/
def flit (ty sequence ack payload : Nat) : Line :=
  sealFlit (ty * 2 ^ 60 + sequence * 2 ^ 48 + ack * 2 ^ 36 + (if ty = 1 then 2 ^ 25 else 0)) (BitVec.ofNat 416 payload)

/-- A message waits for producer credit. -/
def waitsCredit : Arrive → Bool
  | .credit _ => true
  | _ => false

theorem no_credit {x : Link} (h : ∀ v < 8, waitsCredit (x.rxOf v).arrive = false) :
    ∀ v < 8, ∀ q, (x.rxOf v).arrive ≠ .credit q := by
  intro v hv q e
  have := h v hv
  rw [e] at this
  cases this

/-- A partner's entry in its first slot. -/
def withPartner (n : Nat) (x : Partner) (s : State) : State := setPartner (4 * (nodeBuckets n).1) { x with node := n } s

/-- A one-line request of Cupola. -/
def from_ (addr : Nat) : ReqHdr := ⟨.cupola, BitVec.ofNat 49 addr, 0, 0, 0, 0⟩

/-- The device in a state of mode and flags. -/
def inMode (f : Device → Device) : State := { up with dev := f up.dev }

/-- A port's event path or slots. -/
def withPort (p : Port) (x : PortSt) (s : State) : State :=
  modCudex (fun c => { c with ports := lput {} c.ports (portIdx p) x }) s

/-- An owner of one resource. -/
def owned (k : Nat) (p : Port) (s : State) : State := setOwner k { port := p } s

/-- A plane's use with the named input bits of a port raised: for each bit, its carrying block holds a look-up table of ones. -/
def raising (p : HardPort) (ks : List Nat) (u : PlaneUse) : PlaneUse :=
  ks.foldl (fun u k =>
    let b := (portBlock p true k).getD 0
    { u with cells := tset {} u.cells (32 * b) { lut := BitVec.allOnes 64 }
             xbar := u.xbar ++ [(b, .port p k, .cell 0 .la)] }) u

/-- A clocked ACTIVE region with this use of plane 0. -/
def clocked (r : Nat) (u : PlaneUse) : State :=
  reg r { power := .active, clockOn := true, shieldClosed := false, iso := [], plane0 := { use := u } }


/-! ### Hypotheses that can be met (chapters 1 to 8) -/

/-- The hypotheses of StepRunsFrontCommand can be met. -/
theorem test_hyps_StepRunsFrontCommand :
    ∃ (c : Instr) (rest : List Instr) (s : State), s.pending = c :: rest :=
  ⟨.porstAssert, [], { up with pending := [.porstAssert] }, by decide +kernel⟩

/-- The hypotheses of EmptyQueueIdles can be met. -/
theorem test_hyps_EmptyQueueIdles :
    ∃ (s : State), s.pending = [] :=
  ⟨up, by decide +kernel⟩

/-- The hypotheses of ResetsComplete can be met. -/
theorem test_hyps_ResetsComplete :
    (∃ (s : State), s.dev.base = .off) ∧
    (∃ (s : State), s.dev.base ≠ .off) ∧
    (∃ (s : State), s.dev.base ≠ .off ∧ s.dev.porstLow = false) ∧
    (∃ (s : State), s.dev.base = .standby ∧ s.dev.porstLow = true) ∧
    (∃ (s : State), mayReset s = true) :=
  ⟨⟨{ dev := { base := .off } }, by decide +kernel⟩,
  ⟨up, by decide +kernel⟩,
  ⟨up, by decide +kernel⟩,
  ⟨State.reset, by decide +kernel⟩,
  ⟨up, by decide +kernel⟩⟩

/-- The hypotheses of StartUpCompletes can be met. -/
theorem test_hyps_StartUpCompletes :
    (∃ (s : State), s.dev.base = .standby ∧ s.dev.porstLow = false ∧ s.dev.crystal = .waiting) ∧
    (∃ (s : State), s.dev.base = .standby ∧ s.dev.crystal = .locking) ∧
    (∃ (s : State), s.awake = true ∧ s.dev.base = .boot ∧ s.cudex.cup = .rom ∧ bootFirmware s = none) ∧
    (∃ (s : State), bootWork s = true ∧ s.dev.hbmReady = false) ∧
    (∃ (s : State), bootWork s = true ∧ s.dev.sweepDone = false) ∧
    (∃ (s : State), s.awake = true ∧ s.dev.base = .load ∧ s.dev.loadDone = false ∧ s.dev.hold = false ∧ bootLoadWaits
    s = false ∧ bootImages s = []) ∧
    (∃ (s : State), s.awake = true ∧ s.dev.release = .t0) ∧
    (∃ (s : State), s.awake = true ∧ s.dev.release = .isolationOpen) :=
  ⟨⟨{ dev := { porstLow := false, crystal := .waiting } }, by decide +kernel⟩,
  ⟨{ dev := { crystal := .locking } }, by decide +kernel⟩,
  ⟨{ up with dev := { up.dev with mode := .boot, base := .boot }, cudex := {} }, by decide +kernel⟩,
  ⟨{ up with dev := { up.dev with mode := .boot, base := .boot, hbmReady := false, sweepDone := false, loadDone := false, release := .none } },
  by decide +kernel⟩,
  ⟨{ up with dev := { up.dev with mode := .boot, base := .boot, hbmReady := false, sweepDone := false, loadDone := false, release := .none } },
  by decide +kernel⟩,
  ⟨{ up with dev := { up.dev with mode := .load, base := .load, loadDone := false, release := .none } },
  by decide +kernel⟩,
  ⟨{ up with dev := { up.dev with release := .t0 } }, by decide +kernel⟩,
  ⟨{ up with dev := { up.dev with release := .isolationOpen } }, by decide +kernel⟩⟩

/-- The hypotheses of DeviceCommandsComplete can be met. -/
theorem test_hyps_DeviceCommandsComplete :
    (∃ (s : State) (p : Port) (sl : Fin 4), Granted deviceModeSpec s p sl ∧ (s.req p sl).queryFlag = true) ∧
    (∃ (s : State) (p : Port) (sl : Fin 4) (c : _), (s.req p sl).argByte 8 = c ∧ Granted deviceModeSpec s p sl ∧
    (s.req p sl).queryFlag = false ∧ 1 ≤ c ∧ c ≤ 3 ∧ mayChange s c = true) ∧
    (∃ (s : State) (p : Port) (sl : Fin 4), Granted deviceModeSpec s p sl ∧ (s.req p sl).queryFlag = false ∧ (s.req p
    sl).argByte 8 = 6 ∧ mayChange s 6 = true ∧ s.dev.warmDue = none) ∧
    (∃ (s : State) (p : Port) (sl : Fin 4), Granted warmResetSpec s p sl ∧ s.dev.warmDue = none) ∧
    (∃ (s : State) (p : Port) (sl : Fin 4) (c : _), s.dev.warmDue = some c ∧ Granted warmResetSpec s p sl) :=
  ⟨⟨asked deviceModeSpec .mb0 4 0xFFFF [] up, .mb0, 0, by unfold Granted Asks; decide +kernel⟩,
  ⟨asked deviceModeSpec .mb0 0 0xFFFF [1] up, .mb0, 0, _, rfl, by unfold Granted Asks; decide +kernel⟩,
  ⟨asked deviceModeSpec .mb0 0 0xFFFF [6] up, .mb0, 0, by unfold Granted Asks; decide +kernel⟩,
  ⟨asked warmResetSpec .mb0 0 0xFFFF [] up, .mb0, 0, by unfold Granted Asks; decide +kernel⟩,
  ⟨asked warmResetSpec .mb0 0 0xFFFF [] ({ up with dev := { up.dev with warmDue := some 3 } }), .mb0, 0, _, rfl,
  by unfold Granted Asks; decide +kernel⟩⟩

/-- The hypotheses of ClocksAndSequencersComplete can be met. -/
theorem test_hyps_ClocksAndSequencersComplete :
    (∃ (s : State), s.dev.base ≠ .off) ∧
    (∃ (s : State) (n : _), s.dev.base ≠ .off ∧ (n < 235 ∨ 265 < n) ∧ s.clk.badRun = 2 ∧ s.clk.locked = true ∧
    s.clk.refOsc = false ∧ s.clk.holdover = false ∧ s.dev.crystal ≠ .checking) ∧
    (∃ (s : State) (sw : _), (s.clockSwitch sw).phase = .stopping) ∧
    (∃ (s : State) (sw : _) (dead : _), (s.clockSwitch sw).phase = .stopping ∧ oldDead sw dead s = true) ∧
    (∃ (s : State) (sw : _) (dead : _), (s.clockSwitch sw).phase = .stopping ∧ oldDead sw dead s = false) ∧
    (∃ (s : State), s.clk.locked = true ∧ s.clk.rootSw.phase = .released ∧ s.dev.base ≠ .standby) ∧
    (∃ (s : State) (r : Fin 64), s.awake = true ∧ s.kNow r.val ≠ s.kDue r.val) ∧
    (∃ (s : State), s.awake = true) ∧
    (∃ (s : State) (d : Fin 4), s.awake = true ∧ (s.domain d.val).step = .upWrite) ∧
    (∃ (s : State), s.awake = true ∧ s.clk.copeWrite = true) ∧
    (∃ (s : State) (d : Fin 4), s.awake = true ∧ domainWriting (s.domain d.val) = true) ∧
    (∃ (s : State), s.awake = true ∧ s.clk.copeWrite = true) ∧
    (∃ (s : State) (d : Fin 4), s.awake = true ∧ (s.domain d.val).step = .upSettle) ∧
    (∃ (s : State) (d : Fin 4), s.awake = true ∧ domainPaused (s.domain d.val) = true) :=
  ⟨⟨up, by decide +kernel⟩,
  ⟨{ up with clk := { locked := true, refOsc := false, badRun := 2 } }, 234, by decide +kernel⟩,
  ⟨{ up with clk := { rootSw := { phase := .stopping } } }, .rootRef, by decide +kernel⟩,
  ⟨{ up with clk := { rootSw := { phase := .stopping, toNew := true }, badRun := 3 } }, .rootRef, true,
  by decide +kernel⟩,
  ⟨{ up with clk := { rootSw := { phase := .stopping, toNew := true }, badRun := 2 } }, .rootRef, true,
  by decide +kernel⟩,
  ⟨{ up with clk := { locked := true, rootSw := { phase := .released } } }, by decide +kernel⟩,
  ⟨reg 63 { kNow := some 9 }, 63, by decide +kernel⟩,
  ⟨up, by decide +kernel⟩,
  ⟨modDomain 3 (fun d => { d with step := .upWrite }) up, 3, by decide +kernel⟩,
  ⟨{ up with clk := { copeWrite := true } }, by decide +kernel⟩,
  ⟨modDomain 3 (fun d => { d with step := .planWrite }) up, 3, by decide +kernel⟩,
  ⟨{ up with clk := { copeWrite := true } }, by decide +kernel⟩,
  ⟨modDomain 3 (fun d => { d with step := .upSettle }) up, 3, by decide +kernel⟩,
  ⟨modDomain 3 (fun d => { d with step := .downRelock }) up, 3, by decide +kernel⟩⟩

/-- The hypotheses of ClockCommandsComplete can be met. -/
theorem test_hyps_ClockCommandsComplete :
    (∃ (s : State) (p : Port) (sl : Fin 4), Granted clockStatusSpec s p sl ∧ (s.req p sl).argByte 8 = 0) ∧
    (∃ (s : State) (p : Port) (sl : Fin 4), Granted clockStatusSpec s p sl ∧ (s.req p sl).argByte 8 = 1 ∧
    s.clk.goodRun = 100 ∧ s.clk.rootSw.phase = .idle ∧ s.clk.holdover = false ∧ s.clk.refOsc = true) ∧
    (∃ (s : State) (p : Port) (sl : Fin 4) (k : _), (s.req p sl).argByte 8 = k ∧ Granted dspDomainSpec s p sl ∧ (s.req
    p sl).queryFlag = false ∧ k ≤ 3 ∧ (s.domain (s.req p sl).target).step = .idle ∧ lget false (s.domain (s.req p
    sl).target).withdrawn k = false ∧ (s.domain (s.req p sl).target).point < k ∧ s.therm.throttled = false) ∧
    (∃ (s : State) (p : Port) (sl : Fin 4) (k : _), (s.req p sl).argByte 8 = k ∧ Granted regionClockSpec s p sl ∧
    (s.req p sl).queryFlag = false ∧ 8 ≤ k ∧ k ≤ s.kMax ∧ (s.region (s.req p sl).target).kShadow = none) ∧
    (∃ (s : State) (p : Port) (sl : Fin 4), Granted regionPowerSpec s p sl ∧ (s.req p sl).queryFlag = false ∧ (s.req p
    sl).argByte 8 ≤ 1) :=
  ⟨⟨asked clockStatusSpec .mb0 0 0xFFFF [] up, .mb0, 0, by unfold Granted Asks; decide +kernel⟩,
  ⟨asked clockStatusSpec .mb0 0 0xFFFF [1] ({ up with clk := { goodRun := 100 } }), .mb0, 0,
  by unfold Granted Asks; decide +kernel⟩,
  ⟨asked dspDomainSpec .mb0 0 3 [3] up, .mb0, 0, _, rfl, by unfold Granted Asks; decide +kernel⟩,
  ⟨asked regionClockSpec .mb0 0 63 [8] up, .mb0, 0, _, rfl, by unfold Granted Asks; decide +kernel⟩,
  ⟨asked regionPowerSpec .mb0 0 63 [1] up, .mb0, 0, by unfold Granted Asks; decide +kernel⟩⟩

/-- The hypotheses of TicksAndSwitchesComplete can be met. -/
theorem test_hyps_TicksAndSwitchesComplete :
    (∃ (s : State) (pos : Nat), s.ticking = true ∧ s.tick.cfg.source = 1#2 ∧ s.tick.stepping = false ∧ pos ≤
    s.tick.length) ∧
    (∃ (s : State) (pos : _), s.ticking = true ∧ s.tick.cfg.source = 1#2 ∧ s.tick.stepping = true ∧ s.tick.length ≤
    pos ∧ pos ≤ s.tick.length + s.tick.cfg.period) ∧
    (∃ (s : State), s.ticking = true ∧ s.tick.cfg.source ≠ 0#2 ∧ s.tick.edgesSeen = true ∧ s.tick.align ≠ 3#2 ∧ 4 ≤
    s.tick.missCount) ∧
    (∃ (s : State), s.ticking = true ∧ s.tick.cfg.source ≠ 2#2 ∧ s.tick.shadow = none) ∧
    (∃ (s : State) (c : _) (w : _), s.ticking = true ∧ s.tick.shadow = some (c, w) ∧ c.source ≠ 2#2) ∧
    (∃ (s : State) (k : Fin 16), s.ticking = true ∧ slotFollows s k.val = true) ∧
    (∃ (s : State) (r : Fin 64) (d : Decision), graceOf s r.val = some d ∧ d.power = .active ∧ (d.plane = (s.region
    r.val).active ∨ (s.region r.val).usable d.plane = true) ∧ (s.region r.val).pins.holdSwitch = false) ∧
    (∃ (s : State) (r : Fin 64) (d : Decision), graceOf s r.val = some d ∧ d.power = .active ∧ (d.plane = (s.region
    r.val).active ∨ (s.region r.val).usable d.plane = true) ∧ (s.region r.val).pins.holdSwitch = true ∧ (s.region
    r.val).sched.force = true) ∧
    (∃ (s : State) (r : Fin 64) (d : Decision), graceOf s r.val = some d ∧ d.power = .active ∧ (d.plane = (s.region
    r.val).active ∨ (s.region r.val).usable d.plane = true) ∧ (s.region r.val).pins.holdSwitch = true ∧ (s.region
    r.val).sched.force = false ∧ d.gated = false) :=
  ⟨⟨up, 46875, by decide +kernel⟩,
  ⟨{ up with tick := { stepping := true } }, 46875, by decide +kernel⟩,
  ⟨{ up with tick := { edgesSeen := true, missCount := 4 } }, by decide +kernel⟩,
  ⟨up, by decide +kernel⟩,
  ⟨{ up with tick := { shadow := some ({ source := 0#2 }, none) } }, { source := 0#2 }, none, by decide +kernel⟩,
  ⟨{ up with tick := { slot0Due := true } }, 0, by decide +kernel⟩,
  ⟨reg 63 { power := .active, active := 1, grace := some { plane := 1 } }, 63, { plane := 1 }, by decide +kernel⟩,
  ⟨reg 0
  { power := .active, active := 1, grace := some { plane := 1 }, plane1 := { use := { slotPort := true } }, slotPins := ⟨true, false, 0⟩, sched := { force := true } },
  0, { plane := 1 }, by decide +kernel⟩,
  ⟨reg 0
  { power := .active, active := 1, grace := some { plane := 1 }, plane1 := { use := { slotPort := true } }, slotPins := ⟨true, false, 0⟩ },
  0, { plane := 1 }, by decide +kernel⟩⟩

/-- The hypotheses of TickCommandsComplete can be met. -/
theorem test_hyps_TickCommandsComplete :
    (∃ (s : State) (p : Port) (sl : Fin 4), Granted tickConfigSpec s p sl ∧ (s.req p sl).queryFlag = true) ∧
    (∃ (s : State) (p : Port) (sl : Fin 4), Granted tickConfigSpec s p sl ∧ (s.req p sl).queryFlag = false ∧
    tickCfgValid ((s.req p sl).argBytes 8 68) = true ∧ s.tick.shadow = none) ∧
    (∃ (s : State) (p : Port) (sl : Fin 4), Granted scheduleSetSpec s p sl ∧ (s.req p sl).queryFlag = true) ∧
    (∃ (s : State) (p : Port) (sl : Fin 4), Granted scheduleSetSpec s p sl ∧ (s.req p sl).queryFlag = false ∧
    schedValid ((s.req p sl).argBytes 8 39) = true ∧ (s.region (s.req p sl).target).shadow = none) :=
  ⟨⟨asked tickConfigSpec .mb0 4 0xFFFF [] up, .mb0, 0, by unfold Granted Asks; decide +kernel⟩,
  ⟨asked tickConfigSpec .mb0 0 0xFFFF [119, 1, 0, 0, 1, 1] up, .mb0, 0, by unfold Granted Asks; decide +kernel⟩,
  ⟨asked scheduleSetSpec .mb0 4 63 [] up, .mb0, 0, by unfold Granted Asks; decide +kernel⟩,
  ⟨asked scheduleSetSpec .mb0 0 63 [] up, .mb0, 0, by unfold Granted Asks; decide +kernel⟩⟩

/-- The hypotheses of PlanesComplete can be met. -/
theorem test_hyps_PlanesComplete :
    (∃ (s : State) (p : Port) (sl : Fin 4) (r : Nat) (pl : _) (i : _), (s.req p sl).target = r ∧ (s.req p sl).argByte
    8 = pl ∧ (s.req p sl).arg 10 2 = i ∧ Granted planeFillSpec s p sl ∧ pl < 4 ∧ i < s.lib.capacity ∧ (s.entry i).st =
    entryReady ∧ pl ≠ (s.region r).active ∧ (s.entry i).fits r = true ∧ (s.region r).fill = none ∧ (s.region
    r).planeTaken pl = false ∧ (s.region r).fillable = true) ∧
    (∃ (s : State) (p : Port) (sl : Fin 4) (r : Nat) (pl : _), (s.req p sl).target = r ∧ (s.req p sl).argByte 8 = pl ∧
    Granted planeOverrideSpec s p sl ∧ (s.req p sl).argByte 10 ≤ 1 ∧ pl < 4 ∧ ((s.req p sl).argByte 9 < 6 ∨ (s.req p
    sl).argByte 9 = 0xFF) ∧ (s.region r).pendingOv = none ∧ (s.region r).mayTake pl = true) ∧
    (∃ (s : State) (p : Port) (sl : Fin 4) (r : Nat), (s.req p sl).target = r ∧ Granted planeOverrideSpec s p sl ∧
    (s.req p sl).argByte 10 = 2 ∧ (s.region r).pendingOv = none) ∧
    (∃ (s : State) (p : Port) (sl : Fin 4), Granted planeStatusSpec s p sl ∧ (s.req p sl).argByte 8 = 0) ∧
    (∃ (s : State) (p : Port) (sl : Fin 4) (r : Nat), (s.req p sl).target = r ∧ Granted planeStatusSpec s p sl ∧
    (s.req p sl).argByte 8 = 1 ∧ ownView (s.req p sl) (ownKey 0 r) s = .mine) ∧
    (∃ (s : State) (r : Fin 64) (f : FillJob) (a : _) (c : _), (copyFor r.val f (modRegion r.val (fun x =>
    { x with fill := none }) s)).2 = .failed a c ∧ s.awake = true ∧ (s.region r.val).fill = some f ∧ f.active = false
    ∧ f.plane < 4 ∧ (s.region r.val).fillWait = [] ∧ (s.region r.val).slice = none) :=
  ⟨⟨asked planeFillSpec .mb0 0 0 [1, 0, 255, 3] (modRegion 0 (fun x => { x with power := .active })
  { up with lib := { entries := [(1023, { st := 2 })] } }), .mb0, 0, _, _, _, rfl, rfl, rfl,
  by unfold Granted Asks; decide +kernel⟩,
  ⟨asked planeOverrideSpec .mb0 0 63 [3, 5] (reg 63 { power := .active, plane3 := { st := .valid } }), .mb0, 0, _, _,
  rfl, rfl, by unfold Granted Asks; decide +kernel⟩,
  ⟨asked planeOverrideSpec .mb0 0 63 [0, 0, 2] up, .mb0, 0, _, rfl, by unfold Granted Asks; decide +kernel⟩,
  ⟨asked planeStatusSpec .mb0 0 63 [] up, .mb0, 0, by unfold Granted Asks; decide +kernel⟩,
  ⟨asked planeStatusSpec .mb0 0 63 [1] ({ up with cudex := { up.cudex with owners := [(63, { port := .mb0 })] } }),
  .mb0, 0, _, rfl, by unfold Granted Asks; decide +kernel⟩,
  ⟨reg 63 { fill := some { plane := 3, index := 1 } }, 63, { plane := 3, index := 1 }, _, _, rfl, by decide +kernel⟩⟩

/-- The hypotheses of RegionCommandsComplete can be met. -/
theorem test_hyps_RegionCommandsComplete :
    (∃ (s : State) (p : Port) (sl : Fin 4), Granted regionIsolateSpec s p sl ∧ (s.req p sl).queryFlag = true) ∧
    (∃ (s : State) (p : Port) (sl : Fin 4), Granted regionIsolateSpec s p sl ∧ (s.req p sl).queryFlag = false ∧ (s.req
    p sl).argByte 8 = 0 ∧ (s.req p sl).atTick = false) ∧
    (∃ (s : State) (p : Port) (sl : Fin 4) (r : Nat), (s.req p sl).target = r ∧ Granted spineEnableSpec s p sl ∧
    (s.req p sl).queryFlag = false ∧ (∀ k < 64, contended ((s.region r).now.use.enables k) = false)) ∧
    (∃ (s : State) (p : Port) (sl : Fin 4) (r : Nat), (s.req p sl).target = r ∧ Granted defectMapReadSpec s p sl ∧
    (s.req p sl).arg 8 2 ≤ (s.defectMap r).length) ∧
    (∃ (s : State) (p : Port) (sl : Fin 4) (r : Nat) (sc : _), (s.req p sl).target = r ∧ scopeOf ((s.req p sl).argByte
    8) = some sc ∧ Granted regionResetSpec s p sl ∧ (s.req p sl).atTick = false ∧ (s.region r).power = .active ∧
    (s.region r).trans = none ∧ (s.region r).resets = [] ∧ (s.region r).slice = none ∧ (s.region r).grace = none ∧
    (s.region r).after = none) ∧
    (∃ (s : State) (q : Fin 64), (s.region q.val).resets = [{ scope := .region, begun := true }]) ∧
    (∃ (s : State) (q : Fin 64) (k : Fin 64), s.awake = true ∧ contended ((s.region q.val).now.use.enables k.val) =
    true ∧ (s.region q.val).spineDisable.getLsbD k.val = false) :=
  ⟨⟨asked regionIsolateSpec .mb0 4 63 [] up, .mb0, 0, by unfold Granted Asks; decide +kernel⟩,
  ⟨asked regionIsolateSpec .mb0 0 63 [] up, .mb0, 0, by unfold Granted Asks; decide +kernel⟩,
  ⟨asked spineEnableSpec .mb0 0 63 [] up, .mb0, 0, _, rfl, by unfold Granted Asks; decide +kernel⟩,
  ⟨asked defectMapReadSpec .mb0 0 63 [] up, .mb0, 0, _, rfl, by unfold Granted Asks; decide +kernel⟩,
  ⟨asked regionResetSpec .mb0 0 63 [2] (reg 63 { power := .active }), .mb0, 0, _, _, rfl, rfl,
  by unfold Granted Asks; decide +kernel⟩,
  ⟨reg 63 { resets := [{ begun := true }] }, 63, by decide +kernel⟩,
  ⟨reg 63 { plane0 := { use := { spines := [(63, 0), (63, 3)] } } }, 63, 63, by decide +kernel⟩⟩

/-- The hypotheses of LibraryCommandsComplete can be met. -/
theorem test_hyps_LibraryCommandsComplete :
    (∃ (s : State) (p : Port) (sl : Fin 4) (r : Nat), (s.req p sl).target = r ∧ Granted libLoadSpec s p sl ∧ r =
    0xFFFF ∧ (s.req p sl).argByte 8 ≤ 1 ∧ (s.req p sl).argByte 26 = 0xFF ∧ 1 ≤ s.lib.queue.length ∧ s.lib.queue.length
    < 8) ∧
    (∃ (s : State) (p : Port) (sl : Fin 4) (i : _), (s.req p sl).arg 8 2 = i ∧ Granted libRemoveSpec s p sl ∧ i <
    s.lib.capacity ∧ (s.entry i).st = entryReady ∧ fillReads i s = false ∧ (pinning i s = [] ∨ (s.req p sl).force =
    true)) ∧
    (∃ (s : State) (p : Port) (sl : Fin 4) (i : _), (s.req p sl).arg 8 2 = i ∧ Granted libQuerySpec s p sl ∧ i <
    s.lib.capacity) ∧
    (∃ (s : State) (p : Port) (sl : Fin 4), Granted flashDirReadSpec s p sl ∧ (s.req p sl).argByte 8 = 1 ∧ (s.req p
    sl).argByte 9 < 63 ∧ s.lib.jobs = [] ∧ s.lib.dirCopy 0 = none) ∧
    (∃ (s : State) (p : Port) (sl : Fin 4) (k : _), (s.req p sl).argByte 9 = k ∧ Granted flashDirReadSpec s p sl ∧
    (s.req p sl).argByte 8 = 1 ∧ k < 63 ∧ flashBusy s 0 = true) ∧
    (∃ (s : State) (p : Port) (sl : Fin 4) (r : Nat) (pl : _) (i : _), (s.req p sl).target = r ∧ (s.req p sl).argByte
    8 = pl ∧ (s.req p sl).arg 10 2 = i ∧ Granted loadActiveSpec s p sl ∧ pl < 4 ∧ pl = (s.region r).active ∧ (s.region
    r).power = .active ∧ i < s.lib.capacity ∧ (s.entry i).st = entryReady ∧ (s.entry i).fits r = true ∧ (s.region
    r).retired = false ∧ (s.region r).fill = none ∧ (s.region r).slice = none ∧ (s.region r).trans = none) ∧
    (∃ (s : State) (q : Fin 64) (f : _) (a : _) (c : _), (copyFor q.val f s).2 = .failed a c ∧ s.awake = true ∧
    (s.region q.val).fill = some f ∧ f.active = true ∧ (s.region q.val).power = .active ∧ (s.region q.val).trans =
    none ∧ (s.region q.val).fillWait = []) ∧
    (∃ (s : State) (x : _) (rest : _), s.lib.queue = x :: rest ∧ s.awake = true ∧ x.flash = false ∧ s.dev.mode =
    .hold) ∧
    (∃ (s : State) (x : _), s.lib.queue = [x] ∧ s.awake = true ∧ (x.flash && flashBusy s x.src) = false) :=
  ⟨⟨asked libLoadSpec .mb0 0 0xFFFF [0, 0, 0, 0, 0, 0, 0, 0, 0, 0, 0, 0, 0, 0, 0, 0, 0, 0, 255]
  ({ up with lib := { queue := [{ waiter := (.mb1, 0, 1) }] } }), .mb0, 0, _, rfl,
  by unfold Granted Asks; decide +kernel⟩,
  ⟨asked libRemoveSpec .mb0 0 0xFFFF [255, 3] ({ up with lib := { entries := [(1023, { st := 2 })] } }), .mb0, 0, _,
  rfl, by unfold Granted Asks; decide +kernel⟩,
  ⟨asked libQuerySpec .mb0 0 0xFFFF [255, 3] up, .mb0, 0, _, rfl, by unfold Granted Asks; decide +kernel⟩,
  ⟨asked flashDirReadSpec .mb0 0 0xFFFF [1, 62] up, .mb0, 0, by unfold Granted Asks; decide +kernel⟩,
  ⟨asked flashDirReadSpec .mb0 0 0xFFFF [1, 62] ({ up with lib := { jobs := [{ ops := [.erase 0 4096] }] } }), .mb0,
  0, _, rfl, by unfold Granted Asks; decide +kernel⟩,
  ⟨asked loadActiveSpec .mb0 0 0 [0, 0, 255, 3] (modRegion 0 (fun x => { x with power := .active })
  { up with lib := { entries := [(1023, { st := 2 })] } }), .mb0, 0, _, _, _, rfl, rfl, rfl,
  by unfold Granted Asks; decide +kernel⟩,
  ⟨reg 63 { fill := some { plane := 0, index := 1, active := true }, power := .active }, 63,
  { plane := 0, index := 1, active := true }, _, _, rfl, by decide +kernel⟩,
  ⟨{ up with dev := { up.dev with mode := .hold, hold := true }, lib := { queue := [{ waiter := (.mb1, 0, 1) }] } },
  _, _, rfl, by decide +kernel⟩,
  ⟨{ up with lib := { queue := [{ waiter := (.mb1, 0, 1) }] } }, _, rfl, by decide +kernel⟩⟩

/-- The hypotheses of MemoriesComplete can be met. -/
theorem test_hyps_MemoriesComplete :
    (∃ (s : State) (m : Fin 16384) (c : _) (o : PortOp), runningCfg s m.val = some c ∧ c.raw = false ∧ c.widthA = 64 ∧
    (s.bram m.val).waitA = false ∧ o.en = true ∧ o.we = true ∧ o.be = BitVec.allOnes 8 ∧ presented s m.val true (some
    o) = true ∧ clockedA s m.val (some o) = some o) ∧
    (∃ (s : State) (m : Fin 16384) (c : _) (o : PortOp), runningCfg s m.val = some c ∧ c.raw = false ∧ c.widthB = 64 ∧
    (s.bram m.val).waitB = false ∧ o.en = true ∧ o.we = false ∧ (s.bram m.val).rmwA = none ∧ presented s m.val false
    (some o) = true ∧ (s.bram m.val).maintains o = false ∧ wordOut ((s.bram m.val).word (o.addr.toNat % 512)) =
    .clean) ∧
    (∃ (s : State) (m : Fin 16384) (o : PortOp), (runningCfg s m.val).isSome = true ∧ (s.bram m.val).waits = true ∧
    o.en = true ∧ presented s m.val false (some o) = true ∧ (s.bram m.val).maintains o = false ∧ 63 ≤ (s.bram
    m.val).starve) ∧
    (∃ (s : State) (m : Fin 16384) (j : _) (rest : _) (line : _) (w : _) (more : _), (s.bram m.val).maint = j :: rest
    ∧ j.ops = (line, w, none) :: more ∧ (runningCfg s m.val).isSome = true ∧ (s.bram m.val).keepB = true ∧ (s.bram
    m.val).half = none ∧ (s.bram m.val).rmwA = none) ∧
    (∃ (s : State) (p : Port) (sl : Fin 4), Granted bramClearSpec s p sl ∧ (s.req p sl).arg 8 2 < 256 ∧ (s.region
    (s.req p sl).target).quiescing = false ∧ (s.region (s.req p sl).target).dragReset = false ∧ (s.region (s.req p
    sl).target).power.low = false) ∧
    (∃ (s : State) (r : Fin 64) (ms : _) (w : _) (rest : _), (s.region r.val).clearing = (ms, w) :: rest ∧ s.awake =
    true ∧ (s.region r.val).power.low = false) ∧
    (∃ (s : State) (p : Port) (sl : Fin 4) (first : _) (n : _), (s.req p sl).argByte 8 = first ∧ (s.req p sl).argByte
    9 = n ∧ Granted ingotConflictsSpec s p sl ∧ 1 ≤ n ∧ n ≤ 56 ∧ first + n ≤ 96 ∧ (s.req p sl).argByte 10 = 0) ∧
    (∃ (s : State) (p : Port) (sl : Fin 4) (first : _) (n : _), (s.req p sl).argByte 8 = first ∧ (s.req p sl).argByte
    9 = n ∧ Granted ingotConflictsSpec s p sl ∧ 1 ≤ n ∧ n ≤ 56 ∧ first + n ≤ 96 ∧ (s.req p sl).argByte 10 = 1 ∧ (p =
    .mb0 ∨ p = .mb1)) ∧
    (∃ (s : State) (p : Port) (sl : Fin 4), Granted ingotBanksSpec s p sl ∧ (s.req p sl).queryFlag = true) ∧
    (∃ (s : State) (p : Port) (sl : Fin 4) (b : _), (s.req p sl).argByte 9 = b ∧ Granted ingotBanksSpec s p sl ∧
    (s.req p sl).queryFlag = false ∧ (s.req p sl).argByte 8 = 1 ∧ b < 64 ∧ s.activeBanks.length ≠ 1 ∧
    s.ingot.retired.contains b = false ∧ s.ingot.change = none) :=
  ⟨⟨clocked 63 (raising (.bram 255 true) [0, 1, 17, 18, 19, 20, 21, 22, 23, 24]
  { brams := [(255, { widthA := 64, widthB := 64 })] }), 16383, { widthA := 64, widthB := 64 }, ⟨true, true, 0,
  BitVec.allOnes 8, 0, false, false⟩, by decide +kernel⟩,
  ⟨clocked 63 (raising (.bram 255 false) [0] { brams := [(255, { widthA := 64, widthB := 64 })] }), 16383,
  { widthA := 64, widthB := 64 }, ⟨true, false, 0, 0, 0, false, false⟩, by decide +kernel⟩,
  ⟨modBram 16383 (fun b => { b with scrub := some 0, starve := 63 }) (clocked 63 (raising (.bram 255 false) [0]
  { brams := [(255, { widthA := 64, widthB := 64 })] })), 16383, ⟨true, false, 0, 0, 0, false, false⟩,
  by decide +kernel⟩,
  ⟨modBram 16383 (fun b => { b with keepB := true, maint := [{ req := 0, ops := [(0, 0, none)] }] }) (reg 63
  { power := .active, clockOn := true, shieldClosed := false, iso := [], plane0 := { use := { brams := [(255, { widthA := 64, widthB := 64 })] } } }),
  16383, _, _, _, _, _, rfl, rfl, by decide +kernel⟩,
  ⟨asked bramClearSpec .mb0 0 63 [255] (reg 63 { power := .active }), .mb0, 0, by unfold Granted Asks; decide +kernel⟩,
  ⟨reg 63 { power := .active, clearing := [([255], (.mb0, 0, 1))] }, 63, _, _, _, rfl, by decide +kernel⟩,
  ⟨asked ingotConflictsSpec .mb0 0 0xFFFF [40, 56] up, .mb0, 0, _, _, rfl, rfl,
  by unfold Granted Asks; decide +kernel⟩,
  ⟨asked ingotConflictsSpec .mb0 0 0xFFFF [40, 56, 1] up, .mb0, 0, _, _, rfl, rfl,
  by unfold Granted Asks; decide +kernel⟩,
  ⟨asked ingotBanksSpec .mb0 4 0xFFFF [] up, .mb0, 0, by unfold Granted Asks; decide +kernel⟩,
  ⟨asked ingotBanksSpec .mb0 0 0xFFFF [1, 63] up, .mb0, 0, _, rfl, by unfold Granted Asks; decide +kernel⟩⟩


/-! ### Hypotheses that can be met (chapters 9 to 11) -/

/-- The hypotheses of BranchesComplete can be met. -/
theorem test_hyps_BranchesComplete :
    (∃ (s : State) (e : Fin 2048) (b : BitVec 64), CalmLegal s e.val .b b) ∧
    (∃ (s : State) (e : Fin 2048) (b : BitVec 64), CalmLegal s e.val .call b) ∧
    (∃ (s : State) (e : Fin 2048) (b : BitVec 64), CalmLegal s e.val .ret b) ∧
    (∃ (s : State) (e : Fin 2048) (b : BitVec 64), CalmLegal s e.val .beqz b) ∧
    (∃ (s : State) (e : Fin 2048) (b : BitVec 64), CalmLegal s e.val .bnez b) ∧
    (∃ (s : State) (e : Fin 2048) (b : BitVec 64), CalmLegal s e.val .bltz b) ∧
    (∃ (s : State) (e : Fin 2048) (b : BitVec 64), CalmLegal s e.val .bgez b) ∧
    (∃ (s : State) (e : Fin 2048) (b : BitVec 64), CalmLegal s e.val .bdec b) ∧
    (∃ (s : State) (e : Fin 2048) (b : BitVec 64), CalmLegal s e.val .reti b) :=
  ⟨⟨dspAt 4611686018427387904 {}, 2047, 4611686018427387904, by unfold CalmLegal Calm; decide +kernel⟩,
  ⟨dspAt 4899916394579099648 {}, 2047, 4899916394579099648, by unfold CalmLegal Calm; decide +kernel⟩,
  ⟨dspAt 5188146770730811392 {}, 2047, 5188146770730811392, by unfold CalmLegal Calm; decide +kernel⟩,
  ⟨dspAt 5476377146882523136 {}, 2047, 5476377146882523136, by unfold CalmLegal Calm; decide +kernel⟩,
  ⟨dspAt 5764607523034234880 {}, 2047, 5764607523034234880, by unfold CalmLegal Calm; decide +kernel⟩,
  ⟨dspAt 6052837899185946624 {}, 2047, 6052837899185946624, by unfold CalmLegal Calm; decide +kernel⟩,
  ⟨dspAt 6341068275337658368 {}, 2047, 6341068275337658368, by unfold CalmLegal Calm; decide +kernel⟩,
  ⟨dspAt 6629298651489370112 {}, 2047, 6629298651489370112, by unfold CalmLegal Calm; decide +kernel⟩,
  ⟨dspAt 14699749183737298944 {}, 2047, 14699749183737298944, by unfold CalmLegal Calm; decide +kernel⟩⟩

/-- The hypotheses of SystemOperationsComplete can be met. -/
theorem test_hyps_SystemOperationsComplete :
    (∃ (s : State) (e : Fin 2048) (b : BitVec 64), CalmLegal s e.val .limm b) ∧
    (∃ (s : State) (e : Fin 2048) (b : BitVec 64) (n : BitVec 16), n = (if b.getLsbD 59 then ((s.finds e.val).dreg (bf
    b 21 4)).extractLsb' 0 16 else BitVec.ofNat 16 (bf b 21 16)) ∧ CalmLegal s e.val .loop b ∧ n ≠ 0) ∧
    (∃ (s : State) (e : Fin 2048) (b : BitVec 64), CalmLegal s e.val .nop b) ∧
    (∃ (s : State) (e : Fin 2048) (b : BitVec 64), CalmLegal s e.val .halt b) ∧
    (∃ (s : State) (e : Fin 2048) (b : BitVec 64), CalmLegal s e.val .waiti b) ∧
    (∃ (s : State) (e : Fin 2048) (b : BitVec 64), CalmLegal s e.val .ei b) ∧
    (∃ (s : State) (e : Fin 2048) (b : BitVec 64), CalmLegal s e.val .di b) ∧
    (∃ (s : State) (e : Fin 2048) (b : BitVec 64), CalmLegal s e.val .sig b) ∧
    (∃ (s : State) (e : Fin 2048) (b : BitVec 64), Calm s e.val .reserved b) :=
  ⟨⟨dspAt 6917529027641081856 {}, 2047, 6917529027641081856, by unfold CalmLegal Calm; decide +kernel⟩,
  ⟨dspAt 9223934986806099968 {}, 2047, 9223934986806099968, _, rfl, by unfold CalmLegal Calm; decide +kernel⟩,
  ⟨dspAt 13835058055282163712 {}, 2047, 13835058055282163712, by unfold CalmLegal Calm; decide +kernel⟩,
  ⟨dspAt 14123288431433875456 {}, 2047, 14123288431433875456, by unfold CalmLegal Calm; decide +kernel⟩,
  ⟨dspAt 14411518807585587200 {}, 2047, 14411518807585587200, by unfold CalmLegal Calm; decide +kernel⟩,
  ⟨dspAt 14987979559889010688 {}, 2047, 14987979559889010688, by unfold CalmLegal Calm; decide +kernel⟩,
  ⟨dspAt 15276209936040722432 {}, 2047, 15276209936040722432, by unfold CalmLegal Calm; decide +kernel⟩,
  ⟨dspAt 15564440312192434176 {}, 2047, 15564440312192434176, by unfold CalmLegal Calm; decide +kernel⟩,
  ⟨dspAt 18158513697557839872 {}, 2047, 18158513697557839872, by unfold Calm; decide +kernel⟩⟩

/-- The hypotheses of BundlesComplete can be met. -/
theorem test_hyps_BundlesComplete :
    (∃ (s : State) (e : Fin 2048) (b : BitVec 64), CalmLegal s e.val .slots b ∧ bf b 26 6 = 0) ∧
    (∃ (s : State) (e : Fin 2048) (b : BitVec 64), CalmLegal s e.val .slots b ∧ bf b 58 4 = 0 ∧ bf b 26 6 = 0x11) ∧
    (∃ (s : State) (e : Fin 2048) (b : BitVec 64), CalmLegal s e.val .slots b ∧ bf b 58 4 = 0 ∧ bf b 26 6 = 0x17) ∧
    (∃ (s : State) (e : Fin 2048) (b : BitVec 64) (x : Engine) (a : BitVec 15), x = s.finds e.val ∧ a = lget 0 x.a (bf
    b 20 3) ∧ CalmLegal s e.val .slots b ∧ bf b 58 4 = 0 ∧ bf b 26 6 = 0x01 ∧ (x.readWord false (a.toNat / 8)).2 =
    .clean) ∧
    (∃ (s : State) (e : Fin 2048) (b : BitVec 64), CalmLegal s e.val .slots b ∧ bf b 58 4 = 0 ∧ bf b 26 6 = 0x03) ∧
    (∃ (s : State) (e : Fin 2048) (b : BitVec 64), CalmLegal s e.val .slots b ∧ bf b 58 4 = 0 ∧ bf b 26 6 = 0x25 ∧ bf
    b 16 6 = 0x2B) ∧
    (∃ (s : State) (e : Fin 2048) (b : BitVec 64), CalmLegal s e.val .slots b ∧ bf b 58 4 = 0 ∧ bf b 26 6 = 0x29 ∧ bf
    b 22 1 = 0) :=
  ⟨⟨dspAt 288230376151711744 {}, 2047, 288230376151711744, by unfold CalmLegal Calm; decide +kernel⟩,
  ⟨dspAt 1140850688 {}, 2047, 1140850688, by unfold CalmLegal Calm; decide +kernel⟩,
  ⟨dspAt 1543503872 {}, 2047, 1543503872, by unfold CalmLegal Calm; decide +kernel⟩,
  ⟨dspAt 67108864 {}, 2047, 67108864, _, _, rfl, rfl, by unfold CalmLegal Calm; decide +kernel⟩,
  ⟨dspAt 201326592 {}, 2047, 201326592, by unfold CalmLegal Calm; decide +kernel⟩,
  ⟨dspAt 2485846016 {}, 2047, 2485846016, by unfold CalmLegal Calm; decide +kernel⟩,
  ⟨dspAt 2751463424 {}, 2047, 2751463424, by unfold CalmLegal Calm; decide +kernel⟩⟩

/-- The hypotheses of EngineEventsComplete can be met. -/
theorem test_hyps_EngineEventsComplete :
    (∃ (s : State) (e : Fin 2048), interrupts s e.val = true) ∧
    (∃ (s : State) (e : Fin 2048), engineClocked s e.val = true ∧ (s.engine e.val).st = .running ∧ (s.engine
    e.val).waiting = true ∧ (s.engineNow e.val).canInterrupt = false ∧ ((s.engineNow e.val).pendNow &&& (s.engine
    e.val).imask) ≠ 0#8) ∧
    (∃ (s : State) (e : Fin 2048), engineClocked s e.val = true ∧ (s.engine e.val).ctl.getLsbD 1 = true ∧ (s.engine
    e.val).timer = 0) ∧
    (∃ (s : State) (e : Fin 2048) (o : _) (ls : _) (d : _), s.outst (.dsp e) 0 = some o ∧ o.resp = some ls ∧ (s.engine
    e.val).dmaActive = some d ∧ s.awake = true ∧ d.toRunner = true ∧ domainPaused (s.domain (domainOfRegion (e.val /
    32))) = false) ∧
    (∃ (s : State) (e : Fin 2048), engineConnected s e.val = true ∧ enginePin s e.val 132 = true ∧ (s.engine
    e.val).bellWas = false) ∧
    (∃ (s : State) (e : Fin 2048), engineConnected s e.val = true ∧ enginePin s e.val 133 = true ∧ (s.engine
    e.val).startWas = false ∧ (s.engine e.val).ctl.getLsbD 0 = true ∧ (s.engine e.val).st = .halted) ∧
    (∃ (s : State) (e : Fin 2048) (k : _) (item : BitVec 64), engineConnected s e.val = true ∧ offers s e.val k item =
    true ∧ (s.engine e.val).portWait = false ∧ ((s.engine e.val).input k).length < 8) ∧
    (∃ (s : State) (e : Fin 2048) (k : _) (item : _) (rest : _), (s.engine e.val).output k = item :: rest ∧
    engineConnected s e.val = true ∧ takesItem s e.val k = true ∧ (s.engine e.val).portWait = false) :=
  ⟨⟨modEngine 2047 (fun _ => { st := .running, stat := 0x10, imask := 0x20, ipend := 0x20 }) (reg 63
  { power := .active }), 2047, by decide +kernel⟩,
  ⟨modEngine 2047 (fun _ => { st := .running, waiting := true, imask := 0x20, ipend := 0x20 }) (reg 63
  { power := .active }), 2047, by decide +kernel⟩,
  ⟨modEngine 2047 (fun _ => { st := .running, ctl := 2 }) (reg 63 { power := .active }), 2047, by decide +kernel⟩,
  ⟨modEngine 2047 (fun _ => { dmaActive := some { toRunner := true } })
  { up with runner := { outst := [{ hdr := ⟨.dsp 2047, 0, 0, 0, 0, 0⟩, op := .write, resp := some [{}] }] } }, 2047,
  _, _, _, rfl, rfl, rfl, by decide +kernel⟩,
  ⟨clocked 63 (raising (.dsp 31) [132] { dspEngines := [31] }), 2047, by decide +kernel⟩,
  ⟨modEngine 2047 (fun _ => { ctl := 1 }) (clocked 63 (raising (.dsp 31) [133] { dspEngines := [31] })), 2047,
  by decide +kernel⟩,
  ⟨clocked 63 (raising (.dsp 31) [129] { dspEngines := [31] }), 2047, 1, 0, by decide +kernel⟩,
  ⟨modEngine 2047 (fun _ => { out0 := [7] }) (clocked 63 (raising (.dsp 31) [130] { dspEngines := [31] })), 2047, 0,
  _, _, rfl, by decide +kernel⟩⟩

/-- The hypotheses of DspCommandsComplete can be met. -/
theorem test_hyps_DspCommandsComplete :
    (∃ (s : State) (p : Port) (sl : Fin 4) (r : Nat), (s.req p sl).target = r ∧ Granted dspStartSpec s p sl ∧ (s.req p
    sl).arg 12 2 < 2048 ∧ (s.req p sl).argByte 14 = 0 ∧ (s.region r).quiescing = false ∧ (s.region r).dragReset =
    false ∧ (s.region r).power.low = false ∧ domainPaused (s.domain (domainOfRegion r)) = false) ∧
    (∃ (s : State) (p : Port) (sl : Fin 4) (r : Nat) (mask : BitVec 32), (s.req p sl).target = r ∧ mask = BitVec.ofNat
    32 ((s.req p sl).arg 8 4) ∧ Granted dspHaltSpec s p sl ∧ domainPaused (s.domain (domainOfRegion r)) = false ∧
    (s.region r).power.low = false ∧ (s.region r).haltJobs = [] ∧ (∀ j < 32, mask.getLsbD j = true → (s.engine (32 * r
    + j)).delay = 0 ∧ (s.engine (32 * r + j)).faultDue = false)) ∧
    (∃ (s : State) (p : Port) (sl : Fin 4) (r : Nat), (s.req p sl).target = r ∧ domainPaused (s.domain (domainOfRegion
    r)) = true) ∧
    (∃ (s : State) (p : Port) (sl : Fin 4) (r : Nat) (j : _), (s.req p sl).target = r ∧ (s.req p sl).argByte 8 = j ∧
    Granted dspStatusSpec s p sl ∧ j < 32 ∧ (s.region r).power.deep = false) :=
  ⟨⟨asked dspStartSpec .mb0 0 63 [1, 0, 0, 128, 255, 7] (reg 63 { power := .active }), .mb0, 0, _, rfl,
  by unfold Granted Asks; decide +kernel⟩,
  ⟨asked dspHaltSpec .mb0 0 63 [255, 255, 255, 255] (reg 63 { power := .active }), .mb0, 0, _, _, rfl, rfl,
  by unfold Granted Asks; decide +kernel⟩,
  ⟨asked dspStartSpec .mb0 0 63 [0] (modDomain 3 (fun d => { d with step := .downRelock }) up), .mb0, 0, _, rfl,
  by decide +kernel⟩,
  ⟨asked dspStatusSpec .mb0 0 63 [31] (reg 63 { power := .active }), .mb0, 0, _, _, rfl, rfl,
  by unfold Granted Asks; decide +kernel⟩⟩

/-- The hypotheses of ThermalComplete can be met. -/
theorem test_hyps_ThermalComplete :
    (∃ (s : State), s.dev.base ≠ .off ∧ s.dev.base ≠ .standby) ∧
    (∃ (s : State), s.awake = true) ∧
    (∃ (s : State), s.awake = true) ∧
    (∃ (s : State), s.firmware = true) ∧
    (∃ (s : State), s.firmware = true) ∧
    (∃ (s : State) (p : Port) (sl : Fin 4) (r : Nat) (w : _) (h : _), (s.req p sl).target = r ∧ (s.req p sl).argByte 8
    = w ∧ (s.req p sl).argByte 9 = h ∧ Granted thermConfigSpec s p sl ∧ (s.req p sl).queryFlag = false ∧ r = 0xFFFF ∧
    60 ≤ w ∧ w ≤ 115 ∧ 70 ≤ h ∧ h ≤ 120 ∧ w + 10 ≤ h) ∧
    (∃ (s : State) (p : Port) (sl : Fin 4) (r : Nat) (b : _), (s.req p sl).target = r ∧ (s.req p sl).arg 8 2 = b ∧
    Granted thermConfigSpec s p sl ∧ (s.req p sl).queryFlag = false ∧ r < 64 ∧ (b = 0xFFFF ∨ (5 ≤ b ∧ b ≤ 100))) ∧
    (∃ (s : State) (p : Port) (sl : Fin 4) (a : _) (n : _), (s.req p sl).argByte 8 = a ∧ (s.req p sl).argByte 9 = n ∧
    Granted thermReadSpec s p sl ∧ 1 ≤ n ∧ n ≤ 72 ∧ a + n ≤ 144) ∧
    (∃ (s : State) (p : Port) (sl : Fin 4) (r : Nat), (s.req p sl).target = r ∧ Granted thermSensorSpec s p sl ∧
    (s.req p sl).argByte 8 = 1 ∧ (s.therm.sensor r).broken = true) ∧
    (∃ (s : State) (p : Port) (sl : Fin 4), Granted ageingPlanSpec s p sl ∧ (s.req p sl).argByte 8 = 0) ∧
    (∃ (s : State) (p : Port) (sl : Fin 4), Granted ageingPlanSpec s p sl ∧ (s.req p sl).argByte 8 = 2) :=
  ⟨⟨up, by decide +kernel⟩,
  ⟨up, by decide +kernel⟩,
  ⟨up, by decide +kernel⟩,
  ⟨up, by decide +kernel⟩,
  ⟨up, by decide +kernel⟩,
  ⟨asked thermConfigSpec .mb0 0 0xFFFF [60, 70] up, .mb0, 0, _, _, _, rfl, rfl, rfl,
  by unfold Granted Asks; decide +kernel⟩,
  ⟨asked thermConfigSpec .mb0 0 63 [5] up, .mb0, 0, _, _, rfl, rfl, by unfold Granted Asks; decide +kernel⟩,
  ⟨asked thermReadSpec .mb0 0 0xFFFF [72, 72] up, .mb0, 0, _, _, rfl, rfl, by unfold Granted Asks; decide +kernel⟩,
  ⟨asked thermSensorSpec .mb0 0 143 [1] ({ up with therm := { sensors := [(143, { broken := true })] } }), .mb0, 0, _,
  rfl, by unfold Granted Asks; decide +kernel⟩,
  ⟨asked ageingPlanSpec .mb0 0 0xFFFF [] up, .mb0, 0, by unfold Granted Asks; decide +kernel⟩,
  ⟨asked ageingPlanSpec .mb0 0 0xFFFF [2] up, .mb0, 0, by unfold Granted Asks; decide +kernel⟩⟩

/-- The hypotheses of SelfTestEventsComplete can be met. -/
theorem test_hyps_SelfTestEventsComplete :
    (∃ (s : State) (b : BusBundle) (first : _), s.awake = true ∧ isBus b.bundle = true ∧ busPowered s b = true ∧
    evenParity first = false) ∧
    (∃ (s : State) (b : BusBundle) (f : BondFinding), maySweep s b = true ∧ bundleExists b.bundle = true ∧ f.region =
    b.region ∧ f.bundle = b.bundle ∧ f.wrong = true ∧ f.position.val < bondsCarried b.bundle ∧ (s.bond b.region.val
    b.bundle).failing.contains f.position.val = false ∧ (s.bond b.region.val b.bundle).weak.contains f.position.val =
    false ∧ (s.bond b.region.val b.bundle).steered.length < bondSpares b.bundle) ∧
    (∃ (s : State) (r : Fin 64) (j : _), (s.region r.val).slice = some j ∧ s.awake = true ∧ j.running = true) ∧
    (∃ (s : State) (r : Fin 64) (j : _), (s.region r.val).slice = some j ∧ s.awake = true ∧ j.running = true) ∧
    (∃ (s : State) (r : Fin 64) (j : _) (failing : _), s.awake = true ∧ (s.region r.val).slice = some j ∧ j.running =
    true ∧ comparedFailing (s.region r.val).tested j.slice failing ≠ []) ∧
    (∃ (s : State) (r : Fin 64) (k : _) (pat : _), (s.test r.val).repeatDue = some (k, pat) ∧ s.firmware = true ∧
    (s.region r.val).power = .active) ∧
    (∃ (s : State), s.awake = true ∧ s.dev.base = .test ∧ s.bonds.fullTest = true) :=
  ⟨⟨clocked 63 {}, ⟨63, .pclk 255⟩, 1, by decide +kernel⟩,
  ⟨clocked 63 {}, ⟨63, .pclk 255⟩,
  { region := 63, bundle := .pclk 255, position := 0, wrong := true, percent := 400 }, by decide +kernel⟩,
  ⟨reg 63 { slice := some { slice := 7, running := true } }, 63, _, rfl, by decide +kernel⟩,
  ⟨reg 63 { slice := some { slice := 7, running := true } }, 63, _, rfl, by decide +kernel⟩,
  ⟨reg 63 { slice := some { slice := 7, running := true } }, 63, { slice := 7, running := true }, [(511, 255)],
  by decide +kernel⟩,
  ⟨{ reg 63 { power := .active } with bonds := { tests := [(63, { repeatDue := some (7, 3) })] } }, 63, _, _, rfl,
  by decide +kernel⟩,
  ⟨{ up with dev := { up.dev with mode := .test, base := .test }, bonds := { fullTest := true } }, by decide +kernel⟩⟩

/-- The hypotheses of SelfTestCommandsComplete can be met. -/
theorem test_hyps_SelfTestCommandsComplete :
    (∃ (s : State) (p : Port) (sl : Fin 4), Granted selftestConfigSpec s p sl ∧ (s.req p sl).queryFlag = true) ∧
    (∃ (s : State) (p : Port) (sl : Fin 4) (iv : _) (sw : _), (s.req p sl).arg 10 2 = iv ∧ (s.req p sl).arg 12 2 = sw
    ∧ Granted selftestConfigSpec s p sl ∧ (s.req p sl).queryFlag = false ∧ (s.req p sl).argByte 8 = 0 ∧ 1 ≤ iv ∧ 1 ≤
    sw ∧ sw ≤ 3600) ∧
    (∃ (s : State) (p : Port) (sl : Fin 4) (r : Nat) (k : _) (pat : _), (s.req p sl).target = r ∧ (s.req p sl).argByte
    8 = k ∧ (s.req p sl).argByte 9 = pat ∧ Granted selftestRunSpec s p sl ∧ k < 8 ∧ pat < 4 ∧ (s.region r).slice =
    none ∧ (s.region r).fill = none ∧ (testPlane s r pat).isSome = true ∧ (s.region r).power = .active ∧ (s.region
    r).retired = false ∧ (s.region r).iso = []) ∧
    (∃ (s : State) (p : Port) (sl : Fin 4), Granted selftestStatusSpec s p sl ∧ (s.req p sl).argByte 8 = 0) ∧
    (∃ (s : State) (p : Port) (sl : Fin 4) (r : Nat), (s.req p sl).target = r ∧ Granted selftestStatusSpec s p sl ∧
    (s.req p sl).argByte 8 = 1 ∧ ownView (s.req p sl) (ownKey 0 r) s = .mine) ∧
    (∃ (s : State) (p : Port) (sl : Fin 4), Granted bondStatusSpec s p sl) :=
  ⟨⟨asked selftestConfigSpec .mb0 4 0xFFFF [] up, .mb0, 0, by unfold Granted Asks; decide +kernel⟩,
  ⟨asked selftestConfigSpec .mb0 0 0xFFFF [0, 0, 1, 0, 16, 14] up, .mb0, 0, _, _, rfl, rfl,
  by unfold Granted Asks; decide +kernel⟩,
  ⟨asked selftestRunSpec .mb0 0 63 [7, 3]
  ({ reg 63 { power := .active, iso := [], plane1 := { st := .test, libIndex := some 1023 } } with bonds := { patterns := [(3, 1023)] } }),
  .mb0, 0, _, _, _, rfl, rfl, rfl, by unfold Granted Asks; decide +kernel⟩,
  ⟨asked selftestStatusSpec .mb0 0 63 [] up, .mb0, 0, by unfold Granted Asks; decide +kernel⟩,
  ⟨asked selftestStatusSpec .mb0 0 63 [1] ({ up with cudex := { up.cudex with owners := [(63, { port := .mb0 })] } }),
  .mb0, 0, _, rfl, by unfold Granted Asks; decide +kernel⟩,
  ⟨asked bondStatusSpec .mb0 0 63 [] up, .mb0, 0, by unfold Granted Asks; decide +kernel⟩⟩

/-- The hypotheses of LaneStatesComplete can be met. -/
theorem test_hyps_LaneStatesComplete :
    (∃ (s : State), s.awake = true) ∧
    (∃ (s : State) (g : Fin 12) (pll : Fin 2) (k : Fin 8), laneRuns s (8 * g.val + k.val) = true ∧ (s.lane (8 * g.val
    + k.val)).pll = pll.val ∧ (s.lane (8 * g.val + k.val)).pllLocked = true) ∧
    (∃ (s : State) (lane : Fin 96) (l : Nat), l = lane.val ∧ laneRuns s l = true ∧ (s.lane l).pllLocked = true ∧
    (s.lane l).cdrLocked = false ∧ (s.lane l).st = .starting) ∧
    (∃ (s : State) (lane : Fin 96) (l : Nat), l = lane.val ∧ laneRuns s l = true ∧ (s.lane l).st = .locking ∧ (s.lane
    l).rx.synced = true) ∧
    (∃ (s : State) (lane : Fin 96) (l : Nat), l = lane.val ∧ laneRuns s l = true ∧ (s.lane l).st = .up ∧ (s.lane
    l).cfg.coding ≠ 0 ∧ (s.lane l).rx.synced = false) ∧
    (∃ (s : State) (lane : Fin 96) (l : Nat), l = lane.val ∧ laneRuns s l = true ∧ (s.lane l).st = .up) ∧
    (∃ (s : State) (lane : Fin 96) (l : Nat) (control : _), l = lane.val ∧ laneRuns s l = true ∧ (s.lane l).st =
    .training ∧ ctlValid control = true) ∧
    (∃ (s : State) (lane : Fin 96) (l : Nat), l = lane.val ∧ laneRuns s l = true ∧ (s.lane l).st = .training ∧ (s.lane
    l).framesLeft.isSome = true) ∧
    (∃ (s : State) (lane : Fin 96) (l : Nat), l = lane.val ∧ laneRuns s l = true ∧ (s.lane l).st = .training) :=
  ⟨⟨up, by decide +kernel⟩,
  ⟨withLane 95 { cfg := { mode := .queue }, pll := 1, pllLocked := true } up, 11, 1, 7, by decide +kernel⟩,
  ⟨withLane 95 { st := .starting, cfg := { mode := .queue }, pllLocked := true } up, 95, _, rfl, by decide +kernel⟩,
  ⟨withLane 95 { st := .locking, cfg := { mode := .queue }, rx := { synced := true } } up, 95, _, rfl,
  by decide +kernel⟩,
  ⟨withLane 95 { st := .up, cfg := { mode := .queue, coding := 1 } } up, 95, _, rfl, by decide +kernel⟩,
  ⟨withLane 95 { st := .up, cfg := { mode := .queue } } up, 95, _, rfl, by decide +kernel⟩,
  ⟨withLane 95 { st := .training, cfg := { mode := .queue } } up, 95, _, 0, rfl, by decide +kernel⟩,
  ⟨withLane 95 { st := .training, cfg := { mode := .queue }, framesLeft := some 3 } up, 95, _, rfl, by decide +kernel⟩,
  ⟨withLane 95 { st := .training, cfg := { mode := .queue } } up, 95, _, rfl, by decide +kernel⟩⟩

/-- The hypotheses of LaneTrafficCompletes can be met. -/
theorem test_hyps_LaneTrafficCompletes :
    (∃ (s : State) (lane : Fin 96) (l : Nat), l = lane.val ∧ s.awake = true ∧ (s.lane l).scan.isSome = true) ∧
    (∃ (s : State) (lane : Fin 96) (l : Nat), l = lane.val ∧ s.awake = true ∧ (s.lane l).injectLeft ≠ 0) ∧
    (∃ (s : State) (lane : Fin 96) (l : Nat), l = lane.val ∧ s.awake = true ∧ (s.lane l).chk ≠ 0 ∧ (s.lane
    l).chkLocked = false ∧ 64 ≤ (s.lane l).chkRun) ∧
    (∃ (s : State) (lane : Fin 96) (l : Nat), l = lane.val ∧ s.awake = true ∧ (s.lane l).chk ≠ 0 ∧ (s.lane
    l).chkLocked = true ∧ 256 < (s.lane l).chkHist.countP id) ∧
    (∃ (s : State) (lane : Fin 96) (l : Nat) (n : Nat) (upper : Nat) (lower : Nat) (line : List (Fin 4)), l = lane.val
    ∧ line = lineLevels n upper lower ∧ receiving s l = true ∧ (s.lane l).st = .locking) ∧
    (∃ (s : State) (lane : Fin 96) (l : Nat) (n : Nat) (upper : Nat) (lower : Nat) (line : List (Fin 4)), l = lane.val
    ∧ line = lineLevels n upper lower ∧ receiving s l = true ∧ (s.lane l).st = .up ∧ (s.lane l).cfg.mode = .queue ∧
    sprueCredit s (s.lane l).cfg.rxQueue 1 = true ∧ (s.lane l).units.length + ((s.lane l).decode l (freshNat s)
    line).2.units.length < 7) ∧
    (∃ (s : State) (lane : Fin 96) (l : Nat) (n : Nat) (upper : Nat) (lower : Nat) (line : List (Fin 4)), l = lane.val
    ∧ line = lineLevels n upper lower ∧ receiving s l = true ∧ (s.lane l).st = .up ∧ (s.lane l).cfg.mode = .queue ∧
    (s.lane l).loopback = 0 ∧ (s.lane l).cfg.coding = 0 ∧ isPam4 (s.lane l).cfg.rate = false ∧ (s.lane l).cfg.rxInvert
    = false ∧ (s.lane l).rx.buf = [] ∧ (s.lane l).rx.skip = 0 ∧ line.length = 64 ∧ sprueCredit s (s.lane
    l).cfg.rxQueue 1 = true ∧ (s.lane l).units.length < 6) ∧
    (∃ (s : State) (lane : Fin 96) (l : Nat) (n : Nat) (upper : Nat) (lower : Nat) (line : List (Fin 4)), l = lane.val
    ∧ line = lineLevels n upper lower ∧ receiving s l = true ∧ (s.lane l).st = .up ∧ (s.lane l).cfg.mode = .sprue ∧
    linkOfLane s l = none) ∧
    (∃ (s : State) (lane : Fin 96) (l : Nat), l = lane.val ∧ laneRuns s l = true ∧ (s.lane l).cfg.mode = .queue ∧
    (s.lane l).delivers = true ∧ (s.lane l).units ≠ [] ∧ sprueCredit s (s.lane l).cfg.rxQueue 1 = true ∧ (s.queue
    (s.lane l).cfg.rxQueue).opened = [] ∧ ptrFault (s.queue (s.lane l).cfg.rxQueue) = none ∧ (∀ o ∈ s.runner.outst,
    o.heldPop ≠ some (s.lane l).cfg.rxQueue)) ∧
    (∃ (s : State) (lane : Fin 96) (l : Nat), l = lane.val ∧ laneRuns s l = true ∧ (s.lane l).st = .up ∧ (s.lane
    l).cfg.mode = .queue ∧ (s.queue (s.lane l).cfg.txQueue).committed = [] ∧ ptrFault (s.queue (s.lane l).cfg.txQueue)
    = none) ∧
    (∃ (s : State) (lane : Fin 96) (l : Nat) (it : _) (rest : _), l = lane.val ∧ (s.queue (s.lane
    l).cfg.txQueue).committed = it :: rest ∧ laneRuns s l = true ∧ (s.lane l).st = .up ∧ (s.lane l).cfg.mode = .queue
    ∧ it.bad = false ∧ (s.queue (s.lane l).cfg.txQueue).enabled = true ∧ (s.queue (s.lane l).cfg.txQueue).consumer =
    69 ∧ 1 ≤ (s.queue (s.lane l).cfg.txQueue).headCount ∧ ptrFault (s.queue (s.lane l).cfg.txQueue) = none) ∧
    (∃ (s : State) (lane : Fin 96) (l : Nat), l = lane.val ∧ laneRuns s l = true ∧ (s.lane l).st = .test ∧ (s.lane
    l).gen ≠ 0) ∧
    (∃ (s : State) (lane : Fin 96) (l : Nat), l = lane.val ∧ s.firmware = true ∧ laneRuns s l = true ∧ (s.lane l).st =
    .up ∧ (s.lane l).scan = none) :=
  ⟨⟨withLane 95 { scan := some {} } up, 95, _, rfl, by decide +kernel⟩,
  ⟨withLane 95 { injectLeft := 1 } up, 95, _, rfl, by decide +kernel⟩,
  ⟨withLane 95 { chk := 6, chkRun := 64 } up, 95, _, rfl, by decide +kernel⟩,
  ⟨withLane 95 { chk := 6, chkLocked := true, chkHist := List.replicate 257 true } up, 95, _, rfl, by decide +kernel⟩,
  ⟨withLane 95 { st := .locking, cfg := { mode := .queue }, cdrLocked := true } up, 95, _, 0, 0, 0, [], rfl,
  by decide +kernel⟩,
  ⟨withLane 95 { st := .up, cfg := { mode := .queue, rxQueue := 4095, coding := 1 }, cdrLocked := true } (withQueue
  4095 { enabled := true, producer := 69, limit := 1 } up), 95, _, 0, 0, 0, [], rfl, by decide +kernel⟩,
  ⟨withLane 95 { st := .up, cfg := { mode := .queue, rxQueue := 4095 }, cdrLocked := true } (withQueue 4095
  { enabled := true, producer := 69, limit := 1 } up), 95, _, 64, 0, 0, lineLevels 64 0 0, rfl, by decide +kernel⟩,
  ⟨withLane 95 { st := .up, cfg := { mode := .sprue }, cdrLocked := true } up, 95, _, 0, 0, 0, [], rfl,
  by decide +kernel⟩,
  ⟨withLane 95 { st := .up, cfg := { mode := .queue, rxQueue := 4095 }, units := [(0, 0)] } (withQueue 4095
  { enabled := true, producer := 69, limit := 1 } up), 95, _, rfl, by decide +kernel⟩,
  ⟨withLane 95 { st := .up, cfg := { mode := .queue } } up, 95, _, rfl, by decide +kernel⟩,
  ⟨withLane 95 { st := .up, cfg := { mode := .queue, txQueue := 4095 } } (withQueue 4095
  { enabled := true, consumer := 69, committed := [{}], headCount := 1 } up), 95, _, _, _, rfl, rfl,
  by decide +kernel⟩,
  ⟨withLane 95 { st := .test, cfg := { mode := .queue }, gen := 6 } up, 95, _, rfl, by decide +kernel⟩,
  ⟨withLane 95 { st := .up, cfg := { mode := .queue } } up, 95, _, rfl, by decide +kernel⟩⟩

/-- The hypotheses of LaneCommandsComplete can be met. -/
theorem test_hyps_LaneCommandsComplete :
    (∃ (s : State) (p : Port) (sl : Fin 4) (l : Nat), (s.req p sl).target = l ∧ isPcieLane s l = false ∧ Granted
    laneConfigSpec s p sl ∧ (s.req p sl).queryFlag = true) ∧
    (∃ (s : State) (p : Port) (sl : Fin 4) (l : Nat), (s.req p sl).target = l ∧ isPcieLane s l = false ∧ Granted
    laneConfigSpec s p sl ∧ (s.req p sl).queryFlag = false ∧ (s.req p sl).argByte 8 = 0 ∧ inLink s l = false ∧ (s.lane
    l).st ≠ .test ∧ (s.req p sl).atTick = false ∧ (s.lane l).scan = none) ∧
    (∃ (s : State) (p : Port) (sl : Fin 4) (l : Nat), (s.req p sl).target = l ∧ isPcieLane s l = false ∧ Granted
    laneConfigSpec s p sl ∧ (s.req p sl).queryFlag = false ∧ laneArgsOk (s.req p sl) = true ∧ (reqLaneCfg (s.req p
    sl)).mode ≠ .off ∧ inLink s l = false ∧ (s.lane l).st = .off ∧ (s.lane l).scan = none ∧ queueOnly (s.lane l).cfg
    (reqLaneCfg (s.req p sl)) = false ∧ (s.req p sl).atTick = false ∧ pllUsers s l = [] ∧ (s.lane l).cfg.mode = .off) ∧
    (∃ (s : State) (p : Port) (sl : Fin 4) (l : Nat), (s.req p sl).target = l ∧ isPcieLane s l = false ∧ Granted
    laneStatusSpec s p sl ∧ (s.req p sl).argByte 8 = 0) ∧
    (∃ (s : State) (p : Port) (sl : Fin 4) (l : Nat), (s.req p sl).target = l ∧ isPcieLane s l = false ∧ Granted
    laneStatusSpec s p sl ∧ (s.req p sl).argByte 8 = 1 ∧ ownView (s.req p sl) (ownKey 1 l) s = .mine) ∧
    (∃ (s : State) (p : Port) (sl : Fin 4) (l : Nat), (s.req p sl).target = l ∧ isPcieLane s l = false ∧ Granted
    laneResetSpec s p sl ∧ inLink s l = false ∧ (s.lane l).cfg.mode ≠ .off ∧ (s.lane l).scan = none) ∧
    (∃ (s : State) (p : Port) (sl : Fin 4) (l : Nat), (s.req p sl).target = l ∧ isPcieLane s l = false ∧ Granted
    laneSlipSpec s p sl ∧ (s.req p sl).argByte 8 ≠ 0 ∧ (s.lane l).cfg.isManual = true) ∧
    (∃ (s : State) (p : Port) (sl : Fin 4) (l : Nat), (s.req p sl).target = l ∧ isPcieLane s l = false ∧ Granted
    laneEyescanSpec s p sl ∧ scanArgsOk s l (reqScan (s.req p sl)) = true ∧ (s.lane l).scan = none ∧ scanAllowed s l =
    true) ∧
    (∃ (s : State) (p : Port) (sl : Fin 4) (l : Nat), (s.req p sl).target = l ∧ isPcieLane s l = false ∧ Granted
    lanePrbsSpec s p sl ∧ (s.req p sl).queryFlag = false ∧ inLink s l = false ∧ patternSuits (s.lane l).cfg.rate
    ((s.req p sl).argByte 8) = true ∧ patternSuits (s.lane l).cfg.rate ((s.req p sl).argByte 9) = true ∧ (s.req p
    sl).argByte 10 < 8 ∧ testCombines ((s.req p sl).argByte 8) ((s.req p sl).argByte 9) (s.lane l).loopback = true ∧
    (s.req p sl).argByte 8 ≠ 0 ∧ (s.lane l).scan = none) ∧
    (∃ (s : State) (p : Port) (sl : Fin 4) (l : Nat) (n : _) (k : _), (s.req p sl).target = l ∧ (s.req p sl).arg 10 2
    = n ∧ (s.req p sl).argByte 12 = k ∧ isPcieLane s l = false ∧ Granted laneInjectSpec s p sl ∧ (s.req p sl).argByte
    8 ≤ 1 ∧ 1 ≤ n ∧ 10 ≤ k ∧ k ≤ 40 ∧ (s.lane l).st ≠ .off ∧ (s.lane l).injectLeft = 0) ∧
    (∃ (s : State) (p : Port) (sl : Fin 4) (l : Nat) (d : _), (s.req p sl).target = l ∧ (s.req p sl).argByte 8 = d ∧
    isPcieLane s l = false ∧ Granted laneLoopbackSpec s p sl ∧ (s.req p sl).queryFlag = false ∧ d ≠ 0 ∧ depthFits
    (s.lane l) d = true ∧ inLink s l = false ∧ testCombines (s.lane l).gen (s.lane l).chk d = true ∧ (s.lane l).scan =
    none) :=
  ⟨⟨asked laneConfigSpec .mb0 4 95 [] up, .mb0, 0, _, rfl, by unfold Granted Asks; decide +kernel⟩,
  ⟨asked laneConfigSpec .mb0 0 95 [] up, .mb0, 0, _, rfl, by unfold Granted Asks; decide +kernel⟩,
  ⟨asked laneConfigSpec .mb0 0 95 [1, 7, 0, 0, 0, 1, 0, 0, 0, 0, 0, 0, 244, 1, 0, 0, 0, 0, 10] up, .mb0, 0, _, rfl,
  by unfold Granted Asks; decide +kernel⟩,
  ⟨asked laneStatusSpec .mb0 0 95 [] up, .mb0, 0, _, rfl, by unfold Granted Asks; decide +kernel⟩,
  ⟨asked laneStatusSpec .mb0 0 95 [1]
  ({ up with cudex := { up.cudex with owners := [(256 + 95, { port := .mb0 })] } }), .mb0, 0, _, rfl,
  by unfold Granted Asks; decide +kernel⟩,
  ⟨asked laneResetSpec .mb0 0 95 [] (withLane 95
  { st := .up, cfg := { mode := .queue, rate := 7, coding := 1 }, cdrLocked := true } up), .mb0, 0, _, rfl,
  by unfold Granted Asks; decide +kernel⟩,
  ⟨asked laneSlipSpec .mb0 0 95 [1] (withLane 95 { cfg := { mode := .queue, manual := true } } up), .mb0, 0, _, rfl,
  by unfold Granted Asks; decide +kernel⟩,
  ⟨asked laneEyescanSpec .mb0 0 95 [0, 0, 0, 0, 0, 16] (withLane 95
  { st := .up, cfg := { mode := .queue, rate := 7, coding := 1 }, cdrLocked := true } up), .mb0, 0, _, rfl,
  by unfold Granted Asks; decide +kernel⟩,
  ⟨asked lanePrbsSpec .mb0 0 95 [6, 6, 7] (withLane 95
  { st := .up, cfg := { mode := .queue, rate := 7, coding := 1 }, cdrLocked := true } up), .mb0, 0, _, rfl,
  by unfold Granted Asks; decide +kernel⟩,
  ⟨asked laneInjectSpec .mb0 0 95 [1, 0, 1, 0, 40] (withLane 95
  { st := .up, cfg := { mode := .queue, rate := 7, coding := 1 }, cdrLocked := true } up), .mb0, 0, _, _, _, rfl, rfl,
  rfl, by unfold Granted Asks; decide +kernel⟩,
  ⟨asked laneLoopbackSpec .mb0 0 95 [2] (withLane 95
  { st := .up, cfg := { mode := .queue, rate := 7, coding := 1 }, cdrLocked := true } up), .mb0, 0, _, _, rfl, rfl,
  by unfold Granted Asks; decide +kernel⟩⟩

/-- The hypotheses of LinkCommandsComplete can be met. -/
theorem test_hyps_LinkCommandsComplete :
    (∃ (s : State) (p : Port) (sl : Fin 4), Granted linkConfigSpec s p sl ∧ (s.req p sl).queryFlag = true) ∧
    (∃ (s : State) (p : Port) (sl : Fin 4) (l : Nat), (s.req p sl).target = l ∧ Granted linkConfigSpec s p sl ∧ (s.req
    p sl).queryFlag = false ∧ (s.req p sl).argByte 8 = 0 ∧ (∀ k ∈ (s.link l).prof.lanes, (s.lane k).scan = none)) ∧
    (∃ (s : State) (p : Port) (sl : Fin 4) (l : Nat) (pr : _), (s.req p sl).target = l ∧ reqProfile (s.req p sl) = pr
    ∧ Granted linkConfigSpec s p sl ∧ (s.req p sl).queryFlag = false ∧ (s.req p sl).argByte 8 = 1 ∧ profileOk (s.req p
    sl) = true ∧ s.sys.node ≠ noNode ∧ (∀ k ∈ pr.lanes, isPcieLane s k = false ∧ (s.lane k).st = .off ∧ (s.lane
    k).cfg.mode = .off ∧ (s.lane k).scan = none) ∧ poolUsed s l + pr.alloc.foldl (· + ·) 0 ≤ 32768 ∧ (s.link l).st =
    .off ∧ (s.link l).prof.lanes = [] ∧ (formLanes (s.link l).prof pr (takenState linkConfigSpec s p sl)).isSome =
    true) ∧
    (∃ (s : State) (p : Port) (sl : Fin 4), Granted linkStatusSpec s p sl ∧ (s.req p sl).argByte 8 = 0) ∧
    (∃ (s : State) (p : Port) (sl : Fin 4) (l : Nat), (s.req p sl).target = l ∧ Granted linkStatusSpec s p sl ∧ (s.req
    p sl).argByte 8 = 1 ∧ ownView (s.req p sl) (ownKey 2 l) s = .mine) ∧
    (∃ (s : State) (p : Port) (sl : Fin 4) (l : Nat), (s.req p sl).target = l ∧ Granted linkResetSpec s p sl ∧ (s.link
    l).prof.lanes ≠ [] ∧ (∀ k ∈ (s.link l).prof.lanes, (s.lane k).cfg.mode = .sprue ∧ (s.lane k).scan = none) ∧
    (s.link l).st = .down) ∧
    (∃ (s : State) (p : Port) (sl : Fin 4) (l : Nat), (s.req p sl).target = l ∧ Granted linkResetSpec s p sl ∧ (s.link
    l).prof.lanes ≠ [] ∧ (∀ k ∈ (s.link l).prof.lanes, (s.lane k).cfg.mode = .sprue ∧ (s.lane k).scan = none) ∧
    (s.link l).st = .up) ∧
    (∃ (s : State) (p : Port) (sl : Fin 4) (l : Nat) (d : _), (s.req p sl).target = l ∧ (s.req p sl).argByte 8 = d ∧
    Granted linkLoopbackSpec s p sl ∧ (s.req p sl).queryFlag = false ∧ (d = 0 ∨ d = 5 ∨ d = 6) ∧ (s.link l).st = .up) ∧
    (∃ (s : State) (p : Port) (sl : Fin 4) (l : Nat) (c : _), (s.req p sl).target = l ∧ (s.req p sl).arg 10 2 = c ∧
    Granted sprueQueueSpec s p sl ∧ (s.req p sl).queryFlag = false ∧ (s.req p sl).argByte 8 = 1 ∧ c < 4096 ∧ queueBusy
    s l = false) ∧
    (∃ (s : State) (p : Port) (sl : Fin 4) (l : Nat) (a : _) (b : _), (s.req p sl).target = l ∧ (s.req p sl).arg 12 4
    = a ∧ (s.req p sl).arg 16 4 = b ∧ Granted sprueQueueSpec s p sl ∧ (s.req p sl).queryFlag = false ∧ (s.req p
    sl).argByte 8 = 2 ∧ a ≤ b ∧ b < noNode ∧ queueBusy s l = false) :=
  ⟨⟨asked linkConfigSpec .mb0 4 47 [] up, .mb0, 0, by unfold Granted Asks; decide +kernel⟩,
  ⟨asked linkConfigSpec .mb0 0 47 [] up, .mb0, 0, _, rfl, by unfold Granted Asks; decide +kernel⟩,
  ⟨asked linkConfigSpec .mb0 0 47 [1, 8, 88, 89, 90, 91, 92, 93, 94, 95, 7, 1, 0, 1, 0, 0, 0, 0, 244, 1, 64, 0, 64, 0,
  64, 0, 64, 0, 64, 0, 64, 0, 64, 0, 64, 0, 1, 1, 1, 1, 1, 1, 1, 0, 10] ({ up with sys := { node := 0 } }), .mb0, 0,
  _, _, rfl, rfl, by unfold Granted Asks; decide +kernel⟩,
  ⟨asked linkStatusSpec .mb0 0 47 [] up, .mb0, 0, by unfold Granted Asks; decide +kernel⟩,
  ⟨asked linkStatusSpec .mb0 0 47 [1]
  ({ up with cudex := { up.cudex with owners := [(512 + 47, { port := .mb0 })] } }), .mb0, 0, _, rfl,
  by unfold Granted Asks; decide +kernel⟩,
  ⟨asked linkResetSpec .mb0 0 47 [] (withLane 95 { cfg := { mode := .sprue } } (withLink 47
  { st := .down, prof := { lanes := [95] } } up)), .mb0, 0, _, rfl, by unfold Granted Asks; decide +kernel⟩,
  ⟨asked linkResetSpec .mb0 0 47 [] (withLane 95 { st := .up, cfg := { mode := .sprue } } (withLink 47
  { st := .up, prof := { lanes := [95] } } up)), .mb0, 0, _, rfl, by unfold Granted Asks; decide +kernel⟩,
  ⟨asked linkLoopbackSpec .mb0 0 47 [6] (withLink 47 { st := .up } up), .mb0, 0, _, _, rfl, rfl,
  by unfold Granted Asks; decide +kernel⟩,
  ⟨asked sprueQueueSpec .mb0 0 4095 [1, 0, 255, 15] up, .mb0, 0, _, _, rfl, rfl,
  by unfold Granted Asks; decide +kernel⟩,
  ⟨asked sprueQueueSpec .mb0 0 4095 [2, 0, 0, 0, 0, 0, 0, 0, 254, 255, 3] up, .mb0, 0, _, _, _, rfl, rfl, rfl,
  by unfold Granted Asks; decide +kernel⟩⟩

/-- The hypotheses of FlitsComplete can be met. -/
theorem test_hyps_FlitsComplete :
    (∃ (s : State) (k : Fin 48) (lane : Fin 8) (f : Line) (l : Nat), l = k.val ∧ flitArrives s l lane.val 1 f = true ∧
    flitSeq f = (s.link l).expect ∧ (s.link l).rxHeld = []) ∧
    (∃ (s : State) (k : Fin 48) (lane : Fin 8) (f : Line) (l : Nat), l = k.val ∧ flitArrives s l lane.val 1 f = true ∧
    flitSeq f ≠ (s.link l).expect ∧ aheadOf (flitSeq f) (s.link l).expect = false) ∧
    (∃ (s : State) (k : Fin 48) (lane : Fin 8) (f : Line) (l : Nat), l = k.val ∧ flitArrives s l lane.val 1 f = true ∧
    flitSeq f ≠ (s.link l).expect ∧ aheadOf (flitSeq f) (s.link l).expect = true ∧ (s.link l).nakOut = false ∧ (s.link
    l).prof.width = 1) ∧
    (∃ (s : State) (k : Fin 48) (lane : Fin 8) (f : Line) (l : Nat), l = k.val ∧ flitArrives s l lane.val 2 f = true) ∧
    (∃ (s : State) (k : Fin 48) (lane : Fin 8) (f : Line) (l : Nat), l = k.val ∧ flitArrives s l lane.val 3 f = true ∧
    (s.link l).ackCount (flitAck f) = 0 ∧ (s.link l).replay ≠ [] ∧ (s.link l).replayAt = none ∧ (s.link l).replayCount
    < 15) ∧
    (∃ (s : State) (k : Fin 48) (lane : Fin 8) (f : Line) (l : Nat), l = k.val ∧ s.awake = true ∧ (s.link l).st =
    .hello ∧ (s.link l).active.testBit lane.val = true ∧ goodFlit 4 f = true ∧ helloFault s l (flitPayload f) = none) ∧
    (∃ (s : State) (k : Fin 48) (lane : Fin 8) (f : Line) (l : Nat), l = k.val ∧ flitArrives s l lane.val 5 f = true ∧
    s.sys.role ≠ .none ∧ timeValid (flitPayload f) = true) ∧
    (∃ (s : State) (k : Fin 48) (lane : Fin 8) (f : Line) (l : Nat), l = k.val ∧ flitArrives s l lane.val 6 f = true ∧
    fieldOf (flitPayload f) 0 1 = 1) ∧
    (∃ (s : State) (k : Fin 48) (lane : Fin 8) (f : Line) (l : Nat), l = k.val ∧ flitArrives s l lane.val 6 f = true ∧
    fieldOf (flitPayload f) 0 1 = 3 ∧ (s.link l).loopback ≠ 5 ∧ (s.link l).loopPartner = true) ∧
    (∃ (s : State) (k : Fin 48) (lane : Fin 8) (f : Line) (l : Nat), l = k.val ∧ flitArrives s l lane.val 7 f = true) ∧
    (∃ (s : State) (k : Fin 48) (lane : Fin 8) (f : Line) (l : Nat) (why : FlitFault) (i : _), l = k.val ∧ s.awake =
    true ∧ (s.link l).st = .up ∧ (s.link l).active.testBit lane.val = true ∧ ((why = .crc ∧ i = 2 ∧ crcPasses f =
    false) ∨ (why = .framing ∧ i = 3) ∨ (why = .malformed ∧ i = 4 ∧ crcPasses f = true ∧ isMalformedFlit f = true))) :=
  ⟨⟨withLink 47 { st := .up, active := 128, expect := 5 } up, 47, 7, flit 1 5 0 0, _, rfl, by decide +kernel⟩,
  ⟨withLink 47 { st := .up, active := 128, expect := 5 } up, 47, 7, flit 1 4 0 0, _, rfl, by decide +kernel⟩,
  ⟨withLink 47 { st := .up, active := 128, expect := 5, prof := { width := 1 } } up, 47, 7, flit 1 6 0 0, _, rfl,
  by decide +kernel⟩,
  ⟨withLink 47 { st := .up, active := 128, expect := 5 } up, 47, 7, flit 2 0 0 0, _, rfl, by decide +kernel⟩,
  ⟨withLink 47 { st := .up, active := 128, expect := 5, replay := [{}] } up, 47, 7, flit 3 0 4095 0, _, rfl,
  by decide +kernel⟩,
  ⟨withLink 47 { st := .hello, active := 128, prof := { width := 8, rate := 7, coding := 1 } } up, 47, 7, flit 4 0 0
  4722440519584613138434, _, rfl, by decide +kernel⟩,
  ⟨withLink 47 { st := .up, active := 128, expect := 5 } up, 47, 7, flit 5 0 0 0, _, rfl, by decide +kernel⟩,
  ⟨withLink 47 { st := .up, active := 128, expect := 5 } up, 47, 7, flit 6 0 0 1, _, rfl, by decide +kernel⟩,
  ⟨withLink 47 { st := .up, active := 128, expect := 5, loopPartner := true } up, 47, 7, flit 6 0 0 3, _, rfl,
  by decide +kernel⟩,
  ⟨withLink 47 { st := .up, active := 128, expect := 5 } up, 47, 7, flit 7 0 0 0, _, rfl, by decide +kernel⟩,
  ⟨withLink 47 { st := .up, active := 128, expect := 5 } up, 47, 7, 0, _, .framing, 3, rfl, by decide +kernel⟩⟩

/-- The hypotheses of LinkTimersComplete can be met. -/
theorem test_hyps_LinkTimersComplete :
    (∃ (s : State) (k : Fin 48) (l : Nat), l = k.val ∧ (s.link l).st = .up ∧ (s.link l).gapTo.isSome = true ∧ (s.link
    l).nakOut = false) ∧
    (∃ (s : State) (k : Fin 48) (l : Nat), l = k.val ∧ (s.link l).st = .up ∧ (s.link l).nakOut = true ∧ (s.link
    l).nakDue = false) ∧
    (∃ (s : State) (k : Fin 48) (l : Nat), l = k.val ∧ (s.link l).st = .up ∧ (s.link l).replay ≠ [] ∧ (s.link
    l).replayAt = none ∧ (s.link l).replayCount < 15) ∧
    (∃ (s : State) (k : Fin 48) (l : Nat), l = k.val ∧ (s.link l).st = .up ∧ (s.link l).replay ≠ [] ∧ (s.link
    l).replayAt = none ∧ 15 ≤ (s.link l).replayCount) ∧
    (∃ (s : State) (k : Fin 48) (l : Nat), l = k.val ∧ s.awake = true ∧ (s.link l).st = .up) ∧
    (∃ (s : State) (k : Fin 48) (l : Nat), l = k.val ∧ (s.link l).st = .down ∧ s.awake = true) ∧
    (∃ (s : State) (k : Fin 48) (l : Nat), l = k.val ∧ (s.link l).st = .up ∧ (s.link l).stable = false) ∧
    (∃ (s : State) (k : Fin 48) (l : Nat), l = k.val ∧ ((s.link l).st = .starting ∨ (s.link l).st = .hello)) ∧
    (∃ (s : State) (k : Fin 48) (l : Nat), l = k.val ∧ (s.link l).st = .starting ∧ (s.link l).prof.degrade = true ∧
    upMask s l ≠ 0) ∧
    (∃ (s : State) (k : Fin 48) (l : Nat), l = k.val ∧ s.awake = true ∧ (s.link l).st = .hello ∧ maskLanes (upMask s
    l) ≠ []) ∧
    (∃ (s : State) (k : Fin 48) (l : Nat) (j : Fin 49) (vc : Fin 8) (q : _), l = k.val ∧ j.val = l ∧ (s.link l).st =
    .up ∧ ((s.link l).rxOf vc.val).arrive = .credit q ∧ ((s.link l).rxOf vc.val).wait = [] ∧ sprueCredit s q
    (packetItems (hdrLen ((s.link l).rxOf vc.val).header)) = false) ∧
    (∃ (s : State) (vc : Fin 8) (h : BitVec 128) (body : List Byte), (∀ q, ((s.link 48).rxOf vc.val).arrive ≠ .credit
    q) ∧ s.awake = true ∧ s.sys.whole = [(h, vc.val, 63, body)] ∧ sprueCredit s (hdrQueue h) (packetItems (hdrLen h))
    = false) :=
  ⟨⟨withLink 47 { st := .up, gapTo := some 3 } up, 47, _, rfl, by decide +kernel⟩,
  ⟨withLink 47 { st := .up, nakOut := true } up, 47, _, rfl, by decide +kernel⟩,
  ⟨withLink 47 { st := .up, replay := [{}], replayCount := 14 } up, 47, _, rfl, by decide +kernel⟩,
  ⟨withLink 47 { st := .up, replay := [{}], replayCount := 15 } up, 47, _, rfl, by decide +kernel⟩,
  ⟨withLink 47 { st := .up } up, 47, _, rfl, by decide +kernel⟩,
  ⟨withLink 47 { st := .down } up, 47, _, rfl, by decide +kernel⟩,
  ⟨withLink 47 { st := .up } up, 47, _, rfl, by decide +kernel⟩,
  ⟨withLink 47 { st := .starting } up, 47, _, rfl, by decide +kernel⟩,
  ⟨withLane 95 { st := .up } (withLink 47 { st := .starting, prof := { degrade := true, lanes := [95] } } up), 47, _,
  rfl, by decide +kernel⟩,
  ⟨withLane 95 { st := .up } (withLink 47 { st := .hello, prof := { lanes := [95] } } up), 47, _, rfl,
  by decide +kernel⟩,
  ⟨withLink 47 { st := .up, rx := [{}, { arrive := .credit 9 }] } up, 47, _, 47, 1, 9, rfl, by decide +kernel⟩,
  ⟨{ up with sys := { whole := [(0, 1, 63, [])] } }, 1, 0, [], (no_credit (by decide +kernel) 1 (by decide)),
  by decide +kernel⟩⟩

/-- The hypotheses of SendingCompletes can be met. -/
theorem test_hyps_SendingCompletes :
    (∃ (s : State) (k : Fin 48) (l : Nat), l = k.val ∧ (∀ v < 8, ∀ q, ((s.link l).rxOf v).arrive ≠ .credit q) ∧
    s.awake = true ∧ (s.link l).st = .up ∧ s.sys.completions = [] ∧ s.sys.whole = [] ∧ (s.link l).timeDue = true) ∧
    (∃ (s : State) (k : Fin 48) (l : Nat), l = k.val ∧ (∀ v < 8, ∀ q, ((s.link l).rxOf v).arrive ≠ .credit q) ∧
    s.awake = true ∧ (s.link l).st = .up ∧ s.sys.completions = [] ∧ s.sys.whole = [] ∧ (s.link l).timeDue = false ∧
    (s.link l).nakDue = true) ∧
    (∃ (s : State) (k : Fin 48) (l : Nat) (i : _) (r : _), l = k.val ∧ (∀ v < 8, ∀ q, ((s.link l).rxOf v).arrive ≠
    .credit q) ∧ s.awake = true ∧ (s.link l).st = .up ∧ s.sys.completions = [] ∧ s.sys.whole = [] ∧ (s.link l).timeDue
    = false ∧ (s.link l).nakDue = false ∧ (s.link l).loopDue = none ∧ (s.link l).loopReturn = [] ∧ (s.link l).replayAt
    = some i ∧ (s.link l).replay[i]? = some r) ∧
    (∃ (s : State) (k : Fin 48) (l : Nat) (g : _), l = k.val ∧ (∀ v < 8, ∀ q, ((s.link l).rxOf v).arrive ≠ .credit q)
    ∧ (s.link l).ready 7 = some g ∧ s.awake = true ∧ (s.link l).st = .up ∧ s.sys.completions = [] ∧ s.sys.whole = [] ∧
    (s.link l).timeDue = false ∧ (s.link l).nakDue = false ∧ (s.link l).loopDue = none ∧ (s.link l).loopReturn = [] ∧
    (s.link l).replayAt = none) ∧
    (∃ (s : State) (q : Fin 4096) (c : _) (pkt : _), firstPacket (s.queue q.val).committed = pkt ∧ s.awake = true ∧
    (s.queue q.val).role = .send c ∧ (s.queue q.val).enabled = true ∧ (s.queue q.val).consumer = 69 ∧ (s.queue
    q.val).sending = none ∧ ptrFault (s.queue q.val) = none ∧ pkt ≠ [] ∧ (pkt.any (·.bad) = true ∨ descOk (pkt.headD
    {}).bytes pkt.length = false) ∧ c = none) ∧
    (∃ (s : State) (q : Fin 4096) (c : _) (pkt : _) (d : _) (l : _), firstPacket (s.queue q.val).committed = pkt ∧
    (pkt.headD {}).bytes = d ∧ s.awake = true ∧ (s.queue q.val).role = .send c ∧ (s.queue q.val).enabled = true ∧
    (s.queue q.val).consumer = 69 ∧ (s.queue q.val).sending = none ∧ ptrFault (s.queue q.val) = none ∧ pkt ≠ [] ∧
    pkt.any (·.bad) = false ∧ descOk d pkt.length = true ∧ l < 48 ∧ (routeTo s s.sys.node (fieldOf d 0 4)).1 = .link l
    ∧ (s.link l).loopback ≠ 6) :=
  ⟨⟨withLink 47 { st := .up, timeDue := true } up, 47, _, rfl, no_credit (by decide +kernel), by decide +kernel⟩,
  ⟨withLink 47 { st := .up, nakDue := true } up, 47, _, rfl, no_credit (by decide +kernel), by decide +kernel⟩,
  ⟨withLink 47 { st := .up, replay := [{}], replayAt := some 0 } up, 47, _, 0, {}, rfl, no_credit (by decide +kernel),
  by decide +kernel⟩,
  ⟨withLink 47
  { st := .up, prof := { alloc := [64, 64, 64, 64, 64, 64, 64, 64] }, tx := [{}, {}, {}, {}, {}, {}, {}, { waiting := [{ first := true, last := true }], limit := 1 }] }
  up, 47, _, _, rfl, no_credit (by decide +kernel), rfl, by decide +kernel⟩,
  ⟨withQueue 4095 { enabled := true, consumer := 69, role := .send none, committed := [{ eop := true, bad := true }] }
  up, 4095, none, _, rfl, by decide +kernel⟩,
  ⟨withQueue 4095
  { enabled := true, consumer := 69, role := .send none, committed := [{ bytes := 9 }, { eop := true }] }
  { withLink 47 { st := .up, partner := 9 } up with sys := { node := 0 } }, 4095, none, _, _, 47, rfl, rfl,
  by decide +kernel⟩⟩


/-! ### Hypotheses that can be met (chapters 12 to 20) -/

/-- The hypotheses of SystemCommandsComplete can be met. -/
theorem test_hyps_SystemCommandsComplete :
    (∃ (s : State) (p : Port) (sl : Fin 4) (q : Req), s.req p sl = q ∧ Granted nodeSetSpec s p sl ∧ q.queryFlag =
    true) ∧
    (∃ (s : State) (p : Port) (sl : Fin 4) (q : Req), s.req p sl = q ∧ Granted nodeSetSpec s p sl ∧ q.queryFlag =
    false ∧ nodeArgsOk q = true ∧ (q.arg 8 4 = s.sys.node ∨ ∀ l ∈ s.links, l.2.st = .off)) ∧
    (∃ (s : State) (p : Port) (sl : Fin 4) (q : Req) (w : _), s.req p sl = q ∧ q.argByte 8 = w ∧ Granted windowSetSpec
    s p sl ∧ q.queryFlag = false ∧ w < 16 ∧ q.argByte 9 = 1 ∧ windowArgsOk q s = true) ∧
    (∃ (s : State) (p : Port) (sl : Fin 4) (q : Req) (w : _), s.req p sl = q ∧ q.argByte 8 = w ∧ Granted windowSetSpec
    s p sl ∧ q.queryFlag = false ∧ w < 16 ∧ q.argByte 9 = 0) ∧
    (∃ (s : State) (p : Port) (sl : Fin 4) (q : Req), s.req p sl = q ∧ Granted profileSetSpec s p sl ∧ q.queryFlag =
    false ∧ profileArgsOk q = true) ∧
    (∃ (s : State) (p : Port) (sl : Fin 4) (q : Req), s.req p sl = q ∧ Granted partnerQuerySpec s p sl ∧
    s.sys.partnerSyn = [] ∧ q.argByte 8 = 1 ∧ q.arg 12 4 < 65536) ∧
    (∃ (s : State) (p : Port) (sl : Fin 4) (q : Req) (k : _), s.req p sl = q ∧ slotOf s (q.arg 12 4) = some k ∧
    Granted partnerSetSpec s p sl ∧ q.queryFlag = false ∧ q.argByte 8 ≤ 1 ∧ q.arg 12 4 < noNode ∧ q.argByte 16 < 16 ∧
    s.sys.partnerSyn = []) ∧
    (∃ (s : State) (p : Port) (sl : Fin 4) (q : Req) (k : _), s.req p sl = q ∧ slotOf s (q.arg 12 4) = some k ∧
    Granted partnerSetSpec s p sl ∧ q.queryFlag = false ∧ q.argByte 8 = 2 ∧ q.arg 12 4 < noNode ∧ q.argByte 16 < 16 ∧
    s.sys.partnerSyn = [] ∧ ((s.partner k).outst = 0 ∨ q.force = true)) ∧
    (∃ (s : State) (p : Port) (sl : Fin 4) (q : Req) (k : _), s.req p sl = q ∧ freeSlot s.sys.partners (nodeBuckets
    (q.arg 12 4)).1 = some k ∧ Granted partnerSetSpec s p sl ∧ q.queryFlag = false ∧ q.argByte 8 = 0 ∧ q.arg 12 4 <
    noNode ∧ q.argByte 16 < 16 ∧ s.sys.partnerSyn = [] ∧ slotOf s (q.arg 12 4) = none) ∧
    (∃ (s : State) (p : Port) (sl : Fin 4) (q : Req) (n : _), s.req p sl = q ∧ q.argByte 12 = n ∧ Granted routeSetSpec
    s p sl ∧ q.queryFlag = false ∧ q.argByte 8 = 0 ∧ 1 ≤ n ∧ n ≤ 28 ∧ q.arg 10 2 + n ≤ 4096 ∧ (∀ k < n, routeEntryOk
    (BitVec.ofNat 64 (q.arg (16 + 8 * k) 8)) = true) ∧ routesDistinct (writtenRoutes q s.sys.routes) = true) ∧
    (∃ (s : State) (p : Port) (sl : Fin 4) (q : Req) (d : _), s.req p sl = q ∧ q.arg 16 4 = d ∧ Granted routeSetSpec s
    p sl ∧ q.queryFlag = false ∧ q.argByte 8 = 2 ∧ d < noNode) ∧
    (∃ (s : State) (p : Port) (sl : Fin 4) (q : Req), s.req p sl = q ∧ Granted timeConfigSpec s p sl ∧ q.target =
    0xFFFF ∧ q.queryFlag = false ∧ q.argByte 8 ≤ 2 ∧ 10 ≤ q.arg 12 2 ∧ q.arg 12 2 ≤ 10000) ∧
    (∃ (s : State) (p : Port) (sl : Fin 4) (q : Req) (l : _), s.req p sl = q ∧ q.target = l ∧ Granted timeConfigSpec s
    p sl ∧ l < 48 ∧ q.queryFlag = false ∧ q.argByte 8 ≤ 1) ∧
    (∃ (s : State) (p : Port) (sl : Fin 4), Granted timeStatusSpec s p sl) :=
  ⟨⟨asked nodeSetSpec .mb0 4 0xFFFF [] up, .mb0, 0, _, rfl, by unfold Granted Asks; decide +kernel⟩,
  ⟨asked nodeSetSpec .mb0 0 0xFFFF [5, 0, 0, 0, 16, 0, 0, 0, 232, 3, 0, 0, 1, 95, 4] up, .mb0, 0, _, rfl,
  by unfold Granted Asks; decide +kernel⟩,
  ⟨asked windowSetSpec .mb0 0 0xFFFF [15, 1, 0, 0, 0, 0, 0, 0, 0, 0, 0, 0, 0, 0, 0, 0, 0, 0, 4, 0, 1, 0, 0, 0, 0, 0,
  0, 0, 255, 255, 3, 0, 7] up, .mb0, 0, _, _, rfl, rfl, by unfold Granted Asks; decide +kernel⟩,
  ⟨asked windowSetSpec .mb0 0 0xFFFF [15] up, .mb0, 0, _, _, rfl, rfl, by unfold Granted Asks; decide +kernel⟩,
  ⟨asked profileSetSpec .mb0 0 15 [64, 64, 63, 0, 113, 2, 4, 0, 255, 255, 255, 255, 255, 255, 255, 255, 255, 255, 255,
  255, 255, 255, 255] up, .mb0, 0, _, rfl, by unfold Granted Asks; decide +kernel⟩,
  ⟨asked partnerQuerySpec .mb0 0 0xFFFF [1, 0, 0, 0, 255, 255] up, .mb0, 0, _, rfl,
  by unfold Granted Asks; decide +kernel⟩,
  ⟨asked partnerSetSpec .mb0 0 0xFFFF [0, 0, 0, 0, 9, 0, 0, 0, 15] (withPartner 9 { state := 1 } up), .mb0, 0, _, _,
  rfl, rfl, by unfold Granted Asks; decide +kernel⟩,
  ⟨asked partnerSetSpec .mb0 0 0xFFFF [2, 0, 0, 0, 9, 0, 0, 0, 15] (withPartner 9 { state := 1 } up), .mb0, 0, _, _,
  rfl, rfl, by unfold Granted Asks; decide +kernel⟩,
  ⟨asked partnerSetSpec .mb0 0 0xFFFF [0, 0, 0, 0, 254, 255, 3, 0, 15] up, .mb0, 0, _, _, rfl, rfl,
  by unfold Granted Asks; decide +kernel⟩,
  ⟨asked routeSetSpec .mb0 0 0xFFFF [0, 0, 255, 15, 1] up, .mb0, 0, _, _, rfl, rfl,
  by unfold Granted Asks; decide +kernel⟩,
  ⟨asked routeSetSpec .mb0 0 0xFFFF [2, 0, 0, 0, 0, 0, 0, 0, 254, 255, 3] up, .mb0, 0, _, _, rfl, rfl,
  by unfold Granted Asks; decide +kernel⟩,
  ⟨asked timeConfigSpec .mb0 0 0xFFFF [2, 0, 0, 0, 16, 39] up, .mb0, 0, _, rfl,
  by unfold Granted Asks; decide +kernel⟩,
  ⟨asked timeConfigSpec .mb0 0 47 [1] up, .mb0, 0, _, _, rfl, rfl, by unfold Granted Asks; decide +kernel⟩,
  ⟨asked timeStatusSpec .mb0 0 0xFFFF [] up, .mb0, 0, by unfold Granted Asks; decide +kernel⟩⟩

/-- The hypotheses of TransactionsComplete can be met. -/
theorem test_hyps_TransactionsComplete :
    (∃ (s : State) (h : ReqHdr) (op : RemoteOp) (lines : List WLine), s.sys.partnerSyn = [] ∧ accepts s h (runOp op) =
    true ∧ isRemote s h = true ∧ linesOk (runOp op) h lines = true ∧ (crosses h = true ∨ s.sys.node = noNode)) ∧
    (∃ (s : State) (h : ReqHdr) (op : RemoteOp) (lines : List WLine) (k : _) (l : Nat), slotOf s (remoteNode h) = some
    k ∧ (routeTo s s.sys.node (remoteNode h)).1 = .link l ∧ s.sys.partnerSyn = [] ∧ accepts s h (runOp op) = true ∧
    isRemote s h = true ∧ linesOk (runOp op) h lines = true ∧ crosses h = false ∧ s.sys.node ≠ noNode ∧ (s.partner
    k).outst < (s.profile (s.partner k).profile).limit ∧ (s.partner k).outst < 255 ∧ s.sys.txns.length < 4096 ∧
    (s.profile (s.partner k).profile).opMask.getLsbD (remoteCode op) = true ∧ lineCount h ≤ (s.profile (s.partner
    k).profile).maxLines ∧ (∀ x ∈ s.runner.outst, x.hdr.src = h.src → x.hdr.addr.toNat / 4096 = h.addr.toNat / 4096 →
    x.accepted = true ∨ x.resp.isSome = true ∨ x.gone = true) ∧ (s.link l).loopback ≠ 6) ∧
    (∃ (s : State) (src : _) (tag : _) (o : _) (k : _) (l : Nat), waitingRemote s src tag = some o ∧ slotOf s
    (remoteNode o.hdr) = some k ∧ (routeTo s s.sys.node (remoteNode o.hdr)).1 = .link l ∧ s.sys.partnerSyn = [] ∧
    remoteAhead s o = false ∧ (s.partner k).outst < (s.profile (s.partner k).profile).limit ∧ (s.partner k).outst <
    255 ∧ s.sys.txns.length < 4096 ∧ (s.profile (s.partner k).profile).opMask.getLsbD (remoteCode (remoteOp o.op)) =
    true ∧ lineCount o.hdr ≤ (s.profile (s.partner k).profile).maxLines ∧ (s.link l).loopback ≠ 6) ∧
    (∃ (s : State) (l : Fin 48) (m : _) (vc : _) (n : _) (rest : _) (tag : Fin 64), s.sys.inReq = (l.val, m, vc, n) ::
    rest ∧ s.sys.partnerSyn = [] ∧ freeTag s = some tag ∧ s.sys.recompute = []) ∧
    (∃ (s : State) (l : Fin 48) (m : Message) (vc : _) (n : _) (rest : _) (x : _) (code : _) (o : _), s.sys.inResp =
    (l.val, m, vc, n) :: rest ∧ s.sys.txns.find? (fun t => isTxn (hdrSource m.header) (fieldOf m.header 10 2) t &&
    decide (remoteCode t.op = fieldOf m.header 12 1) && decide (t.offset = leNat (m.body.take 4) % 2 ^ 30)) = some x ∧
    codeOfStatus (fieldOf m.header 13 1) = some code ∧ s.outst x.src x.tag = some o ∧ s.sys.partnerSyn = [] ∧ o.id =
    x.id ∧ o.resp = none) ∧
    (∃ (s : State) (l : Fin 48) (m : Message) (vc : _) (n : _) (rest : _), s.sys.inResp = (l.val, m, vc, n) :: rest ∧
    s.sys.partnerSyn = [] ∧ s.sys.txns.find? (fun t => isTxn (hdrSource m.header) (fieldOf m.header 10 2) t && decide
    (remoteCode t.op = fieldOf m.header 12 1) && decide (t.offset = leNat (m.body.take 4) % 2 ^ 30)) = none) ∧
    (∃ (s : State) (node : Fin 262144) (sequence : BitVec 16) (x : _) (o : _), s.sys.txns.find? (isTxn node.val
    sequence.toNat) = some x ∧ s.outst x.src x.tag = some o ∧ s.sys.partnerSyn = [] ∧ o.id = x.id ∧ o.resp = none) :=
  ⟨⟨up, from_ 0x1000240000040, .read, [], by decide +kernel⟩,
  ⟨withPartner 9 { state := 1 } (withLink 47 { st := .up, partner := 9 } { up with sys := { node := 0 } }), from_
  0x1000240000040, .read, [], _, _, rfl, rfl, by decide +kernel⟩,
  ⟨withPartner 9 { state := 1 } (withLink 47 { st := .up, partner := 9 }
  { up with sys := { node := 0 }, runner := { outst := [{ hdr := from_ 0x1000240000040, op := .read }] } }), .cupola,
  0, _, _, _, rfl, rfl, rfl, by decide +kernel⟩,
  ⟨{ up with sys := { node := 0, inReq := [(47, ⟨8462480737302404373938176, [64, 0, 0, 0]⟩, 0, 0)] } }, 47, _, _, _,
  _, 0, rfl, by decide +kernel⟩,
  ⟨{ up with sys := { node := 0, inResp := [(47, ⟨8462480737302404373938176, [64, 0, 0, 0]⟩, 0, 0)], txns := [{ node := 9, sequence := 7, op := .read, offset := 64, lines := 1, link := 47, src := .cupola }] }, runner := { outst := [{ hdr := from_ 0x1000240000040, op := .read }] } },
  47, ⟨8462480737302404373938176, [64, 0, 0, 0]⟩, _, _, _, _, _, _, rfl, rfl, rfl, rfl, by decide +kernel⟩,
  ⟨{ up with sys := { node := 0, inResp := [(47, ⟨8462480737302404373938176, [64, 0, 0, 0]⟩, 0, 0)] } }, 47,
  ⟨8462480737302404373938176, [64, 0, 0, 0]⟩, _, _, _, rfl, by decide +kernel⟩,
  ⟨{ up with sys := { txns := [{ node := 9, sequence := 7, op := .read, offset := 64, lines := 1, link := 47, src := .cupola }] }, runner := { outst := [{ hdr := from_ 0x1000240000040, op := .read }] } },
  9, 7, _, _, rfl, rfl, by decide +kernel⟩⟩

/-- The hypotheses of SystemEventsComplete can be met. -/
theorem test_hyps_SystemEventsComplete :
    (∃ (s : State), s.sys.recompute ≠ [] ∧ s.sys.partnerSyn = []) ∧
    (∃ (s : State), s.awake = true ∧ s.sys.role ≠ .none) ∧
    (∃ (s : State), s.awake = true) ∧
    (∃ (s : State) (node : Fin 262144), s.firmware = true ∧ s.sys.refused.contains node.val = true) :=
  ⟨⟨{ up with sys := { recompute := [((.mb0, 0, 1), 3)] } }, by decide +kernel⟩,
  ⟨up, by decide +kernel⟩,
  ⟨up, by decide +kernel⟩,
  ⟨{ up with sys := { refused := [9] } }, 9, by decide +kernel⟩⟩

/-- The hypotheses of RunnerRequestsComplete can be met. -/
theorem test_hyps_RunnerRequestsComplete :
    (∃ (s : State) (h : ReqHdr), mayTakeReq s h .read [] = true) ∧
    (∃ (s : State) (h : ReqHdr) (lines : _), mayTakeReq s h .write lines = true) ∧
    (∃ (s : State) (h : ReqHdr), mayTakeReq s h .read [] = true ∧ isRemote s h = false ∧ crosses h = true ∧ (∀ o ∈
    s.runner.outst, o.heldPop = none)) ∧
    (∃ (s : State) (h : ReqHdr) (a : _), h.addr.toNat / 64 * 64 = a ∧ mayTakeReq s h .read [] = true ∧ a <
    0x1200000000 ∧ h.len = 0 ∧ rightTo s h.src false h.addr.toNat = .granted ∧ s.rangeOf a = none ∧ s.dev.hbmReady =
    true ∧ s.hbm.repair = none ∧ s.hbm.eccAt a ≠ .uncorrectable) ∧
    (∃ (s : State) (h : ReqHdr) (a : _) (w : _) (u : _) (data : _) (be : _), withLines h .write [w] s = (u, [(data,
    be)]) ∧ h.addr.toNat / 64 * 64 = a ∧ mayTakeReq s h .write [w] = true ∧ a < 0x1200000000 ∧ rightTo s h.src true
    h.addr.toNat = .granted ∧ s.rangeOf a = none ∧ s.dev.hbmReady = true ∧ s.hbm.repair = none ∧ s.hbm.eccAt a ≠
    .uncorrectable) ∧
    (∃ (s : State) (h : ReqHdr) (i : Instr) (op : RunOp) (d : _) (b : _) (off : _), (i, op) ∈ [(Instr.add32 h d,
    RunOp.add32), (.add64 h d, .add64), (.swap32 h d, .swap32), (.swap64 h d, .swap64)] ∧ accepts s h op = true ∧
    crosses h = false ∧ rightTo s h.src true h.addr.toNat = .granted ∧ atomicOk op h = true ∧ ingotPlace s (decodeAddr
    h.addr.toNat) = some (b, off) ∧ tget [] s.ingot.waiting b = [] ∧ (s.region b).gate true (entryStopped b s) =
    (.serve, false) ∧ decodeSyn 16 (tget 0 s.ingot.syn (ingotKey b (off / 32 * 32) / 32)).toNat = .clean) ∧
    (∃ (s : State) (h : ReqHdr), accepts s h .write = true) :=
  ⟨⟨up, from_ 0x11FFFFFFC0, by decide +kernel⟩,
  ⟨up, from_ 0x11FFFFFFC0, [(5, BitVec.allOnes 64)], by decide +kernel⟩,
  ⟨up, ⟨.cupola, 0xFC0, 1, 0, 0, 0⟩, by decide +kernel⟩,
  ⟨up, from_ 0x11FFFFFFC0, _, rfl, by decide +kernel⟩,
  ⟨up, from_ 0x11FFFFFFC0, _, (5, 1), _, 5, 1, rfl, rfl, by decide +kernel⟩,
  ⟨reg 63 { power := .active }, from_ 0x201ffffff8, .swap64 (from_ 0x201ffffff8) 5, .swap64, 5, 63, 4194296,
  by decide +kernel⟩,
  ⟨up, from_ 0x11FFFFFFC0, by decide +kernel⟩⟩

/-- The hypotheses of RunnerEventsComplete can be met. -/
theorem test_hyps_RunnerEventsComplete :
    (∃ (s : State) (src : _) (tag : _) (o : _) (l : _), answered s src tag = some o ∧ (∀ e, src ≠ .dsp e) ∧ src ≠
    .sprue ∧ o.hdr.src = src ∧ o.hdr.tag = tag ∧ o.resp = some [l] ∧ o.gone = false ∧ o.discard = false ∧ portTakes s
    src = true) ∧
    (∃ (s : State) (src : _) (tag : _) (o : _), s.outst src tag = some o ∧ (∀ e, src ≠ .dsp e) ∧ o.accepted = false ∧
    src ≠ .sprue ∧ o.discard = false ∧ linesOwed o ≠ 0 ∧ portTakes s src = true) ∧
    (∃ (s : State) (r : Fin 64) (p : Fin 8) (tag : _) (o : _), s.outst (.fabric r p) tag = some o ∧ o.accepted = false
    ∧ o.discard = false ∧ portTakes s (.fabric r p) = false) ∧
    (∃ (s : State) (r : Fin 64) (p : Fin 8) (tag : _) (o : _), s.outst (.fabric r p) tag = some o ∧ o.accepted = false
    ∧ o.discard = true) ∧
    (∃ (s : State) (src : _) (tag : _) (o : _), s.outst src tag = some o) ∧
    (∃ (s : State) (src : _) (tag : _) (o : _) (a : _), s.outst src tag = some o ∧ decodeAddr o.hdr.addr.toNat = .hbm
    a) ∧
    (∃ (s : State) (p : Port) (sl : Fin 4) (r : _), (s.req p sl).target = r ∧ Granted runnerCountersSpec s p sl ∧
    (s.req p sl).argByte 8 = 1 ∧ ownView (s.req p sl) (ownKey 0 r) s = .mine) :=
  ⟨⟨{ up with runner := { outst := [{ hdr := from_ 0x11FFFFFFC0, op := .read, resp := some [{}] }] } }, .cupola, 0, _,
  {}, rfl, (by intro e h; cases h), by decide +kernel⟩,
  ⟨{ up with runner := { outst := [{ hdr := from_ 0x11FFFFFFC0, op := .read }] } }, .cupola, 0, _, rfl,
  (by intro e h; cases h), by decide +kernel⟩,
  ⟨{ up with runner := { outst := [{ hdr := ⟨.fabric 63 0, 0x11FFFFFFC0, 0, 0, 0, 0⟩, op := .read }] } }, 63, 0, 0, _,
  rfl, by decide +kernel⟩,
  ⟨{ up with runner := { outst := [{ hdr := ⟨.fabric 63 0, 0x11FFFFFFC0, 0, 0, 0, 0⟩, op := .read, discard := true }] } },
  63, 0, 0, _, rfl, by decide +kernel⟩,
  ⟨{ up with runner := { outst := [{ hdr := from_ 0x11FFFFFFC0, op := .read }] } }, .cupola, 0, _, rfl⟩,
  ⟨{ up with runner := { outst := [{ hdr := from_ 0x11FFFFFFC0, op := .read }] } }, .cupola, 0, _, 0x11FFFFFFC0, rfl,
  by decide +kernel⟩,
  ⟨asked runnerCountersSpec .mb0 0 63 [1] (owned 63 .mb0 up), .mb0, 0, _, rfl, by unfold Granted Asks; decide +kernel⟩⟩

/-- The hypotheses of RegionPowerEventsComplete can be met. -/
theorem test_hyps_RegionPowerEventsComplete :
    (∃ (s : State) (k : Fin 64) (r : Nat), r = k.val ∧ (s.region r).trans = some (.quiescing .shelved) ∧ outstandingAt
    r s = 0) ∧
    (∃ (s : State) (k : Fin 64) (r : Nat), r = k.val ∧ (s.region r).trans = some (.quiescing .cold)) ∧
    (∃ (s : State) (k : Fin 64) (r : Nat), r = k.val ∧ (s.region r).trans = some .saving) ∧
    (∃ (s : State) (k : Fin 64) (r : Nat) (dest : _), r = k.val ∧ (s.region r).trans = some (.entering dest) ∧
    (dest.deep = true ∨ drained r s = true) ∧ (∀ o ∈ s.runner.outst, o.heldFor ≠ some r) ∧ (s.region r).resets = [] ∧
    (s.region r).deferred = none) ∧
    (∃ (s : State) (k : Fin 64) (r : Nat) (left : _), r = k.val ∧ (s.region r).trans = some (.exiting left) ∧
    left.deep = false ∧ (∀ o ∈ s.runner.outst, o.heldFor ≠ some r) ∧ (s.region r).resets = [] ∧ (s.region r).deferred
    = none ∧ (s.region r).after = none) ∧
    (∃ (s : State) (k : Fin 64) (r : Nat), r = k.val ∧ (s.region r).trans = some (.exiting .cold) ∧ (s.region
    r).record = none ∧ (s.region r).loadingActive = false ∧ (∀ o ∈ s.runner.outst, o.heldFor ≠ some r) ∧ (s.region
    r).resets = [] ∧ (s.region r).deferred = none ∧ (s.region r).after = none) :=
  ⟨⟨reg 63 { trans := some (.quiescing .shelved) }, 63, _, rfl, by decide +kernel⟩,
  ⟨reg 63 { trans := some (.quiescing .cold) }, 63, _, rfl, by decide +kernel⟩,
  ⟨reg 63 { trans := some .saving }, 63, _, rfl, by decide +kernel⟩,
  ⟨reg 63 { trans := some (.entering .banked) }, 63, _, .banked, rfl, by decide +kernel⟩,
  ⟨reg 63 { trans := some (.exiting .banked) }, 63, _, .banked, rfl, by decide +kernel⟩,
  ⟨reg 63 { trans := some (.exiting .cold) }, 63, _, rfl, by decide +kernel⟩⟩

/-- The hypotheses of QueueWindowsComplete can be met. -/
theorem test_hyps_QueueWindowsComplete :
    (∃ (s : State) (h : ReqHdr) (q : Nat) (off : Nat) (x : Queue) (w : _) (u : _) (d : _) (be : _), s.queue q = x ∧
    withLines h .write [w] s = (u, [(d, be)]) ∧ decodeAddr h.addr.toNat = .riser q off ∧ x.enabled = true ∧ ptrFault x
    = none ∧ (∀ o ∈ s.runner.outst, o.heldPop ≠ some q) ∧ crosses h = false ∧ mayTakeReq s h .write [w] = true ∧
    inQueueArea h .write .push = true ∧ rightTo s h.src true h.addr.toNat = .granted ∧ x.producer = masterOf h.src ∧
    be ≠ 0 ∧ x.prod ≠ .discard ∧ x.hasCredit = true) ∧
    (∃ (s : State) (h : ReqHdr) (q : Nat) (off : Nat) (x : Queue) (w : _) (u : _) (d : _) (be : _), s.queue q = x ∧
    withLines h .write [w] s = (u, [(d, be)]) ∧ decodeAddr h.addr.toNat = .riser q off ∧ x.enabled = true ∧ ptrFault x
    = none ∧ (∀ o ∈ s.runner.outst, o.heldPop ≠ some q) ∧ crosses h = false ∧ mayTakeReq s h .write [w] = true ∧
    inQueueArea h .write .pushEop = true ∧ rightTo s h.src true h.addr.toNat = .granted ∧ x.producer = masterOf h.src
    ∧ be ≠ 0 ∧ x.prod ≠ .discard ∧ x.hasCredit = true) ∧
    (∃ (s : State) (h : ReqHdr) (q : Nat) (off : Nat) (x : Queue) (w : _) (u : _) (d : _) (be : _), s.queue q = x ∧
    withLines h .write [w] s = (u, [(d, be)]) ∧ decodeAddr h.addr.toNat = .riser q off ∧ x.enabled = true ∧ ptrFault x
    = none ∧ (∀ o ∈ s.runner.outst, o.heldPop ≠ some q) ∧ crosses h = false ∧ mayTakeReq s h .write [w] = true ∧
    inQueueArea h .write .push = true ∧ rightTo s h.src true h.addr.toNat = .granted ∧ x.producer = masterOf h.src ∧
    be ≠ 0 ∧ x.prod ≠ .discard ∧ x.hasCredit = false) ∧
    (∃ (s : State) (h : ReqHdr) (q : Nat) (off : Nat) (x : Queue) (w : _) (u : _) (d : _) (be : _), s.queue q = x ∧
    withLines h .write [w] s = (u, [(d, be)]) ∧ decodeAddr h.addr.toNat = .riser q off ∧ x.enabled = true ∧ ptrFault x
    = none ∧ (∀ o ∈ s.runner.outst, o.heldPop ≠ some q) ∧ crosses h = false ∧ mayTakeReq s h .write [w] = true ∧
    inQueueArea h .write .abort = true ∧ rightTo s h.src true h.addr.toNat = .granted ∧ x.producer = masterOf h.src ∧
    be ≠ 0 ∧ x.prod = .open_) ∧
    (∃ (s : State) (h : ReqHdr) (q : Nat) (off : Nat) (x : Queue) (it : _) (rest : _), s.queue q = x ∧ decodeAddr
    h.addr.toNat = .riser q off ∧ x.enabled = true ∧ ptrFault x = none ∧ (∀ o ∈ s.runner.outst, o.heldPop ≠ some q) ∧
    crosses h = false ∧ mayTakeReq s h .read [] = true ∧ inQueueArea h .read .pop = true ∧ h.len = 0 ∧ rightTo s h.src
    false h.addr.toNat = .granted ∧ x.consumer = masterOf h.src ∧ x.committed = it :: rest ∧ 1 ≤ x.headCount) ∧
    (∃ (s : State) (h : ReqHdr) (q : Nat) (off : Nat) (x : Queue), s.queue q = x ∧ decodeAddr h.addr.toNat = .riser q
    off ∧ x.enabled = true ∧ ptrFault x = none ∧ (∀ o ∈ s.runner.outst, o.heldPop ≠ some q) ∧ crosses h = false ∧
    mayTakeReq s h .read [] = true ∧ inQueueArea h .read .pop = true ∧ h.len = 0 ∧ rightTo s h.src false h.addr.toNat
    = .granted ∧ x.consumer = masterOf h.src ∧ x.committed = []) ∧
    (∃ (s : State) (h : ReqHdr) (q : Nat) (off : Nat) (x : Queue) (it : _) (rest : _), s.queue q = x ∧ decodeAddr
    h.addr.toNat = .riser q off ∧ x.enabled = true ∧ ptrFault x = none ∧ (∀ o ∈ s.runner.outst, o.heldPop ≠ some q) ∧
    crosses h = false ∧ mayTakeReq s h .read [] = true ∧ inQueueArea h .read .popStatus = true ∧ rightTo s h.src false
    h.addr.toNat = .granted ∧ x.consumer = masterOf h.src ∧ x.committed = it :: rest ∧ 1 ≤ x.headCount) ∧
    (∃ (s : State) (h : ReqHdr) (q : Nat) (off : Nat) (x : Queue) (n : Fin 4096), s.queue q = x ∧ decodeAddr
    h.addr.toNat = .riser q off ∧ x.enabled = true ∧ ptrFault x = none ∧ (∀ o ∈ s.runner.outst, o.heldPop ≠ some q) ∧
    crosses h = false ∧ n.val = q ∧ s.awake = true ∧ 0 < x.reading ∧ 0 < x.spilled ∧ x.headCount < x.committed.length) :=
  ⟨⟨withQueue 4095 { enabled := true, limit := 1 } up, from_ 0x2300fff1c0, 4095, 0x1c0, _, (5, 1), _, 5, 1, rfl, rfl,
  by decide +kernel⟩,
  ⟨withQueue 4095 { enabled := true, limit := 1 } up, from_ 0x2300fff3c0, 4095, 0x3c0, _, (5, 1), _, 5, 1, rfl, rfl,
  by decide +kernel⟩,
  ⟨withQueue 4095 { enabled := true, cap := 1 } up, from_ 0x2300fff000, 4095, 0x0, _, (5, 1), _, 5, 1, rfl, rfl,
  by decide +kernel⟩,
  ⟨withQueue 4095 { enabled := true, prod := .open_ } up, from_ 0x2300fff400, 4095, 0x400, _, (5, 1), _, 5, 1, rfl,
  rfl, by decide +kernel⟩,
  ⟨withQueue 4095 { enabled := true, committed := [{}], headCount := 1 } up, from_ 0x2300fff9c0, 4095, 0x9c0, _, {},
  [], rfl, by decide +kernel⟩,
  ⟨withQueue 4095 { enabled := true, cap := 1 } up, from_ 0x2300fff800, 4095, 0x800, _, rfl, by decide +kernel⟩,
  ⟨withQueue 4095 { enabled := true, committed := [{}], headCount := 1 } up, ⟨.cupola, 0x2300fffa00, 1, 0, 0, 0⟩,
  4095, 0xa00, _, {}, [], rfl, by decide +kernel⟩,
  ⟨withQueue 4095 { enabled := true, committed := [{}], spilled := 1, reading := 1 } up, from_ 0x2300fff800, 4095,
  0x800, _, 4095, rfl, by decide +kernel⟩⟩

/-- The hypotheses of RiserCommandsComplete can be met. -/
theorem test_hyps_RiserCommandsComplete :
    (∃ (s : State) (p : Port) (sl : Fin 4), Granted riserSpillSpec s p sl ∧ (s.req p sl).queryFlag = true) ∧
    (∃ (s : State) (p : Port) (sl : Fin 4) (base : _) (pages : _), (s.req p sl).arg 8 8 = base ∧ (s.req p sl).arg 16 4
    = pages ∧ Granted riserSpillSpec s p sl ∧ (s.req p sl).queryFlag = false ∧ spillOk s base pages = true ∧
    pagesReserved s = 0) ∧
    (∃ (s : State) (p : Port) (sl : Fin 4) (n : Nat) (cap : _) (prod : _) (cons : _), (s.req p sl).target = n ∧ (s.req
    p sl).arg 12 4 = cap ∧ sideOf ((s.req p sl).argByte 16) (s.queue n).producer = prod ∧ sideOf ((s.req p sl).argByte
    17) (s.queue n).consumer = cons ∧ Granted riserConfigSpec s p sl ∧ (s.req p sl).queryFlag = false ∧ (s.req p
    sl).argByte 8 = 1 ∧ 1 ≤ cap ∧ cap ≤ 16 + 2 ^ 24 ∧ (s.queue n).enabled = false ∧ prod ≤ 71 ∧ cons ≤ 71 ∧ ((s.queue
    n).prodHard = true → prod = (s.queue n).producer) ∧ ((s.queue n).consHard = true → cons = (s.queue n).consumer) ∧
    pagesReserved s + spillPagesFor cap ≤ s.riser.spillPages) ∧
    (∃ (s : State) (p : Port) (sl : Fin 4) (n : Nat), (s.req p sl).target = n ∧ Granted riserConfigSpec s p sl ∧
    (s.req p sl).queryFlag = false ∧ (s.req p sl).argByte 8 = 0 ∧ (s.queue n).size = 0) ∧
    (∃ (s : State) (p : Port) (sl : Fin 4), Granted riserStatusSpec s p sl ∧ (s.req p sl).argByte 8 = 0) ∧
    (∃ (s : State) (p : Port) (sl : Fin 4) (n : Nat), (s.req p sl).target = n ∧ Granted riserStatusSpec s p sl ∧
    (s.req p sl).argByte 8 = 1 ∧ ownView (s.req p sl) (ownKey 3 (n / 64)) s = .mine) ∧
    (∃ (s : State) (p : Port) (sl : Fin 4) (n : Nat), (s.req p sl).target = n ∧ (∀ o ∈ s.runner.outst, o.heldPop =
    some n → o.op = .read ∧ ∃ off, decodeAddr o.hdr.addr.toNat = .riser n off) ∧ Granted riserResetSpec s p sl ∧
    (s.queue n).enabled = true) :=
  ⟨⟨asked riserSpillSpec .mb0 4 0xFFFF [] up, .mb0, 0, by unfold Granted Asks; decide +kernel⟩,
  ⟨asked riserSpillSpec .mb0 0 0xFFFF [0, 0, 0, 0, 0, 0, 0, 0, 0, 0, 64] up, .mb0, 0, _, _, rfl, rfl,
  by unfold Granted Asks; decide +kernel⟩,
  ⟨asked riserConfigSpec .mb0 0 4095 [1, 0, 0, 0, 16, 0, 0, 1, 71] ({ up with riser := { spillPages := 262144 } }),
  .mb0, 0, _, _, _, _, rfl, rfl, rfl, rfl, by unfold Granted Asks; decide +kernel⟩,
  ⟨asked riserConfigSpec .mb0 0 4095 [] up, .mb0, 0, _, rfl, by unfold Granted Asks; decide +kernel⟩,
  ⟨asked riserStatusSpec .mb0 0 4095 [] up, .mb0, 0, by unfold Granted Asks; decide +kernel⟩,
  ⟨asked riserStatusSpec .mb0 0 4095 [1] (owned (768 + 63) .mb0 up), .mb0, 0, _, rfl,
  by unfold Granted Asks; decide +kernel⟩,
  ⟨asked riserResetSpec .mb0 0 4095 [] (withQueue 4095 { enabled := true } up), .mb0, 0, _, rfl,
  (by intro o h; cases h), by unfold Granted Asks; decide +kernel⟩⟩

/-- The hypotheses of ProtectionComplete can be met. -/
theorem test_hyps_ProtectionComplete :
    (∃ (s : State) (p : Port) (sl : Fin 4) (q : Req), s.req p sl = q ∧ Granted protRangeSpec s p sl ∧ q.queryFlag =
    true) ∧
    (∃ (s : State) (p : Port) (sl : Fin 4) (q : Req) (r : Range) (base : _) (gib : _), s.req p sl = q ∧ s.range
    q.target = r ∧ q.arg 16 8 = base ∧ q.argByte 24 = gib ∧ Granted protRangeSpec s p sl ∧ q.queryFlag = false ∧
    q.argByte 8 = 1 ∧ createOk base gib = true ∧ q.target ≠ 0 ∧ r.defined = false ∧ spanProtected s base (gib *
    gibBytes) = false ∧ overSpill s base (gib * gibBytes) = false ∧ s.hbm.rekey = none ∧ r.filling = none) ∧
    (∃ (s : State) (p : Port) (sl : Fin 4) (q : Req) (r : Range), s.req p sl = q ∧ s.range q.target = r ∧ Granted
    protRangeSpec s p sl ∧ q.queryFlag = false ∧ q.argByte 8 = 2 ∧ q.target ≠ 0 ∧ r.defined = true) ∧
    (∃ (s : State) (p : Port) (sl : Fin 4) (q : Req) (r : Range), s.req p sl = q ∧ s.range q.target = r ∧ Granted
    protRangeSpec s p sl ∧ q.queryFlag = false ∧ q.argByte 8 = 0 ∧ q.target ≠ 0 ∧ r.defined = true ∧ s.hbm.rekey =
    none ∧ r.filling = none) ∧
    (∃ (s : State) (p : Port) (sl : Fin 4) (q : Req), s.req p sl = q ∧ Granted protStatusSpec s p sl ∧ q.argByte 8 <
    64) ∧
    (∃ (s : State) (p : Port) (sl : Fin 4) (q : Req), s.req p sl = q ∧ Granted protRekeySpec s p sl ∧ q.argByte 8 = 0
    ∧ s.hbm.rekey = none) ∧
    (∃ (s : State) (p : Port) (sl : Fin 4) (q : Req), s.req p sl = q ∧ Granted protRekeySpec s p sl ∧ q.argByte 8 = 1
    ∧ s.hbm.rekey = none) ∧
    (∃ (s : State) (p : Port) (sl : Fin 4) (q : Req) (r : Range) (level : _) (index : _), s.req p sl = q ∧ s.range
    q.target = r ∧ q.argByte 8 = level ∧ (if level = 255 then 0 else q.arg 12 4) = index ∧ Granted protReinitSpec s p
    sl ∧ r.defined = true ∧ subtreeOk r level index = true ∧ underPoison s q.target level index = false) ∧
    (∃ (s : State) (k : Fin 8) (ri : Nat) (r : Range) (w : _), ri = k.val ∧ s.range ri = r ∧ r.filling = some (false,
    w) ∧ s.awake = true) ∧
    (∃ (s : State) (k : Fin 8) (ri : Nat) (r : Range) (w : _), ri = k.val ∧ s.range ri = r ∧ r.filling = some (true,
    w) ∧ s.awake = true ∧ rangeInUse s ri = false) ∧
    (∃ (s : State), s.awake = true ∧ s.hbm.rekeyDays ≠ 0 ∧ s.hbm.rekey = none) ∧
    (∃ (s : State) (x : _), s.hbm.rekey = some x ∧ s.awake = true) ∧
    (∃ (s : State) (k : Fin 8) (ri : Nat) (r : Range) (index : _) (w : _) (rest : _), ri = k.val ∧ s.range ri = r ∧
    r.reinit = (255, index, w) :: rest ∧ s.awake = true) :=
  ⟨⟨asked protRangeSpec .mb0 4 7 [] up, .mb0, 0, _, rfl, by unfold Granted Asks; decide +kernel⟩,
  ⟨asked protRangeSpec .mb0 0 7 [1, 0, 0, 0, 0, 0, 0, 0, 0, 0, 0, 0, 0, 0, 0, 0, 72] up, .mb0, 0, _, _, _, _, rfl,
  rfl, rfl, rfl, by unfold Granted Asks; decide +kernel⟩,
  ⟨asked protRangeSpec .mb0 0 7 [2] ({ up with hbm := { ranges := [(7, { defined := true, gib := 1 })] } }), .mb0, 0,
  _, _, rfl, rfl, by unfold Granted Asks; decide +kernel⟩,
  ⟨asked protRangeSpec .mb0 0 7 [] ({ up with hbm := { ranges := [(7, { defined := true, gib := 1 })] } }), .mb0, 0,
  _, _, rfl, rfl, by unfold Granted Asks; decide +kernel⟩,
  ⟨asked protStatusSpec .mb0 0 0xFFFF [63] up, .mb0, 0, _, rfl, by unfold Granted Asks; decide +kernel⟩,
  ⟨asked protRekeySpec .mb0 0 0xFFFF [] up, .mb0, 0, _, rfl, by unfold Granted Asks; decide +kernel⟩,
  ⟨asked protRekeySpec .mb0 0 0xFFFF [1] up, .mb0, 0, _, rfl, by unfold Granted Asks; decide +kernel⟩,
  ⟨asked protReinitSpec .mb0 0 7 [255] ({ up with hbm := { ranges := [(7, { defined := true, gib := 1 })] } }), .mb0,
  0, _, _, _, _, rfl, rfl, rfl, rfl, by unfold Granted Asks; decide +kernel⟩,
  ⟨{ up with hbm := { ranges := [(7, { defined := true, gib := 1, filling := some (false, (.mb0, 0, 1)) })] } }, 7, _,
  _, _, rfl, rfl, rfl, by decide +kernel⟩,
  ⟨{ up with hbm := { ranges := [(7, { defined := true, gib := 1, filling := some (true, (.mb0, 0, 1)) })] } }, 7, _,
  _, _, rfl, rfl, rfl, by decide +kernel⟩,
  ⟨{ up with hbm := { rekeyDays := 1 } }, by decide +kernel⟩,
  ⟨{ up with hbm := { rekey := some {} } }, _, rfl, by decide +kernel⟩,
  ⟨{ up with hbm := { ranges := [(7, { defined := true, gib := 1, reinit := [(255, 0, (.mb0, 0, 1))] })] } }, 7, _, _,
  _, _, _, rfl, rfl, rfl, by decide +kernel⟩⟩

/-- The hypotheses of FettlerEventsComplete can be met. -/
theorem test_hyps_FettlerEventsComplete :
    (∃ (s : State) (r : Fin 64) (i : _), (s.sweep r.val 3).pos = i ∧ sweeping s r.val 3 = true ∧ i < 131072 ∧
    decodeSyn 16 (tget 0 s.ingot.syn (ingotKey r.val (32 * i) / 32)).toNat = .clean ∧ tget [] s.ingot.waiting r.val =
    []) ∧
    (∃ (s : State) (r : Fin 64) (i : _), sweeping s r.val 1 = true ∧ wordAt s r.val 1 (s.sweep r.val 1).pos = some i ∧
    portTaken s (256 * r.val + i / 512) = true) ∧
    (∃ (s : State) (pc : Fin 64) (i : _), fettling s = true ∧ s.dev.hbmReady = true ∧ (s.sweep 64 0).pos = i ∧ pcOf
    (64 * i) = pc.val ∧ 64 * (i + 1) < hbmBytes ∧ s.hbm.eccAt (64 * i) = .corrected) ∧
    (∃ (s : State), fettling s = true) ∧
    (∃ (s : State), s.firmware = true ∧ fettling s = true) ∧
    (∃ (s : State) (target : SweepTarget) (pl : Place) (kinds : List Nat), (∃ r : Fin 64, (target = .frames r ∧ pl =
    .region r.val ∧ kinds = [1]) ∨ (target = .brams r ∧ pl = .region r.val ∧ kinds = [2]) ∨ (target = .dsp r ∧ pl =
    .region r.val ∧ kinds = [3, 4]) ∨ (target = .ingot r ∧ pl = .region r.val ∧ kinds = [5]) ∨ (target = .hbm r ∧ pl =
    .pc r.val ∧ kinds = [6])) ∧ s.awake = true) ∧
    (∃ (s : State) (r : Fin 64) (e : Nat × PassJob), s.integ.passes.find? (fun e => e.1 == r.val) = some e ∧ fettling
    s = true ∧ passPaused (s.region r.val) e.2.targets = false) ∧
    (∃ (s : State) (page : _) (w : _), s.hbm.repair = some (page, w) ∧ s.awake = true ∧ (∀ o ∈ s.runner.outst,
    o.heldPage = none)) :=
  ⟨⟨{ reg 63 { power := .active } with integ := { sweeps := [(255, { pos := 131071 })] } }, 63, _, rfl,
  by decide +kernel⟩,
  ⟨modBram 16128 (fun b => { b with maint := [{ req := 0, ops := [(0, 0, none)] }] }) (clocked 63
  { brams := [(0, { widthA := 64, widthB := 64 })] }), 63, 0, by decide +kernel⟩,
  ⟨{ up with hbm := { ecc := [(0, .corrected)] } }, 0, 0, by decide +kernel⟩,
  ⟨up, by decide +kernel⟩,
  ⟨up, by decide +kernel⟩,
  ⟨up, .hbm 63, .pc 63, [6], ⟨63, by decide +kernel⟩, by decide +kernel⟩,
  ⟨{ reg 63 { power := .active } with integ := { passes := [(63, { targets := 31 })] } }, 63, (63, { targets := 31 }),
  by decide +kernel⟩,
  ⟨{ up with hbm := { repair := some (5, (.mb0, 0, 1)) } }, 5, (.mb0, 0, 1), by decide +kernel⟩⟩

/-- The hypotheses of IntegrityCommandsComplete can be met. -/
theorem test_hyps_IntegrityCommandsComplete :
    (∃ (s : State) (p : Port) (sl : Fin 4) (q : Req), s.req p sl = q ∧ Granted fettlerConfigSpec s p sl ∧ q.queryFlag
    = true) ∧
    (∃ (s : State) (p : Port) (sl : Fin 4) (q : Req), s.req p sl = q ∧ Granted fettlerConfigSpec s p sl ∧ q.queryFlag
    = false ∧ (∀ i < 5, periodOk i (q.arg (8 + 4 * i) 4) = true)) ∧
    (∃ (s : State) (p : Port) (sl : Fin 4) (q : Req) (targets : _), s.req p sl = q ∧ q.argByte 8 = targets ∧ Granted
    fettlerPassSpec s p sl ∧ targets < 32 ∧ (∀ e ∈ s.integ.passes, e.1 ≠ q.target) ∧ asleep s q.target = false) ∧
    (∃ (s : State) (p : Port) (sl : Fin 4) (q : Req), s.req p sl = q ∧ Granted integrityCountersSpec s p sl ∧
    q.argByte 8 = 0) ∧
    (∃ (s : State) (p : Port) (sl : Fin 4) (q : Req), s.req p sl = q ∧ Granted integrityCountersSpec s p sl ∧
    q.argByte 8 = 1 ∧ q.target < 64 ∧ ownView q (ownKey 0 q.target) s = .mine) ∧
    (∃ (s : State) (p : Port) (sl : Fin 4) (q : Req) (i : _), s.req p sl = q ∧ q.arg 10 2 = i ∧ Granted
    hardFaultLogSpec s p sl ∧ q.argByte 8 = 0 ∧ i < 256) ∧
    (∃ (s : State) (p : Port) (sl : Fin 4) (q : Req) (i : _), s.req p sl = q ∧ q.arg 10 2 = i ∧ Granted
    hardFaultLogSpec s p sl ∧ q.argByte 8 = 1 ∧ i < 256) ∧
    (∃ (s : State) (p : Port) (sl : Fin 4) (q : Req) (m : _), s.req p sl = q ∧ q.arg 10 2 = m ∧ Granted
    faultRetireSpec s p sl ∧ q.argByte 8 = 1 ∧ q.target < 64 ∧ m < 256 ∧ (s.bram (256 * q.target + m)).retired = false
    ∧ asleep s q.target = false ∧ q.force = true ∧ s.listed q.target (memEntry 3 m) = false ∧ (s.defectMap
    q.target).length < 1024) ∧
    (∃ (s : State) (p : Port) (sl : Fin 4) (q : Req) (kind : _) (plane : _) (loc : _) (ps : _), s.req p sl = q ∧
    q.argByte 8 = kind ∧ q.argByte 9 = plane ∧ q.arg 12 4 = loc ∧ ps = (List.range (q.argByte 16)).map (fun i => q.arg
    (18 + 2 * i) 2) ∧ Granted splitWriteSpec s p sl ∧ 1 ≤ kind ∧ kind ≤ 5 ∧ plane < 4 ∧ locationOk kind q.target loc =
    true ∧ 1 ≤ q.argByte 16 ∧ q.argByte 16 ≤ 16 ∧ ps.all (positionOk (codeSide kind)) = true ∧ (kind = 1 → ((s.region
    q.target).plane plane).st ≠ .active) ∧ (kind = 2 → (s.bramCfg (256 * q.target + loc / 256 % 256)).raw = false) ∧
    asleep s q.target = false) ∧
    (∃ (s : State) (p : Port) (sl : Fin 4) (q : Req), s.req p sl = q ∧ Granted crcBindSpec s p sl ∧ q.queryFlag =
    true) ∧
    (∃ (s : State) (p : Port) (sl : Fin 4) (q : Req) (slot : _) (c : _), s.req p sl = q ∧ q.argByte 8 = slot ∧
    q.argByte 9 = c ∧ Granted crcBindSpec s p sl ∧ q.queryFlag = false ∧ slot < 4 ∧ c < 16 ∧ (s.crcChan c).bound =
    none) :=
  ⟨⟨asked fettlerConfigSpec .mb0 4 0xFFFF [] up, .mb0, 0, _, rfl, by unfold Granted Asks; decide +kernel⟩,
  ⟨asked fettlerConfigSpec .mb0 0 0xFFFF [] up, .mb0, 0, _, rfl, by unfold Granted Asks; decide +kernel⟩,
  ⟨asked fettlerPassSpec .mb0 0 63 [31] (reg 63 { power := .active }), .mb0, 0, _, _, rfl, rfl,
  by unfold Granted Asks; decide +kernel⟩,
  ⟨asked integrityCountersSpec .mb0 0 63 [] up, .mb0, 0, _, rfl, by unfold Granted Asks; decide +kernel⟩,
  ⟨asked integrityCountersSpec .mb0 0 63 [1] (owned 63 .mb0 up), .mb0, 0, _, rfl,
  by unfold Granted Asks; decide +kernel⟩,
  ⟨asked hardFaultLogSpec .mb0 0 0xFFFF [0, 0, 255] up, .mb0, 0, _, _, rfl, rfl,
  by unfold Granted Asks; decide +kernel⟩,
  ⟨asked hardFaultLogSpec .mb0 0 0xFFFF [1, 0, 255] up, .mb0, 0, _, _, rfl, rfl,
  by unfold Granted Asks; decide +kernel⟩,
  ⟨asked faultRetireSpec .mb0 2 63 [1, 0, 255] (reg 63 { power := .active }), .mb0, 0, _, _, rfl, rfl,
  by unfold Granted Asks; decide +kernel⟩,
  ⟨asked splitWriteSpec .mb0 0 63 [5, 3, 0, 0, 32, 0, 0, 0, 1] (reg 63 { power := .active }), .mb0, 0, _, _, _, _, _,
  rfl, rfl, rfl, rfl, rfl, by unfold Granted Asks; decide +kernel⟩,
  ⟨asked crcBindSpec .mb0 4 63 [] up, .mb0, 0, _, rfl, by unfold Granted Asks; decide +kernel⟩,
  ⟨asked crcBindSpec .mb0 0 63 [3, 15] up, .mb0, 0, _, _, _, rfl, rfl, rfl, by unfold Granted Asks; decide +kernel⟩⟩

/-- The hypotheses of CrcOperationsComplete can be met. -/
theorem test_hyps_CrcOperationsComplete :
    (∃ (s : State) (r : Fin 64) (size : Fin 4) (value : BitVec 32), crcTaken s r.val 0 0 (some size.val) value = true) ∧
    (∃ (s : State) (r : Fin 64) (value : BitVec 32), crcTaken s r.val 1 0 none value = true) ∧
    (∃ (s : State) (r : Fin 64) (value : BitVec 32), crcTaken s r.val 2 0 none value = true) ∧
    (∃ (s : State) (r : Fin 64) (size : Fin 4) (value : BitVec 32) (unit : Fin 8) (c : _), 1 ≤ unit.val ∧ unit.val ≤ 4
    ∧ boundChannel s r.val (unit.val - 1) = some c ∧ crcTaken s r.val 0 unit.val (some size.val) value = true) ∧
    (∃ (s : State) (r : Fin 64) (value : BitVec 32) (unit : Fin 8) (c : _), 1 ≤ unit.val ∧ unit.val ≤ 4 ∧ boundChannel
    s r.val (unit.val - 1) = some c ∧ crcTaken s r.val 1 unit.val none value = true) ∧
    (∃ (s : State) (r : Fin 64) (value : BitVec 32) (unit : Fin 8) (c : _), 1 ≤ unit.val ∧ unit.val ≤ 4 ∧ boundChannel
    s r.val (unit.val - 1) = some c ∧ crcTaken s r.val 2 unit.val none value = true) ∧
    (∃ (s : State) (h : ReqHdr) (w : _) (u : _) (data : _) (be : _) (off : _) (c : _), withLines h .write [w] s = (u,
    [(data, be)]) ∧ mayTakeReq s h .write [w] = true ∧ rightTo s h.src true h.addr.toNat = .granted ∧ decodeAddr
    (lineAddr h 0) = .regs off ∧ (s.crcChan c).bound = none ∧ regLine off = .crcData c ∧ be ≠ 0) ∧
    (∃ (s : State) (h : ReqHdr) (w : _) (u : _) (data : _) (be : _) (off : _) (c : _), withLines h .write [w] s = (u,
    [(data, be)]) ∧ mayTakeReq s h .write [w] = true ∧ rightTo s h.src true h.addr.toNat = .granted ∧ decodeAddr
    (lineAddr h 0) = .regs off ∧ (s.crcChan c).bound = none ∧ regLine off = .crcCtrl c ∧ w.2 = be ∧ be.getLsbD 0 =
    true ∧ be.extractLsb' 8 4 = 0) ∧
    (∃ (s : State) (h : ReqHdr) (w : _) (u : _) (data : _) (be : _) (off : _) (c : _), withLines h .write [w] s = (u,
    [(data, be)]) ∧ mayTakeReq s h .write [w] = true ∧ rightTo s h.src true h.addr.toNat = .granted ∧ decodeAddr
    (lineAddr h 0) = .regs off ∧ (s.crcChan c).bound = none ∧ regLine off = .crcCtrl c ∧ w.2 = be ∧ be.extractLsb' 8 4
    = 0xF#4) :=
  ⟨⟨clocked 63 (raising .crc [0] { crcPort := true }), 63, 0, 0, by decide +kernel⟩,
  ⟨clocked 63 (raising .crc [0, 1] { crcPort := true }), 63, 0, by decide +kernel⟩,
  ⟨clocked 63 (raising .crc [0, 2] { crcPort := true }), 63, 0, by decide +kernel⟩,
  ⟨{ clocked 63 (raising .crc [0, 7] { crcPort := true }) with integ := { crcPool := [(15, { bound := some (63, 3) })] } },
  63, 0, 0, 4, 15, by decide +kernel⟩,
  ⟨{ clocked 63 (raising .crc [0, 1, 7] { crcPort := true }) with integ := { crcPool := [(15, { bound := some (63, 3) })] } },
  63, 0, 4, 15, by decide +kernel⟩,
  ⟨{ clocked 63 (raising .crc [0, 2, 7] { crcPort := true }) with integ := { crcPool := [(15, { bound := some (63, 3) })] } },
  63, 0, 4, 15, by decide +kernel⟩,
  ⟨up, from_ 0x3000020f00, (5, 1), _, 5, 1, 0x20f00, 15, rfl, by decide +kernel⟩,
  ⟨up, from_ 0x3000020f40, (5, 1), _, 5, 1, 0x20f40, 15, rfl, by decide +kernel⟩,
  ⟨up, from_ 0x3000020f40, (5, 0xF00), _, 5, 0xF00, 0x20f40, 15, rfl, by decide +kernel⟩⟩

/-- The hypotheses of CupolaEventsComplete can be met. -/
theorem test_hyps_CupolaEventsComplete :
    (∃ (s : State), s.awake = true ∧ s.cudex.cup ≠ .stopped) ∧
    (∃ (s : State), s.firmware = true ∧ wdAgain s = false) ∧
    (∃ (s : State), s.firmware = true ∧ wdAgain s = true) ∧
    (∃ (s : State), s.awake = true ∧ s.cudex.cup = .restarting) ∧
    (∃ (s : State) (kind : Fin 6) (index : Fin 96) (o : _), s.owner (ownKey kind.val index.val) = some o ∧ s.firmware
    = true) ∧
    (∃ (s : State) (code : BitVec 16) (kind : BitVec 8) (source : BitVec 16) (w : _), s.cudex.windows.find? (fun w =>
    w.ev.code == code.toNat && w.ev.kind == kind.toNat && w.ev.src == source.toNat) = some w ∧ s.dev.base ≠ .off) ∧
    (∃ (s : State), s.firmware = true ∧ s.dev.debug = true) ∧
    (∃ (s : State), s.awake = true ∧ s.cudex.dbg.nonce.isSome = true) ∧
    (∃ (s : State), s.awake = true ∧ s.cudex.dbg.lockout = true) :=
  ⟨⟨up, by decide +kernel⟩,
  ⟨up, by decide +kernel⟩,
  ⟨{ up with cudex := { up.cudex with wdAt := some 0 } }, by decide +kernel⟩,
  ⟨{ up with cudex := { cup := .restarting } }, by decide +kernel⟩,
  ⟨owned (768 + 63) .mb0 up, 3, 63, _, rfl, by decide +kernel⟩,
  ⟨{ up with cudex := { up.cudex with windows := [{ ev := { code := 0x060C, kind := 1, src := 63 } }] } }, 0x060C, 1,
  63, _, rfl, by decide +kernel⟩,
  ⟨inMode (fun d => { d with mode := .debug, debug := true }), by decide +kernel⟩,
  ⟨{ up with cudex := { up.cudex with dbg := { nonce := some 1 } } }, by decide +kernel⟩,
  ⟨{ up with cudex := { up.cudex with dbg := { lockout := true } } }, by decide +kernel⟩⟩

/-- The hypotheses of MailboxEventsComplete can be met. -/
theorem test_hyps_MailboxEventsComplete :
    (∃ (s : State) (p : _) (sl : _), portLive p s = true ∧ (s.slot p sl).st = .free) ∧
    (∃ (s : State) (p : _) (sl : _), portLive p s = true ∧ (s.slot p sl).st ≠ .free) ∧
    (∃ (s : State) (p : _), portLive p s = true) ∧
    (∃ (s : State) (r : Fin 64) (sl : Fin 4) (n : Fin 4) (line : Line) (wring : Bool), mb2Reaches s r.val = true ∧
    presentsLine s r.val sl.val n.val line wring = true) ∧
    (∃ (s : State) (r : Fin 64), mb2Reaches s r.val = true ∧ mailboxReady s r.val false = true ∧ doneSlots s ≠ [] ∧
    (s.port .mb2).delivered = 0) ∧
    (∃ (s : State) (r : Fin 64) (i : Fin 4), mb2Reaches s r.val = true ∧ mailboxReady s r.val false = true ∧ (s.port
    .mb2).deliverSlot = i.val ∧ (s.slot .mb2 i).st = .done ∧ (s.port .mb2).delivered = 3) ∧
    (∃ (s : State) (r : Fin 64) (i : Fin 4) (n : _), mb2Reaches s r.val = true ∧ mailboxReady s r.val false = true ∧
    (s.port .mb2).deliverSlot = i.val ∧ (s.slot .mb2 i).st = .done ∧ (s.port .mb2).delivered = n ∧ 1 ≤ n ∧ n < 3) ∧
    (∃ (s : State) (r : Fin 64) (e : _) (rest : _), mb2Reaches s r.val = true ∧ mailboxReady s r.val true = true ∧
    (s.port .mb2).path = e :: rest ∧ (s.port .mb2).lost = 0) ∧
    (∃ (s : State) (h : ReqHdr) (off : _) (e : _) (rest : _), mayTakeReq s h .read [] = true ∧ h.len = 0 ∧ rightTo s
    h.src false h.addr.toNat = .granted ∧ decodeAddr (lineAddr h 0) = .regs off ∧ regLine off = .pop ∧ (s.port
    .mb0).path = e :: rest ∧ (s.port .mb0).lost = 0) :=
  ⟨⟨up, .mb0, 3, by decide +kernel⟩,
  ⟨modSlot .mb0 3 (fun x => { x with st := .posted }) up, .mb0, 3, by decide +kernel⟩,
  ⟨up, .mb3, by decide +kernel⟩,
  ⟨{ clocked 63 (raising .mailbox [0, 1, 2] { mailboxPort := true }) with cudex := { up.cudex with mb2Region := some 63 } },
  63, 3, 0, 0, false, by decide +kernel⟩,
  ⟨modSlot .mb2 3 (fun x => { x with st := .done }) (withPort .mb2 { deliverSlot := 3, delivered := 0 }
  { clocked 63 (raising .mailbox [518] { mailboxPort := true }) with cudex := { up.cudex with mb2Region := some 63 } }),
  63, by decide +kernel⟩,
  ⟨modSlot .mb2 3 (fun x => { x with st := .done }) (withPort .mb2 { deliverSlot := 3, delivered := 3 }
  { clocked 63 (raising .mailbox [518] { mailboxPort := true }) with cudex := { up.cudex with mb2Region := some 63 } }),
  63, 3, by decide +kernel⟩,
  ⟨modSlot .mb2 3 (fun x => { x with st := .done }) (withPort .mb2 { deliverSlot := 3, delivered := 2 }
  { clocked 63 (raising .mailbox [518] { mailboxPort := true }) with cudex := { up.cudex with mb2Region := some 63 } }),
  63, 3, 2, by decide +kernel⟩,
  ⟨withPort .mb2 { path := [5] }
  { clocked 63 (raising .mailbox [519] { mailboxPort := true }) with cudex := { up.cudex with mb2Region := some 63 } },
  63, 5, [], by decide +kernel⟩,
  ⟨withPort .mb0 { path := [5] } up, from_ 0x3000010DC0, 0x10DC0, 5, [], by decide +kernel⟩⟩

/-- The hypotheses of InterfaceCommandsComplete can be met. -/
theorem test_hyps_InterfaceCommandsComplete :
    (∃ (s : State) (p : Port) (sl : Fin 4) (q : Req) (b : _), s.req p sl = q ∧ q.argByte 8 = b ∧ Granted mb2BindSpec s
    p sl ∧ (b < 64 ∨ b = 0xFF)) ∧
    (∃ (s : State) (p : Port) (sl : Fin 4) (q : Req), s.req p sl = q ∧ Granted resClaimSpec s p sl ∧ q.queryFlag =
    true) ∧
    (∃ (s : State) (p : Port) (sl : Fin 4) (q : Req) (k : _), s.req p sl = q ∧ ownKey (q.argByte 8) q.target = k ∧
    Granted resClaimSpec s p sl ∧ q.queryFlag = false ∧ q.argByte 9 = 0 ∧ s.owner k = none ∧ leaseOk (q.arg 12 4) =
    true) ∧
    (∃ (s : State) (p : Port) (sl : Fin 4) (q : Req) (k : _) (o : _), s.req p sl = q ∧ ownKey (q.argByte 8) q.target =
    k ∧ s.owner k = some o ∧ Granted resClaimSpec s p sl ∧ q.queryFlag = false ∧ q.argByte 9 = 0 ∧ ownView q k s =
    .other ∧ q.force = true ∧ portRank p < portRank o.port ∧ leaseOk (q.arg 12 4) = true) ∧
    (∃ (s : State) (p : Port) (sl : Fin 4) (q : Req) (k : _), s.req p sl = q ∧ ownKey (q.argByte 8) q.target = k ∧
    Granted resClaimSpec s p sl ∧ q.queryFlag = false ∧ q.argByte 9 = 1 ∧ ownView q k s = .mine) ∧
    (∃ (s : State) (p : Port) (sl : Fin 4) (q : Req), s.req p sl = q ∧ Granted eventConfigSpec s p sl ∧ q.target =
    0xFFFF ∧ q.argByte 10 ≤ 2) ∧
    (∃ (s : State) (p : Port) (sl : Fin 4) (q : Req), s.req p sl = q ∧ Granted eventConfigSpec s p sl ∧ q.target < 4 ∧
    q.argByte 10 ≤ 4) ∧
    (∃ (s : State) (p : Port) (sl : Fin 4), Granted eventLogReadSpec s p sl) ∧
    (∃ (s : State) (p : Port) (sl : Fin 4), Granted cupolaRestartSpec s p sl) ∧
    (∃ (s : State) (p : Port) (sl : Fin 4) (q : Req), s.req p sl = q ∧ canTake s p sl = true ∧ allocated q.opcode =
    false) :=
  ⟨⟨asked mb2BindSpec .mb0 0 0xFFFF [63] up, .mb0, 0, _, _, rfl, rfl, by unfold Granted Asks; decide +kernel⟩,
  ⟨asked resClaimSpec .mb0 4 63 [] up, .mb0, 0, _, rfl, by unfold Granted Asks; decide +kernel⟩,
  ⟨asked resClaimSpec .mb0 0 63 [0, 0, 0, 0, 128, 81, 1] up, .mb0, 0, _, _, rfl, rfl,
  by unfold Granted Asks; decide +kernel⟩,
  ⟨asked resClaimSpec .mb0 2 63 [0, 0, 0, 0, 1] (owned 63 .mb3 up), .mb0, 0, _, _, _, rfl, rfl, rfl,
  by unfold Granted Asks; decide +kernel⟩,
  ⟨asked resClaimSpec .mb0 0 63 [0, 1] (owned 63 .mb0 up), .mb0, 0, _, _, rfl, rfl,
  by unfold Granted Asks; decide +kernel⟩,
  ⟨asked eventConfigSpec .mb0 0 0xFFFF [0, 0, 2] up, .mb0, 0, _, rfl, by unfold Granted Asks; decide +kernel⟩,
  ⟨asked eventConfigSpec .mb0 0 3 [0, 0, 4] up, .mb0, 0, _, rfl, by unfold Granted Asks; decide +kernel⟩,
  ⟨asked eventLogReadSpec .mb0 0 0xFFFF [] up, .mb0, 0, by unfold Granted Asks; decide +kernel⟩,
  ⟨asked cupolaRestartSpec .mb0 0 0xFFFF [] up, .mb0, 0, by unfold Granted Asks; decide +kernel⟩,
  ⟨modSlot .mb0 0 (fun x => { x with st := .posted, req := reqBits 0x7777 0 0 [] }) up, .mb0, 0, _, rfl,
  by decide +kernel⟩⟩

/-- The hypotheses of FlashAndDebugComplete can be met. -/
theorem test_hyps_FlashAndDebugComplete :
    (∃ (s : State) (p : Port) (sl : Fin 4) (q : Req) (addr : _) (len : _), s.req p sl = q ∧ q.arg 12 4 = addr ∧ q.arg
    16 4 = len ∧ Granted flashAccessSpec s p sl ∧ devTarget q = true ∧ p ≠ .mb3 ∧ q.argByte 8 = 1 ∧ q.argByte 9 ≤ 1 ∧
    addr % 4096 = 0 ∧ len % 4096 = 0 ∧ mayWriteFlash s addr len = true ∧ s.lib.jobs = [] ∧ len ≤ s.lib.flashRoom addr) ∧
    (∃ (s : State) (p : Port) (sl : Fin 4) (q : Req) (addr : _) (len : _), s.req p sl = q ∧ q.arg 12 4 = addr ∧ q.arg
    16 4 = len ∧ Granted flashAccessSpec s p sl ∧ devTarget q = true ∧ p ≠ .mb3 ∧ q.argByte 8 = 0 ∧ q.argByte 9 = 0 ∧
    len ≤ 224 ∧ s.lib.jobs = [] ∧ len ≤ s.lib.flashRoom addr) ∧
    (∃ (s : State) (o : _) (w : _), s.awake = true ∧ s.lib.jobs = [{ ops := [o], waiter := some w }]) ∧
    (∃ (s : State) (p : Port) (sl : Fin 4) (q : Req), s.req p sl = q ∧ Granted debugUnlockSpec s p sl ∧ q.argByte 8 =
    0 ∧ (s.dev.mode = .run ∨ s.dev.mode = .degraded) ∧ s.cudex.dbg.lockout = false) ∧
    (∃ (s : State) (p : Port) (sl : Fin 4) (q : Req) (nonce : _), s.req p sl = q ∧ s.cudex.dbg.nonce = some nonce ∧
    Granted debugUnlockSpec s p sl ∧ q.argByte 8 = 1 ∧ 1 ≤ q.argByte 9 ∧ q.argByte 9 ≤ 2 ∧ 60 ≤ q.arg 12 4 ∧ q.arg 12
    4 ≤ 86400 ∧ (s.dev.mode = .run ∨ s.dev.mode = .degraded)) ∧
    (∃ (s : State) (p : Port) (sl : Fin 4) (q : Req) (plane : _) (x : _) (y : _), s.req p sl = q ∧ q.argByte 8 = plane
    ∧ q.arg 10 2 = x ∧ q.arg 12 2 = y ∧ Granted debugStateReadSpec s p sl ∧ s.dev.debug = true ∧ plane < 4 ∧ x < 512 ∧
    y < 256 ∧ x / 64 + 8 * (y / 32) = q.target ∧ (((s.region q.target).plane plane).st = .active → s.dev.mode =
    .frozen) ∧ ((s.region q.target).plane plane).st ≠ .invalid ∧ asleep s q.target = false) :=
  ⟨⟨asked flashAccessSpec .mb0 0 0xFFFF [1, 1, 0, 0, 0, 0, 0, 0, 0, 16] (inMode (fun d =>
  { d with mode := .recovery, base := .recovery })), .mb0, 0, _, _, _, rfl, rfl, rfl,
  by unfold Granted Asks; decide +kernel⟩,
  ⟨asked flashAccessSpec .mb0 0 0xFFFF [0, 0, 0, 0, 0, 255, 255, 255, 224] up, .mb0, 0, _, _, _, rfl, rfl, rfl,
  by unfold Granted Asks; decide +kernel⟩,
  ⟨{ up with lib := { jobs := [{ ops := [.erase 0 4096], waiter := some (.mb0, 0, 1) }] } }, .erase 0 4096, (.mb0, 0,
  1), by decide +kernel⟩,
  ⟨asked debugUnlockSpec .mb3 0 0xFFFF [] up, .mb3, 0, _, rfl, by unfold Granted Asks; decide +kernel⟩,
  ⟨asked debugUnlockSpec .mb3 0 0xFFFF [1, 2, 0, 0, 128, 81, 1]
  ({ up with cudex := { up.cudex with dbg := { nonce := some 1 } } }), .mb3, 0, _, _, rfl, rfl,
  by unfold Granted Asks; decide +kernel⟩,
  ⟨asked debugStateReadSpec .mb3 0 63 [3, 0, 255, 1, 255] (modRegion 63 (fun x =>
  { x with power := .active, iso := [], plane3 := { st := .valid } }) (inMode (fun d =>
  { d with debug := true, mode := .debug }))), .mb3, 0, _, _, _, _, rfl, rfl, rfl, rfl,
  by unfold Granted Asks; decide +kernel⟩⟩

/-- The hypotheses of HostAndGpioComplete can be met. -/
theorem test_hyps_HostAndGpioComplete :
    (∃ (s : State) (p : Port) (sl : Fin 4) (c : Nat) (v : Nat), (s.req p sl).target = c ∧ (s.req p sl).argByte 8 = v ∧
    Granted gpioBankSpec s p sl ∧ (s.req p sl).queryFlag = false ∧ (v = 12 ∨ v = 15 ∨ v = 18) ∧ (∀ n, n < 48 →
    (s.gpioOf (48 * c + n)).oeReg = false ∧ ((s.gpioOf (48 * c + n)).std = 0 ∨ v ∈ stdVolts (s.gpioOf (48 * c +
    n)).std))) ∧
    (∃ (s : State) (p : Port) (sl : Fin 4) (q : Req) (n : _), s.req p sl = q ∧ q.target = n ∧ Granted gpioIoSpec s p
    sl ∧ q.queryFlag = false ∧ gpioArgsOk q s = true ∧ ((s.gpioOf n).delayOut = (q.argByte 9).testBit 1 ∨ (s.gpioOf
    n).oeReg = false)) ∧
    (∃ (s : State) (n : Fin 384), s.awake = true ∧ (s.gpioOf n.val).tapNow ≠ (s.gpioOf n.val).taps) ∧
    (∃ (s : State) (p : Port) (sl : Fin 4), Granted hostStatusSpec s p sl ∧ ((s.req p sl).argByte 8).testBit 0 = true
    ∧ (p = .mb0 ∨ p = .mb1)) ∧
    (∃ (s : State) (p : Port) (sl : Fin 4), Granted hostStatusSpec s p sl ∧ ((s.req p sl).argByte 8).testBit 0 =
    false) ∧
    (∃ (s : State) (bar2 : _) (off : _) (rd : _) (bytes : _) (n : _), hostLinkUp s = true ∧ hostSized bar2 off rd
    bytes n = true ∧ hostRoom (barAddr bar2 off) (if rd then n else bytes.length) rd s = true) ∧
    (∃ (s : State), hostLinkUp s = true) ∧
    (∃ (s : State), s.io.pcie.heldReset = false) ∧
    (∃ (s : State), s.io.pcie.heldReset = true) ∧
    (∃ (s : State), s.awake = true ∧ s.dev.straps.hostSel = true ∧ s.io.pcie.heldReset = false ∧ s.io.pcie.up = false) ∧
    (∃ (s : State), hostLinkUp s = true) :=
  ⟨⟨asked gpioBankSpec .mb0 0 7 [18] up, .mb0, 0, _, _, rfl, rfl, by unfold Granted Asks; decide +kernel⟩,
  ⟨asked gpioIoSpec .mb0 0 383 [1] ({ up with io := { vccio := [0, 0, 0, 0, 0, 0, 0, 12] } }), .mb0, 0, _, _, rfl,
  rfl, by unfold Granted Asks; decide +kernel⟩,
  ⟨{ up with io := { gpio := [(383, { taps := 5 })] } }, 383, by decide +kernel⟩,
  ⟨asked hostStatusSpec .mb0 0 0xFFFF [1] up, .mb0, 0, by unfold Granted Asks; decide +kernel⟩,
  ⟨asked hostStatusSpec .mb0 0 0xFFFF [] up, .mb0, 0, by unfold Granted Asks; decide +kernel⟩,
  ⟨{ inMode (fun d => { d with straps := ⟨0, false, true, false⟩ }) with io := { pcie := { up := true } } }, true, 0,
  true, [], 4096, by decide +kernel⟩,
  ⟨{ inMode (fun d => { d with straps := ⟨0, false, true, false⟩ }) with io := { pcie := { up := true } } },
  by decide +kernel⟩,
  ⟨up, by decide +kernel⟩,
  ⟨{ up with io := { pcie := { heldReset := true } } }, by decide +kernel⟩,
  ⟨inMode (fun d => { d with straps := ⟨0, false, true, false⟩ }), by decide +kernel⟩,
  ⟨{ inMode (fun d => { d with straps := ⟨0, false, true, false⟩ }) with io := { pcie := { up := true } } },
  by decide +kernel⟩⟩

/-- The hypotheses of BoardPortsComplete can be met. -/
theorem test_hyps_BoardPortsComplete :
    (∃ (s : State) (p : Port) (sl : Fin 4) (q : Req) (a : _), s.req p sl = q ∧ q.argByte 8 = a ∧ Granted
    mgmtConfigSpec s p sl ∧ q.queryFlag = false ∧ 8 ≤ a ∧ a ≤ 0x77 ∧ q.argByte 9 ≤ 1) ∧
    (∃ (s : State) (lo : Byte) (hi : Byte) (k : Fin 4) (data : List Byte) (pec : Byte) (off : _), s.dev.base ≠ .off ∧
    (s.io.pec = true → mgmtPec (lo :: hi :: data) s = pec) ∧ lo.toNat + 256 * hi.toNat = 256 * k.val + off ∧ off +
    data.length ≤ 256 ∧ (s.slot .mb1 k).st = .free) ∧
    (∃ (s : State) (k : Fin 4), s.dev.base ≠ .off ∧ s.io.pec = false ∧ (s.slot .mb1 k).st = .free) ∧
    (∃ (s : State) (bytes : List Byte) (pec : Byte), s.dev.base ≠ .off ∧ s.io.pec = true ∧ mgmtPec bytes s ≠ pec) ∧
    (∃ (s : State) (off : BitVec 16) (n : Nat), s.dev.base ≠ .off ∧ (0xC00 < off.toNat ∨ off.toNat + n < 0xC20)) ∧
    (∃ (s : State) (off : BitVec 16) (n : Nat) (e : _) (rest : _), s.dev.base ≠ .off ∧ off.toNat ≤ 0xC00 ∧ 0xC20 ≤
    off.toNat + n ∧ (s.port .mb1).path = e :: rest ∧ (s.port .mb1).lost = 0) ∧
    (∃ (s : State), s.dev.base ≠ .off) ∧
    (∃ (s : State) (dr : BitVec 50) (off : _), s.dev.base ≠ .off ∧ (dr.extractLsb' 32 16).toNat = off ∧ off % 4 = 0 ∧
    dr.getLsbD 48 = false) ∧
    (∃ (s : State) (k : Fin 4) (dr : BitVec 50) (off : _), s.dev.base ≠ .off ∧ (dr.extractLsb' 32 16).toNat = 256 *
    k.val + off ∧ off + 4 ≤ 256 ∧ off % 4 = 0 ∧ dr.getLsbD 48 = true ∧ (s.slot .mb3 k).st = .free) ∧
    (∃ (s : State) (i : Instr) (ir : _) (b : List Bool), (i, ir) ∈ [(Instr.extest b, (0x00 : BitVec 8)), (.extestPulse
    b, 0x03), (.extestTrain b, 0x04)] ∧ s.dev.base ≠ .off) ∧
    (∃ (s : State), s.dev.base ≠ .off) ∧
    (∃ (s : State) (i : Instr), i ∈ [Instr.idcode, .trstAssert] ∧ s.dev.base ≠ .off) ∧
    (∃ (s : State), s.dev.base ≠ .off) :=
  ⟨⟨asked mgmtConfigSpec .mb0 0 0xFFFF [119, 1] up, .mb0, 0, _, _, rfl, rfl, by unfold Granted Asks; decide +kernel⟩,
  ⟨up, 0xFF, 3, 3, [7], 0, 255, by decide +kernel⟩,
  ⟨up, 3, by decide +kernel⟩,
  ⟨{ up with io := { pec := true } }, [], 1, by decide +kernel⟩,
  ⟨up, 0xC20, 1, by decide +kernel⟩,
  ⟨withPort .mb1 { path := [5] } up, 0xC00, 32, 5, [], by decide +kernel⟩,
  ⟨up, by decide +kernel⟩,
  ⟨up, 17179869184, 4, by decide +kernel⟩,
  ⟨up, 3, 285855843352576, 252, by decide +kernel⟩,
  ⟨up, .extestTrain [true], 4, [true], by simp, by decide +kernel⟩,
  ⟨up, by decide +kernel⟩,
  ⟨up, .trstAssert, by simp, by decide +kernel⟩,
  ⟨up, by decide +kernel⟩⟩

/-- The hypotheses of RegistersAndFabricComplete can be met. -/
theorem test_hyps_RegistersAndFabricComplete :
    (∃ (s : State) (h : ReqHdr), mayTakeReq s h .read [] = true ∧ inRegLines h (fun l => decide (l = .state)) = true ∧
    h.addr.toNat % 64 = 8 ∧ rightTo s h.src false h.addr.toNat = .granted ∧ h.len = 0) ∧
    (∃ (s : State) (h : ReqHdr) (w : _) (u : _) (data : _) (be : _) (off : _), withLines h .write [w] s = (u, [(data,
    be)]) ∧ mayTakeReq s h .write [w] = true ∧ rightTo s h.src true h.addr.toNat = .granted ∧ decodeAddr (lineAddr h
    0) = .regs off ∧ regLine off = .state) ∧
    (∃ (s : State) (r : Fin 64) (x : Region), s.region r.val = x ∧ fabricRuns s r.val = true ∧ x.deferred = none) :=
  ⟨⟨up, from_ 0x3000000008, by decide +kernel⟩,
  ⟨up, from_ 0x3000000000, (5, 1), _, 5, 1, 0, rfl, by decide +kernel⟩,
  ⟨clocked 63 {}, 63, _, rfl, by decide +kernel⟩⟩

/-- The hypotheses of EveryStepKeepsTheMode can be met. -/
theorem test_hyps_EveryStepKeepsTheMode :
    ∃ (s : State), ModeKept s :=
  ⟨up, by unfold ModeKept; decide +kernel⟩

/-- The hypotheses of RequestsAreCheckedInOrder can be met. -/
theorem test_hyps_RequestsAreCheckedInOrder :
    (∃ (i : Instr) (s : State) (p : Port) (sl : Fin 4) (c : CmdSpec) (q : Req) (refused : Nat → State → Prop),
    i.request = some (p, sl, c) ∧ Asks s p sl c.opcode ∧ takenReq s p sl = q ∧ (∀ st t, refused st t ↔ Answered s t p
    sl st [] ∧ (∀ x : Part, x.same s t) ∧ t.cudex.owners = s.cudex.owners) ∧ (8 ≤ q.flags ∨ 248 < q.argLen)) ∧
    (∃ (i : Instr) (s : State) (p : Port) (sl : Fin 4) (c : CmdSpec) (q : Req) (refused : Nat → State → Prop) (st :
    _), i.request = some (p, sl, c) ∧ Asks s p sl c.opcode ∧ takenReq s p sl = q ∧ (∀ st t, refused st t ↔ Answered s
    t p sl st [] ∧ (∀ x : Part, x.same s t) ∧ t.cudex.owners = s.cudex.owners) ∧ modeRefusal (serverOf s) s.dev.mode q
    (isQuery c q) = some st ∧ q.flags < 8 ∧ q.argLen ≤ 248) ∧
    (∃ (i : Instr) (s : State) (p : Port) (sl : Fin 4) (c : CmdSpec) (q : Req) (refused : Nat → State → Prop) (st :
    _), i.request = some (p, sl, c) ∧ Asks s p sl c.opcode ∧ takenReq s p sl = q ∧ (∀ st t, refused st t ↔ Answered s
    t p sl st [] ∧ (∀ x : Part, x.same s t) ∧ t.cudex.owners = s.cudex.owners) ∧ mb3Refusal s (serverOf s) q (isQuery
    c q) = some st ∧ q.flags < 8 ∧ q.argLen ≤ 248 ∧ modeRefusal (serverOf s) s.dev.mode q (isQuery c q) = none) ∧
    (∃ (i : Instr) (s : State) (p : Port) (sl : Fin 4) (c : CmdSpec) (q : Req) (refused : Nat → State → Prop),
    i.request = some (p, sl, c) ∧ Asks s p sl c.opcode ∧ takenReq s p sl = q ∧ (∀ st t, refused st t ↔ Answered s t p
    sl st [] ∧ (∀ x : Part, x.same s t) ∧ t.cudex.owners = s.cudex.owners) ∧ q.flags < 8 ∧ q.argLen ≤ 248 ∧
    modeRefusal (serverOf s) s.dev.mode q (isQuery c q) = none ∧ mb3Refusal s (serverOf s) q (isQuery c q) = none ∧
    c.portOk q = false) ∧
    (∃ (i : Instr) (s : State) (p : Port) (sl : Fin 4) (c : CmdSpec) (q : Req) (refused : Nat → State → Prop),
    i.request = some (p, sl, c) ∧ Asks s p sl c.opcode ∧ takenReq s p sl = q ∧ (∀ st t, refused st t ↔ Answered s t p
    sl st [] ∧ (∀ x : Part, x.same s t) ∧ t.cudex.owners = s.cudex.owners) ∧ q.flags < 8 ∧ q.argLen ≤ 248 ∧
    modeRefusal (serverOf s) s.dev.mode q (isQuery c q) = none ∧ mb3Refusal s (serverOf s) q (isQuery c q) = none ∧
    c.portOk q = true ∧ c.targetOk q = false) ∧
    (∃ (i : Instr) (s : State) (p : Port) (sl : Fin 4) (c : CmdSpec) (q : Req) (refused : Nat → State → Prop),
    i.request = some (p, sl, c) ∧ Asks s p sl c.opcode ∧ takenReq s p sl = q ∧ (∀ st t, refused st t ↔ Answered s t p
    sl st [] ∧ (∀ x : Part, x.same s t) ∧ t.cudex.owners = s.cudex.owners) ∧ q.flags < 8 ∧ q.argLen ≤ 248 ∧
    modeRefusal (serverOf s) s.dev.mode q (isQuery c q) = none ∧ mb3Refusal s (serverOf s) q (isQuery c q) = none ∧
    c.portOk q = true ∧ c.targetOk q = true ∧ isQuery c q = false ∧ (∀ k ∈ c.owners q (acceptSlot p sl s), ownView q k
    s ≠ .conflict) ∧ (∃ k ∈ c.owners q (acceptSlot p sl s), ownView q k s = .other)) ∧
    (∃ (i : Instr) (s : State) (p : Port) (sl : Fin 4) (c : CmdSpec) (q : Req) (refused : Nat → State → Prop),
    i.request = some (p, sl, c) ∧ Asks s p sl c.opcode ∧ takenReq s p sl = q ∧ (∀ st t, refused st t ↔ Answered s t p
    sl st [] ∧ (∀ x : Part, x.same s t) ∧ t.cudex.owners = s.cudex.owners) ∧ q.flags < 8 ∧ q.argLen ≤ 248 ∧
    modeRefusal (serverOf s) s.dev.mode q (isQuery c q) = none ∧ mb3Refusal s (serverOf s) q (isQuery c q) = none ∧
    c.portOk q = true ∧ c.targetOk q = true ∧ isQuery c q = false ∧ (∀ k ∈ c.owners q (acceptSlot p sl s), ownView q k
    s ≠ .other) ∧ (∃ k ∈ c.owners q (acceptSlot p sl s), ownView q k s = .conflict)) :=
  ⟨⟨.clockStatus .mb0 0, asked clockStatusSpec .mb0 8 0xFFFF [] up, .mb0, 0, clockStatusSpec, _, fun st t => Answered
  (asked clockStatusSpec .mb0 8 0xFFFF [] up) t .mb0 0 st [] ∧ (∀ x : Part, x.same (asked clockStatusSpec .mb0 8
  0xFFFF [] up) t) ∧ t.cudex.owners = (asked clockStatusSpec .mb0 8 0xFFFF [] up).cudex.owners, rfl,
  by unfold Asks; decide +kernel, rfl, fun _ _ => Iff.rfl, by decide +kernel⟩,
  ⟨.clockStatus .mb1 0, asked clockStatusSpec .mb1 0 0xFFFF [] { dev := { porstLow := false }, cudex := up.cudex },
  .mb1, 0, clockStatusSpec, _, fun st t => Answered (asked clockStatusSpec .mb1 0 0xFFFF []
  { dev := { porstLow := false }, cudex := up.cudex }) t .mb1 0 st [] ∧ (∀ x : Part, x.same (asked clockStatusSpec
  .mb1 0 0xFFFF [] { dev := { porstLow := false }, cudex := up.cudex }) t) ∧ t.cudex.owners = (asked clockStatusSpec
  .mb1 0 0xFFFF [] { dev := { porstLow := false }, cudex := up.cudex }).cudex.owners, _, rfl,
  by unfold Asks; decide +kernel, rfl, fun _ _ => Iff.rfl, rfl, by decide +kernel⟩,
  ⟨.clockStatus .mb3 0, asked clockStatusSpec .mb3 0 0xFFFF [] up, .mb3, 0, clockStatusSpec, _, fun st t => Answered
  (asked clockStatusSpec .mb3 0 0xFFFF [] up) t .mb3 0 st [] ∧ (∀ x : Part, x.same (asked clockStatusSpec .mb3 0
  0xFFFF [] up) t) ∧ t.cudex.owners = (asked clockStatusSpec .mb3 0 0xFFFF [] up).cudex.owners, _, rfl,
  by unfold Asks; decide +kernel, rfl, fun _ _ => Iff.rfl, rfl, by decide +kernel⟩,
  ⟨.deviceMode .mb2 0, asked deviceModeSpec .mb2 0 0xFFFF [1] up, .mb2, 0, deviceModeSpec, _, fun st t => Answered
  (asked deviceModeSpec .mb2 0 0xFFFF [1] up) t .mb2 0 st [] ∧ (∀ x : Part, x.same (asked deviceModeSpec .mb2 0 0xFFFF
  [1] up) t) ∧ t.cudex.owners = (asked deviceModeSpec .mb2 0 0xFFFF [1] up).cudex.owners, rfl,
  by unfold Asks; decide +kernel, rfl, fun _ _ => Iff.rfl, by decide +kernel⟩,
  ⟨.clockStatus .mb0 0, asked clockStatusSpec .mb0 0 0 [] up, .mb0, 0, clockStatusSpec, _, fun st t => Answered (asked
  clockStatusSpec .mb0 0 0 [] up) t .mb0 0 st [] ∧ (∀ x : Part, x.same (asked clockStatusSpec .mb0 0 0 [] up) t) ∧
  t.cudex.owners = (asked clockStatusSpec .mb0 0 0 [] up).cudex.owners, rfl, by unfold Asks; decide +kernel, rfl,
  fun _ _ => Iff.rfl, by decide +kernel⟩,
  ⟨.regionPower .mb0 0, asked regionPowerSpec .mb0 0 63 [] (owned 63 .mb1 up), .mb0, 0, regionPowerSpec, _, fun st t
  => Answered (asked regionPowerSpec .mb0 0 63 [] (owned 63 .mb1 up)) t .mb0 0 st [] ∧ (∀ x : Part, x.same (asked
  regionPowerSpec .mb0 0 63 [] (owned 63 .mb1 up)) t) ∧ t.cudex.owners = (asked regionPowerSpec .mb0 0 63 [] (owned 63
  .mb1 up)).cudex.owners, rfl, by unfold Asks; decide +kernel, rfl, fun _ _ => Iff.rfl, by decide +kernel⟩,
  ⟨.regionPower .mb0 0, asked regionPowerSpec .mb0 0 63 [] (setOwner 63 { port := .mb1, claimedAt := some 0 } up),
  .mb0, 0, regionPowerSpec, _, fun st t => Answered (asked regionPowerSpec .mb0 0 63 [] (setOwner 63
  { port := .mb1, claimedAt := some 0 } up)) t .mb0 0 st [] ∧ (∀ x : Part, x.same (asked regionPowerSpec .mb0 0 63 []
  (setOwner 63 { port := .mb1, claimedAt := some 0 } up)) t) ∧ t.cudex.owners = (asked regionPowerSpec .mb0 0 63 []
  (setOwner 63 { port := .mb1, claimedAt := some 0 } up)).cudex.owners, rfl, by unfold Asks; decide +kernel, rfl,
  fun _ _ => Iff.rfl, by decide +kernel⟩⟩

/-- The hypotheses of MissingOwnersAreClaimed can be met. -/
theorem test_hyps_MissingOwnersAreClaimed :
    ∃ (i : Instr) (s : State) (p : Port) (sl : Fin 4) (c : CmdSpec) (k : Nat), i.request = some (p, sl, c) ∧
    i.mayChange.length ≤ 1 ∧ Granted c s p sl ∧ isQuery c (takenReq s p sl) = false ∧ k ∈ c.owners (takenReq s p sl)
    (acceptSlot p sl s) ∧ s.owner k = none :=
  ⟨.regionPower .mb0 0, asked regionPowerSpec .mb0 0 63 [0] up, .mb0, 0, regionPowerSpec, 63, rfl,
  by unfold Granted Asks; decide +kernel⟩

/-- The hypotheses of PortCommandsLeaveTheDevice can be met. -/
theorem test_hyps_PortCommandsLeaveTheDevice :
    ∃ (i : Instr), i.mayChange = [] :=
  ⟨.idcode, by decide +kernel⟩

/-- The hypotheses of OnePartCommandsLeaveTheOthers can be met. -/
theorem test_hyps_OnePartCommandsLeaveTheOthers :
    ∃ (i : Instr) (x : Part), i.mayChange = [x] :=
  ⟨.regionPower .mb0 0, .regions, by decide +kernel⟩

/-- The hypotheses of FewPartCommandsLeaveTheOthers can be met. -/
theorem test_hyps_FewPartCommandsLeaveTheOthers :
    ∃ (i : Instr), 2 ≤ i.mayChange.length ∧ i.mayChange.length ≤ 6 :=
  ⟨.rootPllLock, by decide +kernel⟩

/-- The hypotheses of TrafficLeavesTheOtherParts can be met. -/
theorem test_hyps_TrafficLeavesTheOtherParts :
    ∃ (i : Instr), 7 ≤ i.mayChange.length :=
  ⟨.tickBoundary, by decide +kernel⟩

/-- The hypotheses of OtherInstancesAreLeft can be met. -/
theorem test_hyps_OtherInstancesAreLeft :
    (∃ (s : State) (p : Port) (sl : Fin 4) (r : Nat) (i : Instr), r ≠ (s.req p sl).target ∧ i ∈ [Instr.regionClock p
    sl, .regionPower p sl, .scheduleSet p sl, .planeFill p sl, .planeOverride p sl, .planeStatus p sl, .spineEnable p
    sl, .bramClear p sl, .dspHalt p sl]) ∧
    (∃ (k : Fin 64) (r : Nat) (i : Instr), r ≠ k.val ∧ i ∈ [Instr.fabricClockChange k, .quiesceAck k, .quiesceTimeout
    k, .shelfSaveComplete k]) ∧
    (∃ (k : Fin 64) (r : Nat), r ≠ k.val) ∧
    (∃ (e : Fin 2048) (k : Nat) (i : Instr), k ≠ e.val ∧ i ∈ [Instr.bundle e, .b e, .call e, .ret e, .beqz e, .bnez e,
    .bltz e, .bgez e, .bdec e, .limm e, .loop e, .nop e, .halt e, .waiti e, .reti e, .ei e, .di e, .sig e,
    .reservedBranchOrSystemOp e, .interruptEntry e, .waitiResume e, .timerExpiry e, .doorbell e, .start e]) ∧
    (∃ (e : Fin 2048) (i : Instr), i ∈ [Instr.b e, .call e, .ret e, .beqz e, .bnez e, .bltz e, .bgez e, .bdec e, .limm
    e, .loop e, .nop e, .halt e, .waiti e, .reti e, .ei e, .di e, .sig e, .reservedBranchOrSystemOp e]) ∧
    (∃ (s : State) (p : Port) (sl : Fin 4) (l : Nat) (i : Instr), l ≠ (s.req p sl).target ∧ i ∈ [Instr.laneStatus p
    sl, .laneReset p sl, .laneSlip p sl, .laneEyescan p sl, .laneInject p sl]) ∧
    (∃ (k : Fin 96) (l : Nat) (i : Instr), l ≠ k.val ∧ i ∈ [Instr.injectError k, .cdrLocked k, .trainingDone k,
    .trainingTimeout k, .laneLockAcquired k, .laneTransmitItem k, .prbsCheckerLock k, .prbsCheckerLockLost k]) ∧
    (∃ (s : State) (p : Port) (sl : Fin 4) (l : Nat) (i : Instr), l ≠ (s.req p sl).target ∧ i ∈ [Instr.linkStatus p
    sl, .linkLoopback p sl]) ∧
    (∃ (k : Fin 48) (l : Nat) (i : Instr), l ≠ k.val ∧ i ∈ [Instr.gapSkewTimeout k, .nakReplayTimeout k,
    .linkBackoffEnd k, .linkUpStable k, .startingDegradeTimeout k, .helloInterval k]) ∧
    (∃ (s : State) (p : Port) (sl : Fin 4) (q : Nat), q ≠ (s.req p sl).target) ∧
    (∃ (s : State) (p : Port) (sl : Fin 4) (q : Nat), q ≠ (s.req p sl).target ∧ q ≠ (s.req p sl).arg 10 2 ∧ (s.queue
    (s.req p sl).target).role ≠ .send (some q)) ∧
    (∃ (k : Fin 16384) (m : Nat), m ≠ k.val) ∧
    (∃ (k : Fin 16384) (m : Nat), m ≠ k.val) :=
  ⟨⟨asked regionPowerSpec .mb0 0 63 [0] up, .mb0, 0, 62, .regionPower .mb0 0, by decide +kernel⟩,
  ⟨63, 62, .quiesceAck 63, by decide +kernel⟩,
  ⟨63, 62, by decide +kernel⟩,
  ⟨2047, 2046, .sig 2047, by decide +kernel⟩,
  ⟨2047, .sig 2047, by decide +kernel⟩,
  ⟨asked laneStatusSpec .mb0 0 95 [0] up, .mb0, 0, 94, .laneStatus .mb0 0, by decide +kernel⟩,
  ⟨95, 94, .cdrLocked 95, by decide +kernel⟩,
  ⟨asked linkStatusSpec .mb0 0 47 [0] up, .mb0, 0, 46, .linkStatus .mb0 0, by decide +kernel⟩,
  ⟨47, 46, .linkUpStable 47, by decide +kernel⟩,
  ⟨asked riserStatusSpec .mb0 0 4095 [0] up, .mb0, 0, 4094, by decide +kernel⟩,
  ⟨asked sprueQueueSpec .mb0 0 4095 [1, 0, 1, 0] up, .mb0, 0, 4094, by decide +kernel⟩,
  ⟨16383, 16382, by decide +kernel⟩,
  ⟨16383, 16382, by decide +kernel⟩⟩

/-- The hypotheses of LookUpTableAndCarry can be met. -/
theorem test_hyps_LookUpTableAndCarry :
    (∃ (f : CellCfg), f.mode = .whole) ∧
    (∃ (f : CellCfg), f.mode = .split) ∧
    (∃ (f : CellCfg), f.mode = .carry) ∧
    (∃ (s : State) (x : Nat) (y : Nat) (r : Nat) (b : Nat) (u : PlaneUse) (o : XOut), regionAt x y = r ∧ blockAt x y =
    b ∧ (s.region r).now.use = u ∧ u.xsel r b o = none) ∧
    (∃ (s : State) (x : Nat) (y : Nat) (r : Nat) (b : Nat) (u : PlaneUse) (o : XOut) (i : XIn), regionAt x y = r ∧
    blockAt x y = b ∧ (s.region r).now.use = u ∧ u.xsel r b o = some i) ∧
    (∃ (s : State) (x : Nat) (y : Nat) (r : Nat) (b : Nat) (u : PlaneUse) (o : BoxOut), regionAt x y = r ∧ blockAt x y
    = b ∧ (s.region r).now.use = u ∧ u.bsel b o = none) ∧
    (∃ (x : Nat) (y : Nat) (w : Wire) (d : Nat) (x0 : Nat) (y0 : Nat), d ≤ w.dir.inside x y ∧ w.dir.behind x y d =
    some (x0, y0)) ∧
    (∃ (x : Nat) (y : Nat) (w : Wire) (d : Nat) (x1 : Nat) (y1 : Nat), w.dir.inside x y < d ∧ w.dir.behind x y
    (w.dir.inside x y) = some (x1, y1)) ∧
    (∃ (s : State) (x : Nat) (y : Nat) (r : Nat) (w : Wire) (back : Nat) (c : Border), regionAt x y = r ∧ Border.wire
    w back (w.dir.place x y) = c ∧ w.dir.behind x y 1 ≠ none ∧ borderHeld s r c = true) ∧
    (∃ (s : State) (x : Nat) (y : Nat) (r : Nat) (w : Wire) (back : Nat) (x0 : Nat) (y0 : Nat), regionAt x y = r ∧
    w.dir.behind x y 1 = some (x0, y0) ∧ borderHeld s r (.wire w back (w.dir.place x y)) = false) ∧
    (∃ (s : State) (x : Nat) (y : Nat) (r : Nat) (k : Nat), regionAt x y = r ∧ (s.region r).spineDead k = true) ∧
    (∃ (s : State) (rec : Node → Bool) (x : Nat) (y : Nat) (r : Nat) (b : Nat) (u : PlaneUse) (c : Nat), regionAt x y
    = r ∧ blockAt x y = b ∧ (s.region r).now.use = u ∧ (u.cell (32 * b + c)).srAsync = true ∧ rec (.xout x y (.pin c
    .sr)) = true) :=
  ⟨⟨{ mode := .whole }, by decide +kernel⟩,
  ⟨{ mode := .split }, by decide +kernel⟩,
  ⟨{ mode := .carry }, by decide +kernel⟩,
  ⟨up, 0, 0, _, _, _, .cin, rfl, rfl, rfl, by decide +kernel⟩,
  ⟨clocked 0 { xbar := [(0, .pin 0 .ce, .up 31)] }, 0, 0, _, _, _, .pin 0 .ce, .up 31, rfl, rfl, rfl,
  by decide +kernel⟩,
  ⟨up, 0, 0, _, _, _, .spineData, rfl, rfl, rfl, by decide +kernel⟩,
  ⟨16, 0, ⟨.east, .sixteen, 0⟩, 16, 0, 0, by decide +kernel⟩,
  ⟨67, 0, ⟨.east, .sixteen, 0⟩, 16, 64, 0, by decide +kernel⟩,
  ⟨reg 1 { isoHold := true }, 64, 0, _, ⟨.east, .sixteen, 0⟩, 13, _, rfl, rfl, by decide +kernel⟩,
  ⟨modRegion 0 (fun x => { x with isoHold := false }) (reg 1 { isoHold := false }), 64, 0, _, ⟨.east, .sixteen, 0⟩,
  13, 63, 0, rfl, by decide +kernel⟩,
  ⟨reg 0 { spineDisable := BitVec.allOnes 64 }, 0, 0, _, 63, rfl, by decide +kernel⟩,
  ⟨clocked 0 { cells := tset {} [] 31 { srAsync := true } }, fun _ => true, 0, 0, _, _, _, 31, rfl, rfl, rfl,
  by decide +kernel⟩⟩

/-- The hypotheses of FirstModeWhoseConditionHolds can be met. -/
theorem test_hyps_FirstModeWhoseConditionHolds :
    (∃ (s : State), ModeKept s ∧ s.dev.base = .running ∧ s.dev.cooldown = true) ∧
    (∃ (s : State), ModeKept s ∧ s.dev.base = .running ∧ s.dev.cooldown = false ∧ s.dev.hold = true) ∧
    (∃ (s : State), ModeKept s ∧ s.dev.base = .running ∧ s.dev.cooldown = false ∧ s.dev.hold = false ∧ s.dev.frozenCmd
    = true) ∧
    (∃ (s : State), ModeKept s ∧ s.dev.base = .running ∧ s.dev.cooldown = false ∧ s.dev.hold = false ∧ s.dev.frozenCmd
    = false ∧ s.dev.debug = true) ∧
    (∃ (s : State), ModeKept s ∧ s.dev.base = .running ∧ s.dev.cooldown = false ∧ s.dev.hold = false ∧ s.dev.frozenCmd
    = false ∧ s.dev.debug = false) :=
  ⟨⟨inMode (fun d => { d with mode := .cooldown, cooldown := true }), by unfold ModeKept; decide +kernel⟩,
  ⟨inMode (fun d => { d with mode := .hold, hold := true }), by unfold ModeKept; decide +kernel⟩,
  ⟨inMode (fun d => { d with mode := .frozen, frozenCmd := true }), by unfold ModeKept; decide +kernel⟩,
  ⟨inMode (fun d => { d with mode := .debug, debug := true }), by unfold ModeKept; decide +kernel⟩,
  ⟨up, by unfold ModeKept; decide +kernel⟩⟩


/-! ### Hypotheses that a good directory, a spare row or an image of zeros meets -/

/-- A flash with the directory of Laws/Directory.lean and one stored image, and the device with it. -/
def stored (bs : List Byte) : LibSt := { flash := flashOf bs (List.replicate 3840 0xFF#8) }
def withFlash (bs : List Byte) (s : State) : State := modLib (fun _ => stored bs) s

theorem stored_ok (bs : List Byte) (h : bs.length < 2 ^ 20) : Stored (stored bs) bs (List.replicate 3840 0xFF#8) :=
  ⟨rfl, rfl, rfl, h, List.length_replicate⟩

/-- With no flash operation under way, the load at BOOT does not wait. -/
theorem not_waiting {s : State} (h : s.lib.jobs = []) : bootLoadWaits s = false := by
  have busy : ∀ a, flashBusy s a = false := fun a => by unfold flashBusy; rw [h]
  unfold bootLoadWaits
  rw [busy 0]
  split <;> simp [busy]

/-- Firmware that authenticates starts at BOOT: met for every stored image whose signature is good. -/
theorem test_hyps_StartUpCompletes_firmware (bs : List Byte) (h : bs.length < 2 ^ 20)
    (sig : Config.firmwareSigned bs = true) :
    ∃ (s : State) (k : Nat), s.awake = true ∧ s.dev.base = .boot ∧ s.cudex.cup = .rom ∧ bootFirmware s = some k :=
  ⟨withFlash bs { up with dev := { up.dev with mode := .boot, base := .boot }, cudex := {} }, 1, rfl, rfl, rfl,
    (stored_ok bs h).firmware sig (show (1 : BitVec 4) ≠ 7 by decide)⟩

/-- The same when Cupola restarts. -/
theorem test_hyps_CupolaEventsComplete_restart (bs : List Byte) (h : bs.length < 2 ^ 20)
    (sig : Config.firmwareSigned bs = true) :
    ∃ (s : State) (k : Nat), s.awake = true ∧ s.cudex.cup = .restarting ∧ bootFirmware s = some k :=
  ⟨withFlash bs { up with cudex := { cup := .restarting } }, 1, rfl, rfl, (stored_ok bs h).firmware sig (show (1 : BitVec 4) ≠ 7 by decide)⟩

/-- A boot pattern image is there to load. -/
theorem test_hyps_StartUpCompletes_image :
    ∃ (s : State) (code : Nat) (bs : List Byte) (rest : List (Nat × List Byte)), s.awake = true ∧ s.dev.base = .load ∧
      s.dev.loadDone = false ∧ s.dev.hold = false ∧ bootLoadWaits s = false ∧ bootImages s = (code, bs) :: rest :=
  ⟨withFlash [] { up with dev := { up.dev with mode := .load, base := .load, loadDone := false, release := .none } },
    1, [], [], rfl, rfl, rfl, rfl, not_waiting rfl, (stored_ok [] (by decide)).images rfl⟩

/-- Copy A of the directory is good, and its last entry is asked for. -/
theorem test_hyps_LibraryCommandsComplete_directory :
    ∃ (s : State) (p : Port) (sl : Fin 4) (bs : List Byte), Granted flashDirReadSpec s p sl ∧
      (s.req p sl).argByte 8 = 1 ∧ (s.req p sl).argByte 9 < 63 ∧ s.lib.jobs = [] ∧ s.lib.dirCopy 0 = some bs :=
  ⟨asked flashDirReadSpec .mb0 0 0xFFFF [1, 62] (withFlash [] up), .mb0, 0, _,
    by unfold Granted Asks; decide +kernel, by decide +kernel, by decide +kernel, rfl, (stored_ok [] (by decide)).dirCopy⟩

/-- A staged firmware image of 64 zero bytes, if its signature is good. -/
def staging : State :=
  asked fwStageSpec .mb0 0 0xFFFF [1, 0, 0, 0, 0, 0, 0, 0, 0, 0, 0, 0, 0, 0, 0, 0, 64] (withFlash [] up)

theorem staging_bytes : (readBuffer 64 0 64 (takenState fwStageSpec staging .mb0 0)).2 = zeros 64 := by
  decide +kernel

theorem test_hyps_FlashAndDebugComplete_stage (sig : Config.firmwareSigned (zeros 64) = true) :
    ∃ (s : State) (p : Port) (sl : Fin 4) (q : Req) (kind a len : Nat) (u : State × List Byte) (copy : Nat)
      (d : List Byte) (i : Nat) (e : List Byte), s.req p sl = q ∧
      Granted fwStageSpec s p sl ∧ q.argByte 8 = kind ∧ q.arg 16 8 = a ∧ q.arg 24 4 = len ∧
      (kind = 1 ∨ kind = 2) ∧ a % 64 = 0 ∧ len ≠ 0 ∧ a + len ≤ hbmBytes ∧ spanProtected s a len = false ∧
      s.lib.jobs = [] ∧ readBuffer 64 a len (takenState fwStageSpec s p sl) = u ∧
      verifyStaged kind u.2 len u.1 = none ∧ s.lib.dirInUse = some (copy, d) ∧
      entryOf d ((if kind = 1 then 1 else 0x11) + (stageSlot d (if kind = 1 then 1 else 0x11)).1 - 1) = some (i, e) ∧
      u.2.length ≤ entrySpace s.lib d i e := by
  have g := stored_ok [] (by decide)
  have l : staging.lib = stored [] := rfl
  have v : verifyStaged 1 (zeros 64) 64 (readBuffer 64 0 64 (takenState fwStageSpec staging .mb0 0)).1 = none := by
    unfold verifyStaged
    rw [if_neg (by decide), if_pos rfl, sig]
    rfl
  have kind : (staging.req .mb0 0).argByte 8 = 1 ∧ (staging.req .mb0 0).arg 16 8 = 0 ∧ (staging.req .mb0 0).arg 24 4 = 64 := by
    decide +kernel
  refine ⟨staging, .mb0, 0, _, 1, 0, 64, _, 0, _, 2, entryFor 2 0xFF [], rfl, by unfold Granted Asks; decide +kernel,
    kind.1, kind.2.1, kind.2.2, .inl rfl, rfl, nofun, by decide +kernel, rfl, rfl, rfl, ?_, l ▸ g.dirInUse g.copy1, ?_, ?_⟩
  · rw [staging_bytes]; exact v
  · rw [if_pos rfl, g.stage.2.1]; exact g.stage.1
  · rw [staging_bytes, l, g.stage.2.2]; decide

/-- A spare row is left in a bank with no repair. -/
theorem test_hyps_IntegrityCommandsComplete_spare (h : Config.spareRows [] 0 ≠ 0) :
    ∃ (s : State) (p : Port) (sl : Fin 4) (q : Req) (a : Nat), s.req p sl = q ∧ Granted faultRetireSpec s p sl ∧
      q.argByte 8 = 2 ∧ q.target = 0xFFFF ∧ q.arg 16 8 = a ∧ a < hbmBytes ∧ s.hbm.repair = none ∧
      Config.spareRows s.hbm.repaired (a / 4096) ≠ 0 :=
  ⟨asked faultRetireSpec .mb0 0 0xFFFF [2] up, .mb0, 0, _, 0, rfl, by unfold Granted Asks; decide +kernel,
    by decide +kernel, rfl, by decide +kernel, by decide, rfl, h⟩

/-- A library entry of HBM that nobody has written, READY and placed in region 63, and a fill of that region from it. -/
def copying (active : Bool) : State :=
  modHbm (fun h => { h with ranges := [(0, { defined := true, gib := 4 })] })
    (modLib (fun l => { l with entries := [(1, { st := 2, placement := 63 })] })
      (reg 63 { power := .active, fill := some { plane := if active then 0 else 3, index := 1, active := active } }))

theorem copying_untouched (active : Bool) : Untouched (copying active) := by
  have range : (copying active).range 0 = { defined := true, gib := 4 } := rfl
  refine ⟨rfl, rfl, rfl, rfl, by rw [range], ?_, by rw [range]⟩
  intro i
  rw [range]
  match i with
  | 0 | 1 | 2 | 3 | 4 | 5 | 6 | 7 => rfl
  | i + 8 => rfl

theorem test_hyps_LibraryCommandsComplete_copy :
    ∃ (s : State) (q : Fin 64) (f : FillJob) (frames : Table Frame) (n : Nat), s.awake = true ∧
      (s.region q.val).fill = some f ∧ f.active = true ∧ (s.region q.val).power = .active ∧
      (s.region q.val).trans = none ∧ (s.region q.val).fillWait = [] ∧ (copyFor q.val f s).2 = .ok frames n :=
  ⟨copying true, 63, { plane := 0, index := 1, active := true }, [], 0, rfl, rfl, rfl, rfl, rfl, rfl,
    copyFor_zeros (copying_untouched true) rfl rfl rfl⟩

theorem test_hyps_PlanesComplete_copy :
    ∃ (s : State) (r : Fin 64) (f : FillJob) (frames : Table Frame) (n : Nat), s.awake = true ∧
      (s.region r.val).fill = some f ∧ f.active = false ∧ f.plane < 4 ∧ (s.region r.val).fillWait = [] ∧
      (s.region r.val).slice = none ∧
      (copyFor r.val f (modRegion r.val (fun x => { x with fill := none }) s)).2 = .ok frames n ∧
      aboutToReplace s r.val f.plane = false := by
  have u := copying_untouched false
  have v : Untouched (modRegion 63 (fun x => { x with fill := none }) (copying false)) :=
    ⟨u.mem, u.ecc, u.poison, u.isOpen, u.defined, u.root, u.rootOk⟩
  exact ⟨copying false, 63, { plane := 3, index := 1, active := false }, [], 0, rfl, rfl, rfl, by decide, rfl, rfl,
    copyFor_zeros v rfl rfl rfl, rfl⟩


/-! ### Terms that the tables do not allow are not well formed -/

/-- A finding to build ill-formed terms from. -/
def finding : BondFinding := ⟨0, .pclk 0, 0, true, 100⟩

theorem test_illFormed_writeLines : WellFormed (.write ⟨.cupola, 0, 1, 0, 0, 0⟩ [(0, 0)]) = false := by decide
theorem test_illFormed_pushLines : WellFormed (.push (from_ 0) []) = false := by decide
theorem test_illFormed_pushEopLines : WellFormed (.pushEop (from_ 0) []) = false := by decide
theorem test_illFormed_abortLines : WellFormed (.abort (from_ 0) []) = false := by decide
theorem test_illFormed_registerWriteLines : WellFormed (.registerWrite (from_ 0) []) = false := by decide
theorem test_illFormed_remoteRead : WellFormed (.remoteRequest (from_ 0) .read [(0, 0)]) = false := by decide
theorem test_illFormed_remoteWrite : WellFormed (.remoteRequest (from_ 0) .write []) = false := by decide
theorem test_illFormed_remoteAdd : WellFormed (.remoteRequest (from_ 0) .add32 []) = false := by decide
theorem test_illFormed_crcDataLines : WellFormed (.crcData ⟨.cupola, 0, 1, 0, 0, 0⟩ (0, 0)) = false := by decide
theorem test_illFormed_crcCtrlLines : WellFormed (.crcCtrl ⟨.cupola, 0, 1, 0, 0, 0⟩ (0, 0)) = false := by decide
theorem test_illFormed_crcValueLines : WellFormed (.crcValue ⟨.cupola, 0, 1, 0, 0, 0⟩ (0, 0)) = false := by decide
theorem test_illFormed_tickLowLines : WellFormed (.tickNumberLowRead ⟨.cupola, 0, 1, 0, 0, 0⟩) = false := by decide
theorem test_illFormed_bootFindings : WellFormed (.bootBondSweepComplete [finding, finding] []) = false := by decide
theorem test_illFormed_bootCheckers : WellFormed (.bootBondSweepComplete [] [⟨0, 0⟩, ⟨0, 0⟩]) = false := by decide
theorem test_illFormed_sweepBundle : WellFormed (.busSweep ⟨0, .pclk 1⟩ [finding]) = false := by decide
theorem test_illFormed_sweepRepeats : WellFormed (.busSweep ⟨0, .pclk 0⟩ [finding, finding]) = false := by decide
theorem test_illFormed_testBlock : WellFormed (.testComplete [⟨0, 0, 0, [(512, 0)]⟩] []) = false := by decide
theorem test_illFormed_testFindings : WellFormed (.testComplete [] [finding, finding]) = false := by decide
theorem test_illFormed_portOperation : WellFormed (.bramPortOperation 0 none none true) = false := by decide
theorem test_illFormed_replica : WellFormed (.replicaRead [(0, 0, 1), (0, 0, 2)]) = false := by decide
theorem test_illFormed_sensor : WellFormed (.sensorSample [0]) = false := by decide
theorem test_illFormed_governor : WellFormed (.governorEstimate [⟨0, 0, 0, 0, 0⟩, ⟨0, 1, 0, 0, 0⟩]) = false := by decide
theorem test_illFormed_ageing : WellFormed (.ageingMeasurement [(0, []), (0, [1])]) = false := by decide
theorem test_illFormed_sliceEnd : WellFormed (.sliceEnd 0 [(0, 256)] false) = false := by decide
theorem test_illFormed_sliceRepeat : WellFormed (.sliceRepeat 0 [(512, 0)] false) = false := by decide
theorem test_illFormed_hostRead : WellFormed (.hostRequest 0 0 true [0] 1) = false := by decide
theorem test_illFormed_hostReadNone : WellFormed (.hostRequest 0 0 true [] 0) = false := by decide
theorem test_illFormed_hostReadLong : WellFormed (.hostRequest 0 0 true [] 4097) = false := by decide
theorem test_illFormed_hostWriteNone : WellFormed (.hostRequest 0 0 false [] 0) = false := by decide
theorem test_illFormed_hostWriteLong : WellFormed (.hostRequest 0 0 false (List.replicate 513 0) 0) = false := by
  decide +kernel
theorem test_illFormed_mgmtRead : WellFormed (.mgmtRead 0 0) = false := by decide
theorem test_illFormed_fabricRepeats :
    WellFormed (.fabricClockEdge 0 ⟨0, 0, [(.crc, 0), (.crc, 0)]⟩) = false := by decide
theorem test_illFormed_fabricRunner : WellFormed (.fabricClockEdge 0 ⟨0, 0, [(.runner 8, 0)]⟩) = false := by decide
theorem test_illFormed_fabricRunnerBit : WellFormed (.fabricClockEdge 0 ⟨0, 0, [(.runner 0, 525)]⟩) = false := by decide
theorem test_illFormed_fabricMailbox : WellFormed (.fabricClockEdge 0 ⟨0, 0, [(.mailbox, 775)]⟩) = false := by decide
theorem test_illFormed_fabricCrc : WellFormed (.fabricClockEdge 0 ⟨0, 0, [(.crc, 66)]⟩) = false := by decide
theorem test_illFormed_fabricOther : WellFormed (.fabricClockEdge 0 ⟨0, 0, [(.bram 0 true, 0)]⟩) = false := by decide

/-! ### Values that the manual works out -/

/-- ASCII `123456789`. -/
def digits : List Byte := [0x31, 0x32, 0x33, 0x34, 0x35, 0x36, 0x37, 0x38, 0x39]

/-- Table 15.12, last column. -/
theorem test_crc32 : crcBytes 0 0xFFFFFFFF#32 digits ^^^ crcFinal 0 = 0xCBF43926#32 := by decide +kernel
theorem test_crc32c : crc32c digits = 0xE3069283#32 := by decide +kernel
theorem test_crc16 : crcBytes 2 0xFFFF#32 digits ^^^ crcFinal 2 = 0x29B1#32 := by decide +kernel
theorem test_crc8 : crcBytes 3 0 digits ^^^ crcFinal 3 = 0xF4#32 := by decide +kernel

/-- The G8 word of the worked example before Table 15.3, and that table's rows. -/
theorem test_g8_check : gridCheck 8 1 = 0x0101 := by decide +kernel
theorem test_g8_dataBit : decodeSyn 8 (synOfFlip 8 false 19) = .dataBit 19 := by decide +kernel
theorem test_g8_checkBit : decodeSyn 8 (0x0121 ^^^ gridCheck 8 1) = .checkBit 5 := by decide +kernel
theorem test_g8_two : decodeSyn 8 (synOfFlip 8 false 19 ^^^ synOfFlip 8 false 23) = .uncorrectable := by decide +kernel
theorem test_g8_four : decodeSyn 8 (synOfFlip 8 false 19 ^^^ synOfFlip 8 false 23 ^^^ synOfFlip 8 false 51 ^^^
    synOfFlip 8 false 55) = .clean := by decide +kernel
theorem test_g8_mistaken : decodeSyn 8 (synOfFlip 8 false 19 ^^^ synOfFlip 8 true 2) = .checkBit (8 + 3) := by
  decide +kernel

/-- The Ingot banks with bank 21 retired (worked example after R212). -/
def bank21 : State := { up with ingot := { retired := [21] } }
theorem test_ingot_interleave : interleave bank21 0x15040 = some (22, 0x40) := by decide +kernel
theorem test_ingot_before : interleave up 0x15040 = some (21, 0x40) := by decide +kernel
theorem test_ingot_last : interleave bank21 0x0FBFFFFF = some (63, 0x3FFFFF) := by decide +kernel
theorem test_ingot_beyond : interleave bank21 0x0FC00000 = none := by decide +kernel

/-- `CLK_STATE` right after reset: Table 16.7's column of reset values. -/
theorem test_clkState_reset : clkState State.reset = 1 := by decide +kernel

/-- The worked example after R127: a flip-flop in block (10, 5) of region 0 feeds, over a down wire and the span-64 wire east
that ends at x = 74, a look-up table in block (74, 5) of region 1. -/
def east64 : Wire := ⟨.east, .sixtyFour, 0⟩
def drives : PlaneUse := { xbar := [(330, .down 3, .cell 0 .q0)], box := [(330, .wire east64, .down 3)] }
def captures : PlaneUse :=
  { xbar := [(330, .pin 7 (.a 0), .up 9)], box := [(330, .up 9, .wire east64 64)]
    cells := [(10567, { lut := 2, ceTied := true })] }
def clockedRegion (u : PlaneUse) : Region :=
  { power := .active, clockOn := true, iso := [], isoHold := false, shieldClosed := false
    plane0 := { st := .active, use := u, ff := [(21120, true)] } }
def acrossBorder : State := { up with regions := [(0, clockedRegion drives), (1, clockedRegion captures)] }
theorem test_routing_path : cellSignal acrossBorder 1 10567 .la = true := by decide +kernel
theorem test_routing_capture : tget false ((fabricEdge 1 ⟨0, 0, []⟩ acrossBorder).region 1).now.ff 21134 = true := by
  decide +kernel

/-- Codes that the standards behind chapter 10 print: `K28.5` and `D21.5` at negative running disparity (Clause 36), and the first
coefficients of the RS(544,514) generator polynomial (Clause 91); the first bits of PRBS7 from a register of ones (R285). -/
theorem test_8b10b_k28_5 : natOf (encodeChar true 0xBC false).1.reverse = 0b0011111010 := by decide +kernel
theorem test_8b10b_d21_5 : natOf (encodeChar false 0xB5 false).1.reverse = 0b1010101010 := by decide +kernel
theorem test_rs_generator : rsGen.take 4 = [523, 834, 128, 158] := by decide +kernel
theorem test_prbs7 : natOf (prbsBits 1 14 0x7F).1.reverse = 0b00000010000011 := by decide +kernel

/-- What exec answers, looked at through a function. -/
def after {α : Type} [DecidableEq α] (i : Instr) (s : State) (f : State → α) (v : α) : Bool :=
  match exec i s with
  | .next t => f t = v
  | _ => false

/-- The worked example of chapter 2: the host writes word 10 of the block memory beneath block (200, 70). -/
def hostWrites : State :=
  modRegion 19 (fun _ => {
    power := .active, clockOn := true, shieldClosed := false, iso := []
    plane0 := { st := .active, use := { brams := [(49, { widthA := 64, widthB := 64 })] } } })
    { up with dev := { up.dev with straps := ⟨0, false, true, false⟩ }, io := { pcie := { up := true } } }
theorem test_host_write_word10 :
    after (.write ⟨.host, 0x2101331040#49, 0, 0, 0, 0⟩ [(BitVec.ofNat 512 (0x1234 * 2 ^ 128), 0xFF0000)]) hostWrites
      (fun t => (t.bram (256 * 19 + 49)).words.map (fun e => (e.1, e.2.extractLsb' 0 64))) [(10, 0x1234#64)] = true := by
  decide +kernel

/-- The worked example of chapter 6: `SCHEDULE_SET` of region 19, which has no owner, in the layout of Table 6.11; and that
of chapter 19: its taking claims the region for MB0 with a lease of 60 s, the request waits for the tick boundary, and a
request of MB2 then gets `CONFLICT` (4). -/
def schedule19 : List Nat :=
  [0x00, 0x00, 0x01, 0x08, 0x00, 0x06] ++ List.replicate 26 0 ++ [0x00, 0x01, 0x00, 0x00, 0x40, 0x00, 0x08]
def schedulePosted : State := asked scheduleSetSpec .mb0 0 19 schedule19 up
theorem test_schedule_waits : after (.scheduleSet .mb0 0) schedulePosted
    (fun t => ((t.slot .mb0 0).st, (t.owner 19).map (fun o => (o.port, o.lease)), (t.region 19).sched.entries))
    (.accepted, some (.mb0, 60), []) = true := by decide +kernel
theorem test_schedule_shadow : after (.scheduleSet .mb0 0) schedulePosted
    (fun t => (t.region 19).shadow.map (fun x => (lget 0 x.1.entries 1, x.1.grace, x.1.force, x.1.warnLead, x.1.testMask)))
    (some (0x0801, 256, false, 64, 8)) = true := by decide +kernel

/-- `LIMM` of `0xDEADBEEF` to `D5`: format 01, `BOP` 8, register 5, target 0 (R229, Table 9.6); the next bundle sees it
(Table 9.8). -/
def limmD5 : BitVec 64 := 0b01#2 ++ 0x8#4 ++ 5#4 ++ 0#11 ++ 0#11 ++ 0xDEADBEEF#32
theorem test_limm : after (.limm 2047) (dspAt limmD5 {})
    (fun t => ((t.engine 2047).landing, (t.engine 2047).pc)) ([(1, .dreg 5 0xDEADBEEF#32)], 1#11) = true := by decide +kernel

/-- `CALL` of bundle 0x123: `LR` takes the own address plus 3, and the two bundles after it are still issued (R231). -/
def call123 : BitVec 64 := 0b01#2 ++ 0x1#4 ++ 0#4 ++ 0x123#11 ++ 0#11 ++ 0#32
theorem test_call : after (.call 2047) (dspAt call123 {})
    (fun t => ((t.engine 2047).lr, (t.engine 2047).pc, (t.engine 2047).delay, (t.engine 2047).target))
    (3#11, 1#11, 2, 0x123#11) = true := by decide +kernel

/-- `HALT`: format 11, `SOP` 1 (Table 9.7). -/
def haltWord : BitVec 64 := 0b11#2 ++ 0x1#4 ++ 0#58
theorem test_halt : after (.halt 2047) (dspAt haltWord {}) (fun t => (t.engine 2047).st) .halted = true := by decide +kernel

/-- A bundle of another row is not that row's event: the state stays (notes/assumptions/3.md). -/
theorem test_otherRow : after (.nop 2047) (dspAt haltWord {}) (fun t => (t.engine 2047).st) .running = true := by
  decide +kernel

/-- No word spells a command (notes/assumptions/7.md), and then nothing is put in front of the queue. -/
theorem test_decodeTableWord : decodeTableWord 8 0xFF = none := by decide
theorem test_withFetchWord : (State.reset.withFetchWord 8 0xFF).pending = [] := by decide

end Sys2Proof.Tests
end

/-! The event log under a change of mode (R57, R497, R500), and the refutation of InterfaceCommandsComplete. Its clause of
`EVENT_LOG_READ` says for every state that the log is as it was. Every command ends in `commit`, which takes the mode that
the conditions give: in a state whose reported mode is another one, the event Mode changed is recorded, and the log of the
next state is longer by that record. -/

namespace Sys2Proof.Machine

/-- A log with room and without a threshold takes every record (R500). -/
theorem logRecord_log_of_room (r : Record) {c : CudexSt} (ht : c.logThreshold = 0) (hl : c.log.length < 2048) :
    (logRecord r c).log = c.log ++ [r] := by
  simp [logRecord, ht, hl]

/-- Outside OFF the collector records what the log takes (R497). -/
theorem raise_log_of_room (e : EvRec) {s : State} (hb : s.dev.base ≠ .off) (ht : s.cudex.logThreshold = 0)
    (hl : s.cudex.log.length < 2048) :
    (raise e s).cudex.log = s.cudex.log ++ [mkRecord e s.tick.number.toNat] := by
  have hrec := logRecord_log_of_room (mkRecord e s.tick.number.toNat)
    (c := { s.cudex with ports := s.cudex.ports.map (offerPath (mkRecord e s.tick.number.toNat)) }) ht hl
  simp only [raise, deliver, if_neg hb, onlyIf_cudex, signalMsix_cudex, ite_self, modCudex_cudex, hrec]

/-- The mode's conditions are of the device, the regions and the Ingot banks (R57, R58). -/
theorem modeOf_congr {s t : State} (hdev : t.dev = s.dev) (hregions : t.regions = s.regions)
    (hingot : t.ingot = s.ingot) : modeOf t = modeOf s := by
  have hdegraded : isDegraded t = isDegraded s := by simp only [isDegraded, hregions, hingot]
  unfold modeOf
  rw [hdev, hdegraded]

/-- A command that ends in a state whose mode is not the one that its conditions give adds a record to the log. -/
theorem committed_log_length (s : State) {u : State} (hm : u.dev.mode ≠ modeOf u) (hb : u.dev.base ≠ .off)
    (ht : u.cudex.logThreshold = 0) (hl : u.cudex.log.length < 2048) :
    (committed s u).cudex.log.length = u.cudex.log.length + 1 := by
  have hraise := raise_log_of_room (modeEvent u.dev.mode (modeOf u) (isoChangeCause u))
    (s := modDev (fun d => { closeOutage u d with mode := modeOf u, modeTick := u.tick.number }) u)
    (by simpa [closeOutage_base] using hb) ht hl
  simp only [committed, settleMode, if_neg hm, hraise, modDev_cudex, List.length_append, List.length_singleton]

/-- A response is no event. -/
theorem postResponse_log (p : Port) (sl : Fin 4) (st tick : Nat) (res : Results) (s : State) :
    (postResponse p sl st tick res s).cudex.log = s.cudex.log := by
  simp [postResponse, modSlot]

/-- Neither is the acceptance of a request that needs no owner. -/
theorem takenState_log_of_ownerless {c : CmdSpec} (h : ∀ q u, c.owners q u = []) (s : State) (p : Port) (sl : Fin 4) :
    (takenState c s p sl).cudex.log = s.cudex.log := by
  simp [takenState, h, claimAll, forEach, acceptSlot, modSlot]

/-- Where the reported mode is not the one that the conditions give, `EVENT_LOG_READ` itself makes the log longer. -/
theorem eventLogRead_log_length {s : State} {p : Port} {sl : Fin 4} (h : Granted eventLogReadSpec s p sl)
    (hm : s.dev.mode ≠ modeOf s) (hb : s.dev.base ≠ .off) (ht : s.cudex.logThreshold = 0)
    (hl : s.cudex.log.length < 2048) :
    Gives (.eventLogRead p sl) s (fun t => t.cudex.log.length = s.cudex.log.length + 1) := by
  have hlog := takenState_log_of_ownerless (c := eventLogReadSpec) (fun _ _ => rfl) s p sl
  refine gives_done h rfl rfl ?_
  rw [committed_log_length, postResponse_log, hlog]
  · rw [modeOf_congr (s := s) (by simp) (by simp) (by simp)]
    simpa using hm
  · simpa using hb
  · simpa using ht
  · simpa [postResponse_log, hlog] using hl

/-- The device reports RUN while a commanded FROZEN is in force, its log takes every event, and an `EVENT_LOG_READ` from
sequence number 0 on stands POSTED in slot 0 of MB0: opcode 0x0F01, no arguments, target 0xFFFF (Table 19.6). -/
def logReadUnderStaleMode : State :=
  modSlot .mb0 0 (fun x => { x with st := .posted, req := BitVec.ofNat 2048 0xFFFF000000000F01 })
    { dev := { mode := .run, base := .running, frozenCmd := true }
      cudex := { cup := .running, logThreshold := 0 } }

theorem granted_logReadUnderStaleMode : Granted eventLogReadSpec logReadUnderStaleMode .mb0 0 := by
  unfold Granted Asks
  decide +kernel

/-- Refutes O43: the clause of `EVENT_LOG_READ` fails in a state that reports RUN while its conditions give FROZEN. The
command takes the mode that they give (R58), and the event of that change (R497) is a new record of the log. -/
theorem not_interfaceCommandsComplete : ¬ Obligations.InterfaceCommandsComplete := by
  unfold Obligations.InterfaceCommandsComplete
  intro h
  obtain ⟨-, -, -, -, -, -, -, hread, -⟩ := h logReadUnderStaleMode .mb0 0 _ rfl
  obtain ⟨t, ht, hkept, -⟩ := hread granted_logReadUnderStaleMode
  obtain ⟨u, hu, hgrown⟩ := eventLogRead_log_length granted_logReadUnderStaleMode (by decide) (by decide) rfl (by decide)
  obtain rfl : t = u := Host.Outcome.next.inj (ht.symm.trans hu)
  rw [hkept] at hgrown
  exact Nat.succ_ne_self _ hgrown.symm

end Sys2Proof.Machine

/-! Self-test, sweeps and bus transfers (chapters 1 and 18). What an event of these commands decides stands in the bonds
(with the self-test records) and in the region under test; everything it sets off beside that leaves the bonds and the tick
generator as they are. -/

namespace Sys2Proof.Machine

/-! ### Loops -/

/-- What every step of a fold keeps, the fold keeps. -/
theorem foldl_keeps {α β γ : Type} (π : β → γ) {f : β → α → β} (h : ∀ x a, π (f x a) = π x) (l : List α) (x : β) :
    π (l.foldl f x) = π x :=
  List.foldlRecOn l f (motive := fun y => π y = π x) rfl fun y hy a _ => (h y a).trans hy

/-- What one step of a fold brings about and every other step keeps, holds after the fold. -/
theorem foldl_establishes {α β : Type} {P : β → Prop} {f : β → α → β} {l : List α} {a : α} (ha : a ∈ l)
    (hset : ∀ x, P (f x a)) (hkeep : ∀ x, P x → ∀ b ∈ l, P (f x b)) (x : β) : P (l.foldl f x) := by
  obtain ⟨before, rest, rfl⟩ := List.append_of_mem ha
  rw [List.foldl_append, List.foldl_cons]
  exact List.foldlRecOn rest f (hset _) fun y hy b hb => hkeep y hy b (by simp [hb])

theorem forEach_establishes {α : Type} {P : State → Prop} {f : α → State → State} {x : α} (hset : ∀ s, P (f x s))
    (hkeep : ∀ y s, P s → P (f y s)) {l : List α} (hx : x ∈ l) (s : State) : P (forEach l f s) :=
  foldl_establishes (f := fun t y => f y t) hx hset (fun t ht y _ => hkeep y t ht) s

theorem forEach_preserves {α : Type} {P : State → Prop} {f : α → State → State} (h : ∀ x s, P s → P (f x s))
    (l : List α) {s : State} (hs : P s) : P (forEach l f s) :=
  List.foldlRecOn l (fun t x => f x t) hs fun t ht x _ => h x t ht

theorem onlyIf_true (f : State → State) (s : State) : onlyIf true f s = f s := rfl
theorem onlyIf_false (f : State → State) (s : State) : onlyIf false f s = s := rfl

/-! ### Isolation leaves the tick generator and the bonds -/

@[simp] theorem mapOutst_tick_bonds (f : Outst → Outst) (s : State) :
    (mapOutst f s).tick = s.tick ∧ (mapOutst f s).bonds = s.bonds := ⟨rfl, rfl⟩

/-- Bank c under a holding border: the board ports alone change (R511). -/
theorem holdGpio_keeps {β : Type} (π : State → β) (hio : ∀ f u, π (modIo f u) = π u) (r : Nat) (s : State) :
    π (holdGpio r s) = π s := by
  unfold holdGpio onlyIf
  split
  · exact forBelow_keeps π _ _ _ fun _ _ => hio _ _
  · rfl

@[simp] theorem holdGpio_regions (r : Nat) (s : State) : (holdGpio r s).regions = s.regions :=
  holdGpio_keeps State.regions (fun _ _ => rfl) r s

@[simp] theorem holdGpio_tick_bonds (r : Nat) (s : State) :
    (holdGpio r s).tick = s.tick ∧ (holdGpio r s).bonds = s.bonds :=
  ⟨holdGpio_keeps State.tick (fun _ _ => rfl) r s, holdGpio_keeps State.bonds (fun _ _ => rfl) r s⟩

/-- What neither a region nor the board ports nor a free value shows, a border that starts or ends holding leaves. -/
theorem settleHold_keeps {β : Type} (π : State → β) (hregion : ∀ k f u, π (modRegion k f u) = π u)
    (hio : ∀ f u, π (modIo f u) = π u) (hfree : ∀ u, π (useFree u) = π u) (r : Nat) (s : State) :
    π (settleHold r s) = π s := by
  unfold settleHold
  dsimp only
  split
  · rfl
  · have hlatch : ∀ x u, π (latchBorder s x u) = π u := fun _ _ => hregion _ _ _
    rw [holdGpio_keeps π hio, hfree, forEach_keeps π (aroundRegion r) (latchBorder s) _ hlatch, hregion]

@[simp] theorem settleHold_tick_bonds (r : Nat) (s : State) :
    (settleHold r s).tick = s.tick ∧ (settleHold r s).bonds = s.bonds :=
  ⟨settleHold_keeps State.tick (fun _ _ _ => rfl) (fun _ _ => rfl) (fun _ => rfl) r s,
    settleHold_keeps State.bonds (fun _ _ _ => rfl) (fun _ _ => rfl) (fun _ => rfl) r s⟩

@[simp] theorem settleHold_runner (r : Nat) (s : State) : (settleHold r s).runner = s.runner :=
  settleHold_keeps State.runner (fun _ _ _ => rfl) (fun _ _ => rfl) (fun _ => rfl) r s

@[simp] theorem isolateBorder_tick_bonds (r : Nat) (c : IsoCause) (s : State) :
    (isolateBorder r c s).tick = s.tick ∧ (isolateBorder r c s).bonds = s.bonds := by simp [isolateBorder]

@[simp] theorem isolate_tick_bonds (r : Nat) (c : IsoCause) (s : State) :
    (isolate r c s).tick = s.tick ∧ (isolate r c s).bonds = s.bonds := by simp [isolate]

/-! ### What isolation changes of a region (R121) -/

theorem region_congr {s t : State} (h : t.regions = s.regions) (k : Nat) : t.region k = s.region k := by
  unfold State.region
  rw [h]

/-- A region's border cells are all that latching them changes of it. -/
theorem latchBorder_region_keeps {β : Type} (π : Region → β) (h : ∀ x b v, π { x with isoHold := b, isoVals := v } = π x)
    (s : State) (r k : Nat) (t : State) : π ((latchBorder s r t).region k) = π (t.region k) := by
  unfold latchBorder
  by_cases hk : k = r
  · subst hk
    rw [modRegion_region]
    exact h _ (t.region k).isoHold _
  · rw [modRegion_region_ne _ _ _ _ hk]

/-- Border cells that start or end holding change nothing of a region but whether they hold, and what. -/
theorem settleHold_region_keeps {β : Type} (π : Region → β) (h : ∀ x b v, π { x with isoHold := b, isoVals := v } = π x)
    (r k : Nat) (s : State) : π ((settleHold r s).region k) = π (s.region k) := by
  unfold settleHold
  dsimp only
  split
  · rfl
  · have hhold : ∀ u, (holdGpio r (useFree u)).region k = u.region k := fun u => by simp [State.region]
    rw [hhold, forEach_keeps (fun u => π (u.region k)) _ _ _ fun x u => latchBorder_region_keeps π h s x k u]
    by_cases hk : k = r
    · subst hk
      rw [modRegion_region]
      exact h _ _ (s.region k).isoVals
    · rw [modRegion_region_ne _ _ _ _ hk]

theorem settleHold_slice (r k : Nat) (s : State) : ((settleHold r s).region k).slice = (s.region k).slice :=
  settleHold_region_keeps Region.slice (fun _ _ _ => rfl) r k s

/-- An isolated region has the cause (R121). -/
theorem mem_isolate_iso (r : Nat) (c : IsoCause) (s : State) : c ∈ ((isolate r c s).region r).iso := by
  show c ∈ ((isolateBorder r c s).region r).iso
  rw [isolateBorder, settleHold_region_keeps Region.iso fun _ _ _ => rfl, modRegion_region]
  by_cases h : c ∈ (s.region r).iso <;> simp [h]

theorem isolate_slice (r : Nat) (c : IsoCause) (s : State) : ((isolate r c s).region r).slice = (s.region r).slice := by
  show ((isolateBorder r c s).region r).slice = _
  rw [isolateBorder, settleHold_slice, modRegion_region]

/-! ### The end of a slice leaves the bonds -/

@[simp] theorem startPass_bonds (r : Nat) (m : BitVec 5) (w : Option Waiter) (s : State) :
    (startPass r m w s).bonds = s.bonds := by
  unfold startPass
  split <;> simp

@[simp] theorem settleSr_bonds (r : Nat) (s : State) : (settleSr r s).bonds = s.bonds := by
  unfold settleSr
  dsimp only
  split <;> simp

@[simp] theorem checkSpines_bonds (r : Nat) (s : State) : (checkSpines r s).bonds = s.bonds :=
  forBelow_bonds _ _ _ fun _ _ => by
    dsimp only
    split <;> simp [tripSpine]

@[simp] theorem switchPlane_bonds (r p : Nat) (s : State) : (switchPlane r p s).bonds = s.bonds := by
  unfold switchPlane
  dsimp only
  split <;> simp [relatchBorder, switchPortClocks]

@[simp] theorem leaveTest_bonds (r : Nat) (j : SliceJob) (s : State) : (leaveTest r j s).bonds = s.bonds := by
  unfold leaveTest
  dsimp only
  split <;> simp

@[simp] theorem closeSlice_bonds (r : Nat) (j : SliceJob) (s : State) : (closeSlice r j s).bonds = s.bonds := by
  simp [closeSlice]

/-! ### Bond state after a change -/

/-- Is an entry of the list of bond states that of bundle `b` of region `r`? -/
def isBondOf (r : Nat) (b : BondBundle) (e : Nat × BondBundle × BondSt) : Bool := e.1 == r && e.2.1 == b

/-- The list of bond states with the state of one bundle replaced, or listed where it was not. -/
def putBond (r : Nat) (b : BondBundle) (x : BondSt) (l : List (Nat × BondBundle × BondSt)) :
    List (Nat × BondBundle × BondSt) :=
  if l.any (isBondOf r b) then l.map (fun e => if isBondOf r b e then (r, b, x) else e) else l ++ [(r, b, x)]

theorem isBondOf_iff {r : Nat} {b : BondBundle} {e : Nat × BondBundle × BondSt} :
    isBondOf r b e = true ↔ e.1 = r ∧ e.2.1 = b := by simp [isBondOf]

theorem modBond_bonds (r : Nat) (b : BondBundle) (f : BondSt → BondSt) (s : State) :
    (modBond r b f s).bonds = { s.bonds with bonds := putBond r b (f (s.bond r b)) s.bonds.bonds } := rfl

theorem bond_eq_find (s : State) (r : Nat) (b : BondBundle) :
    s.bond r b = ((s.bonds.bonds.find? (isBondOf r b)).map (·.2.2)).getD {} := by
  unfold State.bond isBondOf
  cases s.bonds.bonds.find? (fun e => e.1 == r && e.2.1 == b) <;> rfl

/-- Replacing an entry leaves which bundle it is of. -/
theorem isBondOf_replaced (r k : Nat) (b c : BondBundle) (x : BondSt) :
    (isBondOf k c ∘ fun e => if isBondOf r b e then (r, b, x) else e) = isBondOf k c := by
  funext e
  simp only [Function.comp]
  split
  next h =>
    obtain ⟨rfl, rfl⟩ := isBondOf_iff.mp h
    rfl
  next => rfl

theorem find_putBond (r : Nat) (b : BondBundle) (x : BondSt) (l : List (Nat × BondBundle × BondSt)) :
    (putBond r b x l).find? (isBondOf r b) = some (r, b, x) := by
  unfold putBond
  split
  next hany =>
    obtain ⟨e, he⟩ := Option.isSome_iff_exists.mp (List.find?_isSome.mpr (List.any_eq_true.mp hany))
    rw [List.find?_map, isBondOf_replaced, he, Option.map_some, if_pos (List.find?_some he)]
  next hany =>
    have hnone : l.find? (isBondOf r b) = none := by simpa using hany
    have hnew : isBondOf r b (r, b, x) = true := isBondOf_iff.mpr ⟨rfl, rfl⟩
    rw [List.find?_append, hnone, Option.none_or, List.find?_singleton, if_pos hnew]

theorem find_putBond_ne {r k : Nat} {b c : BondBundle} (h : k ≠ r ∨ c ≠ b) (x : BondSt)
    (l : List (Nat × BondBundle × BondSt)) : (putBond r b x l).find? (isBondOf k c) = l.find? (isBondOf k c) := by
  have hother : ∀ e, isBondOf k c e = true → isBondOf r b e = false := by
    intro e he
    obtain ⟨rfl, rfl⟩ := isBondOf_iff.mp he
    exact Bool.eq_false_iff.mpr fun hr => h.elim (fun n => n (isBondOf_iff.mp hr).1) (fun n => n (isBondOf_iff.mp hr).2)
  have hnew : isBondOf k c (r, b, x) = false :=
    Bool.eq_false_iff.mpr fun hk => Bool.eq_false_iff.mp (hother _ hk) (isBondOf_iff.mpr ⟨rfl, rfl⟩)
  unfold putBond
  split
  next =>
    rw [List.find?_map, isBondOf_replaced]
    cases hf : l.find? (isBondOf k c) with
    | none => rfl
    | some e => simp [hother e (List.find?_some hf)]
  next => simp [List.find?_append, hnew]

theorem bond_congr {s t : State} (h : t.bonds.bonds = s.bonds.bonds) (r : Nat) (b : BondBundle) :
    t.bond r b = s.bond r b := by
  unfold State.bond
  rw [h]

@[simp] theorem modBond_bond (r : Nat) (b : BondBundle) (f : BondSt → BondSt) (s : State) :
    (modBond r b f s).bond r b = f (s.bond r b) := by
  rw [bond_eq_find (modBond r b f s), modBond_bonds, find_putBond]
  rfl

theorem modBond_bond_ne {r k : Nat} {b c : BondBundle} (h : k ≠ r ∨ c ≠ b) (f : BondSt → BondSt) (s : State) :
    (modBond r b f s).bond k c = s.bond k c := by
  rw [bond_eq_find (modBond r b f s), modBond_bonds, find_putBond_ne h, ← bond_eq_find]

@[simp] theorem modBond_tick (r : Nat) (b : BondBundle) (f : BondSt → BondSt) (s : State) :
    (modBond r b f s).tick = s.tick := rfl

/-! ### Bus transfers (R11) -/

@[simp] theorem spoilLine_bonds (r p : Nat) (s : State) : (spoilLine r p s).bonds = s.bonds := by
  unfold spoilLine
  dsimp only
  split <;> simp

@[simp] theorem spoilItem_bonds (id n : Nat) (s : State) : (spoilItem id n s).bonds = s.bonds := by simp [spoilItem]

@[simp] theorem failTransfer_bonds (b : BusBundle) (s : State) : (failTransfer b s).bonds = s.bonds := by
  unfold failTransfer
  dsimp only
  split <;> simp [spoilPort, spoilFill]

@[simp] theorem waitPort_bonds (b : BusBundle) (s : State) : (waitPort b s).bonds = s.bonds := by
  unfold waitPort
  dsimp only
  split <;> simp [raiseWait]

theorem mem_bundleFaces (b : BondBundle) : b ∈ bundleFaces b := by
  cases b with
  | runnerPort p n face => cases face <;> simp [bundleFaces]
  | feedThrough n face => cases face <;> simp [bundleFaces]
  | _ => simp [bundleFaces]

/-- The faces of a bundle to be swept. -/
def queueFaces (r : Nat) (l : List BondBundle) (s : State) : State :=
  forEach l (fun f => modBond r f (fun x => { x with queued := true })) s

theorem queueFaces_queued {r : Nat} {b : BondBundle} {l : List BondBundle} (hb : b ∈ l) (s : State) :
    ((queueFaces r l s).bond r b).queued = true := by
  refine forEach_establishes (P := fun u => (u.bond r b).queued = true) (fun u => by simp) (fun c u hu => ?_) hb s
  by_cases hc : b = c
  · subst hc
    simp
  · rwa [modBond_bond_ne (.inr hc)]

theorem queueFaces_repeats (r : Nat) (l : List BondBundle) (s : State) :
    (queueFaces r l s).bonds.repeats = s.bonds.repeats :=
  forEach_keeps (fun u => u.bonds.repeats) _ _ _ fun _ _ => rfl

/-- What a repeat leaves of the bonds: the bundle waits for a sweep at each of its faces, and the repeat is counted (R11). -/
theorem repeatTransfer_bonds (b : BusBundle) (second : BitVec 33) (s : State) :
    ∃ u, (repeatTransfer b second s).bonds = (queueFaces b.region.val (bundleFaces b.bundle) u).bonds ∧
      u.bonds = { s.bonds with repeats := tmod 0 s.bonds.repeats b.region.val (fun n => satAdd 4294967295 n 1) } := by
  refine ⟨modBonds (fun x => { x with repeats := tmod 0 x.repeats b.region.val (fun n => satAdd 4294967295 n 1) })
    (onlyIf (!evenParity second) (failTransfer b) (waitPort b s)), ?_, by simp⟩
  simp [repeatTransfer, queueFaces]

/-- A transfer whose item arrives with wrong parity is repeated, and its bundle waits for a sweep. -/
theorem busTransfer_queues {s : State} {b : BusBundle} {first : BitVec 33} (second : BitVec 33) (hawake : s.awake = true)
    (hbus : isBus b.bundle = true) (hpower : busPowered s b = true) (hodd : evenParity first = false) :
    Gives (.busTransfer b first second) s (fun t => (t.bond b.region.val b.bundle).queued = true ∧
      tget 0 t.bonds.repeats b.region.val = min 4294967295 (tget 0 s.bonds.repeats b.region.val + 1)) := by
  refine gives_occurs (by simp [hawake, hbus, hpower, hodd]) ?_
  obtain ⟨u, hafter, hu⟩ := repeatTransfer_bonds b second s
  rw [← committed_bonds s] at hafter
  constructor
  · rw [bond_congr (congrArg BondsSt.bonds hafter)]
    exact queueFaces_queued (mem_bundleFaces b.bundle) u
  · rw [hafter, queueFaces_repeats, hu]
    simp [satAdd]

/-! ### Sweeps (R470, R474) -/

theorem failing_steered {x : BondSt} {pos : Nat} (hf : x.failing.contains pos = false) (hw : x.weak.contains pos = false) :
    x.steered.contains pos = false := by
  simp_all [BondSt.failing]

@[simp] theorem steerEvent_bonds (r pos : Nat) (s : State) : (steerEvent r pos s).bonds = s.bonds := by simp [steerEvent]
@[simp] theorem steerEvent_tick (r pos : Nat) (s : State) : (steerEvent r pos s).tick = s.tick := by simp [steerEvent]

/-- A failing signal or parity bond of a bundle with a free spare is steered to it (R474). -/
theorem failBond_of_spare {s : State} {r source pos : Nat} {b : BondBundle} (hpos : pos < bondsCarried b)
    (hf : (s.bond r b).failing.contains pos = false) (hw : (s.bond r b).weak.contains pos = false)
    (hroom : (s.bond r b).steered.length < bondSpares b) :
    ((failBond r source b pos s).bond r b).steered = (s.bond r b).steered ++ [pos] := by
  have hs := failing_steered hf hw
  unfold failBond
  simp only [hf, hs, if_pos hroom, if_pos hpos, Bool.false_eq_true, if_false]
  rw [bond_congr (congrArg BondsSt.bonds (steerEvent_bonds r pos _))]
  simp

theorem takeFinding_of_wrong {f : BondFinding} {source : Nat} (s : State) (hex : bundleExists f.bundle = true)
    (hpos : f.position.val < bondsCarried f.bundle) (hwrong : f.wrong = true) :
    takeFinding source f s = failBond f.region.val source f.bundle f.position.val s := by
  have hlt : ¬ bondsCarried f.bundle + bondSpares f.bundle ≤ f.position.val := by omega
  simp [takeFinding, hex, hlt, hwrong]

/-- A sweep leaves a bundle as its findings do, and takes it off the queue. -/
theorem sweepBundle_bond (b : BusBundle) (fs : List BondFinding) (s : State) :
    (sweepBundle b fs s).bond b.region.val b.bundle =
      { (forEach (fs.filter (fun f => f.region == b.region && f.bundle == b.bundle)) (takeFinding 2) s).bond b.region.val
          b.bundle with queued := false } := by
  unfold sweepBundle
  dsimp only
  generalize forEach _ (takeFinding 2) s = u
  have hfree : ∀ v, (useFree v).bond b.region.val b.bundle = v.bond b.region.val b.bundle := fun v => rfl
  have hnote : ∀ c v, (onlyIf c (noteSweep b.region.val) v).bond b.region.val b.bundle = v.bond b.region.val b.bundle :=
    fun c v => by cases c <;> rfl
  rw [hfree, hnote]
  cases hq : (u.bond b.region.val b.bundle).queued with
  | false =>
    show u.bond b.region.val b.bundle = { u.bond b.region.val b.bundle with queued := false }
    rw [← hq]
  | true => simp [onlyIf]

/-- A sweep that finds one failing signal or parity bond steers it to a free spare. -/
theorem busSweep_steers {s : State} {b : BusBundle} {f : BondFinding} (hmay : maySweep s b = true)
    (hex : bundleExists b.bundle = true) (hr : f.region = b.region) (hb : f.bundle = b.bundle) (hwrong : f.wrong = true)
    (hpos : f.position.val < bondsCarried b.bundle)
    (hf : (s.bond b.region.val b.bundle).failing.contains f.position.val = false)
    (hw : (s.bond b.region.val b.bundle).weak.contains f.position.val = false)
    (hroom : (s.bond b.region.val b.bundle).steered.length < bondSpares b.bundle) :
    Gives (.busSweep b [f]) s (fun t => (t.bond b.region.val b.bundle).queued = false ∧
      (t.bond b.region.val b.bundle).steered = (s.bond b.region.val b.bundle).steered ++ [f.position.val]) := by
  refine gives_occurs hmay ?_
  have hmine : [f].filter (fun f => f.region == b.region && f.bundle == b.bundle) = [f] := by simp [hr, hb]
  have hone : forEach [f] (takeFinding 2) s = failBond b.region.val 2 b.bundle f.position.val s := by
    show takeFinding 2 f s = _
    rw [takeFinding_of_wrong s (hb ▸ hex) (hb ▸ hpos) hwrong, hr, hb]
  rw [bond_congr (congrArg BondsSt.bonds (committed_bonds s _)), sweepBundle_bond, hmine, hone]
  exact ⟨rfl, failBond_of_spare hpos hf hw hroom⟩

/-! ### Self-test records and slices (R471) -/

theorem test_congr {s t : State} (h : t.bonds = s.bonds) (r : Nat) : t.test r = s.test r := by
  unfold State.test
  rw [h]

@[simp] theorem modTest_test (r : Nat) (f : TestSt → TestSt) (s : State) : (modTest r f s).test r = f (s.test r) := by
  simp [modTest, State.test]
@[simp] theorem modTest_tick (r : Nat) (f : TestSt → TestSt) (s : State) : (modTest r f s).tick = s.tick := rfl
@[simp] theorem modTest_region (r k : Nat) (f : TestSt → TestSt) (s : State) : (modTest r f s).region k = s.region k := rfl

/-- A region's self-test record with a slice's result (Table 18.6). -/
def TestSt.recorded (t : TestSt) (slice result excluded : Nat) : TestSt :=
  { t with
    results := lput 0 t.results slice result
    passes := if result = 1 then satAdd 4294967295 t.passes 1 else t.passes
    fails := if result = 2 then satAdd 4294967295 t.fails 1 else t.fails
    incompletes := if result = 3 then satAdd 4294967295 t.incompletes 1 else t.incompletes
    excluded := satAdd 4294967295 t.excluded excluded
    ticksSince := some 0 }

@[simp] theorem recordSlice_test (r : Nat) (j : SliceJob) (result excluded : Nat) (failing : List (Nat × Nat)) (s : State) :
    (recordSlice r j result excluded failing s).test r = (s.test r).recorded j.slice result excluded := by
  unfold recordSlice
  dsimp only
  rw [test_congr (replyOpt_bonds _ _ _ _), modTest_test]
  rfl

@[simp] theorem recordSlice_region (r k : Nat) (j : SliceJob) (result excluded : Nat) (failing : List (Nat × Nat))
    (s : State) : (recordSlice r j result excluded failing s).region k = s.region k := by
  simp [recordSlice, State.region, modTest]

/-- The next slice of the rotation changes no result and no count (R464). -/
theorem advanceSlice_test_keeps {β : Type} (π : TestSt → β)
    (h : ∀ t n p k, π { t with next := n, pattern := p, rotationTick := k } = π t) (r slice pattern : Nat) (s : State) :
    π ((advanceSlice r slice pattern s).test r) = π (s.test r) := by
  unfold advanceSlice
  dsimp only
  split
  · rfl
  · rw [modTest_test]
    exact h _ _ _ _

@[simp] theorem closeSlice_slice (r : Nat) (j : SliceJob) (s : State) : ((closeSlice r j s).region r).slice = none := by
  rw [closeSlice, settleHold_slice, modRegion_region]

@[simp] theorem closeSlice_test (r k : Nat) (j : SliceJob) (s : State) : (closeSlice r j s).test k = s.test k :=
  test_congr (closeSlice_bonds r j s) k

@[simp] theorem committed_test (s u : State) (k : Nat) : (committed s u).test k = u.test k :=
  test_congr (committed_bonds s u) k

@[simp] theorem incompleteEvent_region (r slice k : Nat) (s : State) :
    (incompleteEvent r slice s).region k = s.region k := by
  simp [incompleteEvent, State.region]

@[simp] theorem incompleteEvent_test (r slice k : Nat) (s : State) : (incompleteEvent r slice s).test k = s.test k :=
  test_congr (by simp [incompleteEvent]) k

theorem abandonSlice_of_running {s : State} {r : Nat} {j : SliceJob} (hj : (s.region r).slice = some j)
    (hrun : j.running = true) :
    abandonSlice r s = incompleteEvent r j.slice (recordSlice r j 3 0 [] (closeSlice r j s)) := by
  unfold abandonSlice
  rw [hj]
  exact if_pos hrun

/-- A slice under way ends as `endSlice` says. -/
theorem gives_sliceEnd {s : State} {r : Fin 64} {j : SliceJob} {failing : List (Nat × Nat)} {terminal : Bool}
    {P : State → Prop} (hawake : s.awake = true) (hj : (s.region r.val).slice = some j) (hrun : j.running = true)
    (hp : P (committed s (endSlice r.val j failing terminal s))) : Gives (.sliceEnd r failing terminal) s P := by
  have hexec : exec (.sliceEnd r failing terminal) s =
      occurs (s.awake && j.running) (endSlice r.val j failing terminal) s := by
    show execSliceEnd r failing terminal s = _
    unfold execSliceEnd
    rw [hj]
  unfold Gives
  rw [hexec]
  exact gives_occurs (by simp [hawake, hrun]) hp

theorem endSlice_incomplete {s : State} {r : Nat} {j : SliceJob} (failing : List (Nat × Nat))
    (hj : (s.region r).slice = some j) (hrun : j.running = true) :
    endSlice r j failing false s = incompleteEvent r j.slice (recordSlice r j 3 0 [] (closeSlice r j s)) :=
  abandonSlice_of_running hj hrun

/-- A slice that ends short of terminal count is INCOMPLETE. -/
theorem sliceEnd_incomplete {s : State} {r : Fin 64} {j : SliceJob} (failing : List (Nat × Nat)) (hawake : s.awake = true)
    (hj : (s.region r.val).slice = some j) (hrun : j.running = true) :
    Gives (.sliceEnd r failing false) s (fun t => (t.region r.val).slice = none ∧
      lget 0 (t.test r.val).results j.slice = 3 ∧
      (t.test r.val).incompletes = min 4294967295 ((s.test r.val).incompletes + 1)) := by
  refine gives_sliceEnd hawake hj hrun ?_
  rw [endSlice_incomplete failing hj hrun]
  simp [TestSt.recorded, satAdd]

theorem endSlice_pass {s : State} {r : Nat} {j : SliceJob} {failing : List (Nat × Nat)}
    (hgood : comparedFailing (s.region r).tested j.slice failing = []) :
    endSlice r j failing true s = closeSlice r j (advanceSlice r j.slice j.pattern
      (recordSlice r j 1 (excludedIn (s.region r).tested j.slice) [] s)) := by
  simp [endSlice, hgood]

theorem endSlice_fail {s : State} {r : Nat} {j : SliceJob} {failing : List (Nat × Nat)}
    (hbad : comparedFailing (s.region r).tested j.slice failing ≠ []) :
    endSlice r j failing true s = sliceFailed r j (comparedFailing (s.region r).tested j.slice failing)
      (advanceSlice r j.slice j.pattern (recordSlice r j 2 (excludedIn (s.region r).tested j.slice)
        (comparedFailing (s.region r).tested j.slice failing) s)) := by
  simp [endSlice, hbad]

/-- A slice at terminal count with nothing failing is a PASS. -/
theorem sliceEnd_passes {s : State} {r : Fin 64} {j : SliceJob} (hawake : s.awake = true)
    (hj : (s.region r.val).slice = some j) (hrun : j.running = true) :
    Gives (.sliceEnd r [] true) s (fun t => (t.region r.val).slice = none ∧
      lget 0 (t.test r.val).results j.slice = 1 ∧
      (t.test r.val).passes = min 4294967295 ((s.test r.val).passes + 1)) := by
  refine gives_sliceEnd hawake hj hrun ?_
  rw [endSlice_pass rfl]
  have hresults := advanceSlice_test_keeps TestSt.results (fun _ _ _ _ => rfl)
  have hpasses := advanceSlice_test_keeps TestSt.passes (fun _ _ _ _ => rfl)
  simp [hresults, hpasses, TestSt.recorded, satAdd]

@[simp] theorem raise_test (e : EvRec) (s : State) (k : Nat) : (raise e s).test k = s.test k :=
  test_congr (raise_bonds e s) k

theorem sliceFailed_region (r : Nat) (j : SliceJob) (bad : List (Nat × Nat)) (s : State) :
    ((sliceFailed r j bad s).region r).slice = none ∧ IsoCause.slice ∈ ((sliceFailed r j bad s).region r).iso := by
  simp [sliceFailed, isolate_slice, mem_isolate_iso]

theorem sliceFailed_test (r : Nat) (j : SliceJob) (bad : List (Nat × Nat)) (s : State) :
    (sliceFailed r j bad s).test r = { s.test r with repeatDue := some (j.slice, j.pattern) } := by
  unfold sliceFailed
  dsimp only
  rw [modTest_test, raise_test, test_congr (isolate_tick_bonds r .slice _).2]
  rfl

/-- A slice at terminal count with a failing cell compared is a FAIL: its region is isolated, and a repeat is due. -/
theorem sliceEnd_fails {s : State} {r : Fin 64} {j : SliceJob} {failing : List (Nat × Nat)} (hawake : s.awake = true)
    (hj : (s.region r.val).slice = some j) (hrun : j.running = true)
    (hbad : comparedFailing (s.region r.val).tested j.slice failing ≠ []) :
    Gives (.sliceEnd r failing true) s (fun t => (t.region r.val).slice = none ∧
      lget 0 (t.test r.val).results j.slice = 2 ∧ IsoCause.slice ∈ (t.region r.val).iso ∧
      (t.test r.val).repeatDue = some (j.slice, j.pattern)) := by
  refine gives_sliceEnd hawake hj hrun ?_
  rw [endSlice_fail hbad]
  have hresults := advanceSlice_test_keeps TestSt.results (fun _ _ _ _ => rfl)
  simp [sliceFailed_region, sliceFailed_test, hresults, TestSt.recorded]

/-! ### Copying an entry leaves the bonds -/

@[simp] theorem hardFault_bonds (pl : Place) (w : WordRef) (out : GridOut) (i : Nat) (s : State) :
    (hardFault pl w out i s).bonds = s.bonds := by
  unfold hardFault
  dsimp only
  split
  · rfl
  · split <;> simp [bumpInteg, setTracker]

@[simp] theorem noteRead_bonds (pl : Place) (w : WordRef) (out : GridOut) (injected fettler : Bool) (s : State) :
    (noteRead pl w out injected fettler s).1.bonds = s.bonds := by
  unfold noteRead
  dsimp only
  split
  · rfl
  · split <;> simp [bumpInteg]
  · split
    · simp [bumpInteg]
    · split <;> simp [bumpInteg, setTracker]

@[simp] theorem touchLine_bonds (a : Nat) (fettler : Bool) (s : State) : (touchLine a fettler s).bonds = s.bonds := by
  simp [touchLine]

@[simp] theorem touchPath_bonds (r : Range) (page : Nat) (res : PathRes) (s : State) :
    (touchPath r page res s).bonds = s.bonds :=
  forEach_bonds _ _ _ fun _ _ => forBelow_bonds _ _ _ fun _ _ => touchLine_bonds _ _ _

@[simp] theorem bumpRange_bonds (ri i n : Nat) (s : State) : (bumpRange ri i n s).bonds = s.bonds := rfl

@[simp] theorem lineFailure_bonds (ri a mid op : Nat) (s : State) : (lineFailure ri a mid op s).bonds = s.bonds := by
  simp [lineFailure]

theorem readPageLines_bonds (ri mid a off : Nat) (leaf : List Byte) (lines : List Nat) (acc : State × EntryRead) :
    (readPageLines ri mid a off leaf lines acc).1.bonds = acc.1.bonds := by
  refine foldl_keeps (fun acc : State × EntryRead => acc.1.bonds) (fun acc k => ?_) lines acc
  dsimp only
  split
  · rfl
  · split
    · simp
    · split <;> simp [touchTagged]

@[simp] theorem rangeRefusal_bonds (ri a mid : Nat) (s : State) : (rangeRefusal ri a mid s).bonds = s.bonds := by
  unfold rangeRefusal
  dsimp only
  split <;> simp

@[simp] theorem poisonAccess_bonds (ri a mid : Nat) (s : State) : (poisonAccess ri a mid s).bonds = s.bonds := by
  simp [poisonAccess]

@[simp] theorem itemFailure_bonds (ri level index mid : Nat) (s : State) :
    (itemFailure ri level index mid s).bonds = s.bonds := by simp [itemFailure, addPoison]

theorem readPage_bonds (mid a off : Nat) (acc : State × EntryRead) : (readPage mid a off acc).1.bonds = acc.1.bonds := by
  unfold readPage
  dsimp only
  split
  · rfl
  · split
    · rfl
    · split
      · exact rangeRefusal_bonds _ _ _ _
      · split
        · exact poisonAccess_bonds _ _ _ _
        · split
          · rw [itemFailure_bonds, touchPath_bonds]
          · rw [readPageLines_bonds, touchPath_bonds]

@[simp] theorem readEntry_bonds (mid i : Nat) (s : State) : (readEntry mid i s).1.bonds = s.bonds := by
  unfold readEntry
  exact foldl_keeps (fun acc : State × EntryRead => acc.1.bonds) (fun acc p => readPage_bonds mid _ _ acc) _ (s, {})

@[simp] theorem copyEntry_bonds (r i : Nat) (s : State) : (copyEntry r i s).1.bonds = s.bonds := by
  have hread := readEntry_bonds r i s
  unfold copyEntry
  split
  · rfl
  · revert hread
    rcases readEntry r i s with ⟨t, e⟩
    exact id

@[simp] theorem copyFor_bonds (r : Nat) (f : FillJob) (s : State) : (copyFor r f s).1.bonds = s.bonds := by
  unfold copyFor
  split
  · rfl
  · split <;> simp

@[simp] theorem fillReply_bonds (f : FillJob) (st n cause addr p : Nat) (s : State) :
    (fillReply f st n cause addr p s).bonds = s.bonds := by simp [fillReply]

/-- A fill's end leaves the bonds, and all self-test state with them. -/
@[simp] theorem endFill_bonds (r : Nat) (f : FillJob) (s : State) : (endFill r f s).1.bonds = s.bonds := by
  have hcopy := copyFor_bonds r f s
  unfold endFill
  split
  next heq =>
    rw [heq] at hcopy
    simpa using hcopy
  next heq =>
    rw [heq] at hcopy
    dsimp only
    split
    · simpa using hcopy
    · split <;> simpa using hcopy

/-! ### The repeat of a failed slice (R471) -/

/-- What a repeat leaves of a region's self-test record: none is owed, and a result is recorded, INCOMPLETE where terminal
count was not reached. -/
theorem repeatSlice_test (r slice pattern : Nat) (failing : List (Nat × Nat)) (terminal : Bool) (s : State) :
    ∃ result excluded, (repeatSlice r slice pattern failing terminal s).test r =
      ({ s.test r with repeatDue := none } : TestSt).recorded slice result excluded ∧ (terminal = false → result = 3) := by
  have hend : ∃ e result excluded bad u,
      repeatSlice r slice pattern failing terminal s =
        raise e (recordSlice r { slice := slice, pattern := pattern } result excluded bad u) ∧
      u.bonds = (modTest r (fun t => { t with repeatDue := none }) s).bonds ∧ (terminal = false → result = 3) :=
    ⟨_, _, _, _, _, rfl, endFill_bonds _ _ _, fun h => if_pos (by simp [h])⟩
  obtain ⟨e, result, excluded, bad, u, hrun, hu, hresult⟩ := hend
  refine ⟨result, excluded, ?_, hresult⟩
  rw [hrun, raise_test, recordSlice_test, test_congr hu, modTest_test]

/-- The repeat that was due is recorded and no longer due. -/
theorem sliceRepeat_records {s : State} {r : Fin 64} (failing : List (Nat × Nat)) (terminal : Bool) {k pat : Nat}
    (hfw : s.firmware = true) (hdue : (s.test r.val).repeatDue = some (k, pat))
    (hactive : (s.region r.val).power = .active) :
    Gives (.sliceRepeat r failing terminal) s (fun t => (t.test r.val).repeatDue = none ∧
      (terminal = false → lget 0 (t.test r.val).results k = 3)) := by
  have hexec : exec (.sliceRepeat r failing terminal) s =
      occurs (s.firmware && decide ((s.region r.val).power = .active)) (repeatSlice r.val k pat failing terminal) s := by
    show execSliceRepeat r failing terminal s = _
    unfold execSliceRepeat
    rw [hdue]
  obtain ⟨result, excluded, htest, hresult⟩ := repeatSlice_test r.val k pat failing terminal s
  unfold Gives
  rw [hexec]
  refine gives_occurs (by simp [hfw, hactive]) ?_
  rw [committed_test, htest]
  exact ⟨rfl, fun h => by simp [TestSt.recorded, hresult h]⟩

/-! ### Sweeps, retirement and steering leave the tick generator -/

@[simp] theorem bumpPower_tick (r i : Nat) (s : State) : (bumpPower r i s).tick = s.tick := rfl

@[simp] theorem fillReply_tick (f : FillJob) (st n cause addr p : Nat) (s : State) :
    (fillReply f st n cause addr p s).tick = s.tick := by simp [fillReply]

@[simp] theorem dropActiveFill_tick (r : Nat) (s : State) : (dropActiveFill r s).tick = s.tick := by
  unfold dropActiveFill
  split
  · split <;> simp
  · rfl

@[simp] theorem abandonFill_tick (r : Nat) (dest : Power) (s : State) : (abandonFill r dest s).tick = s.tick := by
  have hone : ∀ f u, (abandonOne r dest f u).tick = u.tick := fun f u => by simp [abandonOne]
  unfold abandonFill
  dsimp only
  split
  · rfl
  · split
    · rfl
    · exact forEach_tick _ _ _ hone

@[simp] theorem landEngines_tick (p : Nat → Bool) (s : State) : (landEngines p s).tick = s.tick :=
  forEach_tick _ _ _ fun _ _ => by simp

@[simp] theorem pauseSweeps_tick (r : Nat) (s : State) : (pauseSweeps r s).tick = s.tick :=
  forBelow_tick _ _ _ fun _ _ => by simp [modSweep]

@[simp] theorem checkPointers_tick (q : Nat) (s : State) : (checkPointers q s).tick = s.tick := by
  unfold checkPointers
  split <;> simp [resetQueue]

@[simp] theorem rewindRegion_tick (r : Nat) (s : State) : (rewindRegion r s).tick = s.tick :=
  forEach_tick _ _ _ fun _ _ => by simp [rewindQueue]

@[simp] theorem startEntry_tick (r : Nat) (dest : Power) (s : State) : (startEntry r dest s).tick = s.tick := by
  simp [startEntry]

@[simp] theorem lapseChange_tick (r : Nat) (d : Decision) (s : State) : (lapseChange r d s).tick = s.tick := by
  unfold lapseChange skipChange answerOverride
  dsimp only
  split <;> simp [setResult]

@[simp] theorem endPending_tick (r : Nat) (s : State) : (endPending r s).tick = s.tick := by
  have hgrace : (endGrace r s).tick = s.tick := by
    unfold endGrace
    split <;> simp
  unfold endPending endAfter
  split <;> simp [hgrace]

@[simp] theorem retireRegion_tick (r : Nat) (s : State) : (retireRegion r s).tick = s.tick := by
  unfold retireRegion
  dsimp only
  split <;> simp

@[simp] theorem barPlanes_tick (r : Nat) (d : BitVec 32) (s : State) : (barPlanes r d s).1.tick = s.tick := rfl

@[simp] theorem addDeadWire_tick (r : Nat) (d : BitVec 32) (s : State) : (addDeadWire r d s).tick = s.tick := by
  unfold addDeadWire
  split
  · rfl
  · split
    · simp [defectsFull]
    · dsimp only
      split
      · simp
      · split
        · simp
        · split <;> simp

@[simp] theorem addRetiredMemory_tick (r : Nat) (d : BitVec 32) (s : State) :
    (addRetiredMemory r d s).1.tick = s.tick := by
  unfold addRetiredMemory
  split
  · rfl
  · split
    · simp [defectsFull]
    · dsimp only
      split <;> simp

@[simp] theorem bundleFailed_tick (r source : Nat) (b : BondBundle) (s : State) :
    (bundleFailed r source b s).tick = s.tick := by
  unfold bundleFailed
  split
  · rfl
  · dsimp only
    split <;> simp

@[simp] theorem noSpare_tick (r source : Nat) (b : BondBundle) (pos : Nat) (s : State) :
    (noSpare r source b pos s).tick = s.tick := by
  unfold noSpare
  dsimp only
  split
  · simp
  · simp
  · split
    · simp
    · split <;> simp

@[simp] theorem failBond_tick (r source : Nat) (b : BondBundle) (pos : Nat) (s : State) :
    (failBond r source b pos s).tick = s.tick := by
  unfold failBond
  dsimp only
  split
  · rfl
  · split
    · rfl
    · split
      · split <;> simp
      · split
        · split <;> simp
        · simp

@[simp] theorem weakBond_tick (r : Nat) (b : BondBundle) (pos : Nat) (s : State) : (weakBond r b pos s).tick = s.tick := by
  unfold weakBond
  dsimp only
  split
  · rfl
  · split
    · split <;> simp
    · simp

@[simp] theorem takeFinding_tick (source : Nat) (f : BondFinding) (s : State) : (takeFinding source f s).tick = s.tick := by
  unfold takeFinding
  dsimp only
  split
  · rfl
  · split
    · simp
    · split <;> simp

@[simp] theorem takeOutcome_tick (o : SliceOutcome) (s : State) : (takeOutcome o s).tick = s.tick := by
  simp [takeOutcome]

/-! ### The full self-test (R478) -/

theorem sweptAll_fullTest (n : Nat) (s : State) : (forBelow n noteSweep s).bonds.fullTest = s.bonds.fullTest :=
  forBelow_keeps (fun u => u.bonds.fullTest) _ _ _ fun _ _ => rfl

theorem sweptAll_sweepTick {n r : Nat} (hr : r < n) (s : State) :
    tget 0 (forBelow n noteSweep s).bonds.sweepTick r = s.tick.number := by
  have htick : (forBelow n noteSweep s).tick = s.tick := forBelow_tick _ _ _ fun _ _ => rfl
  rw [← htick]
  refine forEach_establishes (P := fun u => tget 0 u.bonds.sweepTick r = u.tick.number) (fun u => tget_tset_same _ _ _ _)
    (fun k u hu => ?_) (List.mem_range.mpr hr) s
  by_cases hk : r = k
  · subst hk
    exact tget_tset_same _ _ _ _
  · exact (tget_tset_ne _ _ _ _ _ hk).trans hu

/-- The full self-test's end: it is no longer under way, and every region counts as swept at its tick. -/
theorem completeTest_bonds (results : List SliceOutcome) (findings : List BondFinding) (s : State) :
    (completeTest results findings s).bonds.fullTest = false ∧
      ∀ r < 64, tget 0 (completeTest results findings s).bonds.sweepTick r = s.tick.number := by
  have htick : (forEach results takeOutcome (forEach findings (takeFinding 1) s)).tick = s.tick := by simp
  unfold completeTest
  dsimp only
  rw [raise_bonds]
  refine ⟨by rw [sweptAll_fullTest]; rfl, fun r hr => ?_⟩
  rw [sweptAll_sweepTick hr, modBonds_tick, htick]

theorem testComplete_ends {s : State} (results : List SliceOutcome) (findings : List BondFinding) (hawake : s.awake = true)
    (hbase : s.dev.base = .test) (hfull : s.bonds.fullTest = true) :
    Gives (.testComplete results findings) s (fun t => t.bonds.fullTest = false ∧
      ∀ r < 64, tget 0 t.bonds.sweepTick r = s.tick.number) := by
  refine gives_occurs (by simp [hawake, hbase, hfull]) ?_
  rw [committed_bonds]
  exact completeTest_bonds results findings s

/-- Settles O20: it holds. Clause by clause, the lemma on the clause's event says what the event leaves of the bonds, of the
self-test record and of the region; all else that the event does changes none of them. -/
theorem selfTestEventsComplete : Obligations.SelfTestEventsComplete := by
  unfold Obligations.SelfTestEventsComplete
  intro s
  refine ⟨?_, ?_, ?_, ?_, ?_, ?_, ?_⟩
  · intro b first second
    exact busTransfer_queues second
  · intro b f
    exact busSweep_steers
  · intro r j failing
    exact sliceEnd_incomplete failing
  · intro r j
    exact sliceEnd_passes
  · intro r j failing
    exact sliceEnd_fails
  · intro r failing terminal k pat
    exact sliceRepeat_records failing terminal
  · intro results findings
    exact testComplete_ends results findings

end Sys2Proof.Machine

/-! The ends of a region's entries and exits (chapter 16). The end of an entry, and of an exit, is an equation for
`enterState` and `exitDone`; the region is read through the fields that neither its border cells nor its sweeps show, and
what waits at it (held requests, resets, a deferred boundary) is empty by the hypotheses and stays so. -/

namespace Sys2Proof.Machine

/-! ### The hand-shake of an entry (R439) -/

@[simp] theorem shieldRequests_regions (r : Nat) (s : State) : (shieldRequests r s).regions = s.regions := rfl

theorem isQuiescing_of_trans {s : State} {r : Nat} {dest : Power} (h : (s.region r).trans = some (.quiescing dest)) :
    isQuiescing s r = true := by
  unfold isQuiescing
  rw [h]

theorem quiesceEnds_shelved {s : State} {r : Nat} (h : (s.region r).trans = some (.quiescing .shelved)) :
    quiesceEnds r s = modRegion r (fun x => { x with trans := some .saving }) s := by
  unfold quiesceEnds
  rw [h]

theorem quiesceEnds_cold {s : State} {r : Nat} (h : (s.region r).trans = some (.quiescing .cold)) :
    quiesceEnds r s = shieldRequests r
      (modRegion r (fun x => { x with trans := some (.entering .cold), shieldClosed := true }) s) := by
  unfold quiesceEnds
  rw [h]

/-- The acknowledgement of the quiesce begins the save of a region on its way to SHELVED. -/
theorem quiesceAck_saves {s : State} {k : Fin 64} (h : (s.region k.val).trans = some (.quiescing .shelved))
    (hnone : outstandingAt k.val s = 0) :
    Gives (.quiesceAck k) s (fun t => (t.region k.val).trans = some .saving) := by
  refine gives_occurs (by simp [isQuiescing_of_trans h, hnone]) ?_
  rw [quiesceEnds_shelved h, committed_region, modRegion_region]

/-- The quiesce's time-out closes the shield of a region on its way to COLD. -/
theorem quiesceTimeout_shields {s : State} {k : Fin 64} (h : (s.region k.val).trans = some (.quiescing .cold)) :
    Gives (.quiesceTimeout k) s (fun t => (t.region k.val).trans = some (.entering .cold) ∧
      (t.region k.val).shieldClosed = true) := by
  show ∃ t, execQuiesceTimeout k s = .next t ∧ _
  unfold execQuiesceTimeout
  refine gives_occurs (isQuiescing_of_trans h) ?_
  rw [quiesceEnds_cold (by simpa using h), committed_region, region_congr (shieldRequests_regions _ _), modRegion_region]
  exact ⟨rfl, rfl⟩

/-- The end of the save keeps the active plane's working state on the shelf and closes the shield. -/
theorem shelfSaveComplete_shields {s : State} {k : Fin 64} (h : (s.region k.val).trans = some .saving) :
    Gives (.shelfSaveComplete k) s (fun t => (t.region k.val).trans = some (.entering .shelved) ∧
      (t.region k.val).shieldClosed = true ∧
      (t.region k.val).shelf = some ((s.region k.val).now.shelf (s.region k.val).brg)) := by
  show ∃ t, execShelfSaveComplete k s = .next t ∧ _
  unfold execShelfSaveComplete
  refine gives_occurs (decide_eq_true h) ?_
  dsimp only
  rw [committed_region, region_congr (shieldRequests_regions _ _), modRegion_region, saveShelf, modRegion_region]
  exact ⟨rfl, rfl, rfl⟩

/-! ### What waits at a region -/

/-- No request is held at the stop for region `r` (R21, R43). -/
def NoneHeld (r : Nat) (s : State) : Prop := ∀ o ∈ s.runner.outst, o.heldFor ≠ some r

theorem NoneHeld.congr {r : Nat} {s t : State} (h : NoneHeld r s) (hrunner : t.runner = s.runner) : NoneHeld r t := by
  unfold NoneHeld
  rw [hrunner]
  exact h

theorem noneHeld_dropEngine {r : Nat} {s : State} (h : NoneHeld r s) (id : Nat) : NoneHeld r (dropEngine id s) :=
  fun o ho => h o (List.mem_filter.mp ho).1

theorem NoneHeld.retryHeld_eq {r : Nat} {s : State} (h : NoneHeld r s) : retryHeld r s = s := by
  have hnil : s.runner.outst.filter (fun o => decide (o.heldFor = some r) && o.resp.isNone) = [] :=
    List.filter_eq_nil_iff.mpr fun o ho => by simp [h o ho]
  unfold retryHeld
  rw [hnil]
  rfl

/-- The engines of region `r` lose their power. -/
def dropEngines (r : Nat) (s : State) : State := forBelow 32 (fun j => dropEngine (32 * r + j)) s

theorem noneHeld_dropEngines {r : Nat} {s : State} (h : NoneHeld r s) : NoneHeld r (dropEngines r s) :=
  forEach_preserves (P := NoneHeld r) (f := fun j => dropEngine (32 * r + j))
    (fun _ _ hu => noneHeld_dropEngine hu _) (List.range 32) h

@[simp] theorem dropEngines_regions (r : Nat) (s : State) : (dropEngines r s).regions = s.regions :=
  forBelow_regions _ _ _ fun _ _ => rfl

@[simp] theorem pauseSweeps_runner (r : Nat) (s : State) : (pauseSweeps r s).runner = s.runner :=
  forBelow_runner _ _ _ fun _ _ => by simp [modSweep]
@[simp] theorem pauseSweeps_regions (r : Nat) (s : State) : (pauseSweeps r s).regions = s.regions :=
  forBelow_regions _ _ _ fun _ _ => by simp [modSweep]

@[simp] theorem startPass_regions (r : Nat) (m : BitVec 5) (w : Option Waiter) (s : State) :
    (startPass r m w s).regions = s.regions := by
  unfold startPass
  split <;> rfl

@[simp] theorem startPass_runner (r : Nat) (m : BitVec 5) (w : Option Waiter) (s : State) :
    (startPass r m w s).runner = s.runner := by
  unfold startPass
  split <;> rfl

@[simp] theorem resumeSweeps_regions (r : Nat) (restart : Bool) (s : State) :
    (resumeSweeps r restart s).regions = s.regions := by
  unfold resumeSweeps
  rw [onlyIf_regions, startPass_regions, ite_self]
  exact forBelow_regions _ _ _ fun _ _ => by split <;> simp [modSweep]

@[simp] theorem resumeSweeps_runner (r : Nat) (restart : Bool) (s : State) :
    (resumeSweeps r restart s).runner = s.runner := by
  unfold resumeSweeps
  rw [onlyIf_runner, startPass_runner, ite_self]
  exact forBelow_runner _ _ _ fun _ _ => by split <;> simp [modSweep]

/-- Clearing the memories of a region's Drag part writes no region and no request (R213). -/
theorem clearDragMemories_keeps {β : Type} (π : State → β) (hbram : ∀ m f u, π (modBram m f u) = π u)
    (hdsp : ∀ e f u, π (modEngine e f u) = π u) (hinteg : ∀ f u, π (modInteg f u) = π u)
    (hingot : ∀ f u, π (modIngot f u) = π u) (r : Nat) (s : State) : π (clearDragMemories r s) = π s := by
  have hclear : ∀ m u, π (clearBram m u) = π u := fun m u => by
    rw [clearBram, noteCleared, setTracker, hinteg, hbram]
  unfold clearDragMemories
  dsimp only
  rw [noteCleared, setTracker, hinteg, clearIngot, hingot, forBelow_keeps π 32 _ _ fun _ _ => hdsp _ _ _,
    forBelow_keeps π 256 _ _ fun _ _ => hclear _ _]

@[simp] theorem clearDragMemories_regions (r : Nat) (s : State) : (clearDragMemories r s).regions = s.regions :=
  clearDragMemories_keeps State.regions (fun _ _ _ => rfl) (fun _ _ _ => rfl) (fun _ _ => rfl) (fun _ _ => rfl) r s

@[simp] theorem clearDragMemories_runner (r : Nat) (s : State) : (clearDragMemories r s).runner = s.runner :=
  clearDragMemories_keeps State.runner (fun _ _ _ => rfl) (fun _ _ _ => rfl) (fun _ _ => rfl) (fun _ _ => rfl) r s

/-! ### The planes of a region -/

/-- A change of a plane changes a region's planes only. -/
theorem modPlane_keeps {β : Type} (π : Region → β)
    (h : ∀ x a b c d, π { x with plane0 := a, plane1 := b, plane2 := c, plane3 := d } = π x) (x : Region) (p : Nat)
    (f : Plane → Plane) : π (x.modPlane p f) = π x := by
  unfold Region.modPlane
  split <;> exact h x _ _ _ _

theorem modPlane_plane {p : Nat} (hp : p < 4) (x : Region) (f : Plane → Plane) :
    (x.modPlane p f).plane p = f (x.plane p) := by
  match p, hp with
  | 0, _ | 1, _ | 2, _ | 3, _ => rfl

theorem modPlane_plane_ne {p q : Nat} (hp : p < 4) (hq : q < 4) (h : q ≠ p) (x : Region) (f : Plane → Plane) :
    (x.modPlane p f).plane q = x.plane q := by
  match p, q, hp, hq with
  | 0, 1, _, _ | 0, 2, _, _ | 0, 3, _, _ | 1, 0, _, _ | 1, 2, _, _ | 1, 3, _, _ => rfl
  | 2, 0, _, _ | 2, 1, _, _ | 2, 3, _, _ | 3, 0, _, _ | 3, 1, _, _ | 3, 2, _, _ => rfl
  | 0, 0, _, _ | 1, 1, _, _ | 2, 2, _, _ | 3, 3, _, _ => exact absurd rfl h

/-! ### Entries -/

/-- Plane `p` of a region that enters SHELVED or COLD: lost, but the active plane in SHELVED (Table 6.9). -/
def Region.losePlane (dest : Power) (x : Region) (p : Nat) : Region :=
  if dest = .shelved ∧ p = x.active then x
  else x.modPlane p (fun q => { q with st := if x.retired then .barred else .invalid })

/-- A region as its entry into `dest` leaves it, but for its border cells. -/
def Region.entered (dest : Power) (x : Region) : Region :=
  let x := if dest.deep then (List.range 4).foldl (Region.losePlane dest) x else x
  { x with
    power := dest, trans := none, shieldClosed := dest.deep
    activeBarred := x.activeBarred && decide (dest ≠ .cold)
    brg := if dest = .cold then [] else x.brg }

theorem enterState_eq (r : Nat) (dest : Power) (s : State) :
    enterState r dest s = pauseSweeps r (settleHold r (onlyIf dest.deep (dropEngines r)
      (modRegion r (Region.entered dest) (bumpPower r (dest.code - 1) s)))) := rfl

/-- Losing a plane changes a region's planes only. -/
theorem losePlane_keeps {β : Type} (π : Region → β)
    (h : ∀ x a b c d, π { x with plane0 := a, plane1 := b, plane2 := c, plane3 := d } = π x) (dest : Power) (x : Region)
    (p : Nat) : π (x.losePlane dest p) = π x := by
  unfold Region.losePlane
  split
  · rfl
  · exact modPlane_keeps π h x p _

/-- An entry changes no more of a region than its planes and its power state. -/
theorem entered_keeps {β : Type} (π : Region → β)
    (h : ∀ x a b c d, π { x with plane0 := a, plane1 := b, plane2 := c, plane3 := d } = π x)
    (h' : ∀ x p t c a b, π { x with power := p, trans := t, shieldClosed := c, activeBarred := a, brg := b } = π x)
    (dest : Power) (x : Region) : π (x.entered dest) = π x := by
  unfold Region.entered
  refine (h' _ _ _ _ _ _).trans ?_
  split
  · exact foldl_keeps π (losePlane_keeps π h dest) _ x
  · rfl

/-- Which planes an entry loses depends on nothing that it changes. -/
theorem losePlane_active_retired (dest : Power) (x : Region) (q : Nat) :
    (x.losePlane dest q).active = x.active ∧ (x.losePlane dest q).retired = x.retired :=
  ⟨losePlane_keeps Region.active (fun _ _ _ _ _ => rfl) dest x q,
    losePlane_keeps Region.retired (fun _ _ _ _ _ => rfl) dest x q⟩

/-- Plane `p` has lost what an entry into `dest` makes it lose. -/
def Region.Lost (dest : Power) (p : Nat) (x : Region) : Prop :=
  (dest = .cold ∨ p ≠ x.active) → (x.plane p).st = if x.retired then PlaneSt.barred else .invalid

theorem losePlane_lost {dest : Power} {p : Nat} (hp : p < 4) (x : Region) : (x.losePlane dest p).Lost dest p := by
  obtain ⟨hactive, hretired⟩ := losePlane_active_retired dest x p
  unfold Region.Lost
  rw [hactive, hretired]
  intro h
  have hlose : ¬ (dest = .shelved ∧ p = x.active) := by
    rintro ⟨rfl, rfl⟩
    exact h.elim (fun h => nomatch h) (fun h => h rfl)
  rw [Region.losePlane, if_neg hlose, modPlane_plane hp]

theorem Region.Lost.losePlane {dest : Power} {p q : Nat} {x : Region} (h : x.Lost dest p) (hp : p < 4) (hq : q < 4) :
    (x.losePlane dest q).Lost dest p := by
  by_cases hpq : p = q
  · subst hpq
    exact losePlane_lost hp x
  · obtain ⟨hactive, hretired⟩ := losePlane_active_retired dest x q
    have hplane : (x.losePlane dest q).plane p = x.plane p := by
      unfold Region.losePlane
      split
      · rfl
      · exact modPlane_plane_ne hq hp hpq x _
    unfold Region.Lost
    rw [hactive, hretired, hplane]
    exact h

/-- An entry into SHELVED or COLD loses every plane but the active one of a SHELVED region (Table 6.9). -/
theorem entered_lost {dest : Power} {p : Nat} {x : Region} (hdeep : dest.deep = true) (hp : p < 4)
    (h : dest = .cold ∨ p ≠ x.active) :
    ((x.entered dest).plane p).st = if x.retired then PlaneSt.barred else .invalid := by
  have hlost := foldl_establishes (P := Region.Lost dest p) (f := Region.losePlane dest) (List.mem_range.mpr hp)
    (losePlane_lost hp) (fun y hy q hq => hy.losePlane hp (List.mem_range.mp hq)) x
  have hplane : ∀ y : Region, y.Lost dest p → y.active = x.active → y.retired = x.retired →
      (y.plane p).st = if x.retired then PlaneSt.barred else .invalid := by
    intro y hy ha hr
    rw [← hr]
    exact hy (ha ▸ h)
  unfold Region.entered
  rw [if_pos hdeep]
  exact hplane _ hlost (foldl_keeps Region.active (fun y q => (losePlane_active_retired dest y q).1) _ x)
    (foldl_keeps Region.retired (fun y q => (losePlane_active_retired dest y q).2) _ x)

/-! ### What is pending at the end of an entry or an exit -/

/-- A region with nothing pending that the end of an entry or an exit would begin: no request held, no reset and no deferred
boundary. -/
structure Unburdened (r : Nat) (s : State) : Prop where
  held : NoneHeld r s
  resets : (s.region r).resets = []
  deferred : (s.region r).deferred = none

theorem Unburdened.resetWaits_eq {r : Nat} {s : State} (h : Unburdened r s) : resetWaits s r = false := by
  rw [resetWaits, h.resets]
  rfl

theorem Unburdened.settleDeferred_eq {r : Nat} {s : State} (h : Unburdened r s) : settleDeferred r s = s := by
  have htake : takeDeferred r s = s := by
    unfold takeDeferred
    dsimp only
    rw [h.deferred]
  unfold settleDeferred onlyIf
  rw [htake, ite_self]

theorem bumpPower_region_keeps {β : Type} (π : Region → β) (h : ∀ x l, π { x with powerCnt := l } = π x) (r i : Nat)
    (s : State) : π ((bumpPower r i s).region r) = π (s.region r) := by
  rw [bumpPower, modRegion_region]
  exact h _ _

/-- A region at the end of its entry, but for its border cells and the count of entries. -/
theorem enterState_region {β : Type} (π : Region → β) (h : ∀ x b v, π { x with isoHold := b, isoVals := v } = π x)
    (r : Nat) (dest : Power) (s : State) :
    π ((enterState r dest s).region r) = π (((bumpPower r (dest.code - 1) s).region r).entered dest) := by
  rw [enterState_eq, region_congr (pauseSweeps_regions _ _), settleHold_region_keeps π h]
  have hdrop : ∀ c u, (onlyIf c (dropEngines r) u).region r = u.region r := fun c u => by
    unfold onlyIf
    split
    · exact region_congr (dropEngines_regions r u) r
    · rfl
  rw [hdrop, modRegion_region]

theorem noneHeld_enterState {r : Nat} {s : State} (h : NoneHeld r s) (dest : Power) : NoneHeld r (enterState r dest s) := by
  rw [enterState_eq]
  have hu : NoneHeld r (modRegion r (Region.entered dest) (bumpPower r (dest.code - 1) s)) := h.congr rfl
  have hdrop : ∀ c u, NoneHeld r u → NoneHeld r (onlyIf c (dropEngines r) u) := fun c u hu => by
    unfold onlyIf
    split
    · exact noneHeld_dropEngines hu
    · exact hu
  exact (hdrop dest.deep _ hu).congr (by simp)

/-- The end of an entry leaves nothing to begin at a region at which nothing waited. -/
theorem unburdened_enterState {r : Nat} {s : State} (h : Unburdened r s) (dest : Power) :
    Unburdened r (enterState r dest s) where
  held := noneHeld_enterState h.held dest
  resets := by
    rw [enterState_region Region.resets fun _ _ _ => rfl,
      entered_keeps Region.resets (fun _ _ _ _ _ => rfl) (fun _ _ _ _ _ _ => rfl),
      bumpPower_region_keeps Region.resets fun _ _ => rfl, h.resets]
  deferred := by
    rw [enterState_region Region.deferred fun _ _ _ => rfl,
      entered_keeps Region.deferred (fun _ _ _ _ _ => rfl) (fun _ _ _ _ _ _ => rfl),
      bumpPower_region_keeps Region.deferred fun _ _ => rfl, h.deferred]

/-- The end of an entry at which nothing waits leaves the region as `enterState` does. -/
theorem powerEntryComplete_region {s : State} {k : Fin 64} {dest : Power}
    (h : (s.region k.val).trans = some (.entering dest)) (hready : dest.deep = true ∨ drained k.val s = true)
    (hfree : Unburdened k.val s) :
    Gives (.powerEntryComplete k) s (fun t => t.region k.val = (enterState k.val dest s).region k.val) := by
  have hu := unburdened_enterState hfree dest
  show ∃ t, execPowerEntryComplete k s = .next t ∧ _
  unfold execPowerEntryComplete
  rw [h]
  refine gives_occurs (by simpa using hready) ?_
  dsimp only
  rw [hu.held.retryHeld_eq, hu.resetWaits_eq]
  show (committed s (settleDeferred k.val (enterState k.val dest s))).region k.val = _
  rw [hu.settleDeferred_eq, committed_region]

/-! ### Exits -/

/-- A region at the end of an exit that leaves it ACTIVE, its plane kept (R442). -/
def Region.exited (load : Bool) (x : Region) : Region :=
  let x := x.modPlane x.active (fun q => { q with st := .active })
  { x with power := .active, trans := none, shieldClosed := false, clockOn := !load }

/-- A region that falls to COLD at the end of an exit (R193, R442). -/
def Region.fallen (x : Region) : Region :=
  let x := (List.range 4).foldl (fun x p =>
    x.modPlane p (fun q => { q with st := if x.retired then .barred else .invalid })) x
  { x with
    power := .cold, trans := none, shieldClosed := true, shelf := none, activeBarred := false, brg := [] }

/-- The end of an exit from a shallow state: the plane is as it was, and the region runs on. -/
theorem exitDone_shallow {left : Power} (h : left.deep = false) (r : Nat) (s : State) :
    exitDone r left none s =
      settleHold r (resumeSweeps r false (modRegion r (Region.exited (s.region r).loadingActive) s)) := by
  match left, h with
  | .active, _ | .gated, _ | .banked, _ | .damped, _ => rfl

/-- The end of an exit from COLD with no image recorded: the Drag memories are cleared, and the region is COLD again. -/
theorem exitDone_unrecorded {r : Nat} {s : State} (hrecord : (s.region r).record = none)
    (hload : (s.region r).loadingActive = false) :
    exitDone r .cold none s = settleHold r (resumeSweeps r true (fallCold r
      (clearDragMemories r (modRegion r (fun x => { x with brg := [] }) (dropEngines r s))))) := by
  have hcold : ∀ u, ((fallCold r u).region r).power = .cold := fun u => by rw [fallCold, modRegion_region]
  unfold exitDone
  simp only [hrecord, hload, hcold, Power.deep, onlyIf_true, onlyIf_false, reduceCtorEq, decide_true, decide_false,
    Bool.not_false, Bool.and_self, Bool.and_false, if_true, or_false]
  rfl

theorem fallCold_eq (r : Nat) (s : State) : fallCold r s = modRegion r Region.fallen s := rfl

/-- The end of a shallow exit changes no more of a region than its planes and its power state. -/
theorem exited_keeps {β : Type} (π : Region → β)
    (h : ∀ x a b c d, π { x with plane0 := a, plane1 := b, plane2 := c, plane3 := d } = π x)
    (h' : ∀ x p t c o, π { x with power := p, trans := t, shieldClosed := c, clockOn := o } = π x)
    (load : Bool) (x : Region) : π (x.exited load) = π x :=
  (h' _ _ _ _ _).trans (modPlane_keeps π h x _ _)

/-- The fall to COLD changes no more of a region than its planes, its power state and its shelf. -/
theorem fallen_keeps {β : Type} (π : Region → β)
    (h : ∀ x a b c d, π { x with plane0 := a, plane1 := b, plane2 := c, plane3 := d } = π x)
    (h' : ∀ x p t c f a b, π { x with
      power := p, trans := t, shieldClosed := c, shelf := f, activeBarred := a, brg := b } = π x)
    (x : Region) : π x.fallen = π x :=
  (h' _ _ _ _ _ _ _).trans (foldl_keeps π (fun y _ => modPlane_keeps π h y _ _) _ x)

/-- What no border cell and no sweep shows of a region whose exit has ended. -/
theorem settled_region {β : Type} (π : Region → β) (h : ∀ x b v, π { x with isoHold := b, isoVals := v } = π x) (r : Nat)
    (restart : Bool) (s : State) : π ((settleHold r (resumeSweeps r restart s)).region r) = π (s.region r) := by
  rw [settleHold_region_keeps π h, region_congr (resumeSweeps_regions r restart s)]

theorem exitDone_shallow_region {β : Type} (π : Region → β) (h : ∀ x b v, π { x with isoHold := b, isoVals := v } = π x)
    {left : Power} (hleft : left.deep = false) (r : Nat) (s : State) :
    π ((exitDone r left none s).region r) = π ((s.region r).exited (s.region r).loadingActive) := by
  rw [exitDone_shallow hleft, settled_region π h, modRegion_region]

theorem exitDone_unrecorded_region {β : Type} (π : Region → β)
    (h : ∀ x b v, π { x with isoHold := b, isoVals := v } = π x) {r : Nat} {s : State}
    (hrecord : (s.region r).record = none) (hload : (s.region r).loadingActive = false) :
    π ((exitDone r .cold none s).region r) = π (Region.fallen { s.region r with brg := [] }) := by
  rw [exitDone_unrecorded hrecord hload, settled_region π h, fallCold_eq, modRegion_region,
    region_congr (clearDragMemories_regions _ _), modRegion_region, region_congr (dropEngines_regions _ _)]

theorem unburdened_exitDone_shallow {r : Nat} {s : State} (h : Unburdened r s) {left : Power} (hleft : left.deep = false) :
    Unburdened r (exitDone r left none s) where
  held := by
    rw [exitDone_shallow hleft]
    exact h.held.congr (by simp)
  resets := by
    rw [exitDone_shallow_region Region.resets (fun _ _ _ => rfl) hleft,
      exited_keeps Region.resets (fun _ _ _ _ _ => rfl) (fun _ _ _ _ _ => rfl), h.resets]
  deferred := by
    rw [exitDone_shallow_region Region.deferred (fun _ _ _ => rfl) hleft,
      exited_keeps Region.deferred (fun _ _ _ _ _ => rfl) (fun _ _ _ _ _ => rfl), h.deferred]

theorem unburdened_exitDone_unrecorded {r : Nat} {s : State} (h : Unburdened r s) (hrecord : (s.region r).record = none)
    (hload : (s.region r).loadingActive = false) : Unburdened r (exitDone r .cold none s) where
  held := by
    rw [exitDone_unrecorded hrecord hload]
    exact (noneHeld_dropEngines h.held).congr (by
      rw [settleHold_runner, resumeSweeps_runner, fallCold_eq, modRegion_runner, clearDragMemories_runner, modRegion_runner])
  resets := by
    rw [exitDone_unrecorded_region Region.resets (fun _ _ _ => rfl) hrecord hload,
      fallen_keeps Region.resets (fun _ _ _ _ _ => rfl) (fun _ _ _ _ _ _ _ => rfl), h.resets]
  deferred := by
    rw [exitDone_unrecorded_region Region.deferred (fun _ _ _ => rfl) hrecord hload,
      fallen_keeps Region.deferred (fun _ _ _ _ _ => rfl) (fun _ _ _ _ _ _ _ => rfl), h.deferred]

theorem takeAfter_of_none {r : Nat} {s : State} (h : (s.region r).after = none) : takeAfter r s = s := by
  unfold takeAfter
  dsimp only
  rw [h]

/-- The end of an exit after which nothing waits leaves the region as `exitDone` does. -/
theorem powerExitComplete_region {s : State} {k : Fin 64} {left : Power} (h : (s.region k.val).trans = some (.exiting left))
    (hfree : Unburdened k.val (exitDone k.val left none s))
    (hafter : ((exitDone k.val left none s).region k.val).after = none) :
    Gives (.powerExitComplete k none) s (fun t => t.region k.val = (exitDone k.val left none s).region k.val) := by
  show ∃ t, execPowerExitComplete k none s = .next t ∧ _
  unfold execPowerExitComplete
  rw [h]
  refine gives_occurs rfl ?_
  dsimp only
  generalize exitDone k.val left none s = u at hfree hafter ⊢
  rw [hfree.held.retryHeld_eq, hfree.resetWaits_eq]
  show (committed s (settleDeferred k.val (onlyIf (resetWaits (takeAfter k.val u) k.val &&
    ((takeAfter k.val u).region k.val).trans.isNone) (beginReset k.val) (takeAfter k.val u)))).region k.val = _
  rw [takeAfter_of_none hafter, hfree.resetWaits_eq]
  show (committed s (settleDeferred k.val u)).region k.val = _
  rw [hfree.settleDeferred_eq, committed_region]

/-! ### The ends of entries and exits complete (R19, R441, R442) -/

theorem gives_imp {i : Instr} {s : State} {P Q : State → Prop} (h : Gives i s P) (hpq : ∀ t, P t → Q t) : Gives i s Q :=
  Exists.imp (fun t ht => ⟨ht.1, hpq t ht.2⟩) h

/-- An entry ends in its state, its planes lost as the state loses them. -/
theorem powerEntryComplete_enters {s : State} {k : Fin 64} {dest : Power}
    (h : (s.region k.val).trans = some (.entering dest)) (hready : dest.deep = true ∨ drained k.val s = true)
    (hheld : NoneHeld k.val s) (hresets : (s.region k.val).resets = []) (hdeferred : (s.region k.val).deferred = none) :
    Gives (.powerEntryComplete k) s (fun t => (t.region k.val).power = dest ∧ (t.region k.val).trans = none ∧
      (dest.deep = true → ∀ p < 4, (dest = .cold ∨ p ≠ (s.region k.val).active) →
        ((t.region k.val).plane p).st = if (s.region k.val).retired then PlaneSt.barred else .invalid)) := by
  refine gives_imp (powerEntryComplete_region h hready ⟨hheld, hresets, hdeferred⟩) fun t ht => ?_
  rw [ht]
  refine ⟨?_, ?_, fun hdeep p hp hlose => ?_⟩
  · exact enterState_region Region.power (fun _ _ _ => rfl) _ _ _
  · exact enterState_region Region.trans (fun _ _ _ => rfl) _ _ _
  · have hplane : ∀ x b v, (Region.plane { x with isoHold := b, isoVals := v } p).st = (Region.plane x p).st :=
      fun _ _ _ => rfl
    rw [enterState_region (fun x => (x.plane p).st) hplane]
    rw [← bumpPower_region_keeps Region.retired (fun _ _ => rfl) k.val (dest.code - 1) s]
    refine entered_lost hdeep hp ?_
    rwa [bumpPower_region_keeps Region.active fun _ _ => rfl]

/-- An exit from a shallow state ends ACTIVE, the fabric clock on unless the active plane is being loaded. -/
theorem powerExitComplete_wakes {s : State} {k : Fin 64} {left : Power} (h : (s.region k.val).trans = some (.exiting left))
    (hleft : left.deep = false) (hheld : NoneHeld k.val s) (hresets : (s.region k.val).resets = [])
    (hdeferred : (s.region k.val).deferred = none) (hafter : (s.region k.val).after = none) :
    Gives (.powerExitComplete k none) s (fun t => (t.region k.val).power = .active ∧ (t.region k.val).trans = none ∧
      (t.region k.val).clockOn = !(s.region k.val).loadingActive) := by
  have hkept : ((exitDone k.val left none s).region k.val).after = none := by
    rw [exitDone_shallow_region Region.after (fun _ _ _ => rfl) hleft,
      exited_keeps Region.after (fun _ _ _ _ _ => rfl) (fun _ _ _ _ _ => rfl), hafter]
  refine gives_imp (powerExitComplete_region h
    (unburdened_exitDone_shallow ⟨hheld, hresets, hdeferred⟩ hleft) hkept) fun t ht => ?_
  rw [ht]
  exact ⟨exitDone_shallow_region Region.power (fun _ _ _ => rfl) hleft _ _,
    exitDone_shallow_region Region.trans (fun _ _ _ => rfl) hleft _ _,
    exitDone_shallow_region Region.clockOn (fun _ _ _ => rfl) hleft _ _⟩

/-- An exit from COLD with no image recorded ends in COLD. -/
theorem powerExitComplete_falls {s : State} {k : Fin 64} (h : (s.region k.val).trans = some (.exiting .cold))
    (hrecord : (s.region k.val).record = none) (hload : (s.region k.val).loadingActive = false)
    (hheld : NoneHeld k.val s) (hresets : (s.region k.val).resets = []) (hdeferred : (s.region k.val).deferred = none)
    (hafter : (s.region k.val).after = none) :
    Gives (.powerExitComplete k none) s (fun t => (t.region k.val).power = .cold ∧ (t.region k.val).trans = none) := by
  have hkept : ((exitDone k.val .cold none s).region k.val).after = none := by
    rw [exitDone_unrecorded_region Region.after (fun _ _ _ => rfl) hrecord hload,
      fallen_keeps Region.after (fun _ _ _ _ _ => rfl) (fun _ _ _ _ _ _ _ => rfl), hafter]
  refine gives_imp (powerExitComplete_region h
    (unburdened_exitDone_unrecorded ⟨hheld, hresets, hdeferred⟩ hrecord hload) hkept) fun t ht => ?_
  rw [ht]
  exact ⟨exitDone_unrecorded_region Region.power (fun _ _ _ => rfl) hrecord hload,
    exitDone_unrecorded_region Region.trans (fun _ _ _ => rfl) hrecord hload⟩

/-- Settles O34: it holds. The hand-shakes are equations for `quiesceEnds` and the save; the ends of an entry and of an exit
are those of `enterState` and `exitDone`, read field by field, since nothing waits at the region that they would begin. -/
theorem regionPowerEventsComplete : Obligations.RegionPowerEventsComplete := by
  unfold Obligations.RegionPowerEventsComplete
  rintro s k r rfl
  refine ⟨?_, ?_, ?_, ?_, ?_, ?_⟩
  · exact quiesceAck_saves
  · exact quiesceTimeout_shields
  · exact shelfSaveComplete_shields
  · intro dest
    exact powerEntryComplete_enters
  · intro left
    exact powerExitComplete_wakes
  · exact powerExitComplete_falls

end Sys2Proof.Machine

/-! A request that times out while its region waits to sleep (R41, R91, R439), and the refutation of RunnerEventsComplete.
Its clause of `RUNNER_TIMEOUT` says that a port which takes a line is handed the `TIMEOUT` at once. But the fabric clock of a
region that enters GATED runs only until no request of its ports waits for an answer: the time-out withdraws the last one,
the clock stops with it, and the port takes no line any more. -/

namespace Sys2Proof.Machine

/-- A fabric port that takes no line leaves the `TIMEOUT` with the request, and the response channels as they were (R38,
R91). -/
theorem owedTimeout_rs_of_port_stopped {o : Outst} {r : Fin 64} {p : Fin 8} {s : State}
    (hsrc : o.hdr.src = .fabric r p) (hport : portTakes s (.fabric r p) = false) :
    (owedTimeout o s).runner.rs = s.runner.rs := by
  unfold owedTimeout
  simp [hsrc, hport, pushOutst]

theorem leaveGone_rs (o : Outst) (s : State) : (leaveGone o s).runner.rs = s.runner.rs := by
  unfold leaveGone leaveLines mapOutst
  dsimp only
  rw [useFree_runner]
  split <;> rfl

/-- A remote request is withdrawn when it times out: nothing of its number is left (R42). -/
theorem leaveGone_of_remote {o : Outst} (s : State) (h : 2 ^ 48 ≤ o.hdr.addr.toNat) :
    leaveGone o s = useFree (leaveLines o [] s) := by
  unfold leaveGone
  simp only [decide_eq_true h, Bool.true_or, if_true]

/-- The response channels after the time-out of a request whose port the time-out itself stops. -/
theorem timeOutRequest_rs_of_port_stopped {o : Outst} {r : Fin 64} {p : Fin 8} {s : State} (hkept : o.discard = false)
    (hsrc : o.hdr.src = .fabric r p)
    (hport : portTakes (leaveGone o (raise (timeoutEvent o.hdr) s)) (.fabric r p) = false) :
    (timeOutRequest o s).runner.rs = s.runner.rs := by
  unfold timeOutRequest
  simp only [hkept, Bool.false_eq_true, if_false]
  rw [owedTimeout_rs_of_port_stopped hsrc hport, leaveGone_rs, raise_runner]

/-- Runner port 0 of region 0 is placed in the active plane, its `RS_READY` tied to a look-up table of ones: the signal comes
through the crossbar of block 964. -/
def portReadyUse : PlaneUse :=
  { runnerPorts := [0]
    cells := [(32 * 964, { lut := BitVec.allOnes 64 })]
    xbar := [(964, .port (.runner 0) 649, .cell 0 .la)] }

/-- A READ of node 0's first line by that port, which the Sprue engine has not accepted. -/
def waitingRead : Outst := { hdr := ⟨.fabric 0 0, 2 ^ 48, 0, 0, 0, 0⟩, op := .read }

/-- Region 0 enters GATED and waits for its one outstanding request. -/
def drainingRegion : State :=
  { dev := { mode := .run, base := .running }
    regions := [(0, { power := .active, trans := some (.entering .gated), clockOn := true, shieldClosed := false,
                      iso := [], plane0 := { use := portReadyUse } })]
    runner := { outst := [waitingRead] } }

theorem drainingRegion_port_takes : portTakes drainingRegion (.fabric 0 0) = true := by decide +kernel

/-- With the request gone the region is drained, and its fabric clock has stopped (R439). -/
theorem drainingRegion_port_stops :
    portTakes (leaveGone waitingRead (raise (timeoutEvent waitingRead.hdr) drainingRegion)) (.fabric 0 0) = false := by
  rw [leaveGone_of_remote _ (by decide)]
  decide +kernel

/-- Refutes O33: the clause of `RUNNER_TIMEOUT` fails for a fabric port whose last request times out while its region enters
GATED. The port takes a line before the time-out and none after it, so the `TIMEOUT` is not on its response channel. -/
theorem not_runnerEventsComplete : ¬ Obligations.RunnerEventsComplete := by
  unfold Obligations.RunnerEventsComplete
  intro h
  obtain ⟨-, htimeout, -⟩ := h drainingRegion
  obtain ⟨t, ht, hline, -⟩ := htimeout (.fabric 0 0) 0 waitingRead rfl rfl nofun nofun rfl (by decide)
    drainingRegion_port_takes
  obtain rfl : committed drainingRegion (timeOutRequest waitingRead drainingRegion) = t := Host.Outcome.next.inj ht
  rw [committed_runner, timeOutRequest_rs_of_port_stopped rfl rfl drainingRegion_port_stops] at hline
  exact absurd (congrArg RsPort.valid hline) (by decide)

end Sys2Proof.Machine

/-! What a command leaves: each function that changes the state, down to those that write one component, leaves every
part that it does not write. A lemma `same_f` says so as an equivalence, so that `simp` takes a composition of functions
apart; its hypothesis `hp` lists the parts that `f` may write. The frame of a command follows from its meaning's. -/

namespace Sys2Proof.Machine

/-! ### Branches and loops -/
section
variable {part : Part} {s₀ s : State}

@[simp] theorem same_ite (c : Prop) [Decidable c] (a b : State) :
    part.same s₀ (if c then a else b) ↔ if c then part.same s₀ a else part.same s₀ b := by split <;> rfl

@[simp] theorem same_ite_fst {α : Type} (c : Prop) [Decidable c] (a b : State × α) :
    part.same s₀ (if c then a else b).1 ↔ if c then part.same s₀ a.1 else part.same s₀ b.1 := by split <;> rfl

@[simp] theorem same_ite_snd {α : Type} (c : Prop) [Decidable c] (a b : α × State) :
    part.same s₀ (if c then a else b).2 ↔ if c then part.same s₀ a.2 else part.same s₀ b.2 := by split <;> rfl

theorem same_foldl {α : Type} {f : State → α → State} (h : ∀ u x, part.same s₀ (f u x) ↔ part.same s₀ u) (l : List α) :
    part.same s₀ (l.foldl f s) ↔ part.same s₀ s := by
  induction l generalizing s with
  | nil => rfl
  | cons x l ih => exact ih.trans (h s x)

@[simp] theorem same_forEach {α : Type} {f : α → State → State} (h : ∀ x u, part.same s₀ (f x u) ↔ part.same s₀ u)
    (l : List α) : part.same s₀ (forEach l f s) ↔ part.same s₀ s := same_foldl (fun u x => h x u) l

@[simp] theorem same_forBelow {f : Nat → State → State} (h : ∀ x u, part.same s₀ (f x u) ↔ part.same s₀ u) (n : Nat) :
    part.same s₀ (forBelow n f s) ↔ part.same s₀ s := same_foldl (fun u x => h x u) _

@[simp] theorem same_onlyIf (c : Bool) (f : State → State) :
    part.same s₀ (onlyIf c f s) ↔ if c then part.same s₀ (f s) else part.same s₀ s := same_ite (c = true) (f s) s

theorem same_foldl_fst {α β : Type} {f : State × β → α → State × β}
    (h : ∀ u x, part.same s₀ (f u x).1 ↔ part.same s₀ u.1) (l : List α) (u : State × β) :
    part.same s₀ (l.foldl f u).1 ↔ part.same s₀ u.1 := by
  induction l generalizing u with
  | nil => rfl
  | cons x l ih => exact (ih _).trans (h u x)

@[simp] theorem same_iter {f : State → State} (h : ∀ u, part.same s₀ (f u) ↔ part.same s₀ u) (n : Nat) :
    part.same s₀ (iter f n s) ↔ part.same s₀ s := by
  induction n generalizing s with
  | zero => rfl
  | succ n ih => exact ih.trans (h s)

@[simp] theorem same_readWords {f : Nat → State → State × BitVec 64 × Bool}
    (h : ∀ i u, part.same s₀ (f i u).1 ↔ part.same s₀ u) : part.same s₀ (readWords f s).1 ↔ part.same s₀ s :=
  same_foldl_fst
    (f := fun acc i => ((f i acc.1).1, acc.2.1 + (f i acc.1).2.1.toNat * 2 ^ (64 * i), acc.2.2 && (f i acc.1).2.2))
    (fun u i => h i u.1) (List.range 8) (s, 0, true)

@[simp] theorem same_writeWords {f : Nat → State → State × Bool} (h : ∀ i u, part.same s₀ (f i u).1 ↔ part.same s₀ u) :
    part.same s₀ (writeWords f s).1 ↔ part.same s₀ s :=
  same_foldl_fst (f := fun acc i => ((f i acc.1).1, acc.2 && (f i acc.1).2)) (fun u i => h i u.1) (List.range 8)
    (s, true)

@[simp] theorem same_setBrams (hp : part ≠ .brams) (x) : part.same s₀ { s with brams := x } ↔ part.same s₀ s := by
  cases part <;> simp_all [Part.same]

@[simp] theorem same_setLanesLinks (hp : part ≠ .lanes ∧ part ≠ .links) (x y) :
    part.same s₀ { s with links := x, lanes := y } ↔ part.same s₀ s := by
  cases part <;> simp_all [Part.same]
theorem same_foldl_bind {α : Type} {f : α → State → Option State}
    (h : ∀ x u v, f x u = some v → (part.same s₀ v ↔ part.same s₀ u)) (l : List α) {t : State}
    (ht : l.foldl (fun acc x => acc.bind (f x)) (some s) = some t) : part.same s₀ t ↔ part.same s₀ s := by
  induction l generalizing s with
  | nil => cases ht; rfl
  | cons x l ih =>
    simp only [List.foldl_cons, Option.bind_some] at ht
    cases hx : f x s with
    | none =>
      rw [hx] at ht
      rw [List.foldl_fixed' (fun _ => rfl)] at ht
      cases ht
    | some u => exact (ih (hx ▸ ht)).trans (h x s u hx)
end

/-- The part is as it was in what the outcome goes on with. -/
def Part.keptBy (x : Part) (s : State) (o : Out) : Prop := ∀ t, o = .next t → x.same s t

section
variable {part : Part} {s₀ s : State}

theorem kept_next : part.keptBy s (.next s) := by
  intro t ht
  cases ht
  exact part.same_self s

theorem kept_commit {u : State} (h : part.same s u ↔ part.same s s) : part.keptBy s (commit s u) := by
  intro t ht
  rw [commit_def] at ht
  cases ht
  exact Part.same_committed s (h.mpr (part.same_self s))

theorem kept_occurs {c : Bool} {f : State → State} (h : part.same s (f s) ↔ part.same s s) :
    part.keptBy s (occurs c f s) := by
  unfold occurs
  split
  · exact kept_commit h
  · exact kept_next

theorem kept_of_same {u : State} {o : Out} (h : part.same s u) (k : part.keptBy u o) : part.keptBy s o :=
  fun t ht => Part.same_trans h (k t ht)
end

/-! ### What changes no part -/
section
variable {part : Part} {s₀ s : State}

@[simp] theorem same_modEnv (f) : part.same s₀ (modEnv f s) ↔ part.same s₀ s := by
  cases part <;> simp_all [Part.same, modEnv]
@[simp] theorem same_modDev (f) : part.same s₀ (modDev f s) ↔ part.same s₀ s := by
  cases part <;> simp_all [Part.same, modDev]
@[simp] theorem same_modCudex (f) : part.same s₀ (modCudex f s) ↔ part.same s₀ s := by
  cases part <;> simp_all [Part.same, modCudex]
@[simp] theorem same_modIo (f) : part.same s₀ (modIo f s) ↔ part.same s₀ s := by
  cases part <;> simp_all [Part.same, modIo]
@[simp] theorem same_modGpio (n f) : part.same s₀ (modGpio n f s) ↔ part.same s₀ s := by simp [modGpio]
@[simp] theorem same_useFree : part.same s₀ (useFree s) ↔ part.same s₀ s := by simp [useFree]
@[simp] theorem same_signalMsix (v) : part.same s₀ (signalMsix v s) ↔ part.same s₀ s := by simp [signalMsix]
@[simp] theorem same_deliver (r) : part.same s₀ (deliver r s) ↔ part.same s₀ s := by simp [deliver]
@[simp] theorem same_raise (e) : part.same s₀ (raise e s) ↔ part.same s₀ s := by simp [raise]
@[simp] theorem same_raiseLimited (e counts) : part.same s₀ (raiseLimited e counts s) ↔ part.same s₀ s := by
  simp only [raiseLimited]
  split <;> simp
@[simp] theorem same_settleMode (cause) : part.same s₀ (settleMode cause s) ↔ part.same s₀ s := by simp [settleMode]
@[simp] theorem same_modSlot (p sl f) : part.same s₀ (modSlot p sl f s) ↔ part.same s₀ s := by simp [modSlot]
@[simp] theorem same_modPort (p f) : part.same s₀ (modPort p f s) ↔ part.same s₀ s := by simp [modPort]
@[simp] theorem same_postResponse (p sl status tick res) :
    part.same s₀ (postResponse p sl status tick res s) ↔ part.same s₀ s := by simp [postResponse]
@[simp] theorem same_replyAt (w status tick res) : part.same s₀ (replyAt w status tick res s) ↔ part.same s₀ s := by
  simp [replyAt]
@[simp] theorem same_reply (w status res) : part.same s₀ (reply w status res s) ↔ part.same s₀ s := by simp [reply]
@[simp] theorem same_replyOpt (w status res) : part.same s₀ (replyOpt w status res s) ↔ part.same s₀ s := by
  simp only [replyOpt]
  split <;> simp
@[simp] theorem same_loadReply (q status index cause addr) :
    part.same s₀ (loadReply q status index cause addr s) ↔ part.same s₀ s := by simp [loadReply]
@[simp] theorem same_setOwner (k o) : part.same s₀ (setOwner k o s) ↔ part.same s₀ s := by simp [setOwner]
@[simp] theorem same_claimImplicit (q k) : part.same s₀ (claimImplicit q k s) ↔ part.same s₀ s := by
  simp only [claimImplicit]
  split <;> simp
@[simp] theorem same_claimAll (q ks) : part.same s₀ (claimAll q ks s).2 ↔ part.same s₀ s := by
  simp only [claimAll]
  split <;> simp
@[simp] theorem same_acceptSlot (p sl) : part.same s₀ (acceptSlot p sl s) ↔ part.same s₀ s := by simp [acceptSlot]
@[simp] theorem same_answer (w a) : part.same s₀ (answer w a s) ↔ part.same s₀ s := by
  simp only [answer]
  split <;> simp
@[simp] theorem same_itemLost (q it) : part.same s₀ (itemLost q it s) ↔ part.same s₀ s := by simp [itemLost]
@[simp] theorem same_holdGpio (r) : part.same s₀ (holdGpio r s) ↔ part.same s₀ s := by simp [holdGpio]
@[simp] theorem same_fillReply (f status corrected cause addr st) :
    part.same s₀ (fillReply f status corrected cause addr st s) ↔ part.same s₀ s := by simp [fillReply]
@[simp] theorem same_incompleteEvent (r slice) : part.same s₀ (incompleteEvent r slice s) ↔ part.same s₀ s := by
  simp [incompleteEvent]

@[simp] theorem same_answerOverride (r d status outcome) :
    part.same s₀ (answerOverride r d status outcome s) ↔ part.same s₀ s := by
  simp only [answerOverride]
  split <;> simp

@[simp] theorem same_isolateCmdEvent (r) : part.same s₀ (isolateCmdEvent r s) ↔ part.same s₀ s := by
  simp [isolateCmdEvent]
@[simp] theorem same_steerEvent (r pos) : part.same s₀ (steerEvent r pos s) ↔ part.same s₀ s := by simp [steerEvent]
@[simp] theorem same_ringSlot (p sl) : part.same s₀ (ringSlot p sl s) ↔ part.same s₀ s := by simp [ringSlot]
@[simp] theorem same_takeAddress (p sl) : part.same s₀ (takeAddress p sl s) ↔ part.same s₀ s := by simp [takeAddress]
@[simp] theorem same_ackSlot (p sl) : part.same s₀ (ackSlot p sl s) ↔ part.same s₀ s := by simp [ackSlot]
@[simp] theorem same_writeRequest (p sl off) {n w : Nat} (data : BitVec n) (be : BitVec w) :
    part.same s₀ (writeRequest p sl off data be s) ↔ part.same s₀ s := by simp [writeRequest]
@[simp] theorem same_writeCtrl (p v) : part.same s₀ (writeCtrl p v s) ↔ part.same s₀ s := by simp [writeCtrl]
@[simp] theorem same_popRecord (p) : part.same s₀ (popRecord p s).1 ↔ part.same s₀ s := by
  simp only [popRecord]
  split <;> simp
@[simp] theorem same_regRead (off) : part.same s₀ (regRead off s).1 ↔ part.same s₀ s := by
  simp only [regRead]
  split <;> simp
@[simp] theorem same_modPcie (f) : part.same s₀ (modPcie f s) ↔ part.same s₀ s := by simp [modPcie]
@[simp] theorem same_hostRefused (k) : part.same s₀ (hostRefused k s) ↔ part.same s₀ s := by simp [hostRefused]
@[simp] theorem same_finishHost (j) : part.same s₀ (finishHost j s) ↔ part.same s₀ s := by simp [finishHost]

@[simp] theorem same_hostLine (tag code data last) :
    part.same s₀ (hostLine tag code data last s) ↔ part.same s₀ s := by
  simp only [hostLine]
  split <;> simp

@[simp] theorem same_testEvent (l) : part.same s₀ (testEvent l s) ↔ part.same s₀ s := by simp [testEvent]
@[simp] theorem same_txnEvent (node code) : part.same s₀ (txnEvent node code s) ↔ part.same s₀ s := by simp [txnEvent]
@[simp] theorem same_discardEvent (q source) : part.same s₀ (discardEvent q source s) ↔ part.same s₀ s := by
  simp [discardEvent]
@[simp] theorem same_enterLoad : part.same s₀ (enterLoad s) ↔ part.same s₀ s := by simp [enterLoad]
@[simp] theorem same_scheduleReset (cause res) : part.same s₀ (scheduleReset cause res s).1 ↔ part.same s₀ s := by
  simp [scheduleReset]
@[simp] theorem same_lineTroubles (l replays framing malformed) :
    part.same s₀ (lineTroubles l replays framing malformed s) ↔ part.same s₀ s := by simp [lineTroubles]
theorem same_serveReq {c : CmdSpec} (h : ∀ q u, part.same s₀ (c.body q u).1 ↔ part.same s₀ u) (p sl) :
    part.same s₀ (serveReq c p sl s) ↔ part.same s₀ s := by
  simp only [serveReq]
  split
  · simp
  · split <;> simp [h]

theorem kept_runCmd {c : CmdSpec} (h : ∀ q u, part.same s (c.body q u).1 ↔ part.same s u) (p sl) :
    part.keptBy s (runCmd c p sl s) := kept_occurs (same_serveReq h p sl)

end

/-! ### What changes at most the queues -/
section
variable {part : Part} {s₀ s : State} (hp : part ≠ .riser)
include hp

@[simp] theorem same_modQueue (q f) : part.same s₀ (modQueue q f s) ↔ part.same s₀ s := by
  cases part <;> simp_all [Part.same, modQueue]
@[simp] theorem same_resetQueue (q ptr) : part.same s₀ (resetQueue q ptr s) ↔ part.same s₀ s := by
  simp [resetQueue, hp]
@[simp] theorem same_checkPointers (q) : part.same s₀ (checkPointers q s) ↔ part.same s₀ s := by
  simp only [checkPointers]
  split <;> simp [hp]
@[simp] theorem same_rewindQueue (q) : part.same s₀ (rewindQueue q s) ↔ part.same s₀ s := by simp [rewindQueue, hp]
@[simp] theorem same_rewindRegion (r) : part.same s₀ (rewindRegion r s) ↔ part.same s₀ s := by simp [rewindRegion, hp]
@[simp] theorem same_pushOne (q data eop) : part.same s₀ (pushOne q data eop s).1 ↔ part.same s₀ s := by
  simp only [pushOne]
  split <;> simp [hp]
@[simp] theorem same_commitEmpty (q) : part.same s₀ (commitEmpty q s) ↔ part.same s₀ s := by simp [commitEmpty, hp]
@[simp] theorem same_popOne (q) : part.same s₀ (popOne q s).1 ↔ part.same s₀ s := by
  simp only [popOne]
  split <;> simp [hp]
@[simp] theorem same_bindQueues (qs) : part.same s₀ (bindQueues qs s) ↔ part.same s₀ s := by simp [bindQueues, hp]

@[simp] theorem same_pushLines (q eopAt lines c) : part.same s₀ (pushLines q eopAt lines s c).1 ↔ part.same s₀ s := by
  induction lines generalizing s c with
  | nil => rfl
  | cons l ls ih =>
    simp only [pushLines]
    split <;> simp [ih, hp]

@[simp] theorem same_pushBurst (q eop lines) : part.same s₀ (pushBurst q eop lines s).1 ↔ part.same s₀ s := by
  simp only [pushBurst]
  split <;> simp [hp]

@[simp] theorem same_popLines (q n) : part.same s₀ (popLines q n s).1 ↔ part.same s₀ s := by
  induction n generalizing s with
  | zero => rfl
  | succ n ih => simp [popLines, ih, hp]

@[simp] theorem same_riserBurst (q off mid op n lines waiting behind) :
    part.same s₀ (riserBurst q off mid op n lines waiting behind s).1 ↔ part.same s₀ s := by
  simp only [riserBurst]
  repeat' split
  all_goals simp [hp]

@[simp] theorem same_stampDesc (q) : part.same s₀ (stampDesc q s) ↔ part.same s₀ s := by simp [stampDesc, hp]
@[simp] theorem same_enableQueue (q x) : part.same s₀ (enableQueue q x s).1 ↔ part.same s₀ s := by
  simp [enableQueue, hp]

end

/-! ### What changes at most the links -/
section
variable {part : Part} {s₀ s : State} (hp : part ≠ .links)
include hp

@[simp] theorem same_modLink (l f) : part.same s₀ (modLink l f s) ↔ part.same s₀ s := by
  cases part <;> simp_all [Part.same, modLink]
@[simp] theorem same_bumpLink (l i n) : part.same s₀ (bumpLink l i n s) ↔ part.same s₀ s := by simp [bumpLink, hp]
@[simp] theorem same_modRx (l v f) : part.same s₀ (modRx l v f s) ↔ part.same s₀ s := by simp [modRx, hp]
@[simp] theorem same_modTx (l v f) : part.same s₀ (modTx l v f s) ↔ part.same s₀ s := by simp [modTx, hp]
@[simp] theorem same_freeBuf (l v n) : part.same s₀ (freeBuf l v n s) ↔ part.same s₀ s := by simp [freeBuf, hp]
@[simp] theorem same_takeCredit (l v c) : part.same s₀ (takeCredit l v c s) ↔ part.same s₀ s := by
  simp [takeCredit, hp]
@[simp] theorem same_enqueue (l v gs) : part.same s₀ (enqueue l v gs s) ↔ part.same s₀ s := by simp [enqueue, hp]
@[simp] theorem same_orphanSegments (l) : part.same s₀ (orphanSegments l s) ↔ part.same s₀ s := by
  simp [orphanSegments, orphanSegments.modify, hp]
@[simp] theorem same_sinkForwards (l) : part.same s₀ (sinkForwards l s) ↔ part.same s₀ s := by simp [sinkForwards, hp]
@[simp] theorem same_enterHello (l) : part.same s₀ (enterHello l s) ↔ part.same s₀ s := by simp [enterHello, hp]
@[simp] theorem same_startLink (l) : part.same s₀ (startLink l s) ↔ part.same s₀ s := by simp [startLink, hp]
@[simp] theorem same_endOrSink (l v last) : part.same s₀ (endOrSink l v last s) ↔ part.same s₀ s := by
  simp [endOrSink, hp]
@[simp] theorem same_sinkSegment (l v last) : part.same s₀ (sinkSegment l v last s) ↔ part.same s₀ s := by
  simp [sinkSegment, hp]
@[simp] theorem same_freeWritten (l v written) : part.same s₀ (freeWritten l v written s) ↔ part.same s₀ s := by
  simp [freeWritten, hp]
@[simp] theorem same_declareGap (l) : part.same s₀ (declareGap l s) ↔ part.same s₀ s := by simp [declareGap, hp]
@[simp] theorem same_noteGap (l n) : part.same s₀ (noteGap l n s) ↔ part.same s₀ s := by simp [noteGap, hp]
@[simp] theorem same_measureRtt (l lane p) : part.same s₀ (measureRtt l lane p s) ↔ part.same s₀ s := by
  simp [measureRtt, hp]
@[simp] theorem same_countReturned (l p) : part.same s₀ (countReturned l p s) ↔ part.same s₀ s := by
  simp only [countReturned]
  split <;> simp [hp]
@[simp] theorem same_discardFlit (l why) : part.same s₀ (discardFlit l why s) ↔ part.same s₀ s := by
  simp only [discardFlit]
  split <;> simp [hp]
@[simp] theorem same_noteStalls (l) : part.same s₀ (noteStalls l s) ↔ part.same s₀ s := by simp [noteStalls, hp]

end

/-! ### What changes at most the tick -/
section
variable {part : Part} {s₀ s : State} (hp : part ≠ .tick)
include hp

@[simp] theorem same_modTick (f) : part.same s₀ (modTick f s) ↔ part.same s₀ s := by
  cases part <;> simp_all [Part.same, modTick]
@[simp] theorem same_spendLatch (h) : part.same s₀ (spendLatch h s) ↔ part.same s₀ s := by simp [spendLatch, hp]
@[simp] theorem same_latchTick : part.same s₀ (latchTick s) ↔ part.same s₀ s := by simp [latchTick, hp]

end

/-! ### What changes at most the thermal records -/
section
variable {part : Part} {s₀ s : State} (hp : part ≠ .therm)
include hp

@[simp] theorem same_modTherm (f) : part.same s₀ (modTherm f s) ↔ part.same s₀ s := by
  cases part <;> simp_all [Part.same, modTherm]
@[simp] theorem same_modGovern (r f) : part.same s₀ (modGovern r f s) ↔ part.same s₀ s := by simp [modGovern, hp]

end

/-! ### What changes at most the system layer -/
section
variable {part : Part} {s₀ s : State} (hp : part ≠ .sys)
include hp

@[simp] theorem same_modSys (f) : part.same s₀ (modSys f s) ↔ part.same s₀ s := by
  cases part <;> simp_all [Part.same, modSys]
@[simp] theorem same_bumpSys (i n) : part.same s₀ (bumpSys i n s) ↔ part.same s₀ s := by simp [bumpSys, hp]
@[simp] theorem same_setPartner (k p) : part.same s₀ (setPartner k p s) ↔ part.same s₀ s := by simp [setPartner, hp]
@[simp] theorem same_modPartner (k f) : part.same s₀ (modPartner k f s) ↔ part.same s₀ s := by simp [modPartner, hp]
@[simp] theorem same_putPartners (t) : part.same s₀ (putPartners t s) ↔ part.same s₀ s := by simp [putPartners, hp]
@[simp] theorem same_touchPartner (n) : part.same s₀ (touchPartner n s) ↔ part.same s₀ s := by
  simp only [touchPartner]
  split <;> simp [hp]
@[simp] theorem same_usePartner (n l) : part.same s₀ (usePartner n l s) ↔ part.same s₀ s := by
  simp only [usePartner]
  split <;> simp [hp]
@[simp] theorem same_refusePartner (n) : part.same s₀ (refusePartner n s) ↔ part.same s₀ s := by
  simp [refusePartner, hp]

@[simp] theorem same_createPartner (n link contact) :
    part.same s₀ (createPartner n link contact s).1 ↔ part.same s₀ s := by
  simp only [createPartner]
  split <;> simp [hp]

@[simp] theorem same_notForwarded (l dest) : part.same s₀ (notForwarded l dest s) ↔ part.same s₀ s := by
  simp [notForwarded, hp]

end

/-! ### What changes at most the Runner's records -/
section
variable {part : Part} {s₀ s : State} (hp : part ≠ .runner)
include hp

@[simp] theorem same_modRunner (f) : part.same s₀ (modRunner f s) ↔ part.same s₀ s := by
  cases part <;> simp_all [Part.same, modRunner]
@[simp] theorem same_mapOutst (f) : part.same s₀ (mapOutst f s) ↔ part.same s₀ s := by simp [mapOutst, hp]
@[simp] theorem same_answerOutst (req ls) : part.same s₀ (answerOutst req ls s) ↔ part.same s₀ s := by
  simp [answerOutst, hp]
@[simp] theorem same_bumpStop (r i n) : part.same s₀ (bumpStop r i n s) ↔ part.same s₀ s := by simp [bumpStop, hp]
@[simp] theorem same_pushOutst (o) : part.same s₀ (pushOutst o s) ↔ part.same s₀ s := by simp [pushOutst, hp]
@[simp] theorem same_setOutst (o) : part.same s₀ (setOutst o s) ↔ part.same s₀ s := by simp [setOutst, hp]
@[simp] theorem same_countOutcome (h code n) : part.same s₀ (countOutcome h code n s) ↔ part.same s₀ s := by
  simp only [countOutcome]
  split <;> simp [hp]
@[simp] theorem same_leaveLines (o rest) : part.same s₀ (leaveLines o rest s) ↔ part.same s₀ s := by
  simp [leaveLines, hp]
@[simp] theorem same_putLine (h l last) : part.same s₀ (putLine h l last s) ↔ part.same s₀ s := by simp [putLine, hp]
@[simp] theorem same_leaveGone (o) : part.same s₀ (leaveGone o s) ↔ part.same s₀ s := by simp [leaveGone, hp]

end

/-! ### What changes at most the regions -/
section
variable {part : Part} {s₀ s : State} (hp : part ≠ .regions)
include hp

@[simp] theorem same_modRegion (r f) : part.same s₀ (modRegion r f s) ↔ part.same s₀ s := by
  cases part <;> simp_all [Part.same, modRegion]
@[simp] theorem same_modPlane (r p f) : part.same s₀ (modPlane r p f s) ↔ part.same s₀ s := by simp [modPlane, hp]
@[simp] theorem same_latchBorder (x r) : part.same s₀ (latchBorder x r s) ↔ part.same s₀ s := by
  simp [latchBorder, hp]
@[simp] theorem same_relatchBorder (r) : part.same s₀ (relatchBorder r s) ↔ part.same s₀ s := by
  simp [relatchBorder, hp]
@[simp] theorem same_settleSr (r) : part.same s₀ (settleSr r s) ↔ part.same s₀ s := by simp [settleSr, hp]
@[simp] theorem same_settleHold (r) : part.same s₀ (settleHold r s) ↔ part.same s₀ s := by simp [settleHold, hp]
@[simp] theorem same_isolateBorder (r c) : part.same s₀ (isolateBorder r c s) ↔ part.same s₀ s := by
  simp [isolateBorder, hp]
@[simp] theorem same_endCause (r c) : part.same s₀ (endCause r c s) ↔ part.same s₀ s := by simp [endCause, hp]
@[simp] theorem same_barPlanes (r d) : part.same s₀ (barPlanes r d s).1 ↔ part.same s₀ s := by simp [barPlanes, hp]
@[simp] theorem same_bumpPower (r i) : part.same s₀ (bumpPower r i s) ↔ part.same s₀ s := by simp [bumpPower, hp]
@[simp] theorem same_abandonOne (r dest f) : part.same s₀ (abandonOne r dest f s) ↔ part.same s₀ s := by
  simp [abandonOne, hp]
@[simp] theorem same_abandonFill (r dest) : part.same s₀ (abandonFill r dest s) ↔ part.same s₀ s := by
  simp only [abandonFill]
  split <;> simp [hp]
@[simp] theorem same_startExit (r d) : part.same s₀ (startExit r d s) ↔ part.same s₀ s := by simp [startExit, hp]
@[simp] theorem same_wakeRegion (r) : part.same s₀ (wakeRegion r s) ↔ part.same s₀ s := by
  simp only [wakeRegion]
  split <;> simp [hp]
@[simp] theorem same_restoreShelf (r) : part.same s₀ (restoreShelf r s) ↔ part.same s₀ s := by
  simp only [restoreShelf]
  split <;> simp [hp]
@[simp] theorem same_fallCold (r) : part.same s₀ (fallCold r s) ↔ part.same s₀ s := by simp [fallCold, hp]
@[simp] theorem same_setResult (r d ovr) : part.same s₀ (setResult r d ovr s) ↔ part.same s₀ s := by
  simp [setResult, hp]
@[simp] theorem same_answerReleases (r) : part.same s₀ (answerReleases r s) ↔ part.same s₀ s := by
  simp [answerReleases, hp]
@[simp] theorem same_startFill (r f) : part.same s₀ (startFill r f s) ↔ part.same s₀ s := by simp [startFill, hp]

@[simp] theorem same_fillForTest (r) : part.same s₀ (fillForTest r s) ↔ part.same s₀ s := by
  simp only [fillForTest]
  repeat' split
  all_goals simp [hp]

@[simp] theorem same_loseWinner (r d) : part.same s₀ (loseWinner r d s).1 ↔ part.same s₀ s := by simp [loseWinner, hp]

@[simp] theorem same_overrideCandidate (r isTick) :
    part.same s₀ (overrideCandidate r isTick s).1 ↔ part.same s₀ s := by
  simp only [overrideCandidate]
  split <;> simp [hp]

@[simp] theorem same_takeOverride (r k isTick e) : part.same s₀ (takeOverride r k isTick e s).1 ↔ part.same s₀ s := by
  simp only [takeOverride]
  split <;> simp [hp]
@[simp] theorem same_takeFabric (r k e lost) : part.same s₀ (takeFabric r k e lost s).1 ↔ part.same s₀ s := by
  simp [takeFabric, hp]

@[simp] theorem same_chooseWinner (r k isTick gated) :
    part.same s₀ (chooseWinner r k isTick gated s).1 ↔ part.same s₀ s := by
  simp only [chooseWinner]
  split <;> simp [hp]

@[simp] theorem same_dropActiveFill (r) : part.same s₀ (dropActiveFill r s) ↔ part.same s₀ s := by
  simp only [dropActiveFill]
  split <;> simp [hp]
@[simp] theorem same_putFrame (r p key f) : part.same s₀ (putFrame r p key f s) ↔ part.same s₀ s := by
  simp [putFrame, hp]

end

/-! ### What changes at most the library -/
section
variable {part : Part} {s₀ s : State} (hp : part ≠ .lib)
include hp

@[simp] theorem same_modLib (f) : part.same s₀ (modLib f s) ↔ part.same s₀ s := by
  cases part <;> simp_all [Part.same, modLib]
@[simp] theorem same_modEntry (i f) : part.same s₀ (modEntry i f s) ↔ part.same s₀ s := by simp [modEntry, hp]
@[simp] theorem same_freeReserved (q) : part.same s₀ (freeReserved q s) ↔ part.same s₀ s := by
  simp only [freeReserved]
  split <;> simp [hp]
@[simp] theorem same_stopLoads : part.same s₀ (stopLoads s) ↔ part.same s₀ s := by simp [stopLoads, hp]

end

/-! ### What changes at most the lanes -/
section
variable {part : Part} {s₀ s : State} (hp : part ≠ .lanes)
include hp

@[simp] theorem same_modLane (l f) : part.same s₀ (modLane l f s) ↔ part.same s₀ s := by
  cases part <;> simp_all [Part.same, modLane]
@[simp] theorem same_endPcieScans : part.same s₀ (endPcieScans s) ↔ part.same s₀ s := by
  refine same_forBelow (fun i u => ?_) 8
  split <;> simp [hp]
@[simp] theorem same_pcieDown : part.same s₀ (pcieDown s) ↔ part.same s₀ s := by simp [pcieDown, hp]
@[simp] theorem same_startLane (l) : part.same s₀ (startLane l s) ↔ part.same s₀ s := by simp [startLane, hp]
@[simp] theorem same_endScan (l) : part.same s₀ (endScan l s) ↔ part.same s₀ s := by
  simp only [endScan]
  split <;> simp [hp]
@[simp] theorem same_resetLane (l) : part.same s₀ (resetLane l s) ↔ part.same s₀ s := by simp [resetLane, hp]
@[simp] theorem same_laneOff (l) : part.same s₀ (laneOff l s) ↔ part.same s₀ s := by simp [laneOff, hp]
@[simp] theorem same_bumpLane (l i n) : part.same s₀ (bumpLane l i n s) ↔ part.same s₀ s := by simp [bumpLane, hp]
@[simp] theorem same_discardUnits (l n) : part.same s₀ (discardUnits l n s) ↔ part.same s₀ s := by
  simp [discardUnits, hp]
@[simp] theorem same_settleTest (l) : part.same s₀ (settleTest l s) ↔ part.same s₀ s := by simp [settleTest, hp]
@[simp] theorem same_leavePlls (old p) : part.same s₀ (leavePlls old p s) ↔ part.same s₀ s := by simp [leavePlls, hp]

end

/-! ### What changes at most the integrity records -/
section
variable {part : Part} {s₀ s : State} (hp : part ≠ .integ)
include hp

@[simp] theorem same_modInteg (f) : part.same s₀ (modInteg f s) ↔ part.same s₀ s := by
  cases part <;> simp_all [Part.same, modInteg]
@[simp] theorem same_bumpInteg (pl i n) : part.same s₀ (bumpInteg pl i n s) ↔ part.same s₀ s := by
  simp [bumpInteg, hp]
@[simp] theorem same_setTracker (pl l) : part.same s₀ (setTracker pl l s) ↔ part.same s₀ s := by simp [setTracker, hp]

@[simp] theorem same_hardFault (pl w out i) : part.same s₀ (hardFault pl w out i s) ↔ part.same s₀ s := by
  simp only [hardFault]
  repeat' split
  all_goals simp [hp]

@[simp] theorem same_noteRead (pl w out injected fettler) :
    part.same s₀ (noteRead pl w out injected fettler s).1 ↔ part.same s₀ s := by
  simp only [noteRead]
  repeat' split
  all_goals simp [hp]

@[simp] theorem same_noteWrite (pl w) : part.same s₀ (noteWrite pl w s) ↔ part.same s₀ s := by simp [noteWrite, hp]
@[simp] theorem same_noteCleared (r hit) : part.same s₀ (noteCleared r hit s) ↔ part.same s₀ s := by
  simp [noteCleared, hp]
@[simp] theorem same_markRetired (kind place at_) : part.same s₀ (markRetired kind place at_ s) ↔ part.same s₀ s := by
  simp [markRetired, hp]
@[simp] theorem same_startPass (r targets w) : part.same s₀ (startPass r targets w s) ↔ part.same s₀ s := by
  simp [startPass, hp]
@[simp] theorem same_modSweep (r k f) : part.same s₀ (modSweep r k f s) ↔ part.same s₀ s := by simp [modSweep, hp]
@[simp] theorem same_pauseSweeps (r) : part.same s₀ (pauseSweeps r s) ↔ part.same s₀ s := by simp [pauseSweeps, hp]
@[simp] theorem same_resumeSweeps (r restart) : part.same s₀ (resumeSweeps r restart s) ↔ part.same s₀ s := by
  simp [resumeSweeps, hp]
@[simp] theorem same_modCrcChan (c f) : part.same s₀ (modCrcChan c f s) ↔ part.same s₀ s := by simp [modCrcChan, hp]
@[simp] theorem same_crcDataWrite (c data be) : part.same s₀ (crcDataWrite c data be s).1 ↔ part.same s₀ s := by
  simp [crcDataWrite, hp]
@[simp] theorem same_crcCtrlWrite (c data be) : part.same s₀ (crcCtrlWrite c data be s).1 ↔ part.same s₀ s := by
  simp [crcCtrlWrite, hp]
@[simp] theorem same_sweepOn (r k i) : part.same s₀ (sweepOn r k i s) ↔ part.same s₀ s := by simp [sweepOn, hp]

end

/-! ### What changes at most the Ingot banks -/
section
variable {part : Part} {s₀ s : State} (hp : part ≠ .ingot)
include hp

@[simp] theorem same_modIngot (f) : part.same s₀ (modIngot f s) ↔ part.same s₀ s := by
  cases part <;> simp_all [Part.same, modIngot]
@[simp] theorem same_ingotGrant (bank mid) : part.same s₀ (ingotGrant bank mid s) ↔ part.same s₀ s := by
  simp [ingotGrant, hp]
@[simp] theorem same_clearIngot (bank) : part.same s₀ (clearIngot bank s) ↔ part.same s₀ s := by simp [clearIngot, hp]
@[simp] theorem same_enterBank (bank off o) : part.same s₀ (enterBank bank off o s).1 ↔ part.same s₀ s := by
  simp [enterBank, hp]

end

/-! ### What changes at most the HBM -/
section
variable {part : Part} {s₀ s : State} (hp : part ≠ .hbm)
include hp

@[simp] theorem same_modHbm (f) : part.same s₀ (modHbm f s) ↔ part.same s₀ s := by
  cases part <;> simp_all [Part.same, modHbm]
@[simp] theorem same_modRange (i f) : part.same s₀ (modRange i f s) ↔ part.same s₀ s := by simp [modRange, hp]

@[simp] theorem same_writeUnder (ri k j bs) : part.same s₀ (writeUnder ri k j bs s) ↔ part.same s₀ s := by
  rw [show @writeUnder = _ by delta writeUnder; rfl]
  dsimp -iota -proj only
  split
  simp [hp]

@[simp] theorem same_addPoison (ri level index) : part.same s₀ (addPoison ri level index s) ↔ part.same s₀ s := by
  simp [addPoison, hp]
@[simp] theorem same_bumpRange (ri i n) : part.same s₀ (bumpRange ri i n s) ↔ part.same s₀ s := by
  simp [bumpRange, hp]
@[simp] theorem same_rangeRefusal (ri a mid) : part.same s₀ (rangeRefusal ri a mid s) ↔ part.same s₀ s := by
  simp [rangeRefusal, hp]
@[simp] theorem same_startRekey (w) : part.same s₀ (startRekey w s) ↔ part.same s₀ s := by simp [startRekey, hp]

@[simp] theorem same_checkCounters (ri page) : part.same s₀ (checkCounters ri page s) ↔ part.same s₀ s := by
  rw [show @checkCounters = _ by delta checkCounters; rfl]
  split
  · rfl
  · split
    · rfl
    · simp [hp]

@[simp] theorem same_retirePage (q) : part.same s₀ (retirePage q s).1 ↔ part.same s₀ s := by simp [retirePage, hp]

end

/-! ### What changes at most the engines -/
section
variable {part : Part} {s₀ s : State} (hp : part ≠ .dsp)
include hp

@[simp] theorem same_modEngine (e f) : part.same s₀ (modEngine e f s) ↔ part.same s₀ s := by
  cases part <;> simp_all [Part.same, modEngine]
@[simp] theorem same_landEngines (p) : part.same s₀ (landEngines p s) ↔ part.same s₀ s := by simp [landEngines, hp]
@[simp] theorem same_resetEngine (id) : part.same s₀ (resetEngine id s) ↔ part.same s₀ s := by simp [resetEngine, hp]
@[simp] theorem same_startEngine (id) : part.same s₀ (startEngine id s) ↔ part.same s₀ s := by simp [startEngine, hp]
@[simp] theorem same_startPending (r) : part.same s₀ (startPending r s) ↔ part.same s₀ s := by simp [startPending, hp]

end

/-! ### What changes at most the engines and the Runner's records -/
section
variable {part : Part} {s₀ s : State} (hp : part ≠ .dsp ∧ part ≠ .runner)
include hp

@[simp] theorem same_dropEngine (id) : part.same s₀ (dropEngine id s) ↔ part.same s₀ s := by simp [dropEngine, hp]

end

/-! ### What changes at most the engines and the regions -/
section
variable {part : Part} {s₀ s : State} (hp : part ≠ .dsp ∧ part ≠ .regions)
include hp

@[simp] theorem same_applyPermits (r e) : part.same s₀ (applyPermits r e s) ↔ part.same s₀ s := by
  simp [applyPermits, hp]

end

/-! ### What changes at most the engines, the integrity records, the regions and the Runner's records -/
section
variable {part : Part} {s₀ s : State} (hp : part ≠ .dsp ∧ part ≠ .integ ∧ part ≠ .regions ∧ part ≠ .runner)
include hp

@[simp] theorem same_enterState (r dest) : part.same s₀ (enterState r dest s) ↔ part.same s₀ s := by
  simp [enterState, hp]

end

/-! ### What changes at most the clocks -/
section
variable {part : Part} {s₀ s : State} (hp : part ≠ .clk)
include hp

@[simp] theorem same_modClk (f) : part.same s₀ (modClk f s) ↔ part.same s₀ s := by
  cases part <;> simp_all [Part.same, modClk]
@[simp] theorem same_switchPortClocks (r old new) : part.same s₀ (switchPortClocks r old new s) ↔ part.same s₀ s := by
  simp [switchPortClocks, hp]
@[simp] theorem same_stateRegsWrite (data be) : part.same s₀ (stateRegsWrite data be s) ↔ part.same s₀ s := by
  simp [stateRegsWrite, hp]

end

/-! ### What changes at most the clocks and the integrity records -/
section
variable {part : Part} {s₀ s : State} (hp : part ≠ .clk ∧ part ≠ .integ)
include hp

@[simp] theorem same_regWrite (off data be) : part.same s₀ (regWrite off data be s).1 ↔ part.same s₀ s := by
  simp only [regWrite]
  split <;> simp [hp]

end

/-! ### What changes at most the block memories -/
section
variable {part : Part} {s₀ s : State} (hp : part ≠ .brams)
include hp

@[simp] theorem same_modBram (m f) : part.same s₀ (modBram m f s) ↔ part.same s₀ s := by
  cases part <;> simp_all [Part.same, modBram]

theorem same_windowAccess (off o) {t} (h : windowAccess off o s = some t) : part.same s₀ t.1 ↔ part.same s₀ s := by
  simp only [windowAccess, Option.ite_none_right_eq_some, Option.some.injEq] at h
  obtain ⟨-, rfl⟩ := h
  simp [hp]

end

/-! ### What changes at most the bonds -/
section
variable {part : Part} {s₀ s : State} (hp : part ≠ .bonds)
include hp

@[simp] theorem same_modBonds (f) : part.same s₀ (modBonds f s) ↔ part.same s₀ s := by
  cases part <;> simp_all [Part.same, modBonds]
@[simp] theorem same_modTest (r f) : part.same s₀ (modTest r f s) ↔ part.same s₀ s := by simp [modTest, hp]
@[simp] theorem same_recordSlice (r j result excluded failing) :
    part.same s₀ (recordSlice r j result excluded failing s) ↔ part.same s₀ s := by
  simp [recordSlice, hp]
@[simp] theorem same_modBond (r b f) : part.same s₀ (modBond r b f s) ↔ part.same s₀ s := by simp [modBond, hp]
@[simp] theorem same_weakBond (r b pos) : part.same s₀ (weakBond r b pos s) ↔ part.same s₀ s := by simp [weakBond, hp]
@[simp] theorem same_noteSweep (r) : part.same s₀ (noteSweep r s) ↔ part.same s₀ s := by simp [noteSweep, hp]
@[simp] theorem same_takeOutcome (o) : part.same s₀ (takeOutcome o s) ↔ part.same s₀ s := by simp [takeOutcome, hp]

end

/-! ### What changes at most the engines and the integrity records -/
section
variable {part : Part} {s₀ s : State} (hp : part ≠ .dsp ∧ part ≠ .integ)
include hp

@[simp] theorem same_dspNote (id n mid fettler) : part.same s₀ (dspNote id n mid fettler s) ↔ part.same s₀ s := by
  simp [dspNote, hp]
@[simp] theorem same_dspWordRead (id prog w mid) : part.same s₀ (dspWordRead id prog w mid s).1 ↔ part.same s₀ s := by
  simp [dspWordRead, hp]
@[simp] theorem same_dspPut (id prog w v) : part.same s₀ (dspPut id prog w v s) ↔ part.same s₀ s := by
  simp [dspPut, hp]
@[simp] theorem same_dspWordWrite (id prog w mid d be) :
    part.same s₀ (dspWordWrite id prog w mid d be s).1 ↔ part.same s₀ s := by simp [dspWordWrite, hp]
@[simp] theorem same_dspLineRead (id prog w mid) : part.same s₀ (dspLineRead id prog w mid s).1 ↔ part.same s₀ s := by
  simp [dspLineRead, hp]
@[simp] theorem same_dspLineWrite (id prog w mid data be) :
    part.same s₀ (dspLineWrite id prog w mid data be s).1 ↔ part.same s₀ s := by
  simp [dspLineWrite, hp]

@[simp] theorem same_dmaLines (e mid d n i) : part.same s₀ (dmaLines e mid d n i s).1 ↔ part.same s₀ s := by
  induction n generalizing i s with
  | zero => rfl
  | succ n ih => simp [dmaLines, ih, hp]

@[simp] theorem same_withLines (h op lines) : part.same s₀ (withLines h op lines s).1 ↔ part.same s₀ s := by
  simp only [withLines]
  repeat' split
  all_goals simp [hp]

@[simp] theorem same_fettleDsp (id prog w) : part.same s₀ (fettleDsp id prog w s).1 ↔ part.same s₀ s := by
  simp [fettleDsp, hp]

end

/-! ### What changes at most the block memories and the integrity records -/
section
variable {part : Part} {s₀ s : State} (hp : part ≠ .brams ∧ part ≠ .integ)
include hp

@[simp] theorem same_bramFetch (m w who fettler) : part.same s₀ (bramFetch m w who fettler s).1 ↔ part.same s₀ s := by
  simp [bramFetch, hp]
@[simp] theorem same_bramStore (m w d) : part.same s₀ (bramStore m w d s) ↔ part.same s₀ s := by simp [bramStore, hp]
@[simp] theorem same_bramPartial (m w who new) : part.same s₀ (bramPartial m w who new s).1 ↔ part.same s₀ s := by
  simp [bramPartial, hp]
@[simp] theorem same_bramWindowRead (m w mid) : part.same s₀ (bramWindowRead m w mid s).1 ↔ part.same s₀ s := by
  simp [bramWindowRead, hp]
@[simp] theorem same_bramWindowWrite (m w mid d be) :
    part.same s₀ (bramWindowWrite m w mid d be s).1 ↔ part.same s₀ s := by simp [bramWindowWrite, hp]
@[simp] theorem same_bramLineRead (off mid) : part.same s₀ (bramLineRead off mid s).1 ↔ part.same s₀ s := by
  simp [bramLineRead, hp]
@[simp] theorem same_bramLineWrite (off mid data be) :
    part.same s₀ (bramLineWrite off mid data be s).1 ↔ part.same s₀ s := by
  simp [bramLineWrite, hp]
@[simp] theorem same_clearBram (m) : part.same s₀ (clearBram m s) ↔ part.same s₀ s := by simp [clearBram, hp]
@[simp] theorem same_fettleBram (m w) : part.same s₀ (fettleBram m w s).1 ↔ part.same s₀ s := by simp [fettleBram, hp]

end

/-! ### What changes at most the block memories, the engines, the Ingot banks and the integrity records -/
section
variable {part : Part} {s₀ s : State} (hp : part ≠ .brams ∧ part ≠ .dsp ∧ part ≠ .ingot ∧ part ≠ .integ)
include hp

@[simp] theorem same_clearDragMemories (r) : part.same s₀ (clearDragMemories r s) ↔ part.same s₀ s := by
  simp [clearDragMemories, hp]

end

/-! ### What changes at most the lanes and the links -/
section
variable {part : Part} {s₀ s : State} (hp : part ≠ .lanes ∧ part ≠ .links)
include hp

@[simp] theorem same_darkLanes : part.same s₀ (darkLanes s) ↔ part.same s₀ s := by
  refine (same_setLanesLinks hp _ _).trans (same_forEach (fun e u => ?_) _)
  split <;> simp
@[simp] theorem same_emit (l lane ty sequence vc seg) :
    part.same s₀ (emit l lane ty sequence vc seg s) ↔ part.same s₀ s := by simp [emit, hp]
@[simp] theorem same_emitCtl (l ty payload) : part.same s₀ (emitCtl l ty payload s) ↔ part.same s₀ s := by
  simp [emitCtl, hp]
@[simp] theorem same_enterStandby : part.same s₀ (enterStandby s) ↔ part.same s₀ s := by simp [enterStandby, hp]
@[simp] theorem same_sendData (l v g) : part.same s₀ (sendData l v g s) ↔ part.same s₀ s := by simp [sendData, hp]

theorem same_sendSomeData (l) {t : State} (h : sendSomeData l s = some t) : part.same s₀ t ↔ part.same s₀ s := by
  simp only [sendSomeData] at h
  split at h
  · cases h
    simp [hp]
  · split at h
    · cases h
    · simp only [Option.map_eq_some_iff] at h
      obtain ⟨g, -, rfl⟩ := h
      simp [hp]

@[simp] theorem same_resend (l i) : part.same s₀ (resend l i s) ↔ part.same s₀ s := by
  simp only [resend]
  split <;> simp [hp]

@[simp] theorem same_sendLoopTest (l) : part.same s₀ (sendLoopTest l s) ↔ part.same s₀ s := by
  rw [show @sendLoopTest = _ by delta sendLoopTest; rfl]
  dsimp -iota -proj only
  split
  simp only [same_bumpLink, same_modLink, same_emitCtl, hp, ne_eq, not_false_eq_true, and_self]

@[simp] theorem same_sendFirstReady (l) : part.same s₀ (sendFirstReady l s) ↔ part.same s₀ s := by
  have other : ∀ x u, part.same s₀ (sendFirstReady.sendOther l x u) ↔ part.same s₀ u := by
    intro x u
    simp only [sendFirstReady.sendOther]
    split
    · simp [hp]
    · split
      next t ht => exact same_sendSomeData hp _ ht
      next => split
              · simp [hp]
              · split <;> simp [hp]
  simp only [sendFirstReady]
  split
  · simp [hp]
  · split
    · simp [hp]
    · split
      · split <;> simp [other, hp]
      · split <;> simp [other, hp]
      · exact other _ _

end

/-! ### What changes at most the Runner's records and the system layer -/
section
variable {part : Part} {s₀ s : State} (hp : part ≠ .runner ∧ part ≠ .sys)
include hp

@[simp] theorem same_answerTxn (t f) : part.same s₀ (answerTxn t f s) ↔ part.same s₀ s := by
  simp only [answerTxn]
  split <;> simp [hp]
@[simp] theorem same_failTxn (t code) : part.same s₀ (failTxn t code s) ↔ part.same s₀ s := by simp [failTxn, hp]
@[simp] theorem same_resetTxns (p) : part.same s₀ (resetTxns p s) ↔ part.same s₀ s := by simp [resetTxns, hp]
@[simp] theorem same_checkLine (i) : part.same s₀ (checkLine i s) ↔ part.same s₀ s := by
  simp only [checkLine]
  split <;> simp [hp]
@[simp] theorem same_checkBuckets (n) : part.same s₀ (checkBuckets n s) ↔ part.same s₀ s := by simp [checkBuckets, hp]
@[simp] theorem same_needPartner (n link) : part.same s₀ (needPartner n link s).1 ↔ part.same s₀ s := by
  simp only [needPartner]
  split <;> simp [hp]

end

/-! ### What changes at most the regions and the Runner's records -/
section
variable {part : Part} {s₀ s : State} (hp : part ≠ .regions ∧ part ≠ .runner)
include hp

@[simp] theorem same_isolate (r c) : part.same s₀ (isolate r c s) ↔ part.same s₀ s := by simp [isolate, hp]
@[simp] theorem same_checkRefilled (r) : part.same s₀ (checkRefilled r s) ↔ part.same s₀ s := by
  simp [checkRefilled, hp]
@[simp] theorem same_takeChecker (c) : part.same s₀ (takeChecker c s) ↔ part.same s₀ s := by simp [takeChecker, hp]
@[simp] theorem same_frameConsequence (r p inj) : part.same s₀ (frameConsequence r p inj s) ↔ part.same s₀ s := by
  simp [frameConsequence, hp]

end

/-! ### What changes at most the integrity records, the regions and the Runner's records -/
section
variable {part : Part} {s₀ s : State} (hp : part ≠ .integ ∧ part ≠ .regions ∧ part ≠ .runner)
include hp

@[simp] theorem same_fettleFrame (r p key) : part.same s₀ (fettleFrame r p key s).1 ↔ part.same s₀ s := by
  simp [fettleFrame, hp]

end

/-! ### What changes at most the links and the system layer -/
section
variable {part : Part} {s₀ s : State} (hp : part ≠ .links ∧ part ≠ .sys)
include hp

@[simp] theorem same_fromParent (l p) : part.same s₀ (fromParent l p s) ↔ part.same s₀ s := by simp [fromParent, hp]

@[simp] theorem same_takeTime (l p) : part.same s₀ (takeTime l p s) ↔ part.same s₀ s := by
  simp only [takeTime]
  repeat' split
  all_goals simp [hp]

end

/-! ### What changes at most the integrity records and the regions -/
section
variable {part : Part} {s₀ s : State} (hp : part ≠ .integ ∧ part ≠ .regions)
include hp

@[simp] theorem same_tripSpine (r spine) : part.same s₀ (tripSpine r spine s) ↔ part.same s₀ s := by
  simp [tripSpine, hp]
@[simp] theorem same_checkSpines (r) : part.same s₀ (checkSpines r s) ↔ part.same s₀ s := by simp [checkSpines, hp]

end

/-! ### What changes at most the Ingot banks and the integrity records -/
section
variable {part : Part} {s₀ s : State} (hp : part ≠ .ingot ∧ part ≠ .integ)
include hp

@[simp] theorem same_ingotPut (bank off v) : part.same s₀ (ingotPut bank off v s) ↔ part.same s₀ s := by
  simp [ingotPut, hp]
@[simp] theorem same_ingotFetch (bank off mid fettler) :
    part.same s₀ (ingotFetch bank off mid fettler s).1 ↔ part.same s₀ s := by simp [ingotFetch, hp]
@[simp] theorem same_ingotLineRead (bank off mid) :
    part.same s₀ (ingotLineRead bank off mid s).1 ↔ part.same s₀ s := by simp [ingotLineRead, hp]
@[simp] theorem same_ingotLineWrite (bank off mid data be) :
    part.same s₀ (ingotLineWrite bank off mid data be s).1 ↔ part.same s₀ s := by simp [ingotLineWrite, hp]
@[simp] theorem same_ingotAtomic (op bank off mid operand) :
    part.same s₀ (ingotAtomic op bank off mid operand s).1 ↔ part.same s₀ s := by simp [ingotAtomic, hp]
@[simp] theorem same_ingotLine (bank j) : part.same s₀ (ingotLine bank j s).1 ↔ part.same s₀ s := by
  simp only [ingotLine]
  split <;> simp [hp]

end

/-! ### What changes at most the HBM and the library -/
section
variable {part : Part} {s₀ s : State} (hp : part ≠ .hbm ∧ part ≠ .lib)
include hp

@[simp] theorem same_securityAlarm : part.same s₀ (securityAlarm s) ↔ part.same s₀ s := by
  simp only [securityAlarm]
  repeat' split
  all_goals simp [hp]

@[simp] theorem same_itemFailure (ri level index mid) :
    part.same s₀ (itemFailure ri level index mid s) ↔ part.same s₀ s := by simp [itemFailure, hp]
@[simp] theorem same_lineFailure (ri a mid op) : part.same s₀ (lineFailure ri a mid op s) ↔ part.same s₀ s := by
  simp [lineFailure, hp]
@[simp] theorem same_poisonAccess (ri a mid) : part.same s₀ (poisonAccess ri a mid s) ↔ part.same s₀ s := by
  simp [poisonAccess, hp]

end

/-! ### What changes at most the HBM and the integrity records -/
section
variable {part : Part} {s₀ s : State} (hp : part ≠ .hbm ∧ part ≠ .integ)
include hp

@[simp] theorem same_touchLine (a fettler) : part.same s₀ (touchLine a fettler s) ↔ part.same s₀ s := by
  simp [touchLine, hp]
@[simp] theorem same_touchPath (r page res) : part.same s₀ (touchPath r page res s) ↔ part.same s₀ s :=
  same_forEach (fun k u => by simp [hp]) _
@[simp] theorem same_touchTagged (r a) : part.same s₀ (touchTagged r a s) ↔ part.same s₀ s := by
  simp [touchTagged, hp]
@[simp] theorem same_plainRead (a mid fettler) : part.same s₀ (plainRead a mid fettler s).1 ↔ part.same s₀ s := by
  simp [plainRead, hp]
@[simp] theorem same_plainWrite (a mid data be) : part.same s₀ (plainWrite a mid data be s).1 ↔ part.same s₀ s := by
  simp [plainWrite, hp]
@[simp] theorem same_fettleHbm (a) : part.same s₀ (fettleHbm a s).1 ↔ part.same s₀ s := by simp [fettleHbm, hp]
@[simp] theorem same_hbmStep : part.same s₀ (hbmStep s) ↔ part.same s₀ s := by simp [hbmStep, hp]

end

/-! ### What changes at most the block memories and the Ingot banks -/
section
variable {part : Part} {s₀ s : State} (hp : part ≠ .brams ∧ part ≠ .ingot)
include hp

@[simp] theorem same_dropWaiting (r) : part.same s₀ (dropWaiting r s) ↔ part.same s₀ s :=
  (same_setBrams hp.1 _).trans (same_modIngot hp.2 _)
@[simp] theorem same_abortPorts (r) : part.same s₀ (abortPorts r s) ↔ part.same s₀ s :=
  (same_setBrams hp.1 _).trans (same_dropWaiting hp _)

end

/-! ### What changes at most the block memories, the engines, the Ingot banks, the regions, the queues and the
Runner's records -/
section
variable {part : Part} {s₀ s : State} (hp : part ≠ .brams ∧ part ≠ .dsp ∧ part ≠ .ingot ∧ part ≠ .regions ∧
  part ≠ .riser ∧ part ≠ .runner)
include hp

@[simp] theorem same_resetTiers (r scope) : part.same s₀ (resetTiers r scope s) ↔ part.same s₀ s := by
  simp [resetTiers, hp]

end

/-! ### What changes at most the HBM, the integrity records and the library -/
section
variable {part : Part} {s₀ s : State} (hp : part ≠ .hbm ∧ part ≠ .integ ∧ part ≠ .lib)
include hp

@[simp] theorem same_protRead (ri a mid) : part.same s₀ (protRead ri a mid s).1 ↔ part.same s₀ s := by
  simp only [protRead]
  repeat' split
  all_goals simp [hp]

@[simp] theorem same_protWrite (ri a mid data be) :
    part.same s₀ (protWrite ri a mid data be s).1 ↔ part.same s₀ s := by
  simp only [protWrite]
  repeat' split
  all_goals simp [hp]

@[simp] theorem same_hbmRead (a mid) : part.same s₀ (hbmRead a mid s).1 ↔ part.same s₀ s := by
  simp only [hbmRead]
  repeat' split
  all_goals simp [hp]

@[simp] theorem same_hbmWrite (a mid data be) : part.same s₀ (hbmWrite a mid data be s).1 ↔ part.same s₀ s := by
  simp only [hbmWrite]
  split <;> simp [hp]

@[simp] theorem same_readPageLines (ri mid a off leaf lines acc) :
    part.same s₀ (readPageLines ri mid a off leaf lines acc).1 ↔ part.same s₀ acc.1 := by
  refine same_foldl_fst (fun u k => ?_) lines acc
  dsimp only
  split
  · rfl
  · split
    · simp [hp]
    · split <;> simp [hp]

@[simp] theorem same_readPage (mid a off acc) : part.same s₀ (readPage mid a off acc).1 ↔ part.same s₀ acc.1 := by
  rcases acc with ⟨s, e⟩
  simp only [readPage]
  split
  · rfl
  · split
    · rfl
    · split
      · simp [hp]
      · split
        · simp [hp]
        · split <;> simp [hp]

@[simp] theorem same_readEntry (mid i) : part.same s₀ (readEntry mid i s).1 ↔ part.same s₀ s :=
  same_foldl_fst (fun _ _ => same_readPage hp _ _ _ _) _ _
@[simp] theorem same_copyEntry (r i) : part.same s₀ (copyEntry r i s).1 ↔ part.same s₀ s := by simp [copyEntry, hp]

end

/-! ### What changes at most the HBM, the integrity records, the library and the regions -/
section
variable {part : Part} {s₀ s : State} (hp : part ≠ .hbm ∧ part ≠ .integ ∧ part ≠ .lib ∧ part ≠ .regions)
include hp

@[simp] theorem same_refillActive (r i) : part.same s₀ (refillActive r i s).1 ↔ part.same s₀ s := by
  have copied := same_copyEntry (s₀ := s₀) (s := s) ⟨hp.1, hp.2.1, hp.2.2.1⟩ r i
  simp only [refillActive]
  split <;> simp_all

end

/-! ### What changes at most the block memories, the engines, the HBM, the Ingot banks, the integrity records, the
library, the regions and the Runner's records -/
section
variable {part : Part} {s₀ s : State} (hp : part ≠ .brams ∧ part ≠ .dsp ∧ part ≠ .hbm ∧ part ≠ .ingot ∧
  part ≠ .integ ∧ part ≠ .lib ∧ part ≠ .regions ∧ part ≠ .runner)
include hp

@[simp] theorem same_exitDone (r left checker) : part.same s₀ (exitDone r left checker s) ↔ part.same s₀ s := by
  unfold exitDone
  extract_lets reg load ready s1 s2 s3 s4 s5
  have ready_frame : ∀ u, part.same s₀ (ready u) ↔ part.same s₀ u := fun u => by simp [ready, hp]
  have e1 : part.same s₀ s1 ↔ part.same s₀ s := by simp [s1, hp]
  have e2 : part.same s₀ s2 ↔ part.same s₀ s1 := by simp [s2, hp]
  have e3 : part.same s₀ s3 ↔ part.same s₀ s2 := by
    simp only [s3]
    split
    · split
      · simp [hp]
      · next i _ =>
        have refilled := same_refillActive (s₀ := s₀) (s := s2) (part := part) (by simp [hp]) r i
        split
        all_goals rename_i heq; rw [heq] at refilled
        · simpa [hp] using refilled
        · simpa [hp, ready_frame] using refilled
    · exact ready_frame s2
  have e4 : part.same s₀ s4 ↔ part.same s₀ s3 := by simp [s4, hp]
  have e5 : part.same s₀ s5 ↔ part.same s₀ s4 := by
    simp only [s5]
    split
    · split <;> simp [hp]
    · rfl
  simp [hp, e1, e2, e3, e4, e5]

end

/-! ### What changes at most the links, the Runner's records and the system layer -/
section
variable {part : Part} {s₀ s : State} (hp : part ≠ .links ∧ part ≠ .runner ∧ part ≠ .sys)
include hp

@[simp] theorem same_enterUp (l node link) : part.same s₀ (enterUp l node link s) ↔ part.same s₀ s := by
  simp only [enterUp]
  split <;> simp [hp]
@[simp] theorem same_takeHello (l lane p) : part.same s₀ (takeHello l lane p s) ↔ part.same s₀ s := by
  simp only [takeHello]
  split <;> simp [hp]

end

/-! ### What changes at most the Ingot banks, the integrity records and the Runner's records -/
section
variable {part : Part} {s₀ s : State} (hp : part ≠ .ingot ∧ part ≠ .integ ∧ part ≠ .runner)
include hp

@[simp] theorem same_ingotServe (bank) : part.same s₀ (ingotServe bank s) ↔ part.same s₀ s := by
  simp only [ingotServe]
  split <;> simp [hp]
@[simp] theorem same_runBank (bank) : part.same s₀ (runBank bank s) ↔ part.same s₀ s :=
  same_iter (fun _ => same_ingotServe hp _) _
@[simp] theorem same_settleBank (o) : part.same s₀ (settleBank o s) ↔ part.same s₀ s := by
  simp only [settleBank]
  split <;> simp [hp]

@[simp] theorem same_serveFirst (src tag) : part.same s₀ (serveFirst src tag s) ↔ part.same s₀ s := by
  simp only [serveFirst]
  repeat' split
  all_goals simp [hp]

@[simp] theorem same_fettleIngot (bank line) : part.same s₀ (fettleIngot bank line s).1 ↔ part.same s₀ s := by
  simp [fettleIngot, hp]

end

/-! ### What changes at most the clocks, the integrity records and the regions -/
section
variable {part : Part} {s₀ s : State} (hp : part ≠ .clk ∧ part ≠ .integ ∧ part ≠ .regions)
include hp

@[simp] theorem same_switchPlane (r p) : part.same s₀ (switchPlane r p s) ↔ part.same s₀ s := by
  simp [switchPlane, hp]
@[simp] theorem same_runSlice (r j p entry) : part.same s₀ (runSlice r j p entry s) ↔ part.same s₀ s := by
  simp [runSlice, hp]

end

/-! ### What changes at most the engines, the integrity records, the regions and the queues -/
section
variable {part : Part} {s₀ s : State} (hp : part ≠ .dsp ∧ part ≠ .integ ∧ part ≠ .regions ∧ part ≠ .riser)
include hp

@[simp] theorem same_startEntry (r dest) : part.same s₀ (startEntry r dest s) ↔ part.same s₀ s := by
  simp [startEntry, hp]
@[simp] theorem same_skipChange (r d) : part.same s₀ (skipChange r d s) ↔ part.same s₀ s := by simp [skipChange, hp]
@[simp] theorem same_lapseChange (r d) : part.same s₀ (lapseChange r d s) ↔ part.same s₀ s := by
  simp [lapseChange, hp]
@[simp] theorem same_endGrace (r) : part.same s₀ (endGrace r s) ↔ part.same s₀ s := by
  simp only [endGrace]
  split <;> simp [hp]
@[simp] theorem same_endAfter (r) : part.same s₀ (endAfter r s) ↔ part.same s₀ s := by
  simp only [endAfter]
  split <;> simp [hp]
@[simp] theorem same_endPending (r) : part.same s₀ (endPending r s) ↔ part.same s₀ s := by simp [endPending, hp]
@[simp] theorem same_decideAsleep (r d) : part.same s₀ (decideAsleep r d s) ↔ part.same s₀ s := by
  simp [decideAsleep, hp]

end

/-! ### What changes at most the block memories, the engines, the Ingot banks, the integrity records, the regions,
the queues and the Runner's records -/
section
variable {part : Part} {s₀ s : State} (hp : part ≠ .brams ∧ part ≠ .dsp ∧ part ≠ .ingot ∧ part ≠ .integ ∧
  part ≠ .regions ∧ part ≠ .riser ∧ part ≠ .runner)
include hp

@[simp] theorem same_testRegion (r) : part.same s₀ (testRegion r s) ↔ part.same s₀ s := by simp [testRegion, hp]

end

/-! ### What changes at most the bonds, the block memories, the engines, the Ingot banks, the integrity records, the
regions, the queues and the Runner's records -/
section
variable {part : Part} {s₀ s : State} (hp : part ≠ .bonds ∧ part ≠ .brams ∧ part ≠ .dsp ∧ part ≠ .ingot ∧
  part ≠ .integ ∧ part ≠ .regions ∧ part ≠ .riser ∧ part ≠ .runner)
include hp

@[simp] theorem same_enterTest : part.same s₀ (enterTest s) ↔ part.same s₀ s := by simp [enterTest, hp]

end

/-! ### What changes at most the clocks, the integrity records, the regions and the Runner's records -/
section
variable {part : Part} {s₀ s : State} (hp : part ≠ .clk ∧ part ≠ .integ ∧ part ≠ .regions ∧ part ≠ .runner)
include hp

@[simp] theorem same_leaveTest (r j) : part.same s₀ (leaveTest r j s) ↔ part.same s₀ s := by
  simp only [leaveTest]
  split <;> simp [hp]
@[simp] theorem same_closeSlice (r j) : part.same s₀ (closeSlice r j s) ↔ part.same s₀ s := by simp [closeSlice, hp]

end

/-! ### What changes at most the bonds, the clocks, the integrity records, the regions and the Runner's records -/
section
variable {part : Part} {s₀ s : State} (hp : part ≠ .bonds ∧ part ≠ .clk ∧ part ≠ .integ ∧ part ≠ .regions ∧
  part ≠ .runner)
include hp

@[simp] theorem same_abandonSlice (r) : part.same s₀ (abandonSlice r s) ↔ part.same s₀ s := by
  simp only [abandonSlice]
  split
  · split <;> simp [hp]
  · rfl

end

/-! ### What changes at most the block memories, the engines, the HBM, the integrity records and the library -/
section
variable {part : Part} {s₀ s : State} (hp : part ≠ .brams ∧ part ≠ .dsp ∧ part ≠ .hbm ∧ part ≠ .integ ∧ part ≠ .lib)
include hp

@[simp] theorem same_readLine (mid a) : part.same s₀ (readLine mid a s).1 ↔ part.same s₀ s := by
  simp only [readLine]
  repeat' split
  all_goals simp [hp]

@[simp] theorem same_readLines (mid h n i) : part.same s₀ (readLines mid h n i s).1 ↔ part.same s₀ s := by
  induction n generalizing i s with
  | zero => rfl
  | succ n ih => simp [readLines, ih, hp]

@[simp] theorem same_readBurst (mid h) : part.same s₀ (readBurst mid h s).1 ↔ part.same s₀ s := by
  simp only [readBurst]
  split <;> simp [hp]

end

/-! ### What changes at most the engines, the integrity records, the regions, the queues and the Runner's records -/
section
variable {part : Part} {s₀ s : State} (hp : part ≠ .dsp ∧ part ≠ .integ ∧ part ≠ .regions ∧ part ≠ .riser ∧
  part ≠ .runner)
include hp

@[simp] theorem same_retireRegion (r) : part.same s₀ (retireRegion r s) ↔ part.same s₀ s := by simp [retireRegion, hp]
@[simp] theorem same_defectsFull (r) : part.same s₀ (defectsFull r s) ↔ part.same s₀ s := by simp [defectsFull, hp]
@[simp] theorem same_addDeadWire (r d) : part.same s₀ (addDeadWire r d s) ↔ part.same s₀ s := by
  simp [addDeadWire, hp]

end

/-! ### What changes at most the clocks, the engines, the integrity records, the regions and the queues -/
section
variable {part : Part} {s₀ s : State} (hp : part ≠ .clk ∧ part ≠ .dsp ∧ part ≠ .integ ∧ part ≠ .regions ∧
  part ≠ .riser)
include hp

@[simp] theorem same_carryOut (r d ovr outcome) : part.same s₀ (carryOut r d ovr outcome s) ↔ part.same s₀ s := by
  simp [carryOut, hp]
@[simp] theorem same_forceChange (r d outcome) : part.same s₀ (forceChange r d outcome s) ↔ part.same s₀ s := by
  simp [forceChange, hp]
@[simp] theorem same_overrun (r d) : part.same s₀ (overrun r d s) ↔ part.same s₀ s := by simp [overrun, hp]
@[simp] theorem same_decideRunning (r k d) : part.same s₀ (decideRunning r k d s) ↔ part.same s₀ s := by
  simp only [decideRunning]
  split <;> simp [hp]
@[simp] theorem same_decideRegion (r k fresh) : part.same s₀ (decideRegion r k fresh s) ↔ part.same s₀ s := by
  simp [decideRegion, hp]
@[simp] theorem same_takeDeferred (r) : part.same s₀ (takeDeferred r s) ↔ part.same s₀ s := by
  simp only [takeDeferred]
  split <;> simp [hp]
@[simp] theorem same_settleDeferred (r) : part.same s₀ (settleDeferred r s) ↔ part.same s₀ s := by
  simp [settleDeferred, hp]
@[simp] theorem same_takeAfter (r) : part.same s₀ (takeAfter r s) ↔ part.same s₀ s := by
  simp only [takeAfter]
  split <;> simp [hp]

end

/-! ### What changes at most the bonds, the clocks, the engines, the integrity records, the regions, the queues and
the Runner's records -/
section
variable {part : Part} {s₀ s : State} (hp : part ≠ .bonds ∧ part ≠ .clk ∧ part ≠ .dsp ∧ part ≠ .integ ∧
  part ≠ .regions ∧ part ≠ .riser ∧ part ≠ .runner)
include hp

@[simp] theorem same_regionBoundary (k r) : part.same s₀ (regionBoundary k r s) ↔ part.same s₀ s := by
  simp only [regionBoundary]
  repeat' split
  all_goals simp [hp]

end

/-! ### What changes at most the bonds, the clocks, the engines, the integrity records, the regions, the queues, the
Runner's records, the thermal records and the tick -/
section
variable {part : Part} {s₀ s : State} (hp : part ≠ .bonds ∧ part ≠ .clk ∧ part ≠ .dsp ∧ part ≠ .integ ∧
  part ≠ .regions ∧ part ≠ .riser ∧ part ≠ .runner ∧ part ≠ .therm ∧ part ≠ .tick)
include hp

@[simp] theorem same_slotBoundary (k) : part.same s₀ (slotBoundary k s) ↔ part.same s₀ s := by simp [slotBoundary, hp]
theorem kept_execSlotBoundary (k) : part.keptBy s (execSlotBoundary k s) := by
  unfold execSlotBoundary
  exact kept_occurs (by simp [hp])

end

/-! ### What changes at most the block memories, the clocks, the engines, the HBM, the integrity records and the
library -/
section
variable {part : Part} {s₀ s : State} (hp : part ≠ .brams ∧ part ≠ .clk ∧ part ≠ .dsp ∧ part ≠ .hbm ∧
  part ≠ .integ ∧ part ≠ .lib)
include hp

@[simp] theorem same_writeLine (mid a l) : part.same s₀ (writeLine mid a l s).1 ↔ part.same s₀ s := by
  simp only [writeLine]
  repeat' split
  all_goals simp [hp]

@[simp] theorem same_writeLines (mid h lines i c) :
    part.same s₀ (writeLines mid h lines i s c).1 ↔ part.same s₀ s := by
  induction lines generalizing i s c with
  | nil => rfl
  | cons l ls ih => simp [writeLines, ih, hp]

@[simp] theorem same_writeCount (j p) : part.same s₀ (writeCount j p s) ↔ part.same s₀ s := by simp [writeCount, hp]

end

/-! ### What changes at most the block memories, the clocks, the engines, the HBM, the integrity records, the lanes
and the library -/
section
variable {part : Part} {s₀ s : State} (hp : part ≠ .brams ∧ part ≠ .clk ∧ part ≠ .dsp ∧ part ≠ .hbm ∧
  part ≠ .integ ∧ part ≠ .lanes ∧ part ≠ .lib)
include hp

@[simp] theorem same_completeScan (l counts) : part.same s₀ (completeScan l counts s) ↔ part.same s₀ s := by
  simp only [completeScan]
  split <;> simp [hp]
theorem kept_execEyescanComplete (lane counts) : part.keptBy s (execEyescanComplete lane counts s) := by
  unfold execEyescanComplete
  exact kept_occurs (by simp [hp])

end

/-! ### What changes at most the block memories, the clocks, the engines, the HBM, the Ingot banks, the integrity
records, the library and the queues -/
section
variable {part : Part} {s₀ s : State} (hp : part ≠ .brams ∧ part ≠ .clk ∧ part ≠ .dsp ∧ part ≠ .hbm ∧
  part ≠ .ingot ∧ part ≠ .integ ∧ part ≠ .lib ∧ part ≠ .riser)
include hp

@[simp] theorem same_performAt (o) : part.same s₀ (performAt o s).1 ↔ part.same s₀ s := by
  unfold performAt
  extract_lets h mid
  split
  case h_1 q off _ =>
    have burst := same_riserBurst (s₀ := s₀) (s := s) (part := part) (by simp [hp]) q (off / 64 * 64) mid o.op
      (lineCount h) o.wlines (popAhead s q o false) (popAhead s q o true)
    split <;> simp_all
  case h_2 =>
    extract_lets o' window
    split
    · rfl
    · have access : ∀ held, window = some held → (part.same s₀ held.1 ↔ part.same s₀ s) := by
        intro held hw
        simp only [window] at hw
        split at hw
        · exact same_windowAccess (by simp [hp]) _ _ hw
        · cases hw
      split
      · exact access _ ‹_›
      · simp [hp]
      · split
        · split <;> simp [hp]
        · simp [hp]
        · rfl

end

/-! ### What changes at most the block memories, the engines, the integrity records, the regions, the queues and the
Runner's records -/
section
variable {part : Part} {s₀ s : State} (hp : part ≠ .brams ∧ part ≠ .dsp ∧ part ≠ .integ ∧ part ≠ .regions ∧
  part ≠ .riser ∧ part ≠ .runner)
include hp

@[simp] theorem same_addRetiredMemory (r d) : part.same s₀ (addRetiredMemory r d s).1 ↔ part.same s₀ s := by
  simp [addRetiredMemory, hp]
@[simp] theorem same_retireBram (q) : part.same s₀ (retireBram q s).1 ↔ part.same s₀ s := by simp [retireBram, hp]

end

/-! ### What changes at most the block memories, the engines, the Ingot banks, the integrity records, the regions and
the Runner's records -/
section
variable {part : Part} {s₀ s : State} (hp : part ≠ .brams ∧ part ≠ .dsp ∧ part ≠ .ingot ∧ part ≠ .integ ∧
  part ≠ .regions ∧ part ≠ .runner)
include hp

@[simp] theorem same_fettleWord (r k pos) : part.same s₀ (fettleWord r k pos s).1 ↔ part.same s₀ s := by
  simp only [fettleWord]
  split <;> simp [hp]
@[simp] theorem same_sweepStep (r k) : part.same s₀ (sweepStep r k s) ↔ part.same s₀ s := by
  simp only [sweepStep]
  split <;> simp [hp]

end

/-! ### What changes at most the bonds, the block memories, the engines, the integrity records, the regions, the
queues and the Runner's records -/
section
variable {part : Part} {s₀ s : State} (hp : part ≠ .bonds ∧ part ≠ .brams ∧ part ≠ .dsp ∧ part ≠ .integ ∧
  part ≠ .regions ∧ part ≠ .riser ∧ part ≠ .runner)
include hp

@[simp] theorem same_bundleFailed (r source b) : part.same s₀ (bundleFailed r source b s) ↔ part.same s₀ s := by
  simp only [bundleFailed]
  repeat' split
  all_goals simp [hp]

@[simp] theorem same_noSpare (r source b pos) : part.same s₀ (noSpare r source b pos s) ↔ part.same s₀ s := by
  simp only [noSpare]
  split <;> simp [hp]

@[simp] theorem same_failBond (r source b pos) : part.same s₀ (failBond r source b pos s) ↔ part.same s₀ s := by
  simp only [failBond]
  repeat' split
  all_goals simp [hp]

@[simp] theorem same_takeFinding (source f) : part.same s₀ (takeFinding source f s) ↔ part.same s₀ s := by
  simp [takeFinding, hp]
@[simp] theorem same_startSweep (findings checkers) :
    part.same s₀ (startSweep findings checkers s) ↔ part.same s₀ s := by simp [startSweep, hp]
@[simp] theorem same_sweepBundle (b findings) : part.same s₀ (sweepBundle b findings s) ↔ part.same s₀ s := by
  simp [sweepBundle, hp]
@[simp] theorem same_completeTest (results findings) :
    part.same s₀ (completeTest results findings s) ↔ part.same s₀ s := by simp [completeTest, hp]

theorem kept_execBootBondSweepComplete (findings checkers) :
    part.keptBy s (execBootBondSweepComplete findings checkers s) := by
  unfold execBootBondSweepComplete
  exact kept_occurs (by simp [hp])

theorem kept_execBusSweep (b findings) : part.keptBy s (execBusSweep b findings s) := by
  unfold execBusSweep
  exact kept_occurs (by simp [hp])
theorem kept_execTestComplete (results findings) : part.keptBy s (execTestComplete results findings s) := by
  unfold execTestComplete
  exact kept_occurs (by simp [hp])

end

/-! ### What changes at most the block memories, the clocks, the engines, the HBM, the Ingot banks, the integrity
records, the library, the queues and the Runner's records -/
section
variable {part : Part} {s₀ s : State} (hp : part ≠ .brams ∧ part ≠ .clk ∧ part ≠ .dsp ∧ part ≠ .hbm ∧
  part ≠ .ingot ∧ part ≠ .integ ∧ part ≠ .lib ∧ part ≠ .riser ∧ part ≠ .runner)
include hp

@[simp] theorem same_retryPops (q) : part.same s₀ (retryPops q s) ↔ part.same s₀ s := by simp [retryPops, hp]
@[simp] theorem same_checkQueue (q) : part.same s₀ (checkQueue q s) ↔ part.same s₀ s := by
  simp only [checkQueue]
  split <;> simp [hp]
@[simp] theorem same_enginePush (q data eop) : part.same s₀ (enginePush q data eop s) ↔ part.same s₀ s := by
  simp [enginePush, hp]

@[simp] theorem same_writeItems (q fin n bs) : part.same s₀ (writeItems q fin n bs s).1 ↔ part.same s₀ s := by
  induction n generalizing bs s with
  | zero => rfl
  | succ n ih =>
    simp only [writeItems]
    split
    · simp [ih, hp]
    · split <;> simp [hp]

@[simp] theorem same_writeWhole (h vc link body) : part.same s₀ (writeWhole h vc link body s) ↔ part.same s₀ s := by
  simp [writeWhole, hp]

@[simp] theorem same_readTxItem (q) : part.same s₀ (readTxItem q s).1 ↔ part.same s₀ s := by
  simp only [readTxItem]
  split
  · have popped := same_popOne (s₀ := s₀) (s := checkQueue q s) (part := part) (by simp [hp]) q
    split
    all_goals rename_i heq; rw [heq] at popped; simpa [hp] using popped
  · simp [hp]

@[simp] theorem same_commandReset (q) : part.same s₀ (commandReset q s) ↔ part.same s₀ s := by simp [commandReset, hp]
@[simp] theorem same_disableQueue (q x) : part.same s₀ (disableQueue q x s).1 ↔ part.same s₀ s := by
  simp [disableQueue, hp]
theorem kept_execSpillReadbackComplete (q bad) : part.keptBy s (execSpillReadbackComplete q bad s) := by
  unfold execSpillReadbackComplete
  exact kept_occurs (by simp [hp])

theorem kept_execRiserConfig (p sl) : part.keptBy s (execRiserConfig p sl s) := by
  refine kept_runCmd (fun q u => ?_) p sl
  simp only [riserConfigSpec]
  repeat' split
  all_goals simp [hp]

theorem kept_execRiserReset (p sl) : part.keptBy s (execRiserReset p sl s) := by
  refine kept_runCmd (fun q u => ?_) p sl
  simp only [riserResetSpec]
  repeat' split
  all_goals simp [hp]

end

/-! ### What changes at most the bonds, the block memories, the clocks, the engines, the Ingot banks, the integrity
records, the regions, the queues and the Runner's records -/
section
variable {part : Part} {s₀ s : State} (hp : part ≠ .bonds ∧ part ≠ .brams ∧ part ≠ .clk ∧ part ≠ .dsp ∧
  part ≠ .ingot ∧ part ≠ .integ ∧ part ≠ .regions ∧ part ≠ .riser ∧ part ≠ .runner)
include hp

@[simp] theorem same_beginReset (r) : part.same s₀ (beginReset r s) ↔ part.same s₀ s := by simp [beginReset, hp]
@[simp] theorem same_tryReset (r scope w) : part.same s₀ (tryReset r scope w s).1 ↔ part.same s₀ s := by
  simp [tryReset, hp]

theorem kept_execRegionReset (p sl) : part.keptBy s (execRegionReset p sl s) := by
  refine kept_runCmd (fun q u => ?_) p sl
  simp only [regionResetSpec]
  repeat' split
  all_goals simp [hp]

end

/-! ### What changes at most the block memories, the clocks, the engines, the HBM, the Ingot banks, the integrity
records, the library, the queues, the Runner's records and the system layer -/
section
variable {part : Part} {s₀ s : State} (hp : part ≠ .brams ∧ part ≠ .clk ∧ part ≠ .dsp ∧ part ≠ .hbm ∧
  part ≠ .ingot ∧ part ≠ .integ ∧ part ≠ .lib ∧ part ≠ .riser ∧ part ≠ .runner ∧ part ≠ .sys)
include hp

@[simp] theorem same_deliverWhole (h vc link body) :
    part.same s₀ (deliverWhole h vc link body s) ↔ part.same s₀ s := by simp [deliverWhole, hp]
@[simp] theorem same_retryWhole : part.same s₀ (retryWhole s) ↔ part.same s₀ s := by simp [retryWhole, hp]
@[simp] theorem same_flushCompletions : part.same s₀ (flushCompletions s) ↔ part.same s₀ s := by
  simp [flushCompletions, hp]

@[simp] theorem same_sendOutcome (q d link status) :
    part.same s₀ (sendOutcome q d link status s) ↔ part.same s₀ s := by
  simp only [sendOutcome]
  split <;> simp [hp]

@[simp] theorem same_endSend (q status) : part.same s₀ (endSend q status s) ↔ part.same s₀ s := by
  simp only [endSend]
  split <;> simp [hp]
@[simp] theorem same_arriveWhole (link h vc body) : part.same s₀ (arriveWhole link h vc body s) ↔ part.same s₀ s := by
  simp only [arriveWhole]
  split <;> simp [hp]

end

/-! ### What changes at most the block memories, the clocks, the engines, the HBM, the Ingot banks, the integrity
records, the library, the regions, the queues and the Runner's records -/
section
variable {part : Part} {s₀ s : State} (hp : part ≠ .brams ∧ part ≠ .clk ∧ part ≠ .dsp ∧ part ≠ .hbm ∧
  part ≠ .ingot ∧ part ≠ .integ ∧ part ≠ .lib ∧ part ≠ .regions ∧ part ≠ .riser ∧ part ≠ .runner)
include hp

@[simp] theorem same_passGate (o) : part.same s₀ (passGate o s).1 ↔ part.same s₀ s := by
  simp only [passGate]
  repeat' split
  all_goals simp [hp]

@[simp] theorem same_checkAndPerform (o) : part.same s₀ (checkAndPerform o s).1 ↔ part.same s₀ s := by
  simp only [checkAndPerform]
  repeat' split
  all_goals simp [hp]

@[simp] theorem same_retry (o) : part.same s₀ (retry o s) ↔ part.same s₀ s := by simp [retry, hp]
@[simp] theorem same_retryHeld (r) : part.same s₀ (retryHeld r s) ↔ part.same s₀ s := by simp [retryHeld, hp]
@[simp] theorem same_retryPage : part.same s₀ (retryPage s) ↔ part.same s₀ s := by simp [retryPage, hp]
@[simp] theorem same_issueRequest (h op lines) : part.same s₀ (issueRequest h op lines s) ↔ part.same s₀ s := by
  simp only [issueRequest]
  split <;> simp [hp]
@[simp] theorem same_endRepair (page w) : part.same s₀ (endRepair page w s) ↔ part.same s₀ s := by
  simp [endRepair, hp]
@[simp] theorem same_issueLocal (h lines) : part.same s₀ (issueLocal h lines s) ↔ part.same s₀ s := by
  simp [issueLocal, hp]
theorem kept_execHbmZeroFillComplete : part.keptBy s (execHbmZeroFillComplete s) := by
  unfold execHbmZeroFillComplete
  exact kept_occurs (by simp [hp])

theorem kept_execHbmRepairComplete : part.keptBy s (execHbmRepairComplete s) := by
  unfold execHbmRepairComplete
  split
  · exact kept_occurs (by simp [hp])
  · exact kept_next

theorem kept_execPowerEntryComplete (r) : part.keptBy s (execPowerEntryComplete r s) := by
  unfold execPowerEntryComplete
  split
  · exact kept_occurs (by simp [hp])
  · exact kept_next

theorem kept_execPop (h) : part.keptBy s (execPop h s) := by
  unfold execPop
  exact kept_occurs (by simp [hp])
theorem kept_execPopStatus (h) : part.keptBy s (execPopStatus h s) := by
  unfold execPopStatus
  exact kept_occurs (by simp [hp])
theorem kept_execEvPop (h) : part.keptBy s (execEvPop h s) := by
  unfold execEvPop
  exact kept_occurs (by simp [hp])
theorem kept_execCrcData (h line) : part.keptBy s (execCrcData h line s) := by
  unfold execCrcData
  exact kept_occurs (by simp [hp])
theorem kept_execCrcCtrl (h line) : part.keptBy s (execCrcCtrl h line s) := by
  unfold execCrcCtrl
  exact kept_occurs (by simp [hp])
theorem kept_execCrcValue (h line) : part.keptBy s (execCrcValue h line s) := by
  unfold execCrcValue
  exact kept_occurs (by simp [hp])
theorem kept_execRegisterWrite (h lines) : part.keptBy s (execRegisterWrite h lines s) := by
  unfold execRegisterWrite
  exact kept_occurs (by simp [hp])

end

/-! ### What changes at most the block memories, the clocks, the engines, the HBM, the Ingot banks, the integrity
records, the library, the regions, the queues, the Runner's records and the tick -/
section
variable {part : Part} {s₀ s : State} (hp : part ≠ .brams ∧ part ≠ .clk ∧ part ≠ .dsp ∧ part ≠ .hbm ∧
  part ≠ .ingot ∧ part ≠ .integ ∧ part ≠ .lib ∧ part ≠ .regions ∧ part ≠ .riser ∧ part ≠ .runner ∧ part ≠ .tick)
include hp

@[simp] theorem same_issueHost (a n rd bytes) : part.same s₀ (issueHost a n rd bytes s) ↔ part.same s₀ s := by
  simp [issueHost, hp]

theorem kept_execHostRequest (bar2 offset rd bytes count) :
    part.keptBy s (execHostRequest bar2 offset rd bytes count s) := by
  unfold execHostRequest
  exact kept_occurs (by simp [hp])

theorem kept_execTickNumberLowRead (h) : part.keptBy s (execTickNumberLowRead h s) := by
  unfold execTickNumberLowRead
  exact kept_occurs (by simp [hp])

end

/-! ### What changes at most the block memories, the clocks, the engines, the HBM, the Ingot banks, the integrity
records, the library, the links, the queues and the Runner's records -/
section
variable {part : Part} {s₀ s : State} (hp : part ≠ .brams ∧ part ≠ .clk ∧ part ≠ .dsp ∧ part ≠ .hbm ∧
  part ≠ .ingot ∧ part ≠ .integ ∧ part ≠ .lib ∧ part ≠ .links ∧ part ≠ .riser ∧ part ≠ .runner)
include hp

@[simp] theorem same_abandonArrival (l v) : part.same s₀ (abandonArrival l v s) ↔ part.same s₀ s := by
  simp only [abandonArrival]
  split <;> simp [hp]
@[simp] theorem same_dropMessage (l v last) : part.same s₀ (dropMessage l v last s) ↔ part.same s₀ s := by
  simp [dropMessage, hp]

end

/-! ### What changes at most the block memories, the clocks, the engines, the HBM, the Ingot banks, the integrity
records, the lanes, the library, the queues and the Runner's records -/
section
variable {part : Part} {s₀ s : State} (hp : part ≠ .brams ∧ part ≠ .clk ∧ part ≠ .dsp ∧ part ≠ .hbm ∧
  part ≠ .ingot ∧ part ≠ .integ ∧ part ≠ .lanes ∧ part ≠ .lib ∧ part ≠ .riser ∧ part ≠ .runner)
include hp

@[simp] theorem same_commitItem (l) : part.same s₀ (commitItem l s) ↔ part.same s₀ s := by simp [commitItem, hp]

theorem same_applyCfg (l c) {t : State} (h : applyCfg l c s = some t) : part.same s₀ t ↔ part.same s₀ s := by
  simp only [applyCfg] at h
  split at h
  · cases h
    simp [hp]
  · split at h
    · cases h
      simp [hp]
    · split at h
      · cases h
      · cases h
        simp [hp]

@[simp] theorem same_configureLane (l c) : part.same s₀ (configureLane l c s).1 ↔ part.same s₀ s := by
  simp only [configureLane]
  split
  next t ht => simp [same_applyCfg hp l c ht, hp]
  next => rfl

@[simp] theorem same_receiveUnit (l u wrong) : part.same s₀ (receiveUnit l u wrong s) ↔ part.same s₀ s := by
  simp only [receiveUnit]
  split
  · simp [hp]
  · split <;> simp [hp]

theorem same_formLanes (old p) {t : State} (h : formLanes old p s = some t) : part.same s₀ t ↔ part.same s₀ s := by
  simp only [formLanes] at h
  exact (same_foldl_bind (fun k u v hv => same_applyCfg hp _ _ hv) _ h).trans (same_leavePlls (by simp [hp]) _ _)

theorem kept_execLaneConfig (p sl) : part.keptBy s (execLaneConfig p sl s) := by
  refine kept_runCmd (fun q u => ?_) p sl
  simp only [laneConfigSpec]
  repeat' split
  all_goals simp [hp]

theorem kept_execLaneFlushTimeout (lane) : part.keptBy s (execLaneFlushTimeout lane s) := by
  unfold execLaneFlushTimeout
  exact kept_occurs (by simp [hp])

theorem kept_execLaneTransmitItem (lane) : part.keptBy s (execLaneTransmitItem lane s) := by
  unfold execLaneTransmitItem
  extract_lets l x
  split
  · exact kept_occurs (by simp [hp])
  · have item := same_readTxItem (s₀ := s) (s := s) (part := part) (by simp [hp]) x.cfg.txQueue
    refine kept_occurs ?_
    dsimp only
    split
    all_goals rename_i heq; rw [heq] at item; simpa [hp] using item

end

/-! ### What changes at most the block memories, the clocks, the engines, the HBM, the Ingot banks, the integrity
records, the library, the links, the queues, the Runner's records and the system layer -/
section
variable {part : Part} {s₀ s : State} (hp : part ≠ .brams ∧ part ≠ .clk ∧ part ≠ .dsp ∧ part ≠ .hbm ∧
  part ≠ .ingot ∧ part ≠ .integ ∧ part ≠ .lib ∧ part ≠ .links ∧ part ≠ .riser ∧ part ≠ .runner ∧ part ≠ .sys)
include hp

@[simp] theorem same_giveWhole (vc link) : part.same s₀ (giveWhole vc link s) ↔ part.same s₀ s := by
  simp only [giveWhole]
  split <;> simp [hp]
@[simp] theorem same_releaseEntries (l n) : part.same s₀ (releaseEntries l n s) ↔ part.same s₀ s := by
  simp [releaseEntries, hp]
@[simp] theorem same_takeAck (l a) : part.same s₀ (takeAck l a s) ↔ part.same s₀ s := by simp [takeAck, hp]
@[simp] theorem same_dispatch (h vc body q) : part.same s₀ (dispatch h vc body q s).1 ↔ part.same s₀ s := by
  simp only [dispatch]
  split <;> simp [hp]
@[simp] theorem same_respond (v status mask data) : part.same s₀ (respond v status mask data s) ↔ part.same s₀ s := by
  rw [show @respond = _ by delta respond; rfl]
  simp [hp]
@[simp] theorem same_refuseTxn (v status) : part.same s₀ (refuseTxn v status s) ↔ part.same s₀ s := by
  simp [refuseTxn, hp]
@[simp] theorem same_finishServing (v) : part.same s₀ (finishServing v s) ↔ part.same s₀ s := by
  simp [finishServing, hp]

@[simp] theorem same_forwardTo (l h offset) : part.same s₀ (forwardTo l h offset s).1 ↔ part.same s₀ s := by
  simp only [forwardTo]
  split
  · simp [hp]
  · split
    · split
      · simp [forwardTo.fail, hp]
      · split
        · simp [forwardTo.fail, hp]
        · rfl
    · simp [forwardTo.fail, hp]

@[simp] theorem same_continueMessage (l v a bytes last abt) :
    part.same s₀ (continueMessage l v a bytes last abt s) ↔ part.same s₀ s := by
  simp only [continueMessage]
  repeat' split
  all_goals simp [hp]

@[simp] theorem same_startMessage (l v f) : part.same s₀ (startMessage l v f s) ↔ part.same s₀ s := by
  simp only [startMessage]
  split
  · simp [hp]
  · split
    · split
      all_goals
        rename_i heq
        have forwarded := congrArg (fun x => part.same s₀ x.1) heq
        simp [hp] at forwarded
        simp [hp, forwarded]
    · split
      · split
        · simp [hp]
        · split <;> simp [hp]
      · simp [hp]

@[simp] theorem same_takeSegment (l v f) : part.same s₀ (takeSegment l v f s) ↔ part.same s₀ s := by
  simp only [takeSegment]
  split <;> simp [hp]
@[simp] theorem same_resumeVc (l v give) : part.same s₀ (resumeVc l v give s) ↔ part.same s₀ s := by
  simp [resumeVc, hp]
@[simp] theorem same_retryCredit (l v) : part.same s₀ (retryCredit l v s) ↔ part.same s₀ s := by
  simp only [retryCredit]
  split <;> simp [hp]

@[simp] theorem same_sendRequest (o k sequence) : part.same s₀ (sendRequest o k sequence s) ↔ part.same s₀ s := by
  -- `dispatch` stands as a variable: the kernel would run it when it compares the two sides of the unfolding.
  obtain ⟨send, hsend⟩ : ∃ f, f = @dispatch := ⟨_, rfl⟩
  have frame : ∀ h vc body q u, part.same s₀ (send h vc body q u).1 ↔ part.same s₀ u := fun _ _ _ _ _ =>
    hsend ▸ same_dispatch hp ..
  rw [show @sendRequest = _ by delta sendRequest; rfl, ← hsend]
  simp [frame, hp]

theorem same_tryAccept (o) {t : State} (h : tryAccept o s = some t) : part.same s₀ t ↔ part.same s₀ s := by
  simp only [tryAccept, Option.ite_none_left_eq_some] at h
  obtain ⟨-, h⟩ := h
  split at h
  all_goals
    rename_i heq
    have needed := congrArg (fun x => part.same s₀ x.1) heq
    simp [hp] at needed
  · cases h
    simp [hp, needed]
  · split at h
    · cases h
      simp [hp, needed]
    · split at h
      · cases h
        simp [hp, needed]
      · split at h
        all_goals cases h; simp [hp, needed]

@[simp] theorem same_issueRemote (h op lines) : part.same s₀ (issueRemote h op lines s) ↔ part.same s₀ s := by
  simp only [issueRemote]
  split
  · simp [hp]
  · cases ht : tryAccept (newOutst h op lines s) (pushOutst (newOutst h op lines s) s) with
    | none => simp [hp]
    | some t => simpa [hp] using same_tryAccept hp _ ht

@[simp] theorem same_takeHeader (l f) : part.same s₀ (takeHeader l f s) ↔ part.same s₀ s := by simp [takeHeader, hp]
@[simp] theorem same_acceptData (l f) : part.same s₀ (acceptData l f s) ↔ part.same s₀ s := by simp [acceptData, hp]

@[simp] theorem same_acceptHeld (l n) : part.same s₀ (acceptHeld l n s) ↔ part.same s₀ s := by
  induction n generalizing s with
  | zero => rfl
  | succ n ih =>
    simp only [acceptHeld]
    split <;> simp [ih, hp]

@[simp] theorem same_takeData (l f) : part.same s₀ (takeData l f s) ↔ part.same s₀ s := by simp [takeData, hp]
@[simp] theorem same_takeLinkctl (l f) : part.same s₀ (takeLinkctl l f s) ↔ part.same s₀ s := by
  simp [takeLinkctl, hp]
@[simp] theorem same_takeTimeFlit (l f) : part.same s₀ (takeTimeFlit l f s) ↔ part.same s₀ s := by
  simp [takeTimeFlit, hp]
@[simp] theorem same_takeLoop (l lane f) : part.same s₀ (takeLoop l lane f s) ↔ part.same s₀ s := by
  simp only [takeLoop]
  split <;> simp [hp]

@[simp] theorem same_sendPacket (q pkt) : part.same s₀ (sendPacket q pkt s) ↔ part.same s₀ s := by
  simp only [sendPacket]
  split
  · simp [hp]
  · split
    all_goals
      rename_i heq
      have sent := congrArg (fun x => part.same s₀ x.1) heq
      simp [hp] at sent
    · simp [hp, sent]
    · split <;> simp [hp, sent]

@[simp] theorem same_handLine (o l last) : part.same s₀ (handLine o l last s) ↔ part.same s₀ s := by
  simp only [handLine]
  repeat' split
  all_goals simp [hp]

@[simp] theorem same_transferLine (o) : part.same s₀ (transferLine o s) ↔ part.same s₀ s := by
  simp only [transferLine]
  repeat' split
  all_goals simp [hp]

@[simp] theorem same_handTimeouts (o) : part.same s₀ (handTimeouts o s) ↔ part.same s₀ s :=
  same_foldl (fun _ _ => same_handLine hp _ _ _) _
@[simp] theorem same_owedTimeout (o) : part.same s₀ (owedTimeout o s) ↔ part.same s₀ s := by
  simp only [owedTimeout]
  split <;> simp [hp]
@[simp] theorem same_timeOutRequest (o) : part.same s₀ (timeOutRequest o s) ↔ part.same s₀ s := by
  simp [timeOutRequest, hp]
theorem kept_execData (l lane f) : part.keptBy s (execData l lane f s) := by
  unfold execData
  exact kept_occurs (by simp [hp])
theorem kept_execLinkctl (l lane f) : part.keptBy s (execLinkctl l lane f s) := by
  unfold execLinkctl
  exact kept_occurs (by simp [hp])
theorem kept_execTime (l lane f) : part.keptBy s (execTime l lane f s) := by
  unfold execTime
  exact kept_occurs (by simp [hp])
theorem kept_execLoopFlit (l lane f) : part.keptBy s (execLoopFlit l lane f s) := by
  unfold execLoopFlit
  exact kept_occurs (by simp [hp])
theorem kept_execSendMessage (q) : part.keptBy s (execSendMessage q s) := by
  unfold execSendMessage
  exact kept_occurs (by simp [hp])

theorem kept_execMessageCreditTimeout (l vc) : part.keptBy s (execMessageCreditTimeout l vc s) := by
  unfold execMessageCreditTimeout
  split
  · exact kept_occurs (by simp [hp])
  · exact kept_occurs (by simp [hp])

theorem kept_execRemoteRequest (h op lines) : part.keptBy s (execRemoteRequest h op lines s) := by
  unfold execRemoteRequest
  exact kept_occurs (by simp [hp])

theorem kept_execRemoteRequestAccepted (src tag) : part.keptBy s (execRemoteRequestAccepted src tag s) := by
  unfold execRemoteRequestAccepted
  split
  next t ht =>
    obtain ⟨o, -, ho⟩ := Option.bind_eq_some_iff.mp ht
    exact kept_commit (same_tryAccept hp o ho)
  next => exact kept_next

theorem kept_execRunnerResponse (src tag) : part.keptBy s (execRunnerResponse src tag s) := by
  unfold execRunnerResponse
  refine kept_of_same ((same_serveFirst (by simp [hp]) src tag).mpr (part.same_self s)) ?_
  dsimp only
  split
  · exact kept_occurs (by simp [hp])
  · exact kept_next

theorem kept_execRunnerTimeout (src tag) : part.keptBy s (execRunnerTimeout src tag s) := by
  unfold execRunnerTimeout
  split
  · exact kept_occurs (by simp [hp])
  · exact kept_next

end

/-! ### What changes at most the block memories, the clocks, the engines, the HBM, the Ingot banks, the integrity
records, the library, the links, the regions, the queues, the Runner's records and the system layer -/
section
variable {part : Part} {s₀ s : State} (hp : part ≠ .brams ∧ part ≠ .clk ∧ part ≠ .dsp ∧ part ≠ .hbm ∧
  part ≠ .ingot ∧ part ≠ .integ ∧ part ≠ .lib ∧ part ≠ .links ∧ part ≠ .regions ∧ part ≠ .riser ∧ part ≠ .runner ∧
  part ≠ .sys)
include hp

@[simp] theorem same_issueServing (v op win lines tag) :
    part.same s₀ (issueServing v op win lines tag s) ↔ part.same s₀ s := by
  simp only [issueServing]
  split <;> simp [hp]

@[simp] theorem same_serveTxn (link m tag) : part.same s₀ (serveTxn link m tag s) ↔ part.same s₀ s := by
  simp only [serveTxn]
  repeat' split
  all_goals simp [hp]

@[simp] theorem same_issueAny (h op lines) : part.same s₀ (issueAny h op lines s) ↔ part.same s₀ s := by
  simp [issueAny, hp]
@[simp] theorem same_issueWrite (h lines) : part.same s₀ (issueWrite h lines s) ↔ part.same s₀ s := by
  simp [issueWrite, hp]

theorem kept_execTransactionRequest (l m) : part.keptBy s (execTransactionRequest l m s) := by
  unfold execTransactionRequest
  split
  · exact kept_occurs (by simp [hp])
  · exact kept_next

theorem kept_execWrite (h lines) : part.keptBy s (execWrite h lines s) := by
  unfold execWrite
  exact kept_occurs (by simp [hp])
theorem kept_execAdd32 (h operand) : part.keptBy s (execAdd32 h operand s) := by
  unfold execAdd32
  exact kept_occurs (by simp [hp])
theorem kept_execAdd64 (h operand) : part.keptBy s (execAdd64 h operand s) := by
  unfold execAdd64
  exact kept_occurs (by simp [hp])
theorem kept_execSwap32 (h operand) : part.keptBy s (execSwap32 h operand s) := by
  unfold execSwap32
  exact kept_occurs (by simp [hp])
theorem kept_execSwap64 (h operand) : part.keptBy s (execSwap64 h operand s) := by
  unfold execSwap64
  exact kept_occurs (by simp [hp])
theorem kept_execPush (h lines) : part.keptBy s (execPush h lines s) := by
  unfold execPush
  exact kept_occurs (by simp [hp])
theorem kept_execPushEop (h lines) : part.keptBy s (execPushEop h lines s) := by
  unfold execPushEop
  exact kept_occurs (by simp [hp])
theorem kept_execAbort (h lines) : part.keptBy s (execAbort h lines s) := by
  unfold execAbort
  exact kept_occurs (by simp [hp])

end

/-! ### What changes at most the block memories, the clocks, the engines, the HBM, the Ingot banks, the integrity
records, the lanes, the library, the links, the queues, the Runner's records and the system layer -/
section
variable {part : Part} {s₀ s : State} (hp : part ≠ .brams ∧ part ≠ .clk ∧ part ≠ .dsp ∧ part ≠ .hbm ∧
  part ≠ .ingot ∧ part ≠ .integ ∧ part ≠ .lanes ∧ part ≠ .lib ∧ part ≠ .links ∧ part ≠ .riser ∧ part ≠ .runner ∧
  part ≠ .sys)
include hp

@[simp] theorem same_linkDown (l cause) : part.same s₀ (linkDown l cause s) ↔ part.same s₀ s := by simp [linkDown, hp]
@[simp] theorem same_dropLink (l cause) : part.same s₀ (dropLink l cause s) ↔ part.same s₀ s := by simp [dropLink, hp]

@[simp] theorem same_laneLeft (lane) : part.same s₀ (laneLeft lane s) ↔ part.same s₀ s := by
  simp only [laneLeft]
  repeat' split
  all_goals simp [hp]

@[simp] theorem same_takeFromLink (l) : part.same s₀ (takeFromLink l s) ↔ part.same s₀ s := by
  simp only [takeFromLink]
  split <;> simp [hp]
@[simp] theorem same_setPrbs (q l) : part.same s₀ (setPrbs q l s) ↔ part.same s₀ s := by simp [setPrbs, hp]
@[simp] theorem same_leaveUp (l dest) : part.same s₀ (leaveUp l dest s) ↔ part.same s₀ s := by simp [leaveUp, hp]

theorem same_formLink (l p) {t : State} (h : formLink l p s = some t) : part.same s₀ t ↔ part.same s₀ s := by
  simp only [formLink, Option.map_eq_some_iff] at h
  obtain ⟨u, hu, rfl⟩ := h
  have formed := same_formLanes (s₀ := s₀) (part := part) (by simp [hp]) _ _ hu
  simp [hp] at formed
  simp [hp, formed]

@[simp] theorem same_removeLink (l) : part.same s₀ (removeLink l s) ↔ part.same s₀ s := by simp [removeLink, hp]
@[simp] theorem same_startReplay (l a) : part.same s₀ (startReplay l a s) ↔ part.same s₀ s := by
  simp [startReplay, hp]
@[simp] theorem same_takeNak (l f) : part.same s₀ (takeNak l f s) ↔ part.same s₀ s := by simp [takeNak, hp]
@[simp] theorem same_takeHelloFlit (l lane f) : part.same s₀ (takeHelloFlit l lane f s) ↔ part.same s₀ s := by
  simp [takeHelloFlit, hp]
@[simp] theorem same_takeDown (l f) : part.same s₀ (takeDown l f s) ↔ part.same s₀ s := by simp [takeDown, hp]

@[simp] theorem same_takeFlit (l lane f) : part.same s₀ (takeFlit l lane f s) ↔ part.same s₀ s := by
  simp only [takeFlit]
  repeat' split
  all_goals simp [hp]

@[simp] theorem same_receiveFlits (lane us) : part.same s₀ (receiveFlits lane us s) ↔ part.same s₀ s := by
  simp only [receiveFlits]
  split
  · simp [hp]
  · refine (same_forEach (fun g u => ?_) _).trans (same_modLane (by simp [hp]) ..)
    split <;> simp [hp]

theorem kept_execLanePrbs (p sl) : part.keptBy s (execLanePrbs p sl s) := by
  refine kept_runCmd (fun q u => ?_) p sl
  simp only [lanePrbsSpec]
  repeat' split
  all_goals simp [hp]

theorem kept_execLaneLoopback (p sl) : part.keptBy s (execLaneLoopback p sl s) := by
  refine kept_runCmd (fun q u => ?_) p sl
  simp only [laneLoopbackSpec]
  repeat' split
  all_goals simp [hp]

theorem kept_execLanePllLockLost (g pll) : part.keptBy s (execLanePllLockLost g pll s) := by
  unfold execLanePllLockLost
  exact kept_occurs (by simp [hp])
theorem kept_execLaneLockLost (lane) : part.keptBy s (execLaneLockLost lane s) := by
  unfold execLaneLockLost
  exact kept_occurs (by simp [hp])
theorem kept_execLaneSignalLost (lane) : part.keptBy s (execLaneSignalLost lane s) := by
  unfold execLaneSignalLost
  exact kept_occurs (by simp [hp])

theorem kept_execLinkConfig (p sl) : part.keptBy s (execLinkConfig p sl s) := by
  refine kept_runCmd (fun q u => ?_) p sl
  simp only [linkConfigSpec]
  repeat' split
  case h_1 t ht => exact same_formLink hp _ _ ht
  all_goals simp [hp]

theorem kept_execLinkReset (p sl) : part.keptBy s (execLinkReset p sl s) := by
  refine kept_runCmd (fun q u => ?_) p sl
  simp only [linkResetSpec]
  repeat' split
  all_goals simp [hp]

theorem kept_execNak (l lane f) : part.keptBy s (execNak l lane f s) := by
  unfold execNak
  exact kept_occurs (by simp [hp])
theorem kept_execHello (l lane f) : part.keptBy s (execHello l lane f s) := by
  unfold execHello
  exact kept_occurs (by simp [hp])
theorem kept_execDown (l lane f) : part.keptBy s (execDown l lane f s) := by
  unfold execDown
  exact kept_occurs (by simp [hp])

theorem kept_execLaneReceiveUnit (lane n upper lower) : part.keptBy s (execLaneReceiveUnit lane n upper lower s) := by
  unfold execLaneReceiveUnit
  refine kept_occurs ?_
  dsimp only
  split
  · simp [hp]
  · split <;> simp [hp]

theorem kept_execReplayTimeout (l) : part.keptBy s (execReplayTimeout l s) := by
  unfold execReplayTimeout
  exact kept_occurs (by simp [hp])
theorem kept_execLinkTimeout (l) : part.keptBy s (execLinkTimeout l s) := by
  unfold execLinkTimeout
  exact kept_occurs (by simp [hp])
theorem kept_execLinkFormationTimeout (l) : part.keptBy s (execLinkFormationTimeout l s) := by
  unfold execLinkFormationTimeout
  exact kept_occurs (by simp [hp])
theorem kept_execFlitOpportunity (l) : part.keptBy s (execFlitOpportunity l s) := by
  unfold execFlitOpportunity
  exact kept_occurs (by simp [hp])

end

/-! ### What changes at most the bonds, the block memories, the engines, the Ingot banks, the integrity records, the
lanes, the links, the regions, the queues and the Runner's records -/
section
variable {part : Part} {s₀ s : State} (hp : part ≠ .bonds ∧ part ≠ .brams ∧ part ≠ .dsp ∧ part ≠ .ingot ∧
  part ≠ .integ ∧ part ≠ .lanes ∧ part ≠ .links ∧ part ≠ .regions ∧ part ≠ .riser ∧ part ≠ .runner)
include hp

theorem kept_execDeviceMode (p sl) : part.keptBy s (execDeviceMode p sl s) := by
  refine kept_runCmd (fun q u => ?_) p sl
  simp only [deviceModeSpec]
  repeat' split
  all_goals simp [hp]

end

/-! ### What changes at most the block memories, the engines, the HBM, the Ingot banks, the integrity records, the
regions and the Runner's records -/
section
variable {part : Part} {s₀ s : State} (hp : part ≠ .brams ∧ part ≠ .dsp ∧ part ≠ .hbm ∧ part ≠ .ingot ∧
  part ≠ .integ ∧ part ≠ .regions ∧ part ≠ .runner)
include hp

theorem kept_execFettlerWordRead (t) : part.keptBy s (execFettlerWordRead t s) := by
  cases t with
  | hbm pc => exact kept_occurs (by simp [hp])
  | _ r => exact kept_occurs (by simp [hp])

end

/-! ### What changes at most the block memories, the engines, the HBM, the integrity records, the regions, the queues
and the Runner's records -/
section
variable {part : Part} {s₀ s : State} (hp : part ≠ .brams ∧ part ≠ .dsp ∧ part ≠ .hbm ∧ part ≠ .integ ∧
  part ≠ .regions ∧ part ≠ .riser ∧ part ≠ .runner)
include hp

theorem kept_execFaultRetire (p sl) : part.keptBy s (execFaultRetire p sl s) := by
  refine kept_runCmd (fun q u => ?_) p sl
  simp only [faultRetireSpec]
  repeat' split
  all_goals simp [hp]

end

/-! ### What changes at most the block memories, the clocks, the engines, the HBM, the Ingot banks, the integrity
records, the library, the links, the regions, the queues, the Runner's records, the system layer and the tick -/
section
variable {part : Part} {s₀ s : State} (hp : part ≠ .brams ∧ part ≠ .clk ∧ part ≠ .dsp ∧ part ≠ .hbm ∧
  part ≠ .ingot ∧ part ≠ .integ ∧ part ≠ .lib ∧ part ≠ .links ∧ part ≠ .regions ∧ part ≠ .riser ∧ part ≠ .runner ∧
  part ≠ .sys ∧ part ≠ .tick)
include hp

theorem kept_execRead (h) : part.keptBy s (execRead h s) := by
  unfold execRead
  exact kept_occurs (by simp [hp])

end

/-! ### What changes at most the bonds, the block memories, the clocks, the engines, the HBM, the Ingot banks, the
integrity records, the library, the regions, the queues and the Runner's records -/
section
variable {part : Part} {s₀ s : State} (hp : part ≠ .bonds ∧ part ≠ .brams ∧ part ≠ .clk ∧ part ≠ .dsp ∧
  part ≠ .hbm ∧ part ≠ .ingot ∧ part ≠ .integ ∧ part ≠ .lib ∧ part ≠ .regions ∧ part ≠ .riser ∧ part ≠ .runner)
include hp

theorem kept_execPowerExitComplete (r checker) : part.keptBy s (execPowerExitComplete r checker s) := by
  unfold execPowerExitComplete
  split
  · exact kept_occurs (by simp [hp])
  · exact kept_next

end

theorem mem_allParts (x : Part) : x ∈ allParts := by cases x <;> decide

/-- Settles O57: it holds. Each part that a command's list leaves out is kept by every function that the
command's meaning goes through, down to the components that these write. -/
theorem trafficLeavesTheOtherParts : Obligations.TrafficLeavesTheOtherParts := by
  intro i s large u hu x hx
  cases i
  case aonPowerUp | cooldownEnd | cupolaRestartLimit | machineCheck |
      porstAssert | powerOff | tickBoundary | warmResetBegin | watchdogExpiry | wrstLowDetected =>
    exact absurd (mem_allParts x) hx
  all_goals simp [Instr.mayChange] at large hx
  case abort => exact kept_execAbort (by simp [hx]) _ _ u hu
  case add32 => exact kept_execAdd32 (by simp [hx]) _ _ u hu
  case add64 => exact kept_execAdd64 (by simp [hx]) _ _ u hu
  case bootBondSweepComplete => exact kept_execBootBondSweepComplete (by simp [hx]) _ _ u hu
  case busSweep => exact kept_execBusSweep (by simp [hx]) _ _ u hu
  case crcCtrl => exact kept_execCrcCtrl (by simp [hx]) _ _ u hu
  case crcData => exact kept_execCrcData (by simp [hx]) _ _ u hu
  case crcValue => exact kept_execCrcValue (by simp [hx]) _ _ u hu
  case data => exact kept_execData (by simp [hx]) _ _ _ u hu
  case deviceMode => exact kept_execDeviceMode (by simp [hx]) _ _ u hu
  case down => exact kept_execDown (by simp [hx]) _ _ _ u hu
  case evPop => exact kept_execEvPop (by simp [hx]) _ u hu
  case eyescanComplete => exact kept_execEyescanComplete (by simp [hx]) _ _ u hu
  case faultRetire => exact kept_execFaultRetire (by simp [hx]) _ _ u hu
  case fettlerWordRead => exact kept_execFettlerWordRead (by simp [hx]) _ u hu
  case flitOpportunity => exact kept_execFlitOpportunity (by simp [hx]) _ u hu
  case hbmRepairComplete => exact kept_execHbmRepairComplete (by simp [hx]) u hu
  case hbmZeroFillComplete => exact kept_execHbmZeroFillComplete (by simp [hx]) u hu
  case hello => exact kept_execHello (by simp [hx]) _ _ _ u hu
  case hostRequest => exact kept_execHostRequest (by simp [hx]) _ _ _ _ _ u hu
  case laneConfig => exact kept_execLaneConfig (by simp [hx]) _ _ u hu
  case laneFlushTimeout => exact kept_execLaneFlushTimeout (by simp [hx]) _ u hu
  case laneLockLost => exact kept_execLaneLockLost (by simp [hx]) _ u hu
  case laneLoopback => exact kept_execLaneLoopback (by simp [hx]) _ _ u hu
  case lanePllLockLost => exact kept_execLanePllLockLost (by simp [hx]) _ _ u hu
  case lanePrbs => exact kept_execLanePrbs (by simp [hx]) _ _ u hu
  case laneReceiveUnit => exact kept_execLaneReceiveUnit (by simp [hx]) _ _ _ _ u hu
  case laneSignalLost => exact kept_execLaneSignalLost (by simp [hx]) _ u hu
  case laneTransmitItem => exact kept_execLaneTransmitItem (by simp [hx]) _ u hu
  case linkConfig => exact kept_execLinkConfig (by simp [hx]) _ _ u hu
  case linkFormationTimeout => exact kept_execLinkFormationTimeout (by simp [hx]) _ u hu
  case linkReset => exact kept_execLinkReset (by simp [hx]) _ _ u hu
  case linkTimeout => exact kept_execLinkTimeout (by simp [hx]) _ u hu
  case linkctl => exact kept_execLinkctl (by simp [hx]) _ _ _ u hu
  case loopFlit => exact kept_execLoopFlit (by simp [hx]) _ _ _ u hu
  case messageCreditTimeout => exact kept_execMessageCreditTimeout (by simp [hx]) _ _ u hu
  case nak => exact kept_execNak (by simp [hx]) _ _ _ u hu
  case pop => exact kept_execPop (by simp [hx]) _ u hu
  case popStatus => exact kept_execPopStatus (by simp [hx]) _ u hu
  case powerEntryComplete => exact kept_execPowerEntryComplete (by simp [hx]) _ u hu
  case powerExitComplete => exact kept_execPowerExitComplete (by simp [hx]) _ _ u hu
  case push => exact kept_execPush (by simp [hx]) _ _ u hu
  case pushEop => exact kept_execPushEop (by simp [hx]) _ _ u hu
  case read => exact kept_execRead (by simp [hx]) _ u hu
  case regionReset => exact kept_execRegionReset (by simp [hx]) _ _ u hu
  case registerWrite => exact kept_execRegisterWrite (by simp [hx]) _ _ u hu
  case remoteRequest => exact kept_execRemoteRequest (by simp [hx]) _ _ _ u hu
  case remoteRequestAccepted => exact kept_execRemoteRequestAccepted (by simp [hx]) _ _ u hu
  case replayTimeout => exact kept_execReplayTimeout (by simp [hx]) _ u hu
  case riserConfig => exact kept_execRiserConfig (by simp [hx]) _ _ u hu
  case riserReset => exact kept_execRiserReset (by simp [hx]) _ _ u hu
  case runnerResponse => exact kept_execRunnerResponse (by simp [hx]) _ _ u hu
  case runnerTimeout => exact kept_execRunnerTimeout (by simp [hx]) _ _ u hu
  case sendMessage => exact kept_execSendMessage (by simp [hx]) _ u hu
  case slotBoundary => exact kept_execSlotBoundary (by simp [hx]) _ u hu
  case spillReadbackComplete => exact kept_execSpillReadbackComplete (by simp [hx]) _ _ u hu
  case swap32 => exact kept_execSwap32 (by simp [hx]) _ _ u hu
  case swap64 => exact kept_execSwap64 (by simp [hx]) _ _ u hu
  case testComplete => exact kept_execTestComplete (by simp [hx]) _ _ u hu
  case tickNumberLowRead => exact kept_execTickNumberLowRead (by simp [hx]) _ u hu
  case time => exact kept_execTime (by simp [hx]) _ _ _ u hu
  case transactionRequest => exact kept_execTransactionRequest (by simp [hx]) _ _ u hu
  case write => exact kept_execWrite (by simp [hx]) _ _ u hu

end Sys2Proof.Machine

/-! ## O32: requests of the Runner

That a request stands with its tag needs only what the records say of the requests (`State.requests`), which nothing
on the way of a request changes but its own push. What the answers are is followed clause by clause: a line of the HBM
through `checkAndPerform` and `performAt`, an atomic operation through its bank's queue. -/

namespace Sys2Proof.Machine

/-! ### The requests that stand -/

/-- What a request is, whatever has become of it so far. -/
def Outst.request (o : Outst) : ReqHdr × RunOp × Bool := (o.hdr, o.op, o.gone)

/-- The requests that the Runner's records hold, in their order. -/
def State.requests (s : State) : List (ReqHdr × RunOp × Bool) := s.runner.outst.map Outst.request

theorem requests_of_same {s t : State} (h : Part.runner.same s t) : t.requests = s.requests :=
  congrArg (fun r => r.outst.map Outst.request) h

theorem requests_mapOutst {f : Outst → Outst} (hf : ∀ o, (f o).request = o.request) (s : State) :
    (mapOutst f s).requests = s.requests := by
  simp [State.requests, mapOutst, modRunner, Function.comp_def, hf]

section
variable {s : State}

@[simp] theorem requests_modIngot (f) : (modIngot f s).requests = s.requests :=
  requests_of_same (by simp [Part.same_self])
@[simp] theorem requests_modSys (f) : (modSys f s).requests = s.requests := requests_of_same (by simp [Part.same_self])
@[simp] theorem requests_useFree : (useFree s).requests = s.requests := requests_of_same (by simp [Part.same_self])
@[simp] theorem requests_raise (e) : (raise e s).requests = s.requests := requests_of_same (by simp [Part.same_self])
@[simp] theorem requests_raiseLimited (e counts) : (raiseLimited e counts s).requests = s.requests :=
  requests_of_same (by simp [Part.same_self])
@[simp] theorem requests_checkPointers (q) : (checkPointers q s).requests = s.requests :=
  requests_of_same (by simp [Part.same_self])
@[simp] theorem requests_pushOne (q data eop) : (pushOne q data eop s).1.requests = s.requests :=
  requests_of_same (by simp [Part.same_self])
@[simp] theorem requests_rangeRefusal (ri a mid) : (rangeRefusal ri a mid s).requests = s.requests :=
  requests_of_same (by simp [Part.same_self])
@[simp] theorem requests_ingotLine (b j) : (ingotLine b j s).1.requests = s.requests :=
  requests_of_same (by simp [Part.same_self])
@[simp] theorem requests_wakeRegion (r) : (wakeRegion r s).requests = s.requests :=
  requests_of_same (by simp [Part.same_self])
@[simp] theorem requests_performAt (o) : (performAt o s).1.requests = s.requests :=
  requests_of_same (by simp [Part.same_self])
@[simp] theorem requests_withLines (h op lines) : (withLines h op lines s).1.requests = s.requests :=
  requests_of_same (by simp [Part.same_self])
@[simp] theorem requests_modPartner (k f) : (modPartner k f s).requests = s.requests :=
  requests_of_same (by simp [Part.same_self])
@[simp] theorem requests_usePartner (n l) : (usePartner n l s).requests = s.requests :=
  requests_of_same (by simp [Part.same_self])
@[simp] theorem requests_txnEvent (n c) : (txnEvent n c s).requests = s.requests :=
  requests_of_same (by simp [Part.same_self])
@[simp] theorem requests_createPartner (n l c) : (createPartner n l c s).1.requests = s.requests :=
  requests_of_same (by simp [Part.same_self])
@[simp] theorem requests_enqueue (l v gs) : (enqueue l v gs s).requests = s.requests :=
  requests_of_same (by simp [Part.same_self])
@[simp] theorem requests_discardEvent (q source) : (discardEvent q source s).requests = s.requests :=
  requests_of_same (by simp [Part.same_self])
@[simp] theorem requests_stampDesc (q) : (stampDesc q s).requests = s.requests :=
  requests_of_same (by simp [Part.same_self])

@[simp] theorem requests_onlyIf {f : State → State} (hf : ∀ u, (f u).requests = u.requests) (c : Bool) :
    (onlyIf c f s).requests = s.requests := by
  cases c
  · rfl
  · exact hf s

@[simp] theorem requests_bumpStop (r i n) : (bumpStop r i n s).requests = s.requests := by
  simp [bumpStop, State.requests, modRunner]

@[simp] theorem requests_setOutst (o) : (setOutst o s).requests = s.requests :=
  requests_mapOutst (fun x => by split <;> rfl) s

@[simp] theorem requests_answerOutst (req ls) : (answerOutst req ls s).requests = s.requests :=
  requests_mapOutst (fun x => by split <;> rfl) s

@[simp] theorem requests_pushOutst (o : Outst) : (pushOutst o s).requests = s.requests ++ [o.request] := by
  simp [State.requests, pushOutst, modRunner]

@[simp] theorem requests_ingotServe (b) : (ingotServe b s).requests = s.requests := by
  simp only [ingotServe]
  split <;> simp

@[simp] theorem requests_runBank (b) : (runBank b s).requests = s.requests := by
  unfold runBank
  generalize ((tget [] s.ingot.waiting b).map (·.left)).foldl (· + ·) 0 = n
  induction n generalizing s with
  | zero => rfl
  | succ n ih => exact ih.trans (requests_ingotServe b)

@[simp] theorem requests_settleBank (o) : (settleBank o s).requests = s.requests := by
  simp only [settleBank]
  split <;> simp

@[simp] theorem requests_retryPops (q) : (retryPops q s).requests = s.requests :=
  forEach_keeps State.requests _ _ _ (fun o u => by simp)

@[simp] theorem requests_checkQueue (q) : (checkQueue q s).requests = s.requests := by
  simp only [checkQueue]
  split <;> simp

@[simp] theorem requests_enginePush (q data eop) : (enginePush q data eop s).requests = s.requests := by
  simp [enginePush]

@[simp] theorem requests_writeItems (q fin n bs) : (writeItems q fin n bs s).1.requests = s.requests := by
  induction n generalizing bs s with
  | zero => rfl
  | succ n ih =>
    simp only [writeItems]
    split
    · simp [ih]
    · split <;> simp

@[simp] theorem requests_deliverWhole (h vc link body) : (deliverWhole h vc link body s).requests = s.requests := by
  simp only [deliverWhole]
  split
  · simp
  · split <;> simp [writeWhole]

@[simp] theorem requests_arriveWhole (link h vc body) : (arriveWhole link h vc body s).requests = s.requests := by
  unfold arriveWhole
  split <;> simp

@[simp] theorem requests_dispatch (h vc body q) : (dispatch h vc body q s).1.requests = s.requests := by
  simp only [dispatch]
  split
  · simp
  · split <;> simp
  · rfl

@[simp] theorem requests_answerTxn (t code) : (answerTxn t (answerAll code) s).requests = s.requests := by
  have answered : (mapOutst (fun o => if o.id = t.id ∧ o.resp = none then answerAll code o else o) s).requests
      = s.requests := requests_mapOutst (fun o => by split <;> rfl) s
  simp only [answerTxn]
  split <;> simp [answered]

@[simp] theorem requests_checkLine (i) : (checkLine i s).requests = s.requests := by
  simp only [checkLine]
  split
  · simp [resetTxns, failTxn, forEach_keeps State.requests]
  · rfl

@[simp] theorem requests_needPartner (n link) : (needPartner n link s).1.requests = s.requests := by
  have buckets : (checkBuckets n s).requests = s.requests :=
    forEach_keeps State.requests _ _ _ (fun i u => requests_checkLine i)
  simp only [needPartner]
  split <;> simp [buckets]

@[simp] theorem requests_sendRequest (o k sequence) : (sendRequest o k sequence s).requests = s.requests := by
  -- `dispatch` stands as a variable, as in `same_sendRequest`.
  obtain ⟨send, hsend⟩ : ∃ f, f = @dispatch := ⟨_, rfl⟩
  have sent : ∀ h vc body q u, (send h vc body q u).1.requests = u.requests := fun _ _ _ _ _ =>
    hsend ▸ requests_dispatch ..
  rw [show @sendRequest = _ by delta sendRequest; rfl, ← hsend]
  simp [sent]

theorem requests_tryAccept (o) {t : State} (h : tryAccept o s = some t) : t.requests = s.requests := by
  simp only [tryAccept, Option.ite_none_left_eq_some] at h
  obtain ⟨-, h⟩ := h
  split at h
  all_goals
    rename_i heq
    have needed := congrArg (·.1.requests) heq
    simp only [requests_needPartner] at needed
  · cases h
    simp [needed]
  · split at h
    · cases h
      simp [needed]
    · split at h
      · cases h
        simp [needed]
      · split at h
        all_goals cases h; simp [needed]

end

section
variable {s : State}

/-! What becomes of a request leaves what it is. -/

@[simp] theorem request_answerAll (c : Nat) (o : Outst) : (answerAll c o).request = o.request := rfl

@[simp] theorem request_performAt (o : Outst) : (performAt o s).2.request = o.request := by
  unfold performAt
  extract_lets h mid
  split
  · split <;> rfl
  · extract_lets o' window
    split
    · rfl
    · split
      case h_1 held _ hw =>
        simp only [window] at hw
        split at hw
        · simp only [windowAccess, Option.ite_none_right_eq_some, Option.some.injEq] at hw
          obtain ⟨-, rfl⟩ := hw
          rfl
        · cases hw
      · rfl
      · split
        · split <;> rfl
        · rfl
        · rfl

@[simp] theorem request_passGate (o : Outst) : (passGate o s).2.request = o.request := by
  unfold passGate
  split
  · simp
  · dsimp only
    split
    · simp
    all_goals rfl

@[simp] theorem request_checkAndPerform (o : Outst) : (checkAndPerform o s).2.request = o.request := by
  simp only [checkAndPerform]
  split
  · rfl
  · split
    · rfl
    · split
      · rfl
      · rfl
      · split
        · rfl
        · simp

@[simp] theorem requests_passGate (o) : (passGate o s).1.requests = s.requests := by
  unfold passGate
  split
  · simp
  · dsimp only
    split <;> simp

@[simp] theorem requests_checkAndPerform (o) : (checkAndPerform o s).1.requests = s.requests := by
  simp only [checkAndPerform]
  split
  · rfl
  · split
    · rfl
    · split
      · rfl
      · simp
      · split <;> simp

theorem requests_issueRequest (h op lines) : (issueRequest h op lines s).requests = s.requests ++ [(h, op, false)] := by
  have new : (newOutst h op lines s).request = (h, op, false) := rfl
  simp only [issueRequest]
  split <;> simp [new]

theorem requests_issueRemote (h op lines) : (issueRemote h op lines s).requests = s.requests ++ [(h, op, false)] := by
  have new : (newOutst h op lines s).request = (h, op, false) := rfl
  simp only [issueRemote]
  split
  · simp [new]
  · cases ht : tryAccept (newOutst h op lines s) (pushOutst (newOutst h op lines s) s) with
    | none => simp [new]
    | some t => simp [requests_tryAccept _ ht, new]

/-- The request that is issued comes last of those that stand. -/
theorem requests_issueAny (h op lines) : (issueAny h op lines s).requests = s.requests ++ [(h, op, false)] := by
  simp only [issueAny]
  split
  · exact requests_issueRemote h op lines
  · exact requests_issueRequest h op lines

theorem requests_issueWrite (h lines) : (issueWrite h lines s).requests = s.requests ++ [(h, .write, false)] := by
  simp [issueWrite, requests_issueAny]

@[simp] theorem requests_spendLatch (h) : (spendLatch h s).requests = s.requests :=
  requests_of_same (by simp [Part.same_self])

@[simp] theorem requests_committed (u : State) : (committed s u).requests = u.requests := by
  simp [State.requests]

end

/-- A tag that was free names the request that was issued with it. -/
theorem outst_of_requests {s t : State} {h : ReqHdr} {op : RunOp} (free : s.outst h.src h.tag = none)
    (issued : t.requests = s.requests ++ [(h, op, false)]) :
    ∃ o, t.outst h.src h.tag = some o ∧ o.hdr = h ∧ o.op = op := by
  have look (u : State) : (u.outst h.src h.tag).map Outst.request =
      u.requests.find? (fun r => decide (r.1.src = h.src) && decide (r.1.tag = h.tag) && !r.2.2) := by
    simp only [State.requests, List.find?_map]
    rfl
  have found : (t.outst h.src h.tag).map Outst.request = some (h, op, false) := by
    have none := look s
    rw [free] at none
    rw [look, issued, List.find?_append, ← none]
    simp
  obtain ⟨o, ho, e⟩ := Option.map_eq_some_iff.mp found
  obtain ⟨hdr, op', -⟩ : o.hdr = h ∧ o.op = op ∧ o.gone = false := by simpa [Outst.request] using e
  exact ⟨o, ho, hdr, op'⟩

theorem free_of_accepts {s : State} {h : ReqHdr} {op : RunOp} (ha : accepts s h op = true) :
    s.outst h.src h.tag = none := by
  simp [accepts] at ha
  exact ha.1.2

theorem free_of_mayTakeReq {s : State} {h : ReqHdr} {op : RunOp} {lines : List WLine}
    (ha : mayTakeReq s h op lines = true) :
    s.outst h.src h.tag = none := by
  simp only [mayTakeReq, Bool.and_eq_true] at ha
  exact free_of_accepts ha.1

/-- A read that is accepted stands with its tag (R33, R34). -/
theorem read_stands {s : State} {h : ReqHdr} (ha : mayTakeReq s h .read [] = true) :
    Gives (.read h) s (fun t => ∃ o, t.outst h.src h.tag = some o ∧ o.hdr = h ∧ o.op = .read) := by
  show ∃ t, execRead h s = .next t ∧ _
  unfold execRead
  exact gives_occurs ha (outst_of_requests (free_of_mayTakeReq ha) (by simp [requests_issueAny]))

/-- So does a write (R33, R34). -/
theorem write_stands {s : State} {h : ReqHdr} {lines : List WLine} (ha : mayTakeReq s h .write lines = true) :
    Gives (.write h lines) s (fun t => ∃ o, t.outst h.src h.tag = some o ∧ o.hdr = h ∧ o.op = .write) := by
  show ∃ t, execWrite h lines s = .next t ∧ _
  unfold execWrite
  exact gives_occurs ha (outst_of_requests (free_of_mayTakeReq ha) (by simp [requests_issueWrite]))

/-! ### A request that is answered at once -/

/-- The request that is pushed is the one that its tag names. -/
theorem outst_pushOutst {u : State} {o : Outst} (free : u.outst o.hdr.src o.hdr.tag = none) (stays : o.gone = false) :
    (pushOutst o u).outst o.hdr.src o.hdr.tag = some o := by
  have mine : sameReq o.hdr.src o.hdr.tag o = true := by simp [sameReq, stays]
  unfold State.outst at free ⊢
  simp [pushOutst, modRunner, List.find?_append, free, mine]

theorem outst_eq_of_runner {s u : State} (h : u.runner = s.runner) (src tag) : u.outst src tag = s.outst src tag := by
  simp only [State.outst, h]

/-- A request that no queue's pop waits for and that no bank holds is done with its check. -/
theorem issueRequest_eq {h : ReqHdr} {op : RunOp} {lines : List WLine} {s u : State} {o : Outst}
    (done : checkAndPerform (newOutst h op lines s) s = (u, o)) (bank : o.atBank = none)
    (pops : ∀ x ∈ (pushOutst o u).runner.outst, x.heldPop = none) : issueRequest h op lines s = pushOutst o u := by
  simp only [issueRequest, done, settleBank, bank]
  split
  next q _ _ =>
    have none : (pushOutst o u).runner.outst.filter (fun x => decide (x.heldPop = some q) && x.resp.isNone) = [] := by
      rw [List.filter_eq_nil_iff]
      intro x hx
      simp [pops x hx]
    simp only [retryPops, none]
    rfl
  next => rfl

theorem issueRequest_of_notRiser {h : ReqHdr} {op : RunOp} {lines : List WLine} {s u : State} {o : Outst}
    (done : checkAndPerform (newOutst h op lines s) s = (u, o)) (bank : o.atBank = none)
    (place : ∀ q off, decodeAddr h.addr.toNat ≠ .riser q off) : issueRequest h op lines s = pushOutst o u := by
  simp only [issueRequest, done, settleBank, bank]

/-- What an accepted read leaves, past the answer's tick latch (R208). -/
theorem left_after_read {s v u : State} {h : ReqHdr} {x : Part} (hx : x ≠ .tick) (same : x.same v u) :
    x.same v (committed s (spendLatch h u)) :=
  Part.same_committed s (by simp [hx, same])

theorem outst_after_read {s u : State} {h : ReqHdr} {o : Outst} (same : u.runner = s.runner) (hdr : o.hdr = h)
    (free : s.outst h.src h.tag = none) (stays : o.gone = false) :
    (committed s (spendLatch h (pushOutst o u))).outst h.src h.tag = some o := by
  have runner : (committed s (spendLatch h (pushOutst o u))).runner = (pushOutst o u).runner :=
    left_after_read (x := .runner) (by decide) (Part.same_self _ _)
  have free' : u.outst h.src h.tag = none := (outst_eq_of_runner same _ _).trans free
  rw [outst_eq_of_runner runner]
  subst hdr
  exact outst_pushOutst free' stays

/-- A read that crosses a 4-KiB boundary is answered `DECODE_ERR` and touches nothing (R39). -/
theorem crossing_read_answered {s : State} {h : ReqHdr} (may : mayTakeReq s h .read [] = true)
    (near : isRemote s h = false)
    (cross : crosses h = true) (pops : ∀ o ∈ s.runner.outst, o.heldPop = none) :
    Gives (.read h) s (fun t => ∃ o, t.outst h.src h.tag = some o ∧ o.resp = some (flatResp o rcDecode) ∧
        t.hbm = s.hbm ∧ t.ingot = s.ingot ∧ t.brams = s.brams ∧ t.dsp = s.dsp) := by
  show ∃ t, execRead h s = .next t ∧ _
  unfold execRead
  refine gives_occurs may ?_
  have done : checkAndPerform (newOutst h .read [] s) s = (s, answerAll rcDecode (newOutst h .read [] s)) := by
    simp [checkAndPerform, newOutst, cross]
  have issued : issueAny h .read [] s = pushOutst (answerAll rcDecode (newOutst h .read [] s)) s := by
    simp only [issueAny, near]
    refine issueRequest_eq done rfl fun x hx => ?_
    simp [pushOutst, modRunner] at hx
    rcases hx with hx | rfl
    · exact pops x hx
    · rfl
  rw [issued]
  refine ⟨_, outst_after_read rfl rfl (free_of_mayTakeReq may) rfl, rfl, ?_, ?_, ?_, ?_⟩
  · exact left_after_read (x := .hbm) (by decide) (by simp [Part.same_self])
  · exact left_after_read (x := .ingot) (by decide) (by simp [Part.same_self])
  · exact left_after_read (x := .brams) (by decide) (by simp [Part.same_self])
  · exact left_after_read (x := .dsp) (by decide) (by simp [Part.same_self])

/-! ### A plain read of the HBM -/

/-- A line below the end of the HBM is the HBM's. -/
theorem decodeAddr_hbm {a : Nat} (low : a < 0x1200000000) : decodeAddr a = .hbm a := by
  unfold decodeAddr
  rw [if_neg (by omega), if_pos low]

theorem isRemote_of_low {s : State} {h : ReqHdr} (low : h.addr.toNat < 2 ^ 48) : isRemote s h = false := by
  rw [isRemote, decide_eq_false (Nat.not_le.mpr low), Bool.false_and]

@[simp] theorem noteRead_hbm (pl w out inj fettler) (s : State) : (noteRead pl w out inj fettler s).1.hbm = s.hbm :=
  (same_noteRead (part := .hbm) (by decide) pl w out inj fettler).mpr rfl

/-- A read of a line leaves what the memory holds, whatever its check bits say. -/
theorem touchLine_hbm_mem (a fettler) (s : State) : (touchLine a fettler s).hbm.mem = s.hbm.mem := by
  simp only [touchLine]
  cases (noteRead (.pc (pcOf a)) (hbmRef (a / 64 * 64)) (s.hbm.eccAt a).out false fettler s).2 <;> simp [onlyIf, modHbm]

theorem plainRead_good {a : Nat} {s : State} (good : s.hbm.eccAt a ≠ .uncorrectable) (mid fettler) :
    plainRead a mid fettler s = (touchLine a fettler s, rcOk, lineOf (s.hbm.lineBytes a)) := by
  simp [plainRead, good, HbmSt.lineBytes, touchLine_hbm_mem]

/-- The header names one line of the HBM. -/
theorem one_line {h : ReqHdr} {a : Nat} (one : h.len = 0) (line : h.addr.toNat / 64 * 64 = a) (low : a < 0x1200000000) :
    crosses h = false ∧ lineCount h = 1 ∧ lineAddr h 0 = a ∧ h.addr.toNat < 0x1200000000 := by
  have count : lineCount h = 1 := by simp [lineCount, one]
  have addr : lineAddr h 0 = a := by simp [lineAddr, line]
  refine ⟨?_, count, addr, by omega⟩
  simp only [crosses, count, addr, decide_eq_false_iff_not]
  omega

theorem checkAndPerform_granted {o : Outst} {s : State} (whole : crosses o.hdr = false)
    (place : decodeAddr o.hdr.addr.toNat ≠ .nothing)
    (right : rightTo s o.hdr.src (decide (o.op ≠ .read)) o.hdr.addr.toNat = .granted)
    (fits : (o.op.atomic && !atomicOk o.op o.hdr) = false) : checkAndPerform o s = passGate o s := by
  unfold checkAndPerform
  dsimp only
  rw [if_neg (by simp [whole]), if_neg place, right]
  exact if_neg (by simp [fits])

theorem performAt_hbm_read {o : Outst} {s : State} {x : Nat} (place : decodeAddr o.hdr.addr.toNat = .hbm x)
    (ready : s.dev.hbmReady = true) (sound : s.hbm.repair = none) (op : o.op = .read) (pops : leavesPop o.hdr = false) :
    performAt o s = ((readBurst (masterOf o.hdr.src) o.hdr s).1,
      { o with heldPage := none, heldFor := none, resp := some (readBurst (masterOf o.hdr.src) o.hdr s).2 }) := by
  simp [performAt, place, ready, sound, op, pops, ingotPlace]

theorem performAt_hbm_write {o : Outst} {s : State} {x : Nat} (place : decodeAddr o.hdr.addr.toNat = .hbm x)
    (ready : s.dev.hbmReady = true) (sound : s.hbm.repair = none) (op : o.op = .write) :
    performAt o s = ((writeLines (masterOf o.hdr.src) o.hdr o.wlines 0 s rcOk).1,
      answerAll (writeLines (masterOf o.hdr.src) o.hdr o.wlines 0 s rcOk).2
        { o with heldPage := none, heldFor := none }) := by
  simp [performAt, place, ready, sound, op, ingotPlace]

theorem passGate_hbm {o : Outst} {s : State} {x : Nat} (place : decodeAddr o.hdr.addr.toNat = .hbm x) :
    passGate o s = performAt o s := by
  simp [passGate, place, dragRegion]

theorem readBurst_plain {h : ReqHdr} {a mid : Nat} {s : State} (one : h.len = 0) (line : h.addr.toNat / 64 * 64 = a)
    (low : a < 0x1200000000) (out : s.rangeOf a = none) (good : s.hbm.eccAt a ≠ .uncorrectable) :
    readBurst mid h s = (touchLine a false s, [⟨0, lineOf (s.hbm.lineBytes a)⟩]) := by
  obtain ⟨-, count, addr, low'⟩ := one_line one line low
  have noLatch : highWordRead h s = none := if_neg fun k => by omega
  simp [readBurst, count, readLines, readLine, addr, decodeAddr_hbm low, hbmRead, out, plainRead_good good, noLatch,
    rcOk]

theorem leavesPop_hbm {h : ReqHdr} {a : Nat} (one : h.len = 0) (line : h.addr.toNat / 64 * 64 = a)
    (low : a < 0x1200000000) : leavesPop h = false := by
  obtain ⟨-, count, addr, -⟩ := one_line one line low
  simp [leavesPop, count, addr, decodeAddr_hbm low, List.range_succ]

/-- A read that its check answers at once stands with that answer, and the HBM is as the check left it. -/
theorem read_at_once {s u : State} {h : ReqHdr} {o : Outst} (may : mayTakeReq s h .read [] = true)
    (near : isRemote s h = false) (place : ∀ q off, decodeAddr h.addr.toNat ≠ .riser q off)
    (done : checkAndPerform (newOutst h .read [] s) s = (u, o)) (runner : u.runner = s.runner) (bank : o.atBank = none)
    (hdr : o.hdr = h) (stays : o.gone = false) :
    Gives (.read h) s (fun t => t.outst h.src h.tag = some o ∧ t.hbm = u.hbm) := by
  show ∃ t, execRead h s = .next t ∧ _
  unfold execRead
  refine gives_occurs may ?_
  rw [issueAny, near, if_neg Bool.false_ne_true, issueRequest_of_notRiser done bank place]
  exact ⟨outst_after_read runner hdr (free_of_mayTakeReq may) stays,
    left_after_read (x := .hbm) (by decide) (by simp [Part.same_self])⟩

/-- A plain read of one line of the HBM is answered with the line, and leaves the memory as it was (R33, R37). -/
theorem plain_read_answered {s : State} {h : ReqHdr} {a : Nat} (may : mayTakeReq s h .read [] = true)
    (line : h.addr.toNat / 64 * 64 = a) (low : a < 0x1200000000) (one : h.len = 0)
    (right : rightTo s h.src false h.addr.toNat = .granted) (out : s.rangeOf a = none) (ready : s.dev.hbmReady = true)
    (sound : s.hbm.repair = none) (good : s.hbm.eccAt a ≠ .uncorrectable) :
    Gives (.read h) s (fun t => (∃ o, t.outst h.src h.tag = some o ∧
          o.resp = some [⟨0, lineOf (s.hbm.lineBytes a)⟩]) ∧ t.hbm.mem = s.hbm.mem) := by
  obtain ⟨whole, -, -, low'⟩ := one_line one line low
  have place : decodeAddr h.addr.toNat = .hbm h.addr.toNat := decodeAddr_hbm low'
  have done : checkAndPerform (newOutst h .read [] s) s = (touchLine a false s,
      { newOutst h .read [] s with resp := some [⟨0, lineOf (s.hbm.lineBytes a)⟩] }) := by
    rw [checkAndPerform_granted (o := newOutst h .read [] s) whole (by simp [newOutst, place]) right rfl,
      passGate_hbm (o := newOutst h .read [] s) place,
      performAt_hbm_read (o := newOutst h .read [] s) place ready sound rfl (leavesPop_hbm one line low)]
    simp [newOutst, readBurst_plain one line low out good]
  have runner : Part.runner.same s (touchLine a false s) := by simp [Part.same_self]
  obtain ⟨t, step, answered, hbm⟩ := read_at_once may (isRemote_of_low (by omega)) (by simp [place]) done runner
    rfl rfl rfl
  exact ⟨t, step, ⟨_, answered, rfl⟩, by rw [hbm, touchLine_hbm_mem]⟩

/-- A reserved operation is answered with one `DECODE_ERR` line (notes/assumptions/54). -/
theorem reserved_answered {s : State} {h : ReqHdr} (op7 : Bool) (may : accepts s h .write = true) :
    Gives (.reservedRunnerOperation h op7) s (fun t =>
      ∃ o, t.outst h.src h.tag = some o ∧ o.resp = some [⟨BitVec.ofNat 3 rcDecode, 0⟩]) := by
  show ∃ t, execReservedRunnerOperation h op7 s = .next t ∧ _
  unfold execReservedRunnerOperation
  refine gives_occurs may ⟨answerAll rcDecode (newOutst h .write [] s), ?_, rfl⟩
  rw [outst_eq_of_runner (committed_runner s _)]
  exact outst_pushOutst (o := answerAll rcDecode (newOutst h .write [] s)) (free_of_accepts may) rfl

/-! ### Bytes and lines -/

/-- The bytes written stand in the memory. -/
theorem rdByte_wrBytes_in (bs : List Byte) (m : Memory) (a i : Nat) (h : i < bs.length) :
    rdByte (wrBytes m a bs) (a + i) = bs[i] := by
  induction bs generalizing m a i with
  | nil => exact absurd h (by simp)
  | cons b bs ih =>
    cases i with
    | zero => rw [wrBytes, rdByte_wrBytes_out bs _ _ _ (by omega), Nat.add_zero, rdByte_wrByte_same]; rfl
    | succ i =>
      rw [wrBytes, show a + (i + 1) = a + 1 + i by omega]
      exact ih _ _ _ (by simpa using h)

theorem rdBytes_wrBytes (bs : List Byte) (m : Memory) (a : Nat) : rdBytes (wrBytes m a bs) a bs.length = bs := by
  rw [rdBytes_eq]
  refine List.ext_getElem (by simp) fun i h _ => ?_
  simp only [List.length_map, List.length_range] at h
  simp [rdByte_wrBytes_in, h]

theorem bytesOf_length {w : Nat} (v : BitVec w) (n : Nat) : (bytesOf v n).length = n := leBytes_length n _

/-- A line is the number that its bytes spell. -/
theorem lineOf_bytesOf (v : Line) : lineOf (bytesOf v 64) = v := by
  have whole : (bytesOf v 64).take 64 = bytesOf v 64 := List.take_of_length_le (by rw [bytesOf_length])
  have bound : v.toNat < 256 ^ 64 := by
    rw [show (256 : Nat) = 2 ^ 8 from rfl, ← Nat.pow_mul]
    exact v.isLt
  rw [lineOf, whole, bytesOf, leNat_leBytes _ _ bound, BitVec.ofNat_toNat, BitVec.setWidth_eq]

theorem mask_zero {n : Nat} (k : Nat) : mergeBytes.mask (0#n) k = 0 := by
  induction k with
  | zero => rfl
  | succ k ih => simp [mergeBytes.mask, ih]

theorem mask_allOnes {n : Nat} (k : Nat) (h : k ≤ n) : mergeBytes.mask (BitVec.allOnes n) k + 1 = 256 ^ k := by
  induction k with
  | zero => rfl
  | succ k ih =>
    have on : (BitVec.allOnes n).getLsbD k = true := by simp; omega
    have := ih (by omega)
    simp only [mergeBytes.mask, on, if_true]
    rw [Nat.pow_succ]
    omega

/-- Without an enabled byte the line stays. -/
theorem mergeBytes_zero {w n : Nat} (old new : BitVec w) : mergeBytes old new (0#n) = old := by
  simp only [mergeBytes, mask_zero]
  ext i
  simp

theorem ofNat_eq_allOnes {w m : Nat} (h : m + 1 = 2 ^ w) : BitVec.ofNat w m = BitVec.allOnes w := by
  apply BitVec.eq_of_toNat_eq
  rw [BitVec.toNat_ofNat, BitVec.toNat_allOnes, Nat.mod_eq_of_lt (h ▸ Nat.lt_succ_self m), ← h, Nat.add_sub_cancel]

/-- With every byte enabled it is the new one. -/
theorem mergeBytes_allOnes {n : Nat} (old new : BitVec (8 * n)) : mergeBytes old new (BitVec.allOnes n) = new := by
  have full : BitVec.ofNat (8 * n) (mergeBytes.mask (BitVec.allOnes n) n) = BitVec.allOnes (8 * n) :=
    ofNat_eq_allOnes (by rw [mask_allOnes n (Nat.le_refl n), Nat.pow_mul])
  rw [mergeBytes, full, BitVec.not_allOnes, BitVec.and_zero, BitVec.zero_or, BitVec.and_allOnes]

/-! ### Taking the lines of a write -/

@[simp] theorem hardFault_dev (pl w out i) (s : State) : (hardFault pl w out i s).dev = s.dev := by
  simp only [hardFault]
  split
  · rfl
  · split <;> simp [bumpInteg, setTracker]

@[simp] theorem noteRead_dev (pl w out injected fettler) (s : State) :
    (noteRead pl w out injected fettler s).1.dev = s.dev := by
  simp only [noteRead]
  split
  · rfl
  · split <;> simp [bumpInteg]
  · split
    · simp [bumpInteg]
    · split <;> simp [bumpInteg, setTracker]

@[simp] theorem dspNote_dev (id n mid fettler) (s : State) : (dspNote id n mid fettler s).dev = s.dev := by
  simp [dspNote]

theorem dspLineRead_dev (id prog w mid) (s : State) : (dspLineRead id prog w mid s).1.dev = s.dev :=
  foldl_keeps (β := State × Nat × Bool) (fun acc => acc.1.dev)
    (f := fun acc i => ((dspWordRead id prog (w / 8 * 8 + i) mid acc.1).1,
      acc.2.1 + (dspWordRead id prog (w / 8 * 8 + i) mid acc.1).2.1.toNat * 2 ^ (64 * i),
      acc.2.2 && (dspWordRead id prog (w / 8 * 8 + i) mid acc.1).2.2))
    (fun _ _ => dspNote_dev ..) (List.range 8) (s, 0, true)

theorem dmaLines_dev (e mid d n i) (s : State) : (dmaLines e mid d n i s).1.dev = s.dev := by
  induction n generalizing i s with
  | zero => rfl
  | succ n ih => simp [dmaLines, ih, dspLineRead_dev]

theorem withLines_dev (h op lines) (s : State) : (withLines h op lines s).1.dev = s.dev := by
  simp only [withLines]
  split
  · split
    · exact dmaLines_dev ..
    · rfl
  · rfl

/-- The right to an address rests on the ranges, the queues' spill area and the windows. -/
theorem rightTo_congr {s u : State} (dev : u.dev = s.dev) (hbm : u.hbm = s.hbm) (riser : u.riser = s.riser)
    (sys : u.sys = s.sys) (src wr a) : rightTo u src wr a = rightTo s src wr a := by
  have range : u.range = s.range := by funext i; rw [State.range, State.range, hbm]
  have rangeOf : u.rangeOf = s.rangeOf :=
    congrArg (fun (f : Nat → Range) a => (List.range 8).find? (fun i => (f i).has a)) range
  have right : rangeRight u = rangeRight s := by
    delta rangeRight
    rw [range, dev]
  have spill : inSpill u = inSpill s := by
    delta inSpill
    rw [riser]
  have window : inWindow u = inWindow s := by
    delta inWindow
    rw [sys]
  unfold rightTo
  rw [rangeOf, range, right, spill, window]

/-! ### A plain write of the HBM -/

@[simp] theorem noteWrite_hbm (pl w) (s : State) : (noteWrite pl w s).hbm = s.hbm :=
  (same_noteWrite (part := .hbm) (by decide) pl w).mpr rfl

/-- Writing the 64 bytes of a line makes them the line. -/
theorem lineOf_put {hb : HbmSt} {a : Nat} (aligned : a / 64 * 64 = a) (v : Line) :
    lineOf ((hb.put a (bytesOf v 64)).lineBytes a) = v := by
  have stored : rdBytes (wrBytes hb.mem a (bytesOf v 64)) a 64 = bytesOf v 64 := by
    have := rdBytes_wrBytes (bytesOf v 64) hb.mem a
    rwa [bytesOf_length] at this
  rw [HbmSt.lineBytes, aligned, HbmSt.put, stored, lineOf_bytesOf]

theorem rdByte_put {hb : HbmSt} {a x : Nat} (v : Line) (beyond : x < a ∨ a + 64 ≤ x) :
    rdByte (hb.put a (bytesOf v 64)).mem x = rdByte hb.mem x :=
  rdByte_wrBytes_out _ _ _ _ (by rwa [bytesOf_length])

/-- What a write to line `a` does to the HBM: the enabled bytes of the line are the new ones, and no other byte
changes. -/
def WrittenLine (a : Nat) (data : Line) (be : BitVec 64) (s u : State) : Prop :=
  lineOf (u.hbm.lineBytes a) = mergeBytes (lineOf (s.hbm.lineBytes a)) data be ∧
    ∀ x, (x < a ∨ a + 64 ≤ x) → rdByte u.hbm.mem x = rdByte s.hbm.mem x

theorem writtenLine_of_put {a : Nat} (aligned : a / 64 * 64 = a) {data : Line} {be : BitVec 64} {s u : State}
    {hb : HbmSt}
    (mem : hb.mem = s.hbm.mem)
    (put : u.hbm = hb.put a (bytesOf (mergeBytes (lineOf (s.hbm.lineBytes a)) data be) 64)) :
    WrittenLine a data be s u := by
  constructor
  · rw [put, lineOf_put aligned]
  · intro x beyond
    rw [put, rdByte_put _ beyond, mem]

/-- A write of a line that reads good stores what its enables let through (R33, R34). -/
theorem plainWrite_good {a : Nat} (aligned : a / 64 * 64 = a) {s : State} (good : s.hbm.eccAt a ≠ .uncorrectable)
    (mid : Nat) (data : Line) (be : BitVec 64) :
    (plainWrite a mid data be s).2 = rcOk ∧ WrittenLine a data be s (plainWrite a mid data be s).1 := by
  unfold plainWrite
  extract_lets line bad t new
  have hline : line = a := aligned
  split
  next none =>
    subst none
    exact ⟨rfl, mergeBytes_zero _ _ ▸ rfl, fun _ _ => rfl⟩
  next =>
    split
    next all =>
      subst all
      refine ⟨rfl, writtenLine_of_put aligned (hb := s.hbm) rfl ?_⟩
      rw [show mergeBytes _ data (BitVec.allOnes 64) = data from mergeBytes_allOnes (n := 64) _ _]
      simp [hline]
    next =>
      rw [if_neg (by simp [bad, good])]
      refine ⟨rfl, writtenLine_of_put aligned (hb := t.hbm) (touchLine_hbm_mem ..) ?_⟩
      have mem : t.hbm.mem = s.hbm.mem := touchLine_hbm_mem ..
      simp [hline, new, HbmSt.lineBytes, mem]

/-- A burst of one line is that line's write. -/
theorem writeLines_plain {h : ReqHdr} {a mid : Nat} {s : State} {data : Line} {be : BitVec 64}
    (addr : lineAddr h 0 = a) (low : a < 0x1200000000) (out : s.rangeOf a = none) (aligned : a / 64 * 64 = a)
    (good : s.hbm.eccAt a ≠ .uncorrectable) :
    (writeLines mid h [(data, be)] 0 s rcOk).2 = rcOk ∧
      WrittenLine a data be s (writeLines mid h [(data, be)] 0 s rcOk).1 := by
  have kept : WrittenLine a data 0#64 s s := ⟨(mergeBytes_zero _ _).symm, fun _ _ => rfl⟩
  by_cases none : be = 0
  · subst none
    simpa [writeLines, writeLine] using kept
  · have one : writeLines mid h [(data, be)] 0 s rcOk = plainWrite a mid data be s := by
      simp only [writeLines, writeLine, if_neg none, addr, decodeAddr_hbm low, hbmWrite, out, if_true]
    rw [one]
    exact plainWrite_good aligned good mid data be

/-- A write that its check answers at once stands with that answer, and the HBM is as the check left it. -/
theorem write_at_once {s u v : State} {h : ReqHdr} {w : List WLine} {ls : List WLine} {o : Outst}
    (may : mayTakeReq s h .write w = true) (taken : withLines h .write w s = (u, ls))
    (near : isRemote u h = false) (place : ∀ q off, decodeAddr h.addr.toNat ≠ .riser q off)
    (done : checkAndPerform (newOutst h .write ls u) u = (v, o)) (runner : v.runner = s.runner) (bank : o.atBank = none)
    (hdr : o.hdr = h) (stays : o.gone = false) :
    Gives (.write h w) s (fun t => t.outst h.src h.tag = some o ∧ t.hbm = v.hbm) := by
  show ∃ t, execWrite h w s = .next t ∧ _
  unfold execWrite
  refine gives_occurs may ?_
  simp only [issueWrite, taken, issueAny, near, if_neg Bool.false_ne_true, issueRequest_of_notRiser done bank place]
  have free : v.outst h.src h.tag = none := (outst_eq_of_runner runner _ _).trans (free_of_mayTakeReq may)
  subst hdr
  constructor
  · rw [outst_eq_of_runner (committed_runner s _)]
    exact outst_pushOutst free stays
  · simp [pushOutst]

/-- A plain write of one line of the HBM is answered with success, and stores the enabled bytes (R33, R34, R37). -/
theorem plain_write_answered {s u : State} {h : ReqHdr} {a : Nat} {w : WLine} {data : Line} {be : BitVec 64}
    (may : mayTakeReq s h .write [w] = true) (taken : withLines h .write [w] s = (u, [(data, be)]))
    (line : h.addr.toNat / 64 * 64 = a) (low : a < 0x1200000000) (right : rightTo s h.src true h.addr.toNat = .granted)
    (out : s.rangeOf a = none) (ready : s.dev.hbmReady = true) (sound : s.hbm.repair = none)
    (good : s.hbm.eccAt a ≠ .uncorrectable) :
    Gives (.write h [w]) s (fun t => (∃ o, t.outst h.src h.tag = some o ∧ o.resp = some [⟨0, 0⟩]) ∧
        lineOf (t.hbm.lineBytes a) = mergeBytes (lineOf (s.hbm.lineBytes a)) data be ∧
        ∀ x, (x < a ∨ a + 64 ≤ x) → rdByte t.hbm.mem x = rdByte s.hbm.mem x) := by
  have one : h.len = 0 := by
    simp [mayTakeReq, linesOk, lineCount] at may
    exact may.2
  obtain ⟨whole, -, addr, low'⟩ := one_line one line low
  have place : decodeAddr h.addr.toNat = .hbm h.addr.toNat := decodeAddr_hbm low'
  have kept (x : Part) (hx : x ≠ .dsp ∧ x ≠ .integ) : x.same s u := by
    have := same_withLines (s₀ := s) (s := s) hx h .write [w]
    rw [taken] at this
    exact this.mpr (Part.same_self s x)
  have hbm : u.hbm = s.hbm := kept .hbm (by decide)
  have dev : u.dev = s.dev := by
    have := withLines_dev h .write [w] s
    rwa [taken] at this
  have right' : rightTo u h.src true h.addr.toNat = .granted :=
    (rightTo_congr dev hbm (kept .riser (by decide)) (kept .sys (by decide)) _ _ _).trans right
  have out' : u.rangeOf a = none := by
    rw [← out, State.rangeOf, State.rangeOf, show u.range = s.range from funext fun i => by rw [State.range, hbm]; rfl]
  obtain ⟨code, written⟩ := writeLines_plain (mid := masterOf h.src) (data := data) (be := be) addr low out' (by omega)
    (by rwa [hbm])
  have done : checkAndPerform (newOutst h .write [(data, be)] u) u =
      ((writeLines (masterOf h.src) h [(data, be)] 0 u rcOk).1, answerAll rcOk (newOutst h .write [(data, be)] u)) := by
    rw [checkAndPerform_granted (o := newOutst h .write [(data, be)] u) whole (by simp [newOutst, place]) right' rfl,
      passGate_hbm (o := newOutst h .write [(data, be)] u) place,
      performAt_hbm_write (o := newOutst h .write [(data, be)] u) place (by rw [dev, ready]) (by rw [hbm, sound]) rfl]
    simp only [newOutst, code]
  have runner : Part.runner.same s (writeLines (masterOf h.src) h [(data, be)] 0 u rcOk).1 :=
    (same_writeLines (by decide) ..).mpr (kept .runner (by decide))
  generalize (writeLines (masterOf h.src) h [(data, be)] 0 u rcOk).1 = v at written done runner
  obtain ⟨stored, others⟩ := written
  obtain ⟨t, step, answered, mem⟩ := write_at_once may taken (isRemote_of_low (by omega)) (by simp [place]) done
    runner rfl
    rfl rfl
  refine ⟨t, step, ⟨_, answered, rfl⟩, ?_, fun x beyond => ?_⟩
  · rw [mem, stored, hbm]
  · rw [mem, others x beyond, hbm]

/-! ### Fields of a word of memory -/

theorem leNat_append (xs ys : List Byte) : leNat (xs ++ ys) = leNat xs + 256 ^ xs.length * leNat ys := by
  induction xs with
  | nil => simp [leNat]
  | cons x xs ih =>
    rw [List.cons_append, leNat, leNat, ih, List.length_cons, Nat.pow_succ]
    ring

theorem leNat_lt (bs : List Byte) : leNat bs < 256 ^ bs.length := by
  induction bs with
  | nil => simp [leNat]
  | cons b bs ih =>
    have := b.isLt
    rw [leNat, List.length_cons, Nat.pow_succ]
    omega

/-- The bytes from `i` on spell the number's digits from `i` on. -/
theorem leNat_slice (bs : List Byte) (i n : Nat) (h : i + n ≤ bs.length) :
    leNat bs / 256 ^ i % 256 ^ n = leNat ((bs.drop i).take n) := by
  have front : (bs.take i).length = i := by simp; omega
  have slice : ((bs.drop i).take n).length = n := by simp; omega
  have split : leNat bs = leNat (bs.take i) + 256 ^ i * leNat (bs.drop i) := by
    conv => lhs; rw [← List.take_append_drop i bs, leNat_append, front]
  have split' : leNat (bs.drop i) = leNat ((bs.drop i).take n) + 256 ^ n * leNat ((bs.drop i).drop n) := by
    conv => lhs; rw [← List.take_append_drop n (bs.drop i), leNat_append, slice]
  have low : leNat (bs.take i) < 256 ^ i := (leNat_lt _).trans_eq (by rw [front])
  have low' : leNat ((bs.drop i).take n) < 256 ^ n :=
    (leNat_lt _).trans_eq (by rw [slice])
  rw [split, Nat.add_mul_div_left _ _ (Nat.pow_pos (by decide)), Nat.div_eq_of_lt low, Nat.zero_add, split',
    Nat.add_mul_mod_self_left, Nat.mod_eq_of_lt low']

theorem rdBytes_slice (m : Memory) (a i n N : Nat) (h : i + n ≤ N) :
    ((rdBytes m a N).drop i).take n = rdBytes m (a + i) n := by
  rw [rdBytes_eq, rdBytes_eq]
  refine List.ext_getElem (by simp; omega) fun k _ _ => ?_
  simp [Nat.add_assoc]

theorem leNat_rdBytes_slice (m : Memory) (a i n N : Nat) (h : i + n ≤ N) :
    leNat (rdBytes m a N) / 256 ^ i % 256 ^ n = leNat (rdBytes m (a + i) n) := by
  rw [leNat_slice _ _ _ (by simpa [rdBytes] using h), rdBytes_slice _ _ _ _ _ h]

theorem fieldOf_eq {w : Nat} (v : BitVec w) (i n : Nat) : fieldOf v i n = v.toNat / 256 ^ i % 256 ^ n := by
  rw [fieldOf, BitVec.extractLsb'_toNat, Nat.shiftRight_eq_div_pow, Nat.pow_mul, Nat.pow_mul]

theorem testBit_mask (n i k : Nat) :
    ((2 ^ (8 * n) - 1) * 2 ^ (8 * i)).testBit k = decide (8 * i ≤ k ∧ k < 8 * (i + n)) := by
  rw [Nat.testBit_mul_two_pow, Nat.testBit_two_pow_sub_one, ← Bool.decide_and]
  exact decide_eq_decide.mpr (by omega)

/-- A field put into a word is that field's bits and leaves the other bits. -/
theorem getLsbD_putField {w : Nat} (v : BitVec w) (i n x k : Nat) (hk : k < w) :
    (putField v i n x).getLsbD k =
      if 8 * i ≤ k ∧ k < 8 * (i + n) then x.testBit (k - 8 * i) else v.getLsbD k := by
  have mask := testBit_mask n i k
  simp only [putField, BitVec.getLsbD_or, BitVec.getLsbD_and, BitVec.getLsbD_not, BitVec.getLsbD_ofNat, hk, mask,
    Nat.testBit_mul_two_pow, Nat.testBit_mod_two_pow, decide_true, Bool.true_and]
  by_cases inside : 8 * i ≤ k ∧ k < 8 * (i + n)
  · have : k - 8 * i < 8 * n := by omega
    simp [inside, this]
  · simp [inside]

/-- The field reads back. -/
theorem fieldOf_putField {w : Nat} (v : BitVec w) (i n x : Nat) (room : 8 * (i + n) ≤ w) :
    fieldOf (putField v i n x) i n = x % 256 ^ n := by
  have bits : (putField v i n x).extractLsb' (8 * i) (8 * n) = BitVec.ofNat (8 * n) x := by
    refine BitVec.eq_of_getLsbD_eq fun k hk => ?_
    rw [BitVec.getLsbD_extractLsb', getLsbD_putField _ _ _ _ _ (by omega), if_pos (by omega), BitVec.getLsbD_ofNat,
      Nat.add_sub_cancel_left]
  rw [fieldOf, bits, BitVec.toNat_ofNat, Nat.pow_mul]

/-- Another field is as it was. -/
theorem fieldOf_putField_ne {w : Nat} (v : BitVec w) (i n x j m : Nat) (room : 8 * (j + m) ≤ w)
    (apart : j + m ≤ i ∨ i + n ≤ j) : fieldOf (putField v i n x) j m = fieldOf v j m := by
  have bits : (putField v i n x).extractLsb' (8 * j) (8 * m) = v.extractLsb' (8 * j) (8 * m) := by
    refine BitVec.eq_of_getLsbD_eq fun k hk => ?_
    rw [BitVec.getLsbD_extractLsb', BitVec.getLsbD_extractLsb', getLsbD_putField _ _ _ _ _ (by omega),
      if_neg (by omega)]
  rw [fieldOf, bits, fieldOf]

/-- The field of a word of memory is spelled by the field's bytes. -/
theorem fieldOf_rdBytes (m : Memory) (a i n N : Nat) (h : i + n ≤ N) :
    fieldOf (BitVec.ofNat (8 * N) (leNat (rdBytes m a N))) i n = leNat (rdBytes m (a + i) n) := by
  have bound : leNat (rdBytes m a N) < 2 ^ (8 * N) := by
    have := leNat_lt (rdBytes m a N)
    rwa [show (rdBytes m a N).length = N by simp [rdBytes], show 256 = 2 ^ 8 from rfl, ← Nat.pow_mul] at this
  rw [fieldOf_eq, BitVec.toNat_ofNat, Nat.mod_eq_of_lt bound, leNat_rdBytes_slice _ _ _ _ _ h]

/-- What is read of a word that was written. -/
theorem leNat_rdBytes_wrBytes (m : Memory) (a i n N : Nat) (v : BitVec (8 * N)) (h : i + n ≤ N) :
    leNat (rdBytes (wrBytes m a (bytesOf v N)) (a + i) n) = fieldOf v i n := by
  have stored := rdBytes_wrBytes (bytesOf v N) m a
  rw [bytesOf_length] at stored
  have whole : leNat (bytesOf v N) = v.toNat := leNat_leBytes N _ (by
    rw [show 256 = 2 ^ 8 from rfl, ← Nat.pow_mul]
    exact v.isLt)
  rw [← leNat_rdBytes_slice _ a i n N h, stored, whole, fieldOf_eq]

theorem rdByte_eq_of_leNat {m k : Memory} {a : Nat} (h : leNat (rdBytes m a 1) = leNat (rdBytes k a 1)) :
    rdByte m a = rdByte k a := by
  simp only [rdBytes_eq, List.range_one, List.map_cons, List.map_nil, leNat] at h
  exact BitVec.eq_of_toNat_eq (by simpa using h)

/-! ### An atomic operation at an Ingot bank -/

theorem noteRead_clean (pl w inj fettler) (s : State) : noteRead pl w .clean inj fettler s = (s, false) := rfl

/-- A word whose check bits hold reads as it is stored. -/
theorem ingotFetch_clean {b off : Nat} {s : State}
    (clean : decodeSyn 16 (tget 0 s.ingot.syn (ingotKey b (off / 32 * 32) / 32)).toNat = .clean) (mid : Nat) :
    ingotFetch b off mid false s = (s, s.ingot.half b off, .clean) := by
  simp only [ingotFetch, clean, noteRead_clean]
  rfl

/-- The operand's place at the bank, and what an atomic operation finds and leaves there (R37, R39). -/
def atomicOld (op : RunOp) (b off : Nat) (s : State) : Nat := fieldOf (s.ingot.half b off) (off % 32) (atomicWidth op)

def atomicHalf (op : RunOp) (b off : Nat) (d : Line) (s : State) : BitVec 256 :=
  putField (s.ingot.half b off) (off % 32) (atomicWidth op)
    (atomicNew op (atomicOld op b off s) (fieldOf d (off % 64) (atomicWidth op)))

def atomicAnswer (op : RunOp) (b off : Nat) (s : State) : Line :=
  BitVec.ofNat 512 (atomicOld op b off s * 2 ^ (8 * (off % 64)))

theorem ingotAtomic_clean {b off : Nat} {s : State}
    (clean : decodeSyn 16 (tget 0 s.ingot.syn (ingotKey b (off / 32 * 32) / 32)).toNat = .clean) (op : RunOp)
    (mid : Nat) (d : Line) : ingotAtomic op b off mid d s =
      (ingotPut b off (atomicHalf op b off d s) (ingotGrant b mid s), rcOk, atomicAnswer op b off s) := by
  have granted : decodeSyn 16 (tget 0 (ingotGrant b mid s).ingot.syn (ingotKey b (off / 32 * 32) / 32)).toNat = .clean :=
    clean
  simp only [ingotAtomic, ingotFetch_clean granted]
  rfl

theorem ingotPut_ingot (b off v) (s : State) : (ingotPut b off v s).ingot =
    { s.ingot with
      mem := wrBytes s.ingot.mem (ingotKey b (off / 32 * 32)) (bytesOf v 32)
      syn := tset 0 s.ingot.syn (ingotKey b (off / 32 * 32) / 32) 0
      injected := s.ingot.injected.filter (· != ingotKey b (off / 32 * 32) / 32) } := rfl

/-- What becomes of the requests when the one numbered `req` is answered. -/
def Outst.answeredAs (req : Nat) (ls : List RLine) (o : Outst) : Outst :=
  if o.id = req && o.resp.isNone then { o with resp := some ls } else o

theorem outst_map {s u : State} {f : Outst → Outst} (hf : ∀ o, (f o).request = o.request)
    (mapped : u.runner.outst = s.runner.outst.map f) (src tag) : u.outst src tag = (s.outst src tag).map f := by
  have look : (sameReq src tag ∘ f) = sameReq src tag := by
    funext o
    have := hf o
    simp only [Outst.request, Prod.mk.injEq] at this
    obtain ⟨hdr, -, gone⟩ := this
    simp only [Function.comp, sameReq, hdr, gone]
  rw [State.outst, mapped, List.find?_map, look]
  rfl

theorem request_answeredAs (req : Nat) (ls : List RLine) (o : Outst) : (o.answeredAs req ls).request = o.request := by
  unfold Outst.answeredAs
  split <;> rfl

theorem answer_of_atomic {j : IngotJob} (atomic : j.op.atomic = true) : j.answer = j.got := by
  unfold IngotJob.answer
  split
  next op => simp [op, RunOp.atomic] at atomic
  next => rfl

/-- The bank serves its one atomic job in a cycle: the memory holds the new value, no job waits, and the request is
answered. -/
theorem ingotServe_atomic {b : Nat} {s : State} {j : IngotJob} (queue : tget [] s.ingot.waiting b = [j])
    (atomic : j.op.atomic = true) (last : j.left = 1) (first : j.got = [])
    (clean : decodeSyn 16 (tget 0 s.ingot.syn (ingotKey b (j.off / 32 * 32) / 32)).toNat = .clean) :
    (ingotServe b s).ingot.mem = wrBytes s.ingot.mem (ingotKey b (j.off / 32 * 32))
        (bytesOf (atomicHalf j.op b j.off (j.lines.headD (0, 0)).1 s) 32) ∧
      tget [] (ingotServe b s).ingot.waiting b = [] ∧
      (ingotServe b s).runner.outst =
        s.runner.outst.map (Outst.answeredAs j.req [⟨0, atomicAnswer j.op b j.off s⟩]) := by
  have line : ingotLine b j s = (ingotPut b j.off (atomicHalf j.op b j.off (j.lines.headD (0, 0)).1 s)
      (ingotGrant b j.mid s), rcOk, atomicAnswer j.op b j.off s) := by
    rw [← ingotAtomic_clean clean]
    unfold ingotLine
    dsimp only
    split
    next op => simp [op, RunOp.atomic] at atomic
    next op => simp [op, RunOp.atomic] at atomic
    next => rfl
  simp only [ingotServe, queue, nextGrant, List.foldl_nil, line, last]
  refine ⟨?_, ?_, ?_⟩
  · simp [onlyIf, answerOutst, mapOutst, ingotPut_ingot, ingotGrant]
  · simp [onlyIf, answerOutst, mapOutst]
  · simp only [answer_of_atomic, atomic, first, List.nil_append]
    rfl

/-! ### The place of an atomic operation -/

/-- An address in a window of the Ingot: which place of which bank it is. -/
theorem ingotPlace_some {s : State} {a b off : Nat} (place : ingotPlace s (decodeAddr a) = some (b, off)) :
    a < 2 ^ 48 ∧ (∃ v, decodeAddr a = .ingotView v ∨ decodeAddr a = .ingotLocal v) ∧ off % 64 = a % 64 := by
  have window : a < 2 ^ 48 ∧ ∃ v, (decodeAddr a = .ingotView v ∨ decodeAddr a = .ingotLocal v) ∧ v % 64 = a % 64 := by
    unfold decodeAddr at place ⊢
    split_ifs at place ⊢ with far low view loc bram dsp riser regs
    · cases place
    · cases place
    · exact ⟨by omega, _, .inl rfl, by omega⟩
    · exact ⟨by omega, _, .inr rfl, by omega⟩
    · cases place
    · exfalso
      split at place <;> cases place
    · cases place
    · cases place
    · cases place
  obtain ⟨near, v, isView | isLocal, same⟩ := window
  · refine ⟨near, ⟨v, .inl isView⟩, ?_⟩
    simp only [isView, ingotPlace, interleave, Option.ite_none_right_eq_some, Option.some.injEq, Prod.mk.injEq] at place
    omega
  · refine ⟨near, ⟨v, .inr isLocal⟩, ?_⟩
    rw [isLocal, ingotPlace, localBank] at place
    obtain ⟨-, place⟩ := Option.ite_none_left_eq_some.mp place
    simp only [Option.some.injEq, Prod.mk.injEq, bankBytes] at place
    omega

/-- An operand lies in one half of its line. -/
theorem atomic_inHalf {s : State} {op : RunOp} {h : ReqHdr} {b off : Nat} (fits : atomicOk op h = true)
    (place : ingotPlace s (decodeAddr h.addr.toNat) = some (b, off)) : off % 32 + atomicWidth op ≤ 32 := by
  obtain ⟨-, -, same⟩ := ingotPlace_some place
  simp only [atomicOk, Bool.and_eq_true, beq_iff_eq] at fits
  obtain ⟨⟨-, aligned⟩, -⟩ := fits
  cases op <;> simp only [atomicWidth] at aligned ⊢ <;> omega

/-! ### The bytes that an atomic operation changes -/

theorem ingotKey_half (b off : Nat) : ingotKey b (off / 32 * 32) + off % 32 = ingotKey b off := by
  simp only [ingotKey]
  omega

/-- The old value is what the operand's bytes spell. -/
theorem atomicOld_eq {op : RunOp} {b off : Nat} (room : off % 32 + atomicWidth op ≤ 32) (s : State) :
    atomicOld op b off s = leNat (rdBytes s.ingot.mem (ingotKey b off) (atomicWidth op)) := by
  rw [atomicOld, IngotSt.half, ← ingotKey_half b off]
  exact fieldOf_rdBytes _ _ _ _ 32 room

theorem atomicNew_lt {op : RunOp} (atomic : op.atomic = true) {w : Nat} (old : Nat) (d : BitVec w) (i : Nat) :
    atomicNew op old (fieldOf d i (atomicWidth op)) < 256 ^ atomicWidth op := by
  have operand (n : Nat) : fieldOf d i n < 256 ^ n := by
    rw [fieldOf_eq]
    exact Nat.mod_lt _ (Nat.pow_pos (by decide))
  cases op with
  | read => cases atomic
  | write => cases atomic
  | add32 => exact Nat.mod_lt _ (by decide)
  | add64 => exact Nat.mod_lt _ (by decide)
  | swap32 => exact operand 4
  | swap64 => exact operand 8

/-- The memory after an atomic operation: the operand's bytes spell the new value (R37, R39). -/
theorem leNat_atomicHalf {op : RunOp} (atomic : op.atomic = true) {b off : Nat} (room : off % 32 + atomicWidth op ≤ 32)
    (d : Line) (s : State) :
    leNat (rdBytes (wrBytes s.ingot.mem (ingotKey b (off / 32 * 32)) (bytesOf (atomicHalf op b off d s) 32))
      (ingotKey b off) (atomicWidth op)) =
      atomicNew op (leNat (rdBytes s.ingot.mem (ingotKey b off) (atomicWidth op)))
        (fieldOf d (off % 64) (atomicWidth op)) := by
  conv => lhs; rw [← ingotKey_half b off]
  rw [leNat_rdBytes_wrBytes _ _ _ _ 32 _ room, atomicHalf, fieldOf_putField _ _ _ _ (by omega),
    Nat.mod_eq_of_lt (atomicNew_lt atomic _ _ _), atomicOld_eq room]

/-- Every other byte is as it was. -/
theorem rdByte_atomicHalf {op : RunOp} {b off : Nat} (d : Line) (s : State) {x : Nat}
    (beyond : x < ingotKey b off ∨ ingotKey b off + atomicWidth op ≤ x) :
    rdByte (wrBytes s.ingot.mem (ingotKey b (off / 32 * 32)) (bytesOf (atomicHalf op b off d s) 32)) x =
      rdByte s.ingot.mem x := by
  have key := ingotKey_half b off
  rw [← key] at beyond
  by_cases half : ingotKey b (off / 32 * 32) ≤ x ∧ x < ingotKey b (off / 32 * 32) + 32
  · obtain ⟨i, rfl⟩ := Nat.exists_eq_add_of_le half.1
    apply rdByte_eq_of_leNat
    rw [leNat_rdBytes_wrBytes _ _ _ _ 32 _ (by omega), atomicHalf,
      fieldOf_putField_ne _ _ _ _ _ _ (by omega) (by omega)]
    exact fieldOf_rdBytes _ _ _ _ 32 (by omega)
  · exact rdByte_wrBytes_out _ _ _ _ (by rw [bytesOf_length]; omega)

/-! ### An atomic operation as it is issued -/

theorem runBank_idle {b : Nat} {s : State} (queue : tget [] s.ingot.waiting b = []) : runBank b s = s := by
  simp [runBank, queue, iter]

theorem runBank_last {b : Nat} {s : State} {j : IngotJob} (queue : tget [] s.ingot.waiting b = [j])
    (last : j.left = 1) :
    runBank b s = ingotServe b s := by
  simp [runBank, queue, last, iter]

/-- Whether or not the bank ran before, once it has run its one atomic job is done. -/
theorem runBank_atomic {b : Nat} {s t : State} {j : IngotJob} (queue : tget [] s.ingot.waiting b = [j])
    (atomic : j.op.atomic = true) (last : j.left = 1) (first : j.got = [])
    (clean : decodeSyn 16 (tget 0 s.ingot.syn (ingotKey b (j.off / 32 * 32) / 32)).toNat = .clean) {ran : Bool}
    (ingot : t.ingot = (onlyIf ran (runBank b) s).ingot) (runner : t.runner = (onlyIf ran (runBank b) s).runner) :
    (runBank b t).ingot.mem = wrBytes s.ingot.mem (ingotKey b (j.off / 32 * 32))
        (bytesOf (atomicHalf j.op b j.off (j.lines.headD (0, 0)).1 s) 32) ∧
      (runBank b t).runner.outst =
        s.runner.outst.map (Outst.answeredAs j.req [⟨0, atomicAnswer j.op b j.off s⟩]) := by
  cases ran with
  | false =>
    rw [onlyIf, if_neg Bool.false_ne_true] at ingot runner
    obtain ⟨mem, -, outst⟩ := ingotServe_atomic (s := t) (by rwa [ingot]) atomic last first (by rwa [ingot])
    rw [runBank_last (by rwa [ingot]) last, mem, outst, runner]
    simp only [atomicHalf, atomicAnswer, atomicOld, ingot, and_self]
  | true =>
    rw [onlyIf, if_pos rfl, runBank_last queue last] at ingot runner
    obtain ⟨mem, idle, outst⟩ := ingotServe_atomic queue atomic last first clean
    rw [runBank_idle (by rw [ingot, idle]), ingot, runner]
    exact ⟨mem, outst⟩

/-- The job that an atomic request is at its bank, and the state in which it has entered it. -/
def atomicJob (h : ReqHdr) (op : RunOp) (w : WLine) (off : Nat) (s : State) : IngotJob :=
  { req := s.runner.issued + 1, mid := masterOf h.src, op := op, lines := [w], off := off }

def atomicEntered (h : ReqHdr) (op : RunOp) (w : WLine) (b off : Nat) (s : State) : State :=
  pushOutst { newOutst h op [w] s with atBank := some b }
    (modIngot (fun g => { g with waiting := tmod [] g.waiting b (· ++ [atomicJob h op w off s]) }) s)

/-- An atomic operation at a bank in service enters the bank; the bank may run at once (R37, R39, R209). -/
theorem issueAny_atomic {s : State} {h : ReqHdr} {op : RunOp} {b off : Nat} (atomic : op.atomic = true)
    (whole : crosses h = false) (right : rightTo s h.src true h.addr.toNat = .granted) (fits : atomicOk op h = true)
    (place : ingotPlace s (decodeAddr h.addr.toNat) = some (b, off))
    (serves : (s.region b).gate true (entryStopped b s) = (.serve, false)) (w : WLine) :
    ∃ ran, issueAny h op [w] s = useFree (onlyIf ran (runBank b) (atomicEntered h op w b off s)) := by
  obtain ⟨near, ⟨v, window⟩, -⟩ := ingotPlace_some place
  have writes : decide (op ≠ .read) = true := by
    cases op with
    | read => cases atomic
    | _ => rfl
  have drag : dragRegion s (decodeAddr h.addr.toNat) = some (b, true) := by
    rcases window with view | loc
    · simp only [view] at place ⊢
      simp [dragRegion, place]
    · simp only [loc] at place ⊢
      simp [dragRegion, place]
  have entered : performAt (newOutst h op [w] s) s =
      (modIngot (fun g => { g with waiting := tmod [] g.waiting b (· ++ [atomicJob h op w off s]) }) s,
        { newOutst h op [w] s with atBank := some b }) := by
    rcases window with view | loc
    · simp only [view] at place
      simp [performAt, newOutst, view, place, enterBank, atomic, atomicJob]
    · simp only [loc] at place
      simp [performAt, newOutst, loc, place, enterBank, atomic, atomicJob]
  have gated : passGate (newOutst h op [w] s) s = performAt (newOutst h op [w] s) s := by
    unfold passGate
    rw [show (newOutst h op [w] s).hdr = h from rfl, drag]
    dsimp only
    rw [serves]
    rfl
  have done : checkAndPerform (newOutst h op [w] s) s = _ :=
    ((checkAndPerform_granted (o := newOutst h op [w] s) whole
      (by rcases window with view | loc <;> simp [newOutst, *]) (by rw [← right, ← writes]; rfl)
      (by simp [newOutst, fits])).trans gated).trans entered
  refine ⟨Config.freeBool (atomicEntered h op w b off s).env.freeCtr, ?_⟩
  rw [issueAny, isRemote_of_low near, if_neg Bool.false_ne_true, issueRequest]
  simp only [done, settleBank]
  rcases window with view | loc
  · simp only [view]
    rfl
  · simp only [loc]
    rfl

/-- An atomic operation on a free bank whose word reads good: once the bank has run, the request is answered with the
old value and the word holds the new one (R37, R39, R53). -/
theorem atomic_answered {s : State} {h : ReqHdr} {op : RunOp} {d : Line} {b off : Nat} (atomic : op.atomic = true)
    (may : accepts s h op = true) (whole : crosses h = false) (right : rightTo s h.src true h.addr.toNat = .granted)
    (fits : atomicOk op h = true) (place : ingotPlace s (decodeAddr h.addr.toNat) = some (b, off))
    (idle : tget [] s.ingot.waiting b = []) (serves : (s.region b).gate true (entryStopped b s) = (.serve, false))
    (clean : decodeSyn 16 (tget 0 s.ingot.syn (ingotKey b (off / 32 * 32) / 32)).toNat = .clean) :
    ∃ t, occurs (accepts s h op) (issueAny h op [(d, BitVec.allOnes 64)]) s = .next t ∧
      (∃ o, (runBank b t).outst h.src h.tag = some o ∧ o.resp = some [⟨0, BitVec.ofNat 512
        (leNat (rdBytes s.ingot.mem (ingotKey b off) (atomicWidth op)) * 2 ^ (8 * (off % 64)))⟩]) ∧
      leNat (rdBytes (runBank b t).ingot.mem (ingotKey b off) (atomicWidth op)) = atomicNew op
        (leNat (rdBytes s.ingot.mem (ingotKey b off) (atomicWidth op))) (fieldOf d (off % 64) (atomicWidth op)) ∧
      ∀ x, (x < ingotKey b off ∨ ingotKey b off + atomicWidth op ≤ x) →
        rdByte (runBank b t).ingot.mem x = rdByte s.ingot.mem x := by
  have room := atomic_inHalf fits place
  obtain ⟨ran, issued⟩ := issueAny_atomic atomic whole right fits place serves (d, BitVec.allOnes 64)
  refine gives_occurs may ?_
  rw [issued]
  have queue : tget [] (atomicEntered h op (d, BitVec.allOnes 64) b off s).ingot.waiting b =
      [atomicJob h op (d, BitVec.allOnes 64) off s] := by
    simp [atomicEntered, pushOutst, idle]
  obtain ⟨mem, outst⟩ := runBank_atomic (ran := ran) queue atomic rfl rfl clean
    (t := committed s (useFree (onlyIf ran (runBank b) (atomicEntered h op (d, BitVec.allOnes 64) b off s))))
    (committed_ingot s _) (committed_runner s _)
  generalize committed s _ = t at mem outst ⊢
  rw [mem]
  refine ⟨?_, leNat_atomicHalf atomic room d s, fun x => rdByte_atomicHalf d s⟩
  have free : s.outst h.src h.tag = none := free_of_accepts may
  have stands : (atomicEntered h op (d, BitVec.allOnes 64) b off s).outst h.src h.tag =
      some { newOutst h op [(d, BitVec.allOnes 64)] s with atBank := some b } :=
    outst_pushOutst (o := { newOutst h op [(d, BitVec.allOnes 64)] s with atBank := some b })
      ((outst_eq_of_runner (s := s) rfl h.src h.tag).trans free) rfl
  refine ⟨_, (outst_map (request_answeredAs _ _) outst _ _).trans (congrArg _ stands), ?_⟩
  rw [← atomicOld_eq room]
  simp [Outst.answeredAs, newOutst, atomicJob]
  rfl

/-! ### O32 -/

/-- Settles O32: the HBM clauses hold because a granted access to a line that reads good is answered when it is
issued; an atomic operation is the only job at its bank, so it is done once the bank has run, whether that was at its
issue or later. -/
theorem runnerRequestsComplete : Obligations.RunnerRequestsComplete := by
  intro s h
  refine ⟨read_stands, fun _ => write_stands, crossing_read_answered, fun _ => plain_read_answered,
    fun _ _ _ _ _ => plain_write_answered, fun i op d b off listed may whole right fits place idle serves clean => ?_,
    reserved_answered⟩
  have done (atomic : op.atomic = true) := atomic_answered (d := d) atomic may whole right fits place idle serves clean
  simp only [List.mem_cons, List.not_mem_nil, or_false, Prod.mk.injEq] at listed
  rcases listed with ⟨rfl, rfl⟩ | ⟨rfl, rfl⟩ | ⟨rfl, rfl⟩ | ⟨rfl, rfl⟩
  · show ∃ t, execAdd32 h d s = .next t ∧ _
    exact done rfl
  · show ∃ t, execAdd64 h d s = .next t ∧ _
    exact done rfl
  · show ∃ t, execSwap32 h d s = .next t ∧ _
    exact done rfl
  · show ∃ t, execSwap64 h d s = .next t ∧ _
    exact done rfl

end Sys2Proof.Machine

/-! Every command answers a next state (O51) in which the mode is the one that the conditions give (O50). A command ends in
`commit`, which settles the mode and keeps the queue and the fuses, or leaves the state; `RUNNER_RESPONSE` and `DMA_DONE`
first let a bank serve what waits at it, which the conditions of the mode do not see. -/

namespace Sys2Proof.Machine

/-! ### What the service of a bank leaves -/

/-- The queue of commands, the fuses, the device and the retired banks: what no access to a memory bank changes. -/
def State.beyondBanks (s : State) : List Instr × Fuses × Device × List Nat :=
  (s.pending, s.env.fuses, s.dev, s.ingot.retired)

section
variable {s : State}

theorem beyondBanks_eq_iff {t : State} : t.beyondBanks = s.beyondBanks ↔
    t.pending = s.pending ∧ t.env.fuses = s.env.fuses ∧ t.dev = s.dev ∧ t.ingot.retired = s.ingot.retired := by
  simp only [State.beyondBanks, Prod.mk.injEq]

@[simp] theorem beyondBanks_modInteg (f) : (modInteg f s).beyondBanks = s.beyondBanks := rfl
@[simp] theorem beyondBanks_raise (e) : (raise e s).beyondBanks = s.beyondBanks := by simp [State.beyondBanks]
@[simp] theorem beyondBanks_raiseLimited (e counts) : (raiseLimited e counts s).beyondBanks = s.beyondBanks := by
  simp [State.beyondBanks]
@[simp] theorem beyondBanks_bumpInteg (pl i n) : (bumpInteg pl i n s).beyondBanks = s.beyondBanks := rfl
@[simp] theorem beyondBanks_setTracker (pl l) : (setTracker pl l s).beyondBanks = s.beyondBanks := rfl

@[simp] theorem beyondBanks_hardFault (pl w out i) : (hardFault pl w out i s).beyondBanks = s.beyondBanks := by
  simp only [hardFault]
  split
  · rfl
  · split <;> simp

@[simp] theorem beyondBanks_noteRead (pl w out injected fettler) :
    (noteRead pl w out injected fettler s).1.beyondBanks = s.beyondBanks := by
  simp only [noteRead]
  repeat' split
  all_goals simp

@[simp] theorem beyondBanks_onlyIf {f : State → State} (hf : (f s).beyondBanks = s.beyondBanks) (c : Bool) :
    (onlyIf c f s).beyondBanks = s.beyondBanks := by
  cases c
  · rfl
  · exact hf

@[simp] theorem beyondBanks_ingotGrant (bank mid) : (ingotGrant bank mid s).beyondBanks = s.beyondBanks := rfl
@[simp] theorem beyondBanks_ingotPut (bank off v) : (ingotPut bank off v s).beyondBanks = s.beyondBanks := rfl
@[simp] theorem beyondBanks_ingotFetch (bank off mid fettler) :
    (ingotFetch bank off mid fettler s).1.beyondBanks = s.beyondBanks := by simp [ingotFetch]

@[simp] theorem beyondBanks_ingotLineRead (bank off mid) :
    (ingotLineRead bank off mid s).1.beyondBanks = s.beyondBanks := by
  simp only [ingotLineRead]
  split <;> simp

@[simp] theorem beyondBanks_ingotLineWrite (bank off mid data be) :
    (ingotLineWrite bank off mid data be s).1.beyondBanks = s.beyondBanks := by
  have put (u : State) (c : Bool) (off v) : (onlyIf c (ingotPut bank off v) u).beyondBanks = u.beyondBanks :=
    beyondBanks_onlyIf rfl c
  simp only [ingotLineWrite]
  repeat' split
  all_goals simp [put]

@[simp] theorem beyondBanks_ingotAtomic (op bank off mid operand) :
    (ingotAtomic op bank off mid operand s).1.beyondBanks = s.beyondBanks := by
  simp only [ingotAtomic]
  split <;> simp

@[simp] theorem beyondBanks_ingotLine (bank j) : (ingotLine bank j s).1.beyondBanks = s.beyondBanks := by
  simp only [ingotLine]
  split <;> simp

@[simp] theorem beyondBanks_ingotServe (bank) : (ingotServe bank s).beyondBanks = s.beyondBanks := by
  simp only [ingotServe]
  split
  · rfl
  · next j _ =>
    have line := beyondBanks_ingotLine (s := s) bank j
    rw [beyondBanks_onlyIf rfl]
    exact line

@[simp] theorem beyondBanks_runBank (bank) : (runBank bank s).beyondBanks = s.beyondBanks := by
  unfold runBank
  generalize ((tget [] s.ingot.waiting bank).map (·.left)).foldl (· + ·) 0 = n
  induction n generalizing s with
  | zero => rfl
  | succ n ih => exact ih.trans (beyondBanks_ingotServe bank)

@[simp] theorem beyondBanks_serveFirst (src tag) : (serveFirst src tag s).beyondBanks = s.beyondBanks := by
  simp only [serveFirst]
  repeat' split
  all_goals simp

theorem serveFirst_regions (src tag) : (serveFirst src tag s).regions = s.regions :=
  (same_serveFirst (s₀ := s) (part := .regions) (by decide) src tag).mpr rfl

end

/-! ### What settles -/

/-- The outcome is a next state with the queue of commands and the fuses of `s`, and a mode that the conditions give where
they gave that of `s`. -/
def Settles (s : State) (o : Out) : Prop :=
  ∃ t, o = .next t ∧ t.pending = s.pending ∧ t.env.fuses = s.env.fuses ∧ (ModeKept s → ModeKept t)

section
variable {s : State}

theorem settles_next : Settles s (.next s) := ⟨s, rfl, rfl, rfl, id⟩

theorem settles_commit (u : State) : Settles s (commit s u) := by
  obtain ⟨t, ht, mode, pending, fuses, -⟩ := commit_eq s u
  exact ⟨t, ht, pending, fuses, fun _ => mode⟩

theorem settles_occurs (c : Bool) (f : State → State) : Settles s (occurs c f s) := by
  cases c
  · exact settles_next
  · exact settles_commit (f s)

theorem settles_runCmd (c p sl) : Settles s (runCmd c p sl s) := settles_occurs _ _

/-- What settles after a bank has served, settles. -/
theorem settles_serveFirst {src tag} {o : Out} (h : Settles (serveFirst src tag s) o) : Settles s o := by
  obtain ⟨hpending, hfuses, hdev, hretired⟩ := beyondBanks_eq_iff.mp (beyondBanks_serveFirst (s := s) src tag)
  obtain ⟨t, ht, pending, fuses, mode⟩ := h
  refine ⟨t, ht, pending.trans hpending, fuses.trans hfuses, fun kept => mode ?_⟩
  have degraded : isDegraded (serveFirst src tag s) = isDegraded s := by
    simp only [isDegraded, serveFirst_regions, hretired]
  unfold ModeKept modeOf at kept ⊢
  rwa [hdev, degraded]

theorem settles_execRunnerResponse (src tag) : Settles s (execRunnerResponse src tag s) := by
  apply settles_serveFirst (src := src) (tag := tag)
  unfold execRunnerResponse
  dsimp only
  split
  · exact settles_occurs _ _
  · exact settles_next

theorem settles_execDmaDone (e) : Settles s (execDmaDone e s) := by
  apply settles_serveFirst (src := .dsp e) (tag := 0)
  unfold execDmaDone
  dsimp only
  split
  · split
    · exact settles_occurs _ _
    · exact settles_next
  · exact settles_next
end

/-- Every command settles. The state is left only where nothing is there for the command to act on. -/
theorem exec_settles (i : Instr) (s : State) : Settles s (exec i s) := by
  cases i
  case runnerResponse src tag => exact settles_execRunnerResponse src tag
  case dmaDone e => exact settles_execDmaDone e
  case dspStart | dspHalt =>
    simp only [exec, execDspStart, execDspHalt]
    split
    · exact settles_next
    · exact settles_runCmd _ _ _
  case fettlerWordRead t | trackerInterval t => cases t <;> exact settles_occurs _ _
  case laneTransmitItem =>
    simp only [exec, execLaneTransmitItem]
    split <;> exact settles_occurs _ _
  case remoteRequestAccepted =>
    simp only [exec, execRemoteRequestAccepted]
    split
    · exact settles_commit _
    · exact settles_next
  case programOrEraseEnd =>
    simp only [exec, execProgramOrEraseEnd]
    split
    · split
      · exact settles_occurs _ _
      · exact settles_next
    · exact settles_next
  case protZeroFillComplete =>
    simp only [exec, execProtZeroFillComplete]
    split
    · exact settles_occurs _ _
    · exact settles_occurs _ _
    · exact settles_next
  case messageCreditTimeout | bramPortOperation =>
    simp only [exec, execMessageCreditTimeout, execBramPortOperation]
    split <;> exact settles_occurs _ _
  case warmResetBegin | powerEntryComplete | powerExitComplete | runnerTimeout | delayedSwitch | graceExpiry |
      planeFillComplete | loadActiveComplete | bramClearComplete | transactionRequest | transactionResponse |
      transactionTimeout | rekeyComplete | protReinitComplete | fettlerPassComplete | hbmRepairComplete | sliceEnd |
      sliceRepeat | cupolaRestartComplete | eventWindowClose =>
    simp only [exec, execWarmResetBegin, execPowerEntryComplete, execPowerExitComplete, execRunnerTimeout, execDelayedSwitch,
      execGraceExpiry, execPlaneFillComplete, execLoadActiveComplete, execBramClearComplete, execTransactionRequest,
      execTransactionResponse, execTransactionTimeout, execRekeyComplete, execProtReinitComplete,
      execFettlerPassComplete, execHbmRepairComplete, execSliceEnd, execSliceRepeat, execCupolaRestartComplete,
      execEventWindowClose]
    split
    · exact settles_occurs _ _
    · exact settles_next
  case rootPllLock | hbmQueueAged | spineContention | waitiResume | timerExpiry | injectError | lanePllLockLost |
      cdrLocked | trainingFrame | trainingDone | trainingTimeout | laneLockAcquired | laneLockLost | laneSignalLost
      | laneReceiveUnit | laneFlushTimeout | ageingEyescan | gapSkewTimeout | nakReplayTimeout | replayTimeout |
      linkFormationTimeout | startingDegradeTimeout | helloInterval | sendMessage | spillReadbackComplete |
      hostRequest | flitDiscarded | prbsCheckerLock | prbsCheckerLockLost =>
    simp only [exec, execRootPllLock, execHbmQueueAged, execSpineContention, execWaitiResume, execTimerExpiry,
      execInjectError, execLanePllLockLost, execCdrLocked, execTrainingFrame, execTrainingDone, execTrainingTimeout,
      execLaneLockAcquired, execLaneLockLost, execLaneSignalLost, execLaneReceiveUnit, execLaneFlushTimeout,
      execAgeingEyescan, execGapSkewTimeout, execNakReplayTimeout, execReplayTimeout, execLinkFormationTimeout,
      execStartingDegradeTimeout, execHelloInterval, execSendMessage, execSpillReadbackComplete, execHostRequest,
      execFlitDiscarded, execPrbsCheckerLock, execPrbsCheckerLockLost]
    exact settles_occurs _ _
  all_goals
    unfold exec
    exact settles_occurs _ _

/-! ### O51 and O50 -/

/-- Settles O51: a command ends in `commit`, which keeps the queue's rest and the fuses, or leaves the state, after at most the
service of a bank. -/
theorem everyCommandAnswers : Obligations.EveryCommandAnswers := by
  intro i s
  obtain ⟨t, ht, pending, fuses, -⟩ := exec_settles i s
  exact ⟨t, ht, pending, fuses⟩

/-- Settles O50: a command that ends in `commit` settles the mode, and what leaves the state, an idle cycle included, leaves
the conditions and the mode that they gave. -/
theorem everyStepKeepsTheMode : Obligations.EveryStepKeepsTheMode := by
  intro s t kept ht
  unfold step at ht
  split at ht
  · cases ht
    exact kept
  · next i rest _ =>
    obtain ⟨u, hu, -, -, mode⟩ := exec_settles i (s.withPending rest)
    cases hu.symm.trans ht
    exact mode kept

end Sys2Proof.Machine

/-! The order of the modes (R57, R58), the bits of `DEV_STATE` that show DEGRADED and the alarm (Table 3.7), and what power-on
reset leaves. -/

namespace Sys2Proof.Machine

/-- In the running device the mode is the first of R58's list whose condition holds. -/
theorem modeOf_running {s : State} (h : s.dev.base = .running) : modeOf s =
    if s.dev.cooldown then .cooldown else if s.dev.hold then .hold else if s.dev.frozenCmd then .frozen
    else if s.dev.debug then .debug else if isDegraded s then .degraded else .run := by
  simp [modeOf, h]

/-- Settling changes no condition. -/
theorem isDegraded_settleMode (cause : Nat) (s : State) : isDegraded (settleMode cause s) = isDegraded s := by
  simp [isDegraded]

theorem modeOf_settleMode (cause : Nat) (s : State) : modeOf (settleMode cause s) = modeOf s := by
  simp [modeOf, isDegraded_settleMode]

theorem Mode.code_lt (m : Mode) : m.code < 16 := by cases m <;> decide

theorem bit_le_one (b : Bool) : bit b ≤ 1 := by cases b <;> decide

/-- Bits 17 and 16 of `DEV_STATE` (Table 3.7). -/
theorem devState_bits (s : State) :
    devState s / 2 ^ 17 % 2 = bit (isDegraded s) ∧ devState s / 2 ^ 16 % 2 = bit s.dev.alarm := by
  have degraded := bit_le_one (isDegraded s)
  have alarm := bit_le_one s.dev.alarm
  have pull := bit_le_one s.dev.straps.holdPull
  have host := bit_le_one s.dev.straps.hostSel
  have quad := bit_le_one s.dev.straps.flashQuad
  have code := s.dev.mode.code_lt
  have delay := s.dev.straps.xtalDly.isLt
  unfold devState
  dsimp only
  omega

/-- Settles O60: in the running device `modeOf` is the list of R58, and settling the mode changes no condition. -/
theorem firstModeWhoseConditionHolds : Obligations.FirstModeWhoseConditionHolds := by
  intro s
  refine ⟨fun kept running => ?_, fun cause => ?_, devState_bits s⟩
  · have mode : s.dev.mode = _ := kept.trans (modeOf_running running)
    rw [mode]
    refine ⟨fun c => ?_, fun c h => ?_, fun c h f => ?_, fun c h f d => ?_, fun c h f d => ?_⟩ <;> simp [*]
  · exact ⟨(settleMode_mode cause s).trans (modeOf_settleMode cause s), by simp, by simp, by simp, by simp,
      isDegraded_settleMode cause s⟩

/-- Settles O49: both modes compute to the same value. -/
theorem modeKeptAtReset : Obligations.ModeKeptAtReset := rfl

/-- A register file of zeros reads zero, beyond its end as well. -/
theorem lget_replicate (k n w : Nat) : lget 0 (List.replicate k (0 : BitVec w)) n = 0 :=
  getD_append_replicate 0 [] k n

/-- Settles O48: every value stated is a default of the state's records; the register files are lists of zeros. -/
theorem resetLeavesTheStatedValues : Obligations.ResetLeavesTheStatedValues := by
  refine ⟨rfl, rfl, rfl, rfl, rfl, rfl, rfl, rfl, rfl, rfl, rfl, rfl, fun r => ⟨rfl, rfl, rfl⟩,
    fun e => ⟨rfl, rfl, rfl, fun n => ⟨?_, ?_, ?_⟩⟩, fun l => ⟨rfl, rfl⟩, fun q => rfl, fun p sl => ?_⟩
  · exact lget_replicate 16 n 32
  · exact lget_replicate 4 n 40
  · exact lget_replicate 8 n 15
  · cases p <;> fin_cases sl <;> rfl
end Sys2Proof.Machine

/-! Commands of one part (O55). Each function that such a command goes through writes that part alone, or none; the lemmas
`same_f` say so as those above do, and the frame of a command follows. -/

namespace Sys2Proof.Machine

/-! ### What changes no part -/
section
variable {part : Part} {s₀ s : State}

@[simp] theorem same_claimOne (q k) : part.same s₀ (claimOne q k s).1 ↔ part.same s₀ s := by
  have claimed := same_claimAll (part := part) (s₀ := s₀) (s := s) q [k]
  simp only [claimOne]
  split
  all_goals rename_i heq; rwa [heq] at claimed

@[simp] theorem same_sensorEvent (i sev) : part.same s₀ (sensorEvent i sev s) ↔ part.same s₀ s := by simp [sensorEvent]
@[simp] theorem same_useIfWaiting (id) : part.same s₀ (useIfWaiting id s) ↔ part.same s₀ s := by simp [useIfWaiting]
@[simp] theorem same_fettlerEvent (sev) : part.same s₀ (fettlerEvent sev s) ↔ part.same s₀ s := by simp [fettlerEvent]
@[simp] theorem same_mayClear (q) : part.same s₀ (mayClear q s).1 ↔ part.same s₀ s := by simp [mayClear]
@[simp] theorem same_rangeEnded (ri base gib) : part.same s₀ (rangeEnded ri base gib s) ↔ part.same s₀ s :=
  by simp [rangeEnded]
@[simp] theorem same_abortOthers (keep) : part.same s₀ (abortOthers keep s) ↔ part.same s₀ s := by simp [abortOthers]
@[simp] theorem same_restartedEvent (image) : part.same s₀ (restartedEvent image s) ↔ part.same s₀ s :=
  by simp [restartedEvent]

end

/-! ### What changes at most the clocks -/
section
variable {part : Part} {s₀ s : State} (hp : part ≠ .clk)
include hp

@[simp] theorem same_modSwitch (sw f) : part.same s₀ (modSwitch sw f s) ↔ part.same s₀ s := by simp [modSwitch, hp]
@[simp] theorem same_beginSwitch (sw toNew) : part.same s₀ (beginSwitch sw toNew s) ↔ part.same s₀ s :=
  by simp [beginSwitch, hp]
@[simp] theorem same_releaseSwitch (sw) : part.same s₀ (releaseSwitch sw s) ↔ part.same s₀ s :=
  by simp [releaseSwitch, hp]
@[simp] theorem same_failover : part.same s₀ (failover s) ↔ part.same s₀ s := by simp [failover, hp]
@[simp] theorem same_countWindow (n) : part.same s₀ (countWindow n s) ↔ part.same s₀ s := by simp [countWindow, hp]
@[simp] theorem same_endCheck : part.same s₀ (endCheck s) ↔ part.same s₀ s := by simp [endCheck, hp]
@[simp] theorem same_endWindow (count) : part.same s₀ (endWindow count s) ↔ part.same s₀ s := by simp [endWindow, hp]
@[simp] theorem same_checkSwitch (sw dead) : part.same s₀ (checkSwitch sw dead s) ↔ part.same s₀ s :=
  by simp [checkSwitch, hp]
@[simp] theorem same_returnToCrystal : part.same s₀ (returnToCrystal s).1 ↔ part.same s₀ s :=
  by simp [returnToCrystal, hp]
theorem kept_execMonitorWindow (count) : part.keptBy s (execMonitorWindow count s) := kept_occurs (by simp [hp])
theorem kept_execClockSwitchAck (sw) : part.keptBy s (execClockSwitchAck sw s) := kept_occurs (by simp [hp])
theorem kept_execClockSwitchCheck (sw dead) : part.keptBy s (execClockSwitchCheck sw dead s) :=
  kept_occurs (by simp [hp])
theorem kept_execClockStatus (p sl) : part.keptBy s (execClockStatus p sl s) := by
  refine kept_runCmd (fun q u => ?_) p sl
  simp only [clockStatusSpec]
  split <;> simp [hp]


end

/-! ### What changes at most the regions -/
section
variable {part : Part} {s₀ s : State} (hp : part ≠ .regions)
include hp

@[simp] theorem same_endOwner (k cause newOwner) : part.same s₀ (endOwner k cause newOwner s) ↔ part.same s₀ s := by
  simp only [endOwner]
  split <;> simp [hp]

@[simp] theorem same_clearOverride (r) : part.same s₀ (clearOverride r s).1 ↔ part.same s₀ s := by
  simp only [clearOverride]
  split <;> simp [hp]

@[simp] theorem same_enableSpines (r mask) : part.same s₀ (enableSpines r mask s).1 ↔ part.same s₀ s := by
  refine same_foldl_fst (fun u k => ?_) (List.range 64) (s, true)
  dsimp only
  repeat' split
  all_goals simp [hp]

@[simp] theorem same_openBorders : part.same s₀ (openBorders s) ↔ part.same s₀ s := by simp [openBorders, hp]
@[simp] theorem same_claimRes (q k) : part.same s₀ (claimRes q k s).1 ↔ part.same s₀ s := by
  simp only [claimRes]
  split <;> simp [hp]

@[simp] theorem same_releaseRes (q k) : part.same s₀ (releaseRes q k s).1 ↔ part.same s₀ s := by
  simp only [releaseRes]
  split <;> simp [hp]

theorem kept_execReleaseIsolationOpen : part.keptBy s (execReleaseIsolationOpen s) := kept_occurs (by simp [hp])
theorem kept_execScheduleSet (p sl) : part.keptBy s (execScheduleSet p sl s) :=
  kept_runCmd (fun q u => by simp [scheduleSetSpec, hp]) p sl
theorem kept_execPlaneFill (p sl) : part.keptBy s (execPlaneFill p sl s) :=
  kept_runCmd (fun q u => by simp [planeFillSpec, hp]) p sl
theorem kept_execPlaneOverride (p sl) : part.keptBy s (execPlaneOverride p sl s) :=
  kept_runCmd (fun q u => by simp [planeOverrideSpec, hp]) p sl
theorem kept_execPlaneStatus (p sl) : part.keptBy s (execPlaneStatus p sl s) :=
  kept_runCmd (fun q u => by simp [planeStatusSpec, hp]) p sl
theorem kept_execSpineEnable (p sl) : part.keptBy s (execSpineEnable p sl s) :=
  kept_runCmd (fun q u => by simp [spineEnableSpec, hp]) p sl
theorem kept_execBramClear (p sl) : part.keptBy s (execBramClear p sl s) :=
  kept_runCmd (fun q u => by simp [bramClearSpec, hp]) p sl
theorem kept_execFabricClockChange (r) : part.keptBy s (execFabricClockChange r s) := kept_occurs (by simp [hp])
theorem kept_execRegionClock (p sl) : part.keptBy s (execRegionClock p sl s) :=
  kept_runCmd (fun q u => by simp [regionClockSpec, hp]) p sl
theorem kept_execRegionPower (p sl) : part.keptBy s (execRegionPower p sl s) :=
  kept_runCmd (fun q u => by simp [regionPowerSpec, hp]) p sl
theorem kept_execLeaseExpiry (kind index) : part.keptBy s (execLeaseExpiry kind index s) := kept_occurs (by simp [hp])
theorem kept_execResClaim (p sl) : part.keptBy s (execResClaim p sl s) := by
  refine kept_runCmd (fun q u => ?_) p sl
  simp only [resClaimSpec]
  repeat' split
  all_goals simp [hp]


end

/-! ### What changes at most the Runner's records -/
section
variable {part : Part} {s₀ s : State} (hp : part ≠ .runner)
include hp

theorem kept_execRouterWaitPromotion (src tag) : part.keptBy s (execRouterWaitPromotion src tag s) :=
  kept_occurs (by simp [hp])
theorem kept_execHbmQueueAged (src tag) : part.keptBy s (execHbmQueueAged src tag s) := kept_occurs (by simp [hp])
theorem kept_execRunnerCounters (p sl) : part.keptBy s (execRunnerCounters p sl s) :=
  kept_runCmd (fun q u => by simp [runnerCountersSpec, hp]) p sl
theorem kept_execReservedRunnerOperation (h op7) : part.keptBy s (execReservedRunnerOperation h op7 s) :=
  kept_occurs (by simp [hp])

end

/-! ### What changes at most the tick -/
section
variable {part : Part} {s₀ s : State} (hp : part ≠ .tick)
include hp

@[simp] theorem same_takeReference (e unit) : part.same s₀ (takeReference e unit s) ↔ part.same s₀ s :=
  by simp [takeReference, hp]
@[simp] theorem same_makeStep (units) : part.same s₀ (makeStep units s) ↔ part.same s₀ s := by simp [makeStep, hp]
@[simp] theorem same_tickInEdge (pos) : part.same s₀ (tickInEdge pos s) ↔ part.same s₀ s := by simp [tickInEdge, hp]
theorem kept_execTickInEdge (pos) : part.keptBy s (execTickInEdge pos s) := kept_occurs (by simp [hp])
theorem kept_execTickHoldover : part.keptBy s (execTickHoldover s) := kept_occurs (by simp [hp])
theorem kept_execTickConfig (p sl) : part.keptBy s (execTickConfig p sl s) :=
  kept_runCmd (fun q u => by simp [tickConfigSpec, hp]) p sl

end

/-! ### What changes at most the Ingot banks -/
section
variable {part : Part} {s₀ s : State} (hp : part ≠ .ingot)
include hp

theorem kept_execIngotConflicts (p sl) : part.keptBy s (execIngotConflicts p sl s) :=
  kept_runCmd (fun q u => by simp [ingotConflictsSpec, hp]) p sl
theorem kept_execIngotBanks (p sl) : part.keptBy s (execIngotBanks p sl s) :=
  kept_runCmd (fun q u => by simp [ingotBanksSpec, hp]) p sl

end

/-! ### What changes at most the engines -/
section
variable {part : Part} {s₀ s : State} (hp : part ≠ .dsp)
include hp

@[simp] theorem same_requestStart (id addr) : part.same s₀ (requestStart id addr s) ↔ part.same s₀ s := by
  simp only [requestStart]
  split <;> simp [hp]

theorem kept_execInterruptEntry (e) : part.keptBy s (execInterruptEntry e s) := kept_occurs (by simp [hp])
theorem kept_execWaitiResume (e) : part.keptBy s (execWaitiResume e s) := by
  unfold execWaitiResume
  exact kept_occurs (by simp [hp])

theorem kept_execTimerExpiry (e) : part.keptBy s (execTimerExpiry e s) := kept_occurs (by simp [hp])
theorem kept_execDoorbell (e) : part.keptBy s (execDoorbell e s) := kept_occurs (by simp [hp])
theorem kept_execStart (e) : part.keptBy s (execStart e s) := kept_occurs (by simp [hp])
theorem kept_execStreamInputItem (e k item) : part.keptBy s (execStreamInputItem e k item s) :=
  kept_occurs (by simp [hp])
theorem kept_execStreamOutputItem (e k) : part.keptBy s (execStreamOutputItem e k s) := kept_occurs (by simp [hp])
theorem kept_execDspStart (p sl) : part.keptBy s (execDspStart p sl s) := by
  unfold execDspStart
  split
  · exact kept_next
  · exact kept_runCmd (fun q u => by
      simp only [dspStartSpec]
      repeat' split
      all_goals simp [hp]) p sl


end

/-! ### What changes at most the lanes -/
section
variable {part : Part} {s₀ s : State} (hp : part ≠ .lanes)
include hp

theorem kept_execLaneStatus (p sl) : part.keptBy s (execLaneStatus p sl s) :=
  kept_runCmd (fun q u => by simp [laneStatusSpec, hp]) p sl
theorem kept_execLaneReset (p sl) : part.keptBy s (execLaneReset p sl s) :=
  kept_runCmd (fun q u => by simp [laneResetSpec, hp]) p sl
theorem kept_execLaneSlip (p sl) : part.keptBy s (execLaneSlip p sl s) :=
  kept_runCmd (fun q u => by simp [laneSlipSpec, hp]) p sl
theorem kept_execLaneEyescan (p sl) : part.keptBy s (execLaneEyescan p sl s) :=
  kept_runCmd (fun q u => by simp [laneEyescanSpec, hp]) p sl
theorem kept_execLaneInject (p sl) : part.keptBy s (execLaneInject p sl s) :=
  kept_runCmd (fun q u => by simp [laneInjectSpec, hp]) p sl
theorem kept_execInjectError (lane) : part.keptBy s (execInjectError lane s) := kept_occurs (by simp [hp])
theorem kept_execLanePllLocked (g pll) : part.keptBy s (execLanePllLocked g pll s) := kept_occurs (by simp [hp])
theorem kept_execTrainingFrame (lane control status) : part.keptBy s (execTrainingFrame lane control status s) := by
  unfold execTrainingFrame
  exact kept_occurs (by simp [hp])

theorem kept_execAgeingEyescan (lane width height plan) :
    part.keptBy s (execAgeingEyescan lane width height plan s) := by
  unfold execAgeingEyescan
  exact kept_occurs (by simp [hp])

theorem kept_execPrbsCheckerLock (lane) : part.keptBy s (execPrbsCheckerLock lane s) := kept_occurs (by simp [hp])
theorem kept_execPrbsCheckerLockLost (lane) : part.keptBy s (execPrbsCheckerLockLost lane s) :=
  kept_occurs (by simp [hp])

end

/-! ### What changes at most the links -/
section
variable {part : Part} {s₀ s : State} (hp : part ≠ .links)
include hp

@[simp] theorem same_setLinkDepth (l d) : part.same s₀ (setLinkDepth l d s) ↔ part.same s₀ s :=
  by simp [setLinkDepth, hp]
theorem kept_execLinkStatus (p sl) : part.keptBy s (execLinkStatus p sl s) :=
  kept_runCmd (fun q u => by simp [linkStatusSpec, hp]) p sl
theorem kept_execLinkLoopback (p sl) : part.keptBy s (execLinkLoopback p sl s) :=
  kept_runCmd (fun q u => by simp [linkLoopbackSpec, hp]) p sl
theorem kept_execGapSkewTimeout (l) : part.keptBy s (execGapSkewTimeout l s) := kept_occurs (by simp [hp])
theorem kept_execNakReplayTimeout (l) : part.keptBy s (execNakReplayTimeout l s) := kept_occurs (by simp [hp])
theorem kept_execLinkBackoffEnd (l) : part.keptBy s (execLinkBackoffEnd l s) := kept_occurs (by simp [hp])
theorem kept_execLinkUpStable (l) : part.keptBy s (execLinkUpStable l s) := kept_occurs (by simp [hp])
theorem kept_execStartingDegradeTimeout (l) : part.keptBy s (execStartingDegradeTimeout l s) :=
  kept_occurs (by simp [hp])
theorem kept_execTimeInterval : part.keptBy s (execTimeInterval s) := kept_occurs (by simp [hp])
theorem kept_execFlitDiscarded (l lane why f) : part.keptBy s (execFlitDiscarded l lane why f s) :=
  kept_occurs (by simp [hp])

end

/-! ### What changes at most the queues -/
section
variable {part : Part} {s₀ s : State} (hp : part ≠ .riser)
include hp

@[simp] theorem same_modRiser (f) : part.same s₀ (modRiser f s) ↔ part.same s₀ s := by
  cases part <;> simp_all [Part.same, modRiser]

theorem kept_execSprueQueue (p sl) : part.keptBy s (execSprueQueue p sl s) :=
  kept_runCmd (fun q u => by simp [sprueQueueSpec, hp]) p sl
theorem kept_execRiserSpill (p sl) : part.keptBy s (execRiserSpill p sl s) :=
  kept_runCmd (fun q u => by simp [riserSpillSpec, hp]) p sl
theorem kept_execRiserStatus (p sl) : part.keptBy s (execRiserStatus p sl s) :=
  kept_runCmd (fun q u => by simp [riserStatusSpec, hp]) p sl

end

/-! ### What changes at most the system layer -/
section
variable {part : Part} {s₀ s : State} (hp : part ≠ .sys)
include hp

@[simp] theorem same_dropPartner (k) : part.same s₀ (dropPartner k s) ↔ part.same s₀ s := by simp [dropPartner, hp]
@[simp] theorem same_evictOne (ks) : part.same s₀ (evictOne ks s).1 ↔ part.same s₀ s := by
  simp only [evictOne]
  split <;> simp [hp]

@[simp] theorem same_setNode (q) : part.same s₀ (setNode q s) ↔ part.same s₀ s := by simp [setNode, hp]
@[simp] theorem same_setProfile (q) : part.same s₀ (setProfile q s) ↔ part.same s₀ s := by simp [setProfile, hp]
theorem kept_execNodeSet (p sl) : part.keptBy s (execNodeSet p sl s) :=
  kept_runCmd (fun q u => by simp [nodeSetSpec, hp]) p sl
theorem kept_execWindowSet (p sl) : part.keptBy s (execWindowSet p sl s) :=
  kept_runCmd (fun q u => by simp [windowSetSpec, hp]) p sl
theorem kept_execProfileSet (p sl) : part.keptBy s (execProfileSet p sl s) :=
  kept_runCmd (fun q u => by simp [profileSetSpec, hp]) p sl
theorem kept_execRouteSet (p sl) : part.keptBy s (execRouteSet p sl s) :=
  kept_runCmd (fun q u => by simp [routeSetSpec, hp]) p sl
theorem kept_execPartnerEviction (node) : part.keptBy s (execPartnerEviction node s) := kept_occurs (by simp [hp])

end

/-! ### What changes at most the HBM -/
section
variable {part : Part} {s₀ s : State} (hp : part ≠ .hbm)
include hp

@[simp] theorem same_createRange (q) : part.same s₀ (createRange q s).1 ↔ part.same s₀ s := by simp [createRange, hp]
@[simp] theorem same_removeRange (q) : part.same s₀ (removeRange q s).1 ↔ part.same s₀ s := by simp [removeRange, hp]
@[simp] theorem same_maskRange (q) : part.same s₀ (maskRange q s).1 ↔ part.same s₀ s := by simp [maskRange, hp]
@[simp] theorem same_finishCreate (ri w) : part.same s₀ (finishCreate ri w s) ↔ part.same s₀ s :=
  by simp [finishCreate, hp]
@[simp] theorem same_finishRemove (ri w) : part.same s₀ (finishRemove ri w s) ↔ part.same s₀ s :=
  by simp [finishRemove, hp]
theorem kept_execProtRange (p sl) : part.keptBy s (execProtRange p sl s) := by
  refine kept_runCmd (fun q u => ?_) p sl
  simp only [protRangeSpec]
  repeat' split
  all_goals simp [hp]

theorem kept_execProtZeroFillComplete (range) : part.keptBy s (execProtZeroFillComplete range s) := by
  unfold execProtZeroFillComplete
  split
  · exact kept_occurs (by simp [hp])
  · exact kept_occurs (by simp [hp])
  · exact kept_next

theorem kept_execProtRekey (p sl) : part.keptBy s (execProtRekey p sl s) :=
  kept_runCmd (fun q u => by simp [protRekeySpec, hp]) p sl
theorem kept_execRekeyInterval : part.keptBy s (execRekeyInterval s) := kept_occurs (by simp [hp])
theorem kept_execProtReinit (p sl) : part.keptBy s (execProtReinit p sl s) :=
  kept_runCmd (fun q u => by simp [protReinitSpec, hp]) p sl

end

/-! ### What changes at most the integrity records -/
section
variable {part : Part} {s₀ s : State} (hp : part ≠ .integ)
include hp

@[simp] theorem same_watchFettler : part.same s₀ (watchFettler s) ↔ part.same s₀ s := by simp [watchFettler, hp]
@[simp] theorem same_ageAt (pl kinds) : part.same s₀ (ageAt pl kinds s) ↔ part.same s₀ s := by simp [ageAt, hp]
@[simp] theorem same_clearRecord (k) : part.same s₀ (clearRecord k s) ↔ part.same s₀ s := by simp [clearRecord, hp]
@[simp] theorem same_unbindSlot (r slot) : part.same s₀ (unbindSlot r slot s) ↔ part.same s₀ s := by
  simp only [unbindSlot]
  split <;> simp [hp]

theorem kept_execFettlerHeartbeat : part.keptBy s (execFettlerHeartbeat s) := kept_occurs (by simp [hp])
theorem kept_execFettlerWatch : part.keptBy s (execFettlerWatch s) := kept_occurs (by simp [hp])
theorem kept_execTrackerInterval (t) : part.keptBy s (execTrackerInterval t s) := by
  cases t <;> exact kept_occurs (by simp [hp])

theorem kept_execFettlerConfig (p sl) : part.keptBy s (execFettlerConfig p sl s) :=
  kept_runCmd (fun q u => by simp [fettlerConfigSpec, hp]) p sl
theorem kept_execFettlerPass (p sl) : part.keptBy s (execFettlerPass p sl s) :=
  kept_runCmd (fun q u => by simp [fettlerPassSpec, hp]) p sl
theorem kept_execIntegrityCounters (p sl) : part.keptBy s (execIntegrityCounters p sl s) :=
  kept_runCmd (fun q u => by simp [integrityCountersSpec, hp]) p sl
theorem kept_execHardFaultLog (p sl) : part.keptBy s (execHardFaultLog p sl s) :=
  kept_runCmd (fun q u => by simp [hardFaultLogSpec, hp]) p sl
theorem kept_execCrcBind (p sl) : part.keptBy s (execCrcBind p sl s) :=
  kept_runCmd (fun q u => by simp [crcBindSpec, hp]) p sl

end

/-! ### What changes at most the thermal records -/
section
variable {part : Part} {s₀ s : State} (hp : part ≠ .therm)
include hp

@[simp] theorem same_evaluateRegion (r) : part.same s₀ (evaluateRegion r s) ↔ part.same s₀ s := by
  simp only [evaluateRegion]
  split <;> simp [hp]

@[simp] theorem same_readReplica (x) : part.same s₀ (readReplica x s) ↔ part.same s₀ s := by simp [readReplica, hp]
@[simp] theorem same_setDeviceTherm (q) : part.same s₀ (setDeviceTherm q s).1 ↔ part.same s₀ s :=
  by simp [setDeviceTherm, hp]
@[simp] theorem same_setBudget (q) : part.same s₀ (setBudget q s).1 ↔ part.same s₀ s := by simp [setBudget, hp]
theorem kept_execReplicaRead (slacks) : part.keptBy s (execReplicaRead slacks s) := kept_occurs (by simp [hp])
theorem kept_execGovernorEstimate (activity) : part.keptBy s (execGovernorEstimate activity s) :=
  kept_occurs (by simp [hp])
theorem kept_execGovernorEvaluate : part.keptBy s (execGovernorEvaluate s) := kept_occurs (by simp [hp])
theorem kept_execThermConfig (p sl) : part.keptBy s (execThermConfig p sl s) :=
  kept_runCmd (fun q u => by simp [thermConfigSpec, hp]) p sl
theorem kept_execThermSensor (p sl) : part.keptBy s (execThermSensor p sl s) :=
  kept_runCmd (fun q u => by simp [thermSensorSpec, hp]) p sl

end

/-! ### What changes at most the bonds -/
section
variable {part : Part} {s₀ s : State} (hp : part ≠ .bonds)
include hp

theorem kept_execSelftestStatus (p sl) : part.keptBy s (execSelftestStatus p sl s) :=
  kept_runCmd (fun q u => by simp [selftestStatusSpec, hp]) p sl

end

/-! ### What changes at most the library -/
section
variable {part : Part} {s₀ s : State} (hp : part ≠ .lib)
include hp

@[simp] theorem same_noteFirstRun (image) : part.same s₀ (noteFirstRun image s) ↔ part.same s₀ s :=
  by simp [noteFirstRun, hp]
@[simp] theorem same_beginRestart (wd w) : part.same s₀ (beginRestart wd w s) ↔ part.same s₀ s :=
  by simp [beginRestart, hp]
@[simp] theorem same_endRestart (image) : part.same s₀ (endRestart image s) ↔ part.same s₀ s := by simp [endRestart, hp]
theorem kept_execCupolaRestartComplete : part.keptBy s (execCupolaRestartComplete s) := by
  unfold execCupolaRestartComplete
  split
  · exact kept_occurs (by simp [hp])
  · exact kept_next

theorem kept_execCupolaRestart (p sl) : part.keptBy s (execCupolaRestart p sl s) :=
  kept_runCmd (fun q u => by simp [cupolaRestartSpec, hp]) p sl

end

/-- Settles O55: it holds. Of the parts, every function that a command of one part goes through writes at most that one. -/
theorem onePartCommandsLeaveTheOthers : Obligations.OnePartCommandsLeaveTheOthers := by
  intro i s y one u hu x hx
  cases i
  all_goals simp only [Instr.mayChange, allParts, List.cons.injEq, reduceCtorEq, and_true, and_false] at one
  all_goals
    subst one
    replace hx := fun h => hx (List.mem_singleton.mpr h)
  case ageingEyescan => exact kept_execAgeingEyescan hx _ _ _ _ u hu
  case bramClear => exact kept_execBramClear hx _ _ u hu
  case clockStatus => exact kept_execClockStatus hx _ _ u hu
  case clockSwitchAck => exact kept_execClockSwitchAck hx _ u hu
  case clockSwitchCheck => exact kept_execClockSwitchCheck hx _ _ u hu
  case crcBind => exact kept_execCrcBind hx _ _ u hu
  case cupolaRestart => exact kept_execCupolaRestart hx _ _ u hu
  case cupolaRestartComplete => exact kept_execCupolaRestartComplete hx u hu
  case doorbell => exact kept_execDoorbell hx _ u hu
  case dspStart => exact kept_execDspStart hx _ _ u hu
  case fabricClockChange => exact kept_execFabricClockChange hx _ u hu
  case fettlerConfig => exact kept_execFettlerConfig hx _ _ u hu
  case fettlerHeartbeat => exact kept_execFettlerHeartbeat hx u hu
  case fettlerPass => exact kept_execFettlerPass hx _ _ u hu
  case fettlerWatch => exact kept_execFettlerWatch hx u hu
  case flitDiscarded => exact kept_execFlitDiscarded hx _ _ _ _ u hu
  case gapSkewTimeout => exact kept_execGapSkewTimeout hx _ u hu
  case governorEstimate => exact kept_execGovernorEstimate hx _ u hu
  case governorEvaluate => exact kept_execGovernorEvaluate hx u hu
  case hardFaultLog => exact kept_execHardFaultLog hx _ _ u hu
  case hbmQueueAged => exact kept_execHbmQueueAged hx _ _ u hu
  case ingotBanks => exact kept_execIngotBanks hx _ _ u hu
  case ingotConflicts => exact kept_execIngotConflicts hx _ _ u hu
  case injectError => exact kept_execInjectError hx _ u hu
  case integrityCounters => exact kept_execIntegrityCounters hx _ _ u hu
  case interruptEntry => exact kept_execInterruptEntry hx _ u hu
  case laneEyescan => exact kept_execLaneEyescan hx _ _ u hu
  case laneInject => exact kept_execLaneInject hx _ _ u hu
  case lanePllLocked => exact kept_execLanePllLocked hx _ _ u hu
  case laneReset => exact kept_execLaneReset hx _ _ u hu
  case laneSlip => exact kept_execLaneSlip hx _ _ u hu
  case laneStatus => exact kept_execLaneStatus hx _ _ u hu
  case leaseExpiry => exact kept_execLeaseExpiry hx _ _ u hu
  case linkBackoffEnd => exact kept_execLinkBackoffEnd hx _ u hu
  case linkLoopback => exact kept_execLinkLoopback hx _ _ u hu
  case linkStatus => exact kept_execLinkStatus hx _ _ u hu
  case linkUpStable => exact kept_execLinkUpStable hx _ u hu
  case monitorWindow => exact kept_execMonitorWindow hx _ u hu
  case nakReplayTimeout => exact kept_execNakReplayTimeout hx _ u hu
  case nodeSet => exact kept_execNodeSet hx _ _ u hu
  case partnerEviction => exact kept_execPartnerEviction hx _ u hu
  case planeFill => exact kept_execPlaneFill hx _ _ u hu
  case planeOverride => exact kept_execPlaneOverride hx _ _ u hu
  case planeStatus => exact kept_execPlaneStatus hx _ _ u hu
  case prbsCheckerLock => exact kept_execPrbsCheckerLock hx _ u hu
  case prbsCheckerLockLost => exact kept_execPrbsCheckerLockLost hx _ u hu
  case profileSet => exact kept_execProfileSet hx _ _ u hu
  case protRange => exact kept_execProtRange hx _ _ u hu
  case protReinit => exact kept_execProtReinit hx _ _ u hu
  case protRekey => exact kept_execProtRekey hx _ _ u hu
  case protZeroFillComplete => exact kept_execProtZeroFillComplete hx _ u hu
  case regionClock => exact kept_execRegionClock hx _ _ u hu
  case regionPower => exact kept_execRegionPower hx _ _ u hu
  case rekeyInterval => exact kept_execRekeyInterval hx u hu
  case releaseIsolationOpen => exact kept_execReleaseIsolationOpen hx u hu
  case replicaRead => exact kept_execReplicaRead hx _ u hu
  case resClaim => exact kept_execResClaim hx _ _ u hu
  case reservedRunnerOperation h op7 => exact kept_execReservedRunnerOperation hx h op7 u hu
  case riserSpill => exact kept_execRiserSpill hx _ _ u hu
  case riserStatus => exact kept_execRiserStatus hx _ _ u hu
  case routeSet => exact kept_execRouteSet hx _ _ u hu
  case routerWaitPromotion => exact kept_execRouterWaitPromotion hx _ _ u hu
  case runnerCounters => exact kept_execRunnerCounters hx _ _ u hu
  case scheduleSet => exact kept_execScheduleSet hx _ _ u hu
  case selftestStatus => exact kept_execSelftestStatus hx _ _ u hu
  case spineEnable => exact kept_execSpineEnable hx _ _ u hu
  case sprueQueue => exact kept_execSprueQueue hx _ _ u hu
  case start => exact kept_execStart hx _ u hu
  case startingDegradeTimeout => exact kept_execStartingDegradeTimeout hx _ u hu
  case streamInputItem => exact kept_execStreamInputItem hx _ _ _ u hu
  case streamOutputItem => exact kept_execStreamOutputItem hx _ _ u hu
  case thermConfig => exact kept_execThermConfig hx _ _ u hu
  case thermSensor => exact kept_execThermSensor hx _ _ u hu
  case tickConfig => exact kept_execTickConfig hx _ _ u hu
  case tickHoldover => exact kept_execTickHoldover hx u hu
  case tickInEdge => exact kept_execTickInEdge hx _ u hu
  case timeInterval => exact kept_execTimeInterval hx u hu
  case timerExpiry => exact kept_execTimerExpiry hx _ u hu
  case trackerInterval => exact kept_execTrackerInterval hx _ u hu
  case trainingFrame => exact kept_execTrainingFrame hx _ _ _ u hu
  case waitiResume => exact kept_execWaitiResume hx _ u hu
  case windowSet => exact kept_execWindowSet hx _ _ u hu

end Sys2Proof.Machine

/-! Power, power-on reset and warm reset (R66, R69, R535, Tables 3.2 and 3.3). -/

namespace Sys2Proof.Machine

/-! ### Slots without a request (R69) -/

/-- No request stands in the slot. -/
def Slot.idle (x : Slot) : Prop := x.st ≠ .posted ∧ x.st ≠ .accepted

/-- A slot that holds a response holds no request. -/
theorem idle_postResponse_same (p : Port) (sl : Fin 4) (st tick : Nat) (res : Results) (s : State) :
    ((postResponse p sl st tick res s).slot p sl).idle := by
  rw [postResponse_slot]
  exact ⟨nofun, nofun⟩

theorem postResponse_slot_ne {p q : Port} {sl k : Fin 4} (h : q ≠ p ∨ k ≠ sl) (st tick : Nat) (res : Results)
    (s : State) : (postResponse p sl st tick res s).slot q k = s.slot q k := by
  unfold postResponse
  dsimp only
  cases p == .mb0
  · exact modSlot_slot_ne p q sl k _ s h
  · exact (slot_of_ports rfl q k).trans (modSlot_slot_ne p q sl k _ s h)

theorem idle_postResponse {p q : Port} {sl k : Fin 4} {s : State} (h : (s.slot q k).idle) (st tick : Nat)
    (res : Results) : ((postResponse p sl st tick res s).slot q k).idle := by
  by_cases same : q = p ∧ k = sl
  · obtain ⟨rfl, rfl⟩ := same
    exact idle_postResponse_same ..
  · rwa [postResponse_slot_ne (by tauto)]

theorem idle_replyOpt {q : Port} {k : Fin 4} {s : State} (h : (s.slot q k).idle) (w : Option Waiter) (st : Nat)
    (res : Results) : ((replyOpt w st res s).slot q k).idle := by
  cases w with
  | none => exact h
  | some w =>
    simp only [replyOpt, reply, replyAt]
    split
    · exact idle_postResponse h ..
    · exact h

/-- Every POSTED and ACCEPTED request is answered with `PATH_RESET`. -/
theorem idle_abortSlots (p : Port) (sl : Fin 4) (s : State) :
    ((abortSlots portsInOrder [.posted, .accepted] s).slot p sl).idle := by
  have kept (q : Port) (k : Fin 4) (u : State) (h : (u.slot p sl).idle) :
      ((if (u.slot q k).st ∈ [SlotSt.posted, .accepted] then postResponse q k stPathReset u.tick.number.toNat [] u
        else u).slot p sl).idle := by
    split
    · exact idle_postResponse h ..
    · exact h
  have answered (u : State) :
      ((if (u.slot p sl).st ∈ [SlotSt.posted, .accepted] then postResponse p sl stPathReset u.tick.number.toNat [] u
        else u).slot p sl).idle := by
    split
    · exact idle_postResponse_same ..
    · next h => simpa [Slot.idle] using h
  have listed : p ∈ portsInOrder := by cases p <;> decide
  have slotNumber : Fin.ofNat 4 sl.val = sl := by simp
  refine forEach_establishes (P := fun u => (u.slot p sl).idle) (fun u => ?_) (fun q u h => ?_) listed s
  · refine forEach_establishes (P := fun u => (u.slot p sl).idle) (fun v => ?_) (fun i v => kept p (Fin.ofNat 4 i) v)
      (List.mem_range.mpr sl.isLt) u
    simpa only [slotNumber] using answered v
  · exact forEach_preserves (P := fun u => (u.slot p sl).idle) (fun i v => kept q (Fin.ofNat 4 i) v) _ h

/-- The slots that a warm reset keeps (R69, R488): those of MB1 and MB3 as they stand, of the others the answers. -/
theorem idle_keptPort {l : List PortSt} {i : Nat} {sl : Fin 4} (h : (lget {} (lget {} l i).slots sl.val).idle) :
    (lget {} (lget {} (l.zipIdx.map keptPort) i).slots sl.val).idle := by
  simp only [lget, List.getD_eq_getElem?_getD, List.getElem?_map, List.getElem?_zipIdx, Nat.zero_add] at h ⊢
  cases hx : l[i]? with
  | none => simpa [hx] using h
  | some x =>
    simp only [hx, Option.map_some, Option.getD_some, keptPort] at h ⊢
    split
    · exact h
    · rw [List.getElem?_map]
      cases x.slots[sl.val]? with
      | none => exact ⟨nofun, nofun⟩
      | some y =>
        simp only [Option.map_some, Option.getD_some, keptSlot]
        split
        · next done => simp [Slot.idle, done]
        · exact ⟨nofun, nofun⟩

/-! ### The end of the PCIe link -/

section
variable {s : State}

@[simp] theorem endPcieScans_env : (endPcieScans s).env = s.env := by
  refine forBelow_env _ _ _ (fun i u => ?_)
  split <;> simp
@[simp] theorem endPcieScans_dev : (endPcieScans s).dev = s.dev := by
  refine forBelow_dev _ _ _ (fun i u => ?_)
  split <;> simp
@[simp] theorem endPcieScans_logThreshold : (endPcieScans s).cudex.logThreshold = s.cudex.logThreshold := by
  refine forBelow_keeps (·.cudex.logThreshold) _ _ _ (fun i u => ?_)
  split <;> simp

@[simp] theorem pcieDown_env : (pcieDown s).env = if s.io.pcie.up then (useFree s).env else s.env := by
  unfold pcieDown
  split <;> simp [useFree, modPcie]
@[simp] theorem pcieDown_dev : (pcieDown s).dev = s.dev := by
  unfold pcieDown
  split <;> simp [modPcie]
@[simp] theorem pcieDown_logThreshold : (pcieDown s).cudex.logThreshold = s.cudex.logThreshold := by
  unfold pcieDown
  split <;> simp [modPcie, useFree]

/-- What the end of the link leaves of the parts: all but the lanes. -/
theorem pcieDown_parts : (pcieDown s).lib = s.lib ∧ (pcieDown s).therm = s.therm ∧ (pcieDown s).integ = s.integ ∧
    (pcieDown s).clk = s.clk :=
  have kept (x : Part) (hx : x ≠ .lanes) : x.same s (pcieDown s) := (same_pcieDown hx).mpr (x.same_self s)
  ⟨kept .lib (by decide), kept .therm (by decide), kept .integ (by decide), kept .clk (by decide)⟩

theorem idle_pcieDown {p : Port} {sl : Fin 4} (h : (s.slot p sl).idle) : ((pcieDown s).slot p sl).idle := by
  unfold pcieDown
  split
  · rw [useFree_slot, raise_slot]
    refine forEach_preserves (P := fun u => (u.slot p sl).idle) (fun i u hu => ?_) _ h
    split
    · exact idle_replyOpt (s := modLane _ _ u) hu ..
    · exact hu
  · exact h

end

/-! ### What a reset keeps (R175, R77, Table 3.3) -/

section
variable {s t : State}

@[simp] theorem cutFlash_integ : (cutFlash s).integ = s.integ := by
  unfold cutFlash
  repeat' split
  all_goals rfl
@[simp] theorem cutFlash_fuses : (cutFlash s).env.fuses = s.env.fuses := by
  unfold cutFlash
  repeat' split
  all_goals rfl
@[simp] theorem cutFlash_therm : (cutFlash s).therm = s.therm := by
  unfold cutFlash
  repeat' split
  all_goals rfl

/-- What cutting a flash operation short leaves of the flash depends on the library and the free values alone. -/
theorem cutFlash_lib_congr (lib : t.lib = s.lib) (free : t.env.freeCtr = s.env.freeCtr) :
    (cutFlash t).lib = (cutFlash s).lib := by
  unfold cutFlash
  rw [lib]
  repeat' split
  all_goals simp [lib, free]

/-- The ledger is in the flash and the thermal records. -/
theorem ledgerGood_congr (lib : t.lib = s.lib) (therm : t.therm = s.therm) : ledgerGood t = ledgerGood s := by
  unfold ledgerGood
  rw [lib, therm]

@[simp] theorem forgetLedger_lib (warm : Bool) : (forgetLedger warm s).lib = s.lib := by
  unfold forgetLedger
  split <;> rfl
@[simp] theorem forgetLedger_env (warm : Bool) : (forgetLedger warm s).env = s.env := by
  unfold forgetLedger
  split <;> rfl
@[simp] theorem forgetLedger_ledger (warm : Bool) : (forgetLedger warm s).therm.ledger = ledgerGood s := by
  unfold forgetLedger
  split
  · next good => simp_all [ledgerGood]
  · next bad => simpa using bad
theorem forgetLedger_log (warm : Bool) :
    (forgetLedger warm s).integ.log = if warm || ledgerGood s then s.integ.log else [] := by
  unfold forgetLedger
  cases warm <;> cases ledgerGood s <;> rfl

/-- The flash, the ledger's record and the log after a reset. -/
theorem resetParts_kept (warm : Bool) (s : State) :
    (resetParts warm s).lib.flash = (cutFlash s).lib.flash ∧
      (resetParts warm s).therm.ledger = ledgerGood (cutFlash s) ∧
      (resetParts warm s).integ.log = (if warm || ledgerGood (cutFlash s) then s.integ.log else []) ∧
      (resetParts warm s).env.fuses = s.env.fuses := by
  refine ⟨?_, forgetLedger_ledger warm, (forgetLedger_log warm).trans (by simp), ?_⟩
  · show (forgetLedger warm (cutFlash s)).lib.flash = _
    simp
  · show (forgetLedger warm (cutFlash s)).env.fuses = _
    simp
end

/-! ### Power-on reset -/

section
variable {s u : State}

theorem powerOnDone_powerOnReset : PowerOnDone s (powerOnReset s) := by
  obtain ⟨flash, ledger, log, fuses⟩ := resetParts_kept false s
  exact ⟨rfl, rfl, rfl, rfl, rfl, rfl, rfl, rfl, rfl, rfl, rfl, rfl, fuses, flash, ledger, log⟩

/-- Nothing that power-on reset gives is the mode, the event paths or the queue of commands. -/
theorem PowerOnDone.modDev (h : PowerOnDone s u) {f : Device → Device} (straps : (f u.dev).straps = u.dev.straps) :
    PowerOnDone s (modDev f u) := by
  simpa [PowerOnDone, straps] using h

theorem PowerOnDone.settleMode (h : PowerOnDone s u) (cause : Nat) : PowerOnDone s (settleMode cause u) := by
  simpa [PowerOnDone] using h

theorem PowerOnDone.committed (h : PowerOnDone s u) : PowerOnDone s (committed s u) := by
  simp_all [PowerOnDone]

end

/-! ### The warm reset -/

section
variable {s : State}

/-- The state that the warm reset finds: the event raised, every request answered and the PCIe link down. -/
def warmStart (cause : Nat) (s : State) : State :=
  pcieDown (abortSlots portsInOrder [.posted, .accepted] (resetBegun cause s))

@[simp] theorem abortSlots_pcie_up (ports : List Port) (sts : List SlotSt) (s : State) :
    (abortSlots ports sts s).io.pcie.up = s.io.pcie.up :=
  forEach_keeps (·.io.pcie.up) _ _ _ (fun p u => forBelow_keeps (·.io.pcie.up) _ _ _ (fun i v => by
    dsimp only
    split <;> simp))

@[simp] theorem abortSlots_logThreshold (ports : List Port) (sts : List SlotSt) (s : State) :
    (abortSlots ports sts s).cudex.logThreshold = s.cudex.logThreshold :=
  forEach_keeps (·.cudex.logThreshold) _ _ _ (fun p u => forBelow_keeps (·.cudex.logThreshold) _ _ _ (fun i v => by
    dsimp only
    split <;> simp))

theorem warmStart_parts (cause : Nat) (s : State) :
    (warmStart cause s).lib = s.lib ∧ (warmStart cause s).therm = s.therm ∧ (warmStart cause s).integ = s.integ ∧
    (warmStart cause s).clk = s.clk ∧ (warmStart cause s).dev = s.dev ∧
    (warmStart cause s).env = (pcieDown s).env ∧
    (warmStart cause s).cudex.logThreshold = s.cudex.logThreshold := by
  obtain ⟨lib, therm, integ, clk⟩ :=
    pcieDown_parts (s := abortSlots portsInOrder [.posted, .accepted] (resetBegun cause s))
  refine ⟨lib.trans ?_, therm.trans ?_, integ.trans ?_, clk.trans ?_, pcieDown_dev.trans ?_, ?_, ?_⟩
  all_goals simp [resetBegun, warmStart, useFree]

theorem idle_warmStart (cause : Nat) (s : State) (p : Port) (sl : Fin 4) : ((warmStart cause s).slot p sl).idle :=
  idle_pcieDown (idle_abortSlots p sl _)

theorem ledgerGood_cutFlash_congr {t : State} (lib : t.lib = s.lib) (therm : t.therm = s.therm)
    (free : t.env.freeCtr = s.env.freeCtr) : ledgerGood (cutFlash t) = ledgerGood (cutFlash s) :=
  ledgerGood_congr (cutFlash_lib_congr lib free) (by simp [therm])

/-- What a warm reset leaves of the state that it finds, before the mode is settled (R69, Table 3.3). -/
def warmLeft (cause : Nat) (w : State) : State :=
  let t := resetParts true w
  drawKey (modLib (·.readSfdp w.dev.straps.flashQuad) { t with
    dev := { mode := w.dev.mode, base := .boot, straps := w.dev.straps, xtalOk := w.dev.xtalOk, porstLow := false
             crystal := w.dev.crystal, resetCause := BitVec.ofNat 4 cause, resetSilent := true
             outages := (closeOutage w w.dev).outages }
    clk := { w.clk with forced := false, bramSw := [], dspSw := [], copeNow := 0, copePlan := 0, copeWrite := false
                        copeResent := false, copeTarget := 0 }
    cudex := { log := w.cudex.log, logSeq := w.cudex.logSeq, overwritten := w.cudex.overwritten
               logThreshold := w.cudex.logThreshold, restarts := w.cudex.restarts, wdAt := w.cudex.wdAt
               serial := w.cudex.serial, windows := w.cudex.windows, ports := w.cudex.ports.zipIdx.map keptPort }
    io := { t.io with i2cAddr := w.io.i2cAddr, dynAddr := w.io.dynAddr, jtagIr := w.io.jtagIr, mbacc := w.io.mbacc
                      boundary := w.io.boundary, extest := w.io.extest, jtagDr := w.io.jtagDr } })

theorem warmReset_eq (cause : Nat) (s : State) :
    warmReset cause s = settleMode cause (warmLeft cause (warmStart cause s)) := by
  unfold warmReset warmLeft warmStart
  rfl

section
variable (cause : Nat) (w : State)

@[simp] theorem warmLeft_dev_base : (warmLeft cause w).dev.base = .boot := rfl
@[simp] theorem warmLeft_resetCause : (warmLeft cause w).dev.resetCause = BitVec.ofNat 4 cause := rfl
@[simp] theorem warmLeft_straps : (warmLeft cause w).dev.straps = w.dev.straps := rfl
@[simp] theorem warmLeft_warmDue : (warmLeft cause w).dev.warmDue = none := rfl
@[simp] theorem warmLeft_resetSilent : (warmLeft cause w).dev.resetSilent = true := rfl
@[simp] theorem warmLeft_tick : (warmLeft cause w).tick = {} := rfl
@[simp] theorem warmLeft_runner : (warmLeft cause w).runner = {} := rfl
@[simp] theorem warmLeft_dsp : (warmLeft cause w).dsp = [] := rfl
@[simp] theorem warmLeft_domains : (warmLeft cause w).domains = [] := rfl
@[simp] theorem warmLeft_links : (warmLeft cause w).links = [] := rfl
@[simp] theorem warmLeft_sys : (warmLeft cause w).sys = {} := rfl
@[simp] theorem warmLeft_riser : (warmLeft cause w).riser = {} := rfl
@[simp] theorem warmLeft_mem : (warmLeft cause w).hbm.mem = [] := rfl
@[simp] theorem warmLeft_owners : (warmLeft cause w).cudex.owners = [] := rfl
@[simp] theorem warmLeft_mb2Region : (warmLeft cause w).cudex.mb2Region = none := rfl
@[simp] theorem warmLeft_logThreshold : (warmLeft cause w).cudex.logThreshold = w.cudex.logThreshold := rfl
@[simp] theorem warmLeft_locked : (warmLeft cause w).clk.locked = w.clk.locked := rfl
@[simp] theorem warmLeft_refOsc : (warmLeft cause w).clk.refOsc = w.clk.refOsc := rfl
@[simp] theorem warmLeft_flash : (warmLeft cause w).lib.flash = (resetParts true w).lib.flash := rfl
@[simp] theorem warmLeft_ledger : (warmLeft cause w).therm.ledger = (resetParts true w).therm.ledger := rfl
@[simp] theorem warmLeft_log : (warmLeft cause w).integ.log = (resetParts true w).integ.log := rfl

/-- The reset leaves BOOT, and no condition of another mode. -/
@[simp] theorem modeOf_warmLeft : modeOf (warmLeft cause w) = .boot := rfl

theorem idle_warmLeft {p : Port} {sl : Fin 4} (h : (w.slot p sl).idle) : ((warmLeft cause w).slot p sl).idle :=
  idle_keptPort h

end

theorem warmDone_warmReset (cause : Nat) (s : State) :
    WarmDone s (committed s (warmReset cause s)) (BitVec.ofNat 4 cause) := by
  obtain ⟨lib, therm, integ, clk, dev, env, threshold⟩ := warmStart_parts cause s
  obtain ⟨libDown, thermDown, -, -⟩ := pcieDown_parts (s := s)
  obtain ⟨flash, ledger, log, -⟩ := resetParts_kept true (warmStart cause s)
  have sameFlash : (cutFlash (warmStart cause s)).lib = (cutFlash (pcieDown s)).lib :=
    cutFlash_lib_congr (lib.trans libDown.symm) (by rw [env])
  have sameLedger : ledgerGood (cutFlash (warmStart cause s)) = ledgerGood (cutFlash (pcieDown s)) :=
    ledgerGood_cutFlash_congr (lib.trans libDown.symm) (therm.trans thermDown.symm) (by rw [env])
  have mode : (committed s (warmReset cause s)).dev.mode = .boot := by
    rw [committed_mode, warmReset_eq, modeOf_settleMode, modeOf_warmLeft]
  have slots (p : Port) (sl : Fin 4) : ((committed s (warmReset cause s)).slot p sl).idle := by
    rw [committed_slot, warmReset_eq, settleMode_slot]
    exact idle_warmLeft cause _ (idle_warmStart cause s p sl)
  refine ⟨?_, mode, ?_, ?_, ?_, ?_, ?_, ?_, ?_, ?_, ?_, ?_, ?_, ?_, ?_, ?_, ?_, ?_, ?_, ?_, ?_, ?_, ?_, slots⟩
  all_goals simp [warmReset_eq, *]

end

/-! ### The events -/

theorem modeOf_off {s : State} (h : s.dev.base = .off) : modeOf s = .off := by simp [modeOf, h]

theorem modeOf_standby {s : State} (h : s.dev.base = .standby) : modeOf s = .standby := by simp [modeOf, h]

/-- Settles O3: a power-on reset leaves what `resetParts` gives of any state, and a warm reset finds every part that it
keeps as it was, since the answers and the end of the link before it change none of them. -/
theorem resetsComplete : Obligations.ResetsComplete := by
  refine ⟨fun s => ⟨fun off => ?_, fun on => ?_, fun on high => ?_, fun st standby low => ?_⟩,
    fun s may => ⟨?_, fun c due => ?_, fun cooldown ran => ?_⟩⟩
  · apply gives_occurs
    · simp [off]
    · refine ⟨((powerOnDone_powerOnReset.modDev rfl).settleMode _).committed, by simp, ?_⟩
      rw [committed_mode]
      exact modeOf_standby (by simp)
  · apply gives_occurs
    · simp [on]
    · refine ⟨((powerOnDone_powerOnReset.modDev rfl).settleMode _).committed, by simp, ?_⟩
      rw [committed_mode]
      exact modeOf_off (by simp)
  · apply gives_occurs
    · simp [on, high]
    · have base : (settleMode 1 (powerOnReset s)).dev.base = .standby := (settleMode_dev_base ..).trans rfl
      refine ⟨(powerOnDone_powerOnReset.settleMode _).committed, (committed_dev_base ..).trans base, ?_, ?_⟩
      · rw [committed_mode, modeOf_standby base]
      · rw [committed_dev_porstLow, settleMode_dev_porstLow]
        rfl
  · exact gives_occurs (by simp [standby, low]) (by simp)
  · exact gives_occurs may (warmDone_warmReset 2 s)
  · have done := warmDone_warmReset c.toNat s
    rw [BitVec.ofNat_toNat, BitVec.setWidth_eq] at done
    show ∃ t, execWarmResetBegin s = .next t ∧ WarmDone s t c
    unfold execWarmResetBegin
    rw [due]
    exact gives_occurs may done
  · exact gives_occurs (by simp [cooldown, may, ran]) (warmDone_warmReset 5 s)

end Sys2Proof.Machine

/-! `DEVICE_MODE` and `WARM_RESET` (Tables 3.8 and 3.9, R59, R69). -/

namespace Sys2Proof.Machine

@[simp] theorem settleMode_dev_warmTick (c : Nat) (s : State) : (settleMode c s).dev.warmTick = s.dev.warmTick := by
  unfold settleMode; dsimp only; split <;> simp [closeOutage_keeps Device.warmTick (fun _ _ _ => rfl)]

@[simp] theorem committed_dev_warmTick (s u : State) : (committed s u).dev.warmTick = u.dev.warmTick := by
  simp [committed]

@[simp] theorem modeResults_takenState (c : CmdSpec) (s : State) (p : Port) (sl : Fin 4) :
    modeResults (takenState c s p sl) = modeResults s := by
  simp [modeResults, devState, isDegraded]

@[simp] theorem tickIn10us_takenState (c : CmdSpec) (s : State) (p : Port) (sl : Fin 4) :
    tickIn10us (takenState c s p sl) = tickIn10us s := by
  simp [tickIn10us, tickPosition, State.ticking, State.awake]

@[simp] theorem mayChange_takenState (c : CmdSpec) (s : State) (p : Port) (sl : Fin 4) (k : Nat) :
    mayChange (takenState c s p sl) k = mayChange s k := by
  simp [mayChange]

/-- A granted request that is answered at a tick of its own. -/
theorem gives_doneAt {c : CmdSpec} {s u : State} {p : Port} {sl : Fin 4} {st tick : Nat} {res : Results}
    {P : State → Prop} (h : Granted c s p sl)
    (hb : c.body (takenReq s p sl) (takenState c s p sl) = (u, .doneAt st tick res))
    (hu : u.slot p sl = (takenState c s p sl).slot p sl)
    (hp : P (committed s (postResponse p sl st tick res u))) : ∃ t, runCmd c p sl s = .next t ∧ P t := by
  have hr : answer (takenReq s p sl).waiter (.doneAt st tick res) u = postResponse p sl st tick res u := by
    rw [takenReq_waiter]
    simp only [answer, replyAt, hu.trans (takenState_slot c s p sl), and_self, if_true]
  rw [runCmd_granted h, hb, hr]
  exact ⟨_, rfl, hp⟩

/-- What the slot then holds. -/
theorem postResponse_committed {c : CmdSpec} {s u : State} {p : Port} {sl : Fin 4} {st tick : Nat} {res : Results}
    (hu : u.slot p sl = (takenState c s p sl).slot p sl) :
    ((committed s (postResponse p sl st tick res u)).slot p sl).st = .done ∧
      ((committed s (postResponse p sl st tick res u)).slot p sl).resp =
        mkResponse (s.req p sl).tag (s.req p sl).flags st tick res := by
  rw [committed_slot, postResponse_slot, hu.trans (takenState_slot c s p sl)]
  exact ⟨rfl, rfl⟩

/-- A reset that no command has scheduled yet. -/
theorem scheduleReset_none {s : State} (h : s.dev.warmDue = none) (cause : Nat) (res : Results) :
    scheduleReset cause res s =
      (modDev (fun d => { d with warmDue := some (BitVec.ofNat 4 cause), warmTick := tickIn10us s }) s,
        .doneAt stOk (tickIn10us s) res) := by
  simp [scheduleReset, onlyIf, h]

theorem scheduleReset_some {s : State} {c : BitVec 4} (h : s.dev.warmDue = some c) (cause : Nat) (res : Results) :
    scheduleReset cause res s = (s, .doneAt stOk s.dev.warmTick res) := by
  simp [scheduleReset, onlyIf, h]

section
variable {c : CmdSpec} {s : State} {p : Port} {sl : Fin 4} {cause : Nat} {res : Results}

/-- A granted command that schedules the reset answers with the tick in which it begins. -/
theorem gives_scheduleReset (h : Granted c s p sl) (due : s.dev.warmDue = none)
    (hb : c.body (takenReq s p sl) (takenState c s p sl) = scheduleReset cause res (takenState c s p sl)) :
    ∃ t, runCmd c p sl s = .next t ∧ t.dev.warmDue = some (BitVec.ofNat 4 cause) ∧ t.dev.warmTick = tickIn10us s ∧
      (t.slot p sl).st = .done ∧
      (t.slot p sl).resp = mkResponse (s.req p sl).tag (s.req p sl).flags stOk (tickIn10us s) res := by
  rw [scheduleReset_none (by simpa using due), tickIn10us_takenState] at hb
  exact gives_doneAt h hb rfl ⟨by simp, by simp, postResponse_committed rfl⟩

theorem gives_scheduledReset {k : BitVec 4} (h : Granted c s p sl) (due : s.dev.warmDue = some k)
    (hb : c.body (takenReq s p sl) (takenState c s p sl) = scheduleReset cause res (takenState c s p sl)) :
    ∃ t, runCmd c p sl s = .next t ∧ t.dev.warmDue = some k ∧ t.dev.warmTick = s.dev.warmTick ∧
      (t.slot p sl).st = .done := by
  rw [scheduleReset_some (c := k) (by simpa using due)] at hb
  refine gives_doneAt h hb rfl ⟨by simpa using due, by simp, (postResponse_committed rfl).1⟩

end

/-- Settles O5: a query reads what the request's acceptance does not touch, a mode request waits for the boundary, and
both commands schedule a reset through `scheduleReset`. -/
theorem deviceCommandsComplete : Obligations.DeviceCommandsComplete := by
  intro s p sl
  refine ⟨fun granted => ⟨fun query => ?_, fun c query arg low high may => ?_, fun query arg may due => ?_⟩,
    fun granted due => ?_, fun c granted due => ?_⟩
  · refine gives_done granted (u := takenState deviceModeSpec s p sl) (st := stOk) (res := modeResults s) ?_ rfl
      ⟨answered_committed rfl (by simp), by simp⟩
    simp [deviceModeSpec, query]
  · refine gives_wait granted
      (u := modDev (fun d => { d with modeDue := d.modeDue ++ [(c, (takenReq s p sl).waiter)] })
      (takenState deviceModeSpec s p sl)) ?_ ⟨waits_committed rfl, (takenReq s p sl).waiter, ?_⟩
    have body : ¬(c = 0 ∨ 6 < c) := by omega
    · simp [deviceModeSpec, query, arg, body, may, high]
    · simp
  · obtain ⟨t, next, warmDue, warmTick, done, -⟩ := gives_scheduleReset (cause := 7) (res := modeResults s) granted due
      (by simp [deviceModeSpec, query, arg, may])
    exact ⟨t, next, warmDue, warmTick, done⟩
  · exact gives_scheduleReset granted due rfl
  · exact gives_scheduledReset granted due rfl

end Sys2Proof.Machine

/-! The spine detector, the region commands and the region resets (R67, R116, R117, R121, Tables 3.10 and 5.5 to 5.7). -/

namespace Sys2Proof.Machine

/-! ### What isolation leaves, and whether the border holds (R121) -/

section
variable (r : Nat) (c : IsoCause) (s : State)

theorem settleHold_slot (p : Port) (sl : Fin 4) : (settleHold r s).slot p sl = s.slot p sl :=
  slot_of_ports (settleHold_keeps (·.cudex.ports) (fun _ _ _ => rfl) (fun _ _ => rfl) (fun _ => rfl) r s) p sl

@[simp] theorem isolateBorder_slot (p : Port) (sl : Fin 4) : (isolateBorder r c s).slot p sl = s.slot p sl :=
  settleHold_slot r _ p sl

@[simp] theorem isolate_slot (p : Port) (sl : Fin 4) : (isolate r c s).slot p sl = s.slot p sl :=
  isolateBorder_slot r c s p sl

theorem latchBorder_isoHold (k : Nat) (t : State) : ((latchBorder s r t).region k).isoHold = (t.region k).isoHold := by
  unfold latchBorder
  by_cases hk : k = r
  · subst hk
    rw [modRegion_region]
  · rw [modRegion_region_ne _ _ _ _ hk]

/-- The border holds as the region's state asks. -/
theorem settleHold_isoHold : ((settleHold r s).region r).isoHold = (s.region r).mustHold := by
  unfold settleHold
  dsimp only
  split
  · assumption
  · have held : ∀ u, (holdGpio r (useFree u)).region r = u.region r := fun u => by simp [State.region]
    rw [held, forEach_keeps (fun u => (u.region r).isoHold) _ _ _ fun x u => latchBorder_isoHold x s r u,
      modRegion_region]

/-- A region that takes a cause has it. -/
theorem mem_isolateBorder_iso : c ∈ ((isolateBorder r c s).region r).iso := mem_isolate_iso r c s

/-- An isolated region's border holds. -/
theorem isolate_isoHold : ((isolate r c s).region r).isoHold = true := by
  show ((isolateBorder r c s).region r).isoHold = true
  rw [isolateBorder, settleHold_isoHold, modRegion_region]
  by_cases h : c ∈ (s.region r).iso
  · simp [Region.mustHold, h, List.ne_nil_of_mem h]
  · simp [Region.mustHold, h]

theorem isolateBorder_resets (k : Nat) : ((isolateBorder r c s).region k).resets = (s.region k).resets := by
  rw [isolateBorder, settleHold_region_keeps Region.resets fun _ _ _ => rfl]
  by_cases hk : k = r
  · subst hk
    rw [modRegion_region]
  · rw [modRegion_region_ne _ _ _ _ hk]

end

/-! ### A waiting request that is answered -/

section
variable {c : CmdSpec} {s u : State} {p : Port} {sl : Fin 4} {st : Nat} {res : Results}

/-- The request that is being served takes the answer. -/
theorem reply_taken (hu : u.slot p sl = (takenState c s p sl).slot p sl) :
    reply (takenReq s p sl).waiter st res u = postResponse p sl st u.tick.number.toNat res u := by
  rw [takenReq_waiter]
  simp only [reply, replyAt, hu.trans (takenState_slot c s p sl), and_self, if_true]

theorem answered_reply (hu : u.slot p sl = (takenState c s p sl).slot p sl) (ht : u.tick.number = s.tick.number) :
    Answered s (committed s (reply (takenReq s p sl).waiter st res u)) p sl st res := by
  rw [reply_taken hu]
  exact answered_committed hu ht

end

@[simp] theorem isolateResults_takenState (c : CmdSpec) (s : State) (p : Port) (sl : Fin 4) (r : Nat) :
    isolateResults r (takenState c s p sl) = isolateResults r s := by
  simp [isolateResults]

@[simp] theorem defectMap_takenState (c : CmdSpec) (s : State) (p : Port) (sl : Fin 4) (r : Nat) :
    (takenState c s p sl).defectMap r = s.defectMap r := by
  simp [State.defectMap]

/-! ### Spines (R116, R117) -/

/-- One spine of a mask re-enabled, unless two drivers are enabled. -/
def enableSpine (r mask : Nat) (acc : State × Bool) (k : Nat) : State × Bool :=
  let (s, ok) := acc
  let x := s.region r
  if mask.testBit k && x.spineDisable.getLsbD k then
    if contended (x.now.use.enables k) then (s, false)
    else
      let s := modRegion r (fun y => { y with
        spineDisable := y.spineDisable &&& ~~~(BitVec.ofNat 64 (2 ^ k))
        spineOff := y.spineOff ||| BitVec.ofNat 64 (2 ^ k) }) s
      (raise (regEvent 3 1 0x0502 r [(1, k)]) s, ok)
  else acc

theorem enableSpines_eq (r mask : Nat) (s : State) :
    enableSpines r mask s = (List.range 64).foldl (enableSpine r mask) (s, true) := rfl

section
variable (r mask k : Nat) (acc : State × Bool)

theorem enableSpine_slot (p : Port) (sl : Fin 4) : (enableSpine r mask acc k).1.slot p sl = acc.1.slot p sl := by
  unfold enableSpine
  dsimp only
  split
  · split
    · rfl
    · rw [raise_slot]
      rfl
  · rfl

theorem enableSpine_tick : (enableSpine r mask acc k).1.tick = acc.1.tick := by
  unfold enableSpine
  dsimp only
  split
  · split <;> simp
  · rfl

/-- The enables of the active plane stay. -/
theorem enableSpine_now : ((enableSpine r mask acc k).1.region r).now = (acc.1.region r).now := by
  unfold enableSpine
  dsimp only
  split
  · split
    · rfl
    · rw [raise_region, modRegion_region]
      rfl
  · rfl

variable {r mask k acc}

/-- Where the spine has one driver at most, its bit of the mask ends its disable. -/
theorem enableSpine_free (free : contended ((acc.1.region r).now.use.enables k) = false) :
    (enableSpine r mask acc k).2 = acc.2 ∧ ∀ i < 64, ((enableSpine r mask acc k).1.region r).spineDisable.getLsbD i =
      ((acc.1.region r).spineDisable.getLsbD i && !(decide (i = k) && mask.testBit i)) := by
  unfold enableSpine
  dsimp only
  split
  next hit =>
    rw [Bool.and_eq_true] at hit
    rw [if_neg (by simp [free])]
    refine ⟨rfl, fun i hi => ?_⟩
    rw [raise_region, modRegion_region, BitVec.getLsbD_and, BitVec.getLsbD_not, BitVec.getLsbD_ofNat,
      Nat.testBit_two_pow]
    by_cases hik : i = k
    · subst hik
      simp [hi, hit]
    · simp [hi, hik, Ne.symm hik]
  next miss =>
    refine ⟨rfl, fun i _ => ?_⟩
    by_cases hik : i = k
    · subst hik
      cases h : mask.testBit i <;> simp_all
    · simp [hik]

end

theorem enableSpines_free {r mask : Nat} (l : List Nat) (acc : State × Bool)
    (free : ∀ k ∈ l, contended ((acc.1.region r).now.use.enables k) = false) :
    (l.foldl (enableSpine r mask) acc).2 = acc.2 ∧
      ∀ i < 64, ((l.foldl (enableSpine r mask) acc).1.region r).spineDisable.getLsbD i =
        ((acc.1.region r).spineDisable.getLsbD i && !(decide (i ∈ l) && mask.testBit i)) := by
  induction l generalizing acc with
  | nil => simp
  | cons k l ih =>
    obtain ⟨ok, bits⟩ := enableSpine_free (mask := mask) (free k (by simp))
    obtain ⟨okRest, bitsRest⟩ := ih (enableSpine r mask acc k) (fun j hj => by
      rw [enableSpine_now]
      exact free j (by simp [hj]))
    rw [List.foldl_cons]
    refine ⟨okRest.trans ok, fun i hi => ?_⟩
    rw [bitsRest i hi, bits i hi]
    by_cases hik : i = k
    · subst hik
      cases mask.testBit i <;> simp
    · simp [hik]

/-- With no spine contended, `SPINE_ENABLE` re-enables its whole mask. -/
theorem enableSpines_uncontended {r mask : Nat} {s : State}
    (free : ∀ k < 64, contended ((s.region r).now.use.enables k) = false) :
    (enableSpines r mask s).2 = true ∧ ((enableSpines r mask s).1.region r).spineDisable =
      (s.region r).spineDisable &&& ~~~(BitVec.ofNat 64 mask) := by
  obtain ⟨ok, bits⟩ := enableSpines_free (mask := mask) (List.range 64) (s, true)
    (fun k hk => free k (by simpa using hk))
  refine ⟨ok, BitVec.eq_of_getLsbD_eq fun i hi => ?_⟩
  rw [enableSpines_eq, bits i hi, BitVec.getLsbD_and, BitVec.getLsbD_not, BitVec.getLsbD_ofNat]
  simp [hi]

theorem enableSpines_slot (r mask : Nat) (s : State) (p : Port) (sl : Fin 4) :
    (enableSpines r mask s).1.slot p sl = s.slot p sl :=
  foldl_keeps (fun acc : State × Bool => acc.1.slot p sl) (fun acc k => enableSpine_slot r mask k acc p sl) _ (s, true)

theorem enableSpines_tick (r mask : Nat) (s : State) : (enableSpines r mask s).1.tick = s.tick :=
  foldl_keeps (fun acc : State × Bool => acc.1.tick) (fun acc k => enableSpine_tick r mask k acc) _ (s, true)

/-! ### What a reset does to its tiers (R66) -/

section
variable (r : Nat) (scope : ResetScope) (s : State)

theorem checkPointers_slot (q : Nat) (p : Port) (sl : Fin 4) : (checkPointers q s).slot p sl = s.slot p sl := by
  unfold checkPointers
  split
  · rfl
  · unfold resetQueue
    rw [raise_slot]
    rfl

theorem checkPointers_regions (q : Nat) : (checkPointers q s).regions = s.regions := by
  unfold checkPointers
  split <;> simp [resetQueue]

theorem rewindRegion_slot (p : Port) (sl : Fin 4) : (rewindRegion r s).slot p sl = s.slot p sl :=
  forEach_keeps (·.slot p sl) _ _ _ fun e u => checkPointers_slot u e.1 p sl

theorem rewindRegion_regions : (rewindRegion r s).regions = s.regions :=
  forEach_keeps State.regions _ _ _ fun e u => checkPointers_regions u e.1

/-- A reset of the flip-flops leaves what is not a plane. -/
theorem resetFf_keeps {β : Type} (π : Region → β) (h : ∀ x p f, π (Region.modPlane x p f) = π x) (x : Region) :
    π x.resetFf = π x :=
  foldl_keeps π (fun y p => h y p _) _ x

/-- What neither the flip-flops nor the engines, the queues and the ports in flight show, a reset of the tiers leaves. -/
theorem resetTiers_keeps {β : Type} (π : State → β)
    (flops : ∀ u, π (modRegion r (fun x => { x.resetFf with brg := [] }) u) = π u)
    (rewind : ∀ u, π (rewindRegion r u) = π u) (engine : ∀ k f u, π (modEngine k f u) = π u)
    (outst : ∀ f u, π (mapOutst f u) = π u) (ports : ∀ u, π (abortPorts r u) = π u) :
    π (resetTiers r scope s) = π s := by
  have drag (u : State) : π (forBelow 32 (fun j => resetEngine (32 * r + j)) u) = π u :=
    forBelow_keeps π _ _ _ fun _ _ => engine _ _ _
  unfold resetTiers onlyIf
  dsimp only
  cases scope <;> simp [flops, rewind, drag, outst, ports]

theorem resetTiers_slot (p : Port) (sl : Fin 4) : (resetTiers r scope s).slot p sl = s.slot p sl :=
  resetTiers_keeps r scope s (·.slot p sl) (fun _ => rfl) (fun u => rewindRegion_slot r u p sl) (fun _ _ _ => rfl)
    (fun _ _ => rfl) (fun _ => rfl)

theorem resetTiers_tick : (resetTiers r scope s).tick = s.tick :=
  resetTiers_keeps r scope s State.tick (fun _ => rfl) (rewindRegion_tick r) (fun _ _ _ => rfl) (fun _ _ => rfl)
    (fun _ => rfl)

/-- A field of the region that is no plane and no register of the Brigade. -/
theorem resetTiers_region {β : Type} (π : Region → β) (plane : ∀ x p f, π (Region.modPlane x p f) = π x)
    (brg : ∀ x : Region, π { x with brg := [] } = π x) : π ((resetTiers r scope s).region r) = π (s.region r) := by
  refine resetTiers_keeps r scope s (fun u => π (u.region r)) (fun u => ?_) (fun u => ?_) (fun _ _ _ => rfl)
    (fun _ _ => rfl) (fun _ => rfl)
  · rw [modRegion_region]
    exact (brg _).trans (resetFf_keeps π plane _)
  · rw [region_congr (rewindRegion_regions r u)]

end

/-! ### A region reset that begins and ends (R67) -/

theorem modPlane_iso (x : Region) (p : Nat) (f : Plane → Plane) : (x.modPlane p f).iso = x.iso := by
  unfold Region.modPlane
  split <;> rfl
theorem modPlane_resets (x : Region) (p : Nat) (f : Plane → Plane) : (x.modPlane p f).resets = x.resets := by
  unfold Region.modPlane
  split <;> rfl

theorem pauseSweeps_slot (r : Nat) (s : State) (p : Port) (sl : Fin 4) : (pauseSweeps r s).slot p sl = s.slot p sl :=
  forBelow_keeps (·.slot p sl) _ _ _ fun k u => by
    unfold onlyIf
    split <;> rfl

section
variable {r : Nat} {scope : ResetScope} {w : Waiter} {s : State}

/-- The one reset of a region without a slice and without a pending change begins: the region is isolated, its tiers are
reset and the request is answered. -/
theorem beginReset_single (resets : (s.region r).resets = [{ scope := scope, waiter := some w }])
    (slice : (s.region r).slice = none) (grace : (s.region r).grace = none) (after : (s.region r).after = none) :
    ∃ u, beginReset r s = pauseSweeps r (reply w stOk [] u) ∧ (∀ p sl, u.slot p sl = s.slot p sl) ∧ u.tick = s.tick ∧
      IsoCause.reset ∈ (u.region r).iso ∧ (u.region r).resets = [{ scope := scope, begun := true }] := by
  have ended : endPending r (abandonSlice r s) = s := by
    simp [endPending, endAfter, endGrace, abandonSlice, slice, grace, after]
  have isolated (t : State) (ht : t = isolateBorder r .reset s ∨ t = isolate r .reset s) :
      (∀ p sl, t.slot p sl = s.slot p sl) ∧ t.tick = s.tick ∧ IsoCause.reset ∈ (t.region r).iso ∧
        (t.region r).resets = [{ scope := scope, waiter := some w }] := by
    rw [← resets]
    rcases ht with rfl | rfl
    · exact ⟨isolateBorder_slot r _ s, by simp, mem_isolateBorder_iso r _ s, isolateBorder_resets r _ s r⟩
    · exact ⟨isolate_slot r _ s, by simp, mem_isolate_iso r _ s, isolateBorder_resets r _ s r⟩
  obtain ⟨t, begins, ht⟩ : ∃ t, beginReset r s = pauseSweeps r (reply w stOk [] (resetTiers r scope
      (modRegion r (fun x => { x with
        resets := x.resets.map (fun j => if j.atTick then j else { j with begun := true, waiter := none }) }) t))) ∧
      (t = isolateBorder r .reset s ∨ t = isolate r .reset s) := by
    refine ⟨if scope == .drag then isolateBorder r .reset s else isolate r .reset s, ?_, ite_eq_or_eq ..⟩
    unfold beginReset
    rw [ended, resets]
    simp [forEach, replyOpt]
  obtain ⟨slot, tick, iso, jobs⟩ := isolated t ht
  refine ⟨_, begins, fun p sl => ?_, ?_, ?_, ?_⟩
  · exact (resetTiers_slot ..).trans (slot p sl)
  · exact (resetTiers_tick ..).trans tick
  · rw [resetTiers_region r scope _ Region.iso modPlane_iso (fun _ => rfl), modRegion_region]
    exact iso
  · rw [resetTiers_region r scope _ Region.resets modPlane_resets (fun _ => rfl), modRegion_region]
    simp [jobs]

/-- An ACTIVE region without a change of power resets at once. -/
theorem tryReset_active (power : (s.region r).power = .active) (trans : (s.region r).trans = none) :
    tryReset r scope w s =
      (beginReset r (modRegion r (fun x =>
        { x with resets := x.resets ++ [{ scope := scope, waiter := some w }] }) s), .wait) := by
  simp [tryReset, power, trans, Power.deep]

/-- The last reset of a region ends: its isolation is due to end. -/
theorem endReset_region (resets : (s.region r).resets = [{ scope := scope, begun := true }]) :
    (endReset r s).region r = { s.region r with resets := [], freeDue := (s.region r).freeDue ++ [.reset] } := by
  rw [endReset, region_congr (resumeSweeps_regions ..)]
  simp [resets, onlyIf]

end

/-! ### The commands -/

theorem spineEnableSpec_set {q : Req} (s : State) (h : q.queryFlag = false) : spineEnableSpec.body q s =
    ((enableSpines q.target (q.arg 8 8) s).1, .done (if (enableSpines q.target (q.arg 8 8) s).2 then stOk else stFault)
      [(16, 8, ((enableSpines q.target (q.arg 8 8) s).1.region q.target).spineDisable.toNat)]) := by
  simp [spineEnableSpec, h]

theorem regionResetSpec_now {q : Req} {sc : ResetScope} (s : State) (scope : scopeOf (q.argByte 8) = some sc)
    (immediate : q.atTick = false) : regionResetSpec.body q s = tryReset q.target sc q.waiter s := by
  simp [regionResetSpec, scope, immediate]

section
variable {s : State} {p : Port} {sl : Fin 4} {r : Nat}

theorem spineEnable_gives (target : (s.req p sl).target = r) (granted : Granted spineEnableSpec s p sl)
    (set : (s.req p sl).queryFlag = false) (free : ∀ k < 64, contended ((s.region r).now.use.enables k) = false) :
    Gives (.spineEnable p sl) s (fun t =>
      (t.region r).spineDisable = (s.region r).spineDisable &&& ~~~(BitVec.ofNat 64 ((s.req p sl).arg 8 8)) ∧
      Answered s t p sl stOk [(16, 8, (t.region r).spineDisable.toNat)]) := by
  obtain ⟨ok, bits⟩ := enableSpines_uncontended (mask := (s.req p sl).arg 8 8) (s := takenState spineEnableSpec s p sl)
    (by simpa using free)
  have slot := enableSpines_slot r ((s.req p sl).arg 8 8) (takenState spineEnableSpec s p sl) p sl
  have tick := enableSpines_tick r ((s.req p sl).arg 8 8) (takenState spineEnableSpec s p sl)
  have body := spineEnableSpec_set (takenState spineEnableSpec s p sl) ((takenReq_queryFlag s p sl).trans set)
  rw [takenReq_target, takenReq_arg, target, ok, if_pos rfl] at body
  generalize (enableSpines r ((s.req p sl).arg 8 8) (takenState spineEnableSpec s p sl)).1 = u at *
  refine gives_done granted body slot ⟨by simpa using bits, ?_⟩
  simpa using answered_committed slot (by simp [tick])

theorem regionReset_gives {sc : ResetScope} (target : (s.req p sl).target = r)
    (granted : Granted regionResetSpec s p sl)
    (scope : scopeOf ((s.req p sl).argByte 8) = some sc) (immediate : (s.req p sl).atTick = false)
    (power : (s.region r).power = .active) (trans : (s.region r).trans = none) (resets : (s.region r).resets = [])
    (slice : (s.region r).slice = none) (grace : (s.region r).grace = none) (after : (s.region r).after = none) :
    Gives (.regionReset p sl) s (fun t => Answered s t p sl stOk [] ∧ IsoCause.reset ∈ (t.region r).iso ∧
      (t.region r).resets = [{ scope := sc, begun := true }]) := by
  have body := regionResetSpec_now (takenState regionResetSpec s p sl) ((takenReq_argByte s p sl 8 ▸ scope))
    ((takenReq_atTick s p sl).trans immediate)
  rw [takenReq_target, target, tryReset_active (by simpa using power) (by simpa using trans)] at body
  obtain ⟨u, begins, slot, tick, iso, jobs⟩ := beginReset_single (r := r) (scope := sc) (w := (takenReq s p sl).waiter)
    (s := modRegion r (fun x =>
        { x with resets := x.resets ++ [{ scope := sc, waiter := some (takenReq s p sl).waiter }] })
      (takenState regionResetSpec s p sl))
    (by simp [resets]) (by simp [slice]) (by simp [grace]) (by simp [after])
  refine gives_wait granted body ?_
  rw [begins]
  have answer : Answered s (committed s (reply (takenReq s p sl).waiter stOk [] u)) p sl stOk [] :=
    answered_reply (c := regionResetSpec) (slot p sl) (by simp [tick])
  refine ⟨?_, ?_, ?_⟩
  · simpa only [Answered, committed_slot, pauseSweeps_slot] using answer
  · rwa [committed_region, region_congr (pauseSweeps_regions ..), reply_region]
  · rwa [committed_region, region_congr (pauseSweeps_regions ..), reply_region]

end

/-- Settles O11: an isolated region's border holds, since its causes alone make it hold; the spines of the mask lose their
disables one by one; and the one reset of an idle region begins at once, with its answer. -/
theorem regionCommandsComplete : Obligations.RegionCommandsComplete := by
  intro s p sl r target
  refine ⟨fun granted query => ?_, fun granted set now immediate => ?_, fun granted set free => ?_,
    fun granted first => ?_, fun sc granted scope immediate power trans resets slice grace after => ?_,
    fun q resets => ?_, fun q k awake two enabled => ?_⟩
  · refine gives_done granted (u := takenState regionIsolateSpec s p sl) (st := stOk) (res := isolateResults r s) ?_ rfl
      ⟨answered_committed rfl (by simp), by simp⟩
    simp [regionIsolateSpec, query, target]
  · refine gives_wait granted
      (u := isolateByCommand r (takenReq s p sl).waiter (takenState regionIsolateSpec s p sl)) ?_ ?_
    · simp [regionIsolateSpec, set, target, now, immediate]
    · simp only [isolateByCommand]
      refine ⟨?_, ?_, (answered_reply (c := regionIsolateSpec) ?_ ?_).1⟩
      · simpa [isolateCmdEvent] using mem_isolate_iso ..
      · simpa [isolateCmdEvent] using isolate_isoHold ..
      · rw [isolateCmdEvent, raise_slot, isolate_slot]
      · simp [isolateCmdEvent]
  · exact spineEnable_gives target granted set free
  · refine gives_done granted (u := takenState defectMapReadSpec s p sl) (st := stOk) ?_ rfl
      ⟨by simp, answered_committed rfl (by simp)⟩
    simp [defectMapReadSpec, target, Nat.not_lt.mpr first]
  · exact regionReset_gives target granted scope immediate power trans resets slice grace after
  · apply gives_occurs
    · simp [resets]
    · rw [committed_region, endReset_region resets]
      simp
  · apply gives_occurs
    · rw [awake, two, enabled]
      rfl
    · rw [committed_region, tripSpine, region_congr (startPass_regions ..), raise_region, modRegion_region]

end Sys2Proof.Machine

/-! The events of start-up (R72, R74, R172, R189, R378, R421, R422, R473, Table 3.5). -/

namespace Sys2Proof.Machine

/-! ### What no access, no copy and no alarm changes of start-up -/

/-- Whether HBM is zero-filled, and the boot pattern images tried. -/
def State.startMarks (s : State) : Bool × List Nat := (s.dev.hbmReady, s.lib.bootTried)

section
variable {s : State}

@[simp] theorem startMarks_modDev {f : Device → Device} (h : ∀ d, (f d).hbmReady = d.hbmReady) :
    (modDev f s).startMarks = s.startMarks := congrArg (·, s.lib.bootTried) (h s.dev)
@[simp] theorem startMarks_modLib {f : LibSt → LibSt} (h : ∀ l, (f l).bootTried = l.bootTried) :
    (modLib f s).startMarks = s.startMarks := congrArg (s.dev.hbmReady, ·) (h s.lib)
@[simp] theorem startMarks_modEnv (f) : (modEnv f s).startMarks = s.startMarks := rfl
@[simp] theorem startMarks_modTick (f) : (modTick f s).startMarks = s.startMarks := rfl
@[simp] theorem startMarks_modRunner (f) : (modRunner f s).startMarks = s.startMarks := rfl
@[simp] theorem startMarks_modIngot (f) : (modIngot f s).startMarks = s.startMarks := rfl
@[simp] theorem startMarks_modHbm (f) : (modHbm f s).startMarks = s.startMarks := rfl
@[simp] theorem startMarks_modInteg (f) : (modInteg f s).startMarks = s.startMarks := rfl
@[simp] theorem startMarks_modClk (f) : (modClk f s).startMarks = s.startMarks := rfl
@[simp] theorem startMarks_modBonds (f) : (modBonds f s).startMarks = s.startMarks := rfl
@[simp] theorem startMarks_modCudex (f) : (modCudex f s).startMarks = s.startMarks := rfl
@[simp] theorem startMarks_modIo (f) : (modIo f s).startMarks = s.startMarks := rfl
@[simp] theorem startMarks_modRegion (k f) : (modRegion k f s).startMarks = s.startMarks := rfl
@[simp] theorem startMarks_modBram (k f) : (modBram k f s).startMarks = s.startMarks := rfl
@[simp] theorem startMarks_modEngine (k f) : (modEngine k f s).startMarks = s.startMarks := rfl
@[simp] theorem startMarks_modQueue (k f) : (modQueue k f s).startMarks = s.startMarks := rfl

/-! #### Branches and loops -/

@[simp] theorem startMarks_ite (c : Prop) [Decidable c] (a b : State) :
    (if c then a else b).startMarks = if c then a.startMarks else b.startMarks := apply_ite ..
@[simp] theorem startMarks_ite_fst {α : Type} (c : Prop) [Decidable c] (a b : State × α) :
    (if c then a else b).1.startMarks = if c then a.1.startMarks else b.1.startMarks :=
  apply_ite (fun u : State × α => u.1.startMarks) ..
@[simp] theorem startMarks_onlyIf (c : Bool) (f : State → State) :
    (onlyIf c f s).startMarks = if c then (f s).startMarks else s.startMarks := startMarks_ite ..
@[simp] theorem startMarks_forEach {α : Type} {f : α → State → State} (h : ∀ x u, (f x u).startMarks = u.startMarks)
    (l : List α) : (forEach l f s).startMarks = s.startMarks := forEach_keeps State.startMarks l f s h
@[simp] theorem startMarks_forBelow {f : Nat → State → State} (h : ∀ x u, (f x u).startMarks = u.startMarks) (n : Nat) :
    (forBelow n f s).startMarks = s.startMarks := forBelow_keeps State.startMarks n f s h
theorem startMarks_foldl_fst {α β : Type} {f : State × β → α → State × β}
    (h : ∀ u x, (f u x).1.startMarks = u.1.startMarks) (l : List α) (u : State × β) :
    (l.foldl f u).1.startMarks = u.1.startMarks := foldl_keeps (fun v : State × β => v.1.startMarks) h l u
@[simp] theorem startMarks_iter {f : State → State} (h : ∀ u, (f u).startMarks = u.startMarks) (n : Nat) :
    (iter f n s).startMarks = s.startMarks := by
  induction n generalizing s with
  | zero => rfl
  | succ n ih => exact ih.trans (h s)
@[simp] theorem startMarks_readWords {f : Nat → State → State × BitVec 64 × Bool}
    (h : ∀ i u, (f i u).1.startMarks = u.startMarks) : (readWords f s).1.startMarks = s.startMarks :=
  startMarks_foldl_fst
    (f := fun acc i => ((f i acc.1).1, acc.2.1 + (f i acc.1).2.1.toNat * 2 ^ (64 * i), acc.2.2 && (f i acc.1).2.2))
    (fun u i => h i u.1) (List.range 8) (s, 0, true)
@[simp] theorem startMarks_writeWords {f : Nat → State → State × Bool}
    (h : ∀ i u, (f i u).1.startMarks = u.startMarks) : (writeWords f s).1.startMarks = s.startMarks :=
  startMarks_foldl_fst (f := fun acc i => ((f i acc.1).1, acc.2 && (f i acc.1).2)) (fun u i => h i u.1) (List.range 8)
    (s, true)

/-! #### Events, answers, queues, memories and requests -/

@[simp] theorem startMarks_useFree : (useFree s).startMarks = s.startMarks := by simp [useFree]
@[simp] theorem startMarks_signalMsix (v) : (signalMsix v s).startMarks = s.startMarks := by simp [signalMsix]
@[simp] theorem startMarks_deliver (r) : (deliver r s).startMarks = s.startMarks := by simp [deliver]
@[simp] theorem startMarks_raise (e) : (raise e s).startMarks = s.startMarks := by simp [raise]
@[simp] theorem startMarks_raiseLimited (e counts) : (raiseLimited e counts s).startMarks = s.startMarks := by
  simp only [raiseLimited]
  split <;> simp
@[simp] theorem startMarks_settleMode (cause) : (settleMode cause s).startMarks = s.startMarks := by
  simp [State.startMarks]
@[simp] theorem startMarks_modSlot (p sl f) : (modSlot p sl f s).startMarks = s.startMarks := by simp [modSlot]
@[simp] theorem startMarks_modPort (p f) : (modPort p f s).startMarks = s.startMarks := by simp [modPort]
@[simp] theorem startMarks_postResponse (p sl status tick res) :
    (postResponse p sl status tick res s).startMarks = s.startMarks := by simp [postResponse]
@[simp] theorem startMarks_replyAt (w status tick res) : (replyAt w status tick res s).startMarks = s.startMarks := by
  simp [replyAt]
@[simp] theorem startMarks_reply (w status res) : (reply w status res s).startMarks = s.startMarks := by simp [reply]
@[simp] theorem startMarks_loadReply (q status index cause addr) :
    (loadReply q status index cause addr s).startMarks = s.startMarks := by simp [loadReply]
@[simp] theorem startMarks_itemLost (q it) : (itemLost q it s).startMarks = s.startMarks := by simp [itemLost]
@[simp] theorem startMarks_ringSlot (p sl) : (ringSlot p sl s).startMarks = s.startMarks := by simp [ringSlot]
@[simp] theorem startMarks_takeAddress (p sl) : (takeAddress p sl s).startMarks = s.startMarks := by simp [takeAddress]
@[simp] theorem startMarks_ackSlot (p sl) : (ackSlot p sl s).startMarks = s.startMarks := by simp [ackSlot]
@[simp] theorem startMarks_writeRequest (p sl off) {n w : Nat} (data : BitVec n) (be : BitVec w) :
    (writeRequest p sl off data be s).startMarks = s.startMarks := by simp [writeRequest]
@[simp] theorem startMarks_writeCtrl (p v) : (writeCtrl p v s).startMarks = s.startMarks := by simp [writeCtrl]
@[simp] theorem startMarks_popRecord (p) : (popRecord p s).1.startMarks = s.startMarks := by
  simp only [popRecord]
  split <;> simp
@[simp] theorem startMarks_regRead (off) : (regRead off s).1.startMarks = s.startMarks := by
  simp only [regRead]
  split <;> simp
@[simp] theorem startMarks_resetQueue (q ptr) : (resetQueue q ptr s).startMarks = s.startMarks := by
  simp [resetQueue]
@[simp] theorem startMarks_checkPointers (q) : (checkPointers q s).startMarks = s.startMarks := by
  simp only [checkPointers]
  split <;> simp
@[simp] theorem startMarks_rewindQueue (q) : (rewindQueue q s).startMarks = s.startMarks := by simp [rewindQueue]
@[simp] theorem startMarks_pushOne (q data eop) : (pushOne q data eop s).1.startMarks = s.startMarks := by
  simp only [pushOne]
  split <;> simp
@[simp] theorem startMarks_commitEmpty (q) : (commitEmpty q s).startMarks = s.startMarks := by simp [commitEmpty]
@[simp] theorem startMarks_popOne (q) : (popOne q s).1.startMarks = s.startMarks := by
  simp only [popOne]
  split <;> simp
@[simp] theorem startMarks_pushLines (q eopAt lines c) : (pushLines q eopAt lines s c).1.startMarks = s.startMarks := by
  induction lines generalizing s c with
  | nil => rfl
  | cons l ls ih =>
    simp only [pushLines]
    split <;> simp [ih]
@[simp] theorem startMarks_pushBurst (q eop lines) : (pushBurst q eop lines s).1.startMarks = s.startMarks := by
  simp only [pushBurst]
  split <;> simp
@[simp] theorem startMarks_popLines (q n) : (popLines q n s).1.startMarks = s.startMarks := by
  induction n generalizing s with
  | zero => rfl
  | succ n ih => simp [popLines, ih]
@[simp] theorem startMarks_riserBurst (q off mid op n lines waiting behind) :
    (riserBurst q off mid op n lines waiting behind s).1.startMarks = s.startMarks := by
  simp only [riserBurst]
  repeat' split
  all_goals simp
@[simp] theorem startMarks_mapOutst (f) : (mapOutst f s).startMarks = s.startMarks := by simp [mapOutst]
@[simp] theorem startMarks_answerOutst (req ls) : (answerOutst req ls s).startMarks = s.startMarks := by
  simp [answerOutst]
@[simp] theorem startMarks_bumpStop (r i n) : (bumpStop r i n s).startMarks = s.startMarks := by simp [bumpStop]
@[simp] theorem startMarks_setOutst (o) : (setOutst o s).startMarks = s.startMarks := by simp [setOutst]
@[simp] theorem startMarks_bumpPower (r i) : (bumpPower r i s).startMarks = s.startMarks := by simp [bumpPower]
@[simp] theorem startMarks_startExit (r d) : (startExit r d s).startMarks = s.startMarks := by simp [startExit]
@[simp] theorem startMarks_wakeRegion (r) : (wakeRegion r s).startMarks = s.startMarks := by
  simp only [wakeRegion]
  split <;> simp
@[simp] theorem startMarks_modEntry (i f) : (modEntry i f s).startMarks = s.startMarks := by simp [modEntry]
@[simp] theorem startMarks_freeReserved (q) : (freeReserved q s).startMarks = s.startMarks := by
  simp only [freeReserved]
  split <;> simp
@[simp] theorem startMarks_stopLoads : (stopLoads s).startMarks = s.startMarks := by simp [stopLoads]
@[simp] theorem startMarks_bumpInteg (pl i n) : (bumpInteg pl i n s).startMarks = s.startMarks := by
  simp [bumpInteg]
@[simp] theorem startMarks_setTracker (pl l) : (setTracker pl l s).startMarks = s.startMarks := by simp [setTracker]
@[simp] theorem startMarks_hardFault (pl w out i) : (hardFault pl w out i s).startMarks = s.startMarks := by
  simp only [hardFault]
  repeat' split
  all_goals simp
@[simp] theorem startMarks_noteRead (pl w out injected fettler) :
    (noteRead pl w out injected fettler s).1.startMarks = s.startMarks := by
  simp only [noteRead]
  repeat' split
  all_goals simp
@[simp] theorem startMarks_noteWrite (pl w) : (noteWrite pl w s).startMarks = s.startMarks := by simp [noteWrite]
@[simp] theorem startMarks_modCrcChan (c f) : (modCrcChan c f s).startMarks = s.startMarks := by simp [modCrcChan]
@[simp] theorem startMarks_crcDataWrite (c data be) : (crcDataWrite c data be s).1.startMarks = s.startMarks := by
  simp [crcDataWrite]
@[simp] theorem startMarks_crcCtrlWrite (c data be) : (crcCtrlWrite c data be s).1.startMarks = s.startMarks := by
  simp [crcCtrlWrite]
@[simp] theorem startMarks_ingotGrant (bank mid) : (ingotGrant bank mid s).startMarks = s.startMarks := by
  simp [ingotGrant]
@[simp] theorem startMarks_enterBank (bank off o) : (enterBank bank off o s).1.startMarks = s.startMarks := by
  simp [enterBank]
@[simp] theorem startMarks_modRange (i f) : (modRange i f s).startMarks = s.startMarks := by simp [modRange]
@[simp] theorem startMarks_writeUnder (ri k j bs) : (writeUnder ri k j bs s).startMarks = s.startMarks := by
  rw [show @writeUnder = _ by delta writeUnder; rfl]
  dsimp -iota -proj only
  split
  simp
@[simp] theorem startMarks_addPoison (ri level index) : (addPoison ri level index s).startMarks = s.startMarks := by
  simp [addPoison]
@[simp] theorem startMarks_bumpRange (ri i n) : (bumpRange ri i n s).startMarks = s.startMarks := by
  simp [bumpRange]
@[simp] theorem startMarks_rangeRefusal (ri a mid) : (rangeRefusal ri a mid s).startMarks = s.startMarks := by
  simp [rangeRefusal]
@[simp] theorem startMarks_startRekey (w) : (startRekey w s).startMarks = s.startMarks := by simp [startRekey]
@[simp] theorem startMarks_checkCounters (ri page) : (checkCounters ri page s).startMarks = s.startMarks := by
  rw [show @checkCounters = _ by delta checkCounters; rfl]
  split
  · rfl
  · split
    · rfl
    · simp
@[simp] theorem startMarks_stateRegsWrite (data be) : (stateRegsWrite data be s).startMarks = s.startMarks := by
  simp [stateRegsWrite]
@[simp] theorem startMarks_regWrite (off data be) : (regWrite off data be s).1.startMarks = s.startMarks := by
  simp only [regWrite]
  split <;> simp
theorem startMarks_windowAccess (off o) {t} (h : windowAccess off o s = some t) : t.1.startMarks = s.startMarks := by
  simp only [windowAccess, Option.ite_none_right_eq_some, Option.some.injEq] at h
  obtain ⟨-, rfl⟩ := h
  simp
@[simp] theorem startMarks_dspNote (id n mid fettler) : (dspNote id n mid fettler s).startMarks = s.startMarks := by
  simp [dspNote]
@[simp] theorem startMarks_dspWordRead (id prog w mid) : (dspWordRead id prog w mid s).1.startMarks = s.startMarks := by
  simp [dspWordRead]
@[simp] theorem startMarks_dspPut (id prog w v) : (dspPut id prog w v s).startMarks = s.startMarks := by
  simp [dspPut]
@[simp] theorem startMarks_dspWordWrite (id prog w mid d be) :
    (dspWordWrite id prog w mid d be s).1.startMarks = s.startMarks := by simp [dspWordWrite]
@[simp] theorem startMarks_dspLineRead (id prog w mid) : (dspLineRead id prog w mid s).1.startMarks = s.startMarks := by
  simp [dspLineRead]
@[simp] theorem startMarks_dspLineWrite (id prog w mid data be) :
    (dspLineWrite id prog w mid data be s).1.startMarks = s.startMarks := by
  simp [dspLineWrite]
@[simp] theorem startMarks_bramFetch (m w who fettler) : (bramFetch m w who fettler s).1.startMarks = s.startMarks := by
  simp [bramFetch]
@[simp] theorem startMarks_bramStore (m w d) : (bramStore m w d s).startMarks = s.startMarks := by simp [bramStore]
@[simp] theorem startMarks_bramPartial (m w who new) : (bramPartial m w who new s).1.startMarks = s.startMarks := by
  simp [bramPartial]
@[simp] theorem startMarks_bramWindowRead (m w mid) : (bramWindowRead m w mid s).1.startMarks = s.startMarks := by
  simp [bramWindowRead]
@[simp] theorem startMarks_bramWindowWrite (m w mid d be) :
    (bramWindowWrite m w mid d be s).1.startMarks = s.startMarks := by simp [bramWindowWrite]
@[simp] theorem startMarks_bramLineRead (off mid) : (bramLineRead off mid s).1.startMarks = s.startMarks := by
  simp [bramLineRead]
@[simp] theorem startMarks_bramLineWrite (off mid data be) :
    (bramLineWrite off mid data be s).1.startMarks = s.startMarks := by
  simp [bramLineWrite]
@[simp] theorem startMarks_ingotPut (bank off v) : (ingotPut bank off v s).startMarks = s.startMarks := by
  simp [ingotPut]
@[simp] theorem startMarks_ingotFetch (bank off mid fettler) :
    (ingotFetch bank off mid fettler s).1.startMarks = s.startMarks := by simp [ingotFetch]
@[simp] theorem startMarks_ingotLineRead (bank off mid) :
    (ingotLineRead bank off mid s).1.startMarks = s.startMarks := by simp [ingotLineRead]
@[simp] theorem startMarks_ingotLineWrite (bank off mid data be) :
    (ingotLineWrite bank off mid data be s).1.startMarks = s.startMarks := by simp [ingotLineWrite]
@[simp] theorem startMarks_ingotAtomic (op bank off mid operand) :
    (ingotAtomic op bank off mid operand s).1.startMarks = s.startMarks := by simp [ingotAtomic]
@[simp] theorem startMarks_ingotLine (bank j) : (ingotLine bank j s).1.startMarks = s.startMarks := by
  simp only [ingotLine]
  split <;> simp
@[simp] theorem startMarks_securityAlarm : (securityAlarm s).startMarks = s.startMarks := by
  simp only [securityAlarm]
  repeat' split
  all_goals simp
@[simp] theorem startMarks_itemFailure (ri level index mid) :
    (itemFailure ri level index mid s).startMarks = s.startMarks := by simp [itemFailure]
@[simp] theorem startMarks_lineFailure (ri a mid op) : (lineFailure ri a mid op s).startMarks = s.startMarks := by
  simp [lineFailure]
@[simp] theorem startMarks_poisonAccess (ri a mid) : (poisonAccess ri a mid s).startMarks = s.startMarks := by
  simp [poisonAccess]
@[simp] theorem startMarks_touchLine (a fettler) : (touchLine a fettler s).startMarks = s.startMarks := by
  simp [touchLine]
@[simp] theorem startMarks_touchPath (r page res) : (touchPath r page res s).startMarks = s.startMarks :=
  startMarks_forEach (fun k u => by simp) _
@[simp] theorem startMarks_touchTagged (r a) : (touchTagged r a s).startMarks = s.startMarks := by
  simp [touchTagged]
@[simp] theorem startMarks_plainRead (a mid fettler) : (plainRead a mid fettler s).1.startMarks = s.startMarks := by
  simp [plainRead]
@[simp] theorem startMarks_plainWrite (a mid data be) : (plainWrite a mid data be s).1.startMarks = s.startMarks := by
  simp [plainWrite]
@[simp] theorem startMarks_protRead (ri a mid) : (protRead ri a mid s).1.startMarks = s.startMarks := by
  simp only [protRead]
  repeat' split
  all_goals simp
@[simp] theorem startMarks_protWrite (ri a mid data be) :
    (protWrite ri a mid data be s).1.startMarks = s.startMarks := by
  simp only [protWrite]
  repeat' split
  all_goals simp
@[simp] theorem startMarks_hbmRead (a mid) : (hbmRead a mid s).1.startMarks = s.startMarks := by
  simp only [hbmRead]
  repeat' split
  all_goals simp
@[simp] theorem startMarks_hbmWrite (a mid data be) : (hbmWrite a mid data be s).1.startMarks = s.startMarks := by
  simp only [hbmWrite]
  split <;> simp
@[simp] theorem startMarks_readPageLines (ri mid a off leaf lines acc) :
    (readPageLines ri mid a off leaf lines acc).1.startMarks = acc.1.startMarks := by
  refine startMarks_foldl_fst (fun u k => ?_) lines acc
  dsimp only
  split
  · rfl
  · split
    · simp
    · split <;> simp
@[simp] theorem startMarks_readPage (mid a off acc) : (readPage mid a off acc).1.startMarks = acc.1.startMarks := by
  rcases acc with ⟨s, e⟩
  simp only [readPage]
  split
  · rfl
  · split
    · rfl
    · split
      · simp
      · split
        · simp
        · split <;> simp
@[simp] theorem startMarks_readEntry (mid i) : (readEntry mid i s).1.startMarks = s.startMarks :=
  startMarks_foldl_fst (fun _ _ => startMarks_readPage _ _ _ _) _ _
@[simp] theorem startMarks_copyEntry (r i) : (copyEntry r i s).1.startMarks = s.startMarks := by simp [copyEntry]
@[simp] theorem startMarks_ingotServe (bank) : (ingotServe bank s).startMarks = s.startMarks := by
  simp only [ingotServe]
  split <;> simp
@[simp] theorem startMarks_runBank (bank) : (runBank bank s).startMarks = s.startMarks :=
  startMarks_iter (fun _ => startMarks_ingotServe _) _
@[simp] theorem startMarks_settleBank (o) : (settleBank o s).startMarks = s.startMarks := by
  simp only [settleBank]
  split <;> simp
@[simp] theorem startMarks_readLine (mid a) : (readLine mid a s).1.startMarks = s.startMarks := by
  simp only [readLine]
  repeat' split
  all_goals simp
@[simp] theorem startMarks_readLines (mid h n i) : (readLines mid h n i s).1.startMarks = s.startMarks := by
  induction n generalizing i s with
  | zero => rfl
  | succ n ih => simp [readLines, ih]
@[simp] theorem startMarks_readBurst (mid h) : (readBurst mid h s).1.startMarks = s.startMarks := by
  simp only [readBurst]
  split <;> simp
@[simp] theorem startMarks_writeLine (mid a l) : (writeLine mid a l s).1.startMarks = s.startMarks := by
  simp only [writeLine]
  repeat' split
  all_goals simp
@[simp] theorem startMarks_writeLines (mid h lines i c) :
    (writeLines mid h lines i s c).1.startMarks = s.startMarks := by
  induction lines generalizing i s c with
  | nil => rfl
  | cons l ls ih => simp [writeLines, ih]
@[simp] theorem startMarks_performAt (o) : (performAt o s).1.startMarks = s.startMarks := by
  unfold performAt
  extract_lets h mid
  split
  case h_1 q off _ =>
    have burst := startMarks_riserBurst (s := s) q (off / 64 * 64) mid o.op
      (lineCount h) o.wlines (popAhead s q o false) (popAhead s q o true)
    split <;> simp_all
  case h_2 =>
    extract_lets o' window
    split
    · rfl
    · have access : ∀ held, window = some held → held.1.startMarks = s.startMarks := by
        intro held hw
        simp only [window] at hw
        split at hw
        · exact startMarks_windowAccess _ _ hw
        · cases hw
      split
      · exact access _ ‹_›
      · simp
      · split
        · split <;> simp
        · simp
        · rfl
@[simp] theorem startMarks_passGate (o) : (passGate o s).1.startMarks = s.startMarks := by
  simp only [passGate]
  repeat' split
  all_goals simp
@[simp] theorem startMarks_retry (o) : (retry o s).startMarks = s.startMarks := by simp [retry]
@[simp] theorem startMarks_retryPage : (retryPage s).startMarks = s.startMarks := by simp [retryPage]

/-! ### Loading and the boot pattern -/

@[simp] theorem startMarks_writeEntryBytes (i frames) : (writeEntryBytes i frames s).1.startMarks = s.startMarks :=
  startMarks_foldl_fst (fun u k => by split <;> simp) _ (s, true)
@[simp] theorem startMarks_makeReady (im place i frames boot mid) :
    (makeReady im place i frames boot mid s).startMarks = s.startMarks := by
  simp [makeReady]
@[simp] theorem startMarks_placeImage (im boot mid) : (placeImage im boot mid s).1.startMarks = s.startMarks :=
  startMarks_foldl_fst (fun u x => by
    split
    next pl i fs =>
      have written := startMarks_writeEntryBytes (s := u.1) i fs
      split
      · generalize writeEntryBytes i fs u.1 = w at written ⊢
        obtain ⟨t, ok⟩ := w
        cases ok <;> simpa using written
      · rfl
    · rfl) _ (s, true)
@[simp] theorem startMarks_rejectEvents (r flash mid) : (rejectEvents r flash mid s).startMarks = s.startMarks := by
  simp [rejectEvents]
@[simp] theorem startMarks_copyFor (r f) : (copyFor r f s).1.startMarks = s.startMarks := by
  unfold copyFor
  by_cases fits : (!(s.entry f.index).fits r) = true
  · rw [if_pos fits]
  · by_cases spoiled : f.spoiled = true
    · rw [if_neg fits, if_pos spoiled]
      exact startMarks_useFree
    · rw [if_neg fits, if_neg spoiled]
      exact startMarks_copyEntry ..
/-- The write of an entry stands for itself here: its value takes tens of thousands of steps, which the comparison of
the two sides must not begin to compute. -/
@[simp] theorem startMarks_loadPattern (img ck) : (loadPattern img ck s).startMarks = s.startMarks := by
  have written : ∀ i frames (u : State), (writeEntryBytes i frames u).1.startMarks = u.startMarks :=
    fun i frames u => startMarks_writeEntryBytes i frames
  unfold loadPattern
  generalize writeEntryBytes = write at written ⊢
  as_aux_lemma =>
    dsimp only
    split
    · rfl
    · split <;> simp [written]
@[simp] theorem startMarks_loadPatterns : (loadPatterns s).startMarks = s.startMarks := by
  simp [loadPatterns]

@[simp] theorem startMarks_bootPlane (r p i active) : (bootPlane r p i active s).1.startMarks = s.startMarks := by
  have copied := startMarks_copyFor (s := s) r { index := i }
  unfold bootPlane
  split
  all_goals
    next h =>
      rw [h] at copied
      simpa using copied
@[simp] theorem startMarks_leaveOut (r d) : (leaveOut r d s).startMarks = s.startMarks := by
  simp [leaveOut]

@[simp] theorem startMarks_bootRegion (a) : (bootRegion a s).1.startMarks = s.startMarks := by
  have filled := startMarks_bootPlane (s := s) (asgRegion a) (asgActive a) (asgIndex a (asgActive a)) true
  unfold bootRegion
  dsimp only
  split
  · rfl
  · split
    next h =>
      rw [h] at filled
      exact filled
    next h =>
      rw [h] at filled
      split
      · simpa using filled
      · refine (startMarks_foldl_fst (fun u p => ?_) _ _).trans (by simpa using filled)
        split <;> simp

@[simp] theorem startMarks_bootPlace (im) : (bootPlace im s).1.startMarks = s.startMarks := by
  have placed := startMarks_placeImage (s := s) im true 66
  unfold bootPlace
  split
  next h =>
    rw [h] at placed
    exact placed
  next t h =>
    rw [h] at placed
    dsimp only
    rw [startMarks_forEach, startMarks_forEach]
    · refine (startMarks_foldl_fst (fun u a => ?_) _ _).trans placed
      split <;> simp
    · intro x u
      simp
    · intro x u
      split <;> simp

@[simp] theorem startMarks_abandonImage (code cause) : (abandonImage code cause s).startMarks = s.startMarks := by
  simp [abandonImage]

/-- The image that the boot load takes up is among those tried. -/
theorem mem_bootTried_bootLoad {code : Nat} {bs : List Byte} {rest : List (Nat × List Byte)}
    (images : bootImages s = (code, bs) :: rest) : code ∈ (bootLoad s).lib.bootTried := by
  suffices marks : (bootLoad s).startMarks =
      (modLib (fun l => { l with bootTried := l.bootTried ++ [code] }) s).startMarks by
    have tried : (bootLoad s).lib.bootTried = s.lib.bootTried ++ [code] := congrArg Prod.snd marks
    simp [tried]
  unfold bootLoad
  rw [images]
  dsimp only
  generalize modLib (fun l => { l with bootTried := l.bootTried ++ [code] }) s = u
  split
  · simp
  next im _ =>
    have placed := startMarks_bootPlace (s := u) im
    split
    next t cause h =>
      rw [h] at placed
      rw [startMarks_abandonImage, startMarks_forEach fun i v => by simp]
      exact placed
    next t h =>
      rw [h] at placed
      simpa using placed

end

/-! ### Firmware begins to run (R172) -/

section
variable {s : State}

/-- A new plan changes the clocks, the domains, the thermal records and the free values. -/
theorem rePlan_keeps {β : Type} (π : State → β) (clk : ∀ f u, π (modClk f u) = π u)
    (domain : ∀ d f u, π (modDomain d f u) = π u) (therm : ∀ f u, π (modTherm f u) = π u)
    (env : ∀ f u, π (modEnv f u) = π u) (event : ∀ e u, π (raise e u) = π u) : π (rePlan s) = π s := by
  have switch (sw b u) : π (beginSwitch sw b u) = π u := by
    unfold beginSwitch modSwitch
    exact clk _ _
  have start (d p u) : π (startPoint d p u) = π u := by
    unfold startPoint onlyIf
    dsimp only
    repeat' split
    all_goals simp only [switch, domain]
  have next (d u) : π (domainNext d u) = π u := by
    unfold domainNext
    dsimp only
    repeat' split
    all_goals simp only [start, domain]
  have plan (d v u) : π (planDomain d v u) = π u := by
    unfold planDomain
    dsimp only
    rw [next, domain, forBelow_keeps π]
    intro p w
    unfold onlyIf
    split
    · exact event _ _
    · rfl
  unfold rePlan onlyIf
  dsimp only
  split
  all_goals simp only [event, forBelow_keeps π _ _ _ fun d u => plan d _ u, therm, clk, env]

theorem rePlan_dev : (rePlan s).dev = s.dev :=
  rePlan_keeps State.dev (by simp) (by simp) (by simp) (by simp) (by simp)
theorem rePlan_cup : (rePlan s).cudex.cup = s.cudex.cup :=
  rePlan_keeps (·.cudex.cup) (by simp) (by simp) (by simp) (by simp) (by simp)

theorem createLibrary_dev : (createLibrary s).dev = s.dev := by simp [createLibrary, rangeMade, modRange]
theorem createLibrary_cup : (createLibrary s).cudex.cup = s.cudex.cup := by simp [createLibrary, rangeMade, modRange]

theorem takeLedger_keeps {β : Type} (π : Device → β) (h : ∀ d : Device, π { d with firstBoot := true } = π d) :
    π (takeLedger s).dev = π s.dev := by
  unfold takeLedger
  split
  · rfl
  · simp [h]
theorem takeLedger_cup : (takeLedger s).cudex.cup = s.cudex.cup := by
  unfold takeLedger
  split <;> simp

theorem runFirmware_dev (image : Nat) : (runFirmware image s).dev.base = s.dev.base ∧
    (runFirmware image s).dev.fwImage = BitVec.ofNat 2 image := by
  unfold runFirmware onlyIf
  dsimp only
  rw [rePlan_dev, createLibrary_dev, takeLedger_keeps Device.base fun _ => rfl,
    takeLedger_keeps Device.fwImage fun _ => rfl]
  split <;> simp [noteFirstRun, resetBegun]

theorem runFirmware_cup (image : Nat) : (runFirmware image s).cudex.cup = .running := by
  unfold runFirmware onlyIf
  dsimp only
  rw [rePlan_cup, createLibrary_cup, takeLedger_cup]
  split <;> simp [resetBegun]

theorem badCopies_dev : (badCopies s).dev = s.dev := forBelow_dev _ _ _ fun c u => by simp
theorem badCopies_lib : (badCopies s).lib = s.lib := forBelow_keeps State.lib _ _ _ fun c u => by simp
theorem badCopies_cup : (badCopies s).cudex.cup = s.cudex.cup := by
  unfold badCopies
  refine forBelow_keeps (·.cudex.cup) _ _ _ fun c u => ?_
  unfold onlyIf
  split <;> simp
theorem bootFirmware_congr {t : State} (dev : t.dev = s.dev) (lib : t.lib = s.lib) :
    bootFirmware t = bootFirmware s := by
  unfold bootFirmware
  rw [dev, lib]

/-- The end of BOOT is a change of the mode alone. -/
theorem enterLoad_keeps {β : Type} (π : State → β) (dev : ∀ u, π (modDev (fun d => { d with base := .load }) u) = π u)
    (settle : ∀ c u, π (settleMode c u) = π u) : π (enterLoad s) = π s := by
  unfold enterLoad
  split
  · rw [settle, dev]
  · rfl

theorem enterLoad_base (h : s.dev.base = .boot) : (enterLoad s).dev.base = .boot ∨ (enterLoad s).dev.base = .load := by
  unfold enterLoad
  split
  · exact .inr (by simp)
  · exact .inl h

/-- Without an image that authenticates the ROM stays, in RECOVERY. -/
theorem authenticate_none (h : bootFirmware s = none) : (authenticate s).dev.base = .recovery ∧
    (authenticate s).dev.romService = true ∧ (authenticate s).cudex.cup = s.cudex.cup := by
  have chosen : bootFirmware (badCopies s) = none := (bootFirmware_congr badCopies_dev badCopies_lib).trans h
  rw [show @authenticate = _ by delta authenticate; rfl]
  have cup : (badCopies s).cudex.cup = s.cudex.cup := badCopies_cup
  generalize bootFirmware = choose at chosen ⊢
  generalize badCopies s = u at *
  as_aux_lemma =>
    dsimp only
    rw [chosen]
    simp [cup]

/-- The golden image runs in RECOVERY; another one leaves BOOT as `enterLoad` does. -/
theorem authenticate_some {k : Nat} (h : bootFirmware s = some k) (boot : s.dev.base = .boot) :
    (if k = 3 then (authenticate s).dev.base = .recovery
      else ((authenticate s).dev.base = .boot ∨ (authenticate s).dev.base = .load) ∧
        (authenticate s).dev.fwRunning = true) ∧
    (authenticate s).dev.fwImage = BitVec.ofNat 2 k ∧ (authenticate s).cudex.cup = .running := by
  have chosen : bootFirmware (badCopies s) = some k := (bootFirmware_congr badCopies_dev badCopies_lib).trans h
  have base : (badCopies s).dev.base = .boot := by rw [badCopies_dev, boot]
  rw [show @authenticate = _ by delta authenticate; rfl]
  generalize bootFirmware = choose at chosen ⊢
  generalize badCopies s = u at *
  as_aux_lemma =>
    obtain ⟨runBase, image⟩ := runFirmware_dev (s := u) k
    have cup := runFirmware_cup (s := u) k
    dsimp only
    rw [chosen]
    by_cases golden : k = 3
    · subst golden
      simp [image, cup]
    · simp only [golden, if_false]
      refine ⟨⟨enterLoad_base (by simp [runBase, base]), ?_⟩, ?_, ?_⟩
      · rw [enterLoad_keeps (·.dev.fwRunning) (by simp) (by simp)]
        rfl
      · rw [enterLoad_keeps (·.dev.fwImage) (by simp) (by simp)]
        simp [image]
      · rw [enterLoad_keeps (·.cudex.cup) (by simp) (by simp)]
        simp [cup]

/-- Without an image left the boot load ends in RECOVERY. -/
theorem bootLoad_nil (h : bootImages s = []) :
    bootLoad s = settleMode 0x14 (modDev (fun d => { d with base := .recovery }) s) := by
  unfold bootLoad
  rw [h]

theorem modeOf_recovery (base : s.dev.base = .recovery) (cool : s.dev.cooldown = false) : modeOf s = .recovery := by
  simp [modeOf, base, cool]

end

/-! ### The border isolation opens (R72) -/

section
variable (r : Nat) (c : IsoCause) (s : State)

/-- A cause that ends is gone from its own region alone. -/
theorem endCause_iso (k : Nat) : ((endCause r c s).region k).iso =
    if k = r then (s.region k).iso.filter (· != c) else (s.region k).iso := by
  rw [endCause, settleHold_region_keeps Region.iso fun _ _ _ => rfl]
  split
  next h =>
    subst h
    rw [modRegion_region]
  next h => rw [modRegion_region_ne _ _ _ _ h]

theorem endCause_dev : (endCause r c s).dev = s.dev :=
  settleHold_keeps State.dev (fun _ _ _ => rfl) (fun _ _ => rfl) (fun _ => rfl) r _

theorem openBorders_release : (openBorders s).dev.release = .isolationOpen := by
  unfold openBorders
  dsimp only
  rw [forBelow_dev _ _ _ fun k u => ?_]
  · simp
  · unfold onlyIf
    split
    · exact endCause_dev ..
    · rfl

theorem openBorders_iso (hr : r < 64) : IsoCause.boot ∉ ((openBorders s).region r).iso := by
  refine forEach_establishes (P := fun u => IsoCause.boot ∉ (u.region r).iso) (fun u => ?_) (fun k u h => ?_)
    (List.mem_range.mpr hr) _
  · unfold onlyIf
    split
    · rw [endCause_iso]
      simp
    next h => simpa using h
  · unfold onlyIf
    split
    · rw [endCause_iso]
      split
      · exact fun held => h (List.mem_filter.mp held).1
      · exact h
    · exact h

end

/-! ### The events -/

/-- Settles O4: nothing between the zero fill or the choice of an image and the end of its event shows the marks that
the clauses read (`State.startMarks`), and firmware that begins to run changes no mode. -/
theorem startUpCompletes : Obligations.StartUpCompletes := by
  intro s
  refine ⟨fun standby high waiting => ?_, fun standby locking => ?_, fun awake boot rom none => ?_,
    fun k awake boot rom some => ?_, fun work waits => ?_, fun f c work waits => ?_,
    fun awake load waits free reads none => ?_, fun code bs rest awake load waits free reads images => ?_,
    fun awake t0 => ?_, fun awake opened => ?_⟩
  · exact gives_occurs (by simp [standby, high, waiting]) (by simp)
  · apply gives_occurs
    · simp [standby, locking]
    · simp [standby, locking, startLock, beginSwitch, modSwitch, useFree]
  · apply gives_occurs
    · simp [awake, boot, rom]
    · simpa [rom] using authenticate_none none
  · apply gives_occurs
    · simp [awake, boot, rom]
    · simpa using authenticate_some some boot
  · apply gives_occurs
    · simp [work, waits]
    · have marks : (enterLoad (retryPage (modDev (fun d => { d with hbmReady := true }) s))).startMarks =
          (modDev (fun d => { d with hbmReady := true }) s).startMarks :=
        (enterLoad_keeps State.startMarks (by simp) (by simp)).trans startMarks_retryPage
      exact (committed_dev_hbmReady ..).trans (congrArg Prod.fst marks)
  · apply gives_occurs
    · simp [work, waits]
    · rw [committed_dev_sweepDone, startSweep, enterLoad_keeps (·.dev.sweepDone) (by simp) (by simp)]
      have noted (u : State) : (forBelow 64 noteSweep u).dev = u.dev :=
        forBelow_dev _ _ _ fun r v => by simp [noteSweep]
      rw [noted]
      rfl
  · apply gives_occurs
    · simp [awake, load, waits, free, reads]
    · have cool : s.dev.cooldown = false := by
        simp only [State.awake, Bool.and_eq_true, Bool.not_eq_true'] at awake
        exact awake.2
      rw [bootLoad_nil none]
      refine ⟨by simp, (committed_mode ..).trans ?_⟩
      rw [modeOf_settleMode]
      exact modeOf_recovery (by simp) (by simpa using cool)
  · apply gives_occurs
    · simp [awake, load, waits, free, reads]
    · rw [committed_lib]
      exact mem_bootTried_bootLoad images
  · apply gives_occurs
    · simp [awake, t0]
    · exact ⟨(committed_dev_release ..).trans (openBorders_release s), fun r hr => by
        rw [committed_region]
        exact openBorders_iso r s hr⟩
  · exact gives_occurs (by simp [awake, opened]) (by simp)

end Sys2Proof.Machine

/-! The look-up table and the signals that routing selects (O59): what each signal of a block is, one lemma per kind. -/

namespace Sys2Proof.Machine

/-! ### The look-up table and the carry chain (R79, R83) -/

theorem lutOut_of_whole {f : CellCfg} (hf : f.mode = .whole) (a : BitVec 6) :
    lutOut f a = (f.lut.getLsbD a.toNat, false) := by
  simp only [lutOut, hf]

/-- Both halves are addressed by `A1` to `A5`. -/
theorem lutOut_of_halves {f : CellCfg} (hf : f.mode = .split ∨ f.mode = .carry) (a : BitVec 6) :
    lutOut f a = (f.lut.getLsbD (32 + a.toNat % 32), f.lut.getLsbD (a.toNat % 32)) := by
  have low : (a.extractLsb' 0 5).toNat = a.toNat % 32 := by simp
  rcases hf with hf | hf <;> simp only [lutOut, hf, low]

theorem cellCarry_of_carry {f : CellCfg} (hf : f.mode = .carry) (s : State) (n : CellOut → Node) (a : BitVec 6)
    (bx by_ cin : Bool) :
    cellCarry s f n a bx by_ cin = carryOut2 (lutOut f a).2 (lutOut f a).1 bx by_ cin := by
  simp only [cellCarry, hf]

/-! ### Crossbars and switch boxes (R104, R107, R109) -/

theorem xoutValue_of_none {s : State} {x y : Nat} {o : XOut}
    (h : (s.region (regionAt x y)).now.use.xsel (regionAt x y) (blockAt x y) o = none) (rec : Node → Bool) :
    xoutValue s rec x y o = false := by
  simp only [xoutValue, h]

theorem xoutValue_of_some {s : State} {x y : Nat} {o : XOut} {i : XIn}
    (h : (s.region (regionAt x y)).now.use.xsel (regionAt x y) (blockAt x y) o = some i) (rec : Node → Bool) :
    xoutValue s rec x y o = rec (.xin x y i) := by
  simp only [xoutValue, h]

theorem boxValue_of_none {s : State} {x y : Nat} {o : BoxOut}
    (h : (s.region (regionAt x y)).now.use.bsel (blockAt x y) o = none) (rec : Node → Bool) :
    boxValue s rec x y o = false := by
  simp only [boxValue, h]

/-! ### Wires and the cells at a region's border (R105, R106, R121) -/

theorem wireValue_of_inside {w : Wire} {x y d x0 y0 : Nat} (near : d ≤ w.dir.inside x y)
    (start : w.dir.behind x y d = some (x0, y0)) (rec : Node → Bool) :
    wireValue rec x y w d = rec (if w.span.onDrag then .box x0 y0 (.wire w) else .xout x0 y0 (.wire w)) := by
  simp only [wireValue, near, start, if_true]

theorem wireValue_of_entered {w : Wire} {x y d x1 y1 : Nat} (far : w.dir.inside x y < d)
    (entry : w.dir.behind x y (w.dir.inside x y) = some (x1, y1)) (rec : Node → Bool) :
    wireValue rec x y w d = rec (.crossing x1 y1 w (d - w.dir.inside x y)) := by
  simp only [wireValue, Nat.not_le.mpr far, entry, if_false]

theorem crossingValue_of_held {s : State} {x y : Nat} {w : Wire} {back : Nat} (inner : w.dir.behind x y 1 ≠ none)
    (held : borderHeld s (regionAt x y) (.wire w back (w.dir.place x y)) = true) (rec : Node → Bool) :
    crossingValue s rec x y w back = (s.region (regionAt x y)).isoVals.contains (.wire w back (w.dir.place x y)) := by
  obtain ⟨c, hc⟩ := Option.ne_none_iff_exists'.mp inner
  simp only [crossingValue, hc, held, if_true]

theorem crossingValue_of_open {s : State} {x y : Nat} {w : Wire} {back x0 y0 : Nat}
    (source : w.dir.behind x y 1 = some (x0, y0))
    (open_ : borderHeld s (regionAt x y) (.wire w back (w.dir.place x y)) = false) (rec : Node → Bool) :
    crossingValue s rec x y w back = rec (.wire x0 y0 w (back - 1)) := by
  simp only [crossingValue, source, open_, Bool.false_eq_true, if_false]

/-! ### Spines and held flip-flops (R81, R115, R116) -/

theorem spineValue_of_dead {s : State} {r k : Nat} (dead : (s.region r).spineDead k = true) (rec : Node → Bool) :
    spineValue s rec r k = false := by
  simp only [spineValue, dead, Bool.not_true, Bool.false_and]

theorem ffOut_of_held {f : CellCfg} (hf : f.srAsync = true) (one stored : Bool) :
    ffOut f true one stored = if one then f.srVal1 else f.srVal0 := by
  simp only [ffOut, hf, Bool.and_self, if_true]

/-- Settles O59: each clause is the equation of the look-up table, of the carry chain or of one kind of signal. -/
theorem lookUpTableAndCarry : Obligations.LookUpTableAndCarry := by
  refine ⟨?lut, ?signals⟩
  case lut =>
    rintro s f n a bx by_ cin i j rfl rfl
    refine ⟨fun hf => lutOut_of_whole hf a, fun hf => lutOut_of_halves (.inl hf) a,
      fun hf => ⟨lutOut_of_halves (.inr hf) a, ?_⟩⟩
    rintro p0 p1 c1 terms rfl
    rw [cellCarry_of_carry hf, ← terms]
    rfl
  case signals =>
    rintro s rec x y r b u rfl rfl rfl
    refine ⟨fun o h => xoutValue_of_none h rec, fun o i h => xoutValue_of_some h rec,
      fun o h => boxValue_of_none h rec, fun w d x0 y0 near start => wireValue_of_inside near start rec,
      fun w d x1 y1 far entry => wireValue_of_entered far entry rec, ?_,
      fun w back x0 y0 source open_ => crossingValue_of_open source open_ rec,
      fun k dead => spineValue_of_dead dead rec, ?_⟩
    · rintro w back c rfl inner held
      exact crossingValue_of_held inner held rec
    · intro c async high
      have held (one stored : Bool) := ffOut_of_held async one stored
      simp only [nodeValue, cellOutValue, async, high, Bool.and_self, held]
      exact ⟨rfl, rfl⟩

end Sys2Proof.Machine

/-! Register accesses and an edge of a fabric clock (O47): the line of the device's state as it is read and written, what an
edge leaves at every cell, bridge register, engine and I/O, and the statement that puts them together. -/

namespace Sys2Proof.Machine

/-! ### A request to the device registers (R549) -/

theorem decodeAddr_regs_iff {a off : Nat} :
    decodeAddr a = .regs off ↔ 0x3000000000 ≤ a ∧ a < 0x3001000000 ∧ off = a - 0x3000000000 := by
  unfold decodeAddr
  repeat' split
  all_goals simp only [reduceCtorEq, Target.regs.injEq, false_iff]
  all_goals omega

/-- A request of one line whose line lies in the registers is a request to the registers, of that line alone. -/
theorem one_register_line {h : ReqHdr} {off : Nat} (one : h.len = 0) (line : decodeAddr (lineAddr h 0) = .regs off) :
    crosses h = false ∧ lineCount h = 1 ∧ decodeAddr h.addr.toNat = .regs (h.addr.toNat - 0x3000000000) := by
  have count : lineCount h = 1 := by simp [lineCount, one]
  obtain ⟨low, high, -⟩ := decodeAddr_regs_iff.mp line
  simp only [lineAddr] at low high
  refine ⟨?_, count, decodeAddr_regs_iff.mpr ⟨by omega, by omega, rfl⟩⟩
  simp only [crosses, count, lineAddr, decide_eq_false_iff_not]
  omega

/-- The registers lie behind no gate and no bank: the access is performed at once. -/
theorem checkAndPerform_regs {o : Outst} {s : State} {off : Nat} (whole : crosses o.hdr = false)
    (place : decodeAddr o.hdr.addr.toNat = .regs off)
    (right : rightTo s o.hdr.src (decide (o.op ≠ .read)) o.hdr.addr.toNat = .granted) (plain : o.op.atomic = false) :
    checkAndPerform o s = performAt o s := by
  rw [checkAndPerform_granted whole (by simp [place]) right (by simp [plain])]
  simp [passGate, place, dragRegion]

/-- The line of the device's state leaves no pop. -/
theorem leavesPop_state {h : ReqHdr} {off : Nat} (count : lineCount h = 1) (line : decodeAddr (lineAddr h 0) = .regs off)
    (state : regLine off = .state) : leavesPop h = false := by
  simp [leavesPop, count, line, state, List.range_succ]

theorem readBurst_state {h : ReqHdr} {off mid : Nat} {s : State} (count : lineCount h = 1)
    (line : decodeAddr (lineAddr h 0) = .regs off) (state : regLine off = .state) (low : h.addr.toNat % 64 = 8) :
    readBurst mid h s = (s, [⟨0, stateRegsLine s⟩]) := by
  have noLatch : highWordRead h s = none := if_neg fun k => by omega
  simp [readBurst, count, readLines, readLine, line, regRead, state, noLatch, rcOk]

/-- The read of the state's line is answered with it, and changes nothing. -/
theorem state_read {s : State} {h : ReqHdr} {off : Nat} (one : h.len = 0) (line : decodeAddr (lineAddr h 0) = .regs off)
    (state : regLine off = .state) (low : h.addr.toNat % 64 = 8) (right : rightTo s h.src false h.addr.toNat = .granted) :
    checkAndPerform (newOutst h .read [] s) s = (s, { newOutst h .read [] s with resp := some [⟨0, stateRegsLine s⟩] }) := by
  obtain ⟨whole, count, place⟩ := one_register_line one line
  rw [checkAndPerform_regs (o := newOutst h .read [] s) whole place right rfl]
  simp [performAt, newOutst, place, ingotPlace, leavesPop_state count line state, readBurst_state count line state low]

/-- The low word's read answers the line and latches the high word (R139, Table 6.2). -/
theorem tickNumberLowRead_latches {s : State} {h : ReqHdr} (may : mayTakeReq s h .read [] = true)
    (lines : inRegLines h (fun l => decide (l = .state)) = true) (low : h.addr.toNat % 64 = 8)
    (right : rightTo s h.src false h.addr.toNat = .granted) (one : h.len = 0) :
    Gives (.tickNumberLowRead h) s (fun t => t.tick.latched = some (s.tick.number.extractLsb' 32 32) ∧
      ∃ o, t.outst h.src h.tag = some o ∧ o.resp = some [⟨0, stateRegsLine s⟩]) := by
  obtain ⟨off, line, state⟩ : ∃ off, decodeAddr (lineAddr h 0) = .regs off ∧ regLine off = .state := by
    simp only [inRegLines, List.all_eq_true, List.mem_range] at lines
    have first := lines 0 (Nat.succ_pos _)
    split at first
    next off line => exact ⟨off, line, of_decide_eq_true first⟩
    next => cases first
  obtain ⟨-, -, place⟩ := one_register_line one line
  have issued := issueRequest_of_notRiser (state_read one line state low right) rfl (by simp [place])
  show ∃ t, execTickNumberLowRead h s = .next t ∧ _
  refine gives_occurs (by simp [may, lines, low]) ?_
  rw [decide_eq_true right, onlyIf_true, issued]
  refine ⟨by simp [latchTick, pushOutst, modRunner, modTick],
    { newOutst h .read [] s with resp := some [⟨0, stateRegsLine s⟩] }, ?_, rfl⟩
  rw [outst_eq_of_runner (committed_runner s _)]
  exact outst_pushOutst (o := { newOutst h .read [] s with resp := some [⟨0, stateRegsLine s⟩] })
    (free_of_mayTakeReq may) rfl

/-! ### A write of the state's line -/

theorem rightTo_regs_of_engine {s : State} {e : Fin 2048} {a off : Nat} {wr : Bool} (place : decodeAddr a = .regs off) :
    rightTo s (.dsp e) wr a = .refused := by
  unfold rightTo
  rw [place]
  rfl

/-- No engine has a right to the registers, so a write that has it brings its own data. -/
theorem withLines_of_right {s : State} {h : ReqHdr} {op : RunOp} {lines : List WLine} {off : Nat} {wr : Bool}
    (place : decodeAddr h.addr.toNat = .regs off) (right : rightTo s h.src wr h.addr.toNat = .granted) :
    withLines h op lines s = (s, lines) := by
  unfold withLines
  split
  next e hsrc =>
    rw [hsrc, rightTo_regs_of_engine place] at right
    cases right
  next => rfl

theorem stateRegsWrite_disabled (data : Line) (s : State) : stateRegsWrite data 0 s = s := by
  simp [stateRegsWrite, onlyIf]

theorem writeLines_state {h : ReqHdr} {off mid : Nat} {s : State} {data : Line} {be : BitVec 64}
    (line : decodeAddr (lineAddr h 0) = .regs off) (state : regLine off = .state) :
    writeLines mid h [(data, be)] 0 s rcOk = (stateRegsWrite data be s, rcOk) := by
  by_cases none : be = 0
  · subst none
    rw [stateRegsWrite_disabled]
    simp [writeLines, writeLine]
  · simp only [writeLines, writeLine, if_neg none, line, regWrite, state, if_true]

theorem state_write {s : State} {h : ReqHdr} {off : Nat} {data : Line} {be : BitVec 64} (one : h.len = 0)
    (line : decodeAddr (lineAddr h 0) = .regs off) (state : regLine off = .state)
    (right : rightTo s h.src true h.addr.toNat = .granted) :
    checkAndPerform (newOutst h .write [(data, be)] s) s =
      (stateRegsWrite data be s, answerAll rcOk (newOutst h .write [(data, be)] s)) := by
  obtain ⟨whole, -, place⟩ := one_register_line one line
  rw [checkAndPerform_regs (o := newOutst h .write [(data, be)] s) whole place right rfl]
  simp [performAt, newOutst, place, ingotPlace, writeLines_state line state, answerAll, flatResp, owed]

/-- The fields of the state's line that a write reaches (R549, R139, Tables 16.7 and 19.1). -/
theorem stateRegsWrite_fields (data : Line) (be : BitVec 64) (s : State) :
    (stateRegsWrite data be s).clk.forced = (s.clk.forced && !(be.getLsbD 0x18 && data.getLsbD 0xC3)) ∧
    (stateRegsWrite data be s).clk.lost = (if be.getLsbD 0x18 then data.getLsbD 0xC2 else s.clk.lost) ∧
    (stateRegsWrite data be s).cudex.restarts =
      (if be.getLsbD 0x2A then (byteOf data 0x2A).toNat else s.cudex.restarts) := by
  simp only [stateRegsWrite]
  generalize be.getLsbD 0x18 = clk, be.getLsbD 0x2A = cup
  cases clk <;> cases cup <;> simp [onlyIf, modClk, modCudex]

theorem registerWrite_sets {s u : State} {h : ReqHdr} {w : WLine} {data : Line} {be : BitVec 64} {off : Nat}
    (may : mayTakeReq s h .write [w] = true) (taken : withLines h .write [w] s = (u, [(data, be)]))
    (right : rightTo s h.src true h.addr.toNat = .granted) (line : decodeAddr (lineAddr h 0) = .regs off)
    (state : regLine off = .state) :
    Gives (.registerWrite h [w]) s (fun t =>
      t.clk.forced = (s.clk.forced && !(be.getLsbD 0x18 && data.getLsbD 0xC3)) ∧
      t.clk.lost = (if be.getLsbD 0x18 then data.getLsbD 0xC2 else s.clk.lost) ∧
      t.cudex.restarts = (if be.getLsbD 0x2A then (byteOf data 0x2A).toNat else s.cudex.restarts) ∧
      ∃ o, t.outst h.src h.tag = some o ∧ o.resp = some [⟨0, 0⟩]) := by
  have one : h.len = 0 := by
    simp [mayTakeReq, linesOk, lineCount] at may
    exact may.2
  obtain ⟨-, count, place⟩ := one_register_line one line
  obtain ⟨rfl, rfl⟩ : s = u ∧ w = (data, be) := by
    simpa [withLines_of_right place right] using taken
  have inLines : inRegLines h (fun _ => true) = true := by simp [inRegLines, count, line, List.range_succ]
  have issued : issueLocal h [(data, be)] s =
      pushOutst (answerAll rcOk (newOutst h .write [(data, be)] s)) (stateRegsWrite data be s) := by
    rw [issueLocal, taken]
    exact issueRequest_of_notRiser (state_write one line state right) rfl (by simp [place])
  obtain ⟨forced, lost, restarts⟩ := stateRegsWrite_fields data be s
  show ∃ t, execRegisterWrite h [(data, be)] s = .next t ∧ _
  refine gives_occurs (by simp [may, inLines]) ?_
  rw [issued]
  refine ⟨by simpa [pushOutst, modRunner] using forced, by simpa [pushOutst, modRunner] using lost,
    by simpa [pushOutst, modRunner] using restarts, answerAll rcOk (newOutst h .write [(data, be)] s), ?_, rfl⟩
  have runner : (stateRegsWrite data be s).runner = s.runner :=
    (same_stateRegsWrite (part := .runner) (by decide) data be).mpr rfl
  rw [outst_eq_of_runner (committed_runner s _)]
  exact outst_pushOutst (o := answerAll rcOk (newOutst h .write [(data, be)] s))
    ((outst_eq_of_runner runner _ _).trans (free_of_mayTakeReq may)) rfl

/-! ### Tables and planes -/

/-- What a table answers is an entry of it, or its default. -/
theorem mem_of_tget_ne {α : Type} {d : α} {t : Table α} {k : Nat} (h : tget d t k ≠ d) : (k, tget d t k) ∈ t := by
  induction t with
  | nil => exact absurd rfl h
  | cons e t ih =>
    obtain ⟨j, v⟩ := e
    by_cases hj : j = k
    · subst hj
      simp [tget]
    · simp only [tget, if_neg hj] at h ⊢
      exact List.mem_cons_of_mem _ (ih h)

/-- An entry of a table that was set is the one that was put, or an earlier one. -/
theorem mem_tset {α : Type} [DecidableEq α] {d : α} {t : Table α} {k : Nat} {v : α} {e : Nat × α} (h : e ∈ tset d t k v) :
    e = (k, v) ∨ e ∈ t := by
  unfold tset at h
  split at h
  · exact .inr (List.mem_filter.mp h).1
  · exact mem_tins h

@[simp] theorem modPlane_plane_same (x : Region) (p : Nat) (f : Plane → Plane) :
    (x.modPlane p f).plane p = f (x.plane p) :=
  match p with
  | 0 | 1 | 2 | _ + 3 => rfl

@[simp] theorem modPlane_active (x : Region) (p : Nat) (f : Plane → Plane) : (x.modPlane p f).active = x.active :=
  modPlane_keeps Region.active (fun _ _ _ _ _ => rfl) x p f

@[simp] theorem modPlane_now (x : Region) (f : Plane → Plane) : (x.modPlane x.active f).now = f x.now := by
  simp [Region.now]

theorem modPlane_modPlane (x : Region) (p : Nat) (f g : Plane → Plane) :
    (x.modPlane p f).modPlane p g = x.modPlane p (g ∘ f) :=
  match p with
  | 0 | 1 | 2 | _ + 3 => rfl

/-! ### Flip-flops that an asynchronous `SR` holds (R81) -/

/-- A region without the flip-flops of its active plane. -/
def Region.bare (x : Region) : Region := x.modPlane x.active (fun p => { p with ff := [] })

/-- What no plane holds shows in the region without its flip-flops. -/
theorem bare_keeps {β : Type} (π : Region → β)
    (h : ∀ x a b c d, π { x with plane0 := a, plane1 := b, plane2 := c, plane3 := d } = π x) (x : Region) :
    π x.bare = π x :=
  modPlane_keeps π h x _ _

theorem bare_use (x : Region) : x.bare.now.use = x.now.use := by simp [Region.bare]

theorem bare_modPlane (x : Region) (ff : Plane → Table Bool) :
    (x.modPlane x.active (fun p => { p with ff := ff p })).bare = x.bare := by
  simp only [Region.bare, modPlane_active, modPlane_modPlane]
  rfl

/-- The flip-flops of cells that are held, at their set/reset values. -/
def holdCells (held : List (Nat × CellCfg)) (ff : Table Bool) : Table Bool :=
  held.foldl (fun t e => tset false (tset false t (2 * e.1) e.2.srVal0) (2 * e.1 + 1) e.2.srVal1) ff

/-- The value at which a flip-flop of a cell is held. -/
def CellCfg.srVal (f : CellCfg) (one : Bool) : Bool := if one then f.srVal1 else f.srVal0

/-- Setting both flip-flops of a cell leaves those of the others. -/
theorem tget_setPair (t : Table Bool) (k c : Nat) (v0 v1 one : Bool) :
    tget false (tset false (tset false t (2 * k) v0) (2 * k + 1) v1) (2 * c + bit one) =
      if c = k then (if one then v1 else v0) else tget false t (2 * c + bit one) := by
  by_cases hc : c = k
  · subst hc
    cases one
    · rw [tget_tset_ne _ _ _ _ _ (by simp [bit])]
      simp [bit]
    · simp [bit]
  · have small : bit one ≤ 1 := by cases one <;> simp [bit]
    rw [if_neg hc, tget_tset_ne _ _ _ _ _ (by omega), tget_tset_ne _ _ _ _ _ (by omega)]

/-- A flip-flop of a held cell has a set/reset value, every other keeps its value. -/
theorem tget_holdCells (held : List (Nat × CellCfg)) (ff : Table Bool) (c : Nat) (one : Bool) :
    tget false (holdCells held ff) (2 * c + bit one) = tget false ff (2 * c + bit one) ∨
      ∃ e ∈ held, e.1 = c ∧ tget false (holdCells held ff) (2 * c + bit one) = e.2.srVal one := by
  induction held generalizing ff with
  | nil => exact .inl rfl
  | cons e held ih =>
    rcases ih (tset false (tset false ff (2 * e.1) e.2.srVal0) (2 * e.1 + 1) e.2.srVal1) with kept | ⟨x, hx, own, held⟩
    · rw [tget_setPair] at kept
      by_cases hc : c = e.1
      · exact .inr ⟨e, List.mem_cons_self .., hc.symm, kept.trans (if_pos hc)⟩
      · exact .inl (kept.trans (if_neg hc))
    · exact .inr ⟨x, List.mem_cons_of_mem _ hx, own, held⟩

/-- `y` is `x` with flip-flops of cells that have an asynchronous `SR` put to their set/reset values. -/
def Held (x y : Region) : Prop :=
  y.bare = x.bare ∧ ∀ c one, tget false y.now.ff (2 * c + bit one) = tget false x.now.ff (2 * c + bit one) ∨
    ∃ e ∈ x.now.use.cells, e.1 = c ∧ e.2.srAsync = true ∧ tget false y.now.ff (2 * c + bit one) = e.2.srVal one

theorem Held.refl (x : Region) : Held x x := ⟨rfl, fun _ _ => .inl rfl⟩

theorem Held.use {x y : Region} (h : Held x y) : y.now.use = x.now.use := by
  rw [← bare_use, h.1, bare_use]

theorem Held.trans {x y z : Region} (hxy : Held x y) (hyz : Held y z) : Held x z := by
  refine ⟨hyz.1.trans hxy.1, fun c one => ?_⟩
  rcases hyz.2 c one with kept | held
  · rw [kept]
    exact hxy.2 c one
  · rw [hxy.use] at held
    exact .inr held

theorem held_settleSr (k r : Nat) (s : State) : Held (s.region k) ((settleSr r s).region k) := by
  simp only [settleSr]
  split
  · exact .refl _
  · by_cases hk : k = r
    · subst hk
      rw [modRegion_region]
      generalize hheld : List.filter _ (List.filter _ (s.region k).now.use.cells) = held
      refine ⟨bare_modPlane (s.region k) (fun p => holdCells held p.ff), fun c one => ?_⟩
      rw [modPlane_now]
      refine (tget_holdCells held (s.region k).now.ff c one).imp_right ?_
      rintro ⟨e, he, own, value⟩
      rw [← hheld, List.mem_filter, List.mem_filter] at he
      exact ⟨e, he.1.1, own, he.1.2, value⟩
    · rw [modRegion_region_ne _ _ _ _ hk]
      exact .refl _

theorem held_settleAll (k n : Nat) (s : State) : Held (s.region k) ((forBelow n settleSr s).region k) :=
  List.foldlRecOn (List.range n) (fun t i => settleSr i t) (motive := fun t => Held (s.region k) (t.region k)) (.refl _)
    fun t ht i _ => ht.trans (held_settleSr k i t)

/-! ### The region at an edge (R80, R85, R93) -/

/-- LUT-RAM cells that are written at the edge. -/
def ramCells (s : State) (r : Nat) : List Nat :=
  let u := (s.region r).now.use
  (liveCells u).filter (fun c =>
    decide ((u.cell c).mode = .ram) && cellCe (u.cell c) (pinsOf s r c) && delivers s r (c / 32))

/-- A LUT-RAM write of a cell, with the values at its pins before the edge. -/
def ramWrite (s : State) (r : Nat) (p : Plane) (c : Nat) : Plane := lutWrite c (pinsOf s r c).a (pinsOf s r c).bx p

/-- The flip-flops of a region's cells after the edge, before an asynchronous `SR` holds any. -/
def edgeFf (s : State) (r : Nat) : Table Bool :=
  (liveCells (s.region r).now.use).foldl (fun t c => captureFf s r c t) (s.region r).now.ff

/-- A plane after the edge. -/
def edgePlane (s : State) (r : Nat) (p : Plane) : Plane := (ramCells s r).foldl (ramWrite s r) { p with ff := edgeFf s r }

/-- The region whose fabric clock has had an edge. -/
def edgeRegion (s : State) (r : Nat) (i : FabricInputs) (x : Region) : Region :=
  crcEdge (portWord s r .crc 5 3) i
    { captureCells s r x.portEdge with slotPins := slotPinsOf s r, spineOff := 0, ups := i.ports }

theorem captureCells_eq (s : State) (r : Nat) (x : Region) :
    captureCells s r x = { x.modPlane x.active (edgePlane s r) with
      brg := (bridgeWrites s r).foldl (fun t w => tset 0 t (16 * w.1 + w.2) (bridgeValue s r w.1)) x.brg } := rfl

theorem edgeRegion_active (s : State) (r : Nat) (i : FabricInputs) (x : Region) :
    (edgeRegion s r i x).active = x.active :=
  modPlane_active x.portEdge x.active (edgePlane s r)

theorem edgeRegion_now (s : State) (r : Nat) (i : FabricInputs) (x : Region) :
    (edgeRegion s r i x).now = edgePlane s r x.now := by
  rw [Region.now, edgeRegion_active]
  exact modPlane_plane_same x.portEdge x.active (edgePlane s r)

theorem edgeRegion_deferred (s : State) (r : Nat) (i : FabricInputs) (x : Region) :
    (edgeRegion s r i x).deferred = x.deferred :=
  modPlane_keeps Region.deferred (fun _ _ _ _ _ => rfl) x.portEdge x.active (edgePlane s r)

/-! ### LUT-RAM (R85) -/

theorem ramWrite_cell (s : State) (r : Nat) (p : Plane) (c : Nat) :
    (ramWrite s r p c).use.cell c = { p.use.cell c with
      lut := if (pinsOf s r c).bx then (p.use.cell c).lut ||| BitVec.ofNat 64 (2 ^ (pinsOf s r c).a.toNat)
        else (p.use.cell c).lut &&& ~~~BitVec.ofNat 64 (2 ^ (pinsOf s r c).a.toNat) } :=
  tget_tset_same _ _ _ _

theorem ramWrite_cell_ne {c k : Nat} (h : k ≠ c) (s : State) (r : Nat) (p : Plane) :
    (ramWrite s r p c).use.cell k = p.use.cell k :=
  tget_tset_ne _ _ _ _ _ h

theorem ramWrite_lut (s : State) (r : Nat) (p : Plane) (c : Nat) :
    ((ramWrite s r p c).use.cell c).lut.getLsbD (pinsOf s r c).a.toNat = (pinsOf s r c).bx := by
  have bound : (pinsOf s r c).a.toNat < 64 := (pinsOf s r c).a.isLt
  have mask : (BitVec.ofNat 64 (2 ^ (pinsOf s r c).a.toNat)).getLsbD (pinsOf s r c).a.toNat = true := by
    rw [BitVec.getLsbD_ofNat, Nat.testBit_two_pow_self, decide_eq_true bound]
    rfl
  rw [ramWrite_cell]
  cases (pinsOf s r c).bx
  · simp only [Bool.false_eq_true, if_false, BitVec.getLsbD_and, BitVec.getLsbD_not, mask, Bool.not_true, Bool.and_false]
  · simp only [if_true, BitVec.getLsbD_or, mask, Bool.or_true]

theorem edgePlane_lut {s : State} {r c : Nat} (written : c ∈ ramCells s r) (p : Plane) :
    ((edgePlane s r p).use.cell c).lut.getLsbD (pinsOf s r c).a.toNat = (pinsOf s r c).bx := by
  refine foldl_establishes (P := fun p => (p.use.cell c).lut.getLsbD (pinsOf s r c).a.toNat = (pinsOf s r c).bx) written
    (fun p => ramWrite_lut s r p c) (fun p hp k _ => ?_) _
  by_cases hk : c = k
  · subst hk
    exact ramWrite_lut s r p c
  · rw [ramWrite_cell_ne hk]
    exact hp

/-- A cell that is configured has its clock enable or its mode from an entry of the plane. -/
theorem mem_liveCells_of_cell {u : PlaneUse} {c : Nat} (h : u.cell c ≠ {}) : c ∈ liveCells u := by
  simp only [liveCells, List.mem_eraseDups, List.mem_append]
  exact .inl (List.mem_map.mpr ⟨_, mem_of_tget_ne h, rfl⟩)

theorem mem_ramCells {s : State} {r c : Nat} (ram : ((s.region r).now.use.cell c).mode = .ram)
    (ce : cellCe ((s.region r).now.use.cell c) (pinsOf s r c) = true) (clocked : delivers s r (c / 32) = true) :
    c ∈ ramCells s r := by
  have live : c ∈ liveCells (s.region r).now.use := mem_liveCells_of_cell fun rest => by
    rw [rest] at ram
    cases ram
  simp [ramCells, live, ram, ce, clocked]

/-! ### Cells that are held come from the plane -/

/-- Every cell of `t'` with an asynchronous `SR` is one of `t`, with its set/reset values. -/
def AsyncFrom (t t' : Table CellCfg) : Prop :=
  ∀ e ∈ t', e.2.srAsync = true → ∃ e₀ ∈ t, e₀.1 = e.1 ∧ e₀.2.srAsync = true ∧ ∀ one, e₀.2.srVal one = e.2.srVal one

theorem ramWrite_async (s : State) (r : Nat) (p : Plane) (c : Nat) : AsyncFrom p.use.cells (ramWrite s r p c).use.cells := by
  intro e he async
  rcases mem_tset he with rfl | old
  · have own : (p.use.cell c).srAsync = true := async
    have named : p.use.cell c ≠ {} := fun rest => by
      rw [rest] at own
      cases own
    exact ⟨_, mem_of_tget_ne named, rfl, own, fun _ => rfl⟩
  · exact ⟨e, old, rfl, async, fun _ => rfl⟩

theorem edgePlane_async (s : State) (r : Nat) (p : Plane) : AsyncFrom p.use.cells (edgePlane s r p).use.cells := by
  refine List.foldlRecOn (ramCells s r) (ramWrite s r) (b := { p with ff := edgeFf s r })
    (motive := fun q => AsyncFrom p.use.cells q.use.cells) (fun e he async => ⟨e, he, rfl, async, fun _ => rfl⟩) fun q hq c _ e he async => ?_
  obtain ⟨e₁, he₁, own₁, async₁, value₁⟩ := ramWrite_async s r q c e he async
  obtain ⟨e₀, he₀, own₀, async₀, value₀⟩ := hq e₁ he₁ async₁
  exact ⟨e₀, he₀, own₀.trans own₁, async₀, fun one => (value₀ one).trans (value₁ one)⟩

/-! ### Flip-flops (R80) -/

/-- What a flip-flop of a cell captures at the edge. -/
def capturedFf (s : State) (r c : Nat) (one : Bool) : Bool :=
  let x := s.region r
  ffNext (x.now.use.cell c) (pinsOf s r c) (cellSignal s r c) (delivers s r (c / 32)) one
    (tget false x.now.ff (2 * c + bit one))

theorem tget_captureFf (s : State) (r k c : Nat) (one : Bool) (ff : Table Bool) :
    tget false (captureFf s r k ff) (2 * c + bit one) =
      if c = k then capturedFf s r k one else tget false ff (2 * c + bit one) := by
  refine (tget_setPair ff k c (capturedFf s r k false) (capturedFf s r k true) one).trans ?_
  cases one <;> rfl

theorem edgePlane_ff (s : State) (r : Nat) (p : Plane) : (edgePlane s r p).ff = edgeFf s r :=
  foldl_keeps Plane.ff (f := ramWrite s r) (fun _ _ => rfl) (ramCells s r) { p with ff := edgeFf s r }

theorem edgeFf_of_live {s : State} {r c : Nat} (live : c ∈ liveCells (s.region r).now.use) (one : Bool) :
    tget false (edgeFf s r) (2 * c + bit one) = capturedFf s r c one := by
  refine foldl_establishes (f := fun t c => captureFf s r c t)
    (P := fun t => tget false t (2 * c + bit one) = capturedFf s r c one) live (fun t => ?_) (fun t ht k _ => ?_) _
  · rw [tget_captureFf, if_pos rfl]
  · rw [tget_captureFf]
    split
    next hk => rw [hk]
    next => exact ht

theorem edgeFf_of_still {s : State} {r c : Nat} (still : c ∉ liveCells (s.region r).now.use) (one : Bool) :
    tget false (edgeFf s r) (2 * c + bit one) = tget false (s.region r).now.ff (2 * c + bit one) :=
  List.foldlRecOn _ (fun t k => captureFf s r k t)
    (motive := fun t => tget false t (2 * c + bit one) = tget false (s.region r).now.ff (2 * c + bit one)) rfl
    fun t ht k hk => by
      rw [tget_captureFf, if_neg fun own : c = k => still (own ▸ hk)]
      exact ht

theorem signal_eq (s : State) (n : Node) : ∃ rec, signal s n = nodeValue s rec n := by
  obtain ⟨fuel, hfuel⟩ : ∃ fuel, 2 ^ 40 = fuel + 1 := ⟨2 ^ 40 - 1, by norm_num⟩
  exact ⟨signalIn s fuel [n], by simp [signal, hfuel, signalIn]⟩

theorem regionAt_block {r b : Nat} (hb : b < 2048) : regionAt (blockX r b) (blockY r b) = r := by
  simp only [regionAt, blockX, blockY]
  omega

theorem blockAt_block {r b : Nat} (hb : b < 2048) : blockAt (blockX r b) (blockY r b) = b := by
  simp only [blockAt, blockX, blockY]
  omega

/-- A pin that the plane's crossbars do not drive is 0 (R104). -/
theorem pin_of_still {s : State} {r c : Nat} (hc : c < 65536) (still : c ∉ liveCells (s.region r).now.use)
    (pin : CellPin) : xout s r (c / 32) (.pin (c % 32) pin) = false := by
  obtain ⟨rec, value⟩ := signal_eq s (.xout (blockX r (c / 32)) (blockY r (c / 32)) (.pin (c % 32) pin))
  have none : (s.region r).now.use.xsel r (c / 32) (.pin (c % 32) pin) = none := by
    have driven : (s.region r).now.use.xbar.find? (fun e => e.1 == c / 32 && e.2.1 == .pin (c % 32) pin) = none := by
      rw [List.find?_eq_none]
      intro e he own
      simp only [Bool.and_eq_true, beq_iff_eq] at own
      refine still ?_
      simp only [liveCells, List.mem_eraseDups, List.mem_append, List.mem_filterMap]
      refine .inr ⟨e, he, ?_⟩
      rw [own.1, own.2]
      exact congrArg some (by omega)
    rw [PlaneUse.xsel, driven]
  have block : c / 32 < 2048 := by omega
  rw [xout, value]
  refine xoutValue_of_none ?_ rec
  rw [regionAt_block block, blockAt_block block]
  exact none

/-- A cell that the plane neither configures nor drives captures what it holds. -/
theorem capturedFf_of_still {s : State} {r c : Nat} (hc : c < 65536)
    (still : c ∉ liveCells (s.region r).now.use) (one : Bool) :
    capturedFf s r c one = tget false (s.region r).now.ff (2 * c + bit one) := by
  have rest : (s.region r).now.use.cell c = {} := not_not.mp fun named => still (mem_liveCells_of_cell named)
  have pins : (pinsOf s r c).sr = false ∧ (pinsOf s r c).ce = false :=
    ⟨pin_of_still hc still .sr, pin_of_still hc still .ce⟩
  simp [capturedFf, ffNext, cellCe, rest, pins]

/-- Every flip-flop has what it captures. -/
theorem tget_edgeFf {s : State} {r c : Nat} (hc : c < 65536) (one : Bool) :
    tget false (edgeFf s r) (2 * c + bit one) = capturedFf s r c one := by
  by_cases live : c ∈ liveCells (s.region r).now.use
  · exact edgeFf_of_live live one
  · rw [edgeFf_of_still live, capturedFf_of_still hc live]

/-! ### Bridge registers (R93) -/

/-- The bridge registers after the edge. -/
def edgeBrg (s : State) (r : Nat) (brg : Table (BitVec 32)) : Table (BitVec 32) :=
  (bridgeWrites s r).foldl (fun t w => tset 0 t (16 * w.1 + w.2) (bridgeValue s r w.1)) brg

theorem edgeRegion_brg (s : State) (r : Nat) (i : FabricInputs) (x : Region) :
    (edgeRegion s r i x).brg = edgeBrg s r x.brg := rfl

theorem edgeBrg_of_written {s : State} {r b j : Nat} (written : (b, j) ∈ bridgeWrites s r)
    (alone : ∀ w ∈ bridgeWrites s r, 16 * w.1 + w.2 = 16 * b + j → w = (b, j)) (brg : Table (BitVec 32)) :
    tget 0 (edgeBrg s r brg) (16 * b + j) = bridgeValue s r b := by
  refine foldl_establishes (P := fun t => tget 0 t (16 * b + j) = bridgeValue s r b) written (fun t => tget_tset_same ..)
    (fun t ht w hw => ?_) _
  by_cases own : 16 * w.1 + w.2 = 16 * b + j
  · rw [alone w hw own]
    exact tget_tset_same ..
  · rw [tget_tset_ne _ _ _ _ _ (Ne.symm own)]
    exact ht

theorem edgeBrg_of_unwritten {s : State} {r n : Nat} (unwritten : ∀ w ∈ bridgeWrites s r, 16 * w.1 + w.2 ≠ n)
    (brg : Table (BitVec 32)) : tget 0 (edgeBrg s r brg) n = tget 0 brg n :=
  List.foldlRecOn _ _ (motive := fun t => tget 0 t n = tget 0 brg n) rfl fun t ht w hw => by
    rw [tget_tset_ne _ _ _ _ _ (Ne.symm (unwritten w hw))]
    exact ht

/-! ### The I/O of a bank (R510, R511) -/

/-- The capture of I/O `k` of bank `r`, `s` being the state before the edge. -/
def captureOne (r : Nat) (i : FabricInputs) (s : State) (k : Nat) (t : State) : State :=
  if isComplement t (48 * r + k) then t
  else modGpio (48 * r + k) (captureGpio (s.region r).isoHold (decide (s.dev.release = .done)) (i.rise.getLsbD k)
    (i.fall.getLsbD k) (portDown s r (.gpio k))) t

/-- I/O `k` of bank `r` after the edge. -/
def capturedOne (r : Nat) (i : FabricInputs) (s : State) (k : Nat) : Gpio :=
  if isComplement s (48 * r + k) then s.gpioOf (48 * r + k)
  else captureGpio (s.region r).isoHold (decide (s.dev.release = .done)) (i.rise.getLsbD k) (i.fall.getLsbD k)
    (portDown s r (.gpio k)) (s.gpioOf (48 * r + k))

theorem captureGpio_std (hold enabled rise fall : Bool) (o : Nat → Bool) (g : Gpio) :
    (captureGpio hold enabled rise fall o g).std = g.std := by
  cases hold <;> rfl

theorem capturedOne_std (r : Nat) (i : FabricInputs) (s : State) (k : Nat) :
    (capturedOne r i s k).std = (s.gpioOf (48 * r + k)).std := by
  unfold capturedOne
  split
  · rfl
  · exact captureGpio_std ..

theorem isComplement_congr {s t : State} (h : ∀ m, (t.gpioOf m).std = (s.gpioOf m).std) (n : Nat) :
    isComplement t n = isComplement s n := by
  simp only [isComplement, h]

theorem captureOne_same {r k : Nat} {i : FabricInputs} {s t : State} (std : ∀ m, (t.gpioOf m).std = (s.gpioOf m).std)
    (own : t.gpioOf (48 * r + k) = s.gpioOf (48 * r + k)) :
    (captureOne r i s k t).gpioOf (48 * r + k) = capturedOne r i s k := by
  simp only [captureOne, capturedOne, isComplement_congr std]
  split
  · exact own
  · rw [modGpio_gpioOf, own]

theorem captureOne_other {r k m : Nat} (h : m ≠ 48 * r + k) (i : FabricInputs) (s t : State) :
    (captureOne r i s k t).gpioOf m = t.gpioOf m := by
  unfold captureOne
  split
  · rfl
  · exact modGpio_gpioOf_ne _ _ _ _ h

/-- The first `n` I/O of the bank have captured, every other is as it was. -/
theorem captureFirst {r : Nat} {i : FabricInputs} {s t : State} (start : t.io = s.io) (n : Nat) :
    (∀ k < n, (forBelow n (captureOne r i s) t).gpioOf (48 * r + k) = capturedOne r i s k) ∧
      ∀ m, (∀ k < n, m ≠ 48 * r + k) → (forBelow n (captureOne r i s) t).gpioOf m = s.gpioOf m := by
  induction n with
  | zero =>
    refine ⟨fun k hk => absurd hk (Nat.not_lt_zero k), fun m _ => ?_⟩
    show t.gpioOf m = _
    rw [State.gpioOf, start]
    rfl
  | succ n ih =>
    obtain ⟨captured, left⟩ := ih
    have step : forBelow (n + 1) (captureOne r i s) t = captureOne r i s n (forBelow n (captureOne r i s) t) := by
      simp [forBelow, List.range_succ]
    rw [step]
    generalize forBelow n (captureOne r i s) t = u at captured left
    have std (m : Nat) : (u.gpioOf m).std = (s.gpioOf m).std := by
      by_cases hm : ∃ k < n, m = 48 * r + k
      · obtain ⟨k, hk, rfl⟩ := hm
        rw [captured k hk, capturedOne_std]
      · rw [left m fun k hk own => hm ⟨k, hk, own⟩]
    constructor
    · intro k hk
      by_cases own : k = n
      · subst own
        exact captureOne_same std (left _ fun j hj => by omega)
      · rw [captureOne_other (by omega)]
        exact captured k (by omega)
    · intro m hm
      rw [captureOne_other (hm n (by omega))]
      exact left m fun k hk => hm k (by omega)

theorem captureBank_eq (r : Nat) (i : FabricInputs) (s t : State) :
    captureBank r i s t = onlyIf (classB r) (forBelow 48 (captureOne r i s)) t := rfl

theorem captureBank_gpio {r k : Nat} {i : FabricInputs} {s t : State} (bank : classB r = true) (hk : k < 48)
    (start : t.io = s.io) : (captureBank r i s t).gpioOf (48 * r + k) = capturedOne r i s k := by
  rw [captureBank_eq, bank, onlyIf_true]
  exact (captureFirst start 48).1 k hk

theorem captureBank_regions (r : Nat) (i : FabricInputs) (s t : State) : (captureBank r i s t).regions = t.regions := by
  rw [captureBank_eq]
  unfold onlyIf
  split
  · refine forBelow_keeps (·.regions) _ _ _ fun k u => ?_
    unfold captureOne
    split <;> rfl
  · rfl

/-! ### The edge -/

theorem engine_congr {s t : State} (h : t.dsp = s.dsp) (e : Nat) : t.engine e = s.engine e := by
  rw [State.engine, State.engine, h]

theorem gpioOf_congr {s t : State} (h : t.io = s.io) (n : Nat) : t.gpioOf n = s.gpioOf n := by
  rw [State.gpioOf, State.gpioOf, h]

/-- All captures of the edge, before an asynchronous `SR` holds any flip-flop. -/
def capturedState (r : Nat) (i : FabricInputs) (s : State) : State :=
  forBelow 32 (fun j => modEngine (32 * r + j) (engineEdge s (32 * r + j)))
    (captureBank r i s (modRegion r (edgeRegion s r i) s))

theorem fabricEdge_eq (r : Nat) (i : FabricInputs) (s : State) :
    fabricEdge r i s = forBelow 64 settleSr (useFree (capturedState r i s)) := rfl

theorem capturedState_regions (r : Nat) (i : FabricInputs) (s : State) :
    (capturedState r i s).regions = (modRegion r (edgeRegion s r i) s).regions := by
  rw [capturedState, forBelow_regions _ _ _ (fun _ _ => modEngine_regions ..), captureBank_regions]

theorem held_fabricEdge (k r : Nat) (i : FabricInputs) (s : State) :
    Held ((modRegion r (edgeRegion s r i) s).region k) ((fabricEdge r i s).region k) := by
  have captured : (useFree (capturedState r i s)).region k = (modRegion r (edgeRegion s r i) s).region k :=
    region_congr ((useFree_regions _).trans (capturedState_regions r i s)) k
  rw [← captured, fabricEdge_eq]
  exact held_settleAll k 64 _

theorem evt_of_edge {n j r : Nat} {f : Nat → Engine → Engine} (low : ∀ k e, (f k e).evt = false) (hj : j < n) (t : State) :
    ((forBelow n (fun j => modEngine (32 * r + j) (f (32 * r + j))) t).engine (32 * r + j)).evt = false := by
  refine foldl_establishes (f := fun t j => modEngine (32 * r + j) (f (32 * r + j)) t)
    (P := fun t => (t.engine (32 * r + j)).evt = false) (List.mem_range.mpr hj) (fun t => ?_) (fun t ht n _ => ?_) _
  · rw [modEngine_engine, low]
  · by_cases own : 32 * r + j = 32 * r + n
    · rw [own, modEngine_engine, low]
    · rw [modEngine_engine_ne _ _ _ _ own]
      exact ht

theorem capturedState_io (r : Nat) (i : FabricInputs) (s : State) :
    (capturedState r i s).io = (captureBank r i s (modRegion r (edgeRegion s r i) s)).io := by
  rw [capturedState, forBelow_io _ _ _ (fun _ _ => modEngine_io ..)]

theorem settleSr_dsp (r : Nat) (s : State) : (settleSr r s).dsp = s.dsp :=
  (same_settleSr (part := .dsp) (by decide) r).mpr rfl

theorem settleSr_io (r : Nat) (s : State) : (settleSr r s).io = s.io := by
  unfold settleSr
  dsimp only
  split <;> rfl

theorem fabricEdge_dsp (r : Nat) (i : FabricInputs) (s : State) : (fabricEdge r i s).dsp = (capturedState r i s).dsp := by
  rw [fabricEdge_eq, forBelow_dsp _ _ _ settleSr_dsp, useFree_dsp]

/-- An engine's event lasts one cycle (R230). -/
theorem fabricEdge_evt (r : Nat) (i : FabricInputs) (s : State) {j : Nat} (hj : j < 32) :
    ((fabricEdge r i s).engine (32 * r + j)).evt = false := by
  rw [engine_congr (fabricEdge_dsp r i s), capturedState]
  exact evt_of_edge (f := engineEdge s) (fun _ _ => rfl) hj _

theorem fabricEdge_gpio {r k : Nat} {i : FabricInputs} {s : State} (bank : classB r = true) (hk : k < 48) :
    (fabricEdge r i s).gpioOf (48 * r + k) = capturedOne r i s k := by
  have io : (fabricEdge r i s).io = (capturedState r i s).io := by
    rw [fabricEdge_eq, forBelow_io _ _ _ settleSr_io, useFree_io]
  rw [gpioOf_congr io, gpioOf_congr (capturedState_io r i s)]
  exact captureBank_gpio bank hk (modRegion_io ..)

/-- A region with no deferred boundary takes none. -/
theorem takeDeferred_of_none {r : Nat} {s : State} (h : (s.region r).deferred = none) : takeDeferred r s = s := by
  simp only [takeDeferred, h]

/-- The region after the edge is the captured one, but for flip-flops that are held. -/
theorem held_own (r : Nat) (i : FabricInputs) (s : State) :
    Held (edgeRegion s r i (s.region r)) ((fabricEdge r i s).region r) := by
  have held := held_fabricEdge r r i s
  rwa [modRegion_region] at held

theorem Held.keeps {β : Type} {x y : Region} (h : Held x y) (π : Region → β)
    (plane : ∀ x a b c d, π { x with plane0 := a, plane1 := b, plane2 := c, plane3 := d } = π x) : π y = π x := by
  rw [← bare_keeps π plane y, h.1, bare_keeps π plane x]

/-- Each flip-flop after the edge has what it captures, or is held at its set/reset value (R80, R81). -/
theorem fabricEdge_ff {r c : Nat} (i : FabricInputs) (s : State) (hc : c < 65536) (one : Bool) :
    tget false ((fabricEdge r i s).region r).now.ff (2 * c + bit one) = capturedFf s r c one ∨
      ∃ e ∈ (s.region r).now.use.cells, e.1 = c ∧ e.2.srAsync = true ∧
        tget false ((fabricEdge r i s).region r).now.ff (2 * c + bit one) = e.2.srVal one := by
  have held := (held_own r i s).2 c one
  rw [edgeRegion_now, edgePlane_ff, tget_edgeFf hc] at held
  refine held.imp_right ?_
  rintro ⟨e, he, own, async, value⟩
  obtain ⟨e₀, he₀, own₀, async₀, value₀⟩ := edgePlane_async s r _ e he async
  exact ⟨e₀, he₀, own₀.trans own, async₀, value.trans (value₀ one).symm⟩

/-- What an edge of the region's fabric clock leaves (R80, R85, R93, R146, R510, R511). -/
theorem fabricClockEdge_captures {s : State} {r : Fin 64} (i : FabricInputs) (runs : fabricRuns s r.val = true)
    (calm : (s.region r.val).deferred = none) :
    Gives (.fabricClockEdge r i) s (fun t =>
      t.regions = (fabricEdge r.val i s).regions ∧ t.dsp = (fabricEdge r.val i s).dsp ∧
      ∀ n, t.gpioOf n = (fabricEdge r.val i s).gpioOf n) := by
  have calm' : ((fabricEdge r.val i s).region r.val).deferred = none :=
    ((held_own r.val i s).keeps Region.deferred fun _ _ _ _ _ => rfl).trans
      ((edgeRegion_deferred s r.val i _).trans calm)
  show ∃ t, execFabricClockEdge r i s = .next t ∧ _
  refine gives_occurs runs ?_
  simp [takeDeferred_of_none calm']

/-- Settles O47: the register accesses and the edge, clause by clause. -/
theorem registersAndFabricComplete : Obligations.RegistersAndFabricComplete := by
  intro s
  refine ⟨fun h may lines low right one => tickNumberLowRead_latches may lines low right one,
    fun h w u data be off may taken right line state => registerWrite_sets may taken right line state, ?edge⟩
  case edge =>
    rintro r i x runs rfl calm
    obtain ⟨t, step, regions, dsp, gpio⟩ := fabricClockEdge_captures i runs calm
    have region : t.region r.val = (fabricEdge r.val i s).region r.val := region_congr regions r.val
    have held := held_own r.val i s
    have use : ((fabricEdge r.val i s).region r.val).now.use = (edgePlane s r.val (s.region r.val).now).use := by
      rw [held.use, edgeRegion_now]
    have brg : ((fabricEdge r.val i s).region r.val).brg = edgeBrg s r.val (s.region r.val).brg :=
      held.keeps Region.brg fun _ _ _ _ _ => rfl
    refine ⟨t, step, ?_, ?_, ?_, fun j hj => ?_, ?_, fun c _ ram ce clocked => ?_, fun b j written alone => ?_,
      fun n unwritten => ?_, ?_⟩
    · rw [region, held.keeps Region.active fun _ _ _ _ _ => rfl, edgeRegion_active]
    · rw [region, held.keeps Region.slotPins fun _ _ _ _ _ => rfl]
      rfl
    · rw [region, held.keeps Region.ups fun _ _ _ _ _ => rfl]
      rfl
    · rw [engine_congr dsp]
      exact fabricEdge_evt r.val i s hj
    · rintro c one v hc rfl
      rw [region]
      exact fabricEdge_ff i s hc one
    · rw [region, use]
      exact edgePlane_lut (mem_ramCells ram ce clocked) _
    · rw [region, brg]
      exact edgeBrg_of_written written alone _
    · rw [region, brg]
      exact edgeBrg_of_unwritten unwritten _
    · rintro bank k n hk rfl
      rw [gpio]
      exact fabricEdge_gpio bank hk

end Sys2Proof.Machine

/-! What a command of one region, engine, lane, link, queue or block memory leaves of the others (O58): the frame of an
outcome for whatever is read off the parts, then family by family what each operation leaves of every other one. -/

namespace Sys2Proof.Machine

/-! ### The frame of an outcome -/

/-- What the outcome goes on with shows what `s` shows. -/
def Shows {β : Type} (π : State → β) (s : State) (o : Out) : Prop := ∀ t, o = .next t → π t = π s

/-- What shows is read off the device's parts. -/
def OfParts {β : Type} (π : State → β) : Prop := ∀ s t, (∀ x : Part, x.same s t) → π t = π s

theorem region_ofParts (r : Nat) : OfParts (·.region r) := fun _ _ h => region_congr (h .regions) r
theorem engine_ofParts (e : Nat) : OfParts (·.engine e) := fun _ _ h => engine_congr (h .dsp) e

theorem lane_congr {s t : State} (h : t.lanes = s.lanes) (l : Nat) : t.lane l = s.lane l := by
  rw [State.lane, State.lane, h]
theorem link_congr {s t : State} (h : t.links = s.links) (l : Nat) : t.link l = s.link l := by
  rw [State.link, State.link, h]
theorem queue_congr {s t : State} (h : t.riser = s.riser) (q : Nat) : t.queue q = s.queue q := by
  rw [State.queue, State.queue, h]
theorem bram_congr {s t : State} (h : t.brams = s.brams) (m : Nat) : t.bram m = s.bram m := by
  rw [State.bram, State.bram, h]

theorem lane_ofParts (l : Nat) : OfParts (·.lane l) := fun _ _ h => lane_congr (h .lanes) l
theorem link_ofParts (l : Nat) : OfParts (·.link l) := fun _ _ h => link_congr (h .links) l
theorem queue_ofParts (q : Nat) : OfParts (·.queue q) := fun _ _ h => queue_congr (h .riser) q
theorem bram_ofParts (m : Nat) : OfParts (·.bram m) := fun _ _ h => bram_congr (h .brams) m

section
variable {β : Type} {π : State → β} {s : State}

theorem OfParts.comp {γ : Type} (hπ : OfParts π) (f : β → γ) : OfParts (fun s => f (π s)) :=
  fun s t h => congrArg f (hπ s t h)

theorem shows_next : Shows π s (.next s) := by
  rintro t ⟨⟩
  rfl

theorem shows_commit (hπ : OfParts π) {u : State} (h : π u = π s) : Shows π s (commit s u) := by
  rintro t ⟨⟩
  exact (hπ u _ fun x => Part.same_committed s (x.same_self u)).trans h

theorem shows_occurs (hπ : OfParts π) {c : Bool} {f : State → State} (h : π (f s) = π s) : Shows π s (occurs c f s) := by
  unfold occurs
  split
  · exact shows_commit hπ h
  · exact shows_next

/-- A Cudex command shows what its own part shows: taking a request and answering it changes no part. -/
theorem shows_runCmd (hπ : OfParts π) {c : CmdSpec} {p : Port} {sl : Fin 4}
    (h : ∀ u, (∀ x : Part, x.same s u) → π (c.body (takenReq s p sl) u).1 = π u) : Shows π s (runCmd c p sl s) := by
  refine shows_occurs hπ ?_
  have accepted (x : Part) : x.same s (acceptSlot p sl s) := by cases x <;> simp [Part.same]
  have replied {u : State} (taken : ∀ x : Part, x.same s u) (w : Waiter) (st : Nat) (res : Results) :
      π (reply w st res u) = π s :=
    hπ s _ fun x => Part.same_trans (taken x) (by cases x <;> simp [Part.same])
  have served {u : State} (taken : ∀ x : Part, x.same s u) (w : Waiter) (a : Answer) :
      π (answer w a (c.body (takenReq s p sl) u).1) = π s :=
    (hπ _ _ fun x => by cases x <;> simp [Part.same]).trans ((h u taken).trans (hπ s u taken))
  simp only [serveReq]
  split
  · exact replied accepted _ _ _
  · have taken (x : Part) : x.same s (if isQuery c (takenReq s p sl) then (OwnView.mine, acceptSlot p sl s)
        else claimAll (takenReq s p sl) (c.owners (takenReq s p sl) (acceptSlot p sl s)) (acceptSlot p sl s)).2 := by
      split
      · exact accepted x
      · exact Part.same_trans (accepted x) (by cases x <;> simp [Part.same])
    split
    · exact replied taken _ _ _
    · exact replied taken _ _ _
    · exact served taken _ _

theorem onlyIf_shows {c : Bool} {f : State → State} (h : π (f s) = π s) : π (onlyIf c f s) = π s := by
  cases c
  · rfl
  · exact h

theorem claimOne_shows (hπ : OfParts π) (q : Req) (k : Nat) : π (claimOne q k s).1 = π s :=
  hπ _ _ fun x => (same_claimOne q k).mpr (x.same_self s)

end

/-- A command of the request's target shows of every other one what its own part shows. -/
theorem shows_others {β : Type} {π : Nat → State → β} (hπ : ∀ k, OfParts (π k)) {c : CmdSpec}
    (body : ∀ k q u, k ≠ q.target → π k (c.body q u).1 = π k u) {s : State} {p : Port} {sl : Fin 4} {k : Nat}
    (other : k ≠ (s.req p sl).target) : Shows (π k) s (runCmd c p sl s) :=
  shows_runCmd (hπ k) fun u _ => body k _ u (by rwa [takenReq_target])

/-! ### Lanes -/
section
variable {l k : Nat} (h : k ≠ l) (s : State)
include h

theorem endScan_lane_ne : (endScan l s).lane k = s.lane k := by
  unfold endScan
  split
  · rfl
  · rw [replyOpt_lane, modLane_lane_ne _ _ _ _ h]

theorem startLane_lane_ne : (startLane l s).lane k = s.lane k := modLane_lane_ne _ _ _ _ h
theorem lockLane_lane_ne : (lockLane l s).lane k = s.lane k := modLane_lane_ne _ _ _ _ h
theorem enterTraining_lane_ne : (enterTraining l s).lane k = s.lane k := modLane_lane_ne _ _ _ _ h
theorem bumpLane_lane_ne (i n) : (bumpLane l i n s).lane k = s.lane k := modLane_lane_ne _ _ _ _ h

theorem resetLane_lane_ne : (resetLane l s).lane k = s.lane k := by
  simp [resetLane, onlyIf, testEvent, apply_ite (State.lane · k), startLane_lane_ne h, modLane_lane_ne _ _ _ _ h,
    endScan_lane_ne h]

end

/-- A lane that comes up tells its link alone. -/
theorem laneUp_lane (l : Nat) (s : State) (k : Nat) : (laneUp l s).lane k = s.lane k := by
  refine lane_congr ((?_ : Part.lanes.same s (laneUp l s) ↔ Part.lanes.same s s).mpr rfl) k
  simp only [laneUp, laneJoined]
  repeat' split
  all_goals simp [laneUpEvent]

theorem readTxItem_lane (q : Nat) (s : State) (k : Nat) : (readTxItem q s).1.lane k = s.lane k :=
  lane_congr ((same_readTxItem (part := .lanes) (by decide) q).mpr rfl) k

section
variable {s : State} {p : Port} {sl : Fin 4} {k : Nat}

theorem laneStatus_leaves (h : k ≠ (s.req p sl).target) : Leaves (.laneStatus p sl) s (·.lane k) :=
  shows_others (π := fun k s => s.lane k) lane_ofParts (fun k q u h => by
    simp only [laneStatusSpec]
    split
    · rfl
    · split
      · rfl
      · exact (onlyIf_shows (π := (State.lane · k)) (modLane_lane_ne _ _ _ _ h)).trans
          (claimOne_shows (lane_ofParts k) ..)) h

theorem laneReset_leaves (h : k ≠ (s.req p sl).target) : Leaves (.laneReset p sl) s (·.lane k) :=
  shows_others (π := fun k s => s.lane k) lane_ofParts (fun k q u h => by
    simp only [laneResetSpec]
    split
    · rfl
    · exact resetLane_lane_ne h u) h

theorem laneSlip_leaves (h : k ≠ (s.req p sl).target) : Leaves (.laneSlip p sl) s (·.lane k) :=
  shows_others (π := fun k s => s.lane k) lane_ofParts (fun k q u h => by
    simp only [laneSlipSpec]
    split
    · rfl
    · split
      · rfl
      · exact modLane_lane_ne _ _ _ _ h) h

theorem laneEyescan_leaves (h : k ≠ (s.req p sl).target) : Leaves (.laneEyescan p sl) s (·.lane k) :=
  shows_others (π := fun k s => s.lane k) lane_ofParts (fun k q u h => by
    simp only [laneEyescanSpec]
    repeat' split
    · rfl
    · rfl
    · rfl
    · exact modLane_lane_ne _ _ _ _ h) h

theorem laneInject_leaves (h : k ≠ (s.req p sl).target) : Leaves (.laneInject p sl) s (·.lane k) :=
  shows_others (π := fun k s => s.lane k) lane_ofParts (fun k q u h => by
    simp only [laneInjectSpec]
    repeat' split
    · rfl
    · rfl
    · rfl
    · exact modLane_lane_ne _ _ _ _ h) h

end

section
variable {s : State} {l : Fin 96} {k : Nat} (h : k ≠ l.val)
include h

theorem injectError_leaves : Leaves (.injectError l) s (·.lane k) :=
  shows_occurs (lane_ofParts k) (modLane_lane_ne _ _ _ _ h)

theorem prbsCheckerLock_leaves : Leaves (.prbsCheckerLock l) s (·.lane k) :=
  shows_occurs (lane_ofParts k) (modLane_lane_ne _ _ _ _ h)

theorem prbsCheckerLockLost_leaves : Leaves (.prbsCheckerLockLost l) s (·.lane k) :=
  shows_occurs (lane_ofParts k) (modLane_lane_ne _ _ _ _ h)

theorem cdrLocked_leaves : Leaves (.cdrLocked l) s (·.lane k) := by
  show Shows _ s (execCdrLocked l s)
  unfold execCdrLocked
  refine shows_occurs (lane_ofParts k) ?_
  dsimp only
  split
  · exact modLane_lane_ne _ _ _ _ h
  · split
    · exact (enterTraining_lane_ne h _).trans (modLane_lane_ne _ _ _ _ h)
    · rw [laneUp_lane, lockLane_lane_ne h, modLane_lane_ne _ _ _ _ h]

theorem trainingDone_leaves : Leaves (.trainingDone l) s (·.lane k) := by
  show Shows _ s (execTrainingDone l s)
  unfold execTrainingDone
  refine shows_occurs (lane_ofParts k) ?_
  simp only [laneUp_lane, lockLane_lane_ne h, modLane_lane_ne _ _ _ _ h]

theorem trainingTimeout_leaves : Leaves (.trainingTimeout l) s (·.lane k) := by
  show Shows _ s (execTrainingTimeout l s)
  unfold execTrainingTimeout
  refine shows_occurs (lane_ofParts k) ?_
  dsimp only
  split
  · rw [laneUp_lane, lockLane_lane_ne h, modLane_lane_ne _ _ _ _ h, raise_lane]
  · rw [startLane_lane_ne h, raise_lane]

theorem laneLockAcquired_leaves : Leaves (.laneLockAcquired l) s (·.lane k) := by
  show Shows _ s (execLaneLockAcquired l s)
  unfold execLaneLockAcquired
  refine shows_occurs (lane_ofParts k) ?_
  simp only [laneUp_lane, modLane_lane_ne _ _ _ _ h]

theorem laneTransmitItem_leaves : Leaves (.laneTransmitItem l) s (·.lane k) := by
  show Shows _ s (execLaneTransmitItem l s)
  unfold execLaneTransmitItem
  dsimp only
  split
  · exact shows_occurs (lane_ofParts k) (modLane_lane_ne _ _ _ _ h)
  · refine shows_occurs (lane_ofParts k) ?_
    have read := readTxItem_lane (s.lane l.val).cfg.txQueue s k
    split
    all_goals
      rename_i taken
      rw [taken] at read
      simpa only [bumpLane_lane_ne h, useFree_lane, modLane_lane_ne _ _ _ _ h] using read

end

/-! ### Links -/
section
variable {l k : Nat} (h : k ≠ l) (s : State)
include h

theorem enterHello_link_ne : (enterHello l s).link k = s.link k := modLink_link_ne _ _ _ _ h
theorem declareGap_link_ne : (declareGap l s).link k = s.link k := modLink_link_ne _ _ _ _ h

theorem startLink_link_ne : (startLink l s).link k = s.link k := by
  simp only [startLink]
  split
  · rw [enterHello_link_ne h, modLink_link_ne _ _ _ _ h]
  · exact modLink_link_ne _ _ _ _ h

theorem setLinkDepth_link_ne (d) : (setLinkDepth l d s).link k = s.link k := by
  simp only [setLinkDepth]
  split
  · rfl
  · rw [raise_link, useFree_link, modLink_link_ne _ _ _ _ h]

/-- A flit that is sent changes its link and a lane. -/
theorem emit_link_ne (lane ty sequence vc seg) : (emit l lane ty sequence vc seg s).link k = s.link k := by
  simp only [emit, bumpLink]
  rw [modLink_link_ne _ _ _ _ h, modLink_link_ne _ _ _ _ h]
  exact link_congr (by simp [onlyIf_links]) k

end

section
variable {s : State} {p : Port} {sl : Fin 4} {k : Nat}

theorem linkStatus_leaves (h : k ≠ (s.req p sl).target) : Leaves (.linkStatus p sl) s (·.link k) :=
  shows_others (π := fun k s => s.link k) link_ofParts (fun k q u h => by
    simp only [linkStatusSpec]
    split
    · rfl
    · split
      · rfl
      · exact (onlyIf_shows (π := (State.link · k)) (modLink_link_ne _ _ _ _ h)).trans
          (claimOne_shows (link_ofParts k) ..)) h

theorem linkLoopback_leaves (h : k ≠ (s.req p sl).target) : Leaves (.linkLoopback p sl) s (·.link k) :=
  shows_others (π := fun k s => s.link k) link_ofParts (fun k q u h => by
    simp only [linkLoopbackSpec]
    repeat' split
    · rfl
    · rfl
    · rfl
    · exact setLinkDepth_link_ne h u _) h

end

section
variable {s : State} {l : Fin 48} {k : Nat} (h : k ≠ l.val)
include h

theorem gapSkewTimeout_leaves : Leaves (.gapSkewTimeout l) s (·.link k) :=
  shows_occurs (link_ofParts k) (declareGap_link_ne h s)

theorem nakReplayTimeout_leaves : Leaves (.nakReplayTimeout l) s (·.link k) :=
  shows_occurs (link_ofParts k) (modLink_link_ne _ _ _ _ h)

theorem linkBackoffEnd_leaves : Leaves (.linkBackoffEnd l) s (·.link k) := by
  show Shows _ s (execLinkBackoffEnd l s)
  unfold execLinkBackoffEnd
  refine shows_occurs (link_ofParts k) ?_
  rw [startLink_link_ne h, modLink_link_ne _ _ _ _ h]

theorem linkUpStable_leaves : Leaves (.linkUpStable l) s (·.link k) :=
  shows_occurs (link_ofParts k) (modLink_link_ne _ _ _ _ h)

theorem startingDegradeTimeout_leaves : Leaves (.startingDegradeTimeout l) s (·.link k) :=
  shows_occurs (link_ofParts k) (enterHello_link_ne h s)

theorem helloInterval_leaves : Leaves (.helloInterval l) s (·.link k) := by
  show Shows _ s (execHelloInterval l s)
  unfold execHelloInterval
  refine shows_occurs (link_ofParts k) ?_
  apply forEach_keeps (State.link · k)
  intro lane u
  exact emit_link_ne h u ..

end

/-! ### Queues -/

theorem bindQueues_queue_ne {qs : List Nat} {k : Nat} (h : k ∉ qs) (s : State) : (bindQueues qs s).queue k = s.queue k :=
  List.foldlRecOn qs _ (motive := fun t : State => t.queue k = s.queue k) rfl fun _ ht q hq =>
    (modQueue_queue_ne _ _ _ _ fun own : k = q => h (own ▸ hq)).trans ht

theorem mem_completion {r : SprueRole} {k : Nat} : k ∈ r.completion ↔ r = .send (some k) := by
  unfold SprueRole.completion
  split
  next c => simp [eq_comm]
  next other => simpa using other k

section
variable {s : State} {p : Port} {sl : Fin 4} {k : Nat}

theorem riserStatus_leaves (h : k ≠ (s.req p sl).target) : Leaves (.riserStatus p sl) s (·.queue k) :=
  shows_others (π := fun k s => s.queue k) queue_ofParts (fun k q u h => by
    simp only [riserStatusSpec]
    split
    · rfl
    · split
      · rfl
      · exact (onlyIf_shows (π := (State.queue · k)) (modQueue_queue_ne _ _ _ _ h)).trans
          (claimOne_shows (queue_ofParts k) ..)) h

/-- A role binds its queue and the completion queues of the role that ends and of the one that begins. -/
theorem sprueQueue_leaves (h : k ≠ (s.req p sl).target) (next : k ≠ (s.req p sl).arg 10 2)
    (last : (s.queue (s.req p sl).target).role ≠ .send (some k)) : Leaves (.sprueQueue p sl) s (·.queue k) := by
  refine shows_runCmd (queue_ofParts k) fun u same => ?_
  have target : k ≠ (takenReq s p sl).target := by rwa [takenReq_target]
  have next' : k ≠ (takenReq s p sl).arg 10 2 := by rwa [takenReq_arg]
  have last' : (u.queue (takenReq s p sl).target).role ≠ .send (some k) := by
    rwa [takenReq_target, queue_congr (same .riser)]
  generalize takenReq s p sl = q at target next' last'
  simp only [sprueQueueSpec]
  split
  · rfl
  split
  · rfl
  split
  · rfl
  refine (bindQueues_queue_ne ?_ _).trans (modQueue_queue_ne _ _ _ _ target)
  simp only [List.mem_append, List.mem_singleton, mem_completion, not_or]
  refine ⟨⟨target, last'⟩, ?_⟩
  split
  · exact nofun
  · split
    · exact nofun
    · rintro ⟨⟩
      exact next' rfl
  · exact nofun

end

/-! ### Engines -/

/-- Halts that are settled are answered; no engine changes. -/
theorem settleHalts_dsp (r : Nat) (s : State) : (settleHalts r s).dsp = s.dsp := by
  simp only [settleHalts]
  split
  · rfl
  · exact (forEach_dsp _ _ _ fun _ _ => reply_dsp ..).trans (modRegion_dsp ..)

theorem afterEngine_engine (id : Nat) (was : EngSt) (s : State) (k : Nat) :
    (afterEngine id was s).engine k = s.engine k := by
  refine engine_congr ?_ k
  simp only [afterEngine, onlyIf]
  split <;> split <;> simp [settleHalts_dsp]

theorem noteRead_dsp (pl w out injected fettler) (s : State) : (noteRead pl w out injected fettler s).1.dsp = s.dsp :=
  (same_noteRead (part := .dsp) (by decide) ..).mpr rfl

theorem noteWrite_engine (pl w) (s : State) (k : Nat) : (noteWrite pl w s).engine k = s.engine k :=
  engine_congr ((same_noteWrite (part := .dsp) (by decide) ..).mpr rfl) k

/-- What a read of an engine's memory met changes at most the word read. -/
theorem dspNote_cases (id : Nat) (n : MemNote) (mid : Nat) (fettler : Bool) (s : State) :
    (dspNote id n mid fettler s).dsp = s.dsp ∨
      (dspNote id n mid fettler s).dsp =
        (modEngine id (fun e => e.putWord n.prog n.word (e.readWord n.prog n.word).1) s).dsp := by
  simp only [dspNote, onlyIf]
  split <;> split <;> simp [noteRead_dsp]

theorem dspNote_engine_ne {id k : Nat} (h : k ≠ id) (n : MemNote) (mid : Nat) (fettler : Bool) (s : State) :
    (dspNote id n mid fettler s).engine k = s.engine k := by
  rcases dspNote_cases id n mid fettler s with kept | put
  · exact engine_congr kept k
  · exact (engine_congr put k).trans (modEngine_engine_ne _ _ _ _ h)

/-- The engine whose fetch has been checked (R219). -/
def Engine.fetching (e : Engine) (out : GridOut) : Engine :=
  let fixed := match out with | .dataBit _ | .checkBit _ => true | _ => false
  if fixed then { e with corrected := e.corrected + 1 } else e

/-- The issue of a bundle by the engine that has fetched it, in the state that has noted the fetch. -/
def issueFetched (id : Nat) (was : EngSt) (b : BitVec 64) (out : GridOut) (e : Engine) (s : State) : State :=
  if out = .uncorrectable then afterEngine id was (modEngine id (fun _ => e.stopHard id 8) s)
  else if (e.reads b).any e.parityBad.contains then afterEngine id was (modEngine id (fun _ => e.stopHard id 9) s)
  else if kindOf b = .slots ∧ e.illegal b = false ∧ e.stallsOn b = true then modEngine id (fun _ => e.stall) s
  else
    let i := e.issue id b (freshBits 15 s)
    let s := modEngine id (fun _ => i.e) (onlyIf (decide (kindOf b = .slots) || !e.oldProg.isEmpty) useFree s)
    let s := forEach i.notes (fun n => dspNote id n (id / 32) false) s
    let s := forEach i.wrote (fun w => noteWrite (.region (id / 32)) (dspRef false (id % 32) w)) s
    afterEngine id was s

theorem issueBundle_eq (id : Nat) (s : State) :
    issueBundle id s = issueFetched id (s.engineNow id).st (fetched s id).1 (fetched s id).2
      ((s.engineNow id).fetching (fetched s id).2)
      (dspNote id ((s.engineNow id).noteOf true (s.engineNow id).pc.toNat (fetched s id).2) (id / 32) false s) := rfl

section
variable {id k : Nat} (h : k ≠ id) (s : State)
include h

theorem issueFetched_engine_ne (was b out e) : (issueFetched id was b out e s).engine k = s.engine k := by
  unfold issueFetched
  split
  · rw [afterEngine_engine, modEngine_engine_ne _ _ _ _ h]
  split
  · rw [afterEngine_engine, modEngine_engine_ne _ _ _ _ h]
  split
  · exact modEngine_engine_ne _ _ _ _ h
  · dsimp only
    rw [afterEngine_engine, forEach_keeps (State.engine · k) _ _ _ fun _ _ => noteWrite_engine ..,
      forEach_keeps (State.engine · k) _ _ _ fun _ _ => dspNote_engine_ne h .., modEngine_engine_ne _ _ _ _ h,
      onlyIf_shows (π := (State.engine · k)) (useFree_engine ..)]

theorem issueBundle_engine_ne : (issueBundle id s).engine k = s.engine k := by
  rw [issueBundle_eq, issueFetched_engine_ne h, dspNote_engine_ne h]

theorem startEngine_engine_ne : (startEngine id s).engine k = s.engine k :=
  (useFree_engine ..).trans (modEngine_engine_ne _ _ _ _ h)

theorem requestStart_engine_ne (addr) : (requestStart id addr s).engine k = s.engine k := by
  have started (f : Engine → Engine) (c : Bool) :
      (onlyIf c (startEngine id) (modEngine id f s)).engine k = s.engine k :=
    (onlyIf_shows (π := (State.engine · k)) (startEngine_engine_ne h _)).trans (modEngine_engine_ne _ _ _ _ h)
  unfold requestStart
  split
  · exact started _ _
  · exact started _ _
  · rfl

end

/-- The event in which an engine issues a bundle of the kind. -/
noncomputable def BundleKind.event (kind : BundleKind) (e : Fin 2048) : Instr :=
  match kind with
  | .slots => .bundle e | .b => .b e | .call => .call e | .ret => .ret e | .beqz => .beqz e | .bnez => .bnez e
  | .bltz => .bltz e | .bgez => .bgez e | .bdec => .bdec e | .limm => .limm e | .loop => .loop e | .nop => .nop e
  | .halt => .halt e | .waiti => .waiti e | .reti => .reti e | .ei => .ei e | .di => .di e | .sig => .sig e
  | .reserved => .reservedBranchOrSystemOp e

theorem exec_event (kind : BundleKind) (e : Fin 2048) (s : State) :
    exec (kind.event e) s = occurs (issues kind e.val s) (issueAs kind e.val) s := by
  cases kind <;> rfl

theorem event_leaves (kind : BundleKind) {e : Fin 2048} (s : State) {k : Nat} (h : k ≠ e.val) :
    Leaves (kind.event e) s (·.engine k) := by
  show Shows _ s (exec (kind.event e) s)
  rw [exec_event]
  exact shows_occurs (engine_ofParts k) (onlyIf_shows (π := (State.engine · k)) (issueBundle_engine_ne h s))

/-! ### The data memory under a branch, loop or system operation (R226, R229, R230) -/

theorem error_data (e : Engine) (cause : Nat) : (e.error cause).data = e.data := by
  unfold Engine.error
  dsimp only
  split <;> rfl

theorem land1_data (e : Engine) (x : Landing) : (e.land1 x).data = e.data := by
  cases x <;> rfl

theorem landed_data (l : List (Nat × Landing)) (e : Engine) : (l.foldl (fun e x => e.land1 x.2) e).data = e.data :=
  foldl_keeps Engine.data (fun e x => land1_data e x.2) l e

theorem advance_data (e : Engine) : e.advance.data = e.data := landed_data _ e

theorem landAll_data (e : Engine) : e.landAll.data = e.data := landed_data _ e

theorem settleStop_data (e : Engine) : e.settleStop.data = e.data := by
  unfold Engine.settleStop
  split
  · exact landAll_data e
  · split
    · exact landAll_data e
    · rfl

theorem loopLevel_data (e : Engine) (k : Nat) (addr : BitVec 11) : (e.loopLevel k addr).1.data = e.data := by
  unfold Engine.loopLevel
  dsimp only
  split
  · split <;> rfl
  · rfl

theorem loopNext_data (e : Engine) (addr : BitVec 11) : (e.loopNext addr).1.data = e.data := by
  have two := loopLevel_data e 2 addr
  unfold Engine.loopNext
  split
  next e₂ n h₂ => rwa [h₂] at two
  next e₂ h₂ =>
    rw [h₂] at two
    have one := (loopLevel_data e₂ 1 addr).trans two
    split
    next e₁ n h₁ => rwa [h₁] at one
    next e₁ h₁ =>
      rw [h₁] at one
      have zero := (loopLevel_data e₁ 0 addr).trans one
      split
      next e₀ n h₀ => rwa [h₀] at zero
      next e₀ h₀ => rwa [h₀] at zero

theorem loopSetup_data (e : Engine) (b : BitVec 64) : (e.loopSetup b).data = e.data := by
  simp only [Engine.loopSetup, apply_ite Engine.data, error_data]
  exact ite_self _

/-- An operation of a bundle without slots reaches no data memory. -/
theorem operate_data {b : BitVec 64} (hb : kindOf b ≠ .slots) (i : Issue) (src : Engine) (id : Nat) (free : BitVec 15) :
    (i.operate src id b free).e.data = i.e.data ∧ (i.operate src id b free).notes = i.notes ∧
      (i.operate src id b free).wrote = i.wrote := by
  unfold Issue.operate
  dsimp only
  cases hk : kindOf b
  case slots => exact absurd hk hb
  case loop => exact ⟨loopSetup_data i.e b, rfl, rfl⟩
  case bdec =>
    refine ⟨?_, rfl, rfl⟩
    dsimp only
    split <;> rfl
  case beqz | bnez | bltz | bgez =>
    refine ⟨?_, rfl, rfl⟩
    dsimp only
    split <;> rfl
  all_goals exact ⟨rfl, rfl, rfl⟩

/-- The engine as a bundle finds it: what was due has landed, and a return from an interrupt has ended. -/
def Engine.ready (e : Engine) : Engine :=
  let e := e.advance
  if e.retiDue && e.delay == 0 then { e.setIe true with retiDue := false } else e

/-- The engine with the loop-end rule done, and the address that follows the bundle. -/
def Engine.following (e : Engine) : Engine × BitVec 11 :=
  if decide (0 < e.delay) then (e, e.pc + 1) else e.loopNext e.pc

/-- What the bundle does by itself. -/
def Engine.performed (src : Engine) (id : Nat) (b : BitVec 64) (free : BitVec 15) : Issue :=
  if src.illegal b then { e := src.following.1.error 1 } else ({ e := src.following.1 } : Issue).operate src id b free

/-- The end of the bundle's issue: the next address, its cycles, and a stop that is due. -/
def Issue.ended (i : Issue) (b : BitVec 64) (inSlot : Bool) (next : BitVec 11) : Issue :=
  let e := if inSlot then
      let k := i.e.delay - 1
      { i.e with delay := k, pc := if k = 0 then i.e.target else next }
    else { i.e with pc := next }
  let e := e.count (if i.twice then 2 else 1)
  let e := { e with lastBranch := isBranchKind (kindOf b), lastSlot := inSlot }
  { i with e := e.settleStop }

theorem issue_eq (e : Engine) (id : Nat) (b : BitVec 64) (free : BitVec 15) :
    e.issue id b free =
      (e.ready.performed id b free).ended b (decide (0 < e.ready.delay)) e.ready.following.2 := rfl

theorem ready_data (e : Engine) : e.ready.data = e.data := by
  unfold Engine.ready
  dsimp only
  split <;> exact advance_data e

theorem following_data (e : Engine) : e.following.1.data = e.data := by
  unfold Engine.following
  split
  · rfl
  · exact loopNext_data e e.pc

theorem ended_data (i : Issue) (b : BitVec 64) (inSlot : Bool) (next : BitVec 11) :
    (i.ended b inSlot next).e.data = i.e.data := by
  refine (settleStop_data _).trans ?_
  cases inSlot <;> rfl

theorem performed_data {b : BitVec 64} (hb : kindOf b ≠ .slots) (src : Engine) (id : Nat) (free : BitVec 15) :
    (src.performed id b free).e.data = src.data ∧ (src.performed id b free).notes = [] ∧
      (src.performed id b free).wrote = [] := by
  unfold Engine.performed
  split
  · exact ⟨(error_data _ _).trans (following_data src), rfl, rfl⟩
  · obtain ⟨data, notes, wrote⟩ := operate_data hb { e := src.following.1 } src id free
    exact ⟨data.trans (following_data src), notes, wrote⟩

theorem issue_data {b : BitVec 64} (hb : kindOf b ≠ .slots) (e : Engine) (id : Nat) (free : BitVec 15) :
    (e.issue id b free).e.data = e.data ∧ (e.issue id b free).notes = [] ∧ (e.issue id b free).wrote = [] := by
  obtain ⟨data, notes, wrote⟩ := performed_data hb e.ready id free
  rw [issue_eq]
  exact ⟨(ended_data ..).trans (data.trans (ready_data e)), notes, wrote⟩

theorem stopHard_data (e : Engine) (id cause : Nat) : (e.stopHard id cause).data = e.data := by
  unfold Engine.stopHard
  split
  · exact settleStop_data _
  · exact (issue_data (by decide) _ id 0).1

theorem fetching_data (e : Engine) (out : GridOut) : (e.fetching out).data = e.data := by
  unfold Engine.fetching
  split <;> rfl

theorem issueFetched_data {b : BitVec 64} (hb : kindOf b ≠ .slots) (id : Nat) (was out e) (s : State) :
    ((issueFetched id was b out e s).engine id).data = e.data := by
  unfold issueFetched
  split
  · rw [afterEngine_engine, modEngine_engine, stopHard_data]
  split
  · rw [afterEngine_engine, modEngine_engine, stopHard_data]
  split
  next stalls => exact absurd stalls.1 hb
  next =>
    obtain ⟨data, notes, wrote⟩ := issue_data hb e id (freshBits 15 s)
    simp only [notes, wrote]
    rw [afterEngine_engine]
    exact (congrArg Engine.data (modEngine_engine ..)).trans data

/-- A bundle without slots leaves the engine's data memory. -/
theorem issueBundle_data {id : Nat} {s : State} (hb : kindOf (fetched s id).1 ≠ .slots) :
    ((issueBundle id s).engine id).data = (s.engine id).data := by
  rw [issueBundle_eq, issueFetched_data hb, fetching_data]
  rfl

theorem event_leaves_data {kind : BundleKind} (plain : kind ≠ .slots) (e : Fin 2048) (s : State) :
    Leaves (kind.event e) s (fun s => (s.engine e.val).data) := by
  show Shows _ s (exec (kind.event e) s)
  rw [exec_event]
  refine shows_occurs ((engine_ofParts e.val).comp Engine.data) ?_
  unfold issueAs
  cases of : issues kind e.val s
  · rfl
  · simp only [issues, Bool.and_eq_true, decide_eq_true_eq] at of
    exact issueBundle_data (of.2 ▸ plain)

/-! ### Events of an engine -/

theorem useIfWaiting_engine (id : Nat) (s : State) (k : Nat) : (useIfWaiting id s).engine k = s.engine k :=
  onlyIf_shows (π := (State.engine · k)) (useFree_engine ..)

section
variable {e : Fin 2048} {s : State} {k : Nat} (h : k ≠ e.val)
include h

theorem interruptEntry_leaves : Leaves (.interruptEntry e) s (·.engine k) := by
  show Shows _ s (execInterruptEntry e s)
  unfold execInterruptEntry
  refine shows_occurs (engine_ofParts k) ?_
  dsimp only
  rw [modEngine_engine_ne _ _ _ _ h, useIfWaiting_engine]

theorem waitiResume_leaves : Leaves (.waitiResume e) s (·.engine k) := by
  show Shows _ s (execWaitiResume e s)
  unfold execWaitiResume
  refine shows_occurs (engine_ofParts k) ?_
  dsimp only
  rw [modEngine_engine_ne _ _ _ _ h, useIfWaiting_engine]

theorem timerExpiry_leaves : Leaves (.timerExpiry e) s (·.engine k) :=
  shows_occurs (engine_ofParts k) (modEngine_engine_ne _ _ _ _ h)

theorem doorbell_leaves : Leaves (.doorbell e) s (·.engine k) :=
  shows_occurs (engine_ofParts k) (modEngine_engine_ne _ _ _ _ h)

theorem start_leaves : Leaves (.start e) s (·.engine k) :=
  shows_occurs (engine_ofParts k) (requestStart_engine_ne h s _)

end

/-! ### Block memories -/

theorem noteWrite_bram (pl w) (s : State) (k : Nat) : (noteWrite pl w s).bram k = s.bram k :=
  bram_congr ((same_noteWrite (part := .brams) (by decide) ..).mpr rfl) k

theorem sweepOn_bram (r j i) (s : State) (k : Nat) : (sweepOn r j i s).bram k = s.bram k :=
  bram_congr ((same_sweepOn (part := .brams) (by decide) ..).mpr rfl) k

theorem answerOutst_bram (req ls) (s : State) (k : Nat) : (answerOutst req ls s).bram k = s.bram k :=
  bram_congr ((same_answerOutst (part := .brams) (by decide) ..).mpr rfl) k

theorem noteRead_bram (pl w out injected fettler) (s : State) (k : Nat) :
    (noteRead pl w out injected fettler s).1.bram k = s.bram k :=
  bram_congr ((same_noteRead (part := .brams) (by decide) ..).mpr rfl) k

section
variable {m k : Nat} (h : k ≠ m) (s : State)
include h

theorem onlyIf_modBram_ne (c : Bool) (f : Bram → Bram) : (onlyIf c (modBram m f) s).bram k = s.bram k :=
  onlyIf_shows (π := (State.bram · k)) (modBram_bram_ne _ _ _ _ h)

theorem bramFetch_bram_ne (w who fettler) : (bramFetch m w who fettler s).1.bram k = s.bram k := by
  simp only [bramFetch]
  rw [onlyIf_shows (π := (State.bram · k)) (raise_bram ..), onlyIf_modBram_ne h, noteRead_bram]

theorem bramStore_bram_ne (w d) : (bramStore m w d s).bram k = s.bram k := by
  rw [bramStore, noteWrite_bram, modBram_bram_ne _ _ _ _ h]

theorem bramPartial_bram_ne (w who new) : (bramPartial m w who new s).1.bram k = s.bram k := by
  simp only [bramPartial]
  split
  · exact bramFetch_bram_ne h s w who false
  · exact (bramStore_bram_ne h _ _ _).trans (bramFetch_bram_ne h s w who false)

theorem bramWindowRead_bram_ne (w mid) : (bramWindowRead m w mid s).1.bram k = s.bram k := by
  simp only [bramWindowRead]
  split
  · rfl
  · exact bramFetch_bram_ne h s w mid false

theorem bramWindowWrite_bram_ne (w mid d be) : (bramWindowWrite m w mid d be s).1.bram k = s.bram k := by
  simp only [bramWindowWrite]
  split
  · rfl
  split
  · exact modBram_bram_ne _ _ _ _ h
  split
  · exact bramStore_bram_ne h s w d
  · exact bramPartial_bram_ne h s w mid _

theorem fettleBram_bram_ne (w) : (fettleBram m w s).1.bram k = s.bram k := by
  simp only [fettleBram]
  rw [onlyIf_shows (π := (State.bram · k)) (raise_bram ..), onlyIf_modBram_ne h, bramFetch_bram_ne h]

/-! ### Maintenance accesses (R202, R203) -/

theorem endWindowOp_bram_ne (j got) : (endWindowOp m j got s).bram k = s.bram k := by
  simp only [endWindowOp]
  split
  · rfl
  · exact (onlyIf_shows (π := (State.bram · k)) (answerOutst_bram ..)).trans (modBram_bram_ne _ _ _ _ h)

/-- One access of a window's operation. -/
def windowAccessed (m w mid : Nat) (wr : Option (BitVec 64 × BitVec 8)) (s : State) : State × BitVec 64 × Bool :=
  match wr with
  | none => bramWindowRead m w mid s
  | some (d, be) => let (s, ok) := bramWindowWrite m w mid d be s; (s, 0, ok)

theorem windowAccessed_bram_ne (w mid wr) : (windowAccessed m w mid wr s).1.bram k = s.bram k := by
  unfold windowAccessed
  split
  · exact bramWindowRead_bram_ne h s w mid
  · exact bramWindowWrite_bram_ne h s w mid _ _

theorem windowOp_bram_ne (a j) : (windowOp m a j s).1.bram k = s.bram k := by
  have goesOn {got : State × BitVec 64 × Bool} (accessed : got.1.bram k = s.bram k) (stops part met : Bool) (f) :
      (if stops = true then (s, false) else if part = true then (modBram m f got.1, met)
        else if met = true then (got.1, true) else (endWindowOp m j got.2 got.1, false)).1.bram k = s.bram k := by
    split
    · rfl
    split
    · exact (modBram_bram_ne _ _ _ _ h).trans accessed
    split
    · exact accessed
    · exact (endWindowOp_bram_ne h _ _ _).trans accessed
  unfold windowOp
  split
  · rfl
  next w wr _ _ => exact goesOn (windowAccessed_bram_ne h s w j.mid wr) _ _ _ _

theorem scrubOp_bram_ne (w a) : (scrubOp m w a s).1.bram k = s.bram k := by
  simp only [scrubOp]
  split
  · exact modBram_bram_ne _ _ _ _ h
  · split
    · exact (sweepOn_bram ..).trans (modBram_bram_ne _ _ _ _ h)
    · dsimp only
      rw [sweepOn_bram, onlyIf_modBram_ne h, fettleBram_bram_ne h, modBram_bram_ne _ _ _ _ h]

theorem maintOp_bram_ne (a) : (maintOp m a s).1.bram k = s.bram k := by
  simp only [maintOp]
  split
  · exact windowOp_bram_ne h s _ _
  · exact scrubOp_bram_ne h s _ _
  · rfl

theorem endHalf_bram_ne : (endHalf m s).bram k = s.bram k := by
  simp only [endHalf]
  split
  · split
    · exact modBram_bram_ne _ _ _ _ h
    · exact (endWindowOp_bram_ne h _ _ _).trans (modBram_bram_ne _ _ _ _ h)
  · exact modBram_bram_ne _ _ _ _ h

theorem maintEdge_bram_ne (a) : (maintEdge m a s).1.bram k = s.bram k := by
  simp only [maintEdge, settleWaitB]
  rw [modBram_bram_ne _ _ _ _ h]
  split
  · exact (endHalf_bram_ne h _).trans (modBram_bram_ne _ _ _ _ h)
  · exact (maintOp_bram_ne h _ _).trans (modBram_bram_ne _ _ _ _ h)

/-! ### Port edges (R197 to R201) -/

theorem portWrite_bram_ne (isA c o) : (portWrite m isA c o s).1.bram k = s.bram k := by
  simp only [portWrite]
  split
  · exact modBram_bram_ne _ _ _ _ h
  · split
    · exact bramStore_bram_ne h s _ _
    · exact bramPartial_bram_ne h s _ _ _

theorem portRead_bram_ne (isA c o) : (portRead m isA c o s).1.bram k = s.bram k := by
  simp only [portRead]
  split
  · rfl
  · exact bramFetch_bram_ne h s _ _ _

theorem pushPipe_bram_ne (isA rd lat v) : (pushPipe m isA rd lat v s).bram k = s.bram k := modBram_bram_ne _ _ _ _ h
theorem stallPort_bram_ne (isA c o) : (stallPort m isA c o s).bram k = s.bram k := modBram_bram_ne _ _ _ _ h
theorem advancePort_bram_ne (isA c o) : (advancePort m isA c o s).bram k = s.bram k := modBram_bram_ne _ _ _ _ h
theorem raiseWait_bram_ne (isA) : (raiseWait m isA s).bram k = s.bram k := modBram_bram_ne _ _ _ _ h
theorem markBusy_bram_ne (isA) : (markBusy m isA s).bram k = s.bram k := modBram_bram_ne _ _ _ _ h
theorem countStarve_bram_ne (o) : (countStarve m o s).bram k = s.bram k := modBram_bram_ne _ _ _ _ h

theorem takeOp_bram_ne (isA c o x) : (takeOp m isA c o x s).bram k = s.bram k := by
  simp only [takeOp]
  split
  · rw [modBram_bram_ne _ _ _ _ h, pushPipe_bram_ne h]
    split
    · rfl
    · exact portWrite_bram_ne h s isA c o
  · rw [pushPipe_bram_ne h, onlyIf_shows (π := (State.bram · k)) (useFree_bram ..), portRead_bram_ne h]

theorem portEdge_bram_ne (isA c o x took) : (portEdge m isA c o x took s).bram k = s.bram k := by
  unfold portEdge
  dsimp only
  generalize (if isA then (s.bram m).waitA else (s.bram m).waitB) = wait
  cases wait
  case true =>
    rw [if_pos rfl, modBram_bram_ne _ _ _ _ h, stallPort_bram_ne h]
  case false =>
    rw [if_neg Bool.false_ne_true, onlyIf_shows (π := (State.bram · k)) (raiseWait_bram_ne h ..)]
    split
    · rw [takeOp_bram_ne h, advancePort_bram_ne h]
    · exact advancePort_bram_ne h s _ _ _

theorem portEdgeB_bram_ne (c o x took a) : (portEdgeB m c o x took a s).1.bram k = s.bram k := by
  simp only [portEdgeB]
  split
  · dsimp only
    rw [maintEdge_bram_ne h, modBram_bram_ne _ _ _ _ h]
    split
    · exact stallPort_bram_ne h s _ _ _
    · exact advancePort_bram_ne h s _ _ _
  · rw [countStarve_bram_ne h, portEdge_bram_ne h]

end

/-- Port A's edge of a cycle, if it has one. -/
def edgeA (m : Nat) (c : BramCfg) (a : Option PortOp) (x : Clash) (took : Bool) (s : State) : State :=
  match a with
  | some o => portEdge m true c o x took s
  | none => s

/-- Port B's edge of a cycle, if it has one that does not go to the maintenance accesses. -/
def edgeB (m : Nat) (c : BramCfg) (b : Option PortOp) (mem : Bram) (x : Clash) (took : Bool) (s : State) : State :=
  match b with
  | some o => if mem.maintains o then s else (portEdgeB m c o x took none s).1
  | none => s

/-- Port B's edge of a cycle, if it goes to the maintenance accesses. -/
def edgeMaint (m : Nat) (c : BramCfg) (b : Option PortOp) (mem : Bram) (beside : Beside) (s : State) : State × Bool :=
  match b with
  | some o => if mem.maintains o then portEdgeB m c o {} false beside s else (s, false)
  | none => (s, false)

/-- A cycle's edges: port B's to the maintenance accesses, then port A's and port B's in one order or the other. -/
theorem portOperation_edges (m : Nat) (c : BramCfg) (a b : Option PortOp) (bFirst : Bool) (s : State) :
    ∃ half markA markB beside xa xb tookA tookB order reads undef,
      let u := onlyIf markB (markBusy m false) (onlyIf markA (markBusy m true) (edgeMaint m c b (s.bram m) beside
        (onlyIf half (modBram m (fun b => { b with half := b.half.map (fun h => (h.1, true)) })) s)).1)
      let doA := edgeA m c a xa tookA
      let doB := edgeB m c b (s.bram m) xb tookB
      portOperation m c a b bFirst s =
        if order = true then doA (doB u) else if reads = true then doB (doA u)
        else if undef = true then doA (doB u) else doB (doA u) :=
  ⟨_, _, _, _, _, _, _, _, _, _, _, rfl⟩

section
variable {m k : Nat} (h : k ≠ m) (s : State)
include h

theorem edgeA_bram_ne (c a x took) : (edgeA m c a x took s).bram k = s.bram k := by
  unfold edgeA
  split
  · exact portEdge_bram_ne h s true c _ x took
  · rfl

theorem edgeB_bram_ne (c b mem x took) : (edgeB m c b mem x took s).bram k = s.bram k := by
  unfold edgeB
  split
  · split
    · rfl
    · exact portEdgeB_bram_ne h s c _ x took none
  · rfl

theorem edgeMaint_bram_ne (c b mem beside) : (edgeMaint m c b mem beside s).1.bram k = s.bram k := by
  unfold edgeMaint
  split
  · split
    · exact portEdgeB_bram_ne h s c _ {} false beside
    · rfl
  · rfl

theorem portOperation_bram_ne (c a b bFirst) : (portOperation m c a b bFirst s).bram k = s.bram k := by
  obtain ⟨half, markA, markB, beside, xa, xb, tookA, tookB, order, reads, undef, cycle⟩ :=
    portOperation_edges m c a b bFirst s
  have marked (c : Bool) (isA : Bool) (u : State) : (onlyIf c (markBusy m isA) u).bram k = u.bram k :=
    onlyIf_shows (π := (State.bram · k)) (markBusy_bram_ne h u isA)
  rw [cycle]
  repeat' split
  all_goals
    simp only [edgeA_bram_ne h, edgeB_bram_ne h, marked, edgeMaint_bram_ne h, onlyIf_modBram_ne h]

end

section
variable {m : Fin 16384} {s : State} {k : Nat} (h : k ≠ m.val)
include h

theorem bramPortOperation_leaves (a b bFirst) : Leaves (.bramPortOperation m a b bFirst) s (·.bram k) := by
  show Shows _ s (execBramPortOperation m a b bFirst s)
  unfold execBramPortOperation
  split
  · exact shows_occurs (bram_ofParts k) (portOperation_bram_ne h s _ _ b bFirst)
  · exact shows_occurs (bram_ofParts k) (maintEdge_bram_ne h s none)

theorem maintenanceSteal_leaves : Leaves (.maintenanceSteal m) s (·.bram k) := by
  show Shows _ s (execMaintenanceSteal m s)
  unfold execMaintenanceSteal
  exact shows_occurs (bram_ofParts k) (maintEdge_bram_ne h s none)

end

/-! ### Regions: what an operation of a region leaves of every other -/

theorem fillReply_region (f st n cause addr p) (s : State) (k : Nat) :
    (fillReply f st n cause addr p s).region k = s.region k := replyOpt_region ..

theorem landEngines_region (p) (s : State) (k : Nat) : (landEngines p s).region k = s.region k :=
  region_congr ((same_landEngines (part := .regions) (by decide) p).mpr rfl) k

theorem pauseSweeps_region (r) (s : State) (k : Nat) : (pauseSweeps r s).region k = s.region k :=
  region_congr ((same_pauseSweeps (part := .regions) (by decide) r).mpr rfl) k

theorem rewindRegion_region (r) (s : State) (k : Nat) : (rewindRegion r s).region k = s.region k :=
  region_congr ((same_rewindRegion (part := .regions) (by decide) r).mpr rfl) k

theorem startPending_region (r) (s : State) (k : Nat) : (startPending r s).region k = s.region k :=
  region_congr ((same_startPending (part := .regions) (by decide) r).mpr rfl) k

theorem switchPortClocks_region (r old new) (s : State) (k : Nat) :
    (switchPortClocks r old new s).region k = s.region k :=
  region_congr ((same_switchPortClocks (part := .regions) (by decide) r old new).mpr rfl) k

theorem answerOverride_region (r d status outcome) (s : State) (k : Nat) :
    (answerOverride r d status outcome s).region k = s.region k := by
  unfold answerOverride
  split
  · rfl
  · exact replyAt_region ..

theorem settleHalts_region_ne {r k : Nat} (h : k ≠ r) (s : State) : (settleHalts r s).region k = s.region k := by
  simp only [settleHalts]
  split
  · rfl
  · exact (forEach_keeps (State.region · k) _ _ _ fun _ _ => reply_region ..).trans (modRegion_region_ne _ _ _ _ h)

section
variable {r k : Nat} (h : k ≠ r) (s : State)
include h

theorem onlyIf_modRegion_ne (c : Bool) (f : Region → Region) : (onlyIf c (modRegion r f) s).region k = s.region k :=
  onlyIf_shows (π := (State.region · k)) (modRegion_region_ne _ _ _ _ h)

theorem startFill_region_ne (f) : (startFill r f s).region k = s.region k := modRegion_region_ne _ _ _ _ h
theorem bumpPower_region_ne (i) : (bumpPower r i s).region k = s.region k := modRegion_region_ne _ _ _ _ h
theorem startExit_region_ne (d) : (startExit r d s).region k = s.region k := modRegion_region_ne _ _ _ _ h
theorem setResult_region_ne (d ovr) : (setResult r d ovr s).region k = s.region k := modRegion_region_ne _ _ _ _ h
theorem relatchBorder_region_ne : (relatchBorder r s).region k = s.region k := modRegion_region_ne _ _ _ _ h
theorem saveShelf_region_ne : (saveShelf r s).region k = s.region k := modRegion_region_ne _ _ _ _ h

theorem clearOverride_region_ne : (clearOverride r s).1.region k = s.region k := by
  simp only [clearOverride]
  rw [modRegion_region_ne _ _ _ _ h]
  split
  · split
    · exact (replyOpt_region ..).trans (modRegion_region_ne _ _ _ _ h)
    · rfl
  · rfl

theorem enableSpines_region_ne (mask) : (enableSpines r mask s).1.region k = s.region k :=
  foldl_keeps (β := State × Bool) (fun acc => acc.1.region k) (fun acc j => by
    dsimp only
    split
    · split
      · rfl
      · exact (raise_region ..).trans (modRegion_region_ne _ _ _ _ h)
    · rfl) (List.range 64) (s, true)

theorem quiesceEnds_region_ne : (quiesceEnds r s).region k = s.region k := by
  unfold quiesceEnds
  split
  · exact modRegion_region_ne _ _ _ _ h
  · exact (region_congr (shieldRequests_regions ..) k).trans (modRegion_region_ne _ _ _ _ h)
  · rfl

/-! ### A decision (R147 to R161) -/

theorem abandonOne_region_ne (dest f) : (abandonOne r dest f s).region k = s.region k := by
  rw [abandonOne, fillReply_region, raise_region, modRegion_region_ne _ _ _ _ h]

theorem abandonFill_region_ne (dest) : (abandonFill r dest s).region k = s.region k := by
  simp only [abandonFill]
  split
  · rfl
  · split
    · rfl
    · exact (forEach_keeps (State.region · k) _ _ _ fun _ _ => abandonOne_region_ne h ..).trans
        (modRegion_region_ne _ _ _ _ h)

theorem startEntry_region_ne (dest) : (startEntry r dest s).region k = s.region k := by
  have noted (c : Bool) (f : State → EvRec) (u : State) :
      (onlyIf c (fun s => raise (f s) (useFree (bumpPower r 5 s))) u).region k = u.region k :=
    onlyIf_shows (π := (State.region · k)) (by rw [raise_region, useFree_region, bumpPower_region_ne h])
  have dropped (c : Bool) (dest : Power) (u : State) : (onlyIf c (abandonFill r dest) u).region k = u.region k :=
    onlyIf_shows (π := (State.region · k)) (abandonFill_region_ne h u dest)
  have rewound (c : Bool) (u : State) : (onlyIf c (rewindRegion r) u).region k = u.region k :=
    onlyIf_shows (π := (State.region · k)) (rewindRegion_region r u k)
  simp only [startEntry, pauseSweeps_region, rewound, landEngines_region, modRegion_region_ne _ _ _ _ h, dropped]
  exact noted _ _ s

theorem skipChange_region_ne (d) : (skipChange r d s).region k = s.region k := by
  have gated (u : State) : (onlyIf d.gated (startEntry r .gated) u).region k = u.region k :=
    onlyIf_shows (π := (State.region · k)) (startEntry_region_ne h u .gated)
  rw [skipChange, answerOverride_region, setResult_region_ne h, modRegion_region_ne _ _ _ _ h, gated]

theorem settleSr_region_ne : (settleSr r s).region k = s.region k := by
  simp only [settleSr]
  split
  · rfl
  · exact modRegion_region_ne _ _ _ _ h

theorem tripSpine_region_ne (j) : (tripSpine r j s).region k = s.region k := by
  simp only [tripSpine]
  rw [region_congr ((same_startPass (part := .regions) (by decide) r 2 none).mpr rfl) k, raise_region,
    modRegion_region_ne _ _ _ _ h]

theorem checkSpines_region_ne : (checkSpines r s).region k = s.region k := by
  refine forBelow_keeps (State.region · k) _ _ _ fun j u => ?_
  dsimp only
  split
  · exact tripSpine_region_ne h u j
  · rfl

theorem switchPlane_region_ne (p) : (switchPlane r p s).region k = s.region k := by
  simp only [switchPlane]
  split
  · rfl
  · rw [checkSpines_region_ne h, region_congr (holdGpio_regions ..) k, settleSr_region_ne h, relatchBorder_region_ne h,
      modRegion_region_ne _ _ _ _ h, settleSr_region_ne h, switchPortClocks_region]

theorem applyPermits_region_ne (e) : (applyPermits r e s).region k = s.region k := by
  rw [applyPermits, startPending_region, modRegion_region_ne _ _ _ _ h]

theorem loseWinner_region_ne (d) : (loseWinner r d s).1.region k = s.region k := by
  simp only [loseWinner]
  split
  · exact (raise_region ..).trans (modRegion_region_ne _ _ _ _ h)
  · exact (onlyIf_modRegion_ne h ..).trans (raise_region ..)

theorem carryOut_region_ne (d ovr outcome) : (carryOut r d ovr outcome s).region k = s.region k := by
  have entered (c : Bool) (p : Power) (u : State) : (onlyIf c (startEntry r p) u).region k = u.region k :=
    onlyIf_shows (π := (State.region · k)) (startEntry_region_ne h u p)
  simp only [carryOut, answerOverride_region, setResult_region_ne h, applyPermits_region_ne h, entered,
    switchPlane_region_ne h]
  split
  · exact loseWinner_region_ne h s d
  · rfl

theorem forceChange_region_ne (d outcome) : (forceChange r d outcome s).region k = s.region k := by
  unfold forceChange
  split
  · exact carryOut_region_ne h s d 0 outcome
  · rw [carryOut_region_ne h, modRegion_region_ne _ _ _ _ h, raise_region]

theorem overrun_region_ne (d) : (overrun r d s).region k = s.region k := by
  simp only [overrun]
  split
  · exact forceChange_region_ne h s d _
  · exact (skipChange_region_ne h _ d).trans (raise_region ..)

theorem overrideCandidate_region_ne (isTick) : (overrideCandidate r isTick s).1.region k = s.region k := by
  have owned {u : State} (kept : u.region k = s.region k) (c : Bool) (o : Override) :
      (if c = true then (u, some o, true) else (replyOpt o.waiter stNotOwner [] u, none, false)).1.region k = s.region k := by
    cases c
    · exact (replyOpt_region ..).trans kept
    · exact kept
  unfold overrideCandidate
  dsimp only
  split
  · split
    · rfl
    · exact owned (modRegion_region_ne _ _ _ _ h) _ _
  · rfl

theorem takeOverride_region_ne (j isTick e) : (takeOverride r j isTick e s).1.region k = s.region k := by
  have candidate := overrideCandidate_region_ne h s isTick
  simp only [takeOverride]
  split
  · exact candidate
  · split
    · exact (onlyIf_modRegion_ne h ..).trans candidate
    · exact ((replyOpt_region ..).trans (raise_region ..)).trans candidate

theorem takeFabric_region_ne (j e lost) : (takeFabric r j e lost s).1.region k = s.region k := by
  have refused (ev : EvRec) (f : Region → Region) : (raise ev (modRegion r f s)).region k = s.region k :=
    (raise_region ..).trans (modRegion_region_ne _ _ _ _ h)
  unfold takeFabric
  dsimp only
  split
  · rfl
  split
  · exact refused _ _
  split
  · exact refused _ _
  split
  · exact refused _ _
  · rfl

theorem chooseWinner_region_ne (j isTick gated) : (chooseWinner r j isTick gated s).1.region k = s.region k := by
  have asked (e lost) : (takeFabric r j e lost (takeOverride r j isTick e s).1).1.region k = s.region k :=
    (takeFabric_region_ne h _ j e lost).trans (takeOverride_region_ne h s j isTick e)
  simp only [chooseWinner]
  split
  · exact (modRegion_region_ne _ _ _ _ h).trans (asked _ _)
  · split
    · exact (modRegion_region_ne _ _ _ _ h).trans (asked _ _)
    split
    · exact asked _ _
    · exact (raise_region ..).trans (asked _ _)

theorem decideAsleep_region_ne (d) : (decideAsleep r d s).region k = s.region k := by
  simp only [decideAsleep]
  split
  · exact answerOverride_region ..
  split
  · rw [answerOverride_region, setResult_region_ne h, applyPermits_region_ne h, startEntry_region_ne h]
  split
  · rw [answerOverride_region, onlyIf_modRegion_ne h, raise_region]
  · exact startExit_region_ne h s _

end

/-! ### A slice that starts holds the border of its region, and so of those beside it -/

theorem latchBorder_other {β : Type} {π : Region → β} (vals : ∀ x v, π { x with isoVals := v } = π x) (k : Nat)
    (s₀ : State) (n : Nat) (t : State) : π ((latchBorder s₀ n t).region k) = π (t.region k) := by
  unfold latchBorder
  by_cases hk : k = n
  · subst hk
    rw [modRegion_region]
    exact vals _ _
  · rw [modRegion_region_ne _ _ _ _ hk]

section
variable {β : Type} {π : Region → β} (vals : ∀ x v, π { x with isoVals := v } = π x) {r k : Nat} (h : k ≠ r) (s : State)
include vals h

theorem settleHold_other : π ((settleHold r s).region k) = π (s.region k) := by
  simp only [settleHold]
  split
  · rfl
  · rw [region_congr (holdGpio_regions ..) k, useFree_region,
      forEach_keeps (fun u => π (u.region k)) _ _ _ fun n u => latchBorder_other vals k s n u,
      modRegion_region_ne _ _ _ _ h]

theorem runSlice_other (j p entry) : π ((runSlice r j p entry s).region k) = π (s.region k) := by
  rw [runSlice, settleHold_other vals h, modRegion_region_ne _ _ _ _ h, switchPlane_region_ne h]

theorem decideRunning_other (j d) : π ((decideRunning r j d s).region k) = π (s.region k) := by
  simp only [decideRunning]
  split
  · rw [setResult_region_ne h, applyPermits_region_ne h, runSlice_other vals h]
  split
  · rw [carryOut_region_ne h]
  split
  · rw [carryOut_region_ne h]
  split
  · rw [forceChange_region_ne h]
  split
  · rw [overrun_region_ne h]
  · rw [modRegion_region_ne _ _ _ _ h]

theorem decideRegion_other (j fresh) : π ((decideRegion r j fresh s).region k) = π (s.region k) := by
  simp only [decideRegion]
  split
  · rw [decideRunning_other vals h, chooseWinner_region_ne h, onlyIf_modRegion_ne h]
  · rw [decideAsleep_region_ne h, chooseWinner_region_ne h, onlyIf_modRegion_ne h]

/-- A deferred boundary that is decided changes at most what held border cells of other regions drive. -/
theorem takeDeferred_other : π ((takeDeferred r s).region k) = π (s.region k) := by
  simp only [takeDeferred]
  split
  · rfl
  split
  · rfl
  split
  · rw [modRegion_region_ne _ _ _ _ h]
  · rw [decideRegion_other vals h, modRegion_region_ne _ _ _ _ h]

end

/-! ### Commands of a region -/
section
variable {s : State} {p : Port} {sl : Fin 4} {k : Nat}

theorem regionClock_leaves (h : k ≠ (s.req p sl).target) : Leaves (.regionClock p sl) s (·.region k) :=
  shows_others (π := fun k s => s.region k) region_ofParts (fun k q u h => by
    simp only [regionClockSpec]
    repeat' split
    · rfl
    · rfl
    · rfl
    · exact modRegion_region_ne _ _ _ _ h) h

theorem regionPower_leaves (h : k ≠ (s.req p sl).target) : Leaves (.regionPower p sl) s (·.region k) :=
  shows_others (π := fun k s => s.region k) region_ofParts (fun k q u h => by
    simp only [regionPowerSpec]
    repeat' split
    · rfl
    · rfl
    · exact modRegion_region_ne _ _ _ _ h) h

theorem scheduleSet_leaves (h : k ≠ (s.req p sl).target) : Leaves (.scheduleSet p sl) s (·.region k) :=
  shows_others (π := fun k s => s.region k) region_ofParts (fun k q u h => by
    simp only [scheduleSetSpec]
    repeat' split
    · rfl
    · rfl
    · rfl
    · exact modRegion_region_ne _ _ _ _ h) h

theorem planeFill_leaves (h : k ≠ (s.req p sl).target) : Leaves (.planeFill p sl) s (·.region k) :=
  shows_others (π := fun k s => s.region k) region_ofParts (fun k q u h => by
    simp only [planeFillSpec]
    repeat' split
    · rfl
    · rfl
    · rfl
    · rfl
    · exact startFill_region_ne h u _) h

theorem planeOverride_leaves (h : k ≠ (s.req p sl).target) : Leaves (.planeOverride p sl) s (·.region k) :=
  shows_others (π := fun k s => s.region k) region_ofParts (fun k q u h => by
    simp only [planeOverrideSpec]
    repeat' split
    · rfl
    · exact clearOverride_region_ne h u
    · rfl
    · rfl
    · rfl
    · exact modRegion_region_ne _ _ _ _ h) h

theorem planeStatus_leaves (h : k ≠ (s.req p sl).target) : Leaves (.planeStatus p sl) s (·.region k) :=
  shows_others (π := fun k s => s.region k) region_ofParts (fun k q u h => by
    simp only [planeStatusSpec]
    repeat' split
    · rfl
    · rfl
    · exact (onlyIf_modRegion_ne h ..).trans (claimOne_shows (region_ofParts k) ..)) h

theorem spineEnable_leaves (h : k ≠ (s.req p sl).target) : Leaves (.spineEnable p sl) s (·.region k) :=
  shows_others (π := fun k s => s.region k) region_ofParts (fun k q u h => by
    simp only [spineEnableSpec]
    split
    · rfl
    · exact enableSpines_region_ne h u _) h

theorem bramClear_leaves (h : k ≠ (s.req p sl).target) : Leaves (.bramClear p sl) s (·.region k) :=
  shows_others (π := fun k s => s.region k) region_ofParts (fun k q u h => by
    simp only [bramClearSpec]
    split
    · rfl
    split
    · rfl
    split
    · rfl
    · exact modRegion_region_ne _ _ _ _ h) h

theorem dspHalt_leaves (h : k ≠ (s.req p sl).target) : Leaves (.dspHalt p sl) s (·.region k) := by
  show Shows _ s (execDspHalt p sl s)
  unfold execDspHalt
  split
  · exact shows_next
  · refine shows_others (π := fun k s => s.region k) region_ofParts (fun k q u h => ?_) h
    simp only [dspHaltSpec]
    split
    · rfl
    · rw [settleHalts_region_ne h, modRegion_region_ne _ _ _ _ h]
      exact forEach_keeps (State.region · k) _ _ _ fun _ _ => rfl

end

section
variable {s : State} {r : Fin 64} {k : Nat} (h : k ≠ r.val)
include h

theorem fabricClockChange_leaves : Leaves (.fabricClockChange r) s (·.region k) :=
  shows_occurs (region_ofParts k) (modRegion_region_ne _ _ _ _ h)

theorem quiesceAck_leaves : Leaves (.quiesceAck r) s (·.region k) :=
  shows_occurs (region_ofParts k) (quiesceEnds_region_ne h s)

theorem quiesceTimeout_leaves : Leaves (.quiesceTimeout r) s (·.region k) := by
  show Shows _ s (execQuiesceTimeout r s)
  unfold execQuiesceTimeout
  refine shows_occurs (region_ofParts k) ?_
  rw [quiesceEnds_region_ne h, raise_region]

theorem shelfSaveComplete_leaves : Leaves (.shelfSaveComplete r) s (·.region k) := by
  show Shows _ s (execShelfSaveComplete r s)
  unfold execShelfSaveComplete
  refine shows_occurs (region_ofParts k) ?_
  rw [region_congr (shieldRequests_regions ..) k, modRegion_region_ne _ _ _ _ h, saveShelf_region_ne h]

end

/-! ### An edge of another region's fabric clock -/

/-- A region without what an edge elsewhere can change: its flip-flops and what its held border cells drive. -/
def Region.core (x : Region) : Region := { x.bare with isoVals := [] }

theorem core_isoVals (x : Region) (v : List Border) : Region.core { x with isoVals := v } = x.core := by
  simp only [Region.core, Region.bare, Region.modPlane]
  split <;> rfl

theorem Held.core {x y : Region} (h : Held x y) : y.core = x.core := by rw [Region.core, h.1, Region.core]

theorem fabricEdge_core {r k : Nat} (h : k ≠ r) (i : FabricInputs) (s : State) :
    ((fabricEdge r i s).region k).core = (s.region k).core := by
  have held := (held_fabricEdge k r i s).core
  rwa [modRegion_region_ne _ _ _ _ h] at held

theorem fabricClockEdge_leaves_core {s : State} {r : Fin 64} {k : Nat} (h : k ≠ r.val) (i : FabricInputs) :
    Leaves (.fabricClockEdge r i) s (fun s => (s.region k).core) := by
  show Shows _ s (execFabricClockEdge r i s)
  unfold execFabricClockEdge
  refine shows_occurs ((region_ofParts k).comp Region.core) ?_
  rw [takeDeferred_other core_isoVals h, fabricEdge_core h]

/-- No asynchronous `SR` holds a flip-flop of a plane that has none. -/
theorem settleSr_of_sync {r : Nat} {s : State} (sync : ∀ e ∈ (s.region r).now.use.cells, e.2.srAsync = false) :
    settleSr r s = s := by
  have none : (s.region r).now.use.cells.filter (fun e => e.2.srAsync) = [] := by
    rw [List.filter_eq_nil_iff]
    exact fun e he => by simp [sync e he]
  simp only [settleSr, none]
  rfl

theorem settleAll_of_sync {k : Nat} {s : State} (sync : ∀ e ∈ (s.region k).now.use.cells, e.2.srAsync = false) (n : Nat) :
    (forBelow n settleSr s).region k = s.region k :=
  List.foldlRecOn _ _ (motive := fun t : State => t.region k = s.region k) rfl fun t same j _ => by
    by_cases own : k = j
    · subst own
      rw [settleSr_of_sync (by rwa [same])]
      exact same
    · exact (settleSr_region_ne own t).trans same

theorem fabricEdge_of_sync {r k : Nat} {s : State} (h : k ≠ r) (i : FabricInputs)
    (sync : ∀ e ∈ (s.region k).now.use.cells, e.2.srAsync = false) : (fabricEdge r i s).region k = s.region k := by
  have captured : (useFree (capturedState r i s)).region k = s.region k :=
    (region_congr ((useFree_regions _).trans (capturedState_regions r i s)) k).trans (modRegion_region_ne _ _ _ _ h)
  rw [fabricEdge_eq, settleAll_of_sync (by rwa [captured]), captured]

/-- Without a deferred boundary an edge leaves a region that no asynchronous `SR` touches. -/
theorem fabricClockEdge_leaves {s : State} {r : Fin 64} {k : Nat} (h : k ≠ r.val) (i : FabricInputs)
    (calm : (s.region r.val).deferred = none) (sync : ∀ e ∈ (s.region k).now.use.cells, e.2.srAsync = false) :
    Leaves (.fabricClockEdge r i) s (·.region k) := by
  have calm' : ((fabricEdge r.val i s).region r.val).deferred = none :=
    ((held_own r.val i s).keeps Region.deferred fun _ _ _ _ _ => rfl).trans
      ((edgeRegion_deferred s r.val i _).trans calm)
  show Shows _ s (execFabricClockEdge r i s)
  unfold execFabricClockEdge
  refine shows_occurs (region_ofParts k) ?_
  rw [takeDeferred_of_none calm', fabricEdge_of_sync h i sync]

/-! ### The statement -/

/-- Settles O58: each family of instances by the frame of its commands, and an edge by what it can reach elsewhere. -/
theorem otherInstancesAreLeft : Obligations.OtherInstancesAreLeft := by
  intro s
  refine ⟨fun p sl r h => ?regionCommands, fun k r h => ?regionEvents, fun k i r h =>
    ⟨fabricClockEdge_leaves_core h i, fabricClockEdge_leaves h i⟩, fun e k h => ?engines, fun e => ?data,
    fun p sl l h => ?laneCommands, fun k l h => ?laneEvents, fun p sl l h => ?linkCommands, fun k l h => ?linkEvents,
    fun p sl q h => riserStatus_leaves h, fun p sl q h next last => sprueQueue_leaves h next last,
    fun k m h => ⟨fun a b f => bramPortOperation_leaves h a b f, maintenanceSteal_leaves h⟩⟩
  all_goals simp only [List.forall_mem_cons, List.not_mem_nil, false_imp_iff, implies_true, and_true]
  case regionCommands =>
    exact ⟨regionClock_leaves h, regionPower_leaves h, scheduleSet_leaves h, planeFill_leaves h, planeOverride_leaves h,
      planeStatus_leaves h, spineEnable_leaves h, bramClear_leaves h, dspHalt_leaves h⟩
  case regionEvents =>
    exact ⟨fabricClockChange_leaves h, quiesceAck_leaves h, quiesceTimeout_leaves h, shelfSaveComplete_leaves h⟩
  case engines =>
    have issued (kind : BundleKind) := event_leaves kind s h
    exact ⟨issued .slots, issued .b, issued .call, issued .ret, issued .beqz, issued .bnez, issued .bltz, issued .bgez,
      issued .bdec, issued .limm, issued .loop, issued .nop, issued .halt, issued .waiti, issued .reti, issued .ei,
      issued .di, issued .sig, issued .reserved, interruptEntry_leaves h, waitiResume_leaves h, timerExpiry_leaves h,
      doorbell_leaves h, start_leaves h⟩
  case data =>
    have issued {kind : BundleKind} (plain : kind ≠ .slots) := event_leaves_data plain e s
    exact ⟨issued (kind := .b) nofun, issued (kind := .call) nofun, issued (kind := .ret) nofun,
      issued (kind := .beqz) nofun, issued (kind := .bnez) nofun, issued (kind := .bltz) nofun,
      issued (kind := .bgez) nofun, issued (kind := .bdec) nofun, issued (kind := .limm) nofun,
      issued (kind := .loop) nofun, issued (kind := .nop) nofun, issued (kind := .halt) nofun,
      issued (kind := .waiti) nofun, issued (kind := .reti) nofun, issued (kind := .ei) nofun, issued (kind := .di) nofun,
      issued (kind := .sig) nofun, issued (kind := .reserved) nofun⟩
  case laneCommands =>
    exact ⟨laneStatus_leaves h, laneReset_leaves h, laneSlip_leaves h, laneEyescan_leaves h, laneInject_leaves h⟩
  case laneEvents =>
    exact ⟨injectError_leaves h, cdrLocked_leaves h, trainingDone_leaves h, trainingTimeout_leaves h,
      laneLockAcquired_leaves h, laneTransmitItem_leaves h, prbsCheckerLock_leaves h, prbsCheckerLockLost_leaves h⟩
  case linkCommands => exact ⟨linkStatus_leaves h, linkLoopback_leaves h⟩
  case linkEvents =>
    exact ⟨gapSkewTimeout_leaves h, nakReplayTimeout_leaves h, linkBackoffEnd_leaves h, linkUpStable_leaves h,
      startingDegradeTimeout_leaves h, helloInterval_leaves h⟩

end Sys2Proof.Machine

/-! The plane commands and the ends of fills (R130, R131, R149, Tables 6.12 to 6.14), and `TICK_CONFIG` and `SCHEDULE_SET`
(R141, R144, Tables 6.10 and 6.11). -/

namespace Sys2Proof.Machine

/-! ### What a copy of an entry leaves (R130, R194) -/

/-- The fuses stay, and no new request waits at the Ladle. -/
def NoNewLoads (s u : State) : Prop := u.env.fuses = s.env.fuses ∧ u.lib.queue ⊆ s.lib.queue

section
variable {s u : State}

theorem noNewLoads_self : NoNewLoads s s := ⟨rfl, fun _ h => h⟩

theorem NoNewLoads.of_eq {v : State} (h : NoNewLoads s u) (fuses : v.env.fuses = u.env.fuses)
    (lib : v.lib = u.lib) : NoNewLoads s v := by
  rwa [NoNewLoads, fuses, lib]

theorem raise_noNewLoads (e) (h : NoNewLoads s u) : NoNewLoads s (raise e u) := h.of_eq (by simp) (by simp)

theorem freeReserved_keeps {β : Type} (π : State → β) (entry : ∀ i f v, π (modEntry i f v) = π v) (q : LoadReq) :
    π (freeReserved q u) = π u := by
  unfold freeReserved
  split
  · rfl
  · exact entry _ _ u

/-- The Ladle's requests are all answered, and none is left (R194). -/
theorem stopLoads_noNewLoads (h : NoNewLoads s u) : NoNewLoads s (stopLoads u) := by
  have env : (stopLoads u).env = u.env := forEach_keeps State.env _ _ _ fun q v => by
    rw [loadReply, reply_env, freeReserved_keeps State.env fun _ _ _ => rfl]
  have queue : (stopLoads u).lib.queue = [] := forEach_keeps (·.lib.queue) _ _ _ fun q v => by
    rw [loadReply, reply_lib, freeReserved_keeps (·.lib.queue) fun _ _ _ => rfl]
  refine ⟨by rw [env, h.1], ?_⟩
  rw [queue]
  exact List.nil_subset _

theorem securityAlarm_noNewLoads (h : NoNewLoads s u) : NoNewLoads s (securityAlarm u) := by
  have hold (f : Device → Device) (w : State) (hw : NoNewLoads s w) :
      NoNewLoads s (stopLoads (settleMode 0x19 (modDev f w))) :=
    stopLoads_noNewLoads (hw.of_eq (by simp) (by simp))
  unfold securityAlarm
  dsimp only
  split
  · exact h
  · split
    case h_5 | h_6 | h_7 => exact hold _ _ h
    all_goals exact h

theorem touchLine_noNewLoads (a fettler) (h : NoNewLoads s u) : NoNewLoads s (touchLine a fettler u) := by
  have fuses (pl w out i f) : (noteRead pl w out i f u).1.env.fuses = u.env.fuses :=
    (beyondBanks_eq_iff.mp (beyondBanks_noteRead pl w out i f)).2.1
  have lib (pl w out i f) : (noteRead pl w out i f u).1.lib = u.lib :=
    (same_noteRead (part := .lib) (s₀ := u) (by decide) pl w out i f).mpr rfl
  unfold touchLine onlyIf
  dsimp only
  split <;> exact h.of_eq (fuses ..) (lib ..)

theorem touchTagged_noNewLoads (r a) (h : NoNewLoads s u) : NoNewLoads s (touchTagged r a u) :=
  touchLine_noNewLoads _ _ (touchLine_noNewLoads _ _ h)

theorem touchPath_noNewLoads (r page res) (h : NoNewLoads s u) : NoNewLoads s (touchPath r page res u) :=
  List.foldlRecOn _ _ h fun _ hv _ _ => List.foldlRecOn _ _ hv fun _ hw _ _ => touchLine_noNewLoads _ _ hw

theorem bumpRange_noNewLoads (ri i n) (h : NoNewLoads s u) : NoNewLoads s (bumpRange ri i n u) := h

theorem lineFailure_noNewLoads (ri a mid op) (h : NoNewLoads s u) : NoNewLoads s (lineFailure ri a mid op u) :=
  securityAlarm_noNewLoads (raise_noNewLoads _ h)

theorem poisonAccess_noNewLoads (ri a mid) (h : NoNewLoads s u) : NoNewLoads s (poisonAccess ri a mid u) :=
  securityAlarm_noNewLoads (raise_noNewLoads _ h)

theorem itemFailure_noNewLoads (ri k j mid) (h : NoNewLoads s u) : NoNewLoads s (itemFailure ri k j mid u) :=
  securityAlarm_noNewLoads (raise_noNewLoads _ h)

theorem rangeRefusal_noNewLoads (ri a mid) (h : NoNewLoads s u) : NoNewLoads s (rangeRefusal ri a mid u) := by
  unfold rangeRefusal
  dsimp only
  split
  · exact h
  · exact raise_noNewLoads _ h

theorem readPageLines_noNewLoads (ri mid a off leaf lines) {acc : State × EntryRead} (h : NoNewLoads s acc.1) :
    NoNewLoads s (readPageLines ri mid a off leaf lines acc).1 := by
  refine List.foldlRecOn (motive := fun acc : State × EntryRead => NoNewLoads s acc.1) _ _ h fun acc hacc k _ => ?_
  dsimp only
  split
  · exact hacc
  · split
    · exact bumpRange_noNewLoads _ _ _ hacc
    · split
      · exact lineFailure_noNewLoads _ _ _ _ (touchTagged_noNewLoads _ _ hacc)
      · exact touchTagged_noNewLoads _ _ hacc

theorem readPage_noNewLoads (mid a off) {acc : State × EntryRead} (h : NoNewLoads s acc.1) :
    NoNewLoads s (readPage mid a off acc).1 := by
  obtain ⟨v, e⟩ := acc
  simp only [readPage]
  split
  · exact h
  · split
    · exact h
    · split
      · exact rangeRefusal_noNewLoads _ _ _ h
      · split
        · exact poisonAccess_noNewLoads _ _ _ h
        · split
          · exact itemFailure_noNewLoads _ _ _ _ (touchPath_noNewLoads _ _ _ h)
          · exact readPageLines_noNewLoads _ _ _ _ _ _ (touchPath_noNewLoads _ _ _ h)

theorem readEntry_noNewLoads (mid i) : NoNewLoads s (readEntry mid i s).1 :=
  List.foldlRecOn (motive := fun acc : State × EntryRead => NoNewLoads s acc.1) _ _ noNewLoads_self
    fun _ hacc _ _ => readPage_noNewLoads _ _ _ hacc

theorem copyEntry_noNewLoads (r i) : NoNewLoads s (copyEntry r i s).1 := by
  have read := readEntry_noNewLoads (s := s) r i
  unfold copyEntry
  split
  · exact noNewLoads_self
  · revert read
    rcases readEntry r i s with ⟨t, e⟩
    exact id

theorem copyFor_noNewLoads (r : Nat) (f : FillJob) : NoNewLoads s (copyFor r f s).1 := by
  unfold copyFor
  split
  · exact noNewLoads_self
  · split
    · exact noNewLoads_self
    · exact copyEntry_noNewLoads r f.index

theorem copyFor_regions (r : Nat) (f : FillJob) : (copyFor r f s).1.regions = s.regions := by
  unfold copyFor
  split
  · rfl
  · split
    · rfl
    · exact (same_copyEntry (part := .regions) (s₀ := s) (by decide) r f.index).mpr rfl

end

/-! ### The end of a fill (R130, R131) -/

section
variable {s : State} {r : Nat} {f : FillJob}

/-- A fill that ends with none waiting, in a region without a slice, and with its plane not about to be replaced, is all
that happens. -/
theorem completeFill_alone {t : State}
    (ended : (endFill r f (modRegion r (fun x => { x with fill := none }) s)).1 = t)
    (wait : (t.region r).fillWait = []) (slice : (t.region r).slice = none) :
    completeFill r f s = onlyIf (aboutToReplace t r f.plane)
      (modRegion r (fun x => x.modPlane f.plane (fun q => { q with st := .invalid }))) t := by
  have kept {β : Type} (π : Region → β) (h : ∀ x p g, π (Region.modPlane x p g) = π x) :
      π ((onlyIf (aboutToReplace t r f.plane)
        (modRegion r (fun x => x.modPlane f.plane (fun q => { q with st := .invalid }))) t).region r) = π (t.region r) := by
    unfold onlyIf
    split
    · rw [modRegion_region, h]
    · rfl
  unfold completeFill
  dsimp only
  rw [ended]
  simp only [nextFill, runIsolated, kept Region.fillWait (modPlane_keeps _ fun _ _ _ _ _ => rfl), wait]
  simp [kept Region.slice (modPlane_keeps _ fun _ _ _ _ _ => rfl), slice]

end

section
variable {s u : State} {r : Nat} {f : FillJob}

/-- A failed copy makes its plane INVALID, and changes nothing else of the region. -/
theorem endFill_failed {a c : Nat} (copy : copyFor r f s = (u, .failed a c)) :
    ∃ g : Plane → Plane, (endFill r f s).1.region r = (s.region r).modPlane f.plane g ∧
      ∀ q, (g q).st = .invalid := by
  have regions : u.regions = s.regions := by simpa [copy] using copyFor_regions (s := s) r f
  simp only [endFill, copy, ← region_congr regions r, fillReply_region, raise_region, modRegion_region]
  exact ⟨_, rfl, fun _ => rfl⟩

/-- A copy that succeeds makes its plane TEST, BARRED or VALID, and changes nothing else of the region. -/
theorem endFill_ok {frames : Table Frame} {n : Nat} (copy : copyFor r f s = (u, .ok frames n)) :
    ∃ g : Plane → Plane, (endFill r f s).1.region r = (s.region r).modPlane f.plane g ∧ ∀ q, (g q).st =
      if f.test then .test else if u.barredBy r (useOf r frames) then .barred else .valid := by
  have regions : u.regions = s.regions := by simpa [copy] using copyFor_regions (s := s) r f
  simp only [endFill, copy, ← region_congr regions r]
  split
  · simp only [fillReply_region, raise_region, modRegion_region]
    exact ⟨_, rfl, fun _ => rfl⟩
  · split
    next barred =>
      simp only [fillReply_region, raise_region, modRegion_region]
      exact ⟨_, rfl, fun _ => (if_pos barred).symm⟩
    next free =>
      simp only [fillReply_region, raise_region, modRegion_region]
      exact ⟨_, rfl, fun _ => (if_neg free).symm⟩

theorem endFill_lib : (endFill r f s).1.lib = (copyFor r f s).1.lib := by
  unfold endFill
  split
  next copy => simp [copy, fillReply]
  next copy =>
    dsimp only
    split
    · simp [copy, fillReply]
    · split <;> simp [copy, fillReply]

variable (job : (s.region r).fillWait = []) (slice : (s.region r).slice = none)
include job slice

/-- A fill whose copy fails leaves its plane INVALID and the region without a fill. -/
theorem completeFill_failed {a c : Nat}
    (copy : copyFor r f (modRegion r (fun x => { x with fill := none }) s) = (u, .failed a c)) :
    ((completeFill r f s).region r).fill = none ∧ (((completeFill r f s).region r).plane f.plane).st = .invalid := by
  obtain ⟨g, region, invalid⟩ := endFill_failed copy
  rw [modRegion_region] at region
  have keeps {β : Type} (π : Region → β)
      (h : ∀ x a b c d, π { x with plane0 := a, plane1 := b, plane2 := c, plane3 := d } = π x) :
      π (((endFill r f (modRegion r (fun x => { x with fill := none }) s)).1).region r) =
        π { s.region r with fill := none } := by
    rw [region]
    exact modPlane_keeps π h _ _ _
  rw [completeFill_alone rfl ((keeps Region.fillWait fun _ _ _ _ _ => rfl).trans job)
    ((keeps Region.slice fun _ _ _ _ _ => rfl).trans slice)]
  unfold onlyIf
  split
  · rw [modRegion_region, modPlane_plane_same]
    exact ⟨(modPlane_keeps Region.fill (fun _ _ _ _ _ => rfl) _ _ _).trans (keeps Region.fill fun _ _ _ _ _ => rfl), rfl⟩
  · rw [region, modPlane_plane_same]
    exact ⟨modPlane_keeps Region.fill (fun _ _ _ _ _ => rfl) _ _ _, invalid _⟩

/-- A fill whose copy succeeds leaves its plane as the copy gives it, and the region without a fill. -/
theorem completeFill_ok {frames : Table Frame} {n : Nat}
    (copy : copyFor r f (modRegion r (fun x => { x with fill := none }) s) = (u, .ok frames n))
    (stays : aboutToReplace s r f.plane = false) :
    ((completeFill r f s).region r).fill = none ∧ (((completeFill r f s).region r).plane f.plane).st =
      if f.test then .test else if s.barredBy r (useOf r frames) then .barred else .valid := by
  obtain ⟨g, region, state⟩ := endFill_ok copy
  rw [modRegion_region] at region
  have loads := copyFor_noNewLoads (s := modRegion r (fun x => { x with fill := none }) s) r f
  have regions := copyFor_regions (s := modRegion r (fun x => { x with fill := none }) s) r f
  have lib := endFill_lib (s := modRegion r (fun x => { x with fill := none }) s) (r := r) (f := f)
  rw [copy] at loads regions lib
  obtain ⟨fuses, queue⟩ : NoNewLoads s u := loads
  replace regions : u.region r = { s.region r with fill := none } := by
    rw [region_congr regions, modRegion_region]
  have barred (w) : u.barredBy r w = s.barredBy r w := by
    simp only [State.barredBy, State.defectMap, fuses, regions]
  have keeps {β : Type} (π : Region → β)
      (h : ∀ x a b c d, π { x with plane0 := a, plane1 := b, plane2 := c, plane3 := d } = π x) :
      π (((endFill r f (modRegion r (fun x => { x with fill := none }) s)).1).region r) =
        π { s.region r with fill := none } := by
    rw [region]
    exact modPlane_keeps π h _ _ _
  have waits := (keeps Region.fillWait fun _ _ _ _ _ => rfl).trans job
  have alone : aboutToReplace (endFill r f (modRegion r (fun x => { x with fill := none }) s)).1 r f.plane = false := by
    simp only [aboutToReplace, lib, waits, job, List.any_nil, Bool.or_false, List.any_eq_false] at stays ⊢
    exact fun q hq => stays q (queue hq)
  rw [completeFill_alone rfl waits ((keeps Region.slice fun _ _ _ _ _ => rfl).trans slice), alone]
  simp only [onlyIf, Bool.false_eq_true, if_false]
  rw [region, modPlane_plane_same, state, barred]
  exact ⟨modPlane_keeps Region.fill (fun _ _ _ _ _ => rfl) _ _ _, rfl⟩

end

/-! ### Overrides and the status of the planes (R149, Tables 6.13 and 6.14) -/

/-- A resource that the requester has needs no claim. -/
theorem claimOne_mine {q : Req} {k : Nat} {s : State} (mine : ownView q k s = .mine) : claimOne q k s = (s, stOk) := by
  have owned : ∃ o, s.owner k = some o := by
    unfold ownView at mine
    split at mine
    · cases mine
    next o h => exact ⟨o, h⟩
  obtain ⟨o, owned⟩ := owned
  simp [claimOne, claimAll, mine, forEach, claimImplicit, owned]

theorem takenState_of_no_owners {c : CmdSpec} {s : State} {p : Port} {sl : Fin 4}
    (none : c.owners (takenReq s p sl) (acceptSlot p sl s) = []) : takenState c s p sl = acceptSlot p sl s := by
  simp [takenState, none, claimAll, forEach]

@[simp] theorem takenState_entry (c : CmdSpec) (s : State) (p : Port) (sl : Fin 4) (i : Nat) :
    (takenState c s p sl).entry i = s.entry i := by
  simp [State.entry]

/-- A fill that starts in a region without one. -/
theorem startFill_region {r : Nat} {f : FillJob} {s : State} (idle : (s.region r).fill = none) :
    (startFill r f s).region r =
      { (s.region r).modPlane f.plane (fun q => { q with st := .filling }) with fill := some f } := by
  have job : ((s.region r).modPlane f.plane (fun q => { q with st := .filling })).fill = none :=
    (modPlane_keeps Region.fill (fun _ _ _ _ _ => rfl) _ _ _).trans idle
  simp [startFill, idle, job]

theorem clearOverride_idle {r : Nat} {s : State} (idle : (s.region r).pendingOv = none) : clearOverride r s =
    (modRegion r (fun x => { x with persistOv := none }) s,
      .done stOk [(16, 1, if (s.region r).persistOv.isSome then 0 else 3), (17, 1, (s.region r).active)]) := by
  simp [clearOverride, idle]

/-- The override that a request asks for (Table 6.13). -/
def overrideOf (q : Req) : Override where
  plane := q.argByte 8
  power := Power.ofCode (q.argByte 9)
  persistent := q.argByte 10 == 1
  atTick := q.atTick
  force := q.force
  owner := q.port
  waiter := some q.waiter

theorem planeOverrideSpec_set {q : Req} {s : State} (set : q.argByte 10 ≤ 1) (below : q.argByte 8 < 4)
    (power : q.argByte 9 < 6 ∨ q.argByte 9 = 0xFF) (idle : (s.region q.target).pendingOv = none)
    (usable : (s.region q.target).mayTake (q.argByte 8) = true) : planeOverrideSpec.body q s =
      (modRegion q.target (fun x => { x with pendingOv := some (overrideOf q) }) s, .wait) := by
  have small : ¬ 3 ≤ q.argByte 10 ∧ ¬ q.argByte 10 = 2 := by omega
  have legal : ¬ (4 ≤ q.argByte 8 ∨ 6 ≤ q.argByte 9 ∧ q.argByte 9 ≠ 0xFF) := by omega
  simp only [planeOverrideSpec, idle, usable, small, legal]
  rfl

theorem planeStatusSpec_clear {q : Req} {s : State} (clear : q.argByte 8 = 1)
    (mine : ownView q (ownKey 0 q.target) s = .mine) : planeStatusSpec.body q s =
      (modRegion q.target (fun x => { x with skips := 0, forced := 0, granted := 0, lost := 0 }) s,
        .done stOk (planeStatusResults q.target s)) := by
  simp [planeStatusSpec, clear, claimOne_mine mine, onlyIf]

@[simp] theorem planeStatusResults_takenState (c : CmdSpec) (s : State) (p : Port) (sl : Fin 4) (r : Nat) :
    planeStatusResults r (takenState c s p sl) = planeStatusResults r s := by
  simp [planeStatusResults]

section
variable {s : State} {p : Port} {sl : Fin 4} {r : Nat} (target : (s.req p sl).target = r)
include target

theorem planeFill_gives (granted : Granted planeFillSpec s p sl) (below : (s.req p sl).argByte 8 < 4)
    (held : (s.req p sl).arg 10 2 < s.lib.capacity) (ready : (s.entry ((s.req p sl).arg 10 2)).st = entryReady)
    (inactive : (s.req p sl).argByte 8 ≠ (s.region r).active) (fits : (s.entry ((s.req p sl).arg 10 2)).fits r = true)
    (idle : (s.region r).fill = none) (free : (s.region r).planeTaken ((s.req p sl).argByte 8) = false)
    (fillable : (s.region r).fillable = true) :
    Gives (.planeFill p sl) s (fun t => Waits t p sl ∧ ((t.region r).plane ((s.req p sl).argByte 8)).st = .filling ∧
      ∃ w, (t.region r).fill =
        some { plane := (s.req p sl).argByte 8, index := (s.req p sl).arg 10 2, waiter := some w }) := by
  refine gives_wait granted (u := startFill r
    { plane := (s.req p sl).argByte 8
      index := (s.req p sl).arg 10 2
      waiter := some (takenReq s p sl).waiter } (takenState planeFillSpec s p sl)) ?_ ⟨waits_committed rfl, ?_⟩
  · simp [planeFillSpec, target, ready, inactive, fits, idle, free, fillable, Nat.not_le.mpr below,
      Nat.not_le.mpr held]
  · rw [committed_region, startFill_region (by simpa using idle)]
    exact ⟨congrArg Plane.st (modPlane_plane_same ..), _, rfl⟩

theorem planeOverride_gives (granted : Granted planeOverrideSpec s p sl) (set : (s.req p sl).argByte 10 ≤ 1)
    (below : (s.req p sl).argByte 8 < 4) (power : (s.req p sl).argByte 9 < 6 ∨ (s.req p sl).argByte 9 = 0xFF)
    (idle : (s.region r).pendingOv = none) (usable : (s.region r).mayTake ((s.req p sl).argByte 8) = true) :
    Gives (.planeOverride p sl) s (fun t => Waits t p sl ∧ ∃ o, (t.region r).pendingOv = some o ∧
      o.plane = (s.req p sl).argByte 8 ∧ o.power = Power.ofCode ((s.req p sl).argByte 9) ∧
      o.persistent = ((s.req p sl).argByte 10 == 1) ∧ o.owner = p) := by
  have body := planeOverrideSpec_set (q := takenReq s p sl) (s := takenState planeOverrideSpec s p sl)
    (by simpa using set) (by simpa using below) (by simpa using power) (by simpa [target] using idle)
    (by simpa [target] using usable)
  rw [takenReq_target, target] at body
  exact gives_wait granted body ⟨waits_committed rfl, overrideOf (takenReq s p sl), by simp, by simp [overrideOf]⟩

theorem planeStatus_clears (granted : Granted planeStatusSpec s p sl) (clear : (s.req p sl).argByte 8 = 1)
    (mine : ownView (s.req p sl) (ownKey 0 r) s = .mine) :
    Gives (.planeStatus p sl) s (fun t => Answered s t p sl stOk (planeStatusResults r s) ∧
      (t.region r).skips = 0 ∧ (t.region r).forced = 0 ∧ (t.region r).granted = 0 ∧ (t.region r).lost = 0) := by
  have taken : takenState planeStatusSpec s p sl = acceptSlot p sl s := takenState_of_no_owners rfl
  have view : ownView (takenReq s p sl) (ownKey 0 r) (takenState planeStatusSpec s p sl) = .mine := by
    rw [taken, ownView_taken, mine]
  have body := planeStatusSpec_clear (q := takenReq s p sl) (s := takenState planeStatusSpec s p sl) (by simpa using clear)
    (by simpa [target] using view)
  rw [takenReq_target, target, planeStatusResults_takenState] at body
  exact gives_done granted body rfl ⟨answered_committed rfl (by simp), by simp⟩

end

/-- Settles O10: a command that passes its checks, by what it sets; a fill's end, by what its copy gives. -/
theorem planesComplete : Obligations.PlanesComplete := by
  refine ⟨fun s p sl r target => ⟨?_, ?_, fun granted clear idle => ?_, fun granted plain => ?_, ?_⟩,
    fun s r f awake job plain _ wait slice => ⟨fun a c copy => ?_, fun frames n copy stays => ?_⟩⟩
  · rintro pl i granted rfl rfl
    exact planeFill_gives target granted
  · rintro pl granted set rfl
    exact planeOverride_gives target granted set
  · refine gives_done granted (u := modRegion r (fun x => { x with persistOv := none })
      (takenState planeOverrideSpec s p sl)) (st := stOk) ?_ rfl ⟨by simp, answered_committed rfl (by simp)⟩
    simp [planeOverrideSpec, clear, target, clearOverride_idle, idle]
  · refine gives_done granted (u := takenState planeStatusSpec s p sl) (st := stOk) (res := planeStatusResults r s) ?_ rfl
      ⟨answered_committed rfl (by simp), by simp⟩
    simp [planeStatusSpec, plain, target]
  · exact planeStatus_clears target
  all_goals
    unfold Gives
    simp only [exec, execPlaneFillComplete, job]
    refine gives_occurs (by simp [awake, plain]) ?_
    simp only [committed_region]
  · exact completeFill_failed wait slice (Prod.ext rfl copy)
  · exact completeFill_ok wait slice (Prod.ext rfl copy) stays

/-! ### What is held until the tick boundary (R141, R144) -/

/-- Settles O9: a QUERY reads what the request's acceptance does not touch; a setting that passes its checks, with no other
one waiting, becomes the shadow and leaves what is in force. -/
theorem tickCommandsComplete : Obligations.TickCommandsComplete := by
  intro s p sl
  refine ⟨fun granted query => ?_, fun granted set valid free => ?_, fun granted query => ?_,
    fun granted set valid free => ?_⟩
  · refine gives_done granted (u := takenState tickConfigSpec s p sl) (st := stOk) (res := tickCfgResults s.tick.cfg) ?_ rfl
      ⟨answered_committed rfl (by simp), by simp⟩
    simp [tickConfigSpec, query]
  · refine gives_wait granted (u := modTick (fun t => { t with
        shadow := some (tickCfgOf ((s.req p sl).argBytes 8 68), some (takenReq s p sl).waiter) })
      (takenState tickConfigSpec s p sl)) ?_ ⟨waits_committed rfl, by simp, _, by simp; rfl⟩
    simp [tickConfigSpec, set, valid, free]
  · refine gives_done granted (u := takenState scheduleSetSpec s p sl) (st := stOk)
      (res := schedResults (s.region (s.req p sl).target).sched) ?_ rfl
      ⟨answered_committed rfl (by simp), by simp⟩
    simp [scheduleSetSpec, query]
  · refine gives_wait granted (u := modRegion (s.req p sl).target (fun x => { x with
        shadow := some (schedOf ((s.req p sl).argBytes 8 39), some (takenReq s p sl).waiter) })
      (takenState scheduleSetSpec s p sl)) ?_ ⟨waits_committed rfl, by simp, _, by simp; rfl⟩
    simp [scheduleSetSpec, set, valid, free]

end Sys2Proof.Machine

/-! Commands of two to six parts (O56). What such a command goes through writes those parts at most; the lemmas `same_f`
say so of the functions that no earlier frame needed, `kept_exec` of the commands. -/

namespace Sys2Proof.Machine

/-! ### What changes no part -/
section
variable {part : Part} {s₀ s : State}

@[simp] theorem same_laneUpEvent (l) : part.same s₀ (laneUpEvent l s) ↔ part.same s₀ s := by simp [laneUpEvent]
@[simp] theorem same_abortSlots (ports sts) : part.same s₀ (abortSlots ports sts s) ↔ part.same s₀ s := by
  simp [abortSlots]

@[simp] theorem same_freeMb0 : part.same s₀ (freeMb0 s).1 ↔ part.same s₀ s := by simp [freeMb0]
@[simp] theorem same_readDir (w copy first) : part.same s₀ (readDir w copy first s) ↔ part.same s₀ s := by
  simp only [readDir]
  split <;> simp

@[simp] theorem same_rejectEvents (r flash mid) : part.same s₀ (rejectEvents r flash mid s) ↔ part.same s₀ s := by
  simp [rejectEvents]

@[simp] theorem same_pointEvent (d old new) : part.same s₀ (pointEvent d old new s) ↔ part.same s₀ s := by
  simp [pointEvent]

@[simp] theorem same_badCopies : part.same s₀ (badCopies s) ↔ part.same s₀ s := by simp [badCopies]
@[simp] theorem same_resetBegun (cause) : part.same s₀ (resetBegun cause s) ↔ part.same s₀ s := by simp [resetBegun]
@[simp] theorem same_rangeMade (ri) : part.same s₀ (rangeMade ri s) ↔ part.same s₀ s := by simp [rangeMade]
@[simp] theorem same_loadFailed (r f addr cause) : part.same s₀ (loadFailed r f addr cause s) ↔ part.same s₀ s := by
  simp [loadFailed]

@[simp] theorem same_abandonImage (code cause) : part.same s₀ (abandonImage code cause s) ↔ part.same s₀ s := by
  simp [abandonImage]

@[simp] theorem same_captureBank (r i) (u : State) : part.same s₀ (captureBank r i u s) ↔ part.same s₀ s := by
  simp [captureBank]
/-- What reads of each entry of a list leave. -/
theorem same_passOver {α : Type} {read : α → State → State × GridOut}
    (h : ∀ x u, part.same s₀ (read x u).1 ↔ part.same s₀ u) (l : List α) (acc : State × PassCount) :
    part.same s₀ (passOver l read acc).1 ↔ part.same s₀ acc.1 := by
  refine same_foldl_fst (fun u x => ?_) l acc
  exact h x u.1

end

/-! ### What changes at most the regions -/
section
variable {part : Part} {s₀ s : State} (hp : part ≠ .regions)
include hp

@[simp] theorem same_releaseRegion (q) : part.same s₀ (releaseRegion q s).1 ↔ part.same s₀ s := by
  simp [releaseRegion, hp]

@[simp] theorem same_settleHalts (r) : part.same s₀ (settleHalts r s) ↔ part.same s₀ s := by simp [settleHalts, hp]
@[simp] theorem same_afterEngine (id was) : part.same s₀ (afterEngine id was s) ↔ part.same s₀ s := by
  simp [afterEngine, hp]

@[simp] theorem same_saveShelf (r) : part.same s₀ (saveShelf r s) ↔ part.same s₀ s := by simp [saveShelf, hp]
@[simp] theorem same_splitFrame (r p key ps) : part.same s₀ (splitFrame r p key ps s).1 ↔ part.same s₀ s := by
  simp [splitFrame, hp]

@[simp] theorem same_spoilFill (r) : part.same s₀ (spoilFill r s) ↔ part.same s₀ s := by simp [spoilFill, hp]
@[simp] theorem same_nextFill (r) : part.same s₀ (nextFill r s) ↔ part.same s₀ s := by
  simp only [nextFill]
  split <;> simp [hp]

@[simp] theorem same_afterReady (q i) : part.same s₀ (afterReady q i s) ↔ part.same s₀ s := by
  simp only [afterReady]
  split <;> simp [hp]

end

/-! ### What changes at most the Runner's records -/
section
variable {part : Part} {s₀ s : State} (hp : part ≠ .runner)
include hp

@[simp] theorem same_endpointReset : part.same s₀ (endpointReset s) ↔ part.same s₀ s := by simp [endpointReset, hp]
@[simp] theorem same_resetEndpoint : part.same s₀ (resetEndpoint s).1 ↔ part.same s₀ s := by simp [resetEndpoint, hp]
@[simp] theorem same_spoilLine (r p) : part.same s₀ (spoilLine r p s) ↔ part.same s₀ s := by
  simp only [spoilLine]
  split <;> simp [hp]

end

/-! ### What changes at most the library -/
section
variable {part : Part} {s₀ s : State} (hp : part ≠ .lib)
include hp

@[simp] theorem same_stageImage (q kind bs) : part.same s₀ (stageImage q kind bs s).1 ↔ part.same s₀ s := by
  simp only [stageImage]
  repeat' split
  all_goals simp [hp]

@[simp] theorem same_cutFlash : part.same s₀ (cutFlash s) ↔ part.same s₀ s := by
  simp only [cutFlash]
  repeat' split
  all_goals simp [hp]

@[simp] theorem same_finishJob (j) : part.same s₀ (finishJob j s) ↔ part.same s₀ s := by
  simp only [finishJob]
  split <;> simp [hp]

@[simp] theorem same_makeReady (im place i frames boot mid) :
    part.same s₀ (makeReady im place i frames boot mid s) ↔ part.same s₀ s := by simp [makeReady, hp]

end

/-! ### What changes at most the engines -/
section
variable {part : Part} {s₀ s : State} (hp : part ≠ .dsp)
include hp

@[simp] theorem same_haltEngine (id) : part.same s₀ (haltEngine id s) ↔ part.same s₀ s := by simp [haltEngine, hp]
@[simp] theorem same_splitDsp (id prog w ps) : part.same s₀ (splitDsp id prog w ps s).1 ↔ part.same s₀ s := by
  simp [splitDsp, hp]

@[simp] theorem same_spoilItem (id n) : part.same s₀ (spoilItem id n s) ↔ part.same s₀ s := by simp [spoilItem, hp]

end

/-! ### What changes at most the block memories -/
section
variable {part : Part} {s₀ s : State} (hp : part ≠ .brams)
include hp

@[simp] theorem same_stallPort (m isA c o) : part.same s₀ (stallPort m isA c o s) ↔ part.same s₀ s := by
  simp [stallPort, hp]

@[simp] theorem same_advancePort (m isA c o) : part.same s₀ (advancePort m isA c o s) ↔ part.same s₀ s := by
  simp [advancePort, hp]

@[simp] theorem same_settleWaitB (m) : part.same s₀ (settleWaitB m s) ↔ part.same s₀ s := by simp [settleWaitB, hp]
@[simp] theorem same_countStarve (m o) : part.same s₀ (countStarve m o s) ↔ part.same s₀ s := by
  simp [countStarve, hp]

@[simp] theorem same_raiseWait (m isA) : part.same s₀ (raiseWait m isA s) ↔ part.same s₀ s := by simp [raiseWait, hp]
@[simp] theorem same_pushPipe (m isA rd lat v) : part.same s₀ (pushPipe m isA rd lat v s) ↔ part.same s₀ s := by
  simp [pushPipe, hp]

@[simp] theorem same_markBusy (m isA) : part.same s₀ (markBusy m isA s) ↔ part.same s₀ s := by simp [markBusy, hp]
@[simp] theorem same_splitBram (m w ps) : part.same s₀ (splitBram m w ps s).1 ↔ part.same s₀ s := by
  simp [splitBram, hp]

@[simp] theorem same_spoilPort (m isA) : part.same s₀ (spoilPort m isA s) ↔ part.same s₀ s := by simp [spoilPort, hp]

end

/-! ### What changes at most the Ingot banks -/
section
variable {part : Part} {s₀ s : State} (hp : part ≠ .ingot)
include hp

@[simp] theorem same_splitIngot (bank off ps) : part.same s₀ (splitIngot bank off ps s).1 ↔ part.same s₀ s := by
  simp [splitIngot, hp]

end

/-! ### What changes at most the domains -/
section
variable {part : Part} {s₀ s : State} (hp : part ≠ .domains)
include hp

@[simp] theorem same_modDomain (d f) : part.same s₀ (modDomain d f s) ↔ part.same s₀ s := by
  cases part <;> simp_all [Part.same, modDomain]

@[simp] theorem same_domainNoAck (d) : part.same s₀ (domainNoAck d s) ↔ part.same s₀ s := by simp [domainNoAck, hp]

end

/-! ### What changes at most the clocks -/
section
variable {part : Part} {s₀ s : State} (hp : part ≠ .clk)
include hp

@[simp] theorem same_copeNoAck : part.same s₀ (copeNoAck s) ↔ part.same s₀ s := by simp [copeNoAck, hp]
@[simp] theorem same_relock : part.same s₀ (relock s) ↔ part.same s₀ s := by simp [relock, hp]

end

/-! ### What changes at most the lanes -/
section
variable {part : Part} {s₀ s : State} (hp : part ≠ .lanes)
include hp

@[simp] theorem same_enterTraining (l) : part.same s₀ (enterTraining l s) ↔ part.same s₀ s := by
  simp [enterTraining, hp]

@[simp] theorem same_lockLane (l) : part.same s₀ (lockLane l s) ↔ part.same s₀ s := by simp [lockLane, hp]

end

/-! ### What changes at most the links -/
section
variable {part : Part} {s₀ s : State} (hp : part ≠ .links)
include hp

@[simp] theorem same_laneJoined (lane) : part.same s₀ (laneJoined lane s) ↔ part.same s₀ s := by
  simp only [laneJoined]
  repeat' split
  all_goals simp [hp]

@[simp] theorem same_laneUp (l) : part.same s₀ (laneUp l s) ↔ part.same s₀ s := by simp [laneUp, hp]

end

/-! ### What changes at most the system layer -/
section
variable {part : Part} {s₀ s : State} (hp : part ≠ .sys)
include hp

@[simp] theorem same_addPinned (n profile) : part.same s₀ (addPinned n profile s).1 ↔ part.same s₀ s := by
  simp only [addPinned]
  split <;> simp [hp]

@[simp] theorem same_setTimeNode (q) : part.same s₀ (setTimeNode q s) ↔ part.same s₀ s := by simp [setTimeNode, hp]
@[simp] theorem same_evictDown (n) : part.same s₀ (evictDown n s) ↔ part.same s₀ s := by
  induction n generalizing s with
  | zero => rfl
  | succ n ih =>
    have evicted := same_evictOne (s₀ := s₀) (s := s) hp (s.sys.partners.map (·.1))
    unfold evictDown
    split
    · rfl
    · split
      all_goals
        next heq =>
          rw [heq] at evicted
          simpa [ih] using evicted

end

/-! ### What changes at most the HBM -/
section
variable {part : Part} {s₀ s : State} (hp : part ≠ .hbm)
include hp

@[simp] theorem same_rebuildLevel (newKey ri k) : part.same s₀ (rebuildLevel newKey ri k s) ↔ part.same s₀ s := by
  simp [rebuildLevel, hp]

@[simp] theorem same_reinitRange (ri) : part.same s₀ (reinitRange ri s) ↔ part.same s₀ s := by simp [reinitRange, hp]
@[simp] theorem same_reinitSubtree (ri level index) :
    part.same s₀ (reinitSubtree ri level index s) ↔ part.same s₀ s := by
  rw [reinitSubtree, same_writeUnder hp, same_modHbm hp]

@[simp] theorem same_subtreeDone (ri level index w) :
    part.same s₀ (subtreeDone ri level index w s) ↔ part.same s₀ s := by simp [subtreeDone, hp]

end

/-! ### What changes at most the integrity records -/
section
variable {part : Part} {s₀ s : State} (hp : part ≠ .integ)
include hp

@[simp] theorem same_modCrcUnit (r f) : part.same s₀ (modCrcUnit r f s) ↔ part.same s₀ s := by simp [modCrcUnit, hp]
@[simp] theorem same_crcUnitOp (r unit f) : part.same s₀ (crcUnitOp r unit f s) ↔ part.same s₀ s := by
  simp only [crcUnitOp]
  repeat' split
  all_goals simp [hp]

end

/-! ### What changes at most the thermal records -/
section
variable {part : Part} {s₀ s : State} (hp : part ≠ .therm)
include hp

@[simp] theorem same_settleThrottle : part.same s₀ (settleThrottle s) ↔ part.same s₀ s := by simp [settleThrottle, hp]
@[simp] theorem same_settleWarning : part.same s₀ (settleWarning s) ↔ part.same s₀ s := by simp [settleWarning, hp]
@[simp] theorem same_settleColumns : part.same s₀ (settleColumns s) ↔ part.same s₀ s := by simp [settleColumns, hp]
@[simp] theorem same_noteLedger (base o) : part.same s₀ (noteLedger base o s) ↔ part.same s₀ s := by
  simp [noteLedger, hp]

@[simp] theorem same_takeLedger : part.same s₀ (takeLedger s) ↔ part.same s₀ s := by simp [takeLedger, hp]

end

/-! ### What changes at most the bonds -/
section
variable {part : Part} {s₀ s : State} (hp : part ≠ .bonds)
include hp

@[simp] theorem same_advanceSlice (r slice pattern) : part.same s₀ (advanceSlice r slice pattern s) ↔ part.same s₀ s := by
  simp [advanceSlice, hp]

end

/-! ### What changes at most the integrity records and the regions -/
section
variable {part : Part} {s₀ s : State} (hp : part ≠ .integ ∧ part ≠ .regions)
include hp

@[simp] theorem same_endReset (r) : part.same s₀ (endReset r s) ↔ part.same s₀ s := by simp [endReset, hp]
@[simp] theorem same_crcOperate (r unit n f) : part.same s₀ (crcOperate r unit n f s) ↔ part.same s₀ s := by
  simp [crcOperate, hp]

@[simp] theorem same_keepLoad (r f frames) : part.same s₀ (keepLoad r f frames s) ↔ part.same s₀ s := by
  simp [keepLoad, hp]

end

/-! ### What changes at most the regions and the Runner's records -/
section
variable {part : Part} {s₀ s : State} (hp : part ≠ .regions ∧ part ≠ .runner)
include hp

@[simp] theorem same_isolateByCommand (r w) : part.same s₀ (isolateByCommand r w s) ↔ part.same s₀ s := by
  simp [isolateByCommand, hp]

end

/-! ### What changes at most the library and the regions -/
section
variable {part : Part} {s₀ s : State} (hp : part ≠ .lib ∧ part ≠ .regions)
include hp

@[simp] theorem same_removeEntry (i) : part.same s₀ (removeEntry i s) ↔ part.same s₀ s := by simp [removeEntry, hp]

end

/-! ### What changes at most the engines and the regions -/
section
variable {part : Part} {s₀ s : State} (hp : part ≠ .dsp ∧ part ≠ .regions)
include hp

@[simp] theorem same_fabricEdge (r i) : part.same s₀ (fabricEdge r i s) ↔ part.same s₀ s := by simp [fabricEdge, hp]

end

/-! ### What changes at most the clocks and the domains -/
section
variable {part : Part} {s₀ s : State} (hp : part ≠ .clk ∧ part ≠ .domains)
include hp

@[simp] theorem same_startPoint (d p) : part.same s₀ (startPoint d p s) ↔ part.same s₀ s := by simp [startPoint, hp]
@[simp] theorem same_requestPoint (q) : part.same s₀ (requestPoint q s).1 ↔ part.same s₀ s := by
  simp only [requestPoint]
  repeat' split
  all_goals simp [hp]

@[simp] theorem same_domainNext (d) : part.same s₀ (domainNext d s) ↔ part.same s₀ s := by simp [domainNext, hp]
@[simp] theorem same_domainDone (d) : part.same s₀ (domainDone d s) ↔ part.same s₀ s := by simp [domainDone, hp]
@[simp] theorem same_domainAck (d) : part.same s₀ (domainAck d s) ↔ part.same s₀ s := by
  simp only [domainAck]
  split <;> simp [hp]

@[simp] theorem same_domainRelock (d) : part.same s₀ (domainRelock d s) ↔ part.same s₀ s := by
  simp [domainRelock, hp]

@[simp] theorem same_planDomain (d volts) : part.same s₀ (planDomain d volts s) ↔ part.same s₀ s := by
  simp [planDomain, hp]

end

/-! ### What changes at most the clocks, the domains and the thermal records -/
section
variable {part : Part} {s₀ s : State} (hp : part ≠ .clk ∧ part ≠ .domains ∧ part ≠ .therm)
include hp

@[simp] theorem same_rePlan : part.same s₀ (rePlan s) ↔ part.same s₀ s := by simp [rePlan, hp]
@[simp] theorem same_recordMeasurement (ratios) : part.same s₀ (recordMeasurement ratios s) ↔ part.same s₀ s := by
  simp [recordMeasurement, hp]

end

/-! ### What changes at most the Runner's records and the system layer -/
section
variable {part : Part} {s₀ s : State} (hp : part ≠ .runner ∧ part ≠ .sys)
include hp

@[simp] theorem same_checkLines : part.same s₀ (checkLines s) ↔ part.same s₀ s := by simp [checkLines, hp]
@[simp] theorem same_changePartner (op k q) : part.same s₀ (changePartner op k q s).1 ↔ part.same s₀ s := by
  simp only [changePartner]
  split <;> simp [hp]

@[simp] theorem same_sweepPartners : part.same s₀ (sweepPartners s) ↔ part.same s₀ s := by simp [sweepPartners, hp]
@[simp] theorem same_takeResponse (m) : part.same s₀ (takeResponse m s) ↔ part.same s₀ s := by
  simp only [takeResponse]
  split <;> simp [hp]

end

/-! ### What changes at most the HBM and the library -/
section
variable {part : Part} {s₀ s : State} (hp : part ≠ .hbm ∧ part ≠ .lib)
include hp

@[simp] theorem same_convertPage (newKey ri page) : part.same s₀ (convertPage newKey ri page s) ↔ part.same s₀ s := by
  have failed (k j) : part.same s₀ (itemFailure ri k j 71 s) ↔ part.same s₀ s := by simp [hp]
  unfold convertPage
  dsimp only
  split
  · rfl
  · split
    · exact failed _ _
    · split
      · exact failed _ _
      · exact same_modHbm hp.1 _

@[simp] theorem same_convertRange (newKey ri) : part.same s₀ (convertRange newKey ri s) ↔ part.same s₀ s := by
  simp [convertRange, hp]

@[simp] theorem same_convertAll (k) : part.same s₀ (convertAll k s) ↔ part.same s₀ s := by simp [convertAll, hp]
@[simp] theorem same_endRekey (k) : part.same s₀ (endRekey k s) ↔ part.same s₀ s := by simp [endRekey, hp]
@[simp] theorem same_endReinit (ri level index w) : part.same s₀ (endReinit ri level index w s) ↔ part.same s₀ s := by
  simp only [endReinit]
  repeat' split
  all_goals simp [hp]

@[simp] theorem same_createLibrary : part.same s₀ (createLibrary s) ↔ part.same s₀ s := by simp [createLibrary, hp]

end

/-! ### What changes at most the clocks, the domains, the HBM, the library and the thermal records -/
section
variable {part : Part} {s₀ s : State}
  (hp : part ≠ .clk ∧ part ≠ .domains ∧ part ≠ .hbm ∧ part ≠ .lib ∧ part ≠ .therm)
include hp

@[simp] theorem same_runFirmware (image) : part.same s₀ (runFirmware image s) ↔ part.same s₀ s := by
  simp [runFirmware, hp]
/-- The choice of the image stands for itself here: the comparison of the two sides must not begin to compute it. -/
@[simp] theorem same_authenticate : part.same s₀ (authenticate s) ↔ part.same s₀ s := by
  rw [show @authenticate = _ by delta authenticate; rfl]
  generalize bootFirmware = choose
  as_aux_lemma =>
    dsimp only
    split <;> simp [hp]

end

/-! ### What changes at most the clocks, the HBM and the library -/
section
variable {part : Part} {s₀ s : State} (hp : part ≠ .clk ∧ part ≠ .hbm ∧ part ≠ .lib)
include hp

@[simp] theorem same_startLock : part.same s₀ (startLock s) ↔ part.same s₀ s := by simp [startLock, hp]

end

/-! ### What changes at most the lanes and the Runner's records -/
section
variable {part : Part} {s₀ s : State} (hp : part ≠ .lanes ∧ part ≠ .runner)
include hp

@[simp] theorem same_pcieReset (kind) : part.same s₀ (pcieReset kind s) ↔ part.same s₀ s := by
  cases kind <;> simp [pcieReset, hp]

@[simp] theorem same_holdEndpoint : part.same s₀ (holdEndpoint s) ↔ part.same s₀ s := by simp [holdEndpoint, hp]

end

/-! ### What changes at most the lanes, the links and the thermal records -/
section
variable {part : Part} {s₀ s : State} (hp : part ≠ .lanes ∧ part ≠ .links ∧ part ≠ .therm)
include hp

@[simp] theorem same_shutdown (i prev) : part.same s₀ (shutdown i prev s) ↔ part.same s₀ s := by simp [shutdown, hp]
@[simp] theorem same_sampleSensors (raw) : part.same s₀ (sampleSensors raw s) ↔ part.same s₀ s := by
  simp only [sampleSensors, same_ite]
  repeat' split
  all_goals simp [hp]

end

/-! ### What changes at most the block memories and the Runner's records -/
section
variable {part : Part} {s₀ s : State} (hp : part ≠ .brams ∧ part ≠ .runner)
include hp

@[simp] theorem same_endWindowOp (m j got) : part.same s₀ (endWindowOp m j got s) ↔ part.same s₀ s := by
  simp only [endWindowOp]
  split <;> simp [hp]

@[simp] theorem same_endHalf (m) : part.same s₀ (endHalf m s) ↔ part.same s₀ s := by
  simp only [endHalf]
  split <;> simp [hp]

end

/-! ### What changes at most the block memories and the integrity records -/
section
variable {part : Part} {s₀ s : State} (hp : part ≠ .brams ∧ part ≠ .integ)
include hp

@[simp] theorem same_scrubOp (m w a) : part.same s₀ (scrubOp m w a s).1 ↔ part.same s₀ s := by simp [scrubOp, hp]
@[simp] theorem same_portWrite (m isA c o) : part.same s₀ (portWrite m isA c o s).1 ↔ part.same s₀ s := by
  simp [portWrite, hp]

@[simp] theorem same_portRead (m isA c o) : part.same s₀ (portRead m isA c o s).1 ↔ part.same s₀ s := by
  simp [portRead, hp]

@[simp] theorem same_takeOp (m isA c o x) : part.same s₀ (takeOp m isA c o x s) ↔ part.same s₀ s := by
  simp [takeOp, hp]

@[simp] theorem same_portEdge (m isA c o x took) : part.same s₀ (portEdge m isA c o x took s) ↔ part.same s₀ s := by
  simp [portEdge, hp]

@[simp] theorem same_passBrams (r) (acc : State × PassCount) :
    part.same s₀ (passBrams r acc).1 ↔ part.same s₀ acc.1 := by
  refine same_foldl_fst (fun u m => ?_) _ acc
  exact same_passOver (fun w v => same_fettleBram hp _ _) _ _

end

/-! ### What changes at most the block memories, the integrity records and the Runner's records -/
section
variable {part : Part} {s₀ s : State} (hp : part ≠ .brams ∧ part ≠ .integ ∧ part ≠ .runner)
include hp

@[simp] theorem same_windowOp (m a j) : part.same s₀ (windowOp m a j s).1 ↔ part.same s₀ s := by
  simp only [windowOp]
  repeat' split
  all_goals simp [hp]

@[simp] theorem same_maintOp (m a) : part.same s₀ (maintOp m a s).1 ↔ part.same s₀ s := by
  simp only [maintOp]
  split <;> simp [hp]

@[simp] theorem same_maintEdge (m a) : part.same s₀ (maintEdge m a s).1 ↔ part.same s₀ s := by simp [maintEdge, hp]
@[simp] theorem same_portEdgeB (m c o x took a) : part.same s₀ (portEdgeB m c o x took a s).1 ↔ part.same s₀ s := by
  simp [portEdgeB, hp]

end

/-! ### What changes at most the HBM, the integrity records and the library -/
section
variable {part : Part} {s₀ s : State} (hp : part ≠ .hbm ∧ part ≠ .integ ∧ part ≠ .lib)
include hp

@[simp] theorem same_writeBuffer (a bs) : part.same s₀ (writeBuffer a bs s).1 ↔ part.same s₀ s := by
  refine same_foldl_fst (fun u i => ?_) _ _
  dsimp only
  split <;> simp [hp]

@[simp] theorem same_flashRead (w addr len hbm) : part.same s₀ (flashRead w addr len hbm s) ↔ part.same s₀ s := by
  simp only [flashRead]
  repeat' split
  all_goals simp [hp]

@[simp] theorem same_runRead (j) : part.same s₀ (runRead j s) ↔ part.same s₀ s := by
  simp only [runRead]
  split <;> simp [hp]

@[simp] theorem same_runReads : part.same s₀ (runReads s) ↔ part.same s₀ s := by simp [runReads, hp]
@[simp] theorem same_addRead (use w) : part.same s₀ (addRead use w s) ↔ part.same s₀ s := by simp [addRead, hp]
@[simp] theorem same_readHbmLines (mid n a) : part.same s₀ (readHbmLines mid n a s).1 ↔ part.same s₀ s := by
  induction n generalizing a s with
  | zero => rfl
  | succ n ih =>
    simp only [readHbmLines]
    split
    · rfl
    · split <;> simp [ih, hp]

@[simp] theorem same_readBuffer (mid a n) : part.same s₀ (readBuffer mid a n s).1 ↔ part.same s₀ s := by
  simp [readBuffer, hp]

@[simp] theorem same_readBufferBytes (a n) : part.same s₀ (readBufferBytes a n s).1 ↔ part.same s₀ s := by
  refine same_foldl_fst (fun u i => ?_) _ (s, some [])
  dsimp only
  split
  · rfl
  · split <;> simp [hp]

@[simp] theorem same_flashChange (q addr len) : part.same s₀ (flashChange q addr len s).1 ↔ part.same s₀ s := by
  have read := same_readBufferBytes (s₀ := s₀) (s := s) hp (q.arg 24 8) len
  simp only [flashChange]
  repeat' split
  all_goals simp_all

@[simp] theorem same_startLoad : part.same s₀ (startLoad s) ↔ part.same s₀ s := by
  simp only [startLoad]
  repeat' split
  all_goals simp [hp]

@[simp] theorem same_readSource (flash a) : part.same s₀ (readSource flash a s).1 ↔ part.same s₀ s := by
  simp [readSource, hp]

@[simp] theorem same_writeEntryBytes (i frames) : part.same s₀ (writeEntryBytes i frames s).1 ↔ part.same s₀ s := by
  refine same_foldl_fst (fun u k => ?_) _ (s, true)
  dsimp only
  split <;> simp [hp]

@[simp] theorem same_placeImage (im boot mid) : part.same s₀ (placeImage im boot mid s).1 ↔ part.same s₀ s := by
  refine same_foldl_fst (fun u x => ?_) _ (s, true)
  split
  next pl i fs =>
    have written := same_writeEntryBytes (s₀ := s₀) (s := u.1) hp i fs
    split
    · generalize writeEntryBytes i fs u.1 = w at written ⊢
      obtain ⟨t, ok⟩ := w
      cases ok <;> simpa [hp] using written
    · rfl
  · rfl

@[simp] theorem same_copyFor (r f) : part.same s₀ (copyFor r f s).1 ↔ part.same s₀ s := by
  unfold copyFor
  split
  · rfl
  · split
    · exact same_useFree
    · exact same_copyEntry hp r f.index

end

/-! ### What changes at most the bonds, the HBM, the integrity records and the library -/
section
variable {part : Part} {s₀ s : State} (hp : part ≠ .bonds ∧ part ≠ .hbm ∧ part ≠ .integ ∧ part ≠ .lib)
include hp

/-- The write of an entry stands for itself here: the comparison of the two sides must not begin to compute it. -/
@[simp] theorem same_loadPattern (img ck) : part.same s₀ (loadPattern img ck s) ↔ part.same s₀ s := by
  have written : ∀ i frames (u : State), part.same s₀ (writeEntryBytes i frames u).1 ↔ part.same s₀ u :=
    fun i frames u => same_writeEntryBytes hp.2 i frames
  unfold loadPattern
  generalize writeEntryBytes = write at written ⊢
  as_aux_lemma =>
    dsimp only
    split
    · rfl
    · split <;> simp [written, hp]

@[simp] theorem same_loadPatterns : part.same s₀ (loadPatterns s) ↔ part.same s₀ s := by simp [loadPatterns, hp]

end

/-! ### What changes at most the bonds and the library -/
section
variable {part : Part} {s₀ s : State} (hp : part ≠ .bonds ∧ part ≠ .lib)
include hp

@[simp] theorem same_dropPatterns : part.same s₀ (dropPatterns s) ↔ part.same s₀ s := by simp [dropPatterns, hp]

end

/-! ### What changes at most the HBM, the integrity records, the library and the regions -/
section
variable {part : Part} {s₀ s : State} (hp : part ≠ .hbm ∧ part ≠ .integ ∧ part ≠ .lib ∧ part ≠ .regions)
include hp

@[simp] theorem same_acceptLoad (q target) : part.same s₀ (acceptLoad q target s).1 ↔ part.same s₀ s := by
  simp only [acceptLoad]
  repeat' split
  all_goals simp [hp]

@[simp] theorem same_finishLoad (q) : part.same s₀ (finishLoad q s) ↔ part.same s₀ s := by
  have placed (im u) : part.same s₀ (placeImage im false q.master u).1 ↔ part.same s₀ u :=
    same_placeImage ⟨hp.1, hp.2.1, hp.2.2.1⟩ im false q.master
  simp only [finishLoad]
  split
  · simp [hp]
  next im _ =>
    specialize placed im (freeReserved q (readSource q.flash q.src s).1)
    split
    all_goals
      next heq =>
        rw [heq] at placed
        simpa [hp] using placed

@[simp] theorem same_endProcessing : part.same s₀ (endProcessing s) ↔ part.same s₀ s := by
  simp only [endProcessing]
  repeat' split
  all_goals simp [hp]

@[simp] theorem same_endFill (r f) : part.same s₀ (endFill r f s).1 ↔ part.same s₀ s := by
  have copied := same_copyFor (s₀ := s₀) (s := s) ⟨hp.1, hp.2.1, hp.2.2.1⟩ r f
  unfold endFill
  split
  all_goals
    next heq =>
      rw [heq] at copied
      simpa [hp] using copied

@[simp] theorem same_bootPlane (r p i active) : part.same s₀ (bootPlane r p i active s).1 ↔ part.same s₀ s := by
  have copied := same_copyFor (s₀ := s₀) (s := s) ⟨hp.1, hp.2.1, hp.2.2.1⟩ r { index := i }
  unfold bootPlane
  split
  all_goals
    next heq =>
      rw [heq] at copied
      simpa [hp] using copied

@[simp] theorem same_leaveOut (r d) : part.same s₀ (leaveOut r d s) ↔ part.same s₀ s := by simp [leaveOut, hp]
@[simp] theorem same_bootRegion (a) : part.same s₀ (bootRegion a s).1 ↔ part.same s₀ s := by
  have filled := same_bootPlane (s₀ := s₀) (s := s) hp (asgRegion a) (asgActive a) (asgIndex a (asgActive a)) true
  unfold bootRegion
  dsimp only
  split
  · rfl
  · split
    next heq =>
      rw [heq] at filled
      exact filled
    next heq =>
      rw [heq] at filled
      split
      · simpa [hp] using filled
      · refine (same_foldl_fst (fun u p => ?_) _ _).trans (by simpa [hp] using filled)
        split <;> simp [hp]

end

/-! ### What changes at most the HBM, the integrity records, the library, the regions and the tick -/
section
variable {part : Part} {s₀ s : State}
  (hp : part ≠ .hbm ∧ part ≠ .integ ∧ part ≠ .lib ∧ part ≠ .regions ∧ part ≠ .tick)
include hp

@[simp] theorem same_bootPlace (im) : part.same s₀ (bootPlace im s).1 ↔ part.same s₀ s := by
  have placed := same_placeImage (s₀ := s₀) (s := s) ⟨hp.1, hp.2.1, hp.2.2.1⟩ im true 66
  unfold bootPlace
  split
  next h =>
    rw [h] at placed
    exact placed
  next t h =>
    rw [h] at placed
    dsimp only
    rw [same_forEach, same_forEach]
    · refine (same_foldl_fst (fun u a => ?_) _ _).trans placed
      split <;> simp [hp]
    · intro x u
      simp [hp]
    · intro x u
      split <;> simp [hp]

end

/-! ### What changes at most the bonds, the HBM, the integrity records, the library, the regions and the tick -/
section
variable {part : Part} {s₀ s : State}
  (hp : part ≠ .bonds ∧ part ≠ .hbm ∧ part ≠ .integ ∧ part ≠ .lib ∧ part ≠ .regions ∧ part ≠ .tick)
include hp

/-- Where the load is abandoned the regions and the tick are put back. -/
theorem same_putBack {u v : State} : part.same s₀ { u with regions := v.regions, tick := v.tick } ↔ part.same s₀ u := by
  cases part <;> simp_all [Part.same]

@[simp] theorem same_bootLoad : part.same s₀ (bootLoad s) ↔ part.same s₀ s := by
  unfold bootLoad
  split
  · simp
  next code bs rest heq =>
    dsimp only
    have tried : part.same s₀ (modLib (fun l => { l with bootTried := l.bootTried ++ [code] }) s) ↔ part.same s₀ s := by
      simp [hp]
    generalize modLib (fun l => { l with bootTried := l.bootTried ++ [code] }) s = u at tried ⊢
    split
    · simpa using tried
    next im _ =>
      have placed := (same_bootPlace (s₀ := s₀) (s := u) hp.2 im).trans tried
      split
      all_goals
        next heq =>
          rw [heq] at placed
          simpa [hp, same_putBack hp] using placed

end

/-! ### What changes at most the HBM, the integrity records, the library and the thermal records -/
section
variable {part : Part} {s₀ s : State} (hp : part ≠ .hbm ∧ part ≠ .integ ∧ part ≠ .lib ∧ part ≠ .therm)
include hp

@[simp] theorem same_endFlashOp (failed j o rest) : part.same s₀ (endFlashOp failed j o rest s) ↔ part.same s₀ s := by
  simp only [endFlashOp]
  split <;> simp [hp]

end

/-! ### What changes at most the engines and the integrity records -/
section
variable {part : Part} {s₀ s : State} (hp : part ≠ .dsp ∧ part ≠ .integ)
include hp

@[simp] theorem same_storeLine (id d i l) : part.same s₀ (storeLine id d i l s) ↔ part.same s₀ s := by
  simp [storeLine, hp]

@[simp] theorem same_passDsp (r) (acc : State × PassCount) : part.same s₀ (passDsp r acc).1 ↔ part.same s₀ acc.1 := by
  refine same_foldl_fst (fun u j => ?_) _ acc
  exact same_passOver (fun _ _ => same_fettleDsp hp _ _ _) _ _

end

/-! ### What changes at most the engines, the integrity records and the Runner's records -/
section
variable {part : Part} {s₀ s : State} (hp : part ≠ .dsp ∧ part ≠ .integ ∧ part ≠ .runner)
include hp

@[simp] theorem same_endDma (id o ls) : part.same s₀ (endDma id o ls s) ↔ part.same s₀ s := by
  simp only [endDma]
  split <;> simp [hp]

end

/-! ### What changes at most the engines, the integrity records and the regions -/
section
variable {part : Part} {s₀ s : State} (hp : part ≠ .dsp ∧ part ≠ .integ ∧ part ≠ .regions)
include hp

@[simp] theorem same_issueBundle (id) : part.same s₀ (issueBundle id s) ↔ part.same s₀ s := by
  simp only [issueBundle]
  repeat' split
  all_goals simp [hp]

@[simp] theorem same_issueAs (k id) : part.same s₀ (issueAs k id s) ↔ part.same s₀ s := by simp [issueAs, hp]

end

/-! ### What changes at most the block memories, the engines, the Ingot banks and the regions -/
section
variable {part : Part} {s₀ s : State} (hp : part ≠ .brams ∧ part ≠ .dsp ∧ part ≠ .ingot ∧ part ≠ .regions)
include hp

@[simp] theorem same_splitWord (kind r plane loc ps) :
    part.same s₀ (splitWord kind r plane loc ps s).1 ↔ part.same s₀ s := by
  simp only [splitWord]
  split <;> simp [hp]

end

/-! ### What changes at most the block memories, the integrity records and the regions -/
section
variable {part : Part} {s₀ s : State} (hp : part ≠ .brams ∧ part ≠ .integ ∧ part ≠ .regions)
include hp

@[simp] theorem same_clearDone (r ms w) : part.same s₀ (clearDone r ms w s) ↔ part.same s₀ s := by simp [clearDone, hp]

end

/-! ### What changes at most the block memories, the integrity records and the Runner's records -/
section
variable {part : Part} {s₀ s : State} (hp : part ≠ .brams ∧ part ≠ .integ ∧ part ≠ .runner)
include hp

/-- One port's edge, where the port is clocked. -/
@[simp] theorem same_portOperation (m c a b bFirst) : part.same s₀ (portOperation m c a b bFirst s) ↔ part.same s₀ s := by
  simp only [portOperation]
  cases a <;> cases b <;> simp [hp]

end

/-! ### What changes at most the clocks, the integrity records and the regions -/
section
variable {part : Part} {s₀ s : State} (hp : part ≠ .clk ∧ part ≠ .integ ∧ part ≠ .regions)
include hp

@[simp] theorem same_runIsolated (r) : part.same s₀ (runIsolated r s) ↔ part.same s₀ s := by
  simp only [runIsolated]
  split
  · split
    · rfl
    · split <;> simp [hp]
  · rfl

end

/-! ### What changes at most the clocks, the HBM, the integrity records, the library and the regions -/
section
variable {part : Part} {s₀ s : State}
  (hp : part ≠ .clk ∧ part ≠ .hbm ∧ part ≠ .integ ∧ part ≠ .lib ∧ part ≠ .regions)
include hp

@[simp] theorem same_completeFill (r f) : part.same s₀ (completeFill r f s) ↔ part.same s₀ s := by
  simp [completeFill, hp]

end

/-! ### What changes at most the block memories, the Ingot banks and the Runner's records -/
section
variable {part : Part} {s₀ s : State} (hp : part ≠ .brams ∧ part ≠ .ingot ∧ part ≠ .runner)
include hp

@[simp] theorem same_shieldRequests (r) : part.same s₀ (shieldRequests r s) ↔ part.same s₀ s := by
  simp [shieldRequests, hp]

end

/-! ### What changes at most the block memories, the Ingot banks, the regions and the Runner's records -/
section
variable {part : Part} {s₀ s : State} (hp : part ≠ .brams ∧ part ≠ .ingot ∧ part ≠ .regions ∧ part ≠ .runner)
include hp

@[simp] theorem same_quiesceEnds (r) : part.same s₀ (quiesceEnds r s) ↔ part.same s₀ s := by
  simp only [quiesceEnds]
  split <;> simp [hp]

end

/-! ### What changes at most the Ingot banks, the integrity records and the Runner's records -/
section
variable {part : Part} {s₀ s : State} (hp : part ≠ .ingot ∧ part ≠ .integ ∧ part ≠ .runner)
include hp

@[simp] theorem same_passIngot (r) (acc : State × PassCount) : part.same s₀ (passIngot r acc).1 ↔ part.same s₀ acc.1 :=
  same_passOver (fun _ _ => same_fettleIngot hp _ _) _ _

end

/-! ### What changes at most the integrity records, the regions and the Runner's records -/
section
variable {part : Part} {s₀ s : State} (hp : part ≠ .integ ∧ part ≠ .regions ∧ part ≠ .runner)
include hp

@[simp] theorem same_passFrames (r lo hi) (acc : State × PassCount) :
    part.same s₀ (passFrames r lo hi acc).1 ↔ part.same s₀ acc.1 := by
  refine same_foldl_fst (fun u p => ?_) _ acc
  dsimp only
  split
  · exact same_passOver (fun _ _ => same_fettleFrame hp _ _ _) _ _
  · rfl

end

/-! ### What changes at most the block memories, the engines, the Ingot banks, the integrity records, the regions and
the Runner's records -/
section
variable {part : Part} {s₀ s : State}
  (hp : part ≠ .brams ∧ part ≠ .dsp ∧ part ≠ .ingot ∧ part ≠ .integ ∧ part ≠ .regions ∧ part ≠ .runner)
include hp

@[simp] theorem same_wholePass (r t) : part.same s₀ (wholePass r t s).1 ↔ part.same s₀ s := by
  have on {f : State × PassCount → State × PassCount}
      (h : ∀ a : State × PassCount, part.same s₀ (f a).1 ↔ part.same s₀ a.1) (i : Nat) (a : State × PassCount) :
      part.same s₀ (if t.getLsbD i then f a else a).1 ↔ part.same s₀ a.1 := by
    split
    · exact h a
    · rfl
  simp only [wholePass]
  rw [on (same_passIngot (by simp [hp]) r), on (same_passDsp (by simp [hp]) r), on (same_passBrams (by simp [hp]) r),
    on (same_passFrames (by simp [hp]) r _ _), on (same_passFrames (by simp [hp]) r _ _)]

@[simp] theorem same_endPass (r j) : part.same s₀ (endPass r j s) ↔ part.same s₀ s := by simp [endPass, hp]

end

/-! ### What changes at most the engines, the integrity records, the regions, the queues and the Runner's records -/
section
variable {part : Part} {s₀ s : State}
  (hp : part ≠ .dsp ∧ part ≠ .integ ∧ part ≠ .regions ∧ part ≠ .riser ∧ part ≠ .runner)
include hp

@[simp] theorem same_beginLoadActive (q) : part.same s₀ (beginLoadActive q s).1 ↔ part.same s₀ s := by
  simp [beginLoadActive, hp]

end

/-! ### What changes at most the bonds, the regions and the Runner's records -/
section
variable {part : Part} {s₀ s : State} (hp : part ≠ .bonds ∧ part ≠ .regions ∧ part ≠ .runner)
include hp

@[simp] theorem same_sliceFailed (r j failing) : part.same s₀ (sliceFailed r j failing s) ↔ part.same s₀ s := by
  simp [sliceFailed, hp]

end

/-! ### What changes at most the bonds, the clocks, the integrity records, the regions and the Runner's records -/
section
variable {part : Part} {s₀ s : State}
  (hp : part ≠ .bonds ∧ part ≠ .clk ∧ part ≠ .integ ∧ part ≠ .regions ∧ part ≠ .runner)
include hp

@[simp] theorem same_endSlice (r j failing terminal) : part.same s₀ (endSlice r j failing terminal s) ↔ part.same s₀ s := by
  simp [endSlice, hp]

end

/-! ### What changes at most the bonds, the HBM, the integrity records, the library and the regions -/
section
variable {part : Part} {s₀ s : State}
  (hp : part ≠ .bonds ∧ part ≠ .hbm ∧ part ≠ .integ ∧ part ≠ .lib ∧ part ≠ .regions)
include hp

@[simp] theorem same_repeatSlice (r slice pattern failing terminal) :
    part.same s₀ (repeatSlice r slice pattern failing terminal s) ↔ part.same s₀ s := by simp [repeatSlice, hp]

end

/-! ### What changes at most the engines, the integrity records, the regions and the queues -/
section
variable {part : Part} {s₀ s : State} (hp : part ≠ .dsp ∧ part ≠ .integ ∧ part ≠ .regions ∧ part ≠ .riser)
include hp

@[simp] theorem same_dropLoad (r f) : part.same s₀ (dropLoad r f s) ↔ part.same s₀ s := by simp [dropLoad, hp]

end

/-! ### What changes at most the engines, the HBM, the integrity records, the library, the regions and the queues -/
section
variable {part : Part} {s₀ s : State}
  (hp : part ≠ .dsp ∧ part ≠ .hbm ∧ part ≠ .integ ∧ part ≠ .lib ∧ part ≠ .regions ∧ part ≠ .riser)
include hp

@[simp] theorem same_endLoadActive (r f) : part.same s₀ (endLoadActive r f s) ↔ part.same s₀ s := by
  have copied := same_copyFor (s₀ := s₀) (s := s) (part := part) (by simp [hp]) r f
  unfold endLoadActive
  split
  all_goals
    next heq =>
      rw [heq] at copied
      simpa [hp] using copied

end

/-! ### What changes at most the block memories and the engines -/
section
variable {part : Part} {s₀ s : State} (hp : part ≠ .brams ∧ part ≠ .dsp)
include hp

@[simp] theorem same_waitPort (b) : part.same s₀ (waitPort b s) ↔ part.same s₀ s := by
  simp only [waitPort]
  split <;> simp [hp]

end

/-! ### What changes at most the bonds, the block memories, the engines, the regions and the Runner's records -/
section
variable {part : Part} {s₀ s : State}
  (hp : part ≠ .bonds ∧ part ≠ .brams ∧ part ≠ .dsp ∧ part ≠ .regions ∧ part ≠ .runner)
include hp

@[simp] theorem same_failTransfer (b) : part.same s₀ (failTransfer b s) ↔ part.same s₀ s := by
  simp only [failTransfer]
  split <;> simp [hp]

@[simp] theorem same_repeatTransfer (b second) : part.same s₀ (repeatTransfer b second s) ↔ part.same s₀ s := by
  simp [repeatTransfer, hp]

end

/-! ### What changes at most the regions and the integrity records -/
section
variable {part : Part} {s₀ s : State} (hp : part ≠ .regions ∧ part ≠ .integ)
include hp

theorem kept_execRegionResetEnd (r) : part.keptBy s (execRegionResetEnd r s) := kept_occurs (by simp [hp])
theorem kept_execSpineContention (r spine) : part.keptBy s (execSpineContention r spine s) := by
  unfold execSpineContention
  exact kept_occurs (by simp [hp])

theorem kept_execCrcFeed (r unit size value) : part.keptBy s (execCrcFeed r unit size value s) :=
  kept_occurs (by simp [hp])

theorem kept_execCrcLoad (r unit value) : part.keptBy s (execCrcLoad r unit value s) := kept_occurs (by simp [hp])
theorem kept_execCrcSelect (r unit value) : part.keptBy s (execCrcSelect r unit value s) := kept_occurs (by simp [hp])

end

/-! ### What changes at most the regions and the Runner's records -/
section
variable {part : Part} {s₀ s : State} (hp : part ≠ .regions ∧ part ≠ .runner)
include hp

theorem kept_execRegionIsolate (p sl) : part.keptBy s (execRegionIsolate p sl s) := by
  refine kept_runCmd (fun q u => ?_) p sl
  simp only [regionIsolateSpec]
  repeat' split
  all_goals simp [hp]

end

/-! ### What changes at most the regions and the library -/
section
variable {part : Part} {s₀ s : State} (hp : part ≠ .regions ∧ part ≠ .lib)
include hp

theorem kept_execLibRemove (p sl) : part.keptBy s (execLibRemove p sl s) := by
  refine kept_runCmd (fun q u => ?_) p sl
  simp only [libRemoveSpec]
  repeat' split
  all_goals simp [hp]

end

/-! ### What changes at most the regions and the engines -/
section
variable {part : Part} {s₀ s : State} (hp : part ≠ .regions ∧ part ≠ .dsp)
include hp

theorem kept_execDspHalt (p sl) : part.keptBy s (execDspHalt p sl s) := by
  unfold execDspHalt
  split
  · exact kept_next
  · refine kept_runCmd (fun q u => ?_) p sl
    simp only [dspHaltSpec]
    split <;> simp [hp]

end

/-! ### What changes at most the domains and the clocks -/
section
variable {part : Part} {s₀ s : State} (hp : part ≠ .domains ∧ part ≠ .clk)
include hp

theorem kept_execDspDomain (p sl) : part.keptBy s (execDspDomain p sl s) := by
  refine kept_runCmd (fun q u => ?_) p sl
  simp only [dspDomainSpec]
  repeat' split
  all_goals simp [hp]

theorem kept_execAvsAck (rail) : part.keptBy s (execAvsAck rail s) := kept_occurs (by simp [hp])
theorem kept_execAvsNoAck (rail) : part.keptBy s (execAvsNoAck rail s) := kept_occurs (by simp [hp])
theorem kept_execAvsSettleEnd (d) : part.keptBy s (execAvsSettleEnd d s) := kept_occurs (by simp [hp])

end

/-! ### What changes at most the lanes and the links -/
section
variable {part : Part} {s₀ s : State} (hp : part ≠ .lanes ∧ part ≠ .links)
include hp

theorem kept_execCdrLocked (lane) : part.keptBy s (execCdrLocked lane s) := by
  unfold execCdrLocked
  exact kept_occurs (by simp [hp])

theorem kept_execTrainingDone (lane) : part.keptBy s (execTrainingDone lane s) := by
  unfold execTrainingDone
  exact kept_occurs (by simp [hp])

theorem kept_execTrainingTimeout (lane) : part.keptBy s (execTrainingTimeout lane s) := by
  unfold execTrainingTimeout
  exact kept_occurs (by simp [hp])

theorem kept_execLaneLockAcquired (lane) : part.keptBy s (execLaneLockAcquired lane s) := by
  unfold execLaneLockAcquired
  exact kept_occurs (by simp [hp])

theorem kept_execHelloInterval (l) : part.keptBy s (execHelloInterval l s) := by
  unfold execHelloInterval
  exact kept_occurs (by simp [hp])

end

/-! ### What changes at most the Runner's records and the system layer -/
section
variable {part : Part} {s₀ s : State} (hp : part ≠ .runner ∧ part ≠ .sys)
include hp

theorem kept_execWindowRightsRecomputed : part.keptBy s (execWindowRightsRecomputed s) := kept_occurs (by simp [hp])
theorem kept_execPartnerQuery (p sl) : part.keptBy s (execPartnerQuery p sl s) := by
  refine kept_runCmd (fun q u => ?_) p sl
  simp only [partnerQuerySpec]
  repeat' split
  all_goals simp [hp]

theorem kept_execPartnerSet (p sl) : part.keptBy s (execPartnerSet p sl s) := by
  refine kept_runCmd (fun q u => ?_) p sl
  simp only [partnerSetSpec]
  repeat' split
  all_goals simp [hp]

theorem kept_execTransactionTimeout (node sequence) : part.keptBy s (execTransactionTimeout node sequence s) := by
  unfold execTransactionTimeout
  split
  · exact kept_occurs (by simp [hp])
  · exact kept_next

theorem kept_execAgeingUnit : part.keptBy s (execAgeingUnit s) := kept_occurs (by simp [hp])

end

/-! ### What changes at most the links and the system layer -/
section
variable {part : Part} {s₀ s : State} (hp : part ≠ .links ∧ part ≠ .sys)
include hp

theorem kept_execTimeConfig (p sl) : part.keptBy s (execTimeConfig p sl s) := by
  refine kept_runCmd (fun q u => ?_) p sl
  simp only [timeConfigSpec]
  repeat' split
  all_goals simp [hp]

end

/-! ### What changes at most the library and the HBM -/
section
variable {part : Part} {s₀ s : State} (hp : part ≠ .lib ∧ part ≠ .hbm)
include hp

theorem kept_execRekeyComplete : part.keptBy s (execRekeyComplete s) := by
  unfold execRekeyComplete
  split
  · exact kept_occurs (by simp [hp])
  · exact kept_next

theorem kept_execProtReinitComplete (range) : part.keptBy s (execProtReinitComplete range s) := by
  unfold execProtReinitComplete
  split
  · exact kept_occurs (by simp [hp])
  · exact kept_next

end

/-! ### What changes at most the Runner's records and the lanes -/
section
variable {part : Part} {s₀ s : State} (hp : part ≠ .runner ∧ part ≠ .lanes)
include hp

theorem kept_execPcieReset (kind) : part.keptBy s (execPcieReset kind s) := kept_occurs (by simp [hp])
theorem kept_execPeRstAssert : part.keptBy s (execPeRstAssert s) := kept_occurs (by simp [hp])

end

/-! ### What changes at most the library, the HBM and the clocks -/
section
variable {part : Part} {s₀ s : State} (hp : part ≠ .lib ∧ part ≠ .hbm ∧ part ≠ .clk)
include hp

theorem kept_execRootPllLock : part.keptBy s (execRootPllLock s) := by
  unfold execRootPllLock
  exact kept_occurs (by simp [hp])

end

/-! ### What changes at most the library, the HBM and the integrity records -/
section
variable {part : Part} {s₀ s : State} (hp : part ≠ .lib ∧ part ≠ .hbm ∧ part ≠ .integ)
include hp

theorem kept_execFlashDirRead (p sl) : part.keptBy s (execFlashDirRead p sl s) := by
  refine kept_runCmd (fun q u => ?_) p sl
  simp only [flashDirReadSpec]
  repeat' split
  all_goals simp [hp]

theorem kept_execFwStage (p sl) : part.keptBy s (execFwStage p sl s) := by
  refine kept_runCmd (fun q u => ?_) p sl
  simp only [fwStageSpec]
  repeat' split
  all_goals simp [hp]

theorem kept_execFlashAccess (p sl) : part.keptBy s (execFlashAccess p sl s) := by
  refine kept_runCmd (fun q u => ?_) p sl
  simp only [flashAccessSpec]
  repeat' split
  all_goals simp [hp]

end

/-! ### What changes at most the Runner's records, the block memories and the integrity records -/
section
variable {part : Part} {s₀ s : State} (hp : part ≠ .runner ∧ part ≠ .brams ∧ part ≠ .integ)
include hp

theorem kept_execBramPortOperation (mem a b bFirst) : part.keptBy s (execBramPortOperation mem a b bFirst s) := by
  unfold execBramPortOperation
  split
  · exact kept_occurs (by simp [hp])
  · exact kept_occurs (by simp [hp])

theorem kept_execMaintenanceSteal (mem) : part.keptBy s (execMaintenanceSteal mem s) := kept_occurs (by simp [hp])

end

/-! ### What changes at most the regions, the block memories and the integrity records -/
section
variable {part : Part} {s₀ s : State} (hp : part ≠ .regions ∧ part ≠ .brams ∧ part ≠ .integ)
include hp

theorem kept_execBramClearComplete (r) : part.keptBy s (execBramClearComplete r s) := by
  unfold execBramClearComplete
  split
  · exact kept_occurs (by simp [hp])
  · exact kept_next

end

/-! ### What changes at most the regions, the engines and the integrity records -/
section
variable {part : Part} {s₀ s : State} (hp : part ≠ .regions ∧ part ≠ .dsp ∧ part ≠ .integ)
include hp

theorem kept_issue (k id) : part.keptBy s (occurs (issues k id s) (issueAs k id) s) := kept_occurs (by simp [hp])

end

/-! ### What changes at most the engines, the domains and the clocks -/
section
variable {part : Part} {s₀ s : State} (hp : part ≠ .dsp ∧ part ≠ .domains ∧ part ≠ .clk)
include hp

theorem kept_execDomainPllRelock (d) : part.keptBy s (execDomainPllRelock d s) := kept_occurs (by simp [hp])

end

/-! ### What changes at most the Runner's records, the links and the system layer -/
section
variable {part : Part} {s₀ s : State} (hp : part ≠ .runner ∧ part ≠ .links ∧ part ≠ .sys)
include hp

theorem kept_execTransactionResponse (l m) : part.keptBy s (execTransactionResponse l m s) := by
  unfold execTransactionResponse
  split
  · exact kept_occurs (by simp [hp])
  · exact kept_next

end

/-! ### What changes at most the lanes, the links and the thermal records -/
section
variable {part : Part} {s₀ s : State} (hp : part ≠ .lanes ∧ part ≠ .links ∧ part ≠ .therm)
include hp

theorem kept_execSensorSample (raw) : part.keptBy s (execSensorSample raw s) := kept_occurs (by simp [hp])

end

/-! ### What changes at most the domains, the clocks and the thermal records -/
section
variable {part : Part} {s₀ s : State} (hp : part ≠ .domains ∧ part ≠ .clk ∧ part ≠ .therm)
include hp

theorem kept_execAgeingMeasurement (ratios) : part.keptBy s (execAgeingMeasurement ratios s) :=
  kept_occurs (by simp [hp])

theorem kept_execPlanUpdate : part.keptBy s (execPlanUpdate s) := kept_occurs (by simp [hp])

end

/-! ### What changes at most the regions, the integrity records and the clocks -/
section
variable {part : Part} {s₀ s : State} (hp : part ≠ .regions ∧ part ≠ .integ ∧ part ≠ .clk)
include hp

theorem kept_execSelftestRun (p sl) : part.keptBy s (execSelftestRun p sl s) := by
  refine kept_runCmd (fun q u => ?_) p sl
  simp only [selftestRunSpec]
  repeat' split
  all_goals simp [hp]

end

/-! ### What changes at most the regions, the Runner's records, the block memories and the Ingot banks -/
section
variable {part : Part} {s₀ s : State} (hp : part ≠ .regions ∧ part ≠ .runner ∧ part ≠ .brams ∧ part ≠ .ingot)
include hp

theorem kept_execQuiesceAck (r) : part.keptBy s (execQuiesceAck r s) := kept_occurs (by simp [hp])
theorem kept_execQuiesceTimeout (r) : part.keptBy s (execQuiesceTimeout r s) := kept_occurs (by simp [hp])
theorem kept_execShelfSaveComplete (r) : part.keptBy s (execShelfSaveComplete r s) := kept_occurs (by simp [hp])

end

/-! ### What changes at most the regions, the library, the HBM and the integrity records -/
section
variable {part : Part} {s₀ s : State} (hp : part ≠ .regions ∧ part ≠ .lib ∧ part ≠ .hbm ∧ part ≠ .integ)
include hp

theorem kept_execLibLoad (p sl) : part.keptBy s (execLibLoad p sl s) := by
  refine kept_runCmd (fun q u => ?_) p sl
  simp only [libLoadSpec]
  repeat' split
  all_goals simp [hp]

theorem kept_execImageProcessingEnd : part.keptBy s (execImageProcessingEnd s) := kept_occurs (by simp [hp])

end

/-! ### What changes at most the Runner's records, the Ingot banks, the engines and the integrity records -/
section
variable {part : Part} {s₀ s : State} (hp : part ≠ .runner ∧ part ≠ .ingot ∧ part ≠ .dsp ∧ part ≠ .integ)
include hp

theorem kept_execDmaDone (e) : part.keptBy s (execDmaDone e s) := by
  unfold execDmaDone
  refine kept_of_same ((same_serveFirst (by simp [hp]) (.dsp e) 0).mpr (part.same_self s)) ?_
  dsimp only
  split
  · split
    · exact kept_occurs (by simp [hp])
    · exact kept_next
  · exact kept_next

end

/-! ### What changes at most the regions, the block memories, the Ingot banks and the engines -/
section
variable {part : Part} {s₀ s : State} (hp : part ≠ .regions ∧ part ≠ .brams ∧ part ≠ .ingot ∧ part ≠ .dsp)
include hp

theorem kept_execSplitWrite (p sl) : part.keptBy s (execSplitWrite p sl s) := by
  refine kept_runCmd (fun q u => ?_) p sl
  simp only [splitWriteSpec]
  repeat' split
  all_goals simp [hp]

end

/-! ### What changes at most the regions, the domains, the clocks and the thermal records -/
section
variable {part : Part} {s₀ s : State} (hp : part ≠ .regions ∧ part ≠ .domains ∧ part ≠ .clk ∧ part ≠ .therm)
include hp

theorem kept_execAgeingPlan (p sl) : part.keptBy s (execAgeingPlan p sl s) := by
  refine kept_runCmd (fun q u => ?_) p sl
  simp only [ageingPlanSpec]
  repeat' split
  all_goals simp [hp]

end

/-! ### What changes at most the library, the HBM, the integrity records and the bonds -/
section
variable {part : Part} {s₀ s : State} (hp : part ≠ .lib ∧ part ≠ .hbm ∧ part ≠ .integ ∧ part ≠ .bonds)
include hp

theorem kept_execSelftestConfig (p sl) : part.keptBy s (execSelftestConfig p sl s) := by
  refine kept_runCmd (fun q u => ?_) p sl
  simp only [selftestConfigSpec]
  repeat' split
  all_goals simp [hp]

end

/-! ### What changes at most the library, the HBM, the integrity records and the thermal records -/
section
variable {part : Part} {s₀ s : State} (hp : part ≠ .lib ∧ part ≠ .hbm ∧ part ≠ .integ ∧ part ≠ .therm)
include hp

theorem kept_execProgramOrEraseEnd (failed) : part.keptBy s (execProgramOrEraseEnd failed s) := by
  unfold execProgramOrEraseEnd
  split
  · split
    · exact kept_occurs (by simp [hp])
    · exact kept_next
  · exact kept_next

end

/-! ### What changes at most the library, the domains, the HBM, the clocks and the thermal records -/
section
variable {part : Part} {s₀ s : State} (hp : part ≠ .lib ∧ part ≠ .domains ∧ part ≠ .hbm ∧ part ≠ .clk ∧ part ≠ .therm)
include hp

theorem kept_execFirmwareAuthenticated : part.keptBy s (execFirmwareAuthenticated s) := kept_occurs (by simp [hp])

end

/-! ### What changes at most the regions, the Runner's records, the block memories, the engines and the bonds -/
section
variable {part : Part} {s₀ s : State} (hp : part ≠ .regions ∧ part ≠ .runner ∧ part ≠ .brams ∧ part ≠ .dsp ∧
  part ≠ .bonds)
include hp

theorem kept_execBusTransfer (b first second) : part.keptBy s (execBusTransfer b first second s) :=
  kept_occurs (by simp [hp])

end

/-! ### What changes at most the regions, the engines, the queues, the integrity records and the clocks -/
section
variable {part : Part} {s₀ s : State} (hp : part ≠ .regions ∧ part ≠ .dsp ∧ part ≠ .riser ∧ part ≠ .integ ∧
  part ≠ .clk)
include hp

theorem kept_execDelayedSwitch (r) : part.keptBy s (execDelayedSwitch r s) := by
  unfold execDelayedSwitch
  split
  · exact kept_occurs (by simp [hp])
  · exact kept_next

theorem kept_execGraceExpiry (r) : part.keptBy s (execGraceExpiry r s) := by
  unfold execGraceExpiry
  split
  · exact kept_occurs (by simp [hp])
  · exact kept_next

theorem kept_execFabricClockEdge (r x) : part.keptBy s (execFabricClockEdge r x s) := kept_occurs (by simp [hp])

end

/-! ### What changes at most the regions, the library, the HBM, the integrity records and the clocks -/
section
variable {part : Part} {s₀ s : State} (hp : part ≠ .regions ∧ part ≠ .lib ∧ part ≠ .hbm ∧ part ≠ .integ ∧ part ≠ .clk)
include hp

theorem kept_execPlaneFillComplete (r) : part.keptBy s (execPlaneFillComplete r s) := by
  unfold execPlaneFillComplete
  split
  · exact kept_occurs (by simp [hp])
  · exact kept_next

end

/-! ### What changes at most the regions, the Runner's records, the engines, the queues and the integrity records -/
section
variable {part : Part} {s₀ s : State} (hp : part ≠ .regions ∧ part ≠ .runner ∧ part ≠ .dsp ∧ part ≠ .riser ∧
  part ≠ .integ)
include hp

theorem kept_execLoadActive (p sl) : part.keptBy s (execLoadActive p sl s) := by
  refine kept_runCmd (fun q u => ?_) p sl
  simp only [loadActiveSpec]
  repeat' split
  all_goals simp [hp]

end

/-! ### What changes at most the regions, the Runner's records, the integrity records, the clocks and the bonds -/
section
variable {part : Part} {s₀ s : State} (hp : part ≠ .regions ∧ part ≠ .runner ∧ part ≠ .integ ∧ part ≠ .clk ∧
  part ≠ .bonds)
include hp

theorem kept_execSliceEnd (r failing terminal) : part.keptBy s (execSliceEnd r failing terminal s) := by
  unfold execSliceEnd
  split
  · exact kept_occurs (by simp [hp])
  · exact kept_next

end

/-! ### What changes at most the regions, the library, the HBM, the integrity records and the bonds -/
section
variable {part : Part} {s₀ s : State} (hp : part ≠ .regions ∧ part ≠ .lib ∧ part ≠ .hbm ∧ part ≠ .integ ∧
  part ≠ .bonds)
include hp

theorem kept_execSliceRepeat (r failing terminal) : part.keptBy s (execSliceRepeat r failing terminal s) := by
  unfold execSliceRepeat
  split
  · exact kept_occurs (by simp [hp])
  · exact kept_next

end

/-! ### What changes at most the tick, the regions, the library, the HBM, the integrity records and the bonds -/
section
variable {part : Part} {s₀ s : State} (hp : part ≠ .tick ∧ part ≠ .regions ∧ part ≠ .lib ∧ part ≠ .hbm ∧
  part ≠ .integ ∧ part ≠ .bonds)
include hp

theorem kept_execBootLoadComplete : part.keptBy s (execBootLoadComplete s) := kept_occurs (by simp [hp])

end

/-! ### What changes at most the regions, the library, the engines, the queues, the HBM and the integrity records -/
section
variable {part : Part} {s₀ s : State} (hp : part ≠ .regions ∧ part ≠ .lib ∧ part ≠ .dsp ∧ part ≠ .riser ∧
  part ≠ .hbm ∧ part ≠ .integ)
include hp

theorem kept_execLoadActiveComplete (r) : part.keptBy s (execLoadActiveComplete r s) := by
  unfold execLoadActiveComplete
  split
  · exact kept_occurs (by simp [hp])
  · exact kept_next

end

/-! ### What changes at most the regions, the Runner's records, the block memories, the Ingot banks, the engines and
the integrity records -/
section
variable {part : Part} {s₀ s : State} (hp : part ≠ .regions ∧ part ≠ .runner ∧ part ≠ .brams ∧ part ≠ .ingot ∧
  part ≠ .dsp ∧ part ≠ .integ)
include hp

theorem kept_execFettlerPassComplete (r) : part.keptBy s (execFettlerPassComplete r s) := by
  unfold execFettlerPassComplete
  split
  · exact kept_occurs (by simp [hp])
  · exact kept_next

end

/-- Settles O56: it holds. Of the parts, every function that such a command goes through writes only those of its list. -/
theorem fewPartCommandsLeaveTheOthers : Obligations.FewPartCommandsLeaveTheOthers := by
  intro i s low high u hu x hx
  cases i
  all_goals simp [Instr.mayChange, allParts] at low high hx
  case ageingMeasurement => exact kept_execAgeingMeasurement (by simp [hx]) _ u hu
  case ageingPlan => exact kept_execAgeingPlan (by simp [hx]) _ _ u hu
  case ageingUnit => exact kept_execAgeingUnit (by simp [hx]) u hu
  case avsAck => exact kept_execAvsAck (by simp [hx]) _ u hu
  case avsNoAck => exact kept_execAvsNoAck (by simp [hx]) _ u hu
  case avsSettleEnd => exact kept_execAvsSettleEnd (by simp [hx]) _ u hu
  case b => exact kept_issue (by simp [hx]) .b _ u hu
  case bdec => exact kept_issue (by simp [hx]) .bdec _ u hu
  case beqz => exact kept_issue (by simp [hx]) .beqz _ u hu
  case bgez => exact kept_issue (by simp [hx]) .bgez _ u hu
  case bltz => exact kept_issue (by simp [hx]) .bltz _ u hu
  case bnez => exact kept_issue (by simp [hx]) .bnez _ u hu
  case bootLoadComplete => exact kept_execBootLoadComplete (by simp [hx]) u hu
  case bramClearComplete => exact kept_execBramClearComplete (by simp [hx]) _ u hu
  case bramPortOperation => exact kept_execBramPortOperation (by simp [hx]) _ _ _ _ u hu
  case bundle => exact kept_issue (by simp [hx]) .slots _ u hu
  case busTransfer => exact kept_execBusTransfer (by simp [hx]) _ _ _ u hu
  case call => exact kept_issue (by simp [hx]) .call _ u hu
  case cdrLocked => exact kept_execCdrLocked (by simp [hx]) _ u hu
  case crcFeed => exact kept_execCrcFeed (by simp [hx]) _ _ _ _ u hu
  case crcLoad => exact kept_execCrcLoad (by simp [hx]) _ _ _ u hu
  case crcSelect => exact kept_execCrcSelect (by simp [hx]) _ _ _ u hu
  case delayedSwitch => exact kept_execDelayedSwitch (by simp [hx]) _ u hu
  case di => exact kept_issue (by simp [hx]) .di _ u hu
  case dmaDone => exact kept_execDmaDone (by simp [hx]) _ u hu
  case domainPllRelock => exact kept_execDomainPllRelock (by simp [hx]) _ u hu
  case dspDomain => exact kept_execDspDomain (by simp [hx]) _ _ u hu
  case dspHalt => exact kept_execDspHalt (by simp [hx]) _ _ u hu
  case ei => exact kept_issue (by simp [hx]) .ei _ u hu
  case fabricClockEdge => exact kept_execFabricClockEdge (by simp [hx]) _ _ u hu
  case fettlerPassComplete => exact kept_execFettlerPassComplete (by simp [hx]) _ u hu
  case firmwareAuthenticated => exact kept_execFirmwareAuthenticated (by simp [hx]) u hu
  case flashAccess => exact kept_execFlashAccess (by simp [hx]) _ _ u hu
  case flashDirRead => exact kept_execFlashDirRead (by simp [hx]) _ _ u hu
  case fwStage => exact kept_execFwStage (by simp [hx]) _ _ u hu
  case graceExpiry => exact kept_execGraceExpiry (by simp [hx]) _ u hu
  case halt => exact kept_issue (by simp [hx]) .halt _ u hu
  case helloInterval => exact kept_execHelloInterval (by simp [hx]) _ u hu
  case imageProcessingEnd => exact kept_execImageProcessingEnd (by simp [hx]) u hu
  case laneLockAcquired => exact kept_execLaneLockAcquired (by simp [hx]) _ u hu
  case libLoad => exact kept_execLibLoad (by simp [hx]) _ _ u hu
  case libRemove => exact kept_execLibRemove (by simp [hx]) _ _ u hu
  case limm => exact kept_issue (by simp [hx]) .limm _ u hu
  case loadActive => exact kept_execLoadActive (by simp [hx]) _ _ u hu
  case loadActiveComplete => exact kept_execLoadActiveComplete (by simp [hx]) _ u hu
  case loop => exact kept_issue (by simp [hx]) .loop _ u hu
  case maintenanceSteal => exact kept_execMaintenanceSteal (by simp [hx]) _ u hu
  case nop => exact kept_issue (by simp [hx]) .nop _ u hu
  case partnerQuery => exact kept_execPartnerQuery (by simp [hx]) _ _ u hu
  case partnerSet => exact kept_execPartnerSet (by simp [hx]) _ _ u hu
  case pcieReset => exact kept_execPcieReset (by simp [hx]) _ u hu
  case peRstAssert => exact kept_execPeRstAssert (by simp [hx]) u hu
  case planUpdate => exact kept_execPlanUpdate (by simp [hx]) u hu
  case planeFillComplete => exact kept_execPlaneFillComplete (by simp [hx]) _ u hu
  case programOrEraseEnd => exact kept_execProgramOrEraseEnd (by simp [hx]) _ u hu
  case protReinitComplete => exact kept_execProtReinitComplete (by simp [hx]) _ u hu
  case quiesceAck => exact kept_execQuiesceAck (by simp [hx]) _ u hu
  case quiesceTimeout => exact kept_execQuiesceTimeout (by simp [hx]) _ u hu
  case regionIsolate => exact kept_execRegionIsolate (by simp [hx]) _ _ u hu
  case regionResetEnd => exact kept_execRegionResetEnd (by simp [hx]) _ u hu
  case rekeyComplete => exact kept_execRekeyComplete (by simp [hx]) u hu
  case reservedBranchOrSystemOp => exact kept_issue (by simp [hx]) .reserved _ u hu
  case ret => exact kept_issue (by simp [hx]) .ret _ u hu
  case reti => exact kept_issue (by simp [hx]) .reti _ u hu
  case rootPllLock => exact kept_execRootPllLock (by simp [hx]) u hu
  case selftestConfig => exact kept_execSelftestConfig (by simp [hx]) _ _ u hu
  case selftestRun => exact kept_execSelftestRun (by simp [hx]) _ _ u hu
  case sensorSample => exact kept_execSensorSample (by simp [hx]) _ u hu
  case shelfSaveComplete => exact kept_execShelfSaveComplete (by simp [hx]) _ u hu
  case sig => exact kept_issue (by simp [hx]) .sig _ u hu
  case sliceEnd => exact kept_execSliceEnd (by simp [hx]) _ _ _ u hu
  case sliceRepeat => exact kept_execSliceRepeat (by simp [hx]) _ _ _ u hu
  case spineContention => exact kept_execSpineContention (by simp [hx]) _ _ u hu
  case splitWrite => exact kept_execSplitWrite (by simp [hx]) _ _ u hu
  case timeConfig => exact kept_execTimeConfig (by simp [hx]) _ _ u hu
  case trainingDone => exact kept_execTrainingDone (by simp [hx]) _ u hu
  case trainingTimeout => exact kept_execTrainingTimeout (by simp [hx]) _ u hu
  case transactionResponse => exact kept_execTransactionResponse (by simp [hx]) _ _ u hu
  case transactionTimeout => exact kept_execTransactionTimeout (by simp [hx]) _ _ u hu
  case waiti => exact kept_issue (by simp [hx]) .waiti _ u hu
  case windowRightsRecomputed => exact kept_execWindowRightsRecomputed (by simp [hx]) u hu

end Sys2Proof.Machine

/-! The tick and delayed switches (O8): the tick edges, holdover and boundaries (R137, R139), and a region's change that
`HOLD_SWITCH` has held (R153, R154, Table 6.6). -/

namespace Sys2Proof.Machine

/-! ### What a tick boundary does beside the tick (R139 to R141, R144, R292, R423, R451, R458, R212) -/

@[simp] theorem settleParent_tick (s : State) : (settleParent s).1.tick = s.tick := by
  simp only [settleParent]
  repeat' split
  all_goals simp

@[simp] theorem applyRegionShadows_tick (r : Nat) (s : State) : (applyRegionShadows r s).tick = s.tick := by
  simp only [applyRegionShadows]
  repeat' split
  all_goals simp

@[simp] theorem configureLane_tick (l : Nat) (c : LaneCfg) (s : State) : (configureLane l c s).1.tick = s.tick :=
  (same_configureLane (part := .tick) (s₀ := s) (by decide) l c).mpr rfl

@[simp] theorem applyLaneShadows_tick (s : State) : (applyLaneShadows s).tick = s.tick :=
  forEach_tick _ _ _ fun x u => (forEach_tick _ _ _ fun c v => by simp).trans (modLane_tick ..)

@[simp] theorem domainNext_tick (d : Nat) (s : State) : (domainNext d s).tick = s.tick :=
  (same_domainNext (part := .tick) (s₀ := s) (by decide) d).mpr rfl

@[simp] theorem throttleBoundary_tick (s : State) : (throttleBoundary s).tick = s.tick := by
  simp only [throttleBoundary]
  split
  · rfl
  · exact (forBelow_tick _ _ _ fun d u => domainNext_tick d u).trans (by simp)

@[simp] theorem takeMode_tick (c : Nat × Waiter) (s : State) : (takeMode c s).tick = s.tick := by
  simp only [takeMode]
  split <;> simp

@[simp] theorem modeBoundary_tick (s : State) : (modeBoundary s).tick = s.tick := by
  simp [modeBoundary]

@[simp] theorem belowFloor_tick (r : Nat) (slack : Int) (s : State) : (belowFloor r slack s).tick = s.tick := by
  simp only [belowFloor]
  split <;> simp

@[simp] theorem stepDownRegion_tick (r : Nat) (s : State) : (stepDownRegion r s).tick = s.tick := by
  simp only [stepDownRegion]
  split <;> simp

@[simp] theorem applyPlanMax_tick (r : Nat) (s : State) : (applyPlanMax r s).tick = s.tick := by
  simp only [applyPlanMax]
  repeat' split
  all_goals simp

@[simp] theorem stepCope_tick (s : State) : (stepCope s).tick = s.tick := by
  simp only [stepCope]
  repeat' split
  all_goals simp

@[simp] theorem rePlan_tick (s : State) : (rePlan s).tick = s.tick :=
  (same_rePlan (part := .tick) (s₀ := s) (by decide)).mpr rfl

@[simp] theorem planBoundary_tick (s : State) : (planBoundary s).tick = s.tick := by
  simp [planBoundary]

@[simp] theorem retireBank_tick (b : Nat) (s : State) : (retireBank b s).tick = s.tick := by
  simp only [retireBank]
  split <;> simp [markRetired]

@[simp] theorem ingotBoundary_tick (s : State) : (ingotBoundary s).tick = s.tick := by
  simp only [ingotBoundary]
  split <;> simp

@[simp] theorem tryReset_tick (r : Nat) (scope : ResetScope) (w : Waiter) (s : State) :
    (tryReset r scope w s).1.tick = s.tick :=
  (same_tryReset (part := .tick) (s₀ := s) (by decide) r scope w).mpr rfl

@[simp] theorem isolateByCommand_tick (r : Nat) (w : Waiter) (s : State) : (isolateByCommand r w s).tick = s.tick :=
  (same_isolateByCommand (part := .tick) (s₀ := s) (by decide) r w).mpr rfl

@[simp] theorem regionDues_tick (r : Nat) (s : State) : (regionDues r s).tick = s.tick := by
  simp only [regionDues]
  refine (forEach_tick _ _ _ (isolateByCommand_tick r)).trans ?_
  rw [onlyIf_tick, modRegion_tick, ite_self, forEach_tick]
  · simp
  · intro j u
    split <;> simp

@[simp] theorem releaseBoundary_tick (s : State) : (releaseBoundary s).tick = s.tick := by
  simp only [releaseBoundary]
  split <;> simp

/-- A reference that is no link's leaves the tick as the boundary made it. -/
theorem sprueBoundary_tick {s : State} (hsource : s.tick.cfg.source ≠ 2#2) (stepping fresh : Bool) :
    (sprueBoundary stepping fresh s).tick = s.tick := by
  have hlocal : (s.tick.cfg.source == 2#2) = false := beq_false_of_ne hsource
  simp only [sprueBoundary]
  refine (forEach_tick _ _ _ fun l u => modLink_tick ..).trans ?_
  split <;> simp [hlocal]

/-- All that a tick boundary does after it has advanced the tick. -/
theorem tickBoundary_tick {s : State} (hsource : (applyTickShadow (advanceTick s)).tick.cfg.source ≠ 2#2) :
    (tickBoundary s).tick = (applyTickShadow (advanceTick s)).tick := by
  simp only [tickBoundary]
  rw [forBelow_tick _ _ _ fun r u => modTest_tick .., releaseBoundary_tick, forBelow_tick _ _ _ regionDues_tick,
    ingotBoundary_tick, onlyIf_tick, planBoundary_tick, ite_self, throttleBoundary_tick, modeBoundary_tick,
    applyLaneShadows_tick, forBelow_tick _ _ _ applyRegionShadows_tick, sprueBoundary_tick hsource]

theorem advanceTick_shadow (s : State) : (advanceTick s).tick.shadow = s.tick.shadow := rfl

theorem applyTickShadow_none {s : State} (h : s.tick.shadow = none) : applyTickShadow s = s := by
  simp [applyTickShadow, h]

theorem applyTickShadow_some {s : State} {c : TickCfg} {w : Option Waiter} (h : s.tick.shadow = some (c, w)) :
    (applyTickShadow s).tick.number = s.tick.number ∧ (applyTickShadow s).tick.cfg = c ∧
      (applyTickShadow s).tick.shadow = none := by
  simp only [applyTickShadow, h, replyOpt_tick, modTick_tick]
  refine ⟨?_, trivial, trivial⟩
  split <;> rfl

/-! ### The tick generator's events (R137, R139) -/

theorem takeReference_within {s : State} {e : Int} {unit : Nat} (h : e.natAbs ≤ unit) :
    (takeReference e unit s).tick = { s.tick with
      edgesSeen := true, edgeThisTick := true, missCount := 0, align := 1, stepCount := 0, holdover := false
      nextAdjust := 0 } := by
  simp [takeReference, h]

theorem takeReference_slew {s : State} {e : Int} {unit : Nat} (h : unit < e.natAbs) (h' : e.natAbs ≤ 64 * unit) :
    (takeReference e unit s).tick = { s.tick with
      edgesSeen := true, edgeThisTick := true, missCount := 0, align := 2, stepCount := 0
      nextAdjust := if 0 < e then 1 else -1 } := by
  simp [takeReference, h', Nat.not_le.mpr h]

/-- An edge too far off counts toward a step, which its eighth in a row calls for. -/
theorem takeReference_far {s : State} {e : Int} {unit : Nat} (h : unit < e.natAbs) (h' : 64 * unit < e.natAbs) :
    (takeReference e unit s).tick = { s.tick with
      edgesSeen := true, edgeThisTick := true, missCount := 0, stepCount := s.tick.stepCount + 1, nextAdjust := 0
      stepping := if s.tick.stepCount + 1 = 8 then true else s.tick.stepping
      align := if s.tick.stepCount + 1 = 8 then 2 else s.tick.align } := by
  simp only [takeReference, Nat.not_le.mpr h, Nat.not_le.mpr h', if_false, onlyIf_tick, modTick_tick, beq_iff_eq]
  split <;> rfl

theorem makeStep_tick (units : Int) (s : State) :
    (makeStep units s).tick = { s.tick with
      stepping := false, stepCount := 0, steps := satAdd 4294967295 s.tick.steps 1, missCount := 0, edgesSeen := true
      edgeThisTick := true, align := 1, holdover := false, nextAdjust := 0 } := by
  simp [makeStep]

/-! ### The edges, boundaries and holdover of the tick -/

/-- TICK_IN_EDGE while no step is being made: the edge falls nearer one of the boundaries of the tick in progress. -/
theorem gives_tickInEdge {s : State} {pos : Nat} {e : Int} (hrun : s.ticking = true) (hsource : s.tick.cfg.source = 1#2)
    (hstep : s.tick.stepping = false) (hpos : pos ≤ s.tick.length)
    (he : e = if 2 * pos ≤ s.tick.length then (pos : Int) else pos - s.tick.length) {P : State → Prop}
    (h : P (committed s (takeReference e 1 s))) : Gives (.tickInEdge pos) s P := by
  refine gives_occurs (by simp [hrun, hsource, hstep, hpos]) ?_
  simpa [tickInEdge, hstep, ← he] using h

/-- The first edge at or after the tick's end makes the step that is being waited for. -/
theorem gives_tickInEdge_step {s : State} {pos : Nat} (hrun : s.ticking = true) (hsource : s.tick.cfg.source = 1#2)
    (hstep : s.tick.stepping = true) (hlow : s.tick.length ≤ pos) (hhigh : pos ≤ s.tick.length + s.tick.cfg.period)
    {P : State → Prop} (h : P (committed s (makeStep ((pos : Int) - s.tick.length) s))) :
    Gives (.tickInEdge pos) s P := by
  refine gives_occurs (by simp [hrun, hsource, hstep, hhigh]) ?_
  simpa [tickInEdge, hstep, hlow] using h

theorem gives_tickHoldover {s : State} (hrun : s.ticking = true) (hsource : s.tick.cfg.source ≠ 0#2)
    (hseen : s.tick.edgesSeen = true) (halign : s.tick.align ≠ 3#2) (hmiss : 4 ≤ s.tick.missCount) :
    Gives .tickHoldover s (fun t => t.tick.align = 3 ∧ t.tick.holdover = true ∧ t.tick.nextAdjust = 0) := by
  unfold Gives
  simp only [exec, execTickHoldover]
  refine gives_occurs ?_ ?_
  · simp [hrun, hsource, hseen, halign, hmiss]
  · simp

theorem gives_tickBoundary {s : State} (hrun : s.ticking = true)
    (hsource : (applyTickShadow (advanceTick s)).tick.cfg.source ≠ 2#2) {P : State → Prop}
    (h : ∀ t : State, t.tick = (applyTickShadow (advanceTick s)).tick → P t) : Gives .tickBoundary s P :=
  gives_occurs hrun (h _ ((committed_tick ..).trans (tickBoundary_tick hsource)))

/-- Of the tick, a slot boundary changes the number of the slot and the count of slots. -/
theorem slotBoundary_tick (k : Nat) (s : State) :
    (slotBoundary k s).tick = { s.tick with slot := k, slot0Due := false, slots := s.tick.slots + 1 } := by
  have boundary (r : Nat) (u : State) : (regionBoundary k r u).tick = u.tick :=
    (same_regionBoundary (part := .tick) (s₀ := u) (by decide) k r).mpr rfl
  have tested (r : Nat) (u : State) : (fillForTest r (startPending r u)).tick = u.tick :=
    (same_fillForTest (part := .tick) (s₀ := u) (by decide) r).mpr
      ((same_startPending (part := .tick) (s₀ := u) (by decide) r).mpr rfl)
  refine forBelow_tick _ _ _ fun r u => ?_
  simp only [onlyIf_tick, tested, boundary, modGovern, modTherm_tick, modRegion_tick, ite_self]

/-! ### A change that is carried out, forced or skipped (R153, R154, Table 6.6) -/

section
variable {β : Type} {π : Region → β}
  (hplanes : ∀ x a b c d, π { x with plane0 := a, plane1 := b, plane2 := c, plane3 := d } = π x)
include hplanes

/-- An asynchronous set or reset changes flip-flops of a plane only. -/
theorem settleSr_region_keeps (r : Nat) (s : State) : π ((settleSr r s).region r) = π (s.region r) := by
  simp only [settleSr]
  split
  · rfl
  · rw [modRegion_region]
    exact modPlane_keeps π hplanes ..

end

theorem relatchBorder_region_keeps {β : Type} {π : Region → β} (hvals : ∀ x v, π { x with isoVals := v } = π x) (r : Nat)
    (s : State) : π ((relatchBorder r s).region r) = π (s.region r) := by
  rw [relatchBorder, modRegion_region]
  exact hvals ..

theorem checkSpines_region_keeps {β : Type} {π : Region → β} (hspines : ∀ x v, π { x with spineDisable := v } = π x)
    (r : Nat) (s : State) : π ((checkSpines r s).region r) = π (s.region r) := by
  refine forBelow_keeps (fun u => π (u.region r)) _ _ _ fun j u => ?_
  dsimp only
  split
  · rw [tripSpine, region_congr (startPass_regions ..), raise_region, modRegion_region]
    exact hspines ..
  · rfl

/-- Whatever a region was executing, it executes the plane that it switches to. -/
theorem switchPlane_active (r p : Nat) (s : State) : ((switchPlane r p s).region r).active = p := by
  simp only [switchPlane]
  split
  next same => exact same.symm
  next =>
    rw [checkSpines_region_keeps (π := Region.active) fun _ _ => rfl, region_congr (holdGpio_regions ..),
      settleSr_region_keeps (π := Region.active) fun _ _ _ _ _ => rfl,
      relatchBorder_region_keeps (π := Region.active) fun _ _ => rfl, modRegion_region]

theorem switchPlane_forced (r p : Nat) (s : State) : ((switchPlane r p s).region r).forced = (s.region r).forced := by
  have moved (x : Region) (j : Nat) (f : Plane → Plane) : (x.modPlane j f).forced = x.forced :=
    modPlane_keeps Region.forced (fun _ _ _ _ _ => rfl) x j f
  simp only [switchPlane]
  split
  · rfl
  · rw [checkSpines_region_keeps (π := Region.forced) fun _ _ => rfl, region_congr (holdGpio_regions ..),
      settleSr_region_keeps (π := Region.forced) fun _ _ _ _ _ => rfl,
      relatchBorder_region_keeps (π := Region.forced) fun _ _ => rfl, modRegion_region]
    simp only [Region.portEdge, moved]
    rw [settleSr_region_keeps (π := Region.forced) fun _ _ _ _ _ => rfl, switchPortClocks_region]

theorem setResult_region (r : Nat) (d : Decision) (ovr : BitVec 2) (s : State) :
    (setResult r d ovr s).region r = { s.region r with
      swResult := d.sw, ovr := ovr, grace := none
      granted := if d.winner = .fabric ∧ d.sw = 1 then inc32 (s.region r).granted else (s.region r).granted } :=
  modRegion_region ..

theorem applyPermits_region (r : Nat) (e : BitVec 16) (s : State) :
    (applyPermits r e s).region r = { s.region r with dspPermit := entryDsp e, testPermit := entryTest e } := by
  rw [applyPermits, startPending_region, modRegion_region]

theorem not_cannotSwitch {s : State} {r : Nat} {d : Decision}
    (h : d.plane = (s.region r).active ∨ (s.region r).usable d.plane = true) : s.cannotSwitch r d = false := by
  rcases h with h | h <;> simp [State.cannotSwitch, h]

/-- A change that stays ACTIVE, to a plane that may be executed: the plane switches and the result is what was asked. -/
theorem carryOut_region {s : State} {r : Nat} {d : Decision} (hpower : d.power = .active)
    (h : d.plane = (s.region r).active ∨ (s.region r).usable d.plane = true) (ovr : BitVec 2) (outcome : Nat) :
    ((carryOut r d ovr outcome s).region r).active = d.plane ∧ ((carryOut r d ovr outcome s).region r).ovr = ovr ∧
      ((carryOut r d ovr outcome s).region r).swResult = d.sw ∧ ((carryOut r d ovr outcome s).region r).grace = none ∧
      ((carryOut r d ovr outcome s).region r).forced = (s.region r).forced := by
  have done : (carryOut r d ovr outcome s).region r =
      (setResult r d ovr (applyPermits r d.entry (switchPlane r d.plane s))).region r := by
    simp [carryOut, not_cannotSwitch h, hpower, answerOverride_region, onlyIf]
  rw [done, setResult_region, applyPermits_region]
  exact ⟨switchPlane_active r d.plane s, rfl, rfl, rfl, switchPlane_forced r d.plane s⟩

/-- A grace that ends where the schedule forces changes: the plane switches, and the region counts it. -/
theorem overrun_forced_region {s : State} {r : Nat} {d : Decision} (hforce : (s.region r).sched.force = true)
    (hpower : d.power = .active) (h : d.plane = (s.region r).active ∨ (s.region r).usable d.plane = true) :
    ((overrun r d s).region r).active = d.plane ∧ ((overrun r d s).region r).ovr = 2 ∧
      ((overrun r d s).region r).forced = inc32 (s.region r).forced ∧ ((overrun r d s).region r).grace = none := by
  obtain ⟨ev, outcome, forced⟩ : ∃ ev outcome, overrun r d s =
      carryOut r d 2 outcome (modRegion r (fun x => { x with forced := inc32 x.forced }) (raise ev s)) :=
    ⟨_, _, by simp [overrun, hforce, forceChange, not_cannotSwitch h]; rfl⟩
  have counted (f : Region → Region) : (modRegion r f (raise ev s)).region r = f (s.region r) := by
    rw [modRegion_region, raise_region]
  obtain ⟨active, ovr, -, grace, count⟩ := carryOut_region hpower
    (s := modRegion r (fun x => { x with forced := inc32 x.forced }) (raise ev s)) (by rw [counted]; exact h) 2 outcome
  rw [forced]
  exact ⟨active, ovr, count.trans (by rw [counted]), grace⟩

/-- A grace that ends where the schedule skips changes: the plane stays. -/
theorem overrun_skipped_region {s : State} {r : Nat} {d : Decision} (hforce : (s.region r).sched.force = false)
    (hgated : d.gated = false) :
    ((overrun r d s).region r).active = (s.region r).active ∧ ((overrun r d s).region r).ovr = 1 ∧
      ((overrun r d s).region r).skips = inc32 (s.region r).skips ∧ ((overrun r d s).region r).grace = none := by
  simp [overrun, hforce, skipChange, hgated, answerOverride_region, setResult_region, onlyIf]

/-! ### O8 -/

/-- The errors of an edge, and what each does. -/
theorem tickInEdge_gives {s : State} (hrun : s.ticking = true) (pos : Nat) (e : Int) (hsource : s.tick.cfg.source = 1#2)
    (hstep : s.tick.stepping = false) (hpos : pos ≤ s.tick.length)
    (he : e = if 2 * pos ≤ s.tick.length then (pos : Int) else pos - s.tick.length) :
    Gives (.tickInEdge pos) s (fun t => t.tick.missCount = 0 ∧ t.tick.edgesSeen = true ∧
      t.tick.number = s.tick.number ∧
      if e.natAbs ≤ 1 then t.tick.align = 1 ∧ t.tick.nextAdjust = 0 ∧ t.tick.stepCount = 0 ∧ t.tick.holdover = false
      else if e.natAbs ≤ 64 then t.tick.align = 2 ∧ t.tick.nextAdjust = (if 0 < e then 1 else -1) ∧ t.tick.stepCount = 0
      else t.tick.stepCount = s.tick.stepCount + 1 ∧ t.tick.nextAdjust = 0 ∧
        t.tick.stepping = decide (s.tick.stepCount + 1 = 8)) := by
  refine gives_tickInEdge hrun hsource hstep hpos he ?_
  rcases Nat.lt_or_ge 1 e.natAbs with off | within
  · rcases Nat.lt_or_ge 64 e.natAbs with far | slew
    · simp [takeReference_far (unit := 1) off far, Nat.not_le.mpr off, Nat.not_le.mpr far, hstep]
    · simp [takeReference_slew (unit := 1) off slew, Nat.not_le.mpr off, slew]
  · simp [takeReference_within within, within]

/-- Settles O8: it holds. Of the tick, each event changes what R137 and R139 say; the rest of a boundary leaves it. A
change of a region that is carried out or forced switches its plane, and one that is skipped leaves it. -/
theorem ticksAndSwitchesComplete : Obligations.TicksAndSwitchesComplete := by
  refine ⟨fun s hrun => ⟨tickInEdge_gives hrun, ?_, ?_, ?_, ?_, ?_⟩, fun s r d hgrace hpower hplane => ⟨?_, ?_, ?_⟩⟩
  · intro pos hsource hstep hlow hhigh
    refine gives_tickInEdge_step hrun hsource hstep hlow hhigh ?_
    rw [committed_tick, makeStep_tick]
    exact ⟨rfl, rfl, rfl, rfl⟩
  · exact gives_tickHoldover hrun
  · intro hsource hshadow
    have still : applyTickShadow (advanceTick s) = advanceTick s := applyTickShadow_none hshadow
    refine gives_tickBoundary hrun (by rwa [still]) fun t ht => ?_
    rw [ht, still]
    exact ⟨rfl, rfl, rfl, rfl, rfl⟩
  · intro c w hshadow hsource
    obtain ⟨number, cfg, shadow⟩ := applyTickShadow_some (s := advanceTick s) hshadow
    refine gives_tickBoundary hrun (by rwa [cfg]) fun t ht => ?_
    rw [ht]
    exact ⟨number, cfg, shadow⟩
  · intro k hfollows
    refine gives_occurs (by simp [hrun, hfollows]) ?_
    rw [committed_tick, slotBoundary_tick]
    exact ⟨rfl, rfl, rfl⟩
  · intro hfree
    obtain ⟨active, ovr, result, grace, -⟩ := carryOut_region hpower hplane 3 1
    unfold Gives
    simp only [exec, execDelayedSwitch, hgrace]
    refine gives_occurs (by simp [hfree]) ?_
    rw [committed_region]
    exact ⟨active, ovr, result, grace⟩
  · intro hheld hforce
    unfold Gives
    simp only [exec, execGraceExpiry, hgrace]
    refine gives_occurs hheld ?_
    rw [committed_region]
    exact overrun_forced_region hforce hpower hplane
  · intro hheld hforce hgated
    unfold Gives
    simp only [exec, execGraceExpiry, hgrace]
    refine gives_occurs hheld ?_
    rw [committed_region]
    exact overrun_skipped_region hforce hgated

end Sys2Proof.Machine

/-! What reads of HBM outside the protected ranges leave: a predicate that each of their steps keeps holds after them
(R377, R400). The flash and debug commands (R169, R502, R504 to R506). -/

namespace Sys2Proof.Machine

/-! ### What a read of lines outside the protected ranges keeps (R377, R400) -/

/-- The predicate outlasts events and changes of the integrity records and of HBM: all that such a read is. -/
structure KeptByReads (P : State → Prop) : Prop where
  raise : ∀ {e u}, P u → P (raise e u)
  limited : ∀ {e counts u}, P u → P (raiseLimited e counts u)
  integ : ∀ {f u}, P u → P (modInteg f u)
  hbm : ∀ {f u}, P u → P (modHbm f u)

theorem keptByReads_lib (l : LibSt) : KeptByReads (fun u => u.lib = l) where
  raise := fun h => by simpa using h
  limited := fun h => by simpa using h
  integ := id
  hbm := id

theorem keptByReads_slot (p : Port) (sl : Fin 4) (x : Slot) : KeptByReads (fun u => u.slot p sl = x) where
  raise := fun h => by simpa using h
  limited := fun h => by simpa using h
  integ := id
  hbm := id

namespace KeptByReads
variable {P : State → Prop} (keeps : KeptByReads P) {s : State} (h : P s)
include keeps h

theorem hardFault (pl w out i) : P (hardFault pl w out i s) := by
  unfold Machine.hardFault
  dsimp only
  split
  · exact keeps.integ (keeps.integ h)
  · split
    · exact keeps.raise (keeps.integ (keeps.integ (keeps.integ h)))
    · exact keeps.limited (keeps.raise (keeps.integ (keeps.integ h)))

theorem noteRead (pl w out injected fettler) : P (noteRead pl w out injected fettler s).1 := by
  have counted (i) : P (bumpInteg pl i 1 s) := keeps.integ h
  have injects : P (Machine.raise (injectedEvent pl w out) (bumpInteg pl 6 1 s)) := keeps.raise (counted 6)
  unfold Machine.noteRead
  dsimp only
  split
  · exact h
  · split
    · exact injects
    · exact counted 2
  · split
    · exact injects
    · have tracked (i l) : P (setTracker pl l (raiseLimited (correctionEvent pl out) [1, 2] (bumpInteg pl i 1 s))) :=
        keeps.integ (keeps.limited (counted i))
      split
      · exact tracked ..
      · exact keeps.hardFault (tracked ..) ..
      · exact keeps.limited (keeps.integ (tracked ..))
      · exact keeps.raise (keeps.integ (tracked ..))

theorem touchLine (a fettler) : P (touchLine a fettler s) := by
  have noted := keeps.noteRead h (.pc (pcOf a)) (hbmRef (a / 64 * 64)) (s.hbm.eccAt a).out false fettler
  unfold Machine.touchLine onlyIf
  dsimp only
  split
  · exact keeps.hbm noted
  · exact noted

theorem plainRead (a mid fettler) : P (plainRead a mid fettler s).1 := by
  have touched := keeps.touchLine h a fettler
  unfold Machine.plainRead onlyIf
  dsimp only
  split
  · dsimp only
    split
    · exact keeps.raise touched
    · exact touched
  · exact touched

/-- The Ladle and Cupola stop at a protected range: what they read is outside every one. -/
theorem readHbmLines (mid n a) : P (readHbmLines mid n a s).1 := by
  induction n generalizing s a with
  | zero => exact h
  | succ n ih =>
    unfold Machine.readHbmLines
    split
    · exact h
    next plain =>
      have outside : s.rangeOf a = none := by
        simpa using fun ranged => plain (.inr ranged)
      have read : P (hbmRead a mid s).1 := by
        unfold Machine.hbmRead
        rw [outside]
        exact keeps.plainRead h a mid false
      dsimp only
      split
      · exact ih read (a + 64)
      · exact read

theorem readBuffer (mid a n) : P (readBuffer mid a n s).1 := by
  unfold Machine.readBuffer
  split
  · exact h
  · exact keeps.readHbmLines h mid _ a

theorem readSource (flash a) : P (readSource flash a s).1 := by
  unfold Machine.readSource
  cases flash
  · exact keeps.readBuffer (keeps.readBuffer h 66 a headerBytes) 66 _ _
  · exact h

end KeptByReads

theorem readBuffer_lib (mid a n : Nat) (s : State) : (readBuffer mid a n s).1.lib = s.lib :=
  (keptByReads_lib s.lib).readBuffer rfl mid a n

theorem readBuffer_slot (mid a n : Nat) (s : State) (p : Port) (sl : Fin 4) :
    (readBuffer mid a n s).1.slot p sl = s.slot p sl :=
  (keptByReads_slot p sl _).readBuffer rfl mid a n

/-! ### Reads by command that have nothing to wait for (R169, R504) -/

section
variable {s : State}

theorem runReads_idle (idle : s.lib.jobs = []) : runReads s = s := by
  have same : modLib (fun l => { l with jobs := l.jobs.filter (readWaits s) }) s = s := by
    show { s with lib := { s.lib with jobs := s.lib.jobs.filter (readWaits s) } } = s
    rw [idle, List.filter_nil, ← idle]
  unfold runReads
  rw [same, idle]
  rfl

theorem runReads_ready {j : FlashJob} (one : s.lib.jobs = [j]) (ready : readWaits s j = false) :
    runReads s = runRead j (modLib (fun l => { l with jobs := [] }) s) := by
  have emptied : modLib (fun l => { l with jobs := l.jobs.filter (readWaits s) }) s =
      modLib (fun l => { l with jobs := [] }) s := by
    simp [modLib, one, ready]
  unfold runReads
  rw [emptied, one]
  simp [ready, forEach]

/-- While the device programs nothing, a read by command is performed at once. -/
theorem addRead_idle (idle : s.lib.jobs = []) {use : FlashUse} (w : Waiter)
    (reads : (∃ a n hbm, use = .read a n hbm) ∨ ∃ copy first, use = .dirRead copy first) :
    addRead use w s = runRead { use := use, waiter := some w } s := by
  have emptied (js : List FlashJob) :
      modLib (fun l => { l with jobs := [] }) (modLib (fun l => { l with jobs := js }) s) = s := by
    show { s with lib := { s.lib with jobs := [] } } = s
    rw [← idle]
  have added : modLib (fun l => { l with jobs := l.jobs ++ [{ use := use, waiter := some w }] }) s =
      modLib (fun l => { l with jobs := [{ use := use, waiter := some w }] }) s := by
    simp [modLib, idle]
  unfold addRead
  rw [added, runReads_ready rfl, emptied]
  rcases reads with ⟨a, n, hbm, rfl⟩ | ⟨copy, first, rfl⟩ <;> rfl

end

/-! ### The Ladle's next request (R186) -/

section
variable {s : State}

/-- The start on a request reads the header of its image and, where that passes, reserves an entry. -/
theorem startLoad_cases (s : State) : ∃ u, u.lib = s.lib ∧ (∀ p sl, u.slot p sl = s.slot p sl) ∧
    (startLoad s = u ∨ ∃ i f q, startLoad s = modEntry i f (modLib (fun l => { l with queue := q }) u)) := by
  unfold startLoad
  split
  · exact ⟨s, rfl, fun _ _ => rfl, .inl rfl⟩
  next q rest _ =>
    split
    · exact ⟨s, rfl, fun _ _ => rfl, .inl rfl⟩
    · refine ⟨(if q.flash = true then (s, s.lib.flashBytes q.src (min (s.lib.flashRoom q.src) (headerBytes + 16)))
        else readBuffer 66 q.src (headerBytes + 16) s).1, ?_, fun p sl => ?_, ?_⟩
      · split
        · rfl
        · exact readBuffer_lib ..
      · split
        · rfl
        · exact readBuffer_slot ..
      · dsimp only
        split
        · exact .inl rfl
        · exact .inr ⟨_, _, _, rfl⟩

theorem startLoad_lib {β : Type} (π : LibSt → β) (h : ∀ l q e, π { l with queue := q, entries := e } = π l) :
    π (startLoad s).lib = π s.lib := by
  obtain ⟨u, lib, -, start | ⟨i, f, q, start⟩⟩ := startLoad_cases s
  · rw [start, lib]
  · rw [start, ← lib]
    exact h u.lib q _

theorem startLoad_slot (p : Port) (sl : Fin 4) : (startLoad s).slot p sl = s.slot p sl := by
  obtain ⟨u, -, slot, start | ⟨i, f, q, start⟩⟩ := startLoad_cases s
  · rw [start, slot]
  · rw [start]
    exact slot p sl

theorem startLoad_empty (empty : s.lib.queue = []) : startLoad s = s := by
  unfold startLoad
  rw [empty]

end

/-! ### The end of a flash operation (R169) -/

section
variable {s : State}

@[simp] theorem noteLedger_lib (base : Nat) (o : FlashOp) : (noteLedger base o s).lib = s.lib := by
  unfold noteLedger
  dsimp only
  split <;> rfl

@[simp] theorem noteLedger_slot (base : Nat) (o : FlashOp) (p : Port) (sl : Fin 4) :
    (noteLedger base o s).slot p sl = s.slot p sl := by
  unfold noteLedger
  dsimp only
  split <;> rfl

theorem reply_stands {w : Waiter} (stands : Stands s w) (st : Nat) (res : Results) :
    ((reply w st res s).slot w.1 w.2.1).st = .done := by
  obtain ⟨accepted, serial⟩ := stands
  simp [reply, replyAt, accepted, serial, postResponse_slot]

/-- The end of a request's one operation: its change stands in the flash, the series is over, and the request is
answered before the Ladle and the reads go on. -/
theorem endFlashOp_last {o : FlashOp} {w : Waiter} : ∃ u,
    u.lib = { s.lib with flash := o.apply s.lib.flash, jobs := [] } ∧ (∀ p sl, u.slot p sl = s.slot p sl) ∧
    endFlashOp false { ops := [o], waiter := some w } o [] s = startLoad (reply w stOk [] u) := by
  unfold endFlashOp
  simp only [Bool.false_eq_true, if_false, Bool.false_or, readsBack, Bool.not_true, List.length_singleton,
    Nat.lt_irrefl, finishJob, replyOpt]
  generalize written : modLib (fun l => { l with flash := o.apply l.flash }) s = t
  have lib : t.lib = { s.lib with flash := o.apply s.lib.flash } := by rw [← written]; rfl
  have slot (p : Port) (sl : Fin 4) : t.slot p sl = s.slot p sl := by rw [← written]; rfl
  split
  next base _ =>
    refine ⟨modLib (fun l => { l with jobs := [] }) (noteLedger base o t),
      congrArg (fun l : LibSt => { l with jobs := [] }) ((noteLedger_lib ..).trans lib),
      fun p sl => (noteLedger_slot base o p sl).trans (slot p sl), ?_⟩
    rw [runReads_idle (by simp)]
  next =>
    refine ⟨modLib (fun l => { l with jobs := [] }) t, congrArg (fun l : LibSt => { l with jobs := [] }) lib, slot, ?_⟩
    rw [runReads_idle (by simp)]

theorem programOrEraseEnd_gives {o : FlashOp} {w : Waiter} (awake : s.awake = true)
    (job : s.lib.jobs = [{ ops := [o], waiter := some w }]) :
    Gives (.programOrEraseEnd false) s (fun t => t.lib.jobs = [] ∧ t.lib.flash = o.apply s.lib.flash ∧
      (Stands s w → (t.slot w.1 w.2.1).st = .done)) := by
  obtain ⟨u, lib, slot, ended⟩ := endFlashOp_last (s := s) (o := o) (w := w)
  have kept {β : Type} (π : LibSt → β) (h : ∀ l q e, π { l with queue := q, entries := e } = π l) :
      π (startLoad (reply w stOk [] u)).lib = π { s.lib with flash := o.apply s.lib.flash, jobs := [] } := by
    rw [startLoad_lib π h, reply_lib, lib]
  unfold Gives
  simp only [exec, execProgramOrEraseEnd, job]
  refine gives_occurs awake ?_
  rw [committed_lib, committed_slot, ended]
  refine ⟨kept LibSt.jobs fun _ _ _ => rfl, kept LibSt.flash fun _ _ _ => rfl, fun stands => ?_⟩
  rw [startLoad_slot]
  exact reply_stands (by rwa [Stands, slot]) ..

end

/-! ### Staging and flash accesses (R502, R504) -/

/-- A granted request that is answered without being kept waiting, though its command waits where the device is busy. -/
theorem gives_reply {c : CmdSpec} {s : State} {p : Port} {sl : Fin 4} {st : Nat} {res : Results} (h : Granted c s p sl)
    (hb : c.body (takenReq s p sl) (takenState c s p sl) =
      (reply (takenReq s p sl).waiter st res (takenState c s p sl), .wait)) :
    ∃ t, runCmd c p sl s = .next t ∧ t.lib = s.lib ∧ Answered s t p sl st res :=
  gives_wait h hb ⟨by simp, answered_reply rfl (by simp)⟩

@[simp] theorem spanProtected_takenState (c : CmdSpec) (s : State) (p : Port) (sl : Fin 4) (a n : Nat) :
    spanProtected (takenState c s p sl) a n = spanProtected s a n := by
  have range (i : Nat) : (takenState c s p sl).range i = s.range i := by simp [State.range]
  simp only [spanProtected, range]

@[simp] theorem mayWriteFlash_takenState (c : CmdSpec) (s : State) (p : Port) (sl : Fin 4) (a n : Nat) :
    mayWriteFlash (takenState c s p sl) a n = mayWriteFlash s a n := by
  simp [mayWriteFlash]

/-- An image that fits its slot's space becomes the one series of operations. -/
theorem stageImage_fits {q : Req} {kind first copy i : Nat} {bs d e : List Byte} {s : State}
    (pair : (if kind = 1 then 1 else 0x11) = first) (dir : s.lib.dirInUse = some (copy, d))
    (entry : entryOf d (first + (stageSlot d first).1 - 1) = some (i, e)) (fits : bs.length ≤ entrySpace s.lib d i e) :
    stageImage q kind bs s = (modLib (fun l => { l with jobs := [{
      ops := stageOps l copy d i e (stageSlot d first).2 bs
      use := .stage (stageSlot d first).1 kind (stageSlot d first).2
      waiter := some q.waiter, check := some (entAddr e, bs) }] }) s, .wait) := by
  simp only [stageImage, dir, pair, entry, Nat.not_lt.mpr fits, if_false]

theorem flashChange_erase {q : Req} {addr len : Nat} {s : State} (may : mayWriteFlash s addr len = true)
    (idle : s.lib.jobs = []) (room : len ≤ s.lib.flashRoom addr) (erase : q.argByte 8 = 1) :
    flashChange q addr len s =
      (modLib (fun l => { l with jobs := [{ ops := [.erase addr len], waiter := some q.waiter }] }) s, .wait) := by
  simp [flashChange, may, idle, erase, Nat.not_lt.mpr room]

/-! ### Debug unlock (R505, R506) -/

section
variable {s : State}

@[simp] theorem checkUnlock_takenReq (s : State) (p : Port) (sl : Fin 4) (nonce : BitVec 256) (f : Fuses) :
    checkUnlock (takenReq s p sl) nonce f = checkUnlock (s.req p sl) nonce f := by
  simp [checkUnlock]

theorem debugChallenge_given (mode : s.dev.mode = .run ∨ s.dev.mode = .degraded)
    (lockout : s.cudex.dbg.lockout = false) :
    debugChallenge s = (useFree (modDbg (fun d => { d with nonce := some (freshBits 256 s) }) s),
      .done stOk [(16, 32, (freshBits 256 s).toNat), (48, 16, s.env.fuses.deviceId.toNat)]) := by
  have takes : ¬ (s.dev.mode ≠ .run ∧ s.dev.mode ≠ .degraded) := by tauto
  simp only [debugChallenge, takes, lockout]
  rfl

/-- A response whose arguments hold, in a mode that takes it, by what it verifies as under the nonce. -/
theorem debugRespond_checked {q : Req} {nonce : BitVec 256} (low : 1 ≤ q.argByte 9) (high : q.argByte 9 ≤ 2)
    (short : 60 ≤ q.arg 12 4) (long : q.arg 12 4 ≤ 86400) (mode : s.dev.mode = .run ∨ s.dev.mode = .degraded)
    (given : s.cudex.dbg.nonce = some nonce) :
    debugRespond q s = if checkUnlock q nonce s.env.fuses = .refused then (refuseUnlock s, .done stDenied [])
      else (acceptUnlock q s, .done stOk []) := by
  have valid : ¬ (q.argByte 9 = 0 ∨ 2 < q.argByte 9 ∨ q.arg 12 4 < 60 ∨ 86400 < q.arg 12 4) := by omega
  have takes : ¬ (s.dev.mode ≠ .run ∧ s.dev.mode ≠ .degraded) := by tauto
  simp only [debugRespond, valid, takes, given, if_false]

theorem refuseUnlock_slot (p : Port) (sl : Fin 4) : (refuseUnlock s).slot p sl = s.slot p sl := by
  simp only [refuseUnlock, raise_slot]
  rfl

theorem acceptUnlock_slot (q : Req) (p : Port) (sl : Fin 4) : (acceptUnlock q s).slot p sl = s.slot p sl := by
  simp only [acceptUnlock, useFree_slot, raise_slot, settleMode_slot]
  rfl

theorem refuseUnlock_dbg : (refuseUnlock s).cudex.dbg = { s.cudex.dbg with
    nonce := none, failures := s.cudex.dbg.failures + 1, lockout := decide (8 ≤ s.cudex.dbg.failures + 1) } := by
  simp [refuseUnlock, modDbg]

theorem acceptUnlock_dbg (q : Req) : (acceptUnlock q s).cudex.dbg = { s.cudex.dbg with
    nonce := none, failures := 0, level := q.argByte 9, lease := q.arg 12 4 } := by
  simp [acceptUnlock, modDbg]

end

/-! ### What the commands' own parts come to, once their arguments hold (Tables 19.16 and 19.18) -/

section
variable {s : State} {q : Req}

theorem fwStageSpec_verified {a len : Nat} {u : State × List Byte} (image : q.argByte 8 = 1 ∨ q.argByte 8 = 2)
    (ha : q.arg 16 8 = a) (hlen : q.arg 24 4 = len) (aligned : a % 64 = 0) (nonempty : len ≠ 0)
    (inside : a + len ≤ hbmBytes) (plain : spanProtected s a len = false) (idle : s.lib.jobs = [])
    (read : readBuffer 64 a len s = u) (verified : verifyStaged (q.argByte 8) u.2 len u.1 = none) :
    fwStageSpec.body q s = stageImage q (q.argByte 8) u.2 u.1 := by
  have legal : ¬ (q.argByte 8 = 0 ∨ 2 < q.argByte 8 ∨ a % 64 ≠ 0 ∨ len = 0 ∨ hbmBytes < a + len ∨
      spanProtected s a len = true) := by
    simp only [plain, Bool.false_eq_true, or_false]
    omega
  simp only [fwStageSpec, ha, hlen, legal, idle, read, verified]
  rfl

/-- A read or an erase from another port than MB3: inline results that fit the response, or whole sectors (R504). -/
theorem flashAccessSpec_legal (device : devTarget q = true) (port : q.port ≠ .mb3) (op : q.argByte 8 ≤ 1)
    (source : q.argByte 9 ≤ 1) (read : q.argByte 8 = 0 → q.argByte 9 = 0 → q.arg 16 4 ≤ 224)
    (erase : q.argByte 8 = 1 → q.arg 12 4 % 4096 = 0 ∧ q.arg 16 4 % 4096 = 0) :
    flashAccessSpec.body q s =
      if q.argByte 8 = 0 then
        (addRead (.read (q.arg 12 4) (q.arg 16 4) (if q.argByte 9 = 0 then none else some (q.arg 24 8))) q.waiter s,
          .wait)
      else flashChange q (q.arg 12 4) (q.arg 16 4) s := by
  have other : ¬ (q.port = .mb3 ∧ serverOf s ≠ .rom) := fun h => port h.1
  have legal : ¬ (devTarget q = false ∨ 2 < q.argByte 8 ∨ 1 < q.argByte 9 ∨
      (q.argByte 9 = 0 ∧ q.argByte 8 ≠ 1 ∧ 224 < q.arg 16 4) ∨
      (q.argByte 8 = 1 ∧ (q.arg 12 4 % 4096 ≠ 0 ∨ q.arg 16 4 % 4096 ≠ 0))) := by
    simp only [device, Bool.true_eq_false, false_or]
    omega
  simp only [flashAccessSpec, other, legal, if_false]

theorem debugStateReadSpec_reads {plane x y : Nat} (debug : s.dev.debug = true) (hplane : q.argByte 8 = plane)
    (hx : q.arg 10 2 = x) (hy : q.arg 12 2 = y) (below : plane < 4) (left : x < 512) (front : y < 256)
    (place : x / 64 + 8 * (y / 32) = q.target)
    (frozen : ((s.region q.target).plane plane).st = .active → s.dev.mode = .frozen)
    (filled : ((s.region q.target).plane plane).st ≠ .invalid) (awake : asleep s q.target = false) :
    debugStateReadSpec.body q s =
      (s, .done stOk (blockState (s.region q.target) plane (64 * (y % 32) + x % 64))) := by
  have inside : ¬ (4 ≤ plane ∨ 512 ≤ x ∨ 256 ≤ y ∨ x / 64 + 8 * (y / 32) ≠ q.target) := by omega
  have still : ¬ (((s.region q.target).plane plane).st = .active ∧ s.dev.mode ≠ .frozen) := fun h => h.2 (frozen h.1)
  simp only [debugStateReadSpec, hplane, hx, hy, debug, inside, still, filled, awake]
  rfl

theorem debugUnlockSpec_challenge (challenge : q.argByte 8 = 0) : debugUnlockSpec.body q s = debugChallenge s := by
  simp only [debugUnlockSpec, challenge]

theorem debugUnlockSpec_respond (respond : q.argByte 8 = 1) : debugUnlockSpec.body q s = debugRespond q s := by
  simp only [debugUnlockSpec, respond]

end

/-! ### The commands -/

section
variable {s : State} {p : Port} {sl : Fin 4} {q : Req} (posted : s.req p sl = q)
include posted

theorem debugChallenge_gives (granted : Granted debugUnlockSpec s p sl) (challenge : q.argByte 8 = 0)
    (mode : s.dev.mode = .run ∨ s.dev.mode = .degraded) (lockout : s.cudex.dbg.lockout = false) :
    Gives (.debugUnlock p sl) s (fun t => ∃ nonce, t.cudex.dbg = { s.cudex.dbg with nonce := some nonce } ∧
      Answered s t p sl stOk [(16, 32, nonce.toNat), (48, 16, s.env.fuses.deviceId.toNat)]) := by
  subst posted
  have body := (debugUnlockSpec_challenge (q := takenReq s p sl) (by simpa using challenge)).trans
    (debugChallenge_given (s := takenState debugUnlockSpec s p sl) (by simpa using mode) (by simpa using lockout))
  refine gives_done granted body rfl ⟨freshBits 256 (takenState debugUnlockSpec s p sl), by simp [modDbg], ?_⟩
  rw [takenState_env]
  exact answered_committed rfl (by simp [modDbg])

theorem debugRespond_gives {nonce : BitVec 256} (granted : Granted debugUnlockSpec s p sl) (respond : q.argByte 8 = 1)
    (low : 1 ≤ q.argByte 9) (high : q.argByte 9 ≤ 2) (short : 60 ≤ q.arg 12 4) (long : q.arg 12 4 ≤ 86400)
    (mode : s.dev.mode = .run ∨ s.dev.mode = .degraded) (given : s.cudex.dbg.nonce = some nonce) :
    Gives (.debugUnlock p sl) s (fun t => t.cudex.dbg.nonce = none ∧
      if checkUnlock q nonce s.env.fuses = .refused then
        Answered s t p sl stDenied [] ∧ t.cudex.dbg.failures = s.cudex.dbg.failures + 1 ∧ t.dev.debug = s.dev.debug
      else Answered s t p sl stOk [] ∧ t.dev.debug = true ∧ t.cudex.dbg.failures = 0 ∧
        t.cudex.dbg.level = q.argByte 9 ∧ t.cudex.dbg.lease = q.arg 12 4) := by
  subst posted
  have body := (debugUnlockSpec_respond (q := takenReq s p sl) (by simpa using respond)).trans
    (debugRespond_checked (s := takenState debugUnlockSpec s p sl) (nonce := nonce) (by simpa using low)
      (by simpa using high) (by simpa using short) (by simpa using long) (by simpa using mode) (by simpa using given))
  rw [checkUnlock_takenReq, takenState_env] at body
  split at body
  next refused =>
    refine gives_done granted body (refuseUnlock_slot ..) ?_
    rw [if_pos refused]
    refine ⟨by simp [refuseUnlock_dbg], answered_committed (refuseUnlock_slot ..) ?_, by simp [refuseUnlock_dbg], ?_⟩
    · simp [refuseUnlock, modDbg]
    · simp [refuseUnlock, modDbg]
  next verified =>
    refine gives_done granted body (acceptUnlock_slot ..) ?_
    rw [if_neg verified]
    refine ⟨by simp [acceptUnlock_dbg], answered_committed (acceptUnlock_slot ..) ?_, ?_, by simp [acceptUnlock_dbg],
      by simp [acceptUnlock_dbg], by simp [acceptUnlock_dbg]⟩
    · simp [acceptUnlock, modDbg]
    · simp [acceptUnlock, modDbg]

theorem fwStage_gives {kind a len copy i : Nat} {u : State × List Byte} {d e : List Byte}
    (granted : Granted fwStageSpec s p sl) (hkind : q.argByte 8 = kind) (ha : q.arg 16 8 = a) (hlen : q.arg 24 4 = len)
    (image : kind = 1 ∨ kind = 2) (aligned : a % 64 = 0) (nonempty : len ≠ 0) (inside : a + len ≤ hbmBytes)
    (plain : spanProtected s a len = false) (idle : s.lib.jobs = [])
    (read : readBuffer 64 a len (takenState fwStageSpec s p sl) = u) (verified : verifyStaged kind u.2 len u.1 = none)
    (dir : s.lib.dirInUse = some (copy, d))
    (entry : entryOf d ((if kind = 1 then 1 else 0x11) + (stageSlot d (if kind = 1 then 1 else 0x11)).1 - 1) =
      some (i, e))
    (fits : u.2.length ≤ entrySpace s.lib d i e) :
    Gives (.fwStage p sl) s (fun t => Waits t p sl ∧ t.lib.flash = s.lib.flash ∧ ∃ j, t.lib.jobs = [j] ∧
      j.ops = stageOps s.lib copy d i e (stageSlot d (if kind = 1 then 1 else 0x11)).2 u.2) := by
  subst posted hkind
  have lib : u.1.lib = s.lib := by simp [← read, readBuffer_lib]
  have slot : u.1.slot p sl = (takenState fwStageSpec s p sl).slot p sl := by rw [← read, readBuffer_slot]
  have body := fwStageSpec_verified (q := takenReq s p sl) (by simpa using image) (by simpa using ha)
    (by simpa using hlen) aligned nonempty inside (by simpa using plain) (by simpa using idle) read
    (by simpa using verified)
  rw [takenReq_argByte, stageImage_fits rfl (lib ▸ dir) entry (lib ▸ fits)] at body
  exact gives_wait granted body ⟨waits_committed slot, by simp [lib], _, by simp; rfl, by simp [lib]⟩

theorem flashErase_gives {addr len : Nat} (granted : Granted flashAccessSpec s p sl) (device : devTarget q = true)
    (port : p ≠ .mb3) (erase : q.argByte 8 = 1) (source : q.argByte 9 ≤ 1) (ha : q.arg 12 4 = addr)
    (hlen : q.arg 16 4 = len) (aligned : addr % 4096 = 0) (whole : len % 4096 = 0)
    (may : mayWriteFlash s addr len = true) (idle : s.lib.jobs = []) (room : len ≤ s.lib.flashRoom addr) :
    Gives (.flashAccess p sl) s (fun t => Waits t p sl ∧ t.lib.flash = s.lib.flash ∧ ∃ w,
      t.lib.jobs = [{ ops := [.erase addr len], waiter := some w }]) := by
  subst posted ha hlen
  have body := flashAccessSpec_legal (q := takenReq s p sl) (s := takenState flashAccessSpec s p sl)
    (by simpa [devTarget] using device) port (by simp [erase]) (by simpa using source) (by simp [erase])
    (by simp [aligned, whole])
  rw [if_neg (by simp [erase]), flashChange_erase (by simpa using may) (by simpa using idle) (by simpa using room)
    (by simpa using erase)] at body
  exact gives_wait granted body ⟨waits_committed rfl, by simp, _, by simp; rfl⟩

theorem flashRead_gives {addr len : Nat} (granted : Granted flashAccessSpec s p sl) (device : devTarget q = true)
    (port : p ≠ .mb3) (read : q.argByte 8 = 0) (inline_ : q.argByte 9 = 0) (ha : q.arg 12 4 = addr)
    (hlen : q.arg 16 4 = len) (short : len ≤ 224) (idle : s.lib.jobs = []) (room : len ≤ s.lib.flashRoom addr) :
    Gives (.flashAccess p sl) s (fun t => t.lib = s.lib ∧ Answered s t p sl stOk
      ((List.range len).map (fun i => (16 + i, 1, (lget 0 (s.lib.flashBytes addr len) i).toNat)))) := by
  subst posted ha hlen
  have body := flashAccessSpec_legal (q := takenReq s p sl) (s := takenState flashAccessSpec s p sl)
    (by simpa [devTarget] using device) port (by simp [read]) (by simp [inline_]) (by simpa using fun _ _ => short)
    (by simp [read])
  rw [if_pos (by simpa using read), if_pos (by simpa using inline_),
    addRead_idle (by simpa using idle) _ (.inl ⟨_, _, _, rfl⟩)] at body
  refine gives_reply granted (body.trans ?_)
  simp [runRead, flashRead, Nat.not_lt.mpr room]

theorem debugStateRead_gives {plane x y : Nat} (granted : Granted debugStateReadSpec s p sl)
    (debug : s.dev.debug = true) (hplane : q.argByte 8 = plane) (hx : q.arg 10 2 = x) (hy : q.arg 12 2 = y)
    (below : plane < 4) (left : x < 512) (front : y < 256) (place : x / 64 + 8 * (y / 32) = q.target)
    (frozen : ((s.region q.target).plane plane).st = .active → s.dev.mode = .frozen)
    (filled : ((s.region q.target).plane plane).st ≠ .invalid) (awake : asleep s q.target = false) :
    Gives (.debugStateRead p sl) s (fun t => t.regions = s.regions ∧ Answered s t p sl stOk
      (blockState (s.region q.target) plane (64 * (y % 32) + x % 64))) := by
  subst posted
  have body := debugStateReadSpec_reads (q := takenReq s p sl) (s := takenState debugStateReadSpec s p sl)
    (by simpa using debug) (by simpa using hplane) (by simpa using hx) (by simpa using hy) below left front
    (by simpa using place) (by simpa using frozen) (by simpa using filled) (by simpa [asleep] using awake)
  rw [takenReq_target, takenState_region] at body
  exact gives_done granted body rfl ⟨by simp, answered_committed rfl (by simp)⟩

end

/-- Settles O44: a command that passes its checks, by what it starts or reads; the end of a flash operation, by what it
leaves once the Ladle has gone on. -/
theorem flashAndDebugComplete : Obligations.FlashAndDebugComplete := by
  intro s p sl q posted
  refine ⟨?_, ?_, ?_, ?_, debugChallenge_gives posted, ?_, ?_⟩
  · intro kind a len u copy d i e granted
    exact fwStage_gives posted granted
  · intro addr len
    exact flashErase_gives posted
  · intro addr len
    exact flashRead_gives posted
  · intro o w
    exact programOrEraseEnd_gives
  · intro nonce
    exact debugRespond_gives posted
  · intro plane x y
    exact debugStateRead_gives posted

end Sys2Proof.Machine

/-! The library commands and loads into the active plane (R184 to R192, Tables 7.8 to 7.12): what an access to HBM
leaves of the library, the Ladle's queue, entries that are removed, and how a load begins and ends. -/

namespace Sys2Proof.Machine

/-! ### What a security alarm changes of the library (R194, R393) -/

section
variable {s : State}

/-- The Ladle that stops has no request left, and no entry reserved for one. -/
theorem stopLoads_lib (s : State) : ∃ e, (stopLoads s).lib = { s.lib with queue := [], entries := e } := by
  refine forEach_preserves (P := fun u => ∃ e, u.lib = { s.lib with queue := [], entries := e }) (fun q u h => ?_) _
    ⟨s.lib.entries, rfl⟩
  obtain ⟨e, lib⟩ := h
  rw [loadReply, reply_lib]
  unfold freeReserved
  split
  · exact ⟨e, lib⟩
  next i _ => exact ⟨_, congrArg (fun l : LibSt => { l with entries := tmod {} l.entries i fun _ => {} }) lib⟩

theorem securityAlarm_lib (s : State) :
    (securityAlarm s).lib = s.lib ∨ ∃ e, (securityAlarm s).lib = { s.lib with queue := [], entries := e } := by
  have held (f : Device → Device) (u : State) (lib : u.lib = s.lib) :
      ∃ e, (stopLoads (settleMode 0x19 (modDev f u))).lib = { s.lib with queue := [], entries := e } := by
    obtain ⟨e, stopped⟩ := stopLoads_lib (settleMode 0x19 (modDev f u))
    exact ⟨e, stopped.trans (by simp [lib])⟩
  unfold securityAlarm
  dsimp only
  split
  · exact .inl rfl
  · split
    case h_5 | h_6 | h_7 => exact .inr (held _ _ rfl)
    all_goals exact .inl rfl

end

/-! ### What an access to HBM keeps (R377, R384, R393) -/

/-- The predicate outlasts, beyond what a plain read is, a security alarm and a free value taken. -/
structure KeptByAccesses (P : State → Prop) : Prop extends KeptByReads P where
  free : ∀ {u}, P u → P (useFree u)
  alarm : ∀ {u}, P u → P (securityAlarm u)

theorem keptByAccesses_jobs (js : List FlashJob) : KeptByAccesses (fun u => u.lib.jobs = js) where
  raise := fun h => by simpa using h
  limited := fun h => by simpa using h
  integ := id
  hbm := id
  free := id
  alarm := fun {u} h => by
    rcases securityAlarm_lib u with lib | ⟨e, lib⟩ <;> simpa [lib] using h

theorem keptByAccesses_noQueue : KeptByAccesses (fun u => u.lib.queue = []) where
  raise := fun h => by simpa using h
  limited := fun h => by simpa using h
  integ := id
  hbm := id
  free := id
  alarm := fun {u} h => by
    rcases securityAlarm_lib u with lib | ⟨e, lib⟩ <;> simp [lib, h]

namespace KeptByAccesses
variable {P : State → Prop} (keeps : KeptByAccesses P) {s : State} (h : P s)
include keeps h

theorem touchPath (r page res) : P (touchPath r page res s) :=
  List.foldlRecOn _ _ h fun _ hu _ _ => List.foldlRecOn _ _ hu fun _ hv _ _ => keeps.touchLine hv _ _

theorem touchTagged (r a) : P (touchTagged r a s) := keeps.touchLine (keeps.touchLine h _ _) _ _

theorem checkCounters (ri page) : P (checkCounters ri page s) := by
  rw [show @Machine.checkCounters = _ by delta Machine.checkCounters; rfl]
  split
  · exact h
  · split
    · exact h
    · unfold startRekey
      split
      · exact keeps.raise h
      · exact keeps.free (keeps.hbm (keeps.raise h))

theorem writeUnder (ri k j bs) : P (writeUnder ri k j bs s) := by
  rw [show @Machine.writeUnder = _ by delta Machine.writeUnder; rfl]
  dsimp -iota -proj only
  split
  exact keeps.hbm (keeps.hbm h)

theorem noteWrite (pl w) : P (noteWrite pl w s) := by
  unfold Machine.noteWrite setTracker
  exact keeps.integ h

theorem bumpRange (ri i n) : P (bumpRange ri i n s) := by
  unfold Machine.bumpRange modRange
  exact keeps.hbm h

theorem itemFailure (ri level index mid) : P (itemFailure ri level index mid s) :=
  keeps.alarm (keeps.raise (keeps.hbm (keeps.bumpRange h ri 3 1)))

theorem lineFailure (ri a mid op) : P (lineFailure ri a mid op s) :=
  keeps.alarm (keeps.raise (keeps.bumpRange h ri 2 1))

theorem poisonAccess (ri a mid) : P (poisonAccess ri a mid s) :=
  keeps.alarm (keeps.raise (keeps.bumpRange h ri 4 1))

theorem plainWrite (a mid data be) : P (plainWrite a mid data be s).1 := by
  have touched := keeps.touchLine h a false
  unfold Machine.plainWrite onlyIf
  dsimp only
  split
  · exact h
  · split
    · dsimp only
      exact keeps.noteWrite (keeps.hbm h) _ _
    · split
      · dsimp only
        split
        · exact keeps.raise touched
        · exact touched
      · dsimp only
        exact keeps.noteWrite (keeps.hbm touched) _ _

theorem protWrite (ri a mid data be) : P (protWrite ri a mid data be s).1 := by
  have touched := keeps.touchPath h (s.range ri) ((s.range ri).pageOf a)
    (pathOf s.hbm (s.range ri) ((s.range ri).pageOf a))
  unfold Machine.protWrite
  dsimp only
  split
  · exact h
  · split
    · exact keeps.poisonAccess h ri a mid
    · split
      · exact keeps.itemFailure touched ri _ _ mid
      · split
        · dsimp only
          exact keeps.lineFailure (keeps.touchTagged touched (s.range ri) a) ri a mid 1
        · dsimp only
          refine keeps.checkCounters (keeps.writeUnder (keeps.noteWrite (keeps.hbm ?_) _ _) _ _ _ _) _ _
          unfold onlyIf
          split
          · exact keeps.touchTagged touched _ _
          · exact touched

theorem hbmWrite (a mid data be) : P (hbmWrite a mid data be s).1 := by
  unfold Machine.hbmWrite
  split
  · exact keeps.plainWrite h _ _ _ _
  · split
    · exact keeps.plainWrite h _ _ _ _
    · exact keeps.protWrite h _ _ _ _ _

theorem writeBuffer (a bs) : P (writeBuffer a bs s).1 := by
  refine List.foldlRecOn (motive := fun acc : State × Bool => P acc.1) _ _ h fun acc hacc i _ => ?_
  dsimp only
  split
  · exact keeps.hbmWrite hacc _ _ _ _
  · exact hacc

theorem writeEntryBytes (i frames) : P (writeEntryBytes i frames s).1 := by
  refine List.foldlRecOn (motive := fun acc : State × Bool => P acc.1) _ _ h fun acc hacc k _ => ?_
  split
  · exact keeps.hbmWrite hacc _ _ _ _
  · exact hacc

end KeptByAccesses

/-! ### The Ladle's queue (R185 to R187) -/

section
variable {s : State}

theorem freeReserved_queue (q : LoadReq) : (freeReserved q s).lib.queue = s.lib.queue :=
  freeReserved_keeps (·.lib.queue) (fun _ _ _ => rfl) q

theorem loadReply_lib (q : LoadReq) (st i cause a : Nat) : (loadReply q st i cause a s).lib = s.lib := by
  rw [loadReply, reply_lib]

theorem rejectEvents_lib (r : Reject) (flash : Bool) (mid : Nat) : (rejectEvents r flash mid s).lib = s.lib := by
  simp [rejectEvents]

theorem afterReady_lib (q : LoadReq) (i : Nat) : (afterReady q i s).lib = s.lib := by
  unfold afterReady
  split
  · exact loadReply_lib ..
  · dsimp only
    split
    · exact loadReply_lib ..
    · rfl

theorem placeImage_noQueue (im : Image) (mid : Nat) (empty : s.lib.queue = []) :
    (placeImage im false mid s).1.lib.queue = [] := by
  refine List.foldlRecOn (motive := fun acc : State × Bool => acc.1.lib.queue = []) _ _ empty fun acc hacc x _ => ?_
  split
  next pl i frames _ =>
    have written := keptByAccesses_noQueue.writeEntryBytes hacc i frames
    split
    · generalize writeEntryBytes i frames acc.1 = w at written ⊢
      obtain ⟨t, ok⟩ := w
      cases ok
      · exact written
      · simpa [makeReady, modEntry] using written
    · exact hacc
  · exact hacc

/-- A request whose processing has ended leaves none in an empty queue. -/
theorem finishLoad_noQueue (q : LoadReq) (empty : s.lib.queue = []) : (finishLoad q s).lib.queue = [] := by
  have read := keptByAccesses_noQueue.readSource empty q.flash q.src
  unfold finishLoad
  dsimp only
  split
  · rw [loadReply_lib, rejectEvents_lib, freeReserved_queue, read]
  next im _ =>
    have placed := placeImage_noQueue im q.master (s := freeReserved q (readSource q.flash q.src s).1)
      (by rw [freeReserved_queue, read])
    split
    next t bad =>
      rw [bad] at placed
      rw [loadReply_lib, rejectEvents_lib, freeReserved_queue, forEach_keeps (·.lib.queue) _ _ _ fun i u =>
        show (modEntry i (fun _ => {}) u).lib.queue = u.lib.queue from rfl]
      exact placed
    next t good =>
      rw [good] at placed
      rw [forEach_keeps State.lib _ _ _ fun i u => afterReady_lib q i]
      exact placed

/-- The end of the request at the front: where it was the only one, or where HOLD stops the Ladle, none is left. -/
theorem endProcessing_noQueue {x : LoadReq} {rest : List LoadReq} (front : s.lib.queue = x :: rest)
    (last : rest = [] ∨ s.dev.mode = .hold) : (endProcessing s).lib.queue = [] := by
  unfold endProcessing
  rw [front]
  dsimp only
  split
  · obtain ⟨e, lib⟩ := stopLoads_lib s
    rw [lib]
  next on =>
    have done := finishLoad_noQueue (s := modLib (fun l => { l with queue := rest }) s) x (last.resolve_right on)
    rwa [startLoad_empty done]

theorem imageProcessingEnd_gives {x : LoadReq} {rest : List LoadReq} (awake : s.awake = true)
    (front : s.lib.queue = x :: rest) (free : (x.flash && flashBusy s x.src) = false)
    (last : rest = [] ∨ s.dev.mode = .hold) : Gives .imageProcessingEnd s (fun t => t.lib.queue = []) := by
  refine gives_occurs (by simp [awake, front, free]) ?_
  rw [committed_lib]
  exact endProcessing_noQueue front last

end

/-! ### Reads by command that wait (R169) -/

section
variable {s : State}

theorem flashRead_jobs (w : Waiter) (addr len : Nat) (hbm : Option Nat) :
    (flashRead w addr len hbm s).lib.jobs = s.lib.jobs := by
  unfold flashRead
  dsimp only
  split
  · rw [reply_lib]
  · split
    · rw [reply_lib]
    · rw [reply_lib]
      exact (keptByAccesses_jobs s.lib.jobs).writeBuffer rfl _ _

theorem readDir_lib (w : Waiter) (copy first : Nat) : (readDir w copy first s).lib = s.lib := by
  unfold readDir
  split <;> exact reply_lib ..

theorem runRead_jobs (j : FlashJob) : (runRead j s).lib.jobs = s.lib.jobs := by
  unfold runRead
  split
  · exact flashRead_jobs ..
  · rw [readDir_lib]
  · rfl

/-- A read of a device that is being programmed stays among the series. -/
theorem mem_addRead_busy {use : FlashUse} (w : Waiter)
    (waits : readWaits (modLib (fun l => { l with jobs := l.jobs ++ [{ use := use, waiter := some w }] }) s)
      { use := use, waiter := some w } = true) :
    { use := use, waiter := some w } ∈ (addRead use w s).lib.jobs := by
  unfold addRead runReads
  rw [forEach_keeps (·.lib.jobs) _ _ _ fun j u => runRead_jobs j]
  exact List.mem_filter.mpr ⟨List.mem_append_right _ (List.mem_singleton_self _), waits⟩

/-- What joins the series behind the first does not change which device is busy. -/
theorem flashBusy_append {js : List FlashJob} {addr : Nat} (busy : flashBusy s addr = true) :
    flashBusy (modLib (fun l => { l with jobs := l.jobs ++ js }) s) addr = true := by
  cases jobs : s.lib.jobs with
  | nil => simp [flashBusy, jobs] at busy
  | cons j rest => simpa [flashBusy, jobs] using busy

end

/-! ### Removed entries (R184) -/

section
variable {s : State} {i : Nat}

theorem removeEntry_slot (p : Port) (sl : Fin 4) : (removeEntry i s).slot p sl = s.slot p sl :=
  forBelow_keeps (·.slot p sl) _ _ (modEntry i (fun _ => {}) s) fun r u => by
    dsimp only
    split <;> rfl

theorem removeEntry_tick : (removeEntry i s).tick = s.tick :=
  forBelow_keeps State.tick _ _ (modEntry i (fun _ => {}) s) fun r u => by
    dsimp only
    split <;> rfl

theorem removeEntry_entry : (removeEntry i s).entry i = {} := by
  have lib : (removeEntry i s).lib = (modEntry i (fun _ => {}) s).lib :=
    forBelow_keeps State.lib _ _ (modEntry i (fun _ => {}) s) fun r u => by
      dsimp only
      split <;> rfl
  rw [State.entry, lib]
  exact tget_tmod_same {} s.lib.entries i fun _ => {}

/-- No region records an entry that has been removed. -/
theorem removeEntry_record {r : Nat} (below : r < 64) : ((removeEntry i s).region r).record ≠ some i := by
  have cleared (x : Region) : (if x.record = some i then none else x.record) ≠ some i := by
    split <;> simp [*]
  refine forEach_establishes (P := fun u => (u.region r).record ≠ some i) (fun u => ?_) (fun k u h => ?_)
    (List.mem_range.mpr below) (modEntry i (fun _ => {}) s)
  · dsimp only
    split
    · rw [modRegion_region]
      exact cleared _
    next other => simp_all
  · dsimp only
    split
    · by_cases same : r = k
      · subst same
        rw [modRegion_region]
        exact cleared _
      · rwa [modRegion_region_ne _ _ _ _ same]
    · exact h

theorem entry_congr {t : State} (h : t.lib = s.lib) (k : Nat) : t.entry k = s.entry k := by
  rw [State.entry, State.entry, h]

theorem pinning_congr {t : State} (h : t.regions = s.regions) : pinning i t = pinning i s := by
  simp only [pinning, region_congr h]

theorem pinning_removeEntry : pinning i (removeEntry i s) = [] := by
  simpa [pinning] using fun r below => removeEntry_record (s := s) below

end

/-! ### How a load into the active plane begins (R190) -/

section
variable {s : State}

theorem landEngines_slot (f : Nat → Bool) (p : Port) (sl : Fin 4) : (landEngines f s).slot p sl = s.slot p sl :=
  forEach_keeps (·.slot p sl) _ _ _ fun id u => by
    unfold onlyIf
    split <;> rfl

/-- What a load stops and holds of a region before it takes the region's clock. -/
theorem loadStops_iso (r : Nat) :
    IsoCause.load ∈ ((landEngines (· == r) (rewindRegion r (isolate r .load s))).region r).iso := by
  rw [landEngines_region, rewindRegion_region]
  exact mem_isolate_iso r .load s

theorem beginLoadActive_slot {q : Req} (p : Port) (sl : Fin 4) :
    (beginLoadActive q s).1.slot p sl = s.slot p sl := by
  have regionOnly (k : Nat) (f : Region → Region) (u : State) : (modRegion k f u).slot p sl = u.slot p sl := rfl
  have exits (c : Bool) (u : State) : (onlyIf c (startExit q.target none) u).slot p sl = u.slot p sl :=
    onlyIf_shows (π := (·.slot p sl)) rfl
  simp only [beginLoadActive, exits, pauseSweeps_slot, regionOnly, landEngines_slot, rewindRegion_slot, isolate_slot]

/-- The region of a load that begins while it is not COLD. -/
theorem beginLoadActive_region {q : Req} (power : (s.region q.target).power ≠ .cold) :
    IsoCause.load ∈ ((beginLoadActive q s).1.region q.target).iso ∧
      ((beginLoadActive q s).1.region q.target).clockOn = false ∧
      ((beginLoadActive q s).1.region q.target).loadingActive = true := by
  have iso := loadStops_iso (s := s) q.target
  simp only [beginLoadActive, power, decide_false, onlyIf_false]
  generalize landEngines (· == q.target) (rewindRegion q.target (isolate q.target .load s)) = u at iso ⊢
  rw [pauseSweeps_region, modRegion_region]
  exact ⟨iso, rfl, by simp [Region.loadingActive]⟩

theorem loadActiveSpec_begins {q : Req} (below : q.argByte 8 < 4) (active : q.argByte 8 = (s.region q.target).active)
    (power : (s.region q.target).power = .active) (held : q.arg 10 2 < s.lib.capacity)
    (ready : (s.entry (q.arg 10 2)).st = entryReady) (fits : (s.entry (q.arg 10 2)).fits q.target = true)
    (whole : (s.region q.target).retired = false) (idle : (s.region q.target).fill = none)
    (slice : (s.region q.target).slice = none) (still : (s.region q.target).trans = none) :
    loadActiveSpec.body q s = beginLoadActive q s := by
  have legal : ¬ (4 ≤ q.argByte 8 ∨ ((s.region q.target).power ≠ .cold ∧ q.argByte 8 ≠ (s.region q.target).active) ∨
      s.lib.capacity ≤ q.arg 10 2 ∨ (s.entry (q.arg 10 2)).st ≠ entryReady) := by
    rintro (h | h | h | h)
    · omega
    · exact h.2 active
    · omega
    · exact h ready
  simp only [loadActiveSpec]
  rw [if_neg legal]
  simp [fits, whole, idle, slice, still, power, Power.low]

end

/-! ### How a load into the active plane ends (R190, R192) -/

section
variable {s : State} {r : Nat} {f : FillJob}

theorem copyFor_barredBy (k : Nat) (w : PlaneUse) : (copyFor r f s).1.barredBy k w = s.barredBy k w := by
  obtain ⟨fuses, -⟩ := copyFor_noNewLoads (s := s) r f
  simp only [State.barredBy, State.defectMap, fuses, region_congr (copyFor_regions r f)]

theorem nextFill_none (wait : (s.region r).fillWait = []) : nextFill r s = s := by
  unfold nextFill
  simp only [wait]
  split
  next _ _ => simp_all
  · rfl

/-- A region without a fill begins to go to COLD: it quiesces first (R19). -/
theorem startEntry_cold_region (idle : (s.region r).fill = none) (power : (s.region r).power ≠ .shelved) :
    (startEntry r .cold s).region r = { s.region r with trans := some (.quiescing .cold) } := by
  have rewound (u : State) : (onlyIf (Power.deep .cold) (rewindRegion r) u).region r = u.region r :=
    onlyIf_shows (π := (State.region · r)) (rewindRegion_region r u r)
  have nothing : abandonFill r .cold s = s := by
    unfold abandonFill
    simp only [idle]
  have below : (Power.cold != .gated) = true := rfl
  simp only [startEntry, reduceCtorEq, decide_false, Bool.false_and, onlyIf_false, Bool.false_eq_true, if_false, below,
    onlyIf_true, nothing, power]
  rw [pauseSweeps_region, rewound, landEngines_region, modRegion_region]

theorem dropLoad_region (power : (s.region r).power = .active) (wait : (s.region r).fillWait = []) :
    ((dropLoad r f s).region r).fill = none ∧ ((dropLoad r f s).region r).record = none ∧
      ((dropLoad r f s).region r).trans ≠ none := by
  unfold dropLoad
  extract_lets t
  have region : (startEntry r .cold t).region r = { t.region r with trans := some (.quiescing .cold) } := by
    refine startEntry_cold_region ?_ ?_
    · simp only [t, modRegion_region]
    · simp only [t, modRegion_region]
      rw [modPlane_keeps Region.power fun _ _ _ _ _ => rfl, power]
      decide
  have waits : ((startEntry r .cold t).region r).fillWait = [] := by
    rw [region]
    simp only [t, modRegion_region]
    exact (modPlane_keeps Region.fillWait (fun _ _ _ _ _ => rfl) _ _ _).trans wait
  rw [nextFill_none waits, region]
  simp [t]

theorem keepLoad_region {frames : Table Frame} (wait : (s.region r).fillWait = []) :
    ((keepLoad r f frames s).region r).fill = none ∧ ((keepLoad r f frames s).region r).record = some f.index ∧
      IsoCause.load ∈ ((keepLoad r f frames s).region r).freeDue := by
  unfold keepLoad
  extract_lets t
  have shown {β : Type} (π : Region → β) (h : ∀ x v, π { x with spineDisable := v } = π x) (e : EvRec) :
      π ((checkSpines r (raise e t)).region r) = π (t.region r) := by
    rw [checkSpines_region_keeps h, raise_region]
  rw [nextFill_none]
  · refine ⟨(shown Region.fill (fun _ _ => rfl) _).trans ?_, (shown Region.record (fun _ _ => rfl) _).trans ?_, ?_⟩
    · simp only [t, modRegion_region]
    · simp only [t, modRegion_region]
    · rw [shown Region.freeDue fun _ _ => rfl]
      simp [t]
  · rw [shown Region.fillWait fun _ _ => rfl]
    simp only [t, modRegion_region]
    exact (modPlane_keeps Region.fillWait (fun _ _ _ _ _ => rfl) _ _ _).trans wait

end

section
variable {s : State} {r : Nat} {f : FillJob} (power : (s.region r).power = .active) (wait : (s.region r).fillWait = [])
include power wait

theorem endLoadActive_failed {u : State} {a c : Nat} (copy : copyFor r f s = (u, .failed a c)) :
    ((endLoadActive r f s).region r).fill = none ∧ ((endLoadActive r f s).region r).record = none ∧
      ((endLoadActive r f s).region r).trans ≠ none := by
  have regions := copyFor_regions (s := s) r f
  rw [copy] at regions
  have same : (loadFailed r f a c u).region r = s.region r := by
    rw [loadFailed, raise_region, region_congr regions]
  unfold endLoadActive
  simp only [copy, fillReply_region]
  exact dropLoad_region (by rw [same, power]) (by rw [same, wait])

theorem endLoadActive_ok {u : State} {frames : Table Frame} {n : Nat} (copy : copyFor r f s = (u, .ok frames n)) :
    ((endLoadActive r f s).region r).fill = none ∧
      if s.barredBy r (useOf r frames) then ((endLoadActive r f s).region r).record = none
      else ((endLoadActive r f s).region r).record = some f.index ∧
        IsoCause.load ∈ ((endLoadActive r f s).region r).freeDue := by
  have regions := copyFor_regions (s := s) r f
  have barred := copyFor_barredBy (s := s) (r := r) (f := f) r (useOf r frames)
  rw [copy] at regions barred
  unfold endLoadActive
  simp only [copy, ← barred]
  split
  · simp only [fillReply_region]
    have same : (useFree (loadFailed r f 0 (freshNat u) u)).region r = s.region r := by
      rw [useFree_region, loadFailed, raise_region, region_congr regions]
    obtain ⟨fill, record, -⟩ := dropLoad_region (f := f) (by rw [same, power]) (by rw [same, wait])
    exact ⟨fill, record⟩
  · simp only [fillReply_region]
    exact keepLoad_region (by rw [region_congr regions, wait])

end

/-! ### What the commands' own parts come to, once their arguments hold (Tables 7.8 to 7.10 and 7.12) -/

section
variable (c : CmdSpec) (s : State) (p : Port) (sl : Fin 4) (i : Nat)

@[simp] theorem pinning_takenState : pinning i (takenState c s p sl) = pinning i s :=
  pinning_congr (takenState_regions ..)

@[simp] theorem fillReads_takenState : fillReads i (takenState c s p sl) = fillReads i s := by simp [fillReads]

@[simp] theorem descriptor_takenState : descriptor i (takenState c s p sl) = descriptor i s := by
  simp only [descriptor, descriptorBytes, takenState_entry, pinning_takenState]

end

section
variable {q : Req} {s : State} {i : Nat}

/-- A load into the library alone (R185). -/
theorem libLoadSpec_library (device : q.target = 0xFFFF) (source : q.argByte 8 ≤ 1) (plane : q.argByte 26 = 0xFF) :
    libLoadSpec.body q s = acceptLoad q none s := by
  have legal : ¬ (2 ≤ q.argByte 8 ∨ (q.target = 0xFFFF ∧ q.argByte 26 ≠ 0xFF) ∨
      (q.target ≠ 0xFFFF ∧ 4 ≤ q.argByte 26)) := by omega
  simp only [libLoadSpec]
  rw [if_neg legal, if_pos device]

/-- A request that finds others before it, and room behind them, joins the queue. -/
theorem acceptLoad_behind (others : s.lib.queue ≠ []) (room : s.lib.queue.length < 8) :
    acceptLoad q none s = (modLib (fun l => { l with queue := l.queue ++ [{
      flash := q.argByte 8 == 1, src := if q.argByte 8 = 1 then q.arg 16 4 else q.arg 16 8
      index := q.arg 24 2, target := none, waiter := q.waiter, master := portMaster q.port }] }) s, .wait) := by
  have full : ¬ 8 ≤ s.lib.queue.length := Nat.not_le.mpr room
  simp [acceptLoad, full, others, onlyIf]

theorem libRemoveSpec_removes (index : q.arg 8 2 = i) (held : i < s.lib.capacity) (ready : (s.entry i).st = entryReady)
    (unread : fillReads i s = false) (unpinned : pinning i s = [] ∨ q.force = true) :
    libRemoveSpec.body q s = (raise (loadEvent 4 1 [(2, i), (1, (pinning i s).length)]) (removeEntry i s),
      .done stOk [(16, 2, (pinning i s).length)]) := by
  have full : ¬ (s.lib.capacity ≤ i ∨ (s.entry i).st = entryEmpty) := by simp [ready, held, entryReady, entryEmpty]
  have still : ¬ ((s.entry i).st = entryLoading ∨ fillReads i s = true) := by
    simp [ready, unread, entryReady, entryLoading]
  have free : ¬ (0 < (pinning i s).length ∧ q.force = false) := by
    rcases unpinned with none | forced
    · simp [none]
    · simp [forced]
  simp only [libRemoveSpec, index, full, still, free, if_false]

theorem libQuerySpec_held (index : q.arg 8 2 = i) (held : i < s.lib.capacity) :
    libQuerySpec.body q s = (s, .done stOk (descriptor i s ++ [(80, 2, s.lib.capacity),
      (82, 2, s.lib.entries.countP (fun e => decide (e.2.st = entryReady))), (84, 8, s.lib.base)])) := by
  simp only [libQuerySpec, index, Nat.not_le.mpr held, if_false]

theorem flashDirReadSpec_legal (copy : q.argByte 8 = 1) (first : q.argByte 9 < 63) :
    flashDirReadSpec.body q s = (addRead (.dirRead 1 (q.argByte 9)) q.waiter s, .wait) := by
  simp [flashDirReadSpec, copy, Nat.not_le.mpr first]

end

/-! ### The commands -/

section
variable {s : State} {p : Port} {sl : Fin 4}

theorem libLoad_gives (granted : Granted libLoadSpec s p sl) (target : (s.req p sl).target = 0xFFFF)
    (source : (s.req p sl).argByte 8 ≤ 1) (plane : (s.req p sl).argByte 26 = 0xFF) (waiting : 1 ≤ s.lib.queue.length)
    (room : s.lib.queue.length < 8) :
    Gives (.libLoad p sl) s (fun t => Waits t p sl ∧ ∃ x, t.lib.queue = s.lib.queue ++ [x] ∧
      x.flash = ((s.req p sl).argByte 8 == 1) ∧ x.index = (s.req p sl).arg 24 2 ∧ x.target = none) := by
  have body := libLoadSpec_library (q := takenReq s p sl) (s := takenState libLoadSpec s p sl) (by simpa using target)
    (by simpa using source) (by simpa using plane)
  rw [acceptLoad_behind (by simpa using List.ne_nil_of_length_pos waiting) (by simpa using room)] at body
  exact gives_wait granted body ⟨waits_committed rfl, _, by simp; rfl, by simp, by simp, rfl⟩

theorem libRemove_gives {i : Nat} (granted : Granted libRemoveSpec s p sl) (index : (s.req p sl).arg 8 2 = i)
    (held : i < s.lib.capacity) (ready : (s.entry i).st = entryReady) (unread : fillReads i s = false)
    (unpinned : pinning i s = [] ∨ (s.req p sl).force = true) :
    Gives (.libRemove p sl) s (fun t => t.entry i = {} ∧
      Answered s t p sl stOk [(16, 2, (pinning i s).length)] ∧ pinning i t = []) := by
  have body := libRemoveSpec_removes (q := takenReq s p sl) (s := takenState libRemoveSpec s p sl)
    (by simpa using index) (by simpa using held) (by simpa using ready) (by simpa using unread)
    (by simpa using unpinned)
  rw [pinning_takenState] at body
  have slot := fun e => (raise_slot e _ p sl).trans
    (removeEntry_slot (s := takenState libRemoveSpec s p sl) (i := i) p sl)
  refine gives_done granted body (slot _) ⟨?_, answered_committed (slot _) (by simp [removeEntry_tick]), ?_⟩
  · have lib := fun e => raise_lib e (removeEntry i (takenState libRemoveSpec s p sl))
    exact (entry_congr ((committed_lib ..).trans ((postResponse_lib ..).trans (lib _))) i).trans removeEntry_entry
  · have regions := fun e => raise_regions e (removeEntry i (takenState libRemoveSpec s p sl))
    exact (pinning_congr ((committed_regions ..).trans ((postResponse_regions ..).trans (regions _)))).trans
      pinning_removeEntry

theorem libQuery_gives {i : Nat} (granted : Granted libQuerySpec s p sl) (index : (s.req p sl).arg 8 2 = i)
    (held : i < s.lib.capacity) :
    Gives (.libQuery p sl) s (fun t => t.lib = s.lib ∧ Answered s t p sl stOk
      (descriptor i s ++ [(80, 2, s.lib.capacity),
        (82, 2, s.lib.entries.countP (fun e => decide (e.2.st = entryReady))), (84, 8, s.lib.base)])) := by
  have body := libQuerySpec_held (q := takenReq s p sl) (s := takenState libQuerySpec s p sl) (by simpa using index)
    (by simpa using held)
  rw [descriptor_takenState, takenState_lib] at body
  exact gives_done granted body rfl ⟨by simp, answered_committed rfl (by simp)⟩

/-- The copy of the directory is read at once while its device is not being programmed. -/
theorem flashDirRead_gives {st : Nat} {res : Results} (granted : Granted flashDirReadSpec s p sl)
    (copy : (s.req p sl).argByte 8 = 1) (first : (s.req p sl).argByte 9 < 63) (idle : s.lib.jobs = [])
    (read : ∀ w u, u.lib = s.lib → readDir w 1 ((s.req p sl).argByte 9) u = reply w st res u) :
    Gives (.flashDirRead p sl) s (fun t => t.lib = s.lib ∧ Answered s t p sl st res) := by
  have body := flashDirReadSpec_legal (q := takenReq s p sl) (s := takenState flashDirReadSpec s p sl)
    (by simpa using copy) (by simpa using first)
  rw [addRead_idle (by simpa using idle) _ (.inr ⟨_, _, rfl⟩), takenReq_argByte] at body
  exact gives_reply granted (body.trans (congrArg (·, Answer.wait) (read _ _ (by simp))))

theorem flashDirRead_waits {k : Nat} (granted : Granted flashDirReadSpec s p sl) (copy : (s.req p sl).argByte 8 = 1)
    (hfirst : (s.req p sl).argByte 9 = k) (first : k < 63) (busy : flashBusy s 0 = true) :
    Gives (.flashDirRead p sl) s
      (fun t => ∃ w, { use := FlashUse.dirRead 1 k, waiter := some w } ∈ t.lib.jobs) := by
  subst hfirst
  have body := flashDirReadSpec_legal (q := takenReq s p sl) (s := takenState flashDirReadSpec s p sl)
    (by simpa using copy) (by simpa using first)
  rw [takenReq_argByte] at body
  have busy' : flashBusy (takenState flashDirReadSpec s p sl) 0 = true := by simpa [flashBusy] using busy
  refine gives_wait granted body ⟨(takenReq s p sl).waiter, ?_⟩
  rw [committed_lib]
  exact mem_addRead_busy _ (flashBusy_append busy')

theorem loadActive_gives {r pl i : Nat} (target : (s.req p sl).target = r) (granted : Granted loadActiveSpec s p sl)
    (hplane : (s.req p sl).argByte 8 = pl) (index : (s.req p sl).arg 10 2 = i) (below : pl < 4)
    (active : pl = (s.region r).active) (power : (s.region r).power = .active) (held : i < s.lib.capacity)
    (ready : (s.entry i).st = entryReady) (fits : (s.entry i).fits r = true) (whole : (s.region r).retired = false)
    (idle : (s.region r).fill = none) (slice : (s.region r).slice = none) (still : (s.region r).trans = none) :
    Gives (.loadActive p sl) s (fun t => Waits t p sl ∧ IsoCause.load ∈ (t.region r).iso ∧
      (t.region r).clockOn = false ∧ (t.region r).loadingActive = true) := by
  subst target hplane index
  have body := loadActiveSpec_begins (q := takenReq s p sl) (s := takenState loadActiveSpec s p sl)
    (by simpa using below) (by simpa using active) (by simpa using power) (by simpa using held)
    (by simpa using ready) (by simpa using fits) (by simpa using whole) (by simpa using idle)
    (by simpa using slice) (by simpa using still)
  have region := beginLoadActive_region (q := takenReq s p sl) (s := takenState loadActiveSpec s p sl)
    (by simp [power])
  rw [takenReq_target] at region
  refine gives_wait granted (body.trans (Prod.ext rfl rfl))
    ⟨waits_committed (beginLoadActive_slot ..), ?_⟩
  rwa [committed_region]

end

/-- Settles O12: a command that passes its checks, by what it puts into the library, the queue or its answer; the ends,
by what the copy gives and by what the Ladle leaves. -/
theorem libraryCommandsComplete : Obligations.LibraryCommandsComplete := by
  intro s p sl r target
  refine ⟨fun granted device => libLoad_gives granted (target.trans device), fun i => libRemove_gives,
    fun i => libQuery_gives, fun granted copy first idle bad => ?_, fun bs granted copy first idle good => ?_,
    fun k => flashDirRead_waits, fun pl i => loadActive_gives target, ?_, ?_, ?_⟩
  · refine flashDirRead_gives granted copy first idle fun w u lib => ?_
    simp [readDir, lib, bad]
  · refine flashDirRead_gives granted copy first idle fun w u lib => ?_
    simp [readDir, lib, good]
  · intro q f awake fill active power still wait
    have gives {P : State → Prop} (h : P (committed s (endLoadActive q.val f s))) :
        Gives (.loadActiveComplete q) s P := by
      unfold Gives
      simp only [exec, execLoadActiveComplete, fill]
      exact gives_occurs (by simp [awake, active, power, still, Power.low]) h
    refine ⟨fun a c copy => gives ?_, fun frames n copy => gives ?_⟩
    · rw [committed_region]
      exact endLoadActive_failed power wait (Prod.ext rfl copy)
    · rw [committed_region]
      exact endLoadActive_ok power wait (Prod.ext rfl copy)
  · intro x rest awake front plain hold
    exact imageProcessingEnd_gives awake front (by simp [plain]) (.inr hold)
  · intro x awake front free
    exact imageProcessingEnd_gives awake front free (.inl rfl)

end Sys2Proof.Machine

/-! Block memories and Ingot banks (chapter 8, O13). The rules of the words come first; then an edge of a port by what the
port takes, port B's waiting maintenance accesses with their count and their reads (R203), and the commands. -/

namespace Sys2Proof.Machine

/-! ### Words of a block memory (R195, R200, R201) -/

section
variable (b : Bram) (w : Nat) (v : BitVec 80)

@[simp] theorem word_put_same : (b.put w v).word w = v := tget_tset_same ..

theorem word_put_ne {w' : Nat} (h : w' ≠ w) : (b.put w v).word w' = b.word w' := tget_tset_ne _ _ _ _ _ h

end

@[simp] theorem bramStore_bram (m w : Nat) (d : BitVec 64) (s : State) :
    (bramStore m w d s).bram m = (s.bram m).put w (wordEncode d) := by
  simp [bramStore, noteWrite_bram]

/-- A clean word is read as it is stored, and nothing else comes of it (R201). -/
theorem bramFetch_clean {m w : Nat} {s : State} (who : Nat) (fettler : Bool)
    (clean : wordOut ((s.bram m).word w) = .clean) :
    bramFetch m w who fettler s = (s, wordData ((s.bram m).word w), .clean) := by
  simp [bramFetch, clean, noteRead, correctBits, onlyIf_false]

/-- The data that a window READ delivers depend on the word and on the memory's mode alone. -/
theorem bramWindowRead_result (m w : Nat) {s u : State} (mid : Nat) (mode : s.bramCfg m = u.bramCfg m)
    (word : (s.bram m).word w = (u.bram m).word w) :
    (bramWindowRead m w mid s).2 = (bramWindowRead m w mid u).2 := by
  unfold bramWindowRead
  rw [mode, word]
  split
  · rfl
  · simp [bramFetch, word]

section
variable {β : Type} {π : Bram → β} (h : ∀ b w v, π (b.put w v) = π b) (m w : Nat) (s : State)
include h

/-- A read of a word changes at most that word, by its write-back. -/
theorem bramFetch_keeps (who fettler) : π ((bramFetch m w who fettler s).1.bram m) = π (s.bram m) := by
  simp only [bramFetch]
  rw [onlyIf_shows (π := fun u => u.bram m) (raise_bram ..),
    onlyIf_shows (π := fun u => π (u.bram m)) (by rw [modBram_bram, h]), noteRead_bram]

theorem bramPartial_keeps (who new) : π ((bramPartial m w who new s).1.bram m) = π (s.bram m) := by
  simp only [bramPartial]
  split
  · exact bramFetch_keeps h m w s who false
  · rw [bramStore_bram, h, bramFetch_keeps h]

theorem bramWindowRead_keeps (mid) : π ((bramWindowRead m w mid s).1.bram m) = π (s.bram m) := by
  simp only [bramWindowRead]
  split
  · rfl
  · exact bramFetch_keeps h m w s mid false

end

/-! ### An edge of a port that the fabric has (R198 to R201, R203) -/

/-- What waits for port B, and the edges that it has waited (R202, R203). -/
def Bram.queued (b : Bram) : List WindowJob × Option Nat × Nat := (b.maint, b.scrub, b.starve)

theorem waits_of_queued {b b' : Bram} (h : b.queued = b'.queued) : b.waits = b'.waits := by
  simp only [Bram.queued, Prod.mk.injEq] at h
  simp only [Bram.waits, h]

section
variable (m : Nat) (isA : Bool) (c : BramCfg) (o : PortOp) (s : State)

/-- A change of a port's own records leaves what waits. -/
theorem modBram_queued {f : Bram → Bram} (h : ∀ b, (f b).queued = b.queued) :
    ((modBram m f s).bram m).queued = (s.bram m).queued := by rw [modBram_bram, h]

theorem advancePort_queued : ((advancePort m isA c o s).bram m).queued = (s.bram m).queued :=
  modBram_queued m s fun b => by cases isA <;> rfl
theorem stallPort_queued : ((stallPort m isA c o s).bram m).queued = (s.bram m).queued :=
  modBram_queued m s fun b => by cases isA <;> rfl
theorem raiseWait_queued : ((raiseWait m isA s).bram m).queued = (s.bram m).queued :=
  modBram_queued m s fun b => by cases isA <;> rfl
theorem markBusy_queued : ((markBusy m isA s).bram m).queued = (s.bram m).queued :=
  modBram_queued m s fun b => by cases isA <;> rfl
theorem pushPipe_queued (rd lat v) : ((pushPipe m isA rd lat v s).bram m).queued = (s.bram m).queued :=
  modBram_queued m s fun b => by cases isA <;> rfl

theorem portWrite_queued : ((portWrite m isA c o s).1.bram m).queued = (s.bram m).queued := by
  simp only [portWrite]
  split
  · exact modBram_queued m s fun b => rfl
  · split
    · rw [bramStore_bram]; rfl
    · exact bramPartial_keeps (fun _ _ _ => rfl) ..

theorem portRead_queued : ((portRead m isA c o s).1.bram m).queued = (s.bram m).queued := by
  simp only [portRead]
  split
  · rfl
  · exact bramFetch_keeps (fun _ _ _ => rfl) ..

theorem takeOp_queued (x) : ((takeOp m isA c o x s).bram m).queued = (s.bram m).queued := by
  simp only [takeOp]
  split
  · rw [modBram_queued _ _ fun b => by cases isA <;> rfl, pushPipe_queued]
    split
    · rfl
    · exact portWrite_queued m isA c o s
  · rw [pushPipe_queued, onlyIf_shows (π := fun u => (u.bram m).queued) (congrArg _ (useFree_bram ..)), portRead_queued]

theorem portEdge_queued (x took) : ((portEdge m isA c o x took s).bram m).queued = (s.bram m).queued := by
  unfold portEdge
  dsimp only
  generalize (if isA then (s.bram m).waitA else (s.bram m).waitB) = wait
  cases wait
  case true =>
    rw [if_pos rfl, modBram_queued _ _ fun b => by cases isA <;> rfl, stallPort_queued]
  case false =>
    rw [if_neg Bool.false_ne_true, onlyIf_shows (π := fun u => (u.bram m).queued) (raiseWait_queued ..)]
    split
    · rw [takeOp_queued, advancePort_queued]
    · exact advancePort_queued ..

end

/-- A whole write of a protected word (R200). -/
theorem portWrite_whole {m : Nat} {isA : Bool} {c : BramCfg} {o : PortOp} (s : State) (coded : c.raw = false)
    (width : c.width isA = 64) (whole : o.be = BitVec.allOnes 8) :
    portWrite m isA c o s =
      (bramStore m (c.place isA o.addr).1 (o.di.extractLsb' 0 64) s, {}, false) := by
  simp [portWrite, fullWrite, coded, width, whole]

/-- A port of 64 bits has a word at each address. -/
theorem place_word {c : BramCfg} {isA : Bool} (coded : c.raw = false) (width : c.width isA = 64) (addr : BitVec 15) :
    c.place isA addr = (addr.toNat % 512, 0) := by
  simp [BramCfg.place, BramCfg.perWord, coded, width, Nat.mod_one]

/-- A read of a clean protected word (R201). -/
theorem portRead_clean {m : Nat} {isA : Bool} {c : BramCfg} {o : PortOp} {s : State} (coded : c.raw = false)
    (width : c.width isA = 64) (clean : wordOut ((s.bram m).word (o.addr.toNat % 512)) = .clean) :
    portRead m isA c o s =
      (s, { dout := BitVec.ofNat 80 (wordData ((s.bram m).word (o.addr.toNat % 512))).toNat }) := by
  simp only [portRead, place_word coded width, coded, width, bramFetch_clean _ _ clean]
  simp [Nat.mod_eq_of_lt (wordData _).isLt]

/-- A port that does not wait takes its operation; fold mode then raises its `WAIT` (R199), which is all that it changes. -/
theorem portEdge_takes_keeps {β : Type} {π : Bram → β}
    (h : ∀ b v, π { b with waitA := v } = π b ∧ π { b with waitB := v } = π b) {m : Nat} {isA : Bool} {s : State}
    (free : (if isA then (s.bram m).waitA else (s.bram m).waitB) = false) (c : BramCfg) (o : PortOp) (x : Clash) :
    π ((portEdge m isA c o x true s).bram m) = π ((takeOp m isA c o x (advancePort m isA c o s)).bram m) := by
  unfold portEdge
  simp only [free, Bool.false_eq_true, if_false, if_true]
  refine onlyIf_shows (π := fun u => π (u.bram m)) ?_
  rw [raiseWait, modBram_bram]
  split
  · exact (h _ _).1
  · exact (h _ _).2

/-- A cycle in which port A alone takes a write: nothing collides with it. -/
theorem portOperation_writeA {m : Nat} {c : BramCfg} {o : PortOp} {s : State} (connected : 0 < c.widthA)
    (takes : (s.bram m).takes true o = true) (write : o.we = true) (bFirst : Bool) :
    portOperation m c (some o) none bFirst s = portEdge m true c o {} true s := by
  have opA : (some o).filter (fun o => (s.bram m).takes true o && decide (0 < c.widthA)) = some o := by
    simp [takes, connected]
  unfold portOperation
  simp only [opA, Option.filter_none]
  cases (s.bram m).half <;> cases (s.bram m).maint <;> simp [clashRmw, write, onlyIf_false]

/-- How port B's operation meets the second cycle of port A's partial write, and the mark that port A then gets (R205). -/
def clashB (m : Nat) (c : BramCfg) (o : PortOp) (s : State) : Clash × Bool :=
  if ((s.bram m).takes false o && decide (0 < c.widthB)) = true then clashRmw c false o (s.bram m).rmwA else ({}, false)

/-- A cycle in which port B alone has an edge, and the fabric has the port. -/
theorem portOperation_fabricB {m : Nat} {o : PortOp} {s : State} (fabric : (s.bram m).maintains o = false) (c : BramCfg)
    (bFirst : Bool) :
    portOperation m c none (some o) bFirst s =
      (portEdgeB m c o { undef := (clashB m c o s).1.undef, busy := (clashB m c o s).1.busy }
        ((s.bram m).takes false o && decide (0 < c.widthB)) none
        (onlyIf (clashB m c o s).2 (markBusy m true) s)).1 := by
  have opB : (some o).filter (fun o => (s.bram m).takes false o && !(s.bram m).maintains o && decide (0 < c.widthB)) =
      if ((s.bram m).takes false o && decide (0 < c.widthB)) = true then some o else none := by
    simp [Option.filter, fabric]
  unfold portOperation clashB
  simp only [opB]
  cases (s.bram m).takes false o && decide (0 < c.widthB) <;> simp [fabric, onlyIf_false]

section
variable {m : Nat} {c : BramCfg} {o : PortOp} {s : State}

/-- Port A takes a whole write: its word, and no other (R198, R200). -/
theorem portEdge_writeA_words (coded : c.raw = false) (width : c.widthA = 64)
    (free : (s.bram m).waitA = false) (write : o.we = true) (whole : o.be = BitVec.allOnes 8) :
    ((portEdge m true c o {} true s).bram m).words =
      ((s.bram m).put (o.addr.toNat % 512) (wordEncode (o.di.extractLsb' 0 64))).words := by
  rw [portEdge_takes_keeps (π := Bram.words) (fun _ _ => ⟨rfl, rfl⟩) (by simpa using free)]
  simp [takeOp, write, portWrite_whole (isA := true) _ coded width whole, place_word (isA := true) coded width,
    pushPipe, advancePort, Bram.put]

/-- Port B takes a read of a clean word: its data go into flight (R198, R201). -/
theorem portEdge_readB (coded : c.raw = false) (width : c.widthB = 64) (free : (s.bram m).waitB = false)
    (read : o.we = false) (clean : wordOut ((s.bram m).word (o.addr.toNat % 512)) = .clean) :
    let b := (portEdge m false c o {} true s).bram m
    b.words = (s.bram m).words ∧ ∃ l, b.pipeB = l ++ [(2, true,
      { dout := BitVec.ofNat 80 (wordData ((s.bram m).word (o.addr.toNat % 512))).toNat })] := by
  have word : ((advancePort m false c o s).bram m).word = (s.bram m).word := by
    funext w
    simp [advancePort, Bram.word]
  have taken := portRead_clean (isA := false) (s := advancePort m false c o s) coded width (by rwa [word])
  rw [word] at taken
  dsimp only
  rw [portEdge_takes_keeps (π := Bram.words) (fun _ _ => ⟨rfl, rfl⟩) (by simpa using free),
    portEdge_takes_keeps (π := Bram.pipeB) (fun _ _ => ⟨rfl, rfl⟩) (by simpa using free)]
  simp only [takeOp, read, Bool.false_eq_true, if_false, taken, onlyIf_false]
  refine ⟨by simp [pushPipe, advancePort], ((advancePort m false c o s).bram m).pipeB, ?_⟩
  simp [pushPipe, BramCfg.latency, coded]

/-- Once the fabric has taken 64 edges in a row, port B is the maintenance accesses' (R203). -/
theorem countStarve_reached (presents : o.en = true) (waits : (s.bram m).waits = true) (count : 63 ≤ (s.bram m).starve) :
    ((countStarve m o s).bram m).keepB = true ∧ ((countStarve m o s).bram m).waitB = true := by
  simp [countStarve, presents, waits, count]

theorem portEdgeB_fabric (fabric : (s.bram m).maintains o = false) (x : Clash) (took : Bool) (a : Beside) :
    (portEdgeB m c o x took a s).1 = countStarve m o (portEdge m false c o x took s) := by
  simp [portEdgeB, fabric]

theorem markBusyA_maintains : ((markBusy m true s).bram m).maintains o = (s.bram m).maintains o := by
  simp [markBusy, Bram.maintains, Bram.waits]

end

section
variable {s : State} {m : Fin 16384} {c : BramCfg} {o : PortOp} {f : Bool}

theorem bramPortOperation_gives {a b : Option PortOp} {P : State → Prop} (running : runningCfg s m.val = some c)
    (pinsA : presented s m.val true a = true) (pinsB : presented s m.val false b = true)
    (h : P (committed s (portOperation m.val c (clockedA s m.val a) b f s))) :
    Gives (.bramPortOperation m a b f) s P := by
  show ∃ t, execBramPortOperation m a b f s = .next t ∧ P t
  unfold execBramPortOperation
  rw [running]
  exact gives_occurs (by simp [pinsA, pinsB]) h

theorem bramPortOperation_writes (running : runningCfg s m.val = some c) (coded : c.raw = false)
    (width : c.widthA = 64) (free : (s.bram m.val).waitA = false) (enabled : o.en = true) (write : o.we = true)
    (whole : o.be = BitVec.allOnes 8) (pins : presented s m.val true (some o) = true)
    (clocked : clockedA s m.val (some o) = some o) :
    Gives (.bramPortOperation m (some o) none f) s (fun t =>
      (t.bram m.val).word (o.addr.toNat % 512) = wordEncode (o.di.extractLsb' 0 64) ∧
      (∀ w, w ≠ o.addr.toNat % 512 → (t.bram m.val).word w = (s.bram m.val).word w) ∧
      ∀ k, k ≠ m.val → t.bram k = s.bram k) := by
  refine bramPortOperation_gives running pins rfl ?_
  rw [clocked, portOperation_writeA (by simp [width]) (by simp [Bram.takes, enabled, free]) write]
  have word (w : Nat) := congrArg (fun t => tget 0 t w)
    (portEdge_writeA_words (c := c) (s := s) coded width free write whole)
  simp only [committed_bram]
  exact ⟨(word _).trans (word_put_same ..), fun w other => (word w).trans (word_put_ne _ _ _ other),
    fun k other => portEdge_bram_ne other ..⟩

/-- An edge of port B that the fabric has, port A having none. -/
theorem bramPortOperation_givesB {P : State → Prop} (running : runningCfg s m.val = some c)
    (pins : presented s m.val false (some o) = true) (fabric : (s.bram m.val).maintains o = false)
    (h : P (committed s (countStarve m.val o (portEdge m.val false c o
      { undef := (clashB m.val c o s).1.undef, busy := (clashB m.val c o s).1.busy }
      ((s.bram m.val).takes false o && decide (0 < c.widthB))
      (onlyIf (clashB m.val c o s).2 (markBusy m.val true) s))))) :
    Gives (.bramPortOperation m none (some o) f) s P := by
  refine bramPortOperation_gives running rfl pins ?_
  have noneA : clockedA s m.val none = none := by simp [clockedA]
  rw [noneA, portOperation_fabricB fabric, portEdgeB_fabric]
  · exact h
  · rwa [onlyIf_shows (π := fun u => (u.bram m.val).maintains o) markBusyA_maintains]

theorem bramPortOperation_reads (running : runningCfg s m.val = some c) (coded : c.raw = false)
    (width : c.widthB = 64) (free : (s.bram m.val).waitB = false) (enabled : o.en = true) (read : o.we = false)
    (alone : (s.bram m.val).rmwA = none) (pins : presented s m.val false (some o) = true)
    (fabric : (s.bram m.val).maintains o = false) (clean : wordOut ((s.bram m.val).word (o.addr.toNat % 512)) = .clean) :
    Gives (.bramPortOperation m none (some o) f) s (fun t => (t.bram m.val).words = (s.bram m.val).words ∧
      ∃ l, (t.bram m.val).pipeB = l ++ [(2, true,
        { dout := BitVec.ofNat 80 (wordData ((s.bram m.val).word (o.addr.toNat % 512))).toNat })]) := by
  refine bramPortOperation_givesB running pins fabric ?_
  have clash : clashB m.val c o s = ({}, false) := by simp [clashB, clashRmw, alone]
  have takes : ((s.bram m.val).takes false o && decide (0 < c.widthB)) = true := by
    simp [Bram.takes, enabled, free, width]
  rw [clash, takes, onlyIf_false]
  simpa [countStarve] using portEdge_readB coded width free read clean

/-- The 64th edge in a row that the fabric takes hands port B to the maintenance accesses (R203). -/
theorem bramPortOperation_handsOver (running : (runningCfg s m.val).isSome = true) (waits : (s.bram m.val).waits = true)
    (enabled : o.en = true) (pins : presented s m.val false (some o) = true)
    (fabric : (s.bram m.val).maintains o = false) (count : 63 ≤ (s.bram m.val).starve) :
    Gives (.bramPortOperation m none (some o) f) s (fun t => (t.bram m.val).keepB = true ∧
      (t.bram m.val).waitB = true) := by
  obtain ⟨c, running⟩ := Option.isSome_iff_exists.mp running
  refine bramPortOperation_givesB running pins fabric ?_
  simp only [committed_bram]
  have queued (x : Clash) (took mark : Bool) : ((portEdge m.val false c o x took
      (onlyIf mark (markBusy m.val true) s)).bram m.val).queued = (s.bram m.val).queued :=
    (portEdge_queued ..).trans (onlyIf_shows (π := fun u => (u.bram m.val).queued) (markBusy_queued ..))
  refine countStarve_reached enabled ((waits_of_queued (queued ..)).trans waits) (count.trans_eq ?_)
  exact congrArg (fun q => q.2.2) (queued ..).symm

end

/-! ### An edge of port B that the maintenance accesses have (R202, R203) -/

section
variable {m line w : Nat} {j : WindowJob} {s : State} {wr : Option (BitVec 64 × BitVec 8)}
  {more : List (Nat × Nat × Option (BitVec 64 × BitVec 8))}

/-- Port B stays with the line whose next operation this is. -/
def sameLine (line : Nat) (more : List (Nat × Nat × Option (BitVec 64 × BitVec 8))) : Bool :=
  match more with
  | (l, _, _) :: _ => l == line
  | [] => false

/-- The end of a window's operation: the next one is at the front, or the next access. -/
theorem endWindowOp_bram (ops : j.ops = (line, w, wr) :: more) (got : BitVec 64 × Bool) :
    (endWindowOp m j got s).bram m = { s.bram m with
      maint := if more.isEmpty then (s.bram m).maint.drop 1
        else { j with ops := more, got := j.got ++ [got] } :: (s.bram m).maint.drop 1
      keepB := (s.bram m).keepB && sameLine line more } := by
  simp only [endWindowOp, ops]
  rw [onlyIf_shows (π := (State.bram · m)) (answerOutst_bram ..), modBram_bram]
  rfl

/-- A read by the window, port A having no edge. -/
theorem windowOp_read (ops : j.ops = (line, w, none) :: more) (alone : (s.bram m).rmwA = none) :
    windowOp m none j s =
      (endWindowOp m j (bramWindowRead m w j.mid s).2 (bramWindowRead m w j.mid s).1, false) := by
  simp [windowOp, ops, alone, Beside.writes, Beside.reads]

/-- Port B at the beginning of an edge that the maintenance accesses have. -/
def beginMaint (m : Nat) (s : State) : State := modBram m (fun b => { b with waitB := false, starve := 0 }) s

@[simp] theorem beginMaint_bram (m : Nat) (s : State) :
    (beginMaint m s).bram m = { s.bram m with waitB := false, starve := 0 } := by
  simp [beginMaint]

/-- An edge of port B at which the window reads a word, port A having none. -/
theorem maintEdge_read {rest : List WindowJob} (unsplit : (s.bram m).half = none) (front : (s.bram m).maint = j :: rest)
    (ops : j.ops = (line, w, none) :: more) (alone : (s.bram m).rmwA = none) :
    (maintEdge m none s).1 = settleWaitB m
      (endWindowOp m j (bramWindowRead m w j.mid s).2 (bramWindowRead m w j.mid (beginMaint m s)).1) := by
  have read : (bramWindowRead m w j.mid (beginMaint m s)).2 = (bramWindowRead m w j.mid s).2 :=
    bramWindowRead_result m w _ rfl (by simp [Bram.word])
  have op : maintOp m none (beginMaint m s) = windowOp m none j (beginMaint m s) := by simp [maintOp, front]
  unfold maintEdge
  dsimp only
  rw [← beginMaint, if_neg (by simp [unsplit]), op, windowOp_read ops (by simpa using alone), read]

/-- After the window's read: port B has waited no edge, and the next operation or access is at the front. -/
theorem endWindowOp_read_bram {rest : List WindowJob} (front : (s.bram m).maint = j :: rest)
    (ops : j.ops = (line, w, none) :: more) (got : BitVec 64 × Bool) :
    let b := (endWindowOp m j got (bramWindowRead m w j.mid (beginMaint m s)).1).bram m
    b.starve = 0 ∧ b.keepB = ((s.bram m).keepB && sameLine line more) ∧
      b.maint = if more.isEmpty then rest else { j with ops := more, got := j.got ++ [got] } :: rest := by
  have kept {β : Type} (π : Bram → β) (h : ∀ b w v, π (b.put w v) = π b) :
      π ((bramWindowRead m w j.mid (beginMaint m s)).1.bram m) = π { s.bram m with waitB := false, starve := 0 } := by
    rw [bramWindowRead_keeps h, beginMaint_bram]
  rw [endWindowOp_bram ops, kept Bram.keepB fun _ _ _ => rfl, kept Bram.maint fun _ _ _ => rfl, front]
  exact ⟨kept Bram.starve fun _ _ _ => rfl, rfl, rfl⟩

/-- `WAIT` of port B is high while an access that keeps it waits. -/
theorem settleWaitB_waits (keep : (s.bram m).keepB = true) (waits : (s.bram m).waits = true) :
    ((settleWaitB m s).bram m).waitB = true := by
  simp [settleWaitB, keep, waits]

theorem settleWaitB_keeps {β : Type} {π : Bram → β} (h : ∀ b v, π { b with waitB := v } = π b) (m : Nat) (s : State) :
    π ((settleWaitB m s).bram m) = π (s.bram m) := by
  rw [settleWaitB, modBram_bram, h]

theorem maintenanceSteal_reads {m : Fin 16384} {rest : List WindowJob} (running : (runningCfg s m.val).isSome = true)
    (held : (s.bram m.val).keepB = true) (unsplit : (s.bram m.val).half = none)
    (front : (s.bram m.val).maint = j :: rest) (ops : j.ops = (line, w, none) :: more)
    (alone : (s.bram m.val).rmwA = none) :
    Gives (.maintenanceSteal m) s (fun t => (t.bram m.val).starve = 0 ∧
      (t.bram m.val).maint = (if more.isEmpty then rest
        else { j with ops := more, got := j.got ++ [(bramWindowRead m.val w j.mid s).2] } :: rest) ∧
      (∀ x y, more = x :: y → x.1 = line → (t.bram m.val).waitB = true ∧ (t.bram m.val).keepB = true)) := by
  show ∃ t, execMaintenanceSteal m s = .next t ∧ _
  refine gives_occurs (by simp [running, held, unsplit, Bram.waits, front]) ?_
  obtain ⟨starve, keep, maint⟩ := endWindowOp_read_bram front ops (bramWindowRead m.val w j.mid s).2
  rw [maintEdge_read unsplit front ops alone]
  simp only [committed_bram, settleWaitB_keeps (π := Bram.starve) fun _ _ => rfl,
    settleWaitB_keeps (π := Bram.maint) fun _ _ => rfl, settleWaitB_keeps (π := Bram.keepB) fun _ _ => rfl]
  refine ⟨starve, maint, ?_⟩
  rintro x y rfl same
  have stays : sameLine line (x :: y) = true := by simp [sameLine, same]
  rw [held, stays, Bool.and_self] at keep
  exact ⟨settleWaitB_waits keep (by simp [Bram.waits, maint]), keep⟩

end

/-! ### `BRAM_CLEAR` (R213, Table 8.10) -/

@[simp] theorem clearBram_regions (m : Nat) (s : State) : (clearBram m s).regions = s.regions :=
  (same_clearBram (part := .regions) (by decide) m).mpr rfl

/-- A memory of zero words without injected marks. -/
def Bram.Cleared (b : Bram) : Prop := b.words = [] ∧ b.injected = []

theorem clearBram_bram (m : Nat) (s : State) :
    (clearBram m s).bram m = { s.bram m with words := [], injected := [] } := by
  unfold clearBram
  rw [bram_congr ((same_noteCleared (part := .brams) (by decide) ..).mpr rfl), modBram_bram]

theorem clearBram_bram_ne {m k : Nat} (h : k ≠ m) (s : State) : (clearBram m s).bram k = s.bram k := by
  unfold clearBram
  rw [bram_congr ((same_noteCleared (part := .brams) (by decide) ..).mpr rfl), modBram_bram_ne _ _ _ _ h]

/-- A cleared memory stays so when another is cleared, or itself again. -/
theorem cleared_clearBram {m k : Nat} {s : State} (h : (s.bram k).Cleared) : ((clearBram m s).bram k).Cleared := by
  by_cases same : k = m
  · rw [same, clearBram_bram]
    exact ⟨rfl, rfl⟩
  · rwa [clearBram_bram_ne same]

theorem forEach_clearBram {r k : Nat} {ms : List Nat} (h : k ∈ ms) (s : State) :
    ((forEach ms (fun m => clearBram (256 * r + m)) s).bram (256 * r + k)).Cleared :=
  forEach_establishes (P := fun u => (u.bram (256 * r + k)).Cleared)
    (fun u => by rw [clearBram_bram]; exact ⟨rfl, rfl⟩) (fun _ _ => cleared_clearBram) h s

theorem bramClearComplete_clears {s : State} {r : Fin 64} {ms : List Nat} {w : Waiter} {rest : List (List Nat × Waiter)}
    (awake : s.awake = true) (front : (s.region r.val).clearing = (ms, w) :: rest)
    (power : (s.region r.val).power.low = false) :
    Gives (.bramClearComplete r) s (fun t => (t.region r.val).clearing = rest ∧
      ∀ k ∈ ms, (t.bram (256 * r.val + k)).words = [] ∧ (t.bram (256 * r.val + k)).injected = []) := by
  show ∃ t, execBramClearComplete r s = .next t ∧ _
  simp only [execBramClearComplete, front]
  refine gives_occurs (by simp [awake, power]) ⟨?_, fun k listed => ?_⟩
  · have regions : (committed s (clearDone r.val ms w s)).regions =
        (modRegion r.val (fun x => { x with clearing := x.clearing.drop 1 }) s).regions := by
      simp [clearDone]
    rw [region_congr regions]
    simp [front]
  · simp only [clearDone, committed_bram, reply_bram]
    exact forEach_clearBram listed _

section
variable {s : State} {p : Port} {sl : Fin 4}

theorem bramClearSpec_one {q : Req} (one : q.arg 8 2 < 256) (calm : (s.region q.target).quiescing = false)
    (steady : (s.region q.target).dragReset = false) (power : (s.region q.target).power.low = false) :
    bramClearSpec.body q s =
      (modRegion q.target (fun x => { x with clearing := x.clearing ++ [([q.arg 8 2], q.waiter)] }) s, .wait) := by
  have memory : q.arg 8 2 ≠ 0xFFFF := by omega
  simp [bramClearSpec, one, calm, steady, power, memory]

theorem bramClear_waits (granted : Granted bramClearSpec s p sl) (one : (s.req p sl).arg 8 2 < 256)
    (calm : (s.region (s.req p sl).target).quiescing = false)
    (steady : (s.region (s.req p sl).target).dragReset = false)
    (power : (s.region (s.req p sl).target).power.low = false) :
    Gives (.bramClear p sl) s (fun t => Waits t p sl ∧ ∃ w, (t.region (s.req p sl).target).clearing =
      (s.region (s.req p sl).target).clearing ++ [([(s.req p sl).arg 8 2], w)]) := by
  have body := bramClearSpec_one (q := takenReq s p sl) (s := takenState bramClearSpec s p sl) (by simpa using one)
    (by simpa using calm) (by simpa using steady) (by simpa using power)
  exact gives_wait granted body ⟨waits_committed rfl, _, by simp; rfl⟩

/-! ### The commands of the Ingot banks (R210, R212, Tables 8.8 and 8.9) -/

/-- Counters of an INGOT_CONFLICTS response. -/
def conflictResults (first n : Nat) (s : State) : Results :=
  (List.range n).map (fun i => (16 + 4 * i, 4, tget 0 s.ingot.conflicts (first + i)))

/-- The counters with `n` of them from `first` on cleared. -/
def zeroed (first n : Nat) (t : Table Nat) : Table Nat := (List.range n).foldl (fun t i => tset 0 t (first + i) 0) t

theorem tget_zeroed_of_mem {first n i : Nat} (h : i < n) (t : Table Nat) : tget 0 (zeroed first n t) (first + i) = 0 := by
  refine foldl_establishes (P := fun t => tget 0 t (first + i) = 0) (List.mem_range.mpr h) (fun t => tget_tset_same ..)
    (fun t zero j _ => ?_) t
  by_cases same : i = j
  · rw [same, tget_tset_same]
  · rw [tget_tset_ne _ _ _ _ _ (by omega), zero]

theorem tget_zeroed_of_not_mem {first n k : Nat} (h : k < first ∨ first + n ≤ k) (t : Table Nat) :
    tget 0 (zeroed first n t) k = tget 0 t k :=
  List.foldlRecOn (motive := fun u => tget 0 u k = tget 0 t k) (List.range n) _ rfl fun u kept i listed => by
    have := List.mem_range.mp listed
    rw [tget_tset_ne _ _ _ _ _ (by omega), kept]

/-- Counters that there are, to be read or cleared (Table 8.8). -/
theorem ingotConflictsSpec_legal {q : Req} (any : 1 ≤ q.argByte 9) (few : q.argByte 9 ≤ 56)
    (inside : q.argByte 8 + q.argByte 9 ≤ 96) (mode : q.argByte 10 < 2) :
    ingotConflictsSpec.body q s =
      let res := conflictResults (q.argByte 8) (q.argByte 9) s
      if q.argByte 10 = 0 then (s, .done stOk res)
      else if mb01 q = false then (s, .done stDenied res)
      else (modIngot (fun g => { g with conflicts := zeroed (q.argByte 8) (q.argByte 9) g.conflicts }) s,
        .done stOk res) :=
  if_neg (by omega)

theorem ingotConflicts_reads {first n : Nat} (granted : Granted ingotConflictsSpec s p sl)
    (hfirst : (s.req p sl).argByte 8 = first) (hn : (s.req p sl).argByte 9 = n) (any : 1 ≤ n) (few : n ≤ 56)
    (inside : first + n ≤ 96) (read : (s.req p sl).argByte 10 = 0) :
    Gives (.ingotConflicts p sl) s (fun t => t.ingot = s.ingot ∧ Answered s t p sl stOk
      ((List.range n).map (fun i => (16 + 4 * i, 4, tget 0 s.ingot.conflicts (first + i))))) := by
  subst hfirst hn
  have body := ingotConflictsSpec_legal (q := takenReq s p sl) (s := takenState ingotConflictsSpec s p sl)
    (by simpa using any) (by simpa using few) (by simpa using inside) (by simp [read])
  simp only [takenReq_argByte, read, if_true, conflictResults, takenState_ingot] at body
  exact gives_done granted body rfl ⟨by simp, answered_committed rfl (by simp)⟩

theorem ingotConflicts_clears {first n : Nat} (granted : Granted ingotConflictsSpec s p sl)
    (hfirst : (s.req p sl).argByte 8 = first) (hn : (s.req p sl).argByte 9 = n) (any : 1 ≤ n) (few : n ≤ 56)
    (inside : first + n ≤ 96) (clear : (s.req p sl).argByte 10 = 1) (port : p = .mb0 ∨ p = .mb1) :
    Gives (.ingotConflicts p sl) s (fun t => (∀ i < n, tget 0 t.ingot.conflicts (first + i) = 0) ∧
      ∀ k, (k < first ∨ first + n ≤ k) → tget 0 t.ingot.conflicts k = tget 0 s.ingot.conflicts k) := by
  subst hfirst hn
  have body := ingotConflictsSpec_legal (q := takenReq s p sl) (s := takenState ingotConflictsSpec s p sl)
    (by simpa using any) (by simpa using few) (by simpa using inside) (by simp [clear])
  have allowed : mb01 (takenReq s p sl) = true := by rcases port with rfl | rfl <;> rfl
  simp only [takenReq_argByte, clear, one_ne_zero, if_false, allowed, Bool.true_eq_false] at body
  refine gives_done granted body rfl ⟨fun i below => ?_, fun k outside => ?_⟩
  · simpa using tget_zeroed_of_mem below _
  · simpa using tget_zeroed_of_not_mem outside _

theorem ingotBanksSpec_query {q : Req} (query : q.queryFlag = true) :
    ingotBanksSpec.body q s = (s, .done stOk (ingotResults s)) := by
  simp [ingotBanksSpec, query]

theorem ingotBanksSpec_retires {q : Req} (change : q.queryFlag = false) (retire : q.argByte 8 = 1)
    (below : q.argByte 9 < 64) (others : s.activeBanks.length ≠ 1)
    (inService : s.ingot.retired.contains (q.argByte 9) = false) (idle : s.ingot.change = none) :
    ingotBanksSpec.body q s =
      (modIngot (fun g => { g with change := some (true, q.argByte 9, q.waiter) }) s, .wait) := by
  have out : q.argByte 9 ∉ s.ingot.retired := by simpa using inService
  simp [ingotBanksSpec, change, retire, others, out, idle, below]

theorem ingotBanks_reports (granted : Granted ingotBanksSpec s p sl) (query : (s.req p sl).queryFlag = true) :
    Gives (.ingotBanks p sl) s (fun t => Answered s t p sl stOk (ingotResults s) ∧ t.ingot = s.ingot) := by
  have results : ingotResults (takenState ingotBanksSpec s p sl) = ingotResults s := by
    simp [ingotResults, State.activeBanks]
  have body := ingotBanksSpec_query (q := takenReq s p sl) (s := takenState ingotBanksSpec s p sl) (by simpa using query)
  rw [results] at body
  exact gives_done granted body rfl ⟨answered_committed rfl (by simp), by simp⟩

theorem ingotBanks_retires {b : Nat} (granted : Granted ingotBanksSpec s p sl) (change : (s.req p sl).queryFlag = false)
    (retire : (s.req p sl).argByte 8 = 1) (bank : (s.req p sl).argByte 9 = b) (below : b < 64)
    (others : s.activeBanks.length ≠ 1) (inService : s.ingot.retired.contains b = false) (idle : s.ingot.change = none) :
    Gives (.ingotBanks p sl) s (fun t => Waits t p sl ∧ t.ingot.retired = s.ingot.retired ∧
      ∃ w, t.ingot.change = some (true, b, w)) := by
  subst bank
  have body := ingotBanksSpec_retires (q := takenReq s p sl) (s := takenState ingotBanksSpec s p sl)
    (by simpa using change) (by simpa using retire) (by simpa using below) (by simpa [State.activeBanks] using others)
    (by simpa using inService) (by simpa using idle)
  exact gives_wait granted body ⟨waits_committed rfl, by simp, _, by simp; rfl⟩

end

/-- Settles O13: an edge of a port by what the port takes, a maintenance access or a clear by what it leaves in the memory,
the Ingot commands by their own parts once the arguments hold. -/
theorem memoriesComplete : Obligations.MemoriesComplete :=
  ⟨fun _ _ => ⟨fun _ _ _ => bramPortOperation_writes, fun _ _ _ => bramPortOperation_reads,
      fun _ _ => bramPortOperation_handsOver, fun _ _ _ _ _ => maintenanceSteal_reads, fun _ _ => bramClear_waits,
      fun _ _ _ _ => bramClearComplete_clears⟩,
    fun _ _ _ => ⟨fun _ _ => ingotConflicts_reads, fun _ _ => ingotConflicts_clears, ingotBanks_reports,
      fun _ => ingotBanks_retires⟩⟩

end Sys2Proof.Machine

/-! Bundles of an engine (chapter 9, O14 to O16). A bundle that finds its engine free of anything else due issues alone: what
it does by itself, the next address and one cycle are all that becomes of the engine. Each operation then says its part. -/

namespace Sys2Proof.Machine

/-! ### Results that land (R231) -/

/-- Landing writes data registers, visible accumulators and `OVG`, and nothing else. -/
theorem land1_keeps {β : Type} {π : Engine → β}
    (h : ∀ e bad d acc stat, π { e with parityBad := bad, d := d, accVis := acc, stat := stat } = π e) (e : Engine)
    (x : Landing) : π (e.land1 x) = π e := by
  cases x
  all_goals exact h e _ _ _ _

theorem advance_keeps {β : Type} {π : Engine → β}
    (h : ∀ e bad d acc stat, π { e with parityBad := bad, d := d, accVis := acc, stat := stat } = π e)
    (landing : ∀ e l, π { e with landing := l } = π e) (e : Engine) : π e.advance = π e := by
  unfold Engine.advance
  exact (landing _ _).trans (foldl_keeps π (fun e (x : Nat × Landing) => land1_keeps h e x.2) _ e)

theorem landAll_keeps {β : Type} {π : Engine → β}
    (h : ∀ e bad d acc stat, π { e with parityBad := bad, d := d, accVis := acc, stat := stat } = π e)
    (landing : ∀ e l, π { e with landing := l } = π e) (e : Engine) : π e.landAll = π e := by
  unfold Engine.landAll
  exact (landing _ _).trans (foldl_keeps π (fun e (x : Nat × Landing) => land1_keeps h e x.2) _ e)

/-- What the data registers then hold depends on what they held and on the results alone. -/
theorem landed_d (l : List (Nat × Landing)) {e e' : Engine} (h : e.d = e'.d) :
    (l.foldl (fun e x => e.land1 x.2) e).d = (l.foldl (fun e x => e.land1 x.2) e').d := by
  induction l generalizing e e' with
  | nil => exact h
  | cons x l ih =>
    obtain ⟨k, r⟩ := x
    refine ih ?_
    cases r
    case dreg n v => exact congrArg (lput 0 · n v) h
    all_goals exact h

theorem advance_d {e e' : Engine} (d : e.d = e'.d) (landing : e.landing = e'.landing) : e.advance.d = e'.advance.d := by
  unfold Engine.advance
  rw [landing]
  exact landed_d _ d

theorem landAll_d {e e' : Engine} (d : e.d = e'.d) (landing : e.landing = e'.landing) : e.landAll.d = e'.landAll.d := by
  unfold Engine.landAll
  rw [landing]
  exact landed_d _ d

section
variable (s : State) (id : Nat)

/-- What neither the edges of the interrupt sources nor the results that land touch is as it was. -/
theorem finds_keeps {β : Type} {π : Engine → β}
    (h : ∀ e bad d acc stat, π { e with parityBad := bad, d := d, accVis := acc, stat := stat } = π e := by intros; rfl)
    (landing : ∀ e l, π { e with landing := l } = π e := by intros; rfl)
    (sources : ∀ e pend ticks slots, π { e with ipend := pend, tickSeen := ticks, slotSeen := slots } = π e := by
      intros; rfl) :
    π (s.finds id) = π (s.engine id) :=
  (advance_keeps h landing _).trans (sources _ _ _ _)

@[simp] theorem finds_pc : (s.finds id).pc = (s.engine id).pc := finds_keeps s id (π := Engine.pc)
@[simp] theorem finds_st : (s.finds id).st = (s.engine id).st := finds_keeps s id (π := Engine.st)
@[simp] theorem finds_lr : (s.finds id).lr = (s.engine id).lr := finds_keeps s id (π := Engine.lr)
@[simp] theorem finds_intret : (s.finds id).intret = (s.engine id).intret := finds_keeps s id (π := Engine.intret)
@[simp] theorem finds_imask : (s.finds id).imask = (s.engine id).imask := finds_keeps s id (π := Engine.imask)
@[simp] theorem finds_cycle : (s.finds id).cycle = (s.engine id).cycle := finds_keeps s id (π := Engine.cycle)
@[simp] theorem finds_delay : (s.finds id).delay = (s.engine id).delay := finds_keeps s id (π := Engine.delay)
@[simp] theorem finds_lctl : (s.finds id).lctl = (s.engine id).lctl := finds_keeps s id (π := Engine.lctl)
@[simp] theorem finds_haltDue : (s.finds id).haltDue = (s.engine id).haltDue := finds_keeps s id (π := Engine.haltDue)
@[simp] theorem finds_faultDue : (s.finds id).faultDue = (s.engine id).faultDue := finds_keeps s id (π := Engine.faultDue)
@[simp] theorem finds_retiDue : (s.finds id).retiDue = (s.engine id).retiDue := finds_keeps s id (π := Engine.retiDue)
@[simp] theorem finds_data : (s.finds id).data = (s.engine id).data := finds_keeps s id (π := Engine.data)

end

/-! ### A bundle that issues alone -/

/-- Nothing but the next bundle is due: no delay slot, no hardware loop, no stop and no return from an interrupt (R231, R234,
R243, R247). -/
structure Engine.Alone (x : Engine) : Prop where
  delay : x.delay = 0
  lctl : x.lctl = 0
  haltDue : x.haltDue = false
  faultDue : x.faultDue = false
  retiDue : x.retiDue = false

theorem Calm.alone {s : State} {id : Nat} {k : BundleKind} {b : BitVec 64} (calm : Calm s id k b) :
    (s.finds id).Alone := by
  obtain ⟨-, -, -, delay, lctl, haltDue, faultDue, retiDue⟩ := calm
  constructor <;> simpa

theorem Calm.kind {s : State} {id : Nat} {k : BundleKind} {b : BitVec 64} (calm : Calm s id k b) : kindOf b = k := by
  obtain ⟨issue, fetch, -⟩ := calm
  simp only [issues, fetch, Bool.and_eq_true, decide_eq_true_eq] at issue
  exact issue.2

theorem Calm.running {s : State} {id : Nat} {k : BundleKind} {b : BitVec 64} (calm : Calm s id k b) :
    (s.engine id).st = .running := by
  obtain ⟨issue, -⟩ := calm
  simp only [issues, engineIssues, Bool.and_eq_true, decide_eq_true_eq] at issue
  exact issue.1.1.1.2

/-- Whether a bundle is legal depends on its place alone (R226, R232, R233). -/
theorem illegal_congr {e e' : Engine} (delay : e.delay = e'.delay) (pc : e.pc = e'.pc) (b : BitVec 64) :
    e.illegal b = e'.illegal b := by
  simp only [Engine.illegal, delay, pc]

theorem finds_illegal (s : State) (id : Nat) (b : BitVec 64) : (s.finds id).illegal b = (s.engine id).illegal b :=
  illegal_congr (finds_delay s id) (finds_pc s id) b

/-- No loop ends while none is active (R234). -/
theorem loopNext_idle {x : Engine} (idle : x.lctl = 0) (addr : BitVec 11) : x.loopNext addr = (x, addr + 1) := by
  simp [Engine.loopNext, Engine.loopLevel, idle]

theorem following_alone {x : Engine} (h : x.Alone) : x.following = (x, x.pc + 1) := by
  simp [Engine.following, h.delay, loopNext_idle h.lctl]

section
variable {x : Engine} (h : x.Alone) {b : BitVec 64} (id : Nat) (free : BitVec 15)
include h

theorem performed_legal (legal : x.illegal b = false) :
    x.performed id b free = ({ e := x } : Issue).operate x id b free := by
  simp [Engine.performed, legal, following_alone h]

theorem performed_illegal (illegal : x.illegal b = true) : x.performed id b free = { e := x.error 1 } := by
  simp [Engine.performed, illegal, following_alone h]

end

/-- The issue by an engine whose results that are due leave nothing else due. -/
theorem issue_alone {e : Engine} (h : e.advance.Alone) (id : Nat) (b : BitVec 64) (free : BitVec 15) :
    e.issue id b free = (e.advance.performed id b free).ended b false (e.advance.pc + 1) := by
  have ready : e.ready = e.advance := by simp [Engine.ready, h.retiDue]
  rw [issue_eq, ready, following_alone h, h.delay]
  rfl

/-- The engine behind a bundle: the next address, and the bundle's cycles (R226). -/
def Engine.behind (x : Engine) (next : BitVec 11) (b : BitVec 64) (cycles : Nat) : Engine :=
  { ({ x with pc := next } : Engine).count cycles with lastBranch := isBranchKind (kindOf b), lastSlot := false }

section
variable {i : Issue} (b : BitVec 64) (next : BitVec 11)

theorem ended_e : (i.ended b false next).e = (i.e.behind next b (if i.twice then 2 else 1)).settleStop := rfl

theorem ended_running (halt : i.e.haltDue = false) (fault : i.e.faultDue = false) :
    (i.ended b false next).e = i.e.behind next b (if i.twice then 2 else 1) := by
  rw [ended_e, Engine.settleStop, if_neg, if_neg]
  · exact fun due => Bool.false_ne_true (halt.symm.trans due.2)
  · exact fun due => Bool.false_ne_true (fault.symm.trans due.2)

/-- A stop that is due outside any delay slot comes at the end of the bundle (R243, R244). -/
theorem ended_halts (delay : i.e.delay = 0) (halt : i.e.haltDue = true) (fault : i.e.faultDue = false) :
    (i.ended b false next).e = { (i.e.behind next b (if i.twice then 2 else 1)).landAll with
      st := .halted, haltDue := false, waiting := false } := by
  rw [ended_e, Engine.settleStop, if_neg, if_pos ⟨delay, halt⟩]
  exact fun due => Bool.false_ne_true (fault.symm.trans due.2)

theorem ended_faults (delay : i.e.delay = 0) (fault : i.e.faultDue = true) :
    (i.ended b false next).e = { (i.e.behind next b (if i.twice then 2 else 1)).landAll with
      st := .fault, faultDue := false, haltDue := false, waiting := false } := by
  rw [ended_e, Engine.settleStop, if_pos ⟨delay, fault⟩]

end

/-- A read that met no error is noted nowhere (R400). -/
theorem dspNote_clean (id : Nat) {n : MemNote} (clean : n.out = .clean) (mid : Nat) (fettler : Bool) (s : State) :
    dspNote id n mid fettler s = s := by
  simp [dspNote, clean, noteRead_clean, onlyIf_false]

/-- The engine after its issue, when every read of the bundle was clean. -/
theorem issueBundle_engine {s : State} {id : Nat} {k : BundleKind} {b : BitVec 64} (calm : Calm s id k b)
    (stream : k = .slots → (s.engine id).stallsOn b = false)
    (clean : ∀ free, ∀ n ∈ ((s.finds id).performed id b free).notes, n.out = .clean) :
    ∃ free, (issueBundle id s).engine id =
      (((s.finds id).performed id b free).ended b false ((s.engine id).pc + 1)).e := by
  refine ⟨freshBits 15 s, ?_⟩
  have kind := calm.kind
  have alone := calm.alone
  obtain ⟨-, fetch, parity, -⟩ := calm
  have sound : ((s.engineNow id).reads b).any (s.engineNow id).parityBad.contains = false := by
    simp [State.engineNow, Engine.sync, parity]
  have flows : ¬(kindOf b = .slots ∧ (s.engineNow id).illegal b = false ∧ (s.engineNow id).stallsOn b = true) :=
    fun stalls => Bool.false_ne_true ((stream (kind.symm.trans stalls.1)).symm.trans stalls.2.2)
  have noted (free) (t : State) : forEach ((s.engineNow id).issue id b free).notes
      (fun n => dspNote id n (id / 32) false) t = t := by
    rw [issue_alone alone]
    exact List.foldlRecOn _ _ (motive := (· = t)) rfl
      fun u same n mem => (dspNote_clean id (clean free n mem) _ _ u).trans same
  rw [issueBundle_eq, fetch, dspNote_clean id rfl]
  unfold issueFetched
  rw [if_neg (by simp)]
  simp only [Engine.fetching, sound, Bool.false_eq_true, if_false, if_neg flows, noted]
  rw [afterEngine_engine, forEach_keeps (State.engine · id) _ _ _ fun _ _ => noteWrite_engine .., modEngine_engine,
    issue_alone alone, ← finds_pc s id]
  rfl

/-- The event in which a bundle issues alone, for what it says of the engine. -/
theorem event_gives {s : State} {e : Fin 2048} {k : BundleKind} {b : BitVec 64} {Q : Engine → Prop}
    (calm : Calm s e.val k b) (stream : k = .slots → (s.engine e.val).stallsOn b = false)
    (clean : ∀ free, ∀ n ∈ ((s.finds e.val).performed e.val b free).notes, n.out = .clean)
    (h : ∀ free, Q (((s.finds e.val).performed e.val b free).ended b false ((s.engine e.val).pc + 1)).e) :
    Gives (k.event e) s (fun u => Q (u.engine e.val)) := by
  have issue : issues k e.val s = true := calm.1
  obtain ⟨free, after⟩ := issueBundle_engine calm stream clean
  show ∃ t, exec (k.event e) s = .next t ∧ _
  rw [exec_event]
  refine gives_occurs issue ?_
  rw [committed_engine, issueAs, issue, onlyIf_true, after]
  exact h free

/-- The engine goes on behind a bundle that leaves it where it was and takes one cycle. -/
def Engine.goesOn (x : Engine) (b : BitVec 64) : Engine := x.behind (x.pc + 1) b 1

/-- What a bundle has done by itself by way of an engine that it leaves where it was, with no stop due, no second cycle and
no error read. -/
structure Issue.Steady (i : Issue) (x : Engine) : Prop where
  pc : i.e.pc = x.pc
  haltDue : i.e.haltDue = x.haltDue
  faultDue : i.e.faultDue = x.faultDue
  once : i.twice = false
  clean : ∀ n ∈ i.notes, n.out = .clean

theorem ended_goesOn {x : Engine} (h : x.Alone) {i : Issue} (steady : i.Steady x) (b : BitVec 64) :
    (i.ended b false (x.pc + 1)).e = i.e.goesOn b := by
  rw [ended_running _ _ (steady.haltDue.trans h.haltDue) (steady.faultDue.trans h.faultDue), steady.once, ← steady.pc]
  rfl

section
variable {s : State} {e : Fin 2048} {k : BundleKind} {b : BitVec 64}

/-- A legal bundle, by what it does by itself. -/
theorem legal_goesOn (calm : CalmLegal s e.val k b) {i : BitVec 15 → Issue}
    (does : ∀ free, ({ e := s.finds e.val } : Issue).operate (s.finds e.val) e.val b free = i free)
    (steady : ∀ free, (i free).Steady (s.finds e.val)) :
    Gives (k.event e) s (fun u => ∃ free, u.engine e.val = (i free).e.goesOn b) := by
  obtain ⟨calm, legal, stream⟩ := calm
  have performed (free) : (s.finds e.val).performed e.val b free = i free :=
    (performed_legal calm.alone _ _ ((finds_illegal ..).trans legal)).trans (does free)
  refine event_gives (Q := fun x => ∃ free, x = (i free).e.goesOn b) calm stream (fun free => ?_) fun free => ⟨free, ?_⟩
  · rw [performed]
    exact (steady free).clean
  · rw [performed, ← finds_pc]
    exact ended_goesOn calm.alone (steady free) b

/-- An operation that changes the engine alone. -/
theorem operation_goesOn (calm : CalmLegal s e.val k b) (f : Engine)
    (does : ∀ free, ({ e := s.finds e.val } : Issue).operate (s.finds e.val) e.val b free = { e := f })
    (pc : f.pc = (s.finds e.val).pc) (halt : f.haltDue = (s.finds e.val).haltDue)
    (fault : f.faultDue = (s.finds e.val).faultDue) :
    Gives (k.event e) s (fun u => u.engine e.val = f.goesOn b) :=
  gives_imp (legal_goesOn calm does fun _ => ⟨pc, halt, fault, rfl, by simp⟩) fun _ ⟨_, after⟩ => after

end

/-! ### Branches (R229, R231) -/

section
variable {s : State} {e : Fin 2048} {b : BitVec 64}

theorem b_branches (calm : CalmLegal s e.val .b b) : Gives (.b e) s (fun u =>
    (u.engine e.val).pc = (s.engine e.val).pc + 1 ∧ (u.engine e.val).delay = 2 ∧
      (u.engine e.val).target = BitVec.ofNat 11 (bf b 43 11)) := by
  refine gives_imp (operation_goesOn calm ((s.finds e.val).branch (BitVec.ofNat 11 (bf b 43 11)))
    (fun _ => by simp only [Issue.operate, calm.1.kind]) rfl rfl rfl) fun u after => ?_
  rw [after, ← finds_pc]
  exact ⟨rfl, rfl, rfl⟩

theorem call_branches (calm : CalmLegal s e.val .call b) : Gives (.call e) s (fun u =>
    (u.engine e.val).lr = (s.engine e.val).pc + 3 ∧ (u.engine e.val).delay = 2 ∧
      (u.engine e.val).target = BitVec.ofNat 11 (bf b 43 11)) := by
  refine gives_imp (operation_goesOn calm
    (({ s.finds e.val with lr := (s.finds e.val).pc + 3 } : Engine).branch (BitVec.ofNat 11 (bf b 43 11)))
    (fun _ => by simp only [Issue.operate, calm.1.kind]) rfl rfl rfl) fun u after => ?_
  rw [after, ← finds_pc]
  exact ⟨rfl, rfl, rfl⟩

theorem ret_branches (calm : CalmLegal s e.val .ret b) : Gives (.ret e) s (fun u =>
    (u.engine e.val).delay = 2 ∧ (u.engine e.val).target = (s.engine e.val).lr) := by
  refine gives_imp (operation_goesOn calm ((s.finds e.val).branch (s.finds e.val).lr)
    (fun _ => by simp only [Issue.operate, calm.1.kind]) rfl rfl rfl) fun u after => ?_
  rw [after, ← finds_lr]
  exact ⟨rfl, rfl⟩

theorem reti_branches (calm : CalmLegal s e.val .reti b) : Gives (.reti e) s (fun u =>
    (u.engine e.val).delay = 2 ∧ (u.engine e.val).target = (s.engine e.val).intret ∧
      (u.engine e.val).retiDue = true) := by
  refine gives_imp (operation_goesOn calm { (s.finds e.val).branch (s.finds e.val).intret with retiDue := true }
    (fun _ => by simp only [Issue.operate, calm.1.kind]) rfl rfl rfl) fun u after => ?_
  rw [after, ← finds_intret]
  exact ⟨rfl, rfl, rfl⟩

/-- A branch that a condition decides, over an engine `y` that the operation has left where it found it. -/
theorem conditional_branches {k : BundleKind} {c : Prop} [Decidable c] {y : Engine} {t : BitVec 11}
    (calm : CalmLegal s e.val k b) (same : y.pc = (s.finds e.val).pc ∧ y.delay = (s.finds e.val).delay ∧
      y.haltDue = (s.finds e.val).haltDue ∧ y.faultDue = (s.finds e.val).faultDue)
    (does : ∀ free, ({ e := s.finds e.val } : Issue).operate (s.finds e.val) e.val b free =
      { e := if c then y.branch t else y }) :
    Gives (k.event e) s (fun u => (u.engine e.val).pc = (s.engine e.val).pc + 1 ∧
      (u.engine e.val).landing = y.landing ∧ (u.engine e.val).delay = (if c then 2 else 0) ∧
      (c → (u.engine e.val).target = t)) := by
  obtain ⟨pc, delay, halt, fault⟩ := same
  have idle : y.delay = 0 := delay.trans calm.1.alone.delay
  rw [← finds_pc, ← pc]
  by_cases taken : c
  · simp only [taken, if_true] at does ⊢
    refine gives_imp (operation_goesOn calm _ does pc halt fault) fun u after => ?_
    rw [after]
    exact ⟨rfl, rfl, rfl, fun _ => rfl⟩
  · simp only [taken, if_false] at does ⊢
    refine gives_imp (operation_goesOn calm _ does pc halt fault) fun u after => ?_
    rw [after]
    exact ⟨rfl, rfl, idle, nofun⟩

theorem beqz_branches {r : BitVec 32} (reg : r = (s.finds e.val).dreg (bf b 54 4)) (calm : CalmLegal s e.val .beqz b) :
    Gives (.beqz e) s (fun u => (u.engine e.val).pc = (s.engine e.val).pc + 1 ∧
      (u.engine e.val).delay = (if r = 0 then 2 else 0) ∧
      (r = 0 → (u.engine e.val).target = BitVec.ofNat 11 (bf b 43 11))) :=
  gives_imp (conditional_branches calm ⟨rfl, rfl, rfl, rfl⟩ fun _ => by simp only [Issue.operate, calm.1.kind, reg])
    fun _ ⟨pc, _, rest⟩ => ⟨pc, rest⟩

theorem bnez_branches {r : BitVec 32} (reg : r = (s.finds e.val).dreg (bf b 54 4)) (calm : CalmLegal s e.val .bnez b) :
    Gives (.bnez e) s (fun u => (u.engine e.val).pc = (s.engine e.val).pc + 1 ∧
      (u.engine e.val).delay = (if r = 0 then 0 else 2) ∧
      (r ≠ 0 → (u.engine e.val).target = BitVec.ofNat 11 (bf b 43 11))) :=
  gives_imp (conditional_branches (c := r ≠ 0) calm ⟨rfl, rfl, rfl, rfl⟩
      fun _ => by simp only [Issue.operate, calm.1.kind, reg])
    fun _ ⟨pc, _, delay, target⟩ => ⟨pc, delay.trans (ite_not ..), target⟩

theorem bltz_branches {r : BitVec 32} (reg : r = (s.finds e.val).dreg (bf b 54 4)) (calm : CalmLegal s e.val .bltz b) :
    Gives (.bltz e) s (fun u => (u.engine e.val).pc = (s.engine e.val).pc + 1 ∧
      (u.engine e.val).delay = (if r.toInt < 0 then 2 else 0) ∧
      (r.toInt < 0 → (u.engine e.val).target = BitVec.ofNat 11 (bf b 43 11))) :=
  gives_imp (conditional_branches calm ⟨rfl, rfl, rfl, rfl⟩ fun _ => by simp only [Issue.operate, calm.1.kind, reg])
    fun _ ⟨pc, _, rest⟩ => ⟨pc, rest⟩

theorem bgez_branches {r : BitVec 32} (reg : r = (s.finds e.val).dreg (bf b 54 4)) (calm : CalmLegal s e.val .bgez b) :
    Gives (.bgez e) s (fun u => (u.engine e.val).pc = (s.engine e.val).pc + 1 ∧
      (u.engine e.val).delay = (if 0 ≤ r.toInt then 2 else 0) ∧
      (0 ≤ r.toInt → (u.engine e.val).target = BitVec.ofNat 11 (bf b 43 11))) :=
  gives_imp (conditional_branches calm ⟨rfl, rfl, rfl, rfl⟩ fun _ => by simp only [Issue.operate, calm.1.kind, reg])
    fun _ ⟨pc, _, rest⟩ => ⟨pc, rest⟩

theorem bdec_branches {r : BitVec 32} (reg : r = (s.finds e.val).dreg (bf b 54 4)) (calm : CalmLegal s e.val .bdec b) :
    Gives (.bdec e) s (fun u =>
      (u.engine e.val).landing = (s.finds e.val).landing ++ [(1, .dreg (bf b 54 4) (r - 1))] ∧
      (u.engine e.val).delay = (if r - 1 = 0 then 0 else 2) ∧
      (r - 1 ≠ 0 → (u.engine e.val).target = BitVec.ofNat 11 (bf b 43 11))) :=
  gives_imp (conditional_branches (c := r - 1 ≠ 0) (y := (s.finds e.val).writeD 1 (bf b 54 4) (r - 1)) calm
      ⟨rfl, rfl, rfl, rfl⟩ fun _ => by simp only [Issue.operate, calm.1.kind, reg])
    fun _ ⟨_, landing, delay, target⟩ => ⟨landing, delay.trans (ite_not ..), target⟩

end

/-- Settles O14: a bundle that issues alone is its operation and the engine's going on; a branch that is taken begins its two
delay slots, whatever decides it. -/
theorem branchesComplete : Obligations.BranchesComplete := by
  rintro s e b t r rfl reg
  exact ⟨b_branches, call_branches, ret_branches, beqz_branches reg, bnez_branches reg, bltz_branches reg,
    bgez_branches reg, bdec_branches reg, reti_branches⟩

/-! ### Loop, immediate and system operations (R229, R230, R233, R243 to R245) -/

section
variable {s : State} {e : Fin 2048} {b : BitVec 64}

theorem limm_lands (calm : CalmLegal s e.val .limm b) : Gives (.limm e) s (fun u =>
    (u.engine e.val).pc = (s.engine e.val).pc + 1 ∧ (u.engine e.val).landing =
      (s.finds e.val).landing ++ [(1, .dreg (bf b 54 4) (BitVec.ofNat 32 (bf b 0 32)))]) := by
  refine gives_imp (operation_goesOn calm ((s.finds e.val).writeD 1 (bf b 54 4) (BitVec.ofNat 32 (bf b 0 32)))
    (fun _ => by simp only [Issue.operate, calm.1.kind]) rfl rfl rfl) fun u after => ?_
  rw [after, ← finds_pc]
  exact ⟨rfl, rfl⟩

/-- The count of a `LOOP`, from its register or its field (R233). -/
def Engine.loopCount (x : Engine) (b : BitVec 64) : BitVec 16 :=
  if b.getLsbD 59 then (x.dreg (bf b 21 4)).extractLsb' 0 16 else BitVec.ofNat 16 (bf b 21 16)

/-- A `LOOP` with a count sets up its level (R233). -/
theorem loopSetup_level {x : Engine} (count : x.loopCount b ≠ 0) :
    (x.loopSetup b).ls = lput 0 x.ls (bf b 60 2) (BitVec.ofNat 11 (bf b 48 11)) ∧
      (x.loopSetup b).le = lput 0 x.le (bf b 60 2) (BitVec.ofNat 11 (bf b 37 11)) ∧
      (x.loopSetup b).lc = lput 0 x.lc (bf b 60 2) (x.loopCount b) ∧
      (x.loopSetup b).lctl = x.lctl ||| BitVec.ofNat 3 (2 ^ bf b 60 2) := by
  have setup : x.loopSetup b = _ := if_neg count
  rw [setup]
  exact ⟨rfl, rfl, rfl, rfl⟩

theorem loopSetup_keeps {β : Type} {π : Engine → β} (parity : ∀ e bad, π { e with parityBad := bad } = π e)
    (level : ∀ e ls le lc lctl, π { e with ls := ls, le := le, lc := lc, lctl := lctl } = π e) {x : Engine}
    (count : x.loopCount b ≠ 0) : π (x.loopSetup b) = π x := by
  have setup : x.loopSetup b = _ := if_neg count
  rw [setup]
  exact (level _ _ _ _ _).trans ((parity _ _).trans ((parity _ _).trans (parity _ _)))

theorem loop_setsUp {n : BitVec 16} (calm : CalmLegal s e.val .loop b) (count : n = (s.finds e.val).loopCount b)
    (some : n ≠ 0) : Gives (.loop e) s (fun u =>
      lget 0 (u.engine e.val).ls (bf b 60 2) = BitVec.ofNat 11 (bf b 48 11) ∧
      lget 0 (u.engine e.val).le (bf b 60 2) = BitVec.ofNat 11 (bf b 37 11) ∧
      lget 0 (u.engine e.val).lc (bf b 60 2) = n ∧ (u.engine e.val).lctl = BitVec.ofNat 3 (2 ^ bf b 60 2)) := by
  subst count
  refine gives_imp (operation_goesOn calm ((s.finds e.val).loopSetup b)
    (fun _ => by simp only [Issue.operate, calm.1.kind])
    (loopSetup_keeps (π := Engine.pc) (fun _ _ => rfl) (fun _ _ _ _ _ => rfl) some)
    (loopSetup_keeps (π := Engine.haltDue) (fun _ _ => rfl) (fun _ _ _ _ _ => rfl) some)
    (loopSetup_keeps (π := Engine.faultDue) (fun _ _ => rfl) (fun _ _ _ _ _ => rfl) some)) fun u after => ?_
  obtain ⟨ls, le, lc, lctl⟩ := loopSetup_level some
  replace lctl := lctl.trans ((congrArg (· ||| _) calm.1.alone.lctl).trans BitVec.zero_or)
  rw [after]
  exact ⟨(congrArg (lget 0 · _) ls).trans (lget_lput_same ..), (congrArg (lget 0 · _) le).trans (lget_lput_same ..),
    (congrArg (lget 0 · _) lc).trans (lget_lput_same ..), lctl⟩

theorem nop_goesOn (calm : CalmLegal s e.val .nop b) : Gives (.nop e) s (fun u =>
    (u.engine e.val).pc = (s.engine e.val).pc + 1 ∧ (u.engine e.val).d = (s.finds e.val).d ∧
      (u.engine e.val).cycle = (s.engine e.val).cycle + 1) := by
  refine gives_imp (operation_goesOn calm (s.finds e.val) (fun _ => by simp only [Issue.operate, calm.1.kind])
    rfl rfl rfl) fun u after => ?_
  rw [after, ← finds_pc, ← finds_cycle]
  exact ⟨rfl, rfl, rfl⟩

theorem waiti_waits (calm : CalmLegal s e.val .waiti b) : Gives (.waiti e) s (fun u =>
    (u.engine e.val).pc = (s.engine e.val).pc + 1 ∧
      (u.engine e.val).waiting = ((s.finds e.val).pendNow &&& (s.engine e.val).imask == 0#8)) := by
  refine gives_imp (operation_goesOn calm
    { s.finds e.val with waiting := (s.finds e.val).pendNow &&& (s.finds e.val).imask == 0#8 }
    (fun _ => by simp only [Issue.operate, calm.1.kind]) rfl rfl rfl) fun u after => ?_
  rw [after, ← finds_pc, ← finds_imask]
  exact ⟨rfl, rfl⟩

theorem ie_setIe (x : Engine) (on : Bool) : (x.setIe on).ie = on := by
  cases on <;> simp [Engine.setIe, Engine.ie]

theorem ei_enables (calm : CalmLegal s e.val .ei b) : Gives (.ei e) s (fun u =>
    (u.engine e.val).ie = true ∧ (u.engine e.val).pc = (s.engine e.val).pc + 1) := by
  refine gives_imp (operation_goesOn calm ((s.finds e.val).setIe true)
    (fun _ => by simp only [Issue.operate, calm.1.kind]) rfl rfl rfl) fun u after => ?_
  rw [after, ← finds_pc]
  exact ⟨ie_setIe _ true, rfl⟩

theorem di_disables (calm : CalmLegal s e.val .di b) : Gives (.di e) s (fun u =>
    (u.engine e.val).ie = false ∧ (u.engine e.val).pc = (s.engine e.val).pc + 1) := by
  refine gives_imp (operation_goesOn calm ((s.finds e.val).setIe false)
    (fun _ => by simp only [Issue.operate, calm.1.kind]) rfl rfl rfl) fun u after => ?_
  rw [after, ← finds_pc]
  exact ⟨ie_setIe _ false, rfl⟩

theorem sig_signals (calm : CalmLegal s e.val .sig b) : Gives (.sig e) s (fun u =>
    (u.engine e.val).evt = true ∧ (u.engine e.val).pc = (s.engine e.val).pc + 1) := by
  refine gives_imp (operation_goesOn calm { s.finds e.val with evt := true }
    (fun _ => by simp only [Issue.operate, calm.1.kind]) rfl rfl rfl) fun u after => ?_
  rw [after, ← finds_pc]
  exact ⟨rfl, rfl⟩

/-! ### Stops (R243, R244) -/

theorem halt_halts (calm : CalmLegal s e.val .halt b) : Gives (.halt e) s (fun u => (u.engine e.val).st = .halted ∧
    (u.engine e.val).landing = [] ∧ (u.engine e.val).d = ((s.engine e.val).advance.landAll).d) := by
  obtain ⟨calm, legal, stream⟩ := calm
  have alone := calm.alone
  have performed (free) : (s.finds e.val).performed e.val b free = { e := { s.finds e.val with haltDue := true } } := by
    rw [performed_legal alone _ _ ((finds_illegal ..).trans legal)]
    simp only [Issue.operate, calm.kind]
  refine event_gives (Q := fun x => x.st = .halted ∧ x.landing = [] ∧ x.d = _) calm stream
    (fun free => by simp [performed]) fun free => ?_
  rw [performed, ended_halts]
  · exact ⟨rfl, rfl, landAll_d (advance_d rfl rfl) rfl⟩
  · exact alone.delay
  · rfl
  · exact alone.faultDue

theorem reserved_illegal {x : Engine} (kind : kindOf b = .reserved) : x.illegal b = true := by
  simp [Engine.illegal, kind]

/-- An error by whether it can be taken as an interrupt (R244, Table 9.11). -/
theorem error_cases (x : Engine) (cause : Nat) :
    (x.error cause).istat = (x.istat &&& 0x0F#8) ||| BitVec.ofNat 8 (16 * cause) ∧ (x.error cause).st = x.st ∧
      (x.error cause).delay = x.delay ∧ (x.error cause).haltDue = x.haltDue ∧
      (x.error cause).faultDue = if x.ie && x.imask.getLsbD 0 then x.faultDue else true := by
  have taken : (x.ie && x.imask.getLsbD 0) = (({ x with
    istat := (x.istat &&& 0x0F#8) ||| BitVec.ofNat 8 (16 * cause) } : Engine).ie && x.imask.getLsbD 0) := rfl
  unfold Engine.error
  rw [taken]
  dsimp only
  split <;> exact ⟨rfl, rfl, rfl, rfl, rfl⟩

/-- The cause of an illegal bundle stands in bits 7 to 4 of `ISTAT` (Table 9.11). -/
theorem illegal_cause : ∀ v : BitVec 8, ((v &&& 0x0F#8) ||| BitVec.ofNat 8 (16 * 1)).extractLsb' 4 4 = 1#4 := by decide

/-- The reserved row is an illegal bundle: its error is pending, or stops the engine where it cannot be taken (R244). -/
theorem reserved_raises (calm : Calm s e.val .reserved b) : Gives (.reservedBranchOrSystemOp e) s (fun u =>
    (u.engine e.val).istat.extractLsb' 4 4 = 1#4 ∧ (u.engine e.val).st =
      (if (s.finds e.val).ie && (s.engine e.val).imask.getLsbD 0 then EngSt.running else .fault)) := by
  have alone := calm.alone
  have performed (free) := performed_illegal alone e.val free (reserved_illegal calm.kind)
  obtain ⟨istat, st, delay, halt, fault⟩ := error_cases (s.finds e.val) 1
  have cause := congrArg (fun v : BitVec 8 => v.extractLsb' 4 4) istat |>.trans (illegal_cause _)
  refine event_gives (Q := fun x => x.istat.extractLsb' 4 4 = 1#4 ∧ x.st = _) calm nofun
    (fun free => by simp [performed]) fun free => ?_
  rw [performed, ← finds_imask]
  cases taken : (s.finds e.val).ie && (s.finds e.val).imask.getLsbD 0 <;> rw [taken] at fault
  case false =>
    rw [ended_faults _ _ (delay.trans alone.delay) fault]
    exact ⟨(congrArg _ (landAll_keeps (π := Engine.istat) (fun _ _ _ _ _ => rfl) (fun _ _ => rfl) _)).trans cause, rfl⟩
  case true =>
    rw [ended_running _ _ (halt.trans alone.haltDue) (fault.trans alone.faultDue)]
    exact ⟨cause, st.trans ((finds_st ..).trans calm.running)⟩

end

/-- Settles O15. -/
theorem systemOperationsComplete : Obligations.SystemOperationsComplete := fun _ _ _ =>
  ⟨limm_lands, fun _ calm count => loop_setsUp calm count, nop_goesOn, halt_halts, waiti_waits, ei_enables, di_disables,
    sig_signals, reserved_raises⟩

end Sys2Proof.Machine

/-! The slots of a bundle of format 00 (chapter 9, O16). -/

namespace Sys2Proof.Machine

/-! ### Bundles of format 00 (R222, R224, R227, R228) -/

/-- A MAC-slot operation writes accumulators, which are seen later, and nothing else (R224, R227). -/
theorem writeAcc_keeps {β : Type} {π : Engine → β}
    (h : ∀ e bad acc landing, π { e with parityBad := bad, accNow := acc, landing := landing } = π e) (e : Engine)
    (n : Nat) (v : BitVec 40) : π (e.writeAcc n v) = π e := h e _ _ _

theorem writeAccInt_keeps {β : Type} {π : Engine → β}
    (h : ∀ e bad acc landing, π { e with parityBad := bad, accNow := acc, landing := landing } = π e) (e : Engine)
    (n : Nat) (v : Int) : π (e.writeAccInt n v) = π e := by
  unfold Engine.writeAccInt
  dsimp only
  split
  · exact (h (e.writeAcc n (BitVec.ofInt 40 v)) _ _ _).trans (writeAcc_keeps h ..)
  · exact writeAcc_keeps h ..

theorem macSlot_keeps {β : Type} {π : Engine → β}
    (h : ∀ e bad acc landing, π { e with parityBad := bad, accNow := acc, landing := landing } = π e) (e : Engine)
    (b : BitVec 64) : π (e.macSlot b) = π e := by
  have all (l : List Nat) (v : Nat → Int) : π (l.foldl (fun t i => t.writeAccInt i (v i)) e) = π e :=
    foldl_keeps π (fun t i => writeAccInt_keeps h t i (v i)) l e
  unfold Engine.macSlot
  dsimp only
  split
  case h_3 | h_4 => exact (writeAccInt_keeps h ..).trans (writeAccInt_keeps h ..)
  case h_7 | h_8 => exact writeAccInt_keeps h ..
  case h_9 =>
    split
    · exact writeAccInt_keeps h ..
    · exact writeAcc_keeps h ..
  case h_10 => exact foldl_keeps π (fun t i => writeAcc_keeps h t i 0) _ e
  case h_11 => rfl
  all_goals exact all _ _

theorem macSlot_none {b : BitVec 64} (mac : bf b 58 4 = 0) (e : Engine) : e.macSlot b = e := by
  simp only [Engine.macSlot, mac]

/-- A load of a clean word is noted and changes nothing (R219). -/
theorem load_clean {i : Issue} {src : Engine} {a : BitVec 15} (clean : (src.readWord false (a.toNat / 8)).2 = .clean) :
    i.load src a = ((src.readWord false (a.toNat / 8)).1,
      { i with notes := i.notes ++ [src.noteOf false (a.toNat / 8) .clean] }) := by
  simp [Issue.load, clean]

section
variable {b : BitVec 64} (i : Issue) (src : Engine) (id : Nat) (free : BitVec 15)

theorem moveSlot_none (move : bf b 26 6 = 0) : i.moveSlot src id b free = i := by
  simp only [Issue.moveSlot, move]

theorem moveSlot_add (move : bf b 26 6 = 0x11) : i.moveSlot src id b free =
    { i with e := i.e.writeD 1 (bf b 22 4) (src.dreg (bf b 18 4) + src.dreg (bf b 14 4)) } := by
  simp only [Issue.moveSlot, move]

theorem moveSlot_immediate (move : bf b 26 6 = 0x17) : i.moveSlot src id b free =
    { i with e := i.e.writeD 1 (bf b 22 4) ((BitVec.ofNat 16 (bf b 0 16)).signExtend 32) } := by
  simp only [Issue.moveSlot, move]

theorem moveSlot_load {a : BitVec 15} (move : bf b 26 6 = 0x01) (address : a = lget 0 src.a (bf b 20 3))
    (clean : (src.readWord false (a.toNat / 8)).2 = .clean) : i.moveSlot src id b free =
    { i with
      e := (i.e.writePair 2 (bf b 23 3) (src.readWord false (a.toNat / 8)).1).postMod (bf b 20 3) (bf b 20 3)
        (b.getLsbD 19) free
      notes := i.notes ++ [src.noteOf false (a.toNat / 8) .clean] } := by
  subst address
  simp only [Issue.moveSlot, move, load_clean clean]

theorem moveSlot_store (move : bf b 26 6 = 0x03) : i.moveSlot src id b free =
    { i.store (lget 0 src.a (bf b 20 3)) (src.pair (bf b 23 3)) with
      e := (i.store (lget 0 src.a (bf b 20 3)) (src.pair (bf b 23 3))).e.postMod (bf b 20 3) (bf b 20 3)
        (b.getLsbD 19) free } := by
  simp only [Issue.moveSlot, move]

theorem moveSlot_writeReload (move : bf b 26 6 = 0x25) (reg : bf b 16 6 = 0x2B) : i.moveSlot src id b free =
    { i with e := { i.e.rewrote (16 + 0x2B) with treload := src.dreg (bf b 22 4) } } := by
  simp only [Issue.moveSlot, move, reg]
  rfl

theorem moveSlot_out0 (move : bf b 26 6 = 0x29) (first : bf b 22 1 = 0) : i.moveSlot src id b free =
    { i with e := { i.e with out0 := i.e.out0 ++ [src.pair (bf b 23 3)] } } := by
  simp only [Issue.moveSlot, move, first, if_true]

end

/-- Post-modification writes the address register, and nothing else (R222). -/
theorem postMod_keeps {β : Type} {π : Engine → β}
    (h : ∀ e bad a, π { e with parityBad := bad, a := a } = π e) (e : Engine) (n m : Nat) (go : Bool)
    (free : BitVec 15) : π (e.postMod n m go free) = π e := by
  unfold Engine.postMod
  split
  · exact h e _ _
  · rfl

section
variable {s : State} {e : Fin 2048} {b : BitVec 64}

/-- A bundle whose MAC slot is empty does what its move slot does. -/
theorem moveSlot_goesOn (calm : CalmLegal s e.val .slots b) (mac : bf b 58 4 = 0) {i : BitVec 15 → Issue}
    (does : ∀ free, ({ e := s.finds e.val } : Issue).moveSlot (s.finds e.val) e.val b free = i free)
    (steady : ∀ free, (i free).Steady (s.finds e.val)) :
    Gives (.bundle e) s (fun u => ∃ free, u.engine e.val = (i free).e.goesOn b) := by
  refine legal_goesOn calm (fun free => ?_) steady
  simp only [Issue.operate, calm.1.kind, macSlot_none mac]
  exact does free

theorem bundle_accumulates (calm : CalmLegal s e.val .slots b) (move : bf b 26 6 = 0) : Gives (.bundle e) s (fun u =>
    (u.engine e.val).pc = (s.finds e.val).pc + 1 ∧ (u.engine e.val).accNow = ((s.finds e.val).macSlot b).accNow ∧
      (u.engine e.val).landing = ((s.finds e.val).macSlot b).landing ∧
      (u.engine e.val).cycle = (s.finds e.val).cycle + 1) := by
  have keeps {β : Type} {π : Engine → β}
      (h : ∀ e bad acc landing, π { e with parityBad := bad, accNow := acc, landing := landing } = π e) :=
    macSlot_keeps h (s.finds e.val) b
  refine gives_imp (operation_goesOn calm ((s.finds e.val).macSlot b)
    (fun _ => by simp only [Issue.operate, calm.1.kind, moveSlot_none _ _ _ _ move])
    (keeps (π := Engine.pc) fun _ _ _ _ => rfl) (keeps (π := Engine.haltDue) fun _ _ _ _ => rfl)
    (keeps (π := Engine.faultDue) fun _ _ _ _ => rfl)) fun u after => ?_
  rw [after]
  exact ⟨congrArg (· + 1) (keeps (π := Engine.pc) fun _ _ _ _ => rfl), rfl, rfl,
    congrArg (· + 1) (keeps (π := Engine.cycle) fun _ _ _ _ => rfl)⟩

theorem bundle_adds (calm : CalmLegal s e.val .slots b) (mac : bf b 58 4 = 0) (move : bf b 26 6 = 0x11) :
    Gives (.bundle e) s (fun u => (u.engine e.val).landing = (s.finds e.val).landing ++
      [(1, .dreg (bf b 22 4) ((s.finds e.val).dreg (bf b 18 4) + (s.finds e.val).dreg (bf b 14 4)))]) :=
  gives_imp (moveSlot_goesOn calm mac (fun free => moveSlot_add _ _ _ free move)
    fun _ => ⟨rfl, rfl, rfl, rfl, by simp⟩) fun _ ⟨_, after⟩ => congrArg Engine.landing after

theorem bundle_moves (calm : CalmLegal s e.val .slots b) (mac : bf b 58 4 = 0) (move : bf b 26 6 = 0x17) :
    Gives (.bundle e) s (fun u => (u.engine e.val).landing = (s.finds e.val).landing ++
      [(1, .dreg (bf b 22 4) ((BitVec.ofNat 16 (bf b 0 16)).signExtend 32))]) :=
  gives_imp (moveSlot_goesOn calm mac (fun free => moveSlot_immediate _ _ _ free move)
    fun _ => ⟨rfl, rfl, rfl, rfl, by simp⟩) fun _ ⟨_, after⟩ => congrArg Engine.landing after

theorem bundle_loads {a : BitVec 15} (calm : CalmLegal s e.val .slots b) (mac : bf b 58 4 = 0)
    (move : bf b 26 6 = 0x01) (address : a = lget 0 (s.finds e.val).a (bf b 20 3))
    (clean : ((s.finds e.val).readWord false (a.toNat / 8)).2 = .clean) :
    Gives (.bundle e) s (fun u => (u.engine e.val).landing = (s.finds e.val).landing ++
      [(2, .dreg (2 * bf b 23 3) (((s.finds e.val).readWord false (a.toNat / 8)).1.extractLsb' 0 32)),
       (2, .dreg (2 * bf b 23 3 + 1) (((s.finds e.val).readWord false (a.toNat / 8)).1.extractLsb' 32 32))]) := by
  refine gives_imp (moveSlot_goesOn calm mac (fun free => moveSlot_load _ _ _ free move address clean)
    fun _ => ⟨postMod_keeps (π := Engine.pc) (fun _ _ _ => rfl) .., postMod_keeps (π := Engine.haltDue) (fun _ _ _ => rfl) ..,
      postMod_keeps (π := Engine.faultDue) (fun _ _ _ => rfl) .., rfl, by simp [Engine.noteOf]⟩) fun _ ⟨_, after⟩ => ?_
  rw [after]
  refine (postMod_keeps (π := Engine.landing) (fun _ _ _ => rfl) ..).trans ?_
  simp [Engine.writePair, Engine.writeD]

theorem bundle_stores {a : BitVec 15} (calm : CalmLegal s e.val .slots b) (mac : bf b 58 4 = 0)
    (move : bf b 26 6 = 0x03) (address : a = lget 0 (s.finds e.val).a (bf b 20 3)) :
    Gives (.bundle e) s (fun u => tget 0 (u.engine e.val).data (a.toNat / 8) = (s.finds e.val).pair (bf b 23 3) ∧
      ∀ k, k ≠ a.toNat / 8 → tget 0 (u.engine e.val).data k = tget 0 (s.engine e.val).data k) := by
  subst address
  refine gives_imp (moveSlot_goesOn calm mac (fun free => moveSlot_store _ _ _ free move)
    fun _ => ⟨postMod_keeps (π := Engine.pc) (fun _ _ _ => rfl) .., postMod_keeps (π := Engine.haltDue) (fun _ _ _ => rfl) ..,
      postMod_keeps (π := Engine.faultDue) (fun _ _ _ => rfl) .., rfl, by simp [Issue.store]⟩) fun _ ⟨_, after⟩ => ?_
  rw [after, ← finds_data]
  have data := postMod_keeps (π := Engine.data) (fun _ _ _ => rfl)
  exact ⟨(congrArg (tget 0 · _) (data ..)).trans (tget_tset_same ..),
    fun k other => (congrArg (tget 0 · k) (data ..)).trans (tget_tset_ne _ _ _ _ _ other)⟩

theorem bundle_setsReload (calm : CalmLegal s e.val .slots b) (mac : bf b 58 4 = 0) (move : bf b 26 6 = 0x25)
    (reg : bf b 16 6 = 0x2B) :
    Gives (.bundle e) s (fun u => (u.engine e.val).treload = (s.finds e.val).dreg (bf b 22 4)) :=
  gives_imp (moveSlot_goesOn calm mac (fun free => moveSlot_writeReload _ _ _ free move reg)
    fun _ => ⟨rfl, rfl, rfl, rfl, by simp⟩) fun _ ⟨_, after⟩ => congrArg Engine.treload after

theorem bundle_sends (calm : CalmLegal s e.val .slots b) (mac : bf b 58 4 = 0) (move : bf b 26 6 = 0x29)
    (first : bf b 22 1 = 0) :
    Gives (.bundle e) s (fun u =>
      (u.engine e.val).out0 = (s.finds e.val).out0 ++ [(s.finds e.val).pair (bf b 23 3)]) :=
  gives_imp (moveSlot_goesOn calm mac (fun free => moveSlot_out0 _ _ _ free move first)
    fun _ => ⟨rfl, rfl, rfl, rfl, by simp⟩) fun _ ⟨_, after⟩ => congrArg Engine.out0 after

end

/-- Settles O16: what the move slot does beside an empty MAC slot, and the MAC slot beside an empty move slot. -/
theorem bundlesComplete : Obligations.BundlesComplete := by
  rintro s e b calm x rfl
  exact ⟨bundle_accumulates calm, bundle_adds calm, bundle_moves calm, fun a mac move => bundle_loads calm mac move,
    fun a mac move => bundle_stores calm mac move, bundle_setsReload calm, bundle_sends calm⟩

end Sys2Proof.Machine

/-! Events of the engines (chapter 9, O17). -/

namespace Sys2Proof.Machine

/-! ### Interrupts, waits and the timer (R245, Table 9.10) -/

/-- Cycles spent waiting count, and touch nothing that an interrupt goes by. -/
theorem waited_keeps {β : Type} {π : Engine → β}
    (h : ∀ e cycle old timer, π { e with cycle := cycle, oldProg := old, timer := timer } = π e) (e : Engine) (n : Nat) :
    π (e.waited n) = π e := by
  unfold Engine.waited
  split
  · exact h e _ _ _
  · rfl

section
variable {s : State} {e : Fin 2048}

theorem interruptEntry_enters (may : interrupts s e.val = true) : Gives (.interruptEntry e) s (fun t =>
    (t.engine e.val).intret = (s.engine e.val).pc ∧ (t.engine e.val).ie = false ∧ (t.engine e.val).waiting = false ∧
      (t.engine e.val).pc =
        (s.engine e.val).vbase + BitVec.ofNat 11 (8 * (s.engineNow e.val).lowestSource)) := by
  show ∃ t, execInterruptEntry e s = .next t ∧ _
  unfold execInterruptEntry
  refine gives_occurs may ?_
  have keeps {β : Type} {π : Engine → β}
      (h : ∀ e cycle old timer, π { e with cycle := cycle, oldProg := old, timer := timer } = π e) :=
    waited_keeps h (s.engineNow e.val) (freshNat s)
  have source := keeps (π := Engine.lowestSource) fun _ _ _ _ => rfl
  have base := keeps (π := Engine.vbase) fun _ _ _ _ => rfl
  simp only [committed_engine, modEngine_engine]
  refine ⟨keeps (π := Engine.pc) fun _ _ _ _ => rfl, ie_setIe _ false, rfl, ?_⟩
  rw [← source]
  exact congrArg (· + _) base

theorem waitiResume_resumes (clocked : engineClocked s e.val = true) (running : (s.engine e.val).st = .running)
    (waits : (s.engine e.val).waiting = true) (held : (s.engineNow e.val).canInterrupt = false)
    (pending : ((s.engineNow e.val).pendNow &&& (s.engine e.val).imask) ≠ 0#8) :
    Gives (.waitiResume e) s (fun t => (t.engine e.val).waiting = false ∧
      (t.engine e.val).pc = (s.engine e.val).pc) := by
  have st : (s.engineNow e.val).st = .running := running
  have waiting : (s.engineNow e.val).waiting = true := waits
  have source : ((s.engineNow e.val).pendNow &&& (s.engineNow e.val).imask) ≠ 0#8 := pending
  show ∃ t, execWaitiResume e s = .next t ∧ _
  unfold execWaitiResume
  refine gives_occurs (by simp [clocked, st, waiting, held, source]) ?_
  rw [committed_engine, modEngine_engine]
  exact ⟨rfl, waited_keeps (π := Engine.pc) (fun _ _ _ _ => rfl) (s.engineNow e.val) (freshNat s)⟩

/-- A source that becomes pending is (Table 9.10). -/
theorem pend_pending (x : Engine) {k : Nat} (h : k < 8) : (x.pend k).ipend.getLsbD k = true := by
  simp only [Engine.pend, BitVec.getLsbD_or, BitVec.getLsbD_ofNat, Nat.testBit_two_pow_self, h, decide_true, Bool.and_self,
    Bool.or_true]

theorem timerExpiry_expires (clocked : engineClocked s e.val = true) (runs : (s.engine e.val).ctl.getLsbD 1 = true)
    (zero : (s.engine e.val).timer = 0) :
    Gives (.timerExpiry e) s (fun t => (t.engine e.val).ipend.getLsbD 3 = true ∧
      (t.engine e.val).timer = (s.engine e.val).treload) := by
  have ctl : (s.engineNow e.val).ctl.getLsbD 1 = true := runs
  have timer : (s.engineNow e.val).timer = 0 := zero
  refine gives_occurs (by simp [clocked, ctl, timer]) ?_
  simp only [committed_engine, modEngine_engine, Engine.expire]
  refine ⟨pend_pending _ (by decide), ?_⟩
  split <;> rfl

/-! ### DMA (R240) -/

/-- A request that has been answered waits at no bank. -/
theorem serveFirst_answered {src : Source} {tag : Fin 64} {o : Outst} {ls : List RLine}
    (request : s.outst src tag = some o) (answered : o.resp = some ls) : serveFirst src tag s = s := by
  simp only [serveFirst, request, answered]

theorem countOutcome_keeps {β : Type} {π : State → β} (h : ∀ r i n s, π (bumpStop r i n s) = π s)
    (hdr : ReqHdr) (code n : Nat) (s : State) : π (countOutcome hdr code n s) = π s := by
  unfold countOutcome
  split
  · split
    · rfl
    · exact h ..
  · rfl

/-- The end of a transfer to the Runner: the queued one follows, source 4 pends, and its request is gone (R240). -/
theorem endDma_toRunner {id : Nat} {d : Dma} (active : (s.engine id).dmaActive = some d) (sends : d.toRunner = true)
    (o : Outst) (ls : List RLine) :
    (endDma id o ls s).engine id = ({ s.engine id with
      dmaCode := dmaCodeOf ls, dmaActive := (s.engine id).dmaQueued, dmaQueued := none } : Engine).pend 4 ∧
    (endDma id o ls s).runner.outst = s.runner.outst.filter (fun x => x.id != o.id) := by
  have counted {β : Type} {π : State → β} (h : ∀ r i n s, π (bumpStop r i n s) = π s)
      (u : State) : π (forEach ls (fun l => countOutcome o.hdr l.code.toNat 1) u) = π u :=
    forEach_keeps π ls _ u fun l v => countOutcome_keeps h o.hdr l.code.toNat 1 v
  have engine (u : State) := counted (π := (State.engine · id)) (fun _ _ _ _ => rfl) u
  unfold endDma
  simp only [engine, modRunner_engine, active, sends, if_true, modEngine_engine, modEngine_runner]
  exact ⟨trivial, counted (π := (·.runner.outst)) (fun _ _ _ _ => rfl) _⟩

theorem dmaDone_ends {o : Outst} {ls : List RLine} {d : Dma} (awake : s.awake = true)
    (request : s.outst (.dsp e) 0 = some o) (answered : o.resp = some ls) (active : (s.engine e.val).dmaActive = some d)
    (sends : d.toRunner = true) (steady : domainPaused (s.domain (domainOfRegion (e.val / 32))) = false) :
    Gives (.dmaDone e) s (fun t => (t.engine e.val).dmaActive = (s.engine e.val).dmaQueued ∧
      (t.engine e.val).dmaQueued = none ∧ (t.engine e.val).ipend.getLsbD 4 = true ∧
      (t.engine e.val).dmaCode = dmaCodeOf ls ∧ ∀ x ∈ t.runner.outst, x.id ≠ o.id) := by
  obtain ⟨engine, outst⟩ := endDma_toRunner active sends o ls
  show ∃ t, execDmaDone e s = .next t ∧ _
  simp only [execDmaDone, serveFirst_answered request answered, request, answered]
  refine gives_occurs (by simp [awake, steady]) ?_
  rw [committed_engine, engine, committed_runner, outst]
  exact ⟨rfl, rfl, pend_pending _ (by decide), rfl, by simp⟩

/-! ### The fabric interface (R236, R238) -/

theorem doorbell_pends (connected : engineConnected s e.val = true) (pin : enginePin s e.val 132 = true)
    (edge : (s.engine e.val).bellWas = false) :
    Gives (.doorbell e) s (fun t => (t.engine e.val).ipend.getLsbD 5 = true) := by
  refine gives_occurs (by simp [connected, pin, edge]) ?_
  simp only [committed_engine, modEngine_engine]
  exact pend_pending _ (by decide)

/-- A start that is permitted runs the engine from the address (R242). -/
theorem startEngine_engine (id : Nat) (s : State) : ((startEngine id s).engine id).st = .running ∧
    ((startEngine id s).engine id).pc = (s.engine id).startAddr := by
  simp only [startEngine, useFree_engine, modEngine_engine]
  exact ⟨rfl, rfl⟩

@[simp] theorem dspPermitted_modEngine (id : Nat) (f : Engine → Engine) (s : State) (r : Nat) :
    (modEngine id f s).dspPermitted r = s.dspPermitted r := rfl

/-- A start request of an engine that stands (R242). -/
theorem requestStart_starts {id : Nat} (stopped : (s.engine id).st = .halted ∨ (s.engine id).st = .fault)
    (addr : BitVec 11) :
    if s.dspPermitted (id / 32) = true
      then ((requestStart id addr s).engine id).st = .running ∧ ((requestStart id addr s).engine id).pc = addr
      else ((requestStart id addr s).engine id).st = .pending ∧ ((requestStart id addr s).engine id).startAddr = addr := by
  have request : requestStart id addr s = onlyIf (s.dspPermitted (id / 32)) (startEngine id)
      (modEngine id (fun e => { e with st := .pending, startAddr := addr }) s) := by
    unfold requestStart
    rcases stopped with st | st <;> rw [st] <;> rfl
  rw [request]
  cases s.dspPermitted (id / 32)
  · simp [onlyIf_false]
  · obtain ⟨st, pc⟩ := startEngine_engine id (modEngine id (fun e => { e with st := .pending, startAddr := addr }) s)
    exact ⟨st, pc.trans (by simp)⟩

theorem start_starts (connected : engineConnected s e.val = true) (pin : enginePin s e.val 133 = true)
    (edge : (s.engine e.val).startWas = false) (enabled : (s.engine e.val).ctl.getLsbD 0 = true)
    (halted : (s.engine e.val).st = .halted) :
    Gives (.start e) s (fun t => if s.dspPermitted (e.val / 32) = true
      then (t.engine e.val).st = .running ∧ (t.engine e.val).pc = (s.engine e.val).spc
      else (t.engine e.val).st = .pending ∧ (t.engine e.val).startAddr = (s.engine e.val).spc) := by
  refine gives_occurs (by simp [connected, pin, edge, enabled]) ?_
  simp only [committed_engine]
  exact requestStart_starts (.inl halted) _

theorem streamInputItem_enters {k : Fin 2} {item : BitVec 64} (connected : engineConnected s e.val = true)
    (offered : offers s e.val k item = true) (free : (s.engine e.val).portWait = false)
    (room : ((s.engine e.val).input k).length < 8) :
    Gives (.streamInputItem e k item) s (fun t =>
      (t.engine e.val).input k = (s.engine e.val).input k ++ [item]) := by
  refine gives_occurs (by simp [connected, offered, free, room]) ?_
  simp only [committed_engine, modEngine_engine, Engine.input]
  split <;> rfl

theorem streamOutputItem_leaves {k : Fin 2} {item : BitVec 64} {rest : List (BitVec 64)}
    (connected : engineConnected s e.val = true) (taken : takesItem s e.val k = true)
    (free : (s.engine e.val).portWait = false) (front : (s.engine e.val).output k = item :: rest) :
    Gives (.streamOutputItem e k) s (fun t => (t.engine e.val).output k = rest) := by
  refine gives_occurs (by simp [connected, taken, free, front]) ?_
  simp only [committed_engine, modEngine_engine]
  unfold Engine.output at front ⊢
  split at front <;> simp_all

end

/-- Settles O17. -/
theorem engineEventsComplete : Obligations.EngineEventsComplete := fun _ _ =>
  ⟨interruptEntry_enters, waitiResume_resumes, timerExpiry_expires, fun _ _ _ => dmaDone_ends, doorbell_pends,
    start_starts, fun _ _ => streamInputItem_enters, fun _ _ _ => streamOutputItem_leaves⟩

end Sys2Proof.Machine

/-! The DSP commands (chapter 9, O18), and the one step of a loop that a fact turns on. -/

namespace Sys2Proof.Machine

/-! ### One step of a loop -/

/-- What one step of a fold changes and no other step does is as that step leaves it, from a state in which it was as before
the fold. -/
theorem foldl_once {α β σ : Type} {K : σ → β} {f : σ → α → σ} {x : α}
    (others : ∀ y, y ≠ x → ∀ u, K (f u y) = K u) {l : List α} (mem : x ∈ l) (once : l.Nodup) (s : σ) :
    ∃ u, K u = K s ∧ K (l.foldl f s) = K (f u x) := by
  obtain ⟨before, rest, rfl⟩ := List.append_of_mem mem
  obtain ⟨-, single, apart⟩ := List.nodup_append.mp once
  have keeps (l : List α) (absent : x ∉ l) (u : σ) : K (l.foldl f u) = K u :=
    List.foldlRecOn l _ (motive := fun t => K t = K u) rfl
      fun t same y listed => (others y (fun own => absent (own ▸ listed)) t).trans same
  refine ⟨before.foldl f s, keeps before (fun listed => apart x listed x (by simp) rfl) s, ?_⟩
  rw [List.foldl_append, List.foldl_cons]
  exact keeps rest (List.nodup_cons.mp single).1 _

theorem forEach_once {α β : Type} {K : State → β} {f : α → State → State} {x : α}
    (others : ∀ y, y ≠ x → ∀ u, K (f y u) = K u) {l : List α} (mem : x ∈ l) (once : l.Nodup) (s : State) :
    ∃ u, K u = K s ∧ K (forEach l f s) = K (f x u) :=
  foldl_once (f := fun t y => f y t) others mem once s

theorem forBelow_once {β : Type} {K : State → β} {f : Nat → State → State} {x n : Nat}
    (others : ∀ y, y ≠ x → ∀ u, K (f y u) = K u) (below : x < n) (s : State) :
    ∃ u, K u = K s ∧ K (forBelow n f s) = K (f x u) :=
  forEach_once others (List.mem_range.mpr below) List.nodup_range s

/-! ### `DSP_START` (R242, Table 9.16) -/

theorem requestStart_permitted (id : Nat) (addr : BitVec 11) (s : State) (r : Nat) :
    (requestStart id addr s).dspPermitted r = s.dspPermitted r := by
  unfold requestStart
  split
  · exact onlyIf_shows (π := (State.dspPermitted · r)) rfl
  · exact onlyIf_shows (π := (State.dspPermitted · r)) rfl
  · rfl

theorem requestStart_slot (id : Nat) (addr : BitVec 11) (s : State) (p : Port) (sl : Fin 4) :
    (requestStart id addr s).slot p sl = s.slot p sl := by
  unfold requestStart
  split
  · exact onlyIf_shows (π := (State.slot · p sl)) rfl
  · exact onlyIf_shows (π := (State.slot · p sl)) rfl
  · rfl

/-- The engines that a mask names. -/
def namedEngines (mask : BitVec 32) : List Nat := (List.range 32).filter (fun j => mask.getLsbD j)

theorem mem_namedEngines {mask : BitVec 32} {j : Nat} (below : j < 32) (named : mask.getLsbD j = true) :
    j ∈ namedEngines mask := by
  simp [namedEngines, below, named]

theorem nodup_namedEngines (mask : BitVec 32) : (namedEngines mask).Nodup := List.nodup_range.filter _

/-- Start requests of the engines of a region that a mask names. -/
def startNamed (r : Nat) (mask : BitVec 32) (addr : BitVec 11) (s : State) : State :=
  forEach (namedEngines mask) (fun j => requestStart (32 * r + j) addr) s

theorem startNamed_starts {r j : Nat} {mask : BitVec 32} (below : j < 32) (named : mask.getLsbD j = true) {s : State}
    (stopped : (s.engine (32 * r + j)).st = .halted ∨ (s.engine (32 * r + j)).st = .fault) (addr : BitVec 11) :
    if s.dspPermitted r = true
      then ((startNamed r mask addr s).engine (32 * r + j)).st = .running ∧
        ((startNamed r mask addr s).engine (32 * r + j)).pc = addr
      else ((startNamed r mask addr s).engine (32 * r + j)).st = .pending := by
  have region : (32 * r + j) / 32 = r := by omega
  obtain ⟨u, before, after⟩ := forEach_once
    (K := fun u => (u.engine (32 * r + j), u.dspPermitted r)) (f := fun j => requestStart (32 * r + j) addr)
    (fun y other u => by rw [requestStart_engine_ne (by omega), requestStart_permitted])
    (mem_namedEngines below named) (nodup_namedEngines mask) s
  rw [Prod.mk.injEq] at before after
  have started := requestStart_starts (s := u) (id := 32 * r + j) (by rwa [before.1]) addr
  rw [region, before.2] at started
  show if _ then ((forEach _ _ s).engine _).st = _ ∧ ((forEach _ _ s).engine _).pc = _ else ((forEach _ _ s).engine _).st = _
  rw [after.1]
  split at started
  next permitted => rwa [if_pos permitted]
  next refused => rw [if_neg refused]; exact started.1

/-- The own part of `DSP_START` where its arguments and the region hold. -/
theorem dspStartSpec_starts {q : Req} {s : State} (addr : q.arg 12 2 < 2048) (flags : q.argByte 14 = 0)
    (calm : (s.region q.target).quiescing = false) (steady : (s.region q.target).dragReset = false)
    (power : (s.region q.target).power.low = false) :
    ∃ res, dspStartSpec.body q s =
      (startNamed q.target (BitVec.ofNat 32 (q.arg 8 4)) (BitVec.ofNat 11 (q.arg 12 2)) s, .done stOk res) := by
  simp [dspStartSpec, Nat.not_le.mpr addr, flags, calm, steady, power, onlyIf_false, startNamed, namedEngines]

theorem dspStart_starts {s : State} {p : Port} {sl : Fin 4} {r : Nat} {mask : BitVec 32}
    (target : (s.req p sl).target = r) (names : mask = BitVec.ofNat 32 ((s.req p sl).arg 8 4))
    (granted : Granted dspStartSpec s p sl) (addr : (s.req p sl).arg 12 2 < 2048) (flags : (s.req p sl).argByte 14 = 0)
    (calm : (s.region r).quiescing = false) (steady : (s.region r).dragReset = false)
    (power : (s.region r).power.low = false) (clocked : domainPaused (s.domain (domainOfRegion r)) = false) :
    Gives (.dspStart p sl) s (fun t => (t.slot p sl).st = .done ∧ ∀ j < 32, mask.getLsbD j = true →
      ((s.engine (32 * r + j)).st = .halted ∨ (s.engine (32 * r + j)).st = .fault) →
      if s.dspPermitted r = true then (t.engine (32 * r + j)).st = .running ∧
        (t.engine (32 * r + j)).pc = BitVec.ofNat 11 ((s.req p sl).arg 12 2)
      else (t.engine (32 * r + j)).st = .pending) := by
  subst target names
  have runs : exec (.dspStart p sl) s = runCmd dspStartSpec p sl s := if_neg (by simp [awaitsRelock, clocked])
  obtain ⟨res, body⟩ := dspStartSpec_starts (q := takenReq s p sl) (s := takenState dspStartSpec s p sl)
    (by simpa using addr) (by simpa using flags) (by simpa using calm) (by simpa using steady) (by simpa using power)
  simp only [takenReq_target, takenReq_arg] at body
  have permitted : (takenState dspStartSpec s p sl).dspPermitted (s.req p sl).target =
      s.dspPermitted (s.req p sl).target := by simp [State.dspPermitted]
  have slot := forEach_keeps (State.slot · p sl) (namedEngines (BitVec.ofNat 32 ((s.req p sl).arg 8 4)))
    (fun j => requestStart (32 * (s.req p sl).target + j) (BitVec.ofNat 11 ((s.req p sl).arg 12 2)))
    (takenState dspStartSpec s p sl) fun _ _ => requestStart_slot ..
  show ∃ t, exec (.dspStart p sl) s = .next t ∧ _
  rw [runs]
  refine gives_done granted body slot ⟨(postResponse_committed slot).1, fun j below named stopped => ?_⟩
  simp only [committed_engine, postResponse_engine, ← permitted]
  exact startNamed_starts below named (by simpa using stopped) _

/-! ### `DSP_HALT` (R243, Table 9.17) -/

/-- The engine stands. -/
def Engine.Stands (x : Engine) : Prop := x.st = .halted ∨ x.st = .fault

theorem haltEngine_stands {id : Nat} {s : State} (delay : (s.engine id).delay = 0)
    (fault : (s.engine id).faultDue = false) : ((haltEngine id s).engine id).Stands := by
  unfold haltEngine
  rw [modEngine_engine]
  cases st : (s.engine id).st
  case halted => exact .inl st
  case fault => exact .inr st
  case pending => exact .inl rfl
  case running =>
    left
    simp [Engine.settleStop, delay, fault]

theorem haltEngine_engine_ne {id k : Nat} (h : k ≠ id) (s : State) : (haltEngine id s).engine k = s.engine k :=
  modEngine_engine_ne _ _ _ _ h

/-- Halts of the engines of a region that a mask names. -/
def haltNamed (r : Nat) (mask : BitVec 32) (s : State) : State :=
  forEach (namedEngines mask) (fun j => haltEngine (32 * r + j)) s

theorem haltNamed_stands {r j : Nat} {mask : BitVec 32} (below : j < 32) (named : mask.getLsbD j = true) {s : State}
    (delay : (s.engine (32 * r + j)).delay = 0) (fault : (s.engine (32 * r + j)).faultDue = false) :
    ((haltNamed r mask s).engine (32 * r + j)).Stands := by
  obtain ⟨u, before, after⟩ := forEach_once (K := (State.engine · (32 * r + j)))
    (f := fun j => haltEngine (32 * r + j)) (fun y other u => haltEngine_engine_ne (by omega) u)
    (mem_namedEngines below named) (nodup_namedEngines mask) s
  rw [haltNamed, after]
  exact haltEngine_stands (by rwa [before]) (by rwa [before])

theorem allStopped_iff (r : Nat) (mask : BitVec 32) (s : State) :
    allStopped r mask s = true ↔ ∀ j < 32, mask.getLsbD j = true → (s.engine (32 * r + j)).Stands := by
  simp only [allStopped, List.all_eq_true, List.mem_range, Bool.or_eq_true, Bool.not_eq_true', Engine.Stands]
  refine forall₂_congr fun j below => ?_
  cases mask.getLsbD j <;> cases (s.engine (32 * r + j)).st <;> simp

/-- The answer of a halt. -/
def HaltJob.results (j : HaltJob) : Results := [(16, 4, j.halted.toNat), (20, 4, j.cancelled.toNat)]

/-- A further halt of a region. -/
def addHalt (r : Nat) (j : HaltJob) (s : State) : State :=
  modRegion r (fun x => { x with haltJobs := x.haltJobs ++ [j] }) s

/-- The one halt of a region is answered at once where its engines stand. -/
theorem settleHalts_addHalt {r : Nat} {j : HaltJob} {s : State} (jobs : (s.region r).haltJobs = [])
    (stands : allStopped r j.mask s = true) : settleHalts r (addHalt r j s) =
      reply j.waiter stOk j.results (modRegion r (fun x => { x with haltJobs := [] }) (addHalt r j s)) := by
  have one : ((addHalt r j s).region r).haltJobs = [j] := by simp [addHalt, jobs]
  have all : allStopped r j.mask (addHalt r j s) = true := stands
  simp [settleHalts, one, all, forEach, HaltJob.results]

theorem haltNamed_keeps {β : Type} (π : State → β) (keeps : ∀ id f u, π (modEngine id f u) = π u) (r : Nat)
    (mask : BitVec 32) (s : State) : π (haltNamed r mask s) = π s :=
  forEach_keeps π _ _ _ fun _ _ => keeps ..

/-- The own part of `DSP_HALT` in a region that is awake: it answers at once where nothing holds its engines back. -/
theorem dspHaltSpec_halts {q : Req} {s : State} {mask : BitVec 32} (names : mask = BitVec.ofNat 32 (q.arg 8 4))
    (power : (s.region q.target).power.low = false) (jobs : (s.region q.target).haltJobs = [])
    (steady : ∀ j < 32, mask.getLsbD j = true →
      (s.engine (32 * q.target + j)).delay = 0 ∧ (s.engine (32 * q.target + j)).faultDue = false) :
    ∃ res u, dspHaltSpec.body q s = (reply q.waiter stOk res u, .wait) ∧ (∀ p sl, u.slot p sl = s.slot p sl) ∧
      u.tick = s.tick ∧ ∀ j < 32, mask.getLsbD j = true → (u.engine (32 * q.target + j)).Stands := by
  have stands (j) (below : j < 32) (named : mask.getLsbD j = true) :
      ((haltNamed q.target mask s).engine (32 * q.target + j)).Stands :=
    haltNamed_stands below named (steady j below named).1 (steady j below named).2
  have slot (p sl) := haltNamed_keeps (State.slot · p sl) (fun _ _ _ => rfl) q.target mask s
  have tick := haltNamed_keeps State.tick (fun _ _ _ => rfl) q.target mask s
  have region := haltNamed_keeps (State.region · q.target) (fun _ _ _ => rfl) q.target mask s
  have settles (halted cancelled) := settleHalts_addHalt (j := ⟨mask, halted, cancelled, q.waiter⟩)
    (by rw [region, jobs]) ((allStopped_iff q.target mask _).mpr stands)
  have body : ∃ halted cancelled, dspHaltSpec.body q s =
      (settleHalts q.target (addHalt q.target ⟨mask, halted, cancelled, q.waiter⟩ (haltNamed q.target mask s)), .wait) := by
    simp only [dspHaltSpec, power, Bool.false_eq_true, if_false, names]
    exact ⟨_, _, rfl⟩
  obtain ⟨halted, cancelled, body⟩ := body
  refine ⟨_, _, body.trans (congrArg (·, _) (settles halted cancelled)), fun p sl => ?_, ?_, fun j below named => ?_⟩
  · exact (slot_of_ports (s := haltNamed q.target mask s) (by simp [addHalt]) p sl).trans (slot p sl)
  · simp [addHalt, tick]
  · rw [engine_congr (s := haltNamed q.target mask s) (by simp [addHalt])]
    exact stands j below named

theorem dspHalt_halts {s : State} {p : Port} {sl : Fin 4} {r : Nat} {mask : BitVec 32}
    (target : (s.req p sl).target = r) (names : mask = BitVec.ofNat 32 ((s.req p sl).arg 8 4))
    (granted : Granted dspHaltSpec s p sl) (clocked : domainPaused (s.domain (domainOfRegion r)) = false)
    (power : (s.region r).power.low = false) (jobs : (s.region r).haltJobs = [])
    (steady : ∀ j < 32, mask.getLsbD j = true →
      (s.engine (32 * r + j)).delay = 0 ∧ (s.engine (32 * r + j)).faultDue = false) :
    Gives (.dspHalt p sl) s (fun t => (t.slot p sl).st = .done ∧ ∀ j < 32, mask.getLsbD j = true →
      (t.engine (32 * r + j)).st = .halted ∨ (t.engine (32 * r + j)).st = .fault) := by
  subst target
  have runs : exec (.dspHalt p sl) s = runCmd dspHaltSpec p sl s := if_neg (by simp [awaitsRelock, clocked])
  obtain ⟨res, u, body, slot, tick, stands⟩ := dspHaltSpec_halts (q := takenReq s p sl)
    (s := takenState dspHaltSpec s p sl) (by simpa using names) (by simpa using power) (by simpa using jobs)
    (by simpa using steady)
  show ∃ t, exec (.dspHalt p sl) s = .next t ∧ _
  rw [runs]
  refine gives_wait granted body ⟨(answered_reply (slot p sl) (by simp [tick])).1, fun j below named => ?_⟩
  simpa [Engine.Stands] using stands j below named

/-! ### `DSP_STATUS` (Table 9.18) -/

/-- What `DSP_STATUS` reports of an engine of a region. -/
def statusResults (r j : Nat) (s : State) : Results :=
  let e := s.engineNow (32 * r + j)
  [(16, 1, e.st.code), (17, 1, e.istat.toNat), (18, 2, e.pc.toNat), (20, 1, e.stat.toNat), (21, 1, e.pendNow.toNat),
    (22, 1, e.imask.toNat), (23, 1, e.lctl.toNat), (24, 8, e.cycle.toNat), (32, 4, e.stalls), (36, 4, e.corrected),
    (40, 4, engineMask r (BitVec.allOnes 32) (fun x => decide (x = .running)) s),
    (44, 1, (s.domain (domainOfRegion r)).point)]

theorem statusResults_congr {s u : State} (dsp : u.dsp = s.dsp) (tick : u.tick = s.tick) (domains : u.domains = s.domains)
    (r j : Nat) : statusResults r j u = statusResults r j s := by
  have engine (k) : u.engine k = s.engine k := engine_congr dsp k
  simp only [statusResults, State.engineNow, engineMask, State.domain, engine, tick, domains]

theorem dspStatusSpec_reports {q : Req} {s : State} (engine : q.argByte 8 < 32)
    (power : (s.region q.target).power.deep = false) :
    dspStatusSpec.body q s = (s, .done stOk (statusResults q.target (q.argByte 8) s)) := by
  simp only [dspStatusSpec, Nat.not_le.mpr engine, power, Bool.false_eq_true, if_false]
  rfl

theorem dspStatus_reports {s : State} {p : Port} {sl : Fin 4} {r j : Nat} (target : (s.req p sl).target = r)
    (granted : Granted dspStatusSpec s p sl) (names : (s.req p sl).argByte 8 = j) (below : j < 32)
    (power : (s.region r).power.deep = false) :
    Gives (.dspStatus p sl) s (fun t => t.dsp = s.dsp ∧ Answered s t p sl stOk (statusResults r j s)) := by
  have body := dspStatusSpec_reports (q := takenReq s p sl) (s := takenState dspStatusSpec s p sl)
    (by simpa [names] using below) (by simpa [target] using power)
  rw [takenReq_target, takenReq_argByte, target, names,
    statusResults_congr (takenState_dsp ..) (takenState_tick ..) (takenState_domains ..)] at body
  exact gives_done granted body rfl ⟨by simp, answered_committed rfl (by simp)⟩

/-- Settles O18: the commands act on each engine that the mask names once, and leave the state while the domain's PLL relocks
(R251). -/
theorem dspCommandsComplete : Obligations.DspCommandsComplete := by
  intro s p sl r mask target names
  refine ⟨dspStart_starts target names, dspHalt_halts target names, fun paused => ?_,
    fun j granted engine below power => ?_⟩
  · have waits : awaitsRelock p sl s = true := by rwa [awaitsRelock, target]
    exact ⟨if_pos waits, if_pos waits⟩
  · refine gives_imp (dspStatus_reports target granted engine below power) fun t ⟨dsp, answer⟩ => ⟨dsp, ?_⟩
    rintro e rfl
    exact answer

end Sys2Proof.Machine

/-! Sensors (chapter 17, O19): a sample's counts, the thresholds and the shutdown. -/

namespace Sys2Proof.Machine

/-! ### The counts of a sample (R445 to R447) -/

/-- Each entry of a table changed once. -/
theorem tget_foldl_tmod {α : Type} [DecidableEq α] (d : α) (f : Nat → α → α) (t : Table α) {n i : Nat} (below : i < n) :
    tget d ((List.range n).foldl (fun u j => tmod d u j (f j)) t) i = f i (tget d t i) := by
  obtain ⟨u, before, after⟩ := foldl_once (K := fun u => tget d u i) (f := fun u j => tmod d u j (f j))
    (fun j other u => tget_tmod_ne d u j i (f j) (Ne.symm other)) (List.mem_range.mpr below) List.nodup_range t
  rw [after, tget_tmod_same, before]

theorem Sensor.check_raw (x : Sensor) (prev : Int) (near : List Int) : (x.check prev near).raw = x.raw := by
  unfold Sensor.check
  dsimp only
  repeat' split
  all_goals rfl

theorem Sensor.check_hot (x : Sensor) (prev : Int) (near : List Int) :
    (x.check prev near).hot = if 500 ≤ x.raw then x.hot + 1 else 0 := by
  unfold Sensor.check
  dsimp only
  repeat' split
  all_goals rfl

/-- A sensor after a sample: its reading is the sampled one, checked against its neighbours. -/
theorem checkSensors_sensor (raw : List Int) (t : ThermSt) {i : Nat} (below : i < 144) :
    ∃ near, (checkSensors raw t).sensor i = ({ t.sensor i with raw := raw.getD i 0 } : Sensor).check (t.sensor i).raw near := by
  unfold checkSensors
  dsimp only [ThermSt.sensor]
  rw [tget_foldl_tmod _ _ _ below, tget_foldl_tmod _ _ _ below]
  exact ⟨_, rfl⟩

theorem checkSensors_raw (raw : List Int) (t : ThermSt) {i : Nat} (below : i < 144) :
    ((checkSensors raw t).sensor i).raw = raw.getD i 0 := by
  obtain ⟨near, after⟩ := checkSensors_sensor raw t below
  rw [after, Sensor.check_raw]

theorem checkSensors_hot (raw : List Int) (t : ThermSt) {i : Nat} (below : i < 144) (hot : 500 ≤ raw.getD i 0) :
    ((checkSensors raw t).sensor i).hot = (t.sensor i).hot + 1 := by
  obtain ⟨near, after⟩ := checkSensors_sensor raw t below
  rw [after, Sensor.check_hot]
  exact if_pos hot

/-! ### Thresholds and shutdown (R448 to R452) -/

/-- The thresholds after a sample. -/
def settled (s : State) : State := settleThrottle (settleWarning (settleColumns s))

/-- A sample and its events, before the thresholds and the shutdown. -/
def counted (raw : List Int) (s : State) : State :=
  let u := modTherm (checkSensors raw) s
  forEach ((List.range 144).filter (fun i => (u.therm.sensor i).broken && !(s.therm.sensor i).broken))
    (fun i => sensorEvent i 2) u

/-- Every sensor that is not broken reads at most 95 °C. -/
def ThermSt.cool (t : ThermSt) : Bool :=
  (List.range 144).all (fun i => (t.sensor i).broken || decide ((t.sensor i).raw ≤ 380))

section
variable {raw : List Int} {s u : State} (after : settled (counted raw s) = u)
include after

theorem sampleSensors_cooldown (cooldown : u.dev.cooldown = true) : sampleSensors raw s =
    modTherm (fun t => { t with coolRun := if u.therm.cool then t.coolRun + 1 else 0 }) u := by
  simp only [settled, counted] at after
  simp only [sampleSensors, ThermSt.cool, after, cooldown, if_true]
  rfl

theorem sampleSensors_shutdown (active : u.dev.cooldown = false) {i : Nat} (hot : u.therm.shutdownBy = some i) :
    sampleSensors raw s = shutdown i (s.therm.sensor i).raw u := by
  simp only [settled, counted] at after
  simp only [sampleSensors, after, active, hot, Bool.false_eq_true, if_false]

theorem sampleSensors_quiet (active : u.dev.cooldown = false) (quiet : u.therm.shutdownBy = none) :
    sampleSensors raw s = u := by
  simp only [settled, counted] at after
  simp only [sampleSensors, after, active, quiet, Bool.false_eq_true, if_false]

end

@[simp] theorem sensorEvent_therm (i sev : Nat) (s : State) : (sensorEvent i sev s).therm = s.therm := by simp [sensorEvent]
@[simp] theorem sensorEvent_dev (i sev : Nat) (s : State) : (sensorEvent i sev s).dev = s.dev := by simp [sensorEvent]

@[simp] theorem settleColumns_dev (s : State) : (settleColumns s).dev = s.dev := by simp [settleColumns]
@[simp] theorem settleWarning_dev (s : State) : (settleWarning s).dev = s.dev := by
  unfold settleWarning
  dsimp only
  repeat' split
  all_goals simp
@[simp] theorem settleThrottle_dev (s : State) : (settleThrottle s).dev = s.dev := by simp [settleThrottle]

theorem settleColumns_therm (s : State) : (settleColumns s).therm = { s.therm with forcedCols := s.therm.forced } := by
  simp [settleColumns]

theorem settleWarning_therm (s : State) : ∃ w, (settleWarning s).therm = { s.therm with warning := w } := by
  unfold settleWarning
  dsimp only
  repeat' split
  · exact ⟨true, by simp⟩
  · exact ⟨false, by simp⟩
  · exact ⟨s.therm.warning, rfl⟩

theorem settleThrottle_therm (s : State) : ∃ d, (settleThrottle s).therm = { s.therm with throttleDue := d } := ⟨_, rfl⟩

theorem settled_therm (s : State) : ∃ c w d,
    (settled s).therm = { s.therm with forcedCols := c, warning := w, throttleDue := d } := by
  obtain ⟨w, warning⟩ := settleWarning_therm (settleColumns s)
  obtain ⟨d, throttle⟩ := settleThrottle_therm (settleWarning (settleColumns s))
  exact ⟨_, w, d, by rw [settled, throttle, warning, settleColumns_therm]⟩

theorem counted_therm (raw : List Int) (s : State) : (counted raw s).therm = checkSensors raw s.therm := by
  simp [counted]

theorem settled_counted_dev (raw : List Int) (s : State) : (settled (counted raw s)).dev = s.dev := by
  simp [settled, counted]

theorem settled_counted_sensors (raw : List Int) (s : State) :
    (settled (counted raw s)).therm.sensors = (checkSensors raw s.therm).sensors := by
  obtain ⟨c, w, d, therm⟩ := settled_therm (counted raw s)
  rw [therm, counted_therm]

theorem settled_counted_coolRun (raw : List Int) (s : State) :
    (settled (counted raw s)).therm.coolRun = s.therm.coolRun := by
  obtain ⟨c, w, d, therm⟩ := settled_therm (counted raw s)
  simp only [therm, counted_therm, checkSensors]

@[simp] theorem darkLanes_therm (s : State) : (darkLanes s).therm = s.therm :=
  (same_darkLanes (part := .therm) (s₀ := s) (by decide)).mpr rfl

@[simp] theorem darkLanes_dev (s : State) : (darkLanes s).dev = s.dev := by
  unfold darkLanes
  refine forEach_keeps State.dev _ _ _ fun e u => ?_
  split <;> simp

theorem shutdown_therm (i : Nat) (prev : Int) (s : State) :
    (shutdown i prev s).therm = { s.therm with coolRun := 0 } := by
  simp [shutdown]

theorem shutdown_cooldown (i : Nat) (prev : Int) (s : State) : (shutdown i prev s).dev.cooldown = true := by
  simp [shutdown]

theorem shutdown_thermN (i : Nat) (prev : Int) (s : State) : (shutdown i prev s).dev.thermN = true := by
  simp [shutdown]

/-! ### The sample as a whole -/

theorem ThermSt.sensor_congr {t u : ThermSt} (same : t.sensors = u.sensors) (i : Nat) : t.sensor i = u.sensor i := by
  rw [ThermSt.sensor, same, ThermSt.sensor]

theorem sampleSensors_sensors (raw : List Int) (s : State) :
    (sampleSensors raw s).therm.sensors = (checkSensors raw s.therm).sensors := by
  have sensors := settled_counted_sensors raw s
  generalize after : settled (counted raw s) = u at sensors
  cases cooldown : u.dev.cooldown with
  | true => rw [sampleSensors_cooldown after cooldown, modTherm_therm, ← sensors]
  | false =>
    cases hot : u.therm.shutdownBy with
    | some i => rw [sampleSensors_shutdown after cooldown hot, shutdown_therm, ← sensors]
    | none => rw [sampleSensors_quiet after cooldown hot, sensors]

theorem sampleSensors_coolRun {raw : List Int} {s : State} (cooldown : s.dev.cooldown = true)
    (cool : ∀ i < 144, raw.getD i 0 ≤ 380) : (sampleSensors raw s).therm.coolRun = s.therm.coolRun + 1 := by
  have sensors := settled_counted_sensors raw s
  have dev := settled_counted_dev raw s
  have run := settled_counted_coolRun raw s
  generalize after : settled (counted raw s) = u at sensors dev run
  have all : u.therm.cool = true := by
    rw [ThermSt.cool, List.all_eq_true]
    intro i listed
    have below := List.mem_range.mp listed
    rw [ThermSt.sensor_congr sensors, checkSensors_raw raw _ below, decide_eq_true (cool i below), Bool.or_true]
  rw [sampleSensors_cooldown after (by rw [dev, cooldown]), modTherm_therm]
  show (if u.therm.cool = true then u.therm.coolRun + 1 else 0) = _
  rw [if_pos all, run]

theorem shutdownBy_isSome {t : ThermSt} {i : Nat} (below : i < 144) (valid : (t.sensor i).broken = false)
    (hot : 2 ≤ (t.sensor i).hot) : t.shutdownBy.isSome = true := by
  rw [ThermSt.shutdownBy, List.find?_isSome]
  exact ⟨i, List.mem_range.mpr below, by simp [valid, hot]⟩

theorem sampleSensors_hot {raw : List Int} {s : State} {i : Nat} (below : i < 144) (active : s.dev.cooldown = false)
    (before : 1 ≤ (s.therm.sensor i).hot) (hot : 500 ≤ raw.getD i 0)
    (valid : ((sampleSensors raw s).therm.sensor i).broken = false) :
    (sampleSensors raw s).dev.cooldown = true ∧ (sampleSensors raw s).dev.thermN = true := by
  rw [ThermSt.sensor_congr (sampleSensors_sensors raw s)] at valid
  have sensor := ThermSt.sensor_congr (settled_counted_sensors raw s) i
  have dev := settled_counted_dev raw s
  generalize after : settled (counted raw s) = u at sensor dev
  have named : u.therm.shutdownBy.isSome = true :=
    shutdownBy_isSome below ((congrArg Sensor.broken sensor).trans valid)
      (by rw [sensor, checkSensors_hot raw _ below hot]; exact Nat.succ_le_succ before)
  obtain ⟨j, named⟩ := Option.isSome_iff_exists.mp named
  rw [sampleSensors_shutdown after (by rw [dev, active]) named]
  exact ⟨shutdown_cooldown .., shutdown_thermN ..⟩

theorem sensorSample_counts {s : State} (raw : List Int) (on : s.dev.base ≠ .off) (awake : s.dev.base ≠ .standby) :
    Gives (.sensorSample raw) s (fun t => (∀ i < 144, (t.therm.sensor i).raw = raw.getD i 0) ∧
      (s.dev.cooldown = true → (∀ i < 144, raw.getD i 0 ≤ 380) → t.therm.coolRun = s.therm.coolRun + 1) ∧
      (∀ i < 144, s.dev.cooldown = false → 1 ≤ (s.therm.sensor i).hot → 500 ≤ raw.getD i 0 →
        (t.therm.sensor i).broken = false → t.dev.cooldown = true ∧ t.dev.thermN = true)) := by
  show ∃ t, execSensorSample raw s = .next t ∧ _
  unfold execSensorSample
  refine gives_occurs (by simp [on, awake]) ?_
  simp only [committed_therm, committed_dev_cooldown, committed_dev_thermN]
  refine ⟨fun i below => ?_, sampleSensors_coolRun, fun i below active before hot valid =>
    sampleSensors_hot below active before hot valid⟩
  rw [ThermSt.sensor_congr (sampleSensors_sensors raw s), checkSensors_raw raw _ below]

end Sys2Proof.Machine

/-! The governor, the plan and the measurement of ageing (chapter 17, O19). -/

namespace Sys2Proof.Machine

/-! ### The chill governor (R453, R454) -/

theorem modGovern_govern (r : Nat) (f : Govern → Govern) (s : State) : (modGovern r f s).govern r = f (s.govern r) :=
  tget_tmod_same ..

theorem modGovern_govern_ne {r k : Nat} (h : k ≠ r) (f : Govern → Govern) (s : State) :
    (modGovern r f s).govern k = s.govern k := tget_tmod_ne _ _ _ _ _ h

theorem State.govern_congr {s u : State} (therm : u.therm = s.therm) (r : Nat) : u.govern r = s.govern r := by
  rw [State.govern, therm, State.govern]

theorem energyOf_modGovern (r : Nat) (f : Govern → Govern) (s : State) : energyOf (modGovern r f s) = energyOf s := rfl

/-- The energies of a region in one microsecond. -/
def energyIn (energy : Activity → Nat × Nat) (r : Nat) (activity : List Activity) : Nat × Nat :=
  activity.foldl (fun n a => if a.region.val = r then (n.1 + (energy a).1, n.2 + (energy a).2) else n) (0, 0)

theorem governorEstimate_estimates {s : State} (activity : List Activity) (awake : s.awake = true) :
    Gives (.governorEstimate activity) s (fun t => ∀ r < 64,
      t.govern r = (s.govern r).estimate (energyIn (energyOf s) r activity)) := by
  show ∃ t, execGovernorEstimate activity s = .next t ∧ _
  unfold execGovernorEstimate
  refine gives_occurs awake fun r below => ?_
  obtain ⟨u, before, after⟩ := forBelow_once (K := fun u => (u.govern r, energyOf u))
    (f := fun r u => modGovern r (fun g => g.estimate (energyIn (energyOf u) r activity)) u)
    (fun y other u => Prod.ext (modGovern_govern_ne (Ne.symm other) ..) (energyOf_modGovern ..)) below s
  rw [Prod.mk.injEq] at before after
  rw [State.govern_congr (committed_therm ..)]
  refine after.1.trans ?_
  rw [modGovern_govern, before.1, before.2]

theorem evaluateRegion_govern_ne {r k : Nat} (h : k ≠ r) (s : State) : (evaluateRegion r s).govern k = s.govern k := by
  have other (f : Govern → Govern) (u : State) (ev : EvRec) : (raiseLimited ev [] (modGovern r f u)).govern k = u.govern k :=
    (State.govern_congr (raiseLimited_therm ..) k).trans (modGovern_govern_ne h f u)
  unfold evaluateRegion
  dsimp only
  repeat' split
  · rfl
  · exact other ..
  all_goals exact modGovern_govern_ne h ..

theorem evaluateRegion_unlimited {r : Nat} {s : State} (unlimited : (s.govern r).budget = none) : evaluateRegion r s = s := by
  simp only [evaluateRegion, unlimited]

theorem evaluateRegion_over {r b : Nat} {s : State} (limit : (s.govern r).budget = some b)
    (exceeded : budgetEnergy b < (s.govern r).power) : (evaluateRegion r s).govern r =
      { s.govern r with divided := true, withheld := true, okCount := 0
                        actions := satAdd 4294967295 (s.govern r).actions 1 } := by
  simp only [evaluateRegion, limit, exceeded, if_true]
  rw [State.govern_congr (modEnv_therm ..), State.govern_congr (raiseLimited_therm ..), modGovern_govern, limit]

theorem governorEvaluate_evaluates {s : State} (awake : s.awake = true) :
    Gives .governorEvaluate s (fun t => ∀ r < 64, ((s.govern r).budget = none → t.govern r = s.govern r) ∧
      ∀ b, (s.govern r).budget = some b → budgetEnergy b < (s.govern r).power →
        (t.govern r).divided = true ∧ (t.govern r).withheld = true ∧
        (t.govern r).actions = min 4294967295 ((s.govern r).actions + 1)) := by
  show ∃ t, execGovernorEvaluate s = .next t ∧ _
  unfold execGovernorEvaluate
  refine gives_occurs awake fun r below => ?_
  obtain ⟨u, before, after⟩ := forBelow_once (K := (State.govern · r)) (f := evaluateRegion)
    (fun y other u => evaluateRegion_govern_ne (Ne.symm other) u) below s
  rw [State.govern_congr (committed_therm ..), after, ← before]
  refine ⟨fun unlimited => by rw [evaluateRegion_unlimited unlimited], fun b limit exceeded => ?_⟩
  rw [evaluateRegion_over limit exceeded]
  exact ⟨rfl, rfl, rfl⟩

/-! ### The plan (R250, R457 to R459) -/

/-- What a domain takes up next changes its sequencer and the clock switches, not its plan. -/
theorem domainNext_keeps {β : Type} (π : State → β) (switch : ∀ sw b u, π (beginSwitch sw b u) = π u)
    (sequencer : ∀ d f u, (∀ y : Domain, (f y).plan = y.plan ∧ (f y).withdrawn = y.withdrawn) →
      π (modDomain d f u) = π u) (d : Nat) (s : State) : π (domainNext d s) = π s := by
  have start (p u) : π (startPoint d p u) = π u := by
    unfold startPoint
    dsimp only
    split
    · rfl
    · exact (onlyIf_shows (switch ..)).trans (sequencer d _ u fun _ => ⟨rfl, rfl⟩)
  unfold domainNext
  dsimp only
  repeat' split
  · rfl
  · exact start ..
  · exact (start ..).trans (sequencer d _ s fun _ => ⟨rfl, rfl⟩)
  · exact (start ..).trans (sequencer d _ s fun _ => ⟨rfl, rfl⟩)
  · exact sequencer d _ s fun _ => ⟨rfl, rfl⟩
  · rfl

/-- The planned voltages of a domain and its withdrawn points. -/
def State.planOf (s : State) (d : Nat) : List Nat × List Bool := ((s.domain d).plan, (s.domain d).withdrawn)

theorem State.planOf_congr {s u : State} (domains : u.domains = s.domains) (d : Nat) : u.planOf d = s.planOf d := by
  simp only [State.planOf, State.domain, domains]

theorem modDomain_planOf_ne {d e : Nat} (h : d ≠ e) (f : Domain → Domain) (s : State) :
    (modDomain e f s).planOf d = s.planOf d := by
  simp only [State.planOf, modDomain_domain_ne (h := h)]

theorem domainNext_planOf (e d : Nat) (s : State) : (domainNext e s).planOf d = s.planOf d := by
  refine domainNext_keeps (State.planOf · d) (fun _ _ _ => rfl) (fun k f u keeps => ?_) e s
  by_cases own : d = k
  · subst own
    simp only [State.planOf, modDomain_domain, keeps]
  · exact modDomain_planOf_ne own f u

theorem planDomain_planOf (d : Nat) (volts : List Nat) (s : State) :
    (planDomain d volts s).planOf d = (volts.map (min 9000), volts.map (fun v => decide (9000 < v))) := by
  unfold planDomain
  rw [domainNext_planOf, State.planOf, modDomain_domain]

theorem planDomain_planOf_ne {d e : Nat} (h : d ≠ e) (volts : List Nat) (s : State) :
    (planDomain e volts s).planOf d = s.planOf d := by
  unfold planDomain
  rw [domainNext_planOf, modDomain_planOf_ne h]
  exact forBelow_keeps (State.planOf · d) _ _ _ fun p u =>
    onlyIf_shows (π := (State.planOf · d)) (State.planOf_congr (raise_domains ..) d)

theorem planDomain_copePlan (d : Nat) (volts : List Nat) (s : State) :
    (planDomain d volts s).clk.copePlan = s.clk.copePlan := by
  unfold planDomain
  rw [domainNext_keeps (fun u => u.clk.copePlan) (fun sw _ _ => by cases sw <;> rfl) (fun _ _ _ _ => rfl)]
  exact congrArg ClkSt.copePlan (forBelow_keeps State.clk _ _ _ fun p u => onlyIf_shows (raise_clk ..))

theorem planDomain_therm (d : Nat) (volts : List Nat) (s : State) : (planDomain d volts s).therm = s.therm :=
  (same_planDomain (part := .therm) (s₀ := s) (by decide) d volts).mpr rfl

/-- Takes the planned voltages of every domain. -/
def planDomains (volts : Nat → List Nat) (s : State) : State := forBelow 4 (fun d => planDomain d (volts d)) s

theorem planDomains_planOf (volts : Nat → List Nat) (s : State) {d : Nat} (below : d < 4) :
    (planDomains volts s).planOf d = ((volts d).map (min 9000), (volts d).map (fun v => decide (9000 < v))) := by
  obtain ⟨u, -, after⟩ := forBelow_once (K := (State.planOf · d)) (f := fun d => planDomain d (volts d))
    (fun e other u => planDomain_planOf_ne (Ne.symm other) (volts e) u) below s
  exact after.trans (planDomain_planOf ..)

theorem planDomains_copePlan (volts : Nat → List Nat) (s : State) :
    (planDomains volts s).clk.copePlan = s.clk.copePlan :=
  forBelow_keeps (fun u => u.clk.copePlan) _ _ _ fun _ _ => planDomain_copePlan ..

theorem planDomains_therm (volts : Nat → List Nat) (s : State) : (planDomains volts s).therm = s.therm :=
  forBelow_keeps State.therm _ _ _ fun _ _ => planDomain_therm ..

/-- The planned offset of `VCC_COPE` and the maxima of the regions that a new plan makes due. -/
def planOffset (offset : Nat) (due : ThermSt → Table Nat) (s : State) : State :=
  modTherm (fun t => { t with planDue := due t })
    (modClk (fun k => { k with copePlan := offset }) (modEnv (fun e => { e with freeCtr := e.freeCtr + 81 }) s))

/-- The parts of a new plan. -/
theorem rePlan_eq (s : State) : ∃ base guard due volts changed ev,
    rePlan s = onlyIf changed (raise ev) (planDomains volts (planOffset (copeOf (5 * (base % 13)) guard).1 due s)) := by
  simp only [rePlan, planDomains, planOffset]
  exact ⟨_, _, _, _, _, _, rfl⟩

theorem rePlan_therm (s : State) : ∃ due, (rePlan s).therm = { s.therm with planDue := due } := by
  obtain ⟨base, guard, due, volts, changed, ev, parts⟩ := rePlan_eq s
  rw [parts, onlyIf_shows (raise_therm ..), planDomains_therm]
  exact ⟨_, rfl⟩

theorem copeOf_offset (n : Nat) (guard : Bool) : (copeOf (5 * n) guard).1 ≤ 60 ∧ (copeOf (5 * n) guard).1 % 5 = 0 := by
  cases guard <;> simp [copeOf] <;> omega

theorem rePlan_copePlan (s : State) : (rePlan s).clk.copePlan ≤ 60 ∧ (rePlan s).clk.copePlan % 5 = 0 := by
  obtain ⟨base, guard, due, volts, changed, ev, parts⟩ := rePlan_eq s
  have offset : (rePlan s).clk.copePlan = (copeOf (5 * (base % 13)) guard).1 := by
    rw [parts, onlyIf_shows (raise_clk ..), planDomains_copePlan]
    rfl
  rw [offset]
  exact copeOf_offset ..

/-- No planned voltage is above 0.90 V, and a point that needs more is withdrawn (R250). -/
theorem plannedVolts (volts : List Nat) (k : Nat) : lget 0 (volts.map (min 9000)) k ≤ 9000 ∧
    (lget false (volts.map fun v => decide (9000 < v)) k = true → lget 0 (volts.map (min 9000)) k = 9000) := by
  induction volts generalizing k with
  | nil => cases k <;> simp [lget]
  | cons v volts ih =>
    cases k with
    | zero => simp [lget]; omega
    | succ k => exact ih k

theorem planUpdate_plans {s : State} (firmware : s.firmware = true) :
    Gives .planUpdate s (fun t => t.clk.copePlan ≤ 60 ∧ t.clk.copePlan % 5 = 0 ∧
      ∀ d < 4, ∀ k < 4, lget 0 (t.domain d).plan k ≤ 9000 ∧
        (lget false (t.domain d).withdrawn k = true → lget 0 (t.domain d).plan k = 9000)) := by
  show ∃ t, execPlanUpdate s = .next t ∧ _
  unfold execPlanUpdate
  refine gives_occurs firmware ?_
  obtain ⟨limit, steps⟩ := rePlan_copePlan s
  obtain ⟨base, guard, due, volts, changed, ev, parts⟩ := rePlan_eq s
  rw [committed_clk]
  refine ⟨limit, steps, fun d below k _ => ?_⟩
  have plan : (committed s (rePlan s)).planOf d = _ := (State.planOf_congr (committed_domains ..) d).trans
    ((congrArg (State.planOf · d) parts).trans ((State.planOf_congr (onlyIf_shows (raise_domains ..)) d).trans
      (planDomains_planOf volts _ below)))
  rw [State.planOf, Prod.mk.injEq] at plan
  obtain ⟨plan, withdrawn⟩ := plan
  rw [plan, withdrawn]
  exact plannedVolts ..

/-! ### The measurement of ageing (R455) -/

/-- The records of the regions after a measurement. -/
def measured (ratios : List (Fin 64 × List Nat)) (s : State) : Table Measure :=
  ratios.foldl (fun u x => tset {} u x.1.val
    { ratios := x.2, slacks := (List.range 8).map (fun k => tget none s.therm.minSlack (8 * x.1.val + k)) }) s.therm.measures

/-- A measurement changes its records, and with the guard band the plan that is due (R459). -/
theorem recordMeasurement_therm (ratios : List (Fin 64 × List Nat)) (s : State) : ∃ guard due,
    (recordMeasurement ratios s).therm =
      { s.therm with measures := measured ratios s, measureCount := satAdd 65535 s.therm.measureCount 1, minSlack := []
                     guardBand := guard, planDue := due } := by
  unfold recordMeasurement measured
  dsimp only
  split
  · obtain ⟨due, therm⟩ := rePlan_therm _
    rw [therm, raise_therm]
    exact ⟨false, due, rfl⟩
  · exact ⟨_, _, rfl⟩

theorem ageingMeasurement_records {s : State} (ratios : List (Fin 64 × List Nat)) (firmware : s.firmware = true) :
    Gives (.ageingMeasurement ratios) s (fun t => t.therm.measureCount = min 65535 (s.therm.measureCount + 1) ∧
      t.therm.minSlack = [] ∧ ∀ r l, ratios = [(r, l)] → (tget {} t.therm.measures r.val).ratios = l) := by
  show ∃ t, execAgeingMeasurement ratios s = .next t ∧ _
  unfold execAgeingMeasurement
  refine gives_occurs firmware ?_
  obtain ⟨guard, due, therm⟩ := recordMeasurement_therm ratios s
  rw [committed_therm, therm]
  refine ⟨rfl, rfl, fun r l one => ?_⟩
  subst one
  exact congrArg Measure.ratios (tget_tset_same ..)

end Sys2Proof.Machine

/-! The thermal and ageing commands (chapter 17, O19). -/

namespace Sys2Proof.Machine

/-! ### `THERM_CONFIG` (Table 17.7) -/

theorem setDeviceTherm_sets {q : Req} {s : State} {w h : Nat} (warn : q.argByte 8 = w) (throttle : q.argByte 9 = h)
    (warnLow : 60 ≤ w) (warnHigh : w ≤ 115) (low : 70 ≤ h) (high : h ≤ 120) (apart : w + 10 ≤ h) :
    ∃ f : ThermSt → ThermSt, (∀ t, (f t).warnAt = w ∧ (f t).throttleAt = h ∧ (f t).ec = keepZero t.ec (q.arg 10 2)) ∧
      setDeviceTherm q s = (modTherm f s, .done stOk (thermSettings (modTherm f s))) := by
  subst warn throttle
  exact ⟨_, fun _ => ⟨rfl, rfl, rfl⟩, if_neg (by omega)⟩

theorem thermSettings_congr {s u : State} (therm : u.therm = s.therm) : thermSettings u = thermSettings s := by
  simp only [thermSettings, therm]

theorem thermConfig_device {s : State} {p : Port} {sl : Fin 4} {w h : Nat} (granted : Granted thermConfigSpec s p sl)
    (set : (s.req p sl).queryFlag = false) (device : (s.req p sl).target = 0xFFFF) (warn : (s.req p sl).argByte 8 = w)
    (throttle : (s.req p sl).argByte 9 = h)
    (warnLow : 60 ≤ w) (warnHigh : w ≤ 115) (low : 70 ≤ h) (high : h ≤ 120) (apart : w + 10 ≤ h) :
    Gives (.thermConfig p sl) s (fun t => t.therm.warnAt = w ∧ t.therm.throttleAt = h ∧
      t.therm.ec = (if (s.req p sl).arg 10 2 = 0 then s.therm.ec else (s.req p sl).arg 10 2) ∧
      Answered s t p sl stOk (thermSettings t)) := by
  obtain ⟨f, sets, settings⟩ := setDeviceTherm_sets (q := takenReq s p sl) (s := takenState thermConfigSpec s p sl)
    (by simpa using warn) (by simpa using throttle) warnLow warnHigh low high apart
  have body : thermConfigSpec.body (takenReq s p sl) (takenState thermConfigSpec s p sl) = _ :=
    (if_neg (by simp [set])).trans ((if_pos (by simpa using device)).trans settings)
  obtain ⟨warned, throttled, energy⟩ := sets s.therm
  have therm (res) : (committed s (postResponse p sl stOk (takenState thermConfigSpec s p sl).tick.number.toNat res
      (modTherm f (takenState thermConfigSpec s p sl)))).therm = f s.therm := by simp
  refine gives_done granted body rfl ?_
  refine ⟨?_, ?_, ?_, ?_⟩
  · exact (congrArg ThermSt.warnAt (therm _)).trans warned
  · exact (congrArg ThermSt.throttleAt (therm _)).trans throttled
  · refine (congrArg ThermSt.ec (therm _)).trans (energy.trans ?_)
    rw [takenReq_arg, keepZero]
  · rw [thermSettings_congr ((committed_therm ..).trans (postResponse_therm ..))]
    exact answered_committed rfl (by simp)

theorem budgetSetting_congr {s u : State} (therm : u.therm = s.therm) (r : Nat) :
    budgetSetting r u = budgetSetting r s := by
  rw [budgetSetting, State.govern_congr therm, budgetSetting]

theorem setBudget_sets {q : Req} {s : State} {b : Nat} (names : q.arg 8 2 = b)
    (allowed : b = 0xFFFF ∨ (5 ≤ b ∧ b ≤ 100)) :
    ∃ u, setBudget q s = (u, .done stOk (budgetSetting q.target u)) ∧
      u = modGovern q.target (fun g => { g with budget := if b = 0xFFFF then none else some b }) s := by
  subst names
  exact ⟨_, if_neg (by omega), rfl⟩

theorem thermConfig_budget {s : State} {p : Port} {sl : Fin 4} {r b : Nat} (target : (s.req p sl).target = r)
    (granted : Granted thermConfigSpec s p sl) (set : (s.req p sl).queryFlag = false) (below : r < 64)
    (names : (s.req p sl).arg 8 2 = b) (allowed : b = 0xFFFF ∨ (5 ≤ b ∧ b ≤ 100)) :
    Gives (.thermConfig p sl) s (fun t => (t.govern r).budget = (if b = 0xFFFF then none else some b) ∧
      Answered s t p sl stOk (budgetSetting r t)) := by
  obtain ⟨u, sets, state⟩ := setBudget_sets (q := takenReq s p sl) (s := takenState thermConfigSpec s p sl)
    (by simpa using names) allowed
  have body : thermConfigSpec.body (takenReq s p sl) (takenState thermConfigSpec s p sl) = _ :=
    (if_neg (by simp [set])).trans ((if_neg (by rw [takenReq_target]; omega)).trans sets)
  rw [takenReq_target, target] at body state
  have therm (tick res) : (committed s (postResponse p sl stOk tick res u)).therm = u.therm := by simp
  have slot : u.slot p sl = (takenState thermConfigSpec s p sl).slot p sl := by rw [state]; rfl
  have tick : u.tick = s.tick := by rw [state]; exact takenState_tick ..
  refine gives_done granted body slot ⟨?_, ?_⟩
  · rw [State.govern_congr (therm ..), state, modGovern_govern]
  · rw [budgetSetting_congr (therm ..)]
    exact answered_committed slot (by rw [tick])

/-! ### `THERM_READ` and `THERM_SENSOR` (Tables 17.8 and 17.9) -/

theorem thermState_congr {s u : State} (therm : u.therm = s.therm) (dev : u.dev = s.dev) : thermState u = thermState s := by
  simp only [thermState, therm, dev]

theorem thermRead_reports {s : State} {p : Port} {sl : Fin 4} {a n : Nat} (granted : Granted thermReadSpec s p sl)
    (first : (s.req p sl).argByte 8 = a) (count : (s.req p sl).argByte 9 = n) (some : 1 ≤ n) (most : n ≤ 72)
    (last : a + n ≤ 144) :
    Gives (.thermRead p sl) s (fun t => t.therm = s.therm ∧ Answered s t p sl stOk ((16, 4, thermState s) ::
      (List.range n).map (fun i => (20 + 3 * i, 3, sensorField s.therm (a + i))))) := by
  have body : thermReadSpec.body (takenReq s p sl) (takenState thermReadSpec s p sl) = _ :=
    if_neg (by simp only [takenReq_argByte, first, count]; omega)
  rw [thermState_congr (takenState_therm ..) (takenState_dev ..), takenState_therm, takenReq_argByte, takenReq_argByte,
    first, count] at body
  exact gives_done granted body rfl ⟨by simp, answered_committed rfl (by simp)⟩

theorem sensorEvent_slot (i sev : Nat) (s : State) (p : Port) (sl : Fin 4) :
    (sensorEvent i sev s).slot p sl = s.slot p sl := by
  unfold sensorEvent
  rw [useFree_slot, raise_slot]

theorem thermSensor_readmits {s : State} {p : Port} {sl : Fin 4} {r : Nat} (target : (s.req p sl).target = r)
    (granted : Granted thermSensorSpec s p sl) (readmit : (s.req p sl).argByte 8 = 1)
    (broken : (s.therm.sensor r).broken = true) :
    Gives (.thermSensor p sl) s (fun t => (t.therm.sensor r).broken = false ∧
      (t.therm.sensor r).raw = (s.therm.sensor r).raw ∧ Answered s t p sl stOk [(16, 1, 0)]) := by
  have body : thermSensorSpec.body (takenReq s p sl) (takenState thermSensorSpec s p sl) = _ :=
    if_neg (by simp [readmit, target, broken])
  rw [takenReq_target, target] at body
  have slot : (modTherm (fun t => { t with sensors := tmod {} t.sensors r (fun x => { raw := x.raw }) })
      (sensorEvent r 1 (takenState thermSensorSpec s p sl))).slot p sl = (takenState thermSensorSpec s p sl).slot p sl :=
    (slot_of_ports rfl p sl).trans (sensorEvent_slot ..)
  refine gives_done granted body slot ⟨?_, ?_, answered_committed slot (by simp [sensorEvent])⟩
  · simp [ThermSt.sensor]
  · simp [ThermSt.sensor]

/-! ### `AGEING_PLAN` (Table 17.10) -/

theorem planResults_takenState (c : CmdSpec) (s : State) (p : Port) (sl : Fin 4) :
    planResults (takenState c s p sl) = planResults s := by
  simp [planResults, State.guardDue, State.kPlan, State.kMax]

theorem ageingPlan_reads {s : State} {p : Port} {sl : Fin 4} (granted : Granted ageingPlanSpec s p sl)
    (operation : (s.req p sl).argByte 8 = 0) :
    Gives (.ageingPlan p sl) s (fun t => Answered s t p sl stOk (planResults s) ∧ t.therm = s.therm) := by
  have body : ageingPlanSpec.body (takenReq s p sl) (takenState ageingPlanSpec s p sl) =
      (takenState ageingPlanSpec s p sl, .done stOk (planResults s)) := by
    simp [ageingPlanSpec, operation, planResults_takenState]
  exact gives_done granted body rfl ⟨answered_committed rfl (by simp), by simp⟩

/-- The regions of R458 are due to be freed from their cause of isolation. -/
def freeFloor (s : State) : State :=
  forEach s.therm.floorOut (fun r => modRegion r (fun x => { x with freeDue := x.freeDue ++ [.floor] })) s

theorem freeFloor_frees {s : State} {k : Nat} (floored : k ∈ s.therm.floorOut) :
    IsoCause.floor ∈ ((freeFloor s).region k).freeDue := by
  refine forEach_establishes (P := fun u => IsoCause.floor ∈ (u.region k).freeDue) (x := k) (fun u => by simp)
    (fun y u kept => ?_) floored s
  by_cases own : k = y
  · subst own
    simp
  · rwa [modRegion_region_ne (h := own)]

theorem ageingPlan_resets {s : State} {p : Port} {sl : Fin 4} (granted : Granted ageingPlanSpec s p sl)
    (operation : (s.req p sl).argByte 8 = 2) :
    Gives (.ageingPlan p sl) s (fun t => t.therm.floorOut = [] ∧ (t.slot p sl).st = .done ∧
      ∀ k ∈ s.therm.floorOut, IsoCause.floor ∈ (t.region k).freeDue) := by
  have body : ∃ res, ageingPlanSpec.body (takenReq s p sl) (takenState ageingPlanSpec s p sl) =
      (rePlan (modTherm (fun t => { t with floorOut := [] }) (freeFloor (takenState ageingPlanSpec s p sl))),
        .done stOk res) := by
    simp only [ageingPlanSpec, takenReq_argByte, operation]
    exact ⟨_, rfl⟩
  obtain ⟨res, body⟩ := body
  have slot : (rePlan (modTherm (fun t => { t with floorOut := [] }) (freeFloor
      (takenState ageingPlanSpec s p sl)))).slot p sl = (takenState ageingPlanSpec s p sl).slot p sl := by
    refine (rePlan_keeps (State.slot · p sl) (fun _ _ => rfl) (fun _ _ _ => rfl) (fun _ _ => rfl) (fun _ _ => rfl)
      (fun e u => raise_slot e u p sl)).trans ?_
    exact forEach_keeps (State.slot · p sl) _ _ _ fun _ _ => rfl
  refine gives_done granted body slot ⟨?_, (postResponse_committed slot).1, fun k floored => ?_⟩
  · obtain ⟨due, therm⟩ := rePlan_therm (modTherm (fun t => { t with floorOut := [] }) (freeFloor
      (takenState ageingPlanSpec s p sl)))
    simp [therm]
  · have regions (u) : (rePlan u).regions = u.regions := (same_rePlan (part := .regions) (s₀ := u) (by decide)).mpr rfl
    rw [region_congr (s := freeFloor (takenState ageingPlanSpec s p sl)) (by simp [regions])]
    exact freeFloor_frees (by simpa using floored)

/-- Settles O19: a sample keeps its readings through the thresholds and the shutdown, the governor evaluates each region once,
and a new plan keeps to the limits of Table 17.5. -/
theorem thermalComplete : Obligations.ThermalComplete := by
  refine ⟨fun s => ⟨fun raw => sensorSample_counts raw, fun activity => governorEstimate_estimates activity,
    governorEvaluate_evaluates, fun ratios => ageingMeasurement_records ratios, planUpdate_plans⟩,
    fun s p sl r target => ⟨fun w h granted set device warn throttle => ?_,
      fun b granted set below names => thermConfig_budget target granted set below names,
      fun a n granted => thermRead_reports granted, thermSensor_readmits target, ageingPlan_reads, ageingPlan_resets⟩⟩
  exact thermConfig_device granted set (target.trans device) warn throttle

end Sys2Proof.Machine
